-- ==== Sys2Proof/Word.lean ====
section
/-! DEFINITION. Word.lean: the words of the MF9610: a register word (R5), a byte of a packet, of the flash or of the DRAM,
and a 48-bit frame number (R6). -/
namespace Sys2Proof

/-- A register word, 32 bits (R5). -/
abbrev Word := BitVec 32

/-- One byte. -/
abbrev Byte := BitVec 8

/-- A frame number: 48 bits, wrapping to 0 (R6). -/
abbrev FrameNo := BitVec 48

end Sys2Proof
end

