-- ==== Sys2Proof/Syntax.lean ====
section
/-! DEFINITION. Syntax.lean: the commands of the block, one constructor per row of opcode_table.json, with the operands the
spec gives each: the value written and the path it came by, the port, the packet copy, the bytes of a frame. -/
namespace Sys2Proof

/-- The path a register access comes by: the host's BAR0, a local command descriptor, a packet of the ring. -/
inductive Access | bar0 | local | packet
deriving DecidableEq, Repr

/-- The wake sources of R373: the Vodan port, signal detect, an EVT_IN pin. -/
inductive Wake where
  | vodan
  | sigdet
  | evtin (n : Fin 4)
deriving DecidableEq, Repr

/-- A packet copy as it arrives (R64): byte 1 of the SOP block, its route and SEQ, the data blocks, the PAD and CRC fields of
the EOP block, and whether the framing held (no FAULT or invalid block between SOP and EOP). -/
structure Copy where
  ctl : Byte
  route : Word
  seq : BitVec 16
  data : List Byte
  pad : BitVec 8
  crc : Word
  framed : Bool
deriving DecidableEq, Repr

/-- The header fields of an arriving MIRROR packet that every KIND shares (R273): channel S, MSEQ, ACK. -/
structure MHead where
  chS : Bool
  mseq : BitVec 16
  ack : BitVec 16
deriving DecidableEq, Repr

/-- Resync content of a SYNC item (R295): mirrored registers (address, word), a ring's SEQ counter, a map table, a layer's
buffer in force with its held media time, an XID's state code and target, bytes of a mirrored region, the sync fence. -/
inductive SyncItem where
  | regs (l : List (BitVec 25 × Word))
  | seq (ring : Fin 8) (next : BitVec 16)
  | map (ring : Fin 8) (bytes : List Byte)
  | layer (ring : Fin 8) (layer : Fin 16) (buf : Option (BitVec 34)) (media : BitVec 64)
  | xid (x : Fin 16) (st : Fin 6) (target : BitVec 48)
  | dram (addr : BitVec 34) (bytes : List Byte)
  | fence (frame : BitVec 48)
deriving DecidableEq, Repr


/-- A reply to an ENUM request on the return line of a Drive Link port: the position asked, its 24 data bits, its CRC-6 (R240, R241). -/
structure EnumReply where
  port : Fin 16
  pos : Fin 32
  bits : BitVec 24
  crc : BitVec 6
deriving DecidableEq, Repr

/-- How a channel's training ended (R351): the values it trained to, or the step and lane without an eye. -/
inductive Train where
  | ok (vref vrange eyeR eyeW : Byte)
  | fail (step lane : Byte)
deriving DecidableEq, Repr

/-- The commands: what software, the links, the clocks and the board do to the device. -/
inductive Instr where
  /-- PORST_N goes low: the device enters BYPASS in reset, BYPASS_OPEN is driven low and every field returns to reset. (R61) -/
  | porstNAssert
  /-- Release of PORST_N starts power-up: the straps are sampled and the start-up sequence begins in BYPASS in reset. (R374) -/
  | porstNRelease (role : BitVec 2) (xoDly : BitVec 2)
  /-- WRST_N goes low: the device enters BYPASS in reset and BYPASS_OPEN falls. (R374) -/
  | wrstNAssert
  /-- Release of WRST_N reruns start-up from step 2 without resampling the straps, and retained fields keep their values. (R374) -/
  | wrstNRelease
  /-- VDD_CORE or VDD_AON stays below 90 % of nominal for 2 µs, which acts as a low on PORST_N. (R429) -/
  | supplyMonitorLow
  /-- Reed becomes ready: frequency checks are armed, and any domains held stopped start on Reed. (R363) -/
  | reedReady
  /-- The crystal delay and the 64 µs check end: pass sets XO_OK, failure counts XO_TRIES and reruns the delay. (R357) -/
  | crystalCheckDone (ok : Bool)
  /-- A PLL completes lock or relock to its source, and the core domain rejoins at ÷8 or ÷4. (R361) -/
  | pllLock (pll : Fin 4)
  /-- RAMP_STEP passes and the core divider steps one step up in frequency. (R365) -/
  | rampStep
  /-- A clock monitor's edge or frequency check trips and every PLL using that source moves to its next source. (R362) -/
  | clockMonitorTrip (src : Fin 3)
  /-- Reed's own monitor trips: Reed restarts and the domains on it are held stopped. (R364) -/
  | reedFail
  /-- Reed is not ready 20 µs after a restart, and the device enters BYPASS with cause CLOCK. (R364) -/
  | reedRestartTimeout
  /-- A higher-listed source has been healthy for RETURN_HOLD, and the PLL returns to it. (R361) -/
  | returnHoldExpire (pll : Fin 4) (hitless : Bool)
  /-- The once-per-second measurement of Reed against REFCLK_IN, the crystal or the Bugle period adjusts or rejects CODE, and LPO correction is updated. (R360) -/
  | trimMeasurement (src : Fin 4) (errPpm : BitVec 16) (code : BitVec 10) (lpoHz : BitVec 24)
  /-- VDD_CORE falls below the droop level, and the core domain is limited to ÷2 within 2 core clocks. (R366) -/
  | droopDetect
  /-- The rail stays above the level plus 1 % for the recovery hold, and the divider steps back. (R366) -/
  | droopRecovery
  /-- A unit's gate close is requested by a mode change or enable write, and waits for any bus access in flight. (R369) -/
  | gateCloseRequest (unit : Fin 16) (inFlight : Bool)
  /-- A gate close request waits beyond GATE_TIMEOUT and is abandoned, with PWR_GATE_TIMEOUT. (R369) -/
  | gateTimeout (unit : Fin 16)
  /-- A write of SYS_MODE.REQ requests a mode; it is refused, queued or run through the transitions of R372. (R371) -/
  | modeRequest (path : Access) (req : BitVec 3)
  /-- A mode transition completes its steps, and SYS_MODE is raised with the new mode, old mode and cause. (R372) -/
  | modeTransitionDone (replies : List EnumReply)
  /-- An accepted SENTRY request stops the ports, DRAM clocks, units, PLLs, Reed and crystal in order. (R373) -/
  | sentryEntry
  /-- An enabled wake source (Vodan, signal detect, EVT_IN edge) in SENTRY starts the wake sequence to STANDBY. (R373) -/
  | wakeSource (src : Wake)
  /-- WAKE_TIME expires after SENTRY entry and starts the wake sequence. (R373) -/
  | wakeTimerExpire
  /-- The loader reads the image header and sections, applies PRELOAD, trains DRAM, streams SAFE and CAL, and starts the blend engine. (R394) -/
  | imageLoad (sfdp : Option (BitVec 16 × Byte)) (ms : BitVec 16) (t0 t1 : Train) (flashOk : Bool)
  /-- A write of CL_PCFG.EN = 1 takes a port from OFF to SEARCH, or refuses it on a lane conflict. (R43) -/
  | portEnable (path : Access) (p : Fin 12) (w : Word)
  /-- Signal detect rises on every lane of a port, which moves from SEARCH to CDR. (R43) -/
  | signalDetect (p : Fin 12)
  /-- CDR lock is gained on every lane, the port moves to BLOCK, and the lane PLL may relock to it. (R43) -/
  | cdrLock (p : Fin 12)
  /-- 64 consecutive valid sync headers give block lock; with deskew the port moves to STABLE, or waits in BLOCK while BYPASS_OPEN is low. (R46) -/
  | blockLock (p : Fin 12) (deskew : Bool)
  /-- The 100 µs limit for CDR lock or block lock passes, and the port falls back a state. (R43) -/
  | bringupStepTimeout (p : Fin 12)
  /-- STABLE_TIME passes with no loss, and the port enters TRAIN. (R43) -/
  | stableTimeExpire (p : Fin 12)
  /-- TRAIN_TIMEOUT passes after TRAIN was entered, and the port returns to SEARCH with CL_TRAIN_TIMEOUT. (R43) -/
  | trainTimeout (p : Fin 12)
  /-- Every 1,024 blocks a port in TRAIN sends a TRAIN group on its lower-numbered lane. (R48) -/
  | trainGroupSend (p : Fin 12) (stamp turnaround : Word)
  /-- A TRAIN group is received: CRC, direction, round-trip sample and partner checks, and the port enters UP when R48 holds. (R48) -/
  | trainGroupRx (p : Fin 12) (blocks : List (BitVec 64)) (t4 : Word)
  /-- The input stays below the detect threshold for LOS_TIME, and the port falls back to SEARCH. (R46) -/
  | lossOfSignal (lane : Fin 16) (cut : Bool)
  /-- The CDR sees more than ±300 ppm, and the port falls back to CDR. (R46) -/
  | lossOfLock (lane : Fin 16) (cut : Bool)
  /-- 16 or more invalid headers among 64 blocks lose block lock, and the port falls back to BLOCK. (R44) -/
  | blockLockLost (lane : Fin 16) (cut : Bool)
  /-- A 1 ms window ends, and HIBER is set or cleared against BER_THR. (R47) -/
  | hiberWindowEnd (lane : Fin 16) (invalid : Word)
  /-- Every 16,384 blocks per lane a bonded originator or idle port inserts an ALIGN pair. (R36) -/
  | alignPairSend (p : Fin 12)
  /-- A bonded receiver deskews on an ALIGN pair, or raises LANE_ALIGN_ERR and drops lock. (R37) -/
  | alignPairRx (p : Fin 12) (paired inReach : Bool) (pairs : Word)
  /-- An invalid block is counted and replaced by a FAULT block of reason 01h in the forwarded stream. (R40) -/
  | invalidBlockRx (p : Fin 12) (second : Bool) (header : BitVec 2) (line : BitVec 64) (prev : BitVec 58)
  /-- A FAULT block is received, forwarded unchanged and counted, and feed-loss state may change. (R40) -/
  | faultBlockRx (p : Fin 12) (reason : Byte) (pos : BitVec 6)
  /-- Every 1,024 blocks a transmitter without upstream sends a FAULT block of reason 02h, followed by an 8-block train. (R56) -/
  | faultFillerSend (p : Fin 12)
  /-- One port has block lock and the other no signal for BYP_LONE, so BYPASS_OPEN goes high. (R59) -/
  | bypLoneExpire
  /-- BYP_SETTLE passes, and the ports leave SETTLE to run bring-up from SEARCH. (R60) -/
  | bypSettleExpire
  /-- A write of CL_BYP.FORCE_CLOSE drives BYPASS_OPEN low, or releases it to rise under R59. (R62) -/
  | forceCloseWrite (path : Access) (w : Word)
  /-- BYPASS_OPEN falls while running: both ports leave their state, send filler and enter SETTLE. (R62) -/
  | bypassOpenFall (cut : Bool)
  /-- A carriage receives a downward packet copy, judges it intact, merges it by SEQ, forwards it, and accepts it or not. (R73) -/
  | downPacketRx (p : Fin 12) (c : Copy)
  /-- A ring end receives an upward packet copy and merges it per position and SEQ. (R74) -/
  | upPacketRx (p : Fin 12) (c : Copy)
  /-- ORDER_WAIT passes for a held packet, its gaps are given up, and held packets execute in SEQ order. (R75) -/
  | orderWaitExpire
  /-- An accepted REGWR executes word by word under apply classes, answering REGRSP if RESP = 1. (R83) -/
  | regwr
  /-- An accepted REGRD reads words and answers with a REGRSP in open slots. (R83) -/
  | regrd
  /-- An accepted TABLE packet writes its body to consecutive addresses, including lamp-store windows. (R69) -/
  | table
  /-- A ring end matches a REGRSP by route, RHB and TAG to its register descriptor. (R313) -/
  | regrspRx
  /-- A ring end turns an accepted EVENT packet into a remote record, or holds or drops it. (R335) -/
  | eventPacketRx
  /-- Every ECHO_INT each UP port sends an ECHO to its partner. (R85) -/
  | echoSend (p : Fin 12) (stamp turnaround : Word)
  /-- A port consumes an ECHO, takes a round-trip sample and updates CL_PDELAY per 32 samples. (R85) -/
  | echoRx (p : Fin 12) (c : Copy) (t4 : Word)
  /-- An open-slot train falls due on the ring-end grid and is sent as soon as no packet or run blocks it. (R78) -/
  | slotTrainDue (p : Fin 12) (free : Word)
  /-- A carriage sees an open-slot train and inserts its next upward packet if SLOT_GAP allows. (R79) -/
  | openTrainRx (p : Fin 12) (cut : Bool)
  /-- A ring end sends its ring table as a TABLE to position 63, within 1 ms of a change or once a second. (R86) -/
  | ringTableSend (ring : Fin 8)
  /-- A carriage receives a ring table and applies the position rules of R24. (R86) -/
  | ringTableRx
  /-- An accepted PIXEL segment is written into the fill buffer with its CRC recorded, dropped, counted late, or compared in RUN-quiet. (R184) -/
  | pixelSegmentRx (crcUe : Bool)
  /-- A write of WT_INC sets the clock increment from the next wall tick, clamped to INC_LIM. (R89) -/
  | wtIncWrite (path : Access) (w : Word)
  /-- No WT_INC write arrives for SERVO_WD, and FREERUN is set with WT_FREERUN. (R90) -/
  | servoWdExpire
  /-- A write of WT_CTL.FREERUN_SET sets FREERUN. (R90) -/
  | freerunSet (path : Access)
  /-- A write of WT_CTL.FREERUN_CLR clears FREERUN. (R90) -/
  | freerunClr (path : Access)
  /-- A write of WT_STEP_HI adds the signed offset to the clock at the next wall tick, if WT is disabled. (R91) -/
  | wtStep (path : Access) (lo hi : Word)
  /-- An accepted EVT_IN edge is timestamped in wall time and raises WT_EVTIN, or WT_EVTIN_OVF if its queue is full. (R94) -/
  | evtInEdge (pin : Fin 4) (rising : Bool)
  /-- A write of WT_RCFG.EN = 1 starts a ring generator at the first frame whose copy 0 departure is not yet past. (R96) -/
  | generatorEnable (path : Access) (n : Fin 8) (w : Word)
  /-- The nominal departure of mark copy r falls, and the originator sends the Bugle run with CORR out of both ends. (R100) -/
  | bugleSend (n : Fin 8) (low high mirror : Word)
  /-- A device receives a Bugle run, forwards it with CORR updated if intact, and computes the predicted fence. (R102) -/
  | bugleRx (p : Fin 12) (blocks : List Byte)
  /-- No intact copy has arrived from the timing direction 50 µs before the predicted fence, so the other direction's copy is used. (R103) -/
  | otherDirectionFallback
  /-- The fence of a frame falls: commits, transaction applies, swaps, composition windows, readout, latch and follower state advance together. (R97) -/
  | fence (src : Option (Fin 8))
  /-- A write of SYS_COMMIT.COMMIT closes the open set of S writes, or is refused while PEND = 1. (R115) -/
  | sysCommit (path : Access) (w : Word)
  /-- A write to a register with no row of its own takes effect under its apply class, with Q fields judged under R118. (R10) -/
  | registerWrite (path : Access) (addr : BitVec 25) (w : Word)
  /-- A write of XA_ABORT aborts the masked XIDs that are BUILDING, PREPARING or VOTING with reason HOST. (R133) -/
  | xaAbort (path : Access) (w : Word)
  /-- The XA unit reads entry lists and sends the prepare parts and prepare close to every touched ring. (R121) -/
  | xaPrepareSend (xid : Fin 16) (data : Option (List Byte))
  /-- A follower stages the entries of an accepted prepare, or starts a new use of the XID. (R122) -/
  | xaPrepareRx
  /-- A follower executes a prepare close and queues its READY or REFUSE vote. (R124) -/
  | xaPrepareCloseRx
  /-- A coach votes on a parent transaction once its sub-transaction is ready. (R124) -/
  | xaVoteSend (xid : Fin 16)
  /-- A ring end counts a vote, and decides to fire or abort when all are in or one refuses. (R126) -/
  | xaVoteRx
  /-- The vote deadline passes undecided, and the transaction aborts. (R128) -/
  | xaDeadline (xid : Fin 16)
  /-- A ring end takes an arm-ack and posts the XA_COMMIT completion once every voter has reported. (R132) -/
  | xaArmackRx
  /-- A network port gains PCS block lock without hi_ber and with FEC lock, raising NI_PORT_UP. (R139) -/
  | netPortUp (n : Fin 4) (fecLock : Bool)
  /-- A network port loses its up conditions, raising NI_PORT_DOWN. (R139) -/
  | netPortDown (n : Fin 4) (cause : Fin 3)
  /-- A received Ethernet frame is checked, classified and sent to a flow, the host receive ring, or dropped. (R141) -/
  | netFrameRx (n : Fin 4) (bytes : List Byte) (fcsOk drop : Bool) (fecCorr fecUncorr : BitVec 16)
  /-- A write of NI_FCFG.EN = 1 runs the enable checks and moves the flow to WAIT, or refuses it. (R144) -/
  | flowEnable (path : Access) (f : Fin 32) (w : Word)
  /-- A write of NI_FCFG.EN = 0 discards the open frames, and the flow goes to OFF. (R145) -/
  | flowDisable (path : Access) (f : Fin 32) (w : Word)
  /-- LOSS_TIME passes without an accepted packet on a leg, which goes down, possibly stalling the flow. (R145) -/
  | legLossTime (f : Fin 32) (legB : Bool)
  /-- CLOSE_WAIT passes after the marker or a newer frame's first packet, and the oldest open frame closes. (R149) -/
  | closeWaitExpire (f : Fin 32)
  /-- LOSS_TIME passes with no packet for an open frame, which closes. (R149) -/
  | frameLossExpire (f : Fin 32)
  /-- The partner's close report is late beyond PAIR_WAIT, and the member decides alone. (R152) -/
  | pairWaitExpire (f : Fin 32)
  /-- A write of NI_HRX_TAIL posts receive descriptors to the host receive ring. (R155) -/
  | hrxTailWrite (path : Access) (w : Word) (descs : List (BitVec 64 × BitVec 16))
  /-- A write of NI_HTX_TAIL posts transmit descriptors, which the device sends in ring order. (R156) -/
  | htxTailWrite (path : Access) (w : Word) (descs : List (List Byte))
  /-- A host transmit frame has been sent, and its descriptor completes with STATUS and TS. (R156) -/
  | htxFrameDone (bytes : List Byte)
  /-- A ring's send window closes at flip − GUARD; unsent segments are dropped and the pair digest is formed. (R179) -/
  | sendWindowClose (ring : Fin 8)
  /-- The mapper sends the next PIXEL segment at the paced ceiling when the engine has one ready. (R177) -/
  | mapperSegmentSend (ring : Fin 8) (faults : List Nat) (mapErr : Bool)
  /-- A layer or ring record has been read into its on-chip copy after takeover. (R160) -/
  | recordReadDone (ring : Fin 8) (layer : Option (Fin 16)) (ue : Bool)
  /-- A seal check ends; a mismatch raises CMP_SEAL_FAIL, and the buffer may retire. (R173) -/
  | sealCheckDone (ring : Fin 8) (layer : Fin 16)
  /-- The readout of a frame ends; output rectangle CRCs are compared and the read-back pass starts. (R265) -/
  | readoutEnd (lamps : List (Fin 786432 × Fin 4)) (arrays : List (Fin 5 × Fin 4096))
  /-- The load deadline passes, lamps not yet sent are not sent, and PIX_UNDERRUN is raised. (R243) -/
  | loadDeadline (undelivered : Fin 786433) (lamps : List (Fin 786432 × Fin 4)) (arrays : List (Fin 5 × Fin 4096))
  /-- The read-back pass of the shown buffer ends, and the input band CRCs are compared. (R263) -/
  | readbackPassDone
  /-- A read of word +0 of a lamp-store entry returns it and latches word +4. (R197) -/
  | lsWindowRead (path : Access) (addr : BitVec 25)
  /-- A write to a lamp-store window holds word +0 or writes the whole entry on word +4, if the bank accepts it. (R198) -/
  | lsWindowWrite (path : Access) (addr : BitVec 25) (w : Word)
  /-- A write of PIX_BANK.COPY copies the live bank into the shadow. (R198) -/
  | pixBankCopy (path : Access)
  /-- The bank copy completes, clearing COPY_BUSY. (R198) -/
  | pixCopyDone
  /-- A write of PIX_BANK.SWAP requests a swap through the next SYS_COMMIT. (R200) -/
  | pixBankSwap (path : Access)
  /-- A write of PIX_CTL.EN = 1 starts the pipeline, or is refused with PIX_GEOM_BAD. (R184) -/
  | pixEnable (path : Access) (w : Word)
  /-- The scrubber reads and rewrites lamp-store entries in natural gaps, correcting or reporting errors. (R199) -/
  | lsScrub (bank : Bool) (idx : Fin 786432) (err : Fin 3)
  /-- A wake cause arises in RUN-quiet, DRAM leaves self-refresh and the pipeline clock ramps. (R205) -/
  | quietWake (cause : Fin 16)
  /-- QUIET_MAX passes since RUN-quiet entry, causing a timed wake. (R205) -/
  | quietMaxExpire
  /-- The wake completes, DRAM is out of self-refresh and the pipeline runs at ÷1. (R206) -/
  | quietWakeDone
  /-- The blend engine starts a pass when its conditions and mode trigger hold. (R222) -/
  | blendPassStart
  /-- A blend pass ends, setting READY if changed or being rejected beyond PLAUS_MAX. (R221) -/
  | blendPassDone (residue : List (Fin 786432))
  /-- A write of CAL_CTL.KICK starts a pass in delta mode. (R222) -/
  | calKick (path : Access)
  /-- A write of BLEND_EN = 1 gives the shadow to the blend engine and makes the next pass an INIT pass. (R225) -/
  | blendEnable (path : Access)
  /-- A write of BLEND_EN = 0 ends a running pass, clears READY and returns the shadow to the host. (R226) -/
  | blendDisable (path : Access) (walked : Fin 786433) (residue : List (Fin 786432))
  /-- RETRY seconds pass after a rejected pass, and the engine may start the next. (R223) -/
  | blendRetryExpire
  /-- LOOP_N sequences have been gathered, and the loop computes new gains or skips. (R229) -/
  | loopUpdate
  /-- A write of CAL_CTL.CAPTURE starts a reference capture, or is refused. (R232) -/
  | calCapture (path : Access)
  /-- The capture has gathered LOOP_N sequences and stores the references and REFSTAT. (R232) -/
  | captureDone
  /-- A write of CAL_CTL.RESET_G sets every loop gain to 4000h at the next fence. (R229) -/
  | calResetG (path : Access)
  /-- A write of AMB_EN = 0 returns AMB to 1000h at the next fence. (R233) -/
  | ambDisable (path : Access)
  /-- A write of DRV_CTL.EN = 1 runs the topology checks and enables Drive Link, or refuses. (R245) -/
  | drvEnable (path : Access)
  /-- A write of DRV_CTL.ENUM requests enumeration at the next light instant. (R250) -/
  | drvEnum (path : Access)
  /-- A write of DRV_CTL.MASK_CLR clears the mask list. (R249) -/
  | maskClr (path : Access)
  /-- A write of DRV_LGCLR clears a legend latch, or is refused while a cause holds. (R258) -/
  | lgClear (path : Access) (w : Word)
  /-- All MD-48 swap buffers at light(N), subframe 0 starts, and ilim_eff takes the frame's THR. (R242) -/
  | lightInstant (replies : List EnumReply)
  /-- A slot starts: SCAN is sent and one STAT or FREAD request per port. (R244) -/
  | scanSlotStart
  /-- A scan gap starts: GAP is sent with LIT for witness lighting, or LIT = 0 if the gap is short. (R244) -/
  | gapStart
  /-- The twelve photodiode inputs are held 1 µs + WIT_TIME after GAP and converted for the loop and ambient scale. (R379) -/
  | pdCapture (codes : List (BitVec 12))
  /-- A STAT or ENUM reply is received and its HEAD drives the rail tracking law. (R248) -/
  | statReplyRx (p : Fin 16) (bits : BitVec 24) (crc : BitVec 6)
  /-- A FREAD reply reports a lamp fault: DRV_LAMP_FAULT, masking, legend latch and a wake. (R249) -/
  | freadReplyRx (p : Fin 16) (bits : BitVec 24) (crc : BitVec 6)
  /-- No valid reply arrives in its window; it counts as no reply and may mark the device lost. (R241) -/
  | retReplyTimeout (p : Fin 16)
  /-- Once per switching period the rail voltage and current are sampled and the duty is computed, with overvoltage and soft-start checks. (R251) -/
  | railPeriod (v cur : BitVec 10)
  /-- The rail stays below V_set − UV_MARGIN for UV_TIME while limited, raising DRV_RAIL_UV. (R253) -/
  | railUvTime (v : BitVec 10)
  /-- A write of DRV_RAIL_CTL.RESTART leaves FAULT and soft-starts the rail. (R253) -/
  | railRestart (path : Access)
  /-- A MIRROR DIGEST from the partner is compared with the own digest of the ring and frame. (R268) -/
  | digestRx (h : MHead) (ring : Fin 8) (frame : BitVec 48) (digest : Word)
  /-- The standby applies mirrored register writes from a REGW item. (R276) -/
  | mirrorRegw (h : MHead) (writes : List (BitVec 25 × Word))
  /-- The standby checks a mirrored descriptor and answers ACKK. (R279) -/
  | mirrorDesc (h : MHead) (ring : Fin 16) (index : BitVec 12) (frame : BitVec 48) (desc data : List Byte)
  /-- The standby writes a mirrored DRAM region write. (R278) -/
  | mirrorDramw (h : MHead) (addr : BitVec 34) (data : List Byte)
  /-- The standby queues a downward control packet to send at its SEQ's turn. (R280) -/
  | mirrorDown (h : MHead) (ring : Fin 8) (c : Copy)
  /-- The standby records assigned control SEQs, or goes SILENT on a slip. (R280) -/
  | mirrorSeqmark (h : MHead) (ring : Fin 8) (next : BitVec 16) (ctrl : List (BitVec 16))
  /-- A member feeds an upward packet accepted by its partner into its own merge windows. (R281) -/
  | mirrorUpfwd (h : MHead) (ring : Fin 8) (east : Bool) (c : Copy)
  /-- A partner's close report is received and the pair publication decision is made. (R152) -/
  | mirrorClose (h : MHead) (f : Fin 32) (media : BitVec 64) (missing : List (BitVec 16))
  /-- Repair lines from the partner are written into the frame. (R152) -/
  | mirrorLines (h : MHead) (f : Fin 32) (media : BitVec 64) (row : BitVec 16) (data : List Byte)
  /-- The standby takes the reported buffer choice for a layer and frame. (R168) -/
  | mirrorSample (h : MHead) (ring : Fin 8) (layer : Fin 16) (frame : BitVec 48) (media : BitVec 64)
  /-- The standby takes a transaction decision and acknowledges it. (R128) -/
  | mirrorXadec (h : MHead) (xid : Fin 16) (fired : Bool) (target : BitVec 48)
  /-- The active takes the standby's acknowledgement of a DESC or XADEC, applying or firing. (R279) -/
  | mirrorAckk (h : MHead) (kind : Byte) (mseq : BitVec 16) (result : Byte)
  /-- The holder receives a CLAIM and grants a fence once no XID is running. (R289) -/
  | mirrorClaim (h : MHead) (mask : Byte) (frame : BitVec 48)
  /-- The claimant receives GRANT and will hold the rings from the granted fence. (R289) -/
  | mirrorGrant (h : MHead) (mask : Byte) (frame : BitVec 48)
  /-- A LINK packet carries only an acknowledgement of the channel. (R273) -/
  | mirrorLink (h : MHead)
  /-- The resync target receives resync content. (R295) -/
  | mirrorSync (h : MHead) (item : SyncItem)
  /-- ACK makes no progress for 20 µs, and unacknowledged MIRROR packets are resent. (R273) -/
  | mirrorResend (chS : Bool)
  /-- A member sends a Whistle per enabled ring at each fence, every WHISTLE_INT, or on a content change. (R283) -/
  | whistleSend (ring : Fin 8)
  /-- An intact Whistle updates a carriage's followed lease, or makes a member step down. (R284) -/
  | whistleRx (p : Fin 12) (block : List Byte)
  /-- A carriage hears no held Whistle for LEASE_TIMEOUT and has no lease. (R285) -/
  | followLeaseTimeout
  /-- The partner's Whistles have been absent for MIRROR_TIMEOUT and LEASE_TIMEOUT, and the member claims the ring. (R286) -/
  | leasePromotion (ring : Fin 8)
  /-- No SEQMARK has covered a SEQ for 50 µs, and the standby assigns it to a PIXEL packet. (R280) -/
  | seqFreeTimeout (ring : Fin 8)
  /-- The healthy home member holds no ring after REVERT_HOLDOFF and claims all rings. (R290) -/
  | revertClaim
  /-- With the mirror up and both members holding rings, the non-home member claims the home member's rings. (R291) -/
  | splitRejoin
  /-- A write of RED_CTL.HANDOVER makes the healthy partner claim every held ring. (R290) -/
  | redHandover (path : Access)
  /-- A write of RED_CTL.RINGS_GO lets an active member consume its command rings. (R284) -/
  | ringsGo (path : Access)
  /-- A write of RED_CTL.RESYNC on the source, or the mirror port reaching UP, starts a pair resync. (R295) -/
  | resync (path : Option Access)
  /-- A doorbell write posts descriptors, or is ignored with HIF_DB_ERR. (R304) -/
  | hifDb (path : Access) (ring : Fin 16) (w : Word)
  /-- The device consumes the head descriptor of a ring when its conditions hold, reserving a completion slot. (R305) -/
  | descriptorConsume (ring : Fin 16) (desc : Option (List Byte))
  /-- A NOP descriptor completes 00h when consumed. (R310) -/
  | nop (ring : Fin 16)
  /-- A FENCE descriptor orders its ring and completes at once or at the fence of FRAME. (R310) -/
  | fenceDesc (ring : Fin 16)
  /-- A REG_WRITE descriptor writes locally or sends a REGWR to its route. (R311) -/
  | regWrite (ring : Fin 16) (data : Option (List Byte))
  /-- A REG_READ descriptor reads locally or sends a REGRD, gathering replies into its record or RBUF. (R311) -/
  | regRead (ring : Fin 16)
  /-- A TABLE_LOAD descriptor sends host data as TABLE packets with replies. (R315) -/
  | tableLoad (ring : Fin 16) (data : Option (List Byte))
  /-- A LAYER_FLIP installs a new graphics buffer at frame T, or supersedes or refuses. (R170) -/
  | layerFlip (ring : Fin 16)
  /-- A MAP_LOAD checks a map table and takes effect at its frame, or refuses. (R178) -/
  | mapLoad (ring : Fin 16) (data : Option (List Byte))
  /-- An XA_BEGIN puts a FREE XID into BUILDING, or waits. (R120) -/
  | xaBegin (ring : Fin 16)
  /-- An XA_ADD records a destination with its entry list, OPS and SLOT. (R120) -/
  | xaAdd (ring : Fin 16)
  /-- An XA_COMMIT checks the transaction, sets TARGET and starts the prepares, or aborts. (R120) -/
  | xaCommit (ring : Fin 16)
  /-- An UPDATE_BLOCK sends one UPDATE packet, or runs a local update step. (R318) -/
  | updateBlock (ring : Fin 16) (data : Option (List Byte))
  /-- REPLY_WAIT passes after departure, and the register descriptor completes. (R313) -/
  | replyWaitExpire (ring : Fin 8) (tag : BitVec 16)
  /-- A write of HIF_CP_CONS releases completion records and frees slots. (R307) -/
  | hifCpCons (path : Access) (ring : Fin 16) (w : Word)
  /-- A write of HIF_CR_CTL.EN = 0 stops consumption and flushes a waiting head. (R319) -/
  | commandRingDisable (path : Access) (ring : Fin 16) (w : Word)
  /-- A BAR0 write with a byte enable clear is dropped and counted. (R300) -/
  | bar0AccessErr (addr : BitVec 25)
  /-- A BAR2 access reads or writes DRAM, merging partial writes and mirroring in a pair. (R301) -/
  | bar2Access (off : BitVec 28) (write : Option (List (Option Byte))) (len : BitVec 12)
  /-- A Function Level Reset returns HIF registers to reset and discards unwritten completions. (R302) -/
  | functionLevelReset
  /-- A PCI Express hot reset acts as R302 on the host function. (R302) -/
  | hotReset
  /-- Loss of the PCIe link resets the host function. (R302) -/
  | pcieLinkDown
  /-- The PCIe link comes up, raising HIF_LINK and, after a reset, HIF_FLR. (R302) -/
  | pcieLinkUp (width speed : BitVec 2) (bme : Bool)
  /-- An event source fires and writes a record, counts or waits by its state. (R328) -/
  | sourceFiring (src : Fin 512) (data : List Byte)
  /-- A write of EVC_TCONS releases records and optionally claims the last. (R331) -/
  | evcTcons (path : Access) (t : Fin 4) (w : Word)
  /-- A write of EVC_TEOI pops the target's stack. (R332) -/
  | evcTeoi (path : Access) (t : Fin 4)
  /-- A write of EVC_TCTL.EN from 0 to 1 starts the queue empty. (R327) -/
  | evcTargetEnable (path : Access) (t : Fin 4) (w : Word)
  /-- A write of EVC_TCTL.EN = 0 discards the queue and empties the stack. (R333) -/
  | evcTargetDisable (path : Access) (t : Fin 4) (w : Word)
  /-- A write of EVC_TCTL.AWAKE changes target sleep, releasing held records and messages. (R329) -/
  | evcAwake (path : Access) (t : Fin 4) (awake : Bool)
  /-- A write of MC_CTL.EN = 1 runs initialisation and training. (R351) -/
  | mcEnable (path : Access) (c : Fin 2) (w : Word)
  /-- Training ends, and the channel becomes ready or failed. (R351) -/
  | mcTrainDone (c : Fin 2) (t : Train)
  /-- A write of MC_CTL.EN = 0 puts the channel into self-refresh. (R350) -/
  | mcDisable (path : Access) (c : Fin 2) (w : Word)
  /-- tREFI passes, and a refresh is issued or postponed. (R348) -/
  | refreshDue (c : Fin 2) (rt : Bool)
  /-- SR_IDLE passes without requests, and the channel enters self-refresh. (R350) -/
  | srIdleExpire (c : Fin 2)
  /-- A DRAM request arrives in self-refresh and the channel exits and serves it. (R350) -/
  | selfRefreshExit (c : Fin 2)
  /-- RECAL_INT passes, and a recentring step runs in a gap. (R352) -/
  | recentringStep (c : Fin 2) (abandoned : Bool) (shift eye : Byte)
  /-- The patrol reads the next DRAM block at SCRUB_RATE, correcting errors. (R345) -/
  | patrolScrub (c : Fin 2) (found : Fin 5) (pair : Fin 8)
  /-- A write of MC_FREQ.GO starts a change of data rate, or is refused in RUN. (R353) -/
  | mcFreqGo (path : Access) (c : Fin 2) (w : Word)
  /-- The frequency change and retraining complete. (R353) -/
  | mcFreqDone (c : Fin 2)
  /-- A DRAM raises ALERT_N on a parity error, and the controller reissues the commands. (R354) -/
  | caparAlert (c : Fin 2) (attempts : Fin 16) (read : Option (BitVec 33))
  /-- HK_ROUND passes and a slow round of channel conversions starts. (R377) -/
  | hkRound
  /-- A slow round ends: sensor health, limits, throttle, supplies, traceability and refresh mode are judged. (R384) -/
  | hkRoundEnd (vals : List (BitVec 16)) (dieBad : BitVec 4)
  /-- RESTART_WAIT passes after a die shutdown, and the device restarts from step 2. (R385) -/
  | restartWaitExpire
  /-- An UPDATE OPEN opens a session on a slot and erases its header, or is refused. (R397) -/
  | updateOpen
  /-- An UPDATE DATA writes image bytes at the next offset, or answers ORDER or WAIT. (R398) -/
  | updateData
  /-- An UPDATE CLOSE at TOTAL starts background verification. (R399) -/
  | updateClose
  /-- An UPDATE ABORT ends a ring session. (R396) -/
  | updateAbort
  /-- An UPDATE QUERY reports the session state. (R401) -/
  | updateQuery
  /-- An UPDATE ACK completes its UPDATE_BLOCK descriptor. (R402) -/
  | updateAckRx
  /-- SESS_TIMEOUT passes without an accepted packet, and the session ends. (R396) -/
  | sessTimeout
  /-- Background verification ends, programming VERIFIED or reporting VERIFY. (R399) -/
  | verifyDone (ok : Bool)
  /-- The new activation entry is programmed after the fence, raising UPD_ACTIVATED. (R404) -/
  | actEntryProgrammed (ok : Bool)
  /-- A write of UPD_ACT.GO commits an activation of the device's own image at its next fence. (R406) -/
  | updAct (path : Access) (w : Word)
  /-- An edge of SVC_PRESENT_N raises UPD_SVC_PRESENT and a rise ends a service session. (R403) -/
  | svcPresentEdge (low : Bool)
  /-- The Vodan port ID command returns identity, straps, mode and update state. (R403) -/
  | vodanId (crcOk : Bool)
  /-- The Vodan port READ returns up to 16 register words. (R403) -/
  | vodanRead (crcOk : Bool) (addr : BitVec 25) (count : Byte)
  /-- The Vodan port WRITE writes SYS_MODE, CL_BYP or UPD registers, or answers DENIED. (R403) -/
  | vodanWrite (crcOk : Bool) (addr : BitVec 25) (w : Word)
  /-- The Vodan port OPEN opens a service update session. (R403) -/
  | vodanOpen (crcOk : Bool) (slot : Byte) (total : Word) (number : Byte)
  /-- The Vodan port DATA writes image bytes in the service session. (R403) -/
  | vodanData (crcOk : Bool) (off : Word) (data : List Byte)
  /-- The Vodan port CLOSE ends the service session and starts verification. (R403) -/
  | vodanClose (crcOk : Bool)
  /-- The Vodan port ABORT ends the service session, or with FORCE a ring session. (R403) -/
  | vodanAbort (crcOk : Bool) (force : Bool)
  /-- The Vodan port QUERY returns UPD_STAT and slot states. (R403) -/
  | vodanQuery (crcOk : Bool)
  /-- The tool reads the response frame with OP 0Ah, releasing SVC_ATTN_N. (R403) -/
  | vodanResponse
  /-- A write of OBS_TCTL.CLEAR sets WPTR to 0 and clears WRAPPED and FULL. (R412) -/
  | obsTraceClear (path : Access)
  /-- A write of OBS_CCTL.CLR clears every counter. (R414) -/
  | obsCounterClear (path : Access)
  /-- The TAP BYPASS instruction selects the bypass register. (R415) -/
  | tapBypass
  /-- The TAP IDCODE instruction returns part 9610h, version 1h. (R415) -/
  | tapIdcode
  /-- The TAP SAMPLE/PRELOAD instruction samples or preloads the boundary cells. (R415) -/
  | tapSamplePreload (shifted sampled : List Bool)
  /-- The TAP EXTEST instruction drives the boundary while PORST_N is low, else acts as BYPASS. (R415) -/
  | tapExtest (shifted sampled : List Bool)
  /-- The TAP CLAMP instruction holds outputs while PORST_N is low, else acts as BYPASS. (R415) -/
  | tapClamp
  /-- The TAP HIGHZ instruction floats outputs while PORST_N is low, else acts as BYPASS. (R415) -/
  | tapHighz
  /-- A host BAR0 read of a register returns its value, clears RC fields when all four bytes are enabled, and latches HI words where reading LO latches them. (R7) -/
  | registerRead (path : Access) (addr : BitVec 25) (be : BitVec 4)
  /-- MIRROR_TIMEOUT passes without the holder's Whistle on the mirror link, so a non-holding member's Whistles turn to HELD = 0 and one is sent at once. (R283) -/
  | mirrorTimeoutExpire
  /-- The lease holder sends a SEQMARK for each ring at least every 10 µs over the mirror link. (R280) -/
  | seqmarkInterval
  /-- A flash erase or page program of the update program buffer completes or fails, freeing buffer room or recording a FLASH error for the next DATA or CLOSE. (R398) -/
  | flashWriteDone (ok : Bool)
  /-- PCIE_PERST_N goes low, a conventional reset that returns the host function to reset under R302 without touching the rest of the device. (R302) -/
  | pciePerstN
  /-- A PLL loses lock, raising CKG_PLL_UNLOCK. (R376) -/
  | pllUnlock (pll : Fin 4)
deriving DecidableEq, Repr

end Sys2Proof
end

