-- ==== Sys2Proof/WellFormed.lean ====
section
/-! DEFINITION. WellFormed.lean: which terms of `Instr` spell a command of the spec: byte strings have the lengths their formats fix,
a command of a direction carries a packet of that direction, a descriptor is 64 bytes. `exec` is total on the others too. -/
namespace Sys2Proof

/-- Bit 3 of byte 1 of a SOP block: UP (R64). -/
def Copy.isUp (c : Copy) : Bool := c.ctl.getLsbD 3

/-- The data of a packet is whole blocks of eight bytes (R64). -/
def Copy.wholeBlocks (c : Copy) : Bool := c.data.length % 8 == 0

/-- Host data of a descriptor is absent (the read failed) or whole. -/
def dataOk (unit : Nat) (d : Option (List Byte)) : Bool :=
  match d with
  | none => true
  | some l => l.length % unit == 0

/-- The channel a MIRROR kind belongs to (R274): channel S for the kinds of the first argument `true`. -/
def MHead.on (h : MHead) (chS : Bool) : Bool := h.chS == chS

/-- Whether a command is well formed. -/
def Instr.wellFormed : Instr → Bool
  | .trainGroupRx _ blocks _ => blocks.length == 4
  | .downPacketRx _ c => !c.isUp && c.wholeBlocks
  | .upPacketRx _ c => c.isUp && c.wholeBlocks
  | .bugleRx _ blocks => blocks.length == 32
  | .whistleRx _ block => block.length == 8
  | .pdCapture codes => codes.length == 12
  | .hkRoundEnd vals _ => vals.length == 16
  | .descriptorConsume _ desc => match desc with | none => true | some l => l.length == 64
  | .regWrite _ data => dataOk 4 data
  | .tableLoad _ data => dataOk 8 data
  | .mapLoad _ data => match data with | none => true | some l => decide (992 ≤ l.length)
  | .xaPrepareSend _ data => dataOk 8 data
  | .updateBlock _ data => dataOk 8 data
  | .htxTailWrite _ _ descs => descs.all fun d => d.length == 32
  | .xaDeadline _ => true
  | .digestRx h _ _ _ => h.on false
  | .mirrorRegw h _ => h.on true
  | .mirrorDesc h _ _ _ desc _ => h.on true && desc.length == 64
  | .mirrorDramw h _ _ => h.on true
  | .mirrorDown h _ c => h.on true && !c.isUp && c.wholeBlocks
  | .mirrorSeqmark h _ _ _ => h.on false
  | .mirrorUpfwd h _ _ c => h.on false && c.isUp && c.wholeBlocks
  | .mirrorClose h _ _ _ => h.on false
  | .mirrorLines h _ _ _ _ => h.on false
  | .mirrorSample h _ _ _ _ => h.on false
  | .mirrorXadec h _ _ _ => h.on false
  | .mirrorAckk h _ _ _ => h.on false
  | .mirrorClaim h _ _ => h.on false
  | .mirrorGrant h _ _ => h.on false
  | .mirrorSync h _ => h.on true
  | .lsWindowRead _ addr => decide (0x1000000 ≤ addr.toNat) && addr.toNat % 4 == 0
  | .lsWindowWrite _ addr _ => decide (0x1000000 ≤ addr.toNat) && addr.toNat % 4 == 0
  | .registerWrite _ addr _ => addr.toNat % 4 == 0
  | .registerRead _ addr _ => addr.toNat % 4 == 0
  | .vodanRead _ _ count => decide (1 ≤ count.toNat) && decide (count.toNat ≤ 16)
  | .vodanData _ _ data => decide (8 ≤ data.length) && decide (data.length ≤ 240)
  | _ => true

end Sys2Proof
end

