-- ==== Sys2Proof/Decode.lean ====
section
/-! DEFINITION. Decode.lean: the commands of this block are events on its ports, pins and registers; opcode_table.json gives none of
its rows an encoding, so no word spells a command. -/
namespace Sys2Proof

/-- The command that a word spells by the table's bits: the table gives no row any bits, so none. [log 11 DESIGN CHOICE] -/
def decodeTableWord (_nbits _w : Nat) : Option Instr := none

end Sys2Proof
end

