-- ==== Sys2Proof/Machine/Bits.lean ====
section
/-! DEFINITION. Machine/Bits.lean: bit fields, sign extension, byte order, rounding and the check codes the spec names
(CRC-32 of R65, CRC-16 of R48, CRC-8 of R282, CRC-6 of R241). -/
namespace Sys2Proof.Machine

/-- Field of `w` bits at bit `lo` of `x`. -/
def bits (x lo w : Nat) : Nat := (x >>> lo) % 2 ^ w

/-- Bit `i` of `x`. -/
def bitAt (x i : Nat) : Bool := x.testBit i

/-- `x` with the `w`-bit field at `lo` replaced by `v` (taken modulo 2^w). -/
def setBits (x lo w v : Nat) : Nat :=
  x % 2 ^ lo + (v % 2 ^ w) * 2 ^ lo + (x >>> (lo + w)) * 2 ^ (lo + w)

/-- A Boolean as a bit. -/
def b2n (b : Bool) : Nat := if b then 1 else 0

/-- The two's complement value of the low `w` bits of `x`. -/
def signed (x w : Nat) : Int :=
  let y := x % 2 ^ w
  if y < 2 ^ (w - 1) then (y : Int) else (y : Int) - (2 ^ w : Nat)

/-- The low `w` bits of an integer in two's complement. -/
def toBits (x : Int) (w : Nat) : Nat := (x % ((2 ^ w : Nat) : Int)).toNat

/-- `x` limited to the range [lo, hi]. -/
def clamp (lo hi x : Nat) : Nat := min hi (max lo x)

/-- `x` limited to the range [lo, hi], over the integers. -/
def clampI (lo hi x : Int) : Int := min hi (max lo x)

/-- `x` limited to the signed `w`-bit range. -/
def satI (w : Nat) (x : Int) : Int := clampI (-((2 ^ (w - 1) : Nat) : Int)) (((2 ^ (w - 1) : Nat) : Int) - 1) x

/-- `a / b` rounded half up, b > 0: floor(a / b + 1/2). -/
def roundDiv (a : Int) (b : Nat) : Int := (2 * a + (b : Int)) / (2 * (b : Int))

/-- `a / b` rounded up. -/
def ceilDiv (a b : Nat) : Nat := (a + b - 1) / b

/-- A field of which 0 acts as 1. [log 7 DEDUCED] -/
def zeroAs1 (x : Nat) : Nat := if x = 0 then 1 else x

/-- `x + k` holding at the top of a `w`-bit count (the saturating counts of R7's RC fields). -/
def satAdd (w x k : Nat) : Nat := min (2 ^ w - 1) (x + k)

/-- The `n` bytes of `v`, least significant first (R326). -/
def bytesLE : Nat → Nat → List Byte
  | 0, _ => []
  | n + 1, v => BitVec.ofNat 8 v :: bytesLE n (v / 256)

/-- The `n` bytes of `v`, most significant first (R38). -/
def bytesBE (n v : Nat) : List Byte := (bytesLE n v).reverse

/-- The value of a byte string sent least significant byte first. -/
def leNat : List Byte → Nat
  | [] => 0
  | b :: bs => b.toNat + 256 * leNat bs

/-- The value of a byte string sent most significant byte first. -/
def beNat (bs : List Byte) : Nat := leNat bs.reverse

/-- `n` bytes of `bs` from offset `o`, zeros past the end. -/
def slice (bs : List Byte) (o n : Nat) : List Byte :=
  let t := (bs.drop o).take n
  t ++ List.replicate (n - t.length) 0#8

/-- The field of `n` bytes at offset `o`, most significant byte first (R38). -/
def beAt (bs : List Byte) (o n : Nat) : Nat := beNat (slice bs o n)

/-- The field of `n` bytes at offset `o`, least significant byte first. -/
def leAt (bs : List Byte) (o n : Nat) : Nat := leNat (slice bs o n)

/-- Event data: sixteen bytes, shorter lists padded with zeros (R326). -/
def pad16 (bs : List Byte) : List Byte := slice bs 0 16

/-- One bit of a CRC of width `w`: the feedback of polynomial `poly`. -/
def crcBit (w poly crc : Nat) (b : Bool) : Nat :=
  let fb := (crc.testBit (w - 1)) ^^ b
  let s := (crc * 2) % 2 ^ w
  if fb then s ^^^ poly else s

/-- The eight bits of a byte, most significant first. -/
def msbBits (b : Byte) : List Bool := [7, 6, 5, 4, 3, 2, 1, 0].map fun i => b.toNat.testBit i

/-- A CRC of width `w` over bits in transmission order. -/
def crcBits (w poly seed : Nat) (bs : List Bool) : Nat := bs.foldl (crcBit w poly) seed

/-- A CRC over bytes, each fed most significant bit first, no reflection, no final inversion. -/
def crcBytes (w poly seed : Nat) (bs : List Byte) : Nat :=
  bs.foldl (fun c b => crcBits w poly c (msbBits b)) seed

/-- Whether frame number `a` is `b` or one before it, as numbers that wrap at 2^48 (R6). -/
def frameLe (a b : Nat) : Bool := decide ((b + 2 ^ 48 - a % 2 ^ 48) % 2 ^ 48 < 2 ^ 47)

/-- Whether frame number `a` is before `b` (R6). -/
def frameLt (a b : Nat) : Bool := !(frameLe b a)

/-- The packet CRC-32 of R65. -/
def crc32 (bs : List Byte) : Nat := crcBytes 32 0x04C11DB7 0xFFFFFFFF bs

/-- The CRC-16 of R48. -/
def crc16 (bs : List Byte) : Nat := crcBytes 16 0x1021 0xFFFF bs

/-- `n` little-endian 32-bit words of a byte string. -/
def wordsLE : Nat → List Byte → List Nat
  | 0, _ => []
  | n + 1, bs => leAt bs 0 4 :: wordsLE n (bs.drop 4)

/-- `n` 32-bit words of a byte string, most significant byte first (R68). -/
def wordsBE : Nat → List Byte → List Nat
  | 0, _ => []
  | n + 1, bs => beAt bs 0 4 :: wordsBE n (bs.drop 4)

/-- A bit string of the bytes, most significant bit of each byte first. -/
def bitString (bs : List Byte) : List Bool := bs.flatMap msbBits

/-- The number a list of bits spells, first bit most significant. -/
def ofBits (bs : List Bool) : Nat := bs.foldl (fun n b => 2 * n + b2n b) 0

/-- The `w` bits of `v`, most significant first. -/
def natBits (w v : Nat) : List Bool := (List.range w).map fun i => v.testBit (w - 1 - i)

/-- Bytes of a bit string, zero-filled to whole bytes. -/
def packBits : Nat → List Bool → List Byte
  | 0, _ => []
  | n + 1, bs =>
    if bs.isEmpty then [] else
    let t := bs.take 8
    BitVec.ofNat 8 (ofBits (t ++ List.replicate (8 - t.length) false)) :: packBits n (bs.drop 8)

/-- The number of 1 bits among the low `n` bits of `x`. -/
def popCount (n x : Nat) : Nat := ((List.range n).filter fun i => x.testBit i).length

/-- The integer square root by digit, `n` binary digits. -/
def isqrt : Nat → Nat → Nat
  | 0, _ => 0
  | n + 1, x =>
    let r := 2 * isqrt n (x / 4)
    if (r + 1) * (r + 1) ≤ x then r + 1 else r

end Sys2Proof.Machine
end

