-- ==== Sys2Proof/Machine/RegSpec.lean ====
section
/-! DEFINITION. Machine/RegSpec.lean: how a register is described: its address, its repeated groups and its fields with
their access code (R7), apply class (R10), reset value (R9), limits and whether a warm reset keeps them. -/
namespace Sys2Proof.Machine

/-- The access codes of R7. -/
inductive Acc | rw | ro | w1c | wo | rc
deriving DecidableEq, Repr

/-- The apply classes of R10. -/
inductive App | l | s | q
deriving DecidableEq, Repr

/-- One field of a register: lowest bit, width, access, apply class, reset value, the limits a written value is clamped
to, and whether WRST_N keeps it (R9). -/
structure FieldSpec where
  lo : Nat
  w : Nat
  acc : Acc
  app : App
  rst : Nat
  lim : Option (Nat × Nat)
  keep : Bool
deriving DecidableEq, Repr

/-- A register, or a group of registers repeated with a count and a stride in each dimension. -/
structure RegSpec where
  base : Nat
  dims : List (Nat × Nat)
  fields : List FieldSpec
deriving DecidableEq, Repr

/-- A named field of one register: its byte address, its lowest bit and its width. -/
structure FRef where
  addr : Nat
  lo : Nat
  w : Nat
deriving DecidableEq, Repr

/-- Whether offset `o` from the base is one of the repeated words. -/
def RegSpec.hitDims : List (Nat × Nat) → Nat → Bool
  | [], o => o == 0
  | (n, st) :: ds, o =>
    match ds with
    | [] => o % st == 0 && decide (o / st < n)
    | d :: ds' => decide (o / st < n) && RegSpec.hitDims (d :: ds') (o % st)

/-- Whether a byte address is a word of this register group. -/
def RegSpec.hit (r : RegSpec) (a : Nat) : Bool := decide (r.base ≤ a) && RegSpec.hitDims r.dims (a - r.base)

/-- The index of address `a` in the outermost repeated group. -/
def RegSpec.index (r : RegSpec) (a : Nat) : Nat :=
  match r.dims with
  | [] => 0
  | (_, st) :: _ => (a - r.base) / st

/-- The Reset column of a register as one word. -/
def RegSpec.resetWord (r : RegSpec) : Nat := r.fields.foldl (fun n f => n + (f.rst % 2 ^ f.w) * 2 ^ f.lo) 0

/-- The bits of a register that are not reserved. -/
def RegSpec.mask (r : RegSpec) : Nat := r.fields.foldl (fun n f => n + (2 ^ f.w - 1) * 2 ^ f.lo) 0

end Sys2Proof.Machine
end

