-- ==== Sys2Proof/Machine/Fields.lean ====
section
/-! DEFINITION. Machine/Fields.lean: the addresses of the registers (`R.<REGISTER>`, from R417 and the chapters) and their
named fields (`F.<REGISTER>_<FIELD>`). Index arguments follow the spec's own order: ring then layer, sensor then colour,
target then stack entry, ring table then position minus one. An index is taken modulo the count of its group, so that every accessor
names a register of its own group; the model calls each with an index in range. -/
namespace Sys2Proof.Machine

abbrev R.SYS_ID : Nat := 0
abbrev R.SYS_UID_LO : Nat := 8
abbrev R.SYS_UID_HI : Nat := 0xc
abbrev R.SYS_STRAP : Nat := 0x10
abbrev R.SYS_MODE : Nat := 0x20
abbrev R.SYS_MSTAT : Nat := 0x24
abbrev R.SYS_COMMIT : Nat := 0x40
abbrev R.SYS_CSTAT : Nat := 0x44
abbrev R.CKG_CTL : Nat := 0x10000
abbrev R.CKG_STAT : Nat := 0x10004
abbrev R.CKG_TRIM : Nat := 0x10008
abbrev R.CKG_LPO : Nat := 0x1000c
abbrev R.CKG_MON : Nat := 0x10010
abbrev R.PWR_RUN_EN : Nat := 0x10100
abbrev R.PWR_SLP_EN : Nat := 0x10104
abbrev R.PWR_DSLP_EN : Nat := 0x10108
abbrev R.PWR_GATE : Nat := 0x1010c
abbrev R.PWR_DROOP : Nat := 0x10110
abbrev R.PWR_WAKE : Nat := 0x10114
abbrev R.PWR_TIMER : Nat := 0x10118
abbrev R.EVC_CTL : Nat := 0x20000
abbrev R.EVC_STAT : Nat := 0x20004
abbrev R.EVC_TBASE_LO (i : Nat) : Nat := 0x20100 + i % 4 * 0x40
abbrev R.EVC_TBASE_HI (i : Nat) : Nat := 0x20104 + i % 4 * 0x40
abbrev R.EVC_TCTL (i : Nat) : Nat := 0x20108 + i % 4 * 0x40
abbrev R.EVC_TPROD (i : Nat) : Nat := 0x2010c + i % 4 * 0x40
abbrev R.EVC_TCONS (i : Nat) : Nat := 0x20110 + i % 4 * 0x40
abbrev R.EVC_TEOI (i : Nat) : Nat := 0x20114 + i % 4 * 0x40
abbrev R.EVC_TRP (i : Nat) : Nat := 0x20118 + i % 4 * 0x40
abbrev R.EVC_TSTK (i : Nat) (j : Nat) : Nat := 0x20120 + i % 4 * 0x40 + j % 8 * 4
abbrev R.EVC_SRC (i : Nat) : Nat := 0x21000 + i % 512 * 4
abbrev R.EVC_RSRC (i : Nat) : Nat := 0x21800 + i % 512 * 4
abbrev R.HIF_CTL : Nat := 0x30000
abbrev R.HIF_STAT : Nat := 0x30004
abbrev R.HIF_BAR2 : Nat := 0x30008
abbrev R.HIF_CNT : Nat := 0x3000c
abbrev R.HIF_CNT2 : Nat := 0x30010
abbrev R.HIF_CR_BASE_LO (i : Nat) : Nat := 0x30100 + i % 16 * 0x40
abbrev R.HIF_CR_BASE_HI (i : Nat) : Nat := 0x30104 + i % 16 * 0x40
abbrev R.HIF_CR_CTL (i : Nat) : Nat := 0x30108 + i % 16 * 0x40
abbrev R.HIF_DB (i : Nat) : Nat := 0x3010c + i % 16 * 0x40
abbrev R.HIF_CR_CONS (i : Nat) : Nat := 0x30110 + i % 16 * 0x40
abbrev R.HIF_CR_STAT (i : Nat) : Nat := 0x30114 + i % 16 * 0x40
abbrev R.HIF_CP_BASE_LO (i : Nat) : Nat := 0x30118 + i % 16 * 0x40
abbrev R.HIF_CP_BASE_HI (i : Nat) : Nat := 0x3011c + i % 16 * 0x40
abbrev R.HIF_CP_CTL (i : Nat) : Nat := 0x30120 + i % 16 * 0x40
abbrev R.HIF_CP_PROD (i : Nat) : Nat := 0x30124 + i % 16 * 0x40
abbrev R.HIF_CP_CONS (i : Nat) : Nat := 0x30128 + i % 16 * 0x40
abbrev R.MC_CTL (i : Nat) : Nat := 0x40000 + i % 2 * 0x8000
abbrev R.MC_DEV (i : Nat) : Nat := 0x40004 + i % 2 * 0x8000
abbrev R.MC_TADJ (i : Nat) : Nat := 0x40008 + i % 2 * 0x8000
abbrev R.MC_TIM0 (i : Nat) : Nat := 0x4000c + i % 2 * 0x8000
abbrev R.MC_TIM1 (i : Nat) : Nat := 0x40010 + i % 2 * 0x8000
abbrev R.MC_QOS (i : Nat) : Nat := 0x40014 + i % 2 * 0x8000
abbrev R.MC_PWR (i : Nat) : Nat := 0x40018 + i % 2 * 0x8000
abbrev R.MC_REF (i : Nat) : Nat := 0x4001c + i % 2 * 0x8000
abbrev R.MC_RECAL (i : Nat) : Nat := 0x40020 + i % 2 * 0x8000
abbrev R.MC_FREQ (i : Nat) : Nat := 0x40024 + i % 2 * 0x8000
abbrev R.MC_STAT (i : Nat) : Nat := 0x40028 + i % 2 * 0x8000
abbrev R.MC_ECC (i : Nat) : Nat := 0x4002c + i % 2 * 0x8000
abbrev R.MC_UEADDR (i : Nat) : Nat := 0x40030 + i % 2 * 0x8000
abbrev R.MC_CAPAR (i : Nat) : Nat := 0x40034 + i % 2 * 0x8000
abbrev R.MC_TRAIN (i : Nat) : Nat := 0x40038 + i % 2 * 0x8000
abbrev R.LANE_CTL (i : Nat) : Nat := 0x50000 + i % 16 * 0x1000
abbrev R.LANE_STAT (i : Nat) : Nat := 0x50004 + i % 16 * 0x1000
abbrev R.LANE_SHERR (i : Nat) : Nat := 0x50008 + i % 16 * 0x1000
abbrev R.LANE_QUAL (i : Nat) : Nat := 0x5000c + i % 16 * 0x1000
abbrev R.LANE_TXEQ (i : Nat) : Nat := 0x50010 + i % 16 * 0x1000
abbrev R.CL_TIMERS : Nat := 0x60000
abbrev R.CL_BYP : Nat := 0x60004
abbrev R.CL_CLKSRC : Nat := 0x60008
abbrev R.CL_PCFG (i : Nat) : Nat := 0x60100 + i % 12 * 0x40
abbrev R.CL_PSTAT (i : Nat) : Nat := 0x60104 + i % 12 * 0x40
abbrev R.CL_PUID_LO (i : Nat) : Nat := 0x60108 + i % 12 * 0x40
abbrev R.CL_PUID_HI (i : Nat) : Nat := 0x6010c + i % 12 * 0x40
abbrev R.CL_PDELAY (i : Nat) : Nat := 0x60110 + i % 12 * 0x40
abbrev R.CL_PASYM (i : Nat) : Nat := 0x60114 + i % 12 * 0x40
abbrev R.CL_PRES (i : Nat) : Nat := 0x60118 + i % 12 * 0x40
abbrev R.CL_PFAULT (i : Nat) : Nat := 0x6011c + i % 12 * 0x40
abbrev R.CL_PDOWN (i : Nat) : Nat := 0x60120 + i % 12 * 0x40
abbrev R.CL_SLOT : Nat := 0x60400
abbrev R.CL_ORDER : Nat := 0x60404
abbrev R.CL_ECHO : Nat := 0x60408
abbrev R.CL_OUTQ : Nat := 0x6040c
abbrev R.CL_MYPOS : Nat := 0x60410
abbrev R.CL_MYROUTE : Nat := 0x60414
abbrev R.CL_MERGE : Nat := 0x60418
abbrev R.CL_PKTERR : Nat := 0x6041c
abbrev R.CL_SEGSTAT : Nat := 0x60420
abbrev R.CL_DROP : Nat := 0x60424
abbrev R.CL_FRTAB_PREFIX : Nat := 0x60800
abbrev R.CL_FRTAB_FLAGS : Nat := 0x60804
abbrev R.CL_FRTAB_UID_LO (i : Nat) : Nat := 0x60808 + i % 62 * 8
abbrev R.CL_FRTAB_UID_HI (i : Nat) : Nat := 0x6080c + i % 62 * 8
abbrev R.CL_RTAB_PREFIX (i : Nat) : Nat := 0x61000 + i % 8 * 0x200
abbrev R.CL_RTAB_FLAGS (i : Nat) : Nat := 0x61004 + i % 8 * 0x200
abbrev R.CL_RTAB_UID_LO (i : Nat) (j : Nat) : Nat := 0x61008 + i % 8 * 0x200 + j % 62 * 8
abbrev R.CL_RTAB_UID_HI (i : Nat) (j : Nat) : Nat := 0x6100c + i % 8 * 0x200 + j % 62 * 8
abbrev R.WT_CTL : Nat := 0x70000
abbrev R.WT_INC : Nat := 0x70004
abbrev R.WT_INC_LIM : Nat := 0x70008
abbrev R.WT_SERVO : Nat := 0x7000c
abbrev R.WT_STEP_LO : Nat := 0x70010
abbrev R.WT_STEP_HI : Nat := 0x70014
abbrev R.WT_TIME_LO : Nat := 0x70018
abbrev R.WT_TIME_HI : Nat := 0x7001c
abbrev R.WT_STAT : Nat := 0x70020
abbrev R.WT_PORT_ADJ (i : Nat) : Nat := 0x70040 + i % 4 * 4
abbrev R.WT_EVTIN_CFG : Nat := 0x70060
abbrev R.WT_EVTIN_TS_LO (i : Nat) : Nat := 0x70080 + i % 4 * 8
abbrev R.WT_EVTIN_TS_HI (i : Nat) : Nat := 0x70084 + i % 4 * 8
abbrev R.WT_EVTIN_CNT : Nat := 0x700a0
abbrev R.WT_RCFG (i : Nat) : Nat := 0x70100 + i % 8 * 0x20
abbrev R.WT_RFRAME_LO (i : Nat) : Nat := 0x70104 + i % 8 * 0x20
abbrev R.WT_RFRAME_HI (i : Nat) : Nat := 0x70108 + i % 8 * 0x20
abbrev R.WT_RFLIP_LO (i : Nat) : Nat := 0x7010c + i % 8 * 0x20
abbrev R.WT_RFLIP_HI (i : Nat) : Nat := 0x70110 + i % 8 * 0x20
abbrev R.WT_FCFG : Nat := 0x70200
abbrev R.WT_FSTAT : Nat := 0x70204
abbrev R.WT_FMARK : Nat := 0x70208
abbrev R.WT_FFRAME_LO : Nat := 0x7020c
abbrev R.WT_FFRAME_HI : Nat := 0x70210
abbrev R.WT_FDEV : Nat := 0x70214
abbrev R.WT_FTIME_LO : Nat := 0x70218
abbrev R.WT_FTIME_HI : Nat := 0x7021c
abbrev R.WT_PAIR : Nat := 0x70240
abbrev R.WT_PAIR_OFS : Nat := 0x70244
abbrev R.XA_CTL : Nat := 0x80000
abbrev R.XA_AUTO : Nat := 0x80004
abbrev R.XA_STAGE : Nat := 0x80008
abbrev R.XA_CNT : Nat := 0x8000c
abbrev R.XA_ABORT : Nat := 0x80010
abbrev R.XA_XSTAT (i : Nat) : Nat := 0x80100 + i % 16 * 0x10
abbrev R.XA_XTGT_LO (i : Nat) : Nat := 0x80104 + i % 16 * 0x10
abbrev R.XA_XTGT_HI (i : Nat) : Nat := 0x80108 + i % 16 * 0x10
abbrev R.XA_XVOTE (i : Nat) : Nat := 0x8010c + i % 16 * 0x10
abbrev R.XA_EXCL_LO (i : Nat) : Nat := 0x80200 + i % 8 * 8
abbrev R.XA_EXCL_HI (i : Nat) : Nat := 0x80204 + i % 8 * 8
abbrev R.NI_CTL : Nat := 0x90000
abbrev R.NI_TIMERS : Nat := 0x90004
abbrev R.NI_BUDGET : Nat := 0x90008
abbrev R.NI_PCFG (i : Nat) : Nat := 0x90100 + i % 4 * 0x40
abbrev R.NI_PSTAT (i : Nat) : Nat := 0x90104 + i % 4 * 0x40
abbrev R.NI_PMAC_LO (i : Nat) : Nat := 0x90108 + i % 4 * 0x40
abbrev R.NI_PMAC_HI (i : Nat) : Nat := 0x9010c + i % 4 * 0x40
abbrev R.NI_PRX (i : Nat) : Nat := 0x90110 + i % 4 * 0x40
abbrev R.NI_PERR (i : Nat) : Nat := 0x90114 + i % 4 * 0x40
abbrev R.NI_PFEC (i : Nat) : Nat := 0x90118 + i % 4 * 0x40
abbrev R.NI_HRX_BASE_LO : Nat := 0x90300
abbrev R.NI_HRX_BASE_HI : Nat := 0x90304
abbrev R.NI_HRX_CTL : Nat := 0x90308
abbrev R.NI_HRX_TAIL : Nat := 0x9030c
abbrev R.NI_HRX_HEAD : Nat := 0x90310
abbrev R.NI_HTX_BASE_LO : Nat := 0x90320
abbrev R.NI_HTX_BASE_HI : Nat := 0x90324
abbrev R.NI_HTX_CTL : Nat := 0x90328
abbrev R.NI_HTX_TAIL : Nat := 0x9032c
abbrev R.NI_HTX_HEAD : Nat := 0x90330
abbrev R.NI_FCFG (i : Nat) : Nat := 0x91000 + i % 32 * 0x80
abbrev R.NI_FFMT (i : Nat) : Nat := 0x91004 + i % 32 * 0x80
abbrev R.NI_FSIZE (i : Nat) : Nat := 0x91008 + i % 32 * 0x80
abbrev R.NI_FRATE (i : Nat) : Nat := 0x9100c + i % 32 * 0x80
abbrev R.NI_FKEY (i : Nat) : Nat := 0x91010 + i % 32 * 0x80
abbrev R.NI_FVLAN (i : Nat) : Nat := 0x91014 + i % 32 * 0x80
abbrev R.NI_FADDR_A (i : Nat) (j : Nat) : Nat := 0x91018 + i % 32 * 0x80 + j % 4 * 4
abbrev R.NI_FADDR_B (i : Nat) (j : Nat) : Nat := 0x91028 + i % 32 * 0x80 + j % 4 * 4
abbrev R.NI_FBUF_LO (i : Nat) : Nat := 0x91038 + i % 32 * 0x80
abbrev R.NI_FBUF_HI (i : Nat) : Nat := 0x9103c + i % 32 * 0x80
abbrev R.NI_FLINE (i : Nat) : Nat := 0x91040 + i % 32 * 0x80
abbrev R.NI_FSTAT (i : Nat) : Nat := 0x91044 + i % 32 * 0x80
abbrev R.NI_FMEDIA_LO (i : Nat) : Nat := 0x91048 + i % 32 * 0x80
abbrev R.NI_FMEDIA_HI (i : Nat) : Nat := 0x9104c + i % 32 * 0x80
abbrev R.NI_FLOSS (i : Nat) : Nat := 0x92000 + i % 32 * 0x10
abbrev R.NI_FMERGE (i : Nat) : Nat := 0x92004 + i % 32 * 0x10
abbrev R.NI_FERR (i : Nat) : Nat := 0x92008 + i % 32 * 0x10
abbrev R.CMP_CTL : Nat := 0xa0000
abbrev R.CMP_STAT : Nat := 0xa0004
abbrev R.CMP_RCFG (i : Nat) : Nat := 0xa0100 + i % 8 * 0x20
abbrev R.CMP_RBG (i : Nat) : Nat := 0xa0104 + i % 8 * 0x20
abbrev R.CMP_RREC_LO (i : Nat) : Nat := 0xa0108 + i % 8 * 0x20
abbrev R.CMP_RREC_HI (i : Nat) : Nat := 0xa010c + i % 8 * 0x20
abbrev R.CMP_RSTAT (i : Nat) : Nat := 0xa0110 + i % 8 * 0x20
abbrev R.CMP_DBCFG : Nat := 0xa0200
abbrev R.CMP_DBBASE_LO : Nat := 0xa0204
abbrev R.CMP_DBBASE_HI : Nat := 0xa0208
abbrev R.CMP_LCFG (i : Nat) (j : Nat) : Nat := 0xa1000 + i % 8 * 0x400 + j % 16 * 0x40
abbrev R.CMP_LDST (i : Nat) (j : Nat) : Nat := 0xa1004 + i % 8 * 0x400 + j % 16 * 0x40
abbrev R.CMP_LDSZ (i : Nat) (j : Nat) : Nat := 0xa1008 + i % 8 * 0x400 + j % 16 * 0x40
abbrev R.CMP_LCROP (i : Nat) (j : Nat) : Nat := 0xa100c + i % 8 * 0x400 + j % 16 * 0x40
abbrev R.CMP_LCSZ (i : Nat) (j : Nat) : Nat := 0xa1010 + i % 8 * 0x400 + j % 16 * 0x40
abbrev R.CMP_LREC_LO (i : Nat) (j : Nat) : Nat := 0xa1014 + i % 8 * 0x400 + j % 16 * 0x40
abbrev R.CMP_LREC_HI (i : Nat) (j : Nat) : Nat := 0xa1018 + i % 8 * 0x400 + j % 16 * 0x40
abbrev R.CMP_LPITCH (i : Nat) (j : Nat) : Nat := 0xa101c + i % 8 * 0x400 + j % 16 * 0x40
abbrev R.CMP_LBUF_LO (i : Nat) (j : Nat) : Nat := 0xa1020 + i % 8 * 0x400 + j % 16 * 0x40
abbrev R.CMP_LBUF_HI (i : Nat) (j : Nat) : Nat := 0xa1024 + i % 8 * 0x400 + j % 16 * 0x40
abbrev R.CMP_LSTAT (i : Nat) (j : Nat) : Nat := 0xa1028 + i % 8 * 0x400 + j % 16 * 0x40
abbrev R.CMP_LMEDIA_LO (i : Nat) (j : Nat) : Nat := 0xa102c + i % 8 * 0x400 + j % 16 * 0x40
abbrev R.CMP_LMEDIA_HI (i : Nat) (j : Nat) : Nat := 0xa1030 + i % 8 * 0x400 + j % 16 * 0x40
abbrev R.CMP_LCNT (i : Nat) (j : Nat) : Nat := 0xa1034 + i % 8 * 0x400 + j % 16 * 0x40
abbrev R.PIX_CTL : Nat := 0xb0000
abbrev R.PIX_GEOM : Nat := 0xb0004
abbrev R.PIX_FBBASE : Nat := 0xb0008
abbrev R.PIX_SCALE : Nat := 0xb000c
abbrev R.PIX_AMB : Nat := 0xb0010
abbrev R.PIX_FBGAIN0 : Nat := 0xb0014
abbrev R.PIX_FBGAIN1 : Nat := 0xb0018
abbrev R.PIX_TMAT (i : Nat) : Nat := 0xb0020 + i % 5 * 4
abbrev R.PIX_BANK : Nat := 0xb0040
abbrev R.PIX_QUIET : Nat := 0xb0044
abbrev R.PIX_QSTAT : Nat := 0xb0048
abbrev R.PIX_FBSTAT : Nat := 0xb004c
abbrev R.PIX_RESCNT : Nat := 0xb0050
abbrev R.PIX_LSERR : Nat := 0xb0054
abbrev R.PIX_LSUE : Nat := 0xb0058
abbrev R.PIX_ILUT (i : Nat) (j : Nat) : Nat := 0xb4000 + i % 3 * 0x4000 + j % 4096 * 4
abbrev R.CAL_CTL : Nat := 0xc0000
abbrev R.CAL_MODE : Nat := 0xc0004
abbrev R.CAL_STAT : Nat := 0xc0008
abbrev R.CAL_LAMPS : Nat := 0xc000c
abbrev R.CAL_SETBASE : Nat := 0xc0010
abbrev R.CAL_LIM0 : Nat := 0xc0014
abbrev R.CAL_LIM1 : Nat := 0xc0018
abbrev R.CAL_BCNT : Nat := 0xc001c
abbrev R.CAL_POINT (i : Nat) : Nat := 0xc0020 + i % 4 * 4
abbrev R.CAL_ZTEMP (i : Nat) : Nat := 0xc0030 + i % 4 * 4
abbrev R.CAL_ZSUB : Nat := 0xc0040
abbrev R.CAL_LOOP : Nat := 0xc0080
abbrev R.CAL_LOOPLIM : Nat := 0xc0084
abbrev R.CAL_LOOPHOLD : Nat := 0xc0088
abbrev R.CAL_WITLVL : Nat := 0xc008c
abbrev R.CAL_WIT (i : Nat) : Nat := 0xc0090 + i % 4 * 4
abbrev R.CAL_LGAIN0 : Nat := 0xc00a0
abbrev R.CAL_LGAIN1 : Nat := 0xc00a4
abbrev R.CAL_LSTAT : Nat := 0xc00a8
abbrev R.CAL_TBASE (i : Nat) : Nat := 0xc00b0 + i % 5 * 4
abbrev R.CAL_REFSTAT : Nat := 0xc00c4
abbrev R.CAL_REF (i : Nat) (j : Nat) : Nat := 0xc0100 + i % 4 * 0x10 + j % 3 * 4
abbrev R.CAL_TARGET_XY (i : Nat) : Nat := 0xc0180 + i % 3 * 8
abbrev R.CAL_TARGET_Y (i : Nat) : Nat := 0xc0184 + i % 3 * 8
abbrev R.CAL_LUM (i : Nat) : Nat := 0xc01a0 + i % 3 * 4
abbrev R.CAL_AMB : Nat := 0xc01c0
abbrev R.CAL_AMBK : Nat := 0xc01c4
abbrev R.CAL_AMBW : Nat := 0xc01c8
abbrev R.CAL_AMBRD : Nat := 0xc01cc
abbrev R.CAL_ZMAP (i : Nat) : Nat := 0xc0400 + i % 256 * 4
abbrev R.DRV_CTL : Nat := 0xd0000
abbrev R.DRV_TOPO : Nat := 0xd0004
abbrev R.DRV_LINE : Nat := 0xd0008
abbrev R.DRV_TIME : Nat := 0xd000c
abbrev R.DRV_POLL : Nat := 0xd0010
abbrev R.DRV_STAT : Nat := 0xd0014
abbrev R.DRV_LGFORCE : Nat := 0xd0020
abbrev R.DRV_LGLATCH : Nat := 0xd0024
abbrev R.DRV_LGCLR : Nat := 0xd0028
abbrev R.DRV_LGVALID : Nat := 0xd002c
abbrev R.DRV_MASKCNT : Nat := 0xd0030
abbrev R.DRV_LGLVL (i : Nat) : Nat := 0xd0080 + i % 32 * 4
abbrev R.DRV_LGCAUSE (i : Nat) : Nat := 0xd0100 + i % 32 * 4
abbrev R.DRV_PSTAT (i : Nat) : Nat := 0xd0180 + i % 16 * 4
abbrev R.DRV_PCFG (i : Nat) : Nat := 0xd01c0 + i % 16 * 4
abbrev R.DRV_PLOST (i : Nat) : Nat := 0xd0200 + i % 16 * 4
abbrev R.DRV_RAIL_CTL : Nat := 0xd0300
abbrev R.DRV_RAIL_V : Nat := 0xd0304
abbrev R.DRV_RAIL_TRK : Nat := 0xd0308
abbrev R.DRV_RAIL_PID : Nat := 0xd030c
abbrev R.DRV_RAIL_ILIM : Nat := 0xd0310
abbrev R.DRV_RAIL_PROT : Nat := 0xd0314
abbrev R.DRV_RAIL_STAT : Nat := 0xd0318
abbrev R.DRV_RAIL_MEAS : Nat := 0xd031c
abbrev R.DRV_DMAP (i : Nat) : Nat := 0xd0800 + i % 512 * 4
abbrev R.DRV_MASK (i : Nat) : Nat := 0xd1000 + i % 512 * 4
abbrev R.DRV_SCANMAP (i : Nat) : Nat := 0xd1800 + i % 512 * 4
abbrev R.DRV_LGRANGE0 (i : Nat) (j : Nat) : Nat := 0xd4000 + i % 32 * 0x200 + j % 64 * 8
abbrev R.DRV_LGRANGE1 (i : Nat) (j : Nat) : Nat := 0xd4004 + i % 32 * 0x200 + j % 64 * 8
abbrev R.DRV_LGBMP (i : Nat) : Nat := 0xd8000 + i % 8192 * 4
abbrev R.CHK_CTL : Nat := 0xe0000
abbrev R.CHK_CNT : Nat := 0xe0004
abbrev R.CHK_SKIP : Nat := 0xe0008
abbrev R.CHK_ILAST (i : Nat) : Nat := 0xe0040 + i % 8 * 4
abbrev R.CHK_IEXP (i : Nat) : Nat := 0xe0060 + i % 8 * 4
abbrev R.CHK_OPOS (i : Nat) : Nat := 0xe0100 + i % 8 * 0x20
abbrev R.CHK_OSIZE (i : Nat) : Nat := 0xe0104 + i % 8 * 0x20
abbrev R.CHK_OCFG (i : Nat) : Nat := 0xe0108 + i % 8 * 0x20
abbrev R.CHK_OEXP (i : Nat) : Nat := 0xe010c + i % 8 * 0x20
abbrev R.CHK_OLAST (i : Nat) : Nat := 0xe0110 + i % 8 * 0x20
abbrev R.CHK_PSTAT : Nat := 0xe0200
abbrev R.CHK_PDIG (i : Nat) : Nat := 0xe0240 + i % 8 * 4
abbrev R.CHK_PPDIG (i : Nat) : Nat := 0xe0260 + i % 8 * 4
abbrev R.RED_CFG : Nat := 0xf0000
abbrev R.RED_TIMERS : Nat := 0xf0004
abbrev R.RED_REVERT : Nat := 0xf0008
abbrev R.RED_CTL : Nat := 0xf000c
abbrev R.RED_STAT : Nat := 0xf0010
abbrev R.RED_MQ : Nat := 0xf0014
abbrev R.RED_SEQCNT : Nat := 0xf0018
abbrev R.RED_REPOCH (i : Nat) : Nat := 0xf0100 + i % 8 * 0x10
abbrev R.RED_RSTAT (i : Nat) : Nat := 0xf0104 + i % 8 * 0x10
abbrev R.RED_MREG_LO (i : Nat) : Nat := 0xf0200 + i % 8 * 0x10
abbrev R.RED_MREG_HI (i : Nat) : Nat := 0xf0204 + i % 8 * 0x10
abbrev R.RED_MREG_SIZE (i : Nat) : Nat := 0xf0208 + i % 8 * 0x10
abbrev R.RED_MIDX (i : Nat) : Nat := 0xf0300 + i % 16 * 4
abbrev R.RED_FOLLOW : Nat := 0xf0400
abbrev R.RED_FSTAT : Nat := 0xf0404
abbrev R.HK_CTL : Nat := 0x100000
abbrev R.HK_CHEN : Nat := 0x100004
abbrev R.HK_STAT : Nat := 0x100008
abbrev R.HK_FAILED : Nat := 0x10000c
abbrev R.HK_LIM_DIE : Nat := 0x100010
abbrev R.HK_LIM_ZONE : Nat := 0x100014
abbrev R.HK_FAIL : Nat := 0x100018
abbrev R.HK_SDCNT : Nat := 0x10001c
abbrev R.HK_NTC (i : Nat) : Nat := 0x100040 + i % 33 * 4
abbrev R.HK_VAL (i : Nat) : Nat := 0x100100 + i % 32 * 4
abbrev R.HK_PD (i : Nat) : Nat := 0x100180 + i % 12 * 4
abbrev R.UPD_CTL : Nat := 0x110000
abbrev R.UPD_STAT : Nat := 0x110004
abbrev R.UPD_GEN : Nat := 0x110008
abbrev R.UPD_MFID : Nat := 0x11000c
abbrev R.UPD_MFID_PREV : Nat := 0x110010
abbrev R.UPD_SLOTA : Nat := 0x110020
abbrev R.UPD_SLOTB : Nat := 0x110024
abbrev R.UPD_VERA : Nat := 0x110028
abbrev R.UPD_VERB : Nat := 0x11002c
abbrev R.UPD_ACT : Nat := 0x110030
abbrev R.UPD_AREA0 : Nat := 0x110040
abbrev R.UPD_AREA1 : Nat := 0x110044
abbrev R.UPD_FLASH : Nat := 0x110060
abbrev R.UPD_LOADT : Nat := 0x110064
abbrev R.OBS_TCTL : Nat := 0x120000
abbrev R.OBS_TEVT : Nat := 0x120004
abbrev R.OBS_TSTAT : Nat := 0x120008
abbrev R.OBS_TPAGE : Nat := 0x12000c
abbrev R.OBS_CCTL : Nat := 0x120010
abbrev R.OBS_CSEL (i : Nat) : Nat := 0x120100 + i % 192 * 4
abbrev R.OBS_CNT_LO (i : Nat) : Nat := 0x120800 + i % 256 * 8
abbrev R.OBS_CNT_HI (i : Nat) : Nat := 0x120804 + i % 256 * 8
abbrev F.SYS_ID_DEVICE : FRef := ⟨R.SYS_ID, 0, 16⟩
abbrev F.SYS_ID_STEP_MAJ : FRef := ⟨R.SYS_ID, 16, 4⟩
abbrev F.SYS_ID_STEP_MIN : FRef := ⟨R.SYS_ID, 20, 4⟩
abbrev F.SYS_UID_LO_UID : FRef := ⟨R.SYS_UID_LO, 0, 32⟩
abbrev F.SYS_UID_HI_UID : FRef := ⟨R.SYS_UID_HI, 0, 32⟩
abbrev F.SYS_STRAP_ROLE : FRef := ⟨R.SYS_STRAP, 0, 2⟩
abbrev F.SYS_STRAP_XO_DLY : FRef := ⟨R.SYS_STRAP, 2, 2⟩
abbrev F.SYS_STRAP_STRAP_ERR : FRef := ⟨R.SYS_STRAP, 4, 1⟩
abbrev F.SYS_STRAP_XO_OK : FRef := ⟨R.SYS_STRAP, 5, 1⟩
abbrev F.SYS_STRAP_XO_TRIES : FRef := ⟨R.SYS_STRAP, 6, 4⟩
abbrev F.SYS_MODE_REQ : FRef := ⟨R.SYS_MODE, 0, 3⟩
abbrev F.SYS_MSTAT_MODE : FRef := ⟨R.SYS_MSTAT, 0, 3⟩
abbrev F.SYS_MSTAT_QUIET : FRef := ⟨R.SYS_MSTAT, 3, 1⟩
abbrev F.SYS_MSTAT_BUSY : FRef := ⟨R.SYS_MSTAT, 4, 1⟩
abbrev F.SYS_MSTAT_RESULT : FRef := ⟨R.SYS_MSTAT, 5, 3⟩
abbrev F.SYS_MSTAT_REASON : FRef := ⟨R.SYS_MSTAT, 8, 4⟩
abbrev F.SYS_MSTAT_CAUSE : FRef := ⟨R.SYS_MSTAT, 12, 4⟩
abbrev F.SYS_COMMIT_COMMIT : FRef := ⟨R.SYS_COMMIT, 0, 1⟩
abbrev F.SYS_CSTAT_PEND : FRef := ⟨R.SYS_CSTAT, 0, 1⟩
abbrev F.SYS_CSTAT_OPEN : FRef := ⟨R.SYS_CSTAT, 1, 1⟩
abbrev F.SYS_CSTAT_REFUSED : FRef := ⟨R.SYS_CSTAT, 2, 1⟩
abbrev F.SYS_CSTAT_QREJ_CNT : FRef := ⟨R.SYS_CSTAT, 16, 16⟩
abbrev F.CKG_CTL_RAMP_STEP : FRef := ⟨R.CKG_CTL, 0, 3⟩
abbrev F.CKG_CTL_TRIM_EN : FRef := ⟨R.CKG_CTL, 3, 1⟩
abbrev F.CKG_CTL_TRIM_SEL : FRef := ⟨R.CKG_CTL, 4, 2⟩
abbrev F.CKG_CTL_REFCLK_EN : FRef := ⟨R.CKG_CTL, 6, 1⟩
abbrev F.CKG_CTL_RETURN_HOLD : FRef := ⟨R.CKG_CTL, 8, 8⟩
abbrev F.CKG_STAT_REED_READY : FRef := ⟨R.CKG_STAT, 0, 1⟩
abbrev F.CKG_STAT_XO_OK : FRef := ⟨R.CKG_STAT, 1, 1⟩
abbrev F.CKG_STAT_REFCLK_OK : FRef := ⟨R.CKG_STAT, 2, 1⟩
abbrev F.CKG_STAT_LOCK : FRef := ⟨R.CKG_STAT, 3, 4⟩
abbrev F.CKG_STAT_CORE_SRC : FRef := ⟨R.CKG_STAT, 8, 2⟩
abbrev F.CKG_STAT_REED_PATH : FRef := ⟨R.CKG_STAT, 10, 1⟩
abbrev F.CKG_STAT_CORE_DIV : FRef := ⟨R.CKG_STAT, 12, 2⟩
abbrev F.CKG_STAT_DROOP : FRef := ⟨R.CKG_STAT, 14, 1⟩
abbrev F.CKG_TRIM_CODE : FRef := ⟨R.CKG_TRIM, 0, 10⟩
abbrev F.CKG_TRIM_SRC : FRef := ⟨R.CKG_TRIM, 10, 2⟩
abbrev F.CKG_TRIM_TRIMMED : FRef := ⟨R.CKG_TRIM, 12, 1⟩
abbrev F.CKG_TRIM_ERR : FRef := ⟨R.CKG_TRIM, 16, 16⟩
abbrev F.CKG_LPO_CORR : FRef := ⟨R.CKG_LPO, 0, 24⟩
abbrev F.CKG_MON_TRIPS : FRef := ⟨R.CKG_MON, 0, 8⟩
abbrev F.CKG_MON_LATE : FRef := ⟨R.CKG_MON, 8, 8⟩
abbrev F.PWR_RUN_EN_RUN : FRef := ⟨R.PWR_RUN_EN, 0, 16⟩
abbrev F.PWR_SLP_EN_SLP : FRef := ⟨R.PWR_SLP_EN, 0, 16⟩
abbrev F.PWR_DSLP_EN_DSLP : FRef := ⟨R.PWR_DSLP_EN, 0, 16⟩
abbrev F.PWR_GATE_GATE_TIMEOUT : FRef := ⟨R.PWR_GATE, 0, 8⟩
abbrev F.PWR_GATE_ABANDONED : FRef := ⟨R.PWR_GATE, 16, 16⟩
abbrev F.PWR_DROOP_THR : FRef := ⟨R.PWR_DROOP, 0, 4⟩
abbrev F.PWR_DROOP_HOLD : FRef := ⟨R.PWR_DROOP, 4, 4⟩
abbrev F.PWR_DROOP_DROOP_EN : FRef := ⟨R.PWR_DROOP, 8, 1⟩
abbrev F.PWR_DROOP_COUNT : FRef := ⟨R.PWR_DROOP, 16, 16⟩
abbrev F.PWR_WAKE_SVC : FRef := ⟨R.PWR_WAKE, 0, 1⟩
abbrev F.PWR_WAKE_SIGDET : FRef := ⟨R.PWR_WAKE, 1, 1⟩
abbrev F.PWR_WAKE_EVTIN : FRef := ⟨R.PWR_WAKE, 2, 4⟩
abbrev F.PWR_WAKE_TIMER : FRef := ⟨R.PWR_WAKE, 6, 1⟩
abbrev F.PWR_WAKE_LAST : FRef := ⟨R.PWR_WAKE, 8, 3⟩
abbrev F.PWR_TIMER_WAKE_TIME : FRef := ⟨R.PWR_TIMER, 0, 24⟩
abbrev F.EVC_CTL_UPLINK : FRef := ⟨R.EVC_CTL, 0, 1⟩
abbrev F.EVC_STAT_HELD : FRef := ⟨R.EVC_STAT, 0, 9⟩
abbrev F.EVC_STAT_REMOTE_LOST : FRef := ⟨R.EVC_STAT, 16, 16⟩
abbrev F.EVC_TBASE_LO_BASE (i : Nat) : FRef := ⟨R.EVC_TBASE_LO i, 0, 32⟩
abbrev F.EVC_TBASE_HI_BASE (i : Nat) : FRef := ⟨R.EVC_TBASE_HI i, 0, 32⟩
abbrev F.EVC_TCTL_EN (i : Nat) : FRef := ⟨R.EVC_TCTL i, 0, 1⟩
abbrev F.EVC_TCTL_LOG2SIZE (i : Nat) : FRef := ⟨R.EVC_TCTL i, 1, 4⟩
abbrev F.EVC_TCTL_AWAKE (i : Nat) : FRef := ⟨R.EVC_TCTL i, 5, 1⟩
abbrev F.EVC_TCTL_FALLBACK (i : Nat) : FRef := ⟨R.EVC_TCTL i, 6, 2⟩
abbrev F.EVC_TPROD_PROD (i : Nat) : FRef := ⟨R.EVC_TPROD i, 0, 12⟩
abbrev F.EVC_TPROD_PHASE (i : Nat) : FRef := ⟨R.EVC_TPROD i, 12, 1⟩
abbrev F.EVC_TCONS_CONS (i : Nat) : FRef := ⟨R.EVC_TCONS i, 0, 12⟩
abbrev F.EVC_TCONS_CLAIM (i : Nat) : FRef := ⟨R.EVC_TCONS i, 12, 1⟩
abbrev F.EVC_TEOI_EOI (i : Nat) : FRef := ⟨R.EVC_TEOI i, 0, 1⟩
abbrev F.EVC_TRP_RP (i : Nat) : FRef := ⟨R.EVC_TRP i, 0, 3⟩
abbrev F.EVC_TRP_NONE (i : Nat) : FRef := ⟨R.EVC_TRP i, 3, 1⟩
abbrev F.EVC_TRP_DEPTH (i : Nat) : FRef := ⟨R.EVC_TRP i, 4, 4⟩
abbrev F.EVC_TRP_ELIGIBLE (i : Nat) : FRef := ⟨R.EVC_TRP i, 8, 1⟩
abbrev F.EVC_TRP_HELD (i : Nat) : FRef := ⟨R.EVC_TRP i, 9, 1⟩
abbrev F.EVC_TSTK_SOURCE (i : Nat) (j : Nat) : FRef := ⟨R.EVC_TSTK i j, 0, 9⟩
abbrev F.EVC_TSTK_PRIO (i : Nat) (j : Nat) : FRef := ⟨R.EVC_TSTK i j, 9, 3⟩
abbrev F.EVC_TSTK_REMOTE (i : Nat) (j : Nat) : FRef := ⟨R.EVC_TSTK i j, 12, 1⟩
abbrev F.EVC_TSTK_VALID (i : Nat) (j : Nat) : FRef := ⟨R.EVC_TSTK i j, 31, 1⟩
abbrev F.EVC_SRC_PRIO (i : Nat) : FRef := ⟨R.EVC_SRC i, 0, 3⟩
abbrev F.EVC_SRC_TGT (i : Nat) : FRef := ⟨R.EVC_SRC i, 4, 2⟩
abbrev F.EVC_SRC_EN (i : Nat) : FRef := ⟨R.EVC_SRC i, 8, 1⟩
abbrev F.EVC_SRC_STATE (i : Nat) : FRef := ⟨R.EVC_SRC i, 12, 3⟩
abbrev F.EVC_SRC_PEND (i : Nat) : FRef := ⟨R.EVC_SRC i, 15, 1⟩
abbrev F.EVC_SRC_CNT (i : Nat) : FRef := ⟨R.EVC_SRC i, 24, 8⟩
abbrev F.EVC_RSRC_TGT (i : Nat) : FRef := ⟨R.EVC_RSRC i, 4, 2⟩
abbrev F.EVC_RSRC_EN (i : Nat) : FRef := ⟨R.EVC_RSRC i, 8, 1⟩
abbrev F.HIF_CTL_REPLY_WAIT : FRef := ⟨R.HIF_CTL, 0, 8⟩
abbrev F.HIF_CTL_CPL_MOD : FRef := ⟨R.HIF_CTL, 8, 8⟩
abbrev F.HIF_STAT_LINK_UP : FRef := ⟨R.HIF_STAT, 0, 1⟩
abbrev F.HIF_STAT_WIDTH : FRef := ⟨R.HIF_STAT, 1, 2⟩
abbrev F.HIF_STAT_SPEED : FRef := ⟨R.HIF_STAT, 3, 2⟩
abbrev F.HIF_STAT_L1 : FRef := ⟨R.HIF_STAT, 5, 1⟩
abbrev F.HIF_STAT_BME : FRef := ⟨R.HIF_STAT, 6, 1⟩
abbrev F.HIF_STAT_REGS_OUT : FRef := ⟨R.HIF_STAT, 8, 7⟩
abbrev F.HIF_BAR2_BASE : FRef := ⟨R.HIF_BAR2, 0, 6⟩
abbrev F.HIF_CNT_ACCESS_ERR : FRef := ⟨R.HIF_CNT, 0, 16⟩
abbrev F.HIF_CNT_LATE_RSP : FRef := ⟨R.HIF_CNT, 16, 16⟩
abbrev F.HIF_CNT2_WIN_ERR : FRef := ⟨R.HIF_CNT2, 0, 16⟩
abbrev F.HIF_CNT2_DMA_ERR : FRef := ⟨R.HIF_CNT2, 16, 16⟩
abbrev F.HIF_CR_BASE_LO_BASE (i : Nat) : FRef := ⟨R.HIF_CR_BASE_LO i, 0, 32⟩
abbrev F.HIF_CR_BASE_HI_BASE (i : Nat) : FRef := ⟨R.HIF_CR_BASE_HI i, 0, 32⟩
abbrev F.HIF_CR_CTL_EN (i : Nat) : FRef := ⟨R.HIF_CR_CTL i, 0, 1⟩
abbrev F.HIF_CR_CTL_LOG2SIZE (i : Nat) : FRef := ⟨R.HIF_CR_CTL i, 1, 4⟩
abbrev F.HIF_DB_PROD (i : Nat) : FRef := ⟨R.HIF_DB i, 0, 12⟩
abbrev F.HIF_CR_CONS_CONS (i : Nat) : FRef := ⟨R.HIF_CR_CONS i, 0, 12⟩
abbrev F.HIF_CR_STAT_HALT (i : Nat) : FRef := ⟨R.HIF_CR_STAT i, 0, 1⟩
abbrev F.HIF_CR_STAT_WAITING (i : Nat) : FRef := ⟨R.HIF_CR_STAT i, 1, 1⟩
abbrev F.HIF_CR_STAT_STOPPED (i : Nat) : FRef := ⟨R.HIF_CR_STAT i, 2, 1⟩
abbrev F.HIF_CR_STAT_INFLIGHT (i : Nat) : FRef := ⟨R.HIF_CR_STAT i, 8, 13⟩
abbrev F.HIF_CP_BASE_LO_BASE (i : Nat) : FRef := ⟨R.HIF_CP_BASE_LO i, 0, 32⟩
abbrev F.HIF_CP_BASE_HI_BASE (i : Nat) : FRef := ⟨R.HIF_CP_BASE_HI i, 0, 32⟩
abbrev F.HIF_CP_CTL_EN (i : Nat) : FRef := ⟨R.HIF_CP_CTL i, 0, 1⟩
abbrev F.HIF_CP_CTL_LOG2SIZE (i : Nat) : FRef := ⟨R.HIF_CP_CTL i, 1, 4⟩
abbrev F.HIF_CP_PROD_PROD (i : Nat) : FRef := ⟨R.HIF_CP_PROD i, 0, 12⟩
abbrev F.HIF_CP_PROD_PHASE (i : Nat) : FRef := ⟨R.HIF_CP_PROD i, 12, 1⟩
abbrev F.HIF_CP_CONS_CONS (i : Nat) : FRef := ⟨R.HIF_CP_CONS i, 0, 12⟩
abbrev F.MC_CTL_EN (i : Nat) : FRef := ⟨R.MC_CTL i, 0, 1⟩
abbrev F.MC_CTL_WB_CE (i : Nat) : FRef := ⟨R.MC_CTL i, 1, 1⟩
abbrev F.MC_CTL_SCRUB_EN (i : Nat) : FRef := ⟨R.MC_CTL i, 2, 1⟩
abbrev F.MC_CTL_COMPAT_REF (i : Nat) : FRef := ⟨R.MC_CTL i, 3, 1⟩
abbrev F.MC_CTL_CAPAR_EN (i : Nat) : FRef := ⟨R.MC_CTL i, 4, 1⟩
abbrev F.MC_CTL_ILV (i : Nat) : FRef := ⟨R.MC_CTL i, 5, 1⟩
abbrev F.MC_CTL_SCRUB_RATE (i : Nat) : FRef := ⟨R.MC_CTL i, 8, 8⟩
abbrev F.MC_DEV_DEVW (i : Nat) : FRef := ⟨R.MC_DEV i, 0, 1⟩
abbrev F.MC_DEV_DENS (i : Nat) : FRef := ⟨R.MC_DEV i, 1, 1⟩
abbrev F.MC_DEV_RATE (i : Nat) : FRef := ⟨R.MC_DEV i, 2, 3⟩
abbrev F.MC_DEV_CHKW (i : Nat) : FRef := ⟨R.MC_DEV i, 5, 1⟩
abbrev F.MC_TADJ_ADD_CL (i : Nat) : FRef := ⟨R.MC_TADJ i, 0, 4⟩
abbrev F.MC_TADJ_ADD_RCD (i : Nat) : FRef := ⟨R.MC_TADJ i, 4, 4⟩
abbrev F.MC_TADJ_ADD_RFC (i : Nat) : FRef := ⟨R.MC_TADJ i, 8, 8⟩
abbrev F.MC_TIM0_CL (i : Nat) : FRef := ⟨R.MC_TIM0 i, 0, 8⟩
abbrev F.MC_TIM0_CWL (i : Nat) : FRef := ⟨R.MC_TIM0 i, 8, 8⟩
abbrev F.MC_TIM0_RCD (i : Nat) : FRef := ⟨R.MC_TIM0 i, 16, 8⟩
abbrev F.MC_TIM0_PL (i : Nat) : FRef := ⟨R.MC_TIM0 i, 24, 8⟩
abbrev F.MC_TIM1_REFI (i : Nat) : FRef := ⟨R.MC_TIM1 i, 0, 16⟩
abbrev F.MC_TIM1_RFC (i : Nat) : FRef := ⟨R.MC_TIM1 i, 16, 11⟩
abbrev F.MC_QOS_WR_HI (i : Nat) : FRef := ⟨R.MC_QOS i, 0, 7⟩
abbrev F.MC_QOS_WR_LO (i : Nat) : FRef := ⟨R.MC_QOS i, 8, 7⟩
abbrev F.MC_QOS_AGE_MAX (i : Nat) : FRef := ⟨R.MC_QOS i, 16, 12⟩
abbrev F.MC_PWR_SR_IDLE (i : Nat) : FRef := ⟨R.MC_PWR i, 0, 16⟩
abbrev F.MC_REF_T2X (i : Nat) : FRef := ⟨R.MC_REF i, 0, 8⟩
abbrev F.MC_REF_THYST (i : Nat) : FRef := ⟨R.MC_REF i, 8, 4⟩
abbrev F.MC_REF_REF2X (i : Nat) : FRef := ⟨R.MC_REF i, 12, 1⟩
abbrev F.MC_REF_OWED (i : Nat) : FRef := ⟨R.MC_REF i, 13, 4⟩
abbrev F.MC_REF_SRT (i : Nat) : FRef := ⟨R.MC_REF i, 17, 1⟩
abbrev F.MC_RECAL_RECAL_INT (i : Nat) : FRef := ⟨R.MC_RECAL i, 0, 10⟩
abbrev F.MC_RECAL_STEP_MAX (i : Nat) : FRef := ⟨R.MC_RECAL i, 10, 4⟩
abbrev F.MC_RECAL_EYE_MIN (i : Nat) : FRef := ⟨R.MC_RECAL i, 14, 6⟩
abbrev F.MC_FREQ_RATE (i : Nat) : FRef := ⟨R.MC_FREQ i, 0, 3⟩
abbrev F.MC_FREQ_GO (i : Nat) : FRef := ⟨R.MC_FREQ i, 3, 1⟩
abbrev F.MC_FREQ_BUSY (i : Nat) : FRef := ⟨R.MC_FREQ i, 4, 1⟩
abbrev F.MC_FREQ_REFUSED (i : Nat) : FRef := ⟨R.MC_FREQ i, 5, 1⟩
abbrev F.MC_STAT_STATE (i : Nat) : FRef := ⟨R.MC_STAT i, 0, 3⟩
abbrev F.MC_STAT_TSTEP (i : Nat) : FRef := ⟨R.MC_STAT i, 4, 3⟩
abbrev F.MC_STAT_RATE (i : Nat) : FRef := ⟨R.MC_STAT i, 8, 3⟩
abbrev F.MC_STAT_SIZE (i : Nat) : FRef := ⟨R.MC_STAT i, 12, 13⟩
abbrev F.MC_ECC_CE (i : Nat) : FRef := ⟨R.MC_ECC i, 0, 16⟩
abbrev F.MC_ECC_UE (i : Nat) : FRef := ⟨R.MC_ECC i, 16, 16⟩
abbrev F.MC_UEADDR_VALID (i : Nat) : FRef := ⟨R.MC_UEADDR i, 0, 1⟩
abbrev F.MC_UEADDR_CAUSE (i : Nat) : FRef := ⟨R.MC_UEADDR i, 1, 3⟩
abbrev F.MC_UEADDR_ADDR (i : Nat) : FRef := ⟨R.MC_UEADDR i, 6, 26⟩
abbrev F.MC_CAPAR_ERR (i : Nat) : FRef := ⟨R.MC_CAPAR i, 0, 16⟩
abbrev F.MC_CAPAR_RETRY_MAX (i : Nat) : FRef := ⟨R.MC_CAPAR i, 16, 4⟩
abbrev F.MC_TRAIN_VREFDQ (i : Nat) : FRef := ⟨R.MC_TRAIN i, 0, 6⟩
abbrev F.MC_TRAIN_VRANGE (i : Nat) : FRef := ⟨R.MC_TRAIN i, 6, 1⟩
abbrev F.MC_TRAIN_EYE_R (i : Nat) : FRef := ⟨R.MC_TRAIN i, 8, 8⟩
abbrev F.MC_TRAIN_EYE_W (i : Nat) : FRef := ⟨R.MC_TRAIN i, 16, 8⟩
abbrev F.MC_TRAIN_RECALS (i : Nat) : FRef := ⟨R.MC_TRAIN i, 24, 8⟩
abbrev F.LANE_CTL_EN (i : Nat) : FRef := ⟨R.LANE_CTL i, 0, 1⟩
abbrev F.LANE_CTL_RATE (i : Nat) : FRef := ⟨R.LANE_CTL i, 1, 1⟩
abbrev F.LANE_CTL_TX_INV (i : Nat) : FRef := ⟨R.LANE_CTL i, 2, 1⟩
abbrev F.LANE_CTL_RX_INV (i : Nat) : FRef := ⟨R.LANE_CTL i, 3, 1⟩
abbrev F.LANE_CTL_LOOP (i : Nat) : FRef := ⟨R.LANE_CTL i, 4, 2⟩
abbrev F.LANE_STAT_SIGDET (i : Nat) : FRef := ⟨R.LANE_STAT i, 0, 1⟩
abbrev F.LANE_STAT_CDR_LOCK (i : Nat) : FRef := ⟨R.LANE_STAT i, 1, 1⟩
abbrev F.LANE_STAT_BLOCK_LOCK (i : Nat) : FRef := ⟨R.LANE_STAT i, 2, 1⟩
abbrev F.LANE_STAT_STABLE (i : Nat) : FRef := ⟨R.LANE_STAT i, 3, 1⟩
abbrev F.LANE_STAT_HIBER (i : Nat) : FRef := ⟨R.LANE_STAT i, 4, 1⟩
abbrev F.LANE_STAT_DESKEW_OK (i : Nat) : FRef := ⟨R.LANE_STAT i, 5, 1⟩
abbrev F.LANE_SHERR_SH_ERR (i : Nat) : FRef := ⟨R.LANE_SHERR i, 0, 32⟩
abbrev F.LANE_QUAL_LOS_TIME (i : Nat) : FRef := ⟨R.LANE_QUAL i, 0, 8⟩
abbrev F.LANE_QUAL_HIBER_DOWN (i : Nat) : FRef := ⟨R.LANE_QUAL i, 8, 1⟩
abbrev F.LANE_QUAL_BER_THR (i : Nat) : FRef := ⟨R.LANE_QUAL i, 16, 16⟩
abbrev F.LANE_TXEQ_PRE (i : Nat) : FRef := ⟨R.LANE_TXEQ i, 0, 4⟩
abbrev F.LANE_TXEQ_MAIN (i : Nat) : FRef := ⟨R.LANE_TXEQ i, 4, 6⟩
abbrev F.LANE_TXEQ_POST (i : Nat) : FRef := ⟨R.LANE_TXEQ i, 10, 4⟩
abbrev F.CL_TIMERS_STABLE_TIME : FRef := ⟨R.CL_TIMERS, 0, 5⟩
abbrev F.CL_TIMERS_TRAIN_TIMEOUT : FRef := ⟨R.CL_TIMERS, 8, 7⟩
abbrev F.CL_TIMERS_BYP_SETTLE : FRef := ⟨R.CL_TIMERS, 16, 9⟩
abbrev F.CL_TIMERS_BYP_LONE : FRef := ⟨R.CL_TIMERS, 25, 7⟩
abbrev F.CL_BYP_BYP_STATE : FRef := ⟨R.CL_BYP, 0, 1⟩
abbrev F.CL_BYP_FORCE_CLOSE : FRef := ⟨R.CL_BYP, 1, 1⟩
abbrev F.CL_CLKSRC_REF : FRef := ⟨R.CL_CLKSRC, 0, 2⟩
abbrev F.CL_PCFG_EN (i : Nat) : FRef := ⟨R.CL_PCFG i, 0, 1⟩
abbrev F.CL_PCFG_KIND (i : Nat) : FRef := ⟨R.CL_PCFG i, 1, 3⟩
abbrev F.CL_PCFG_WIDTH2 (i : Nat) : FRef := ⟨R.CL_PCFG i, 4, 1⟩
abbrev F.CL_PCFG_END (i : Nat) : FRef := ⟨R.CL_PCFG i, 5, 1⟩
abbrev F.CL_PCFG_RING (i : Nat) : FRef := ⟨R.CL_PCFG i, 8, 3⟩
abbrev F.CL_PCFG_LANE0 (i : Nat) : FRef := ⟨R.CL_PCFG i, 12, 4⟩
abbrev F.CL_PCFG_LANE1 (i : Nat) : FRef := ⟨R.CL_PCFG i, 16, 4⟩
abbrev F.CL_PSTAT_STATE (i : Nat) : FRef := ⟨R.CL_PSTAT i, 0, 3⟩
abbrev F.CL_PSTAT_DIR_RX (i : Nat) : FRef := ⟨R.CL_PSTAT i, 3, 2⟩
abbrev F.CL_PSTAT_PARTNER_BAD (i : Nat) : FRef := ⟨R.CL_PSTAT i, 5, 1⟩
abbrev F.CL_PSTAT_PARTNER_POS (i : Nat) : FRef := ⟨R.CL_PSTAT i, 6, 6⟩
abbrev F.CL_PSTAT_PARTNER_ROLE (i : Nat) : FRef := ⟨R.CL_PSTAT i, 12, 2⟩
abbrev F.CL_PUID_LO_PUID (i : Nat) : FRef := ⟨R.CL_PUID_LO i, 0, 32⟩
abbrev F.CL_PUID_HI_PUID (i : Nat) : FRef := ⟨R.CL_PUID_HI i, 0, 32⟩
abbrev F.CL_PDELAY_DELAY (i : Nat) : FRef := ⟨R.CL_PDELAY i, 0, 32⟩
abbrev F.CL_PASYM_ASYM (i : Nat) : FRef := ⟨R.CL_PASYM i, 0, 32⟩
abbrev F.CL_PRES_RES (i : Nat) : FRef := ⟨R.CL_PRES i, 0, 32⟩
abbrev F.CL_PFAULT_FAULT_RX (i : Nat) : FRef := ⟨R.CL_PFAULT i, 0, 16⟩
abbrev F.CL_PFAULT_INVALID (i : Nat) : FRef := ⟨R.CL_PFAULT i, 16, 16⟩
abbrev F.CL_PDOWN_DOWNS (i : Nat) : FRef := ⟨R.CL_PDOWN i, 0, 16⟩
abbrev F.CL_SLOT_SHARE : FRef := ⟨R.CL_SLOT, 0, 6⟩
abbrev F.CL_SLOT_SLOT_GAP : FRef := ⟨R.CL_SLOT, 8, 6⟩
abbrev F.CL_ORDER_ORDER_WAIT : FRef := ⟨R.CL_ORDER, 0, 10⟩
abbrev F.CL_ECHO_ECHO_INT : FRef := ⟨R.CL_ECHO, 0, 8⟩
abbrev F.CL_OUTQ_DEPTH : FRef := ⟨R.CL_OUTQ, 0, 7⟩
abbrev F.CL_OUTQ_HIWATER : FRef := ⟨R.CL_OUTQ, 8, 7⟩
abbrev F.CL_OUTQ_REFUSED : FRef := ⟨R.CL_OUTQ, 16, 16⟩
abbrev F.CL_MYPOS_POS : FRef := ⟨R.CL_MYPOS, 0, 6⟩
abbrev F.CL_MYPOS_RHB : FRef := ⟨R.CL_MYPOS, 6, 1⟩
abbrev F.CL_MYPOS_VALID : FRef := ⟨R.CL_MYPOS, 7, 1⟩
abbrev F.CL_MYROUTE_ROUTE : FRef := ⟨R.CL_MYROUTE, 0, 32⟩
abbrev F.CL_MERGE_FIRST_E : FRef := ⟨R.CL_MERGE, 0, 16⟩
abbrev F.CL_MERGE_FIRST_W : FRef := ⟨R.CL_MERGE, 16, 16⟩
abbrev F.CL_PKTERR_CRC_ERR : FRef := ⟨R.CL_PKTERR, 0, 16⟩
abbrev F.CL_PKTERR_ABORTED : FRef := ⟨R.CL_PKTERR, 16, 16⟩
abbrev F.CL_SEGSTAT_SEG_MISSING : FRef := ⟨R.CL_SEGSTAT, 0, 16⟩
abbrev F.CL_SEGSTAT_SEG_LATE : FRef := ⟨R.CL_SEGSTAT, 16, 16⟩
abbrev F.CL_DROP_ROUTE_ERR : FRef := ⟨R.CL_DROP, 0, 16⟩
abbrev F.CL_DROP_UNREACH : FRef := ⟨R.CL_DROP, 16, 16⟩
abbrev F.CL_FRTAB_PREFIX_PREFIX : FRef := ⟨R.CL_FRTAB_PREFIX, 0, 32⟩
abbrev F.CL_FRTAB_FLAGS_LOCK : FRef := ⟨R.CL_FRTAB_FLAGS, 0, 1⟩
abbrev F.CL_FRTAB_FLAGS_RHB : FRef := ⟨R.CL_FRTAB_FLAGS, 1, 1⟩
abbrev F.CL_FRTAB_UID_LO_UID (i : Nat) : FRef := ⟨R.CL_FRTAB_UID_LO i, 0, 32⟩
abbrev F.CL_FRTAB_UID_HI_UID (i : Nat) : FRef := ⟨R.CL_FRTAB_UID_HI i, 0, 32⟩
abbrev F.CL_RTAB_PREFIX_PREFIX (i : Nat) : FRef := ⟨R.CL_RTAB_PREFIX i, 0, 32⟩
abbrev F.CL_RTAB_FLAGS_LOCK (i : Nat) : FRef := ⟨R.CL_RTAB_FLAGS i, 0, 1⟩
abbrev F.CL_RTAB_FLAGS_RHB (i : Nat) : FRef := ⟨R.CL_RTAB_FLAGS i, 1, 1⟩
abbrev F.CL_RTAB_UID_LO_UID (i : Nat) (j : Nat) : FRef := ⟨R.CL_RTAB_UID_LO i j, 0, 32⟩
abbrev F.CL_RTAB_UID_HI_UID (i : Nat) (j : Nat) : FRef := ⟨R.CL_RTAB_UID_HI i j, 0, 32⟩
abbrev F.WT_CTL_SRC : FRef := ⟨R.WT_CTL, 0, 2⟩
abbrev F.WT_CTL_FREERUN_SET : FRef := ⟨R.WT_CTL, 2, 1⟩
abbrev F.WT_CTL_FREERUN_CLR : FRef := ⟨R.WT_CTL, 3, 1⟩
abbrev F.WT_INC_INC : FRef := ⟨R.WT_INC, 0, 32⟩
abbrev F.WT_INC_LIM_LIM : FRef := ⟨R.WT_INC_LIM, 0, 10⟩
abbrev F.WT_SERVO_SERVO_WD : FRef := ⟨R.WT_SERVO, 0, 6⟩
abbrev F.WT_STEP_LO_STEP : FRef := ⟨R.WT_STEP_LO, 0, 32⟩
abbrev F.WT_STEP_HI_STEP : FRef := ⟨R.WT_STEP_HI, 0, 32⟩
abbrev F.WT_TIME_LO_TIME : FRef := ⟨R.WT_TIME_LO, 0, 32⟩
abbrev F.WT_TIME_HI_TIME : FRef := ⟨R.WT_TIME_HI, 0, 32⟩
abbrev F.WT_STAT_FREERUN : FRef := ⟨R.WT_STAT, 0, 1⟩
abbrev F.WT_STAT_CLAMPED : FRef := ⟨R.WT_STAT, 1, 1⟩
abbrev F.WT_PORT_ADJ_RX_ADJ (i : Nat) : FRef := ⟨R.WT_PORT_ADJ i, 0, 16⟩
abbrev F.WT_PORT_ADJ_TX_ADJ (i : Nat) : FRef := ⟨R.WT_PORT_ADJ i, 16, 16⟩
abbrev F.WT_EVTIN_CFG_EDGE0 : FRef := ⟨R.WT_EVTIN_CFG, 0, 2⟩
abbrev F.WT_EVTIN_CFG_FILT0 : FRef := ⟨R.WT_EVTIN_CFG, 2, 6⟩
abbrev F.WT_EVTIN_CFG_EDGE1 : FRef := ⟨R.WT_EVTIN_CFG, 8, 2⟩
abbrev F.WT_EVTIN_CFG_FILT1 : FRef := ⟨R.WT_EVTIN_CFG, 10, 6⟩
abbrev F.WT_EVTIN_CFG_EDGE2 : FRef := ⟨R.WT_EVTIN_CFG, 16, 2⟩
abbrev F.WT_EVTIN_CFG_FILT2 : FRef := ⟨R.WT_EVTIN_CFG, 18, 6⟩
abbrev F.WT_EVTIN_CFG_EDGE3 : FRef := ⟨R.WT_EVTIN_CFG, 24, 2⟩
abbrev F.WT_EVTIN_CFG_FILT3 : FRef := ⟨R.WT_EVTIN_CFG, 26, 6⟩
abbrev F.WT_EVTIN_TS_LO_TS (i : Nat) : FRef := ⟨R.WT_EVTIN_TS_LO i, 0, 32⟩
abbrev F.WT_EVTIN_TS_HI_TS (i : Nat) : FRef := ⟨R.WT_EVTIN_TS_HI i, 0, 32⟩
abbrev F.WT_EVTIN_CNT_LOST0 : FRef := ⟨R.WT_EVTIN_CNT, 0, 8⟩
abbrev F.WT_EVTIN_CNT_LOST1 : FRef := ⟨R.WT_EVTIN_CNT, 8, 8⟩
abbrev F.WT_EVTIN_CNT_LOST2 : FRef := ⟨R.WT_EVTIN_CNT, 16, 8⟩
abbrev F.WT_EVTIN_CNT_LOST3 : FRef := ⟨R.WT_EVTIN_CNT, 24, 8⟩
abbrev F.WT_RCFG_EN (i : Nat) : FRef := ⟨R.WT_RCFG i, 0, 1⟩
abbrev F.WT_RCFG_RATE (i : Nat) : FRef := ⟨R.WT_RCFG i, 8, 8⟩
abbrev F.WT_RCFG_LEAD (i : Nat) : FRef := ⟨R.WT_RCFG i, 16, 8⟩
abbrev F.WT_RFRAME_LO_FRAME (i : Nat) : FRef := ⟨R.WT_RFRAME_LO i, 0, 32⟩
abbrev F.WT_RFRAME_HI_FRAME (i : Nat) : FRef := ⟨R.WT_RFRAME_HI i, 0, 16⟩
abbrev F.WT_RFLIP_LO_FLIP (i : Nat) : FRef := ⟨R.WT_RFLIP_LO i, 0, 32⟩
abbrev F.WT_RFLIP_HI_FLIP (i : Nat) : FRef := ⟨R.WT_RFLIP_HI i, 0, 32⟩
abbrev F.WT_FCFG_FLY_MAX : FRef := ⟨R.WT_FCFG, 0, 12⟩
abbrev F.WT_FCFG_STEP_THR : FRef := ⟨R.WT_FCFG, 16, 16⟩
abbrev F.WT_FSTAT_STATE : FRef := ⟨R.WT_FSTAT, 0, 2⟩
abbrev F.WT_FSTAT_DIR : FRef := ⟨R.WT_FSTAT, 2, 2⟩
abbrev F.WT_FSTAT_TIER : FRef := ⟨R.WT_FSTAT, 4, 3⟩
abbrev F.WT_FSTAT_HOLD : FRef := ⟨R.WT_FSTAT, 7, 1⟩
abbrev F.WT_FSTAT_FLY : FRef := ⟨R.WT_FSTAT, 8, 1⟩
abbrev F.WT_FSTAT_FLY_COUNT : FRef := ⟨R.WT_FSTAT, 12, 12⟩
abbrev F.WT_FMARK_RATE : FRef := ⟨R.WT_FMARK, 0, 8⟩
abbrev F.WT_FMARK_LEAD : FRef := ⟨R.WT_FMARK, 8, 8⟩
abbrev F.WT_FFRAME_LO_FRAME : FRef := ⟨R.WT_FFRAME_LO, 0, 32⟩
abbrev F.WT_FFRAME_HI_FRAME : FRef := ⟨R.WT_FFRAME_HI, 0, 16⟩
abbrev F.WT_FDEV_DEV : FRef := ⟨R.WT_FDEV, 0, 32⟩
abbrev F.WT_FTIME_LO_TIME : FRef := ⟨R.WT_FTIME_LO, 0, 32⟩
abbrev F.WT_FTIME_HI_TIME : FRef := ⟨R.WT_FTIME_HI, 0, 32⟩
abbrev F.WT_PAIR_ALIGN_EN : FRef := ⟨R.WT_PAIR, 0, 1⟩
abbrev F.WT_PAIR_ALIGNED : FRef := ⟨R.WT_PAIR, 1, 1⟩
abbrev F.WT_PAIR_HANDOVER_SLEW : FRef := ⟨R.WT_PAIR, 8, 8⟩
abbrev F.WT_PAIR_PAIR_THR : FRef := ⟨R.WT_PAIR, 16, 16⟩
abbrev F.WT_PAIR_OFS_OFS : FRef := ⟨R.WT_PAIR_OFS, 0, 32⟩
abbrev F.XA_CTL_VOTE_GUARD : FRef := ⟨R.XA_CTL, 0, 13⟩
abbrev F.XA_CTL_COACH_GUARD : FRef := ⟨R.XA_CTL, 16, 13⟩
abbrev F.XA_AUTO_AUTO_FRAMES : FRef := ⟨R.XA_AUTO, 0, 4⟩
abbrev F.XA_AUTO_SWAP_SYNC : FRef := ⟨R.XA_AUTO, 8, 1⟩
abbrev F.XA_AUTO_SWAP_PERIOD : FRef := ⟨R.XA_AUTO, 12, 4⟩
abbrev F.XA_STAGE_USED : FRef := ⟨R.XA_STAGE, 0, 13⟩
abbrev F.XA_STAGE_HIWATER : FRef := ⟨R.XA_STAGE, 16, 13⟩
abbrev F.XA_CNT_LATE : FRef := ⟨R.XA_CNT, 0, 16⟩
abbrev F.XA_CNT_UNKNOWN : FRef := ⟨R.XA_CNT, 16, 16⟩
abbrev F.XA_ABORT_XID_MASK : FRef := ⟨R.XA_ABORT, 0, 16⟩
abbrev F.XA_XSTAT_STATE (i : Nat) : FRef := ⟨R.XA_XSTAT i, 0, 4⟩
abbrev F.XA_XSTAT_REASON (i : Nat) : FRef := ⟨R.XA_XSTAT i, 8, 4⟩
abbrev F.XA_XSTAT_PXID (i : Nat) : FRef := ⟨R.XA_XSTAT i, 16, 4⟩
abbrev F.XA_XSTAT_PVALID (i : Nat) : FRef := ⟨R.XA_XSTAT i, 20, 1⟩
abbrev F.XA_XSTAT_AUTO (i : Nat) : FRef := ⟨R.XA_XSTAT i, 21, 1⟩
abbrev F.XA_XTGT_LO_TARGET (i : Nat) : FRef := ⟨R.XA_XTGT_LO i, 0, 32⟩
abbrev F.XA_XTGT_HI_TARGET (i : Nat) : FRef := ⟨R.XA_XTGT_HI i, 0, 16⟩
abbrev F.XA_XVOTE_READY (i : Nat) : FRef := ⟨R.XA_XVOTE i, 0, 10⟩
abbrev F.XA_XVOTE_EXPECTED (i : Nat) : FRef := ⟨R.XA_XVOTE i, 16, 10⟩
abbrev F.XA_EXCL_LO_EXCL (i : Nat) : FRef := ⟨R.XA_EXCL_LO i, 0, 32⟩
abbrev F.XA_EXCL_HI_EXCL (i : Nat) : FRef := ⟨R.XA_EXCL_HI i, 0, 30⟩
abbrev F.NI_CTL_PAIR_WAIT : FRef := ⟨R.NI_CTL, 0, 10⟩
abbrev F.NI_CTL_CONCEAL_MAX : FRef := ⟨R.NI_CTL, 16, 8⟩
abbrev F.NI_TIMERS_LOSS_TIME : FRef := ⟨R.NI_TIMERS, 0, 8⟩
abbrev F.NI_TIMERS_CLOSE_WAIT : FRef := ⟨R.NI_TIMERS, 8, 8⟩
abbrev F.NI_TIMERS_AGE_MAX : FRef := ⟨R.NI_TIMERS, 16, 10⟩
abbrev F.NI_BUDGET_USED : FRef := ⟨R.NI_BUDGET, 0, 13⟩
abbrev F.NI_PCFG_EN (i : Nat) : FRef := ⟨R.NI_PCFG i, 0, 1⟩
abbrev F.NI_PCFG_LANE (i : Nat) : FRef := ⟨R.NI_PCFG i, 1, 4⟩
abbrev F.NI_PCFG_FEC (i : Nat) : FRef := ⟨R.NI_PCFG i, 5, 2⟩
abbrev F.NI_PCFG_PROMISC (i : Nat) : FRef := ⟨R.NI_PCFG i, 7, 1⟩
abbrev F.NI_PSTAT_LINK (i : Nat) : FRef := ⟨R.NI_PSTAT i, 0, 1⟩
abbrev F.NI_PSTAT_HIBER (i : Nat) : FRef := ⟨R.NI_PSTAT i, 1, 1⟩
abbrev F.NI_PSTAT_FEC_LOCK (i : Nat) : FRef := ⟨R.NI_PSTAT i, 2, 1⟩
abbrev F.NI_PSTAT_CONFLICT (i : Nat) : FRef := ⟨R.NI_PSTAT i, 3, 1⟩
abbrev F.NI_PMAC_LO_MAC (i : Nat) : FRef := ⟨R.NI_PMAC_LO i, 0, 32⟩
abbrev F.NI_PMAC_HI_MAC (i : Nat) : FRef := ⟨R.NI_PMAC_HI i, 0, 16⟩
abbrev F.NI_PRX_RX_OK (i : Nat) : FRef := ⟨R.NI_PRX i, 0, 32⟩
abbrev F.NI_PERR_FCS_ERR (i : Nat) : FRef := ⟨R.NI_PERR i, 0, 16⟩
abbrev F.NI_PERR_DROP (i : Nat) : FRef := ⟨R.NI_PERR i, 16, 16⟩
abbrev F.NI_PFEC_CORR (i : Nat) : FRef := ⟨R.NI_PFEC i, 0, 16⟩
abbrev F.NI_PFEC_UNCORR (i : Nat) : FRef := ⟨R.NI_PFEC i, 16, 16⟩
abbrev F.NI_HRX_BASE_LO_BASE : FRef := ⟨R.NI_HRX_BASE_LO, 0, 32⟩
abbrev F.NI_HRX_BASE_HI_BASE : FRef := ⟨R.NI_HRX_BASE_HI, 0, 32⟩
abbrev F.NI_HRX_CTL_EN : FRef := ⟨R.NI_HRX_CTL, 0, 1⟩
abbrev F.NI_HRX_CTL_LOG2SIZE : FRef := ⟨R.NI_HRX_CTL, 1, 4⟩
abbrev F.NI_HRX_CTL_MOD : FRef := ⟨R.NI_HRX_CTL, 8, 8⟩
abbrev F.NI_HRX_CTL_LIMIT : FRef := ⟨R.NI_HRX_CTL, 16, 16⟩
abbrev F.NI_HRX_TAIL_TAIL : FRef := ⟨R.NI_HRX_TAIL, 0, 12⟩
abbrev F.NI_HRX_HEAD_HEAD : FRef := ⟨R.NI_HRX_HEAD, 0, 12⟩
abbrev F.NI_HRX_HEAD_FULL_DROPS : FRef := ⟨R.NI_HRX_HEAD, 16, 16⟩
abbrev F.NI_HTX_BASE_LO_BASE : FRef := ⟨R.NI_HTX_BASE_LO, 0, 32⟩
abbrev F.NI_HTX_BASE_HI_BASE : FRef := ⟨R.NI_HTX_BASE_HI, 0, 32⟩
abbrev F.NI_HTX_CTL_EN : FRef := ⟨R.NI_HTX_CTL, 0, 1⟩
abbrev F.NI_HTX_CTL_LOG2SIZE : FRef := ⟨R.NI_HTX_CTL, 1, 4⟩
abbrev F.NI_HTX_CTL_MOD : FRef := ⟨R.NI_HTX_CTL, 8, 8⟩
abbrev F.NI_HTX_TAIL_TAIL : FRef := ⟨R.NI_HTX_TAIL, 0, 12⟩
abbrev F.NI_HTX_HEAD_HEAD : FRef := ⟨R.NI_HTX_HEAD, 0, 12⟩
abbrev F.NI_FCFG_EN (i : Nat) : FRef := ⟨R.NI_FCFG i, 0, 1⟩
abbrev F.NI_FCFG_LEG_A (i : Nat) : FRef := ⟨R.NI_FCFG i, 1, 1⟩
abbrev F.NI_FCFG_LEG_B (i : Nat) : FRef := ⟨R.NI_FCFG i, 2, 1⟩
abbrev F.NI_FCFG_PORT_A (i : Nat) : FRef := ⟨R.NI_FCFG i, 3, 2⟩
abbrev F.NI_FCFG_PORT_B (i : Nat) : FRef := ⟨R.NI_FCFG i, 5, 2⟩
abbrev F.NI_FCFG_PT (i : Nat) : FRef := ⟨R.NI_FCFG i, 8, 7⟩
abbrev F.NI_FCFG_NBUF (i : Nat) : FRef := ⟨R.NI_FCFG i, 16, 4⟩
abbrev F.NI_FCFG_GRP_EN (i : Nat) : FRef := ⟨R.NI_FCFG i, 24, 1⟩
abbrev F.NI_FCFG_GROUP (i : Nat) : FRef := ⟨R.NI_FCFG i, 25, 3⟩
abbrev F.NI_FCFG_QX (i : Nat) : FRef := ⟨R.NI_FCFG i, 28, 1⟩
abbrev F.NI_FCFG_QY (i : Nat) : FRef := ⟨R.NI_FCFG i, 29, 1⟩
abbrev F.NI_FFMT_SAMP (i : Nat) : FRef := ⟨R.NI_FFMT i, 0, 2⟩
abbrev F.NI_FFMT_DEPTH (i : Nat) : FRef := ⟨R.NI_FFMT i, 2, 2⟩
abbrev F.NI_FFMT_COLOR (i : Nat) : FRef := ⟨R.NI_FFMT i, 4, 2⟩
abbrev F.NI_FFMT_TCS (i : Nat) : FRef := ⟨R.NI_FFMT i, 6, 2⟩
abbrev F.NI_FFMT_PM (i : Nat) : FRef := ⟨R.NI_FFMT i, 8, 1⟩
abbrev F.NI_FFMT_RANGE (i : Nat) : FRef := ⟨R.NI_FFMT i, 9, 1⟩
abbrev F.NI_FSIZE_WIDTH (i : Nat) : FRef := ⟨R.NI_FSIZE i, 0, 13⟩
abbrev F.NI_FSIZE_HEIGHT (i : Nat) : FRef := ⟨R.NI_FSIZE i, 16, 12⟩
abbrev F.NI_FRATE_NUM (i : Nat) : FRef := ⟨R.NI_FRATE i, 0, 16⟩
abbrev F.NI_FRATE_DEN (i : Nat) : FRef := ⟨R.NI_FRATE i, 16, 16⟩
abbrev F.NI_FKEY_UDP_A (i : Nat) : FRef := ⟨R.NI_FKEY i, 0, 16⟩
abbrev F.NI_FKEY_UDP_B (i : Nat) : FRef := ⟨R.NI_FKEY i, 16, 16⟩
abbrev F.NI_FVLAN_VID_A (i : Nat) : FRef := ⟨R.NI_FVLAN i, 0, 12⟩
abbrev F.NI_FVLAN_VMATCH_A (i : Nat) : FRef := ⟨R.NI_FVLAN i, 12, 1⟩
abbrev F.NI_FVLAN_VID_B (i : Nat) : FRef := ⟨R.NI_FVLAN i, 16, 12⟩
abbrev F.NI_FVLAN_VMATCH_B (i : Nat) : FRef := ⟨R.NI_FVLAN i, 28, 1⟩
abbrev F.NI_FADDR_A_ADDR (i : Nat) (j : Nat) : FRef := ⟨R.NI_FADDR_A i j, 0, 32⟩
abbrev F.NI_FADDR_B_ADDR (i : Nat) (j : Nat) : FRef := ⟨R.NI_FADDR_B i j, 0, 32⟩
abbrev F.NI_FBUF_LO_BASE (i : Nat) : FRef := ⟨R.NI_FBUF_LO i, 0, 32⟩
abbrev F.NI_FBUF_HI_BASE (i : Nat) : FRef := ⟨R.NI_FBUF_HI i, 0, 2⟩
abbrev F.NI_FLINE_STRIDE (i : Nat) : FRef := ⟨R.NI_FLINE i, 0, 16⟩
abbrev F.NI_FSTAT_STATE (i : Nat) : FRef := ⟨R.NI_FSTAT i, 0, 2⟩
abbrev F.NI_FSTAT_LEGA_UP (i : Nat) : FRef := ⟨R.NI_FSTAT i, 2, 1⟩
abbrev F.NI_FSTAT_LEGB_UP (i : Nat) : FRef := ⟨R.NI_FSTAT i, 3, 1⟩
abbrev F.NI_FSTAT_REFUSE (i : Nat) : FRef := ⟨R.NI_FSTAT i, 4, 4⟩
abbrev F.NI_FSTAT_PUB (i : Nat) : FRef := ⟨R.NI_FSTAT i, 8, 3⟩
abbrev F.NI_FSTAT_PUB_VALID (i : Nat) : FRef := ⟨R.NI_FSTAT i, 11, 1⟩
abbrev F.NI_FMEDIA_LO_MEDIA (i : Nat) : FRef := ⟨R.NI_FMEDIA_LO i, 0, 32⟩
abbrev F.NI_FMEDIA_HI_MEDIA (i : Nat) : FRef := ⟨R.NI_FMEDIA_HI i, 0, 32⟩
abbrev F.NI_FLOSS_CONCEALED (i : Nat) : FRef := ⟨R.NI_FLOSS i, 0, 16⟩
abbrev F.NI_FLOSS_LATE (i : Nat) : FRef := ⟨R.NI_FLOSS i, 16, 16⟩
abbrev F.NI_FMERGE_FIRST_A (i : Nat) : FRef := ⟨R.NI_FMERGE i, 0, 16⟩
abbrev F.NI_FMERGE_FIRST_B (i : Nat) : FRef := ⟨R.NI_FMERGE i, 16, 16⟩
abbrev F.NI_FERR_DROPPED (i : Nat) : FRef := ⟨R.NI_FERR i, 0, 16⟩
abbrev F.NI_FERR_BAD (i : Nat) : FRef := ⟨R.NI_FERR i, 16, 16⟩
abbrev F.CMP_CTL_GUARD : FRef := ⟨R.CMP_CTL, 0, 8⟩
abbrev F.CMP_CTL_STALE_MAX : FRef := ⟨R.CMP_CTL, 16, 8⟩
abbrev F.CMP_STAT_USED : FRef := ⟨R.CMP_STAT, 0, 12⟩
abbrev F.CMP_STAT_RESIDUE : FRef := ⟨R.CMP_STAT, 16, 16⟩
abbrev F.CMP_RCFG_EN (i : Nat) : FRef := ⟨R.CMP_RCFG i, 0, 1⟩
abbrev F.CMP_RCFG_FMT (i : Nat) : FRef := ⟨R.CMP_RCFG i, 1, 2⟩
abbrev F.CMP_RBG_R (i : Nat) : FRef := ⟨R.CMP_RBG i, 0, 10⟩
abbrev F.CMP_RBG_G (i : Nat) : FRef := ⟨R.CMP_RBG i, 10, 10⟩
abbrev F.CMP_RBG_B (i : Nat) : FRef := ⟨R.CMP_RBG i, 20, 10⟩
abbrev F.CMP_RREC_LO_REC (i : Nat) : FRef := ⟨R.CMP_RREC_LO i, 0, 32⟩
abbrev F.CMP_RREC_HI_REC (i : Nat) : FRef := ⟨R.CMP_RREC_HI i, 0, 2⟩
abbrev F.CMP_RSTAT_MAPPED (i : Nat) : FRef := ⟨R.CMP_RSTAT i, 0, 6⟩
abbrev F.CMP_RSTAT_MAP_PEND (i : Nat) : FRef := ⟨R.CMP_RSTAT i, 6, 1⟩
abbrev F.CMP_RSTAT_UNDERRUNS (i : Nat) : FRef := ⟨R.CMP_RSTAT i, 16, 16⟩
abbrev F.CMP_DBCFG_DB_W : FRef := ⟨R.CMP_DBCFG, 0, 13⟩
abbrev F.CMP_DBCFG_DB_H : FRef := ⟨R.CMP_DBCFG, 16, 13⟩
abbrev F.CMP_DBCFG_EN : FRef := ⟨R.CMP_DBCFG, 31, 1⟩
abbrev F.CMP_DBBASE_LO_BASE : FRef := ⟨R.CMP_DBBASE_LO, 0, 32⟩
abbrev F.CMP_DBBASE_HI_BASE : FRef := ⟨R.CMP_DBBASE_HI, 0, 2⟩
abbrev F.CMP_LCFG_EN (i : Nat) (j : Nat) : FRef := ⟨R.CMP_LCFG i j, 0, 1⟩
abbrev F.CMP_LCFG_KIND (i : Nat) (j : Nat) : FRef := ⟨R.CMP_LCFG i j, 1, 2⟩
abbrev F.CMP_LCFG_SRC (i : Nat) (j : Nat) : FRef := ⟨R.CMP_LCFG i j, 3, 5⟩
abbrev F.CMP_LCFG_Z (i : Nat) (j : Nat) : FRef := ⟨R.CMP_LCFG i j, 8, 4⟩
abbrev F.CMP_LCFG_GFMT (i : Nat) (j : Nat) : FRef := ⟨R.CMP_LCFG i j, 12, 2⟩
abbrev F.CMP_LCFG_SEAL_ACT (i : Nat) (j : Nat) : FRef := ⟨R.CMP_LCFG i j, 14, 1⟩
abbrev F.CMP_LCFG_STALE_ACT (i : Nat) (j : Nat) : FRef := ⟨R.CMP_LCFG i j, 15, 1⟩
abbrev F.CMP_LCFG_GALPHA (i : Nat) (j : Nat) : FRef := ⟨R.CMP_LCFG i j, 16, 10⟩
abbrev F.CMP_LDST_XW (i : Nat) (j : Nat) : FRef := ⟨R.CMP_LDST i j, 0, 16⟩
abbrev F.CMP_LDST_YH (i : Nat) (j : Nat) : FRef := ⟨R.CMP_LDST i j, 16, 16⟩
abbrev F.CMP_LDSZ_XW (i : Nat) (j : Nat) : FRef := ⟨R.CMP_LDSZ i j, 0, 16⟩
abbrev F.CMP_LDSZ_YH (i : Nat) (j : Nat) : FRef := ⟨R.CMP_LDSZ i j, 16, 16⟩
abbrev F.CMP_LCROP_XW (i : Nat) (j : Nat) : FRef := ⟨R.CMP_LCROP i j, 0, 16⟩
abbrev F.CMP_LCROP_YH (i : Nat) (j : Nat) : FRef := ⟨R.CMP_LCROP i j, 16, 16⟩
abbrev F.CMP_LCSZ_XW (i : Nat) (j : Nat) : FRef := ⟨R.CMP_LCSZ i j, 0, 16⟩
abbrev F.CMP_LCSZ_YH (i : Nat) (j : Nat) : FRef := ⟨R.CMP_LCSZ i j, 16, 16⟩
abbrev F.CMP_LREC_LO_REC (i : Nat) (j : Nat) : FRef := ⟨R.CMP_LREC_LO i j, 0, 32⟩
abbrev F.CMP_LREC_HI_REC (i : Nat) (j : Nat) : FRef := ⟨R.CMP_LREC_HI i j, 0, 2⟩
abbrev F.CMP_LPITCH_PITCH (i : Nat) (j : Nat) : FRef := ⟨R.CMP_LPITCH i j, 0, 16⟩
abbrev F.CMP_LBUF_LO_BUF (i : Nat) (j : Nat) : FRef := ⟨R.CMP_LBUF_LO i j, 0, 32⟩
abbrev F.CMP_LBUF_HI_BUF (i : Nat) (j : Nat) : FRef := ⟨R.CMP_LBUF_HI i j, 0, 2⟩
abbrev F.CMP_LSTAT_VBUF (i : Nat) (j : Nat) : FRef := ⟨R.CMP_LSTAT i j, 0, 3⟩
abbrev F.CMP_LSTAT_HELD (i : Nat) (j : Nat) : FRef := ⟨R.CMP_LSTAT i j, 3, 1⟩
abbrev F.CMP_LSTAT_STALE (i : Nat) (j : Nat) : FRef := ⟨R.CMP_LSTAT i j, 4, 1⟩
abbrev F.CMP_LSTAT_FLIP_PEND (i : Nat) (j : Nat) : FRef := ⟨R.CMP_LSTAT i j, 5, 1⟩
abbrev F.CMP_LSTAT_BAD (i : Nat) (j : Nat) : FRef := ⟨R.CMP_LSTAT i j, 8, 4⟩
abbrev F.CMP_LMEDIA_LO_MEDIA (i : Nat) (j : Nat) : FRef := ⟨R.CMP_LMEDIA_LO i j, 0, 32⟩
abbrev F.CMP_LMEDIA_HI_MEDIA (i : Nat) (j : Nat) : FRef := ⟨R.CMP_LMEDIA_HI i j, 0, 32⟩
abbrev F.CMP_LCNT_SEAL_FAIL (i : Nat) (j : Nat) : FRef := ⟨R.CMP_LCNT i j, 0, 16⟩
abbrev F.CMP_LCNT_STALE (i : Nat) (j : Nat) : FRef := ⟨R.CMP_LCNT i j, 16, 16⟩
abbrev F.PIX_CTL_EN : FRef := ⟨R.PIX_CTL, 0, 1⟩
abbrev F.PIX_CTL_DITHER : FRef := ⟨R.PIX_CTL, 1, 1⟩
abbrev F.PIX_CTL_QUIET_EN : FRef := ⟨R.PIX_CTL, 2, 1⟩
abbrev F.PIX_GEOM_WIDTH : FRef := ⟨R.PIX_GEOM, 0, 13⟩
abbrev F.PIX_GEOM_LINES : FRef := ⟨R.PIX_GEOM, 16, 12⟩
abbrev F.PIX_FBBASE_BASE : FRef := ⟨R.PIX_FBBASE, 12, 20⟩
abbrev F.PIX_SCALE_BRIGHT : FRef := ⟨R.PIX_SCALE, 0, 13⟩
abbrev F.PIX_SCALE_THR : FRef := ⟨R.PIX_SCALE, 16, 5⟩
abbrev F.PIX_AMB_AMB : FRef := ⟨R.PIX_AMB, 0, 13⟩
abbrev F.PIX_FBGAIN0_R : FRef := ⟨R.PIX_FBGAIN0, 0, 13⟩
abbrev F.PIX_FBGAIN0_G : FRef := ⟨R.PIX_FBGAIN0, 16, 13⟩
abbrev F.PIX_FBGAIN1_B : FRef := ⟨R.PIX_FBGAIN1, 0, 13⟩
abbrev F.PIX_TMAT_T0 (i : Nat) : FRef := ⟨R.PIX_TMAT i, 0, 16⟩
abbrev F.PIX_TMAT_T1 (i : Nat) : FRef := ⟨R.PIX_TMAT i, 16, 16⟩
abbrev F.PIX_BANK_LIVE : FRef := ⟨R.PIX_BANK, 0, 1⟩
abbrev F.PIX_BANK_OWNER : FRef := ⟨R.PIX_BANK, 1, 1⟩
abbrev F.PIX_BANK_READY : FRef := ⟨R.PIX_BANK, 2, 1⟩
abbrev F.PIX_BANK_SWAP : FRef := ⟨R.PIX_BANK, 3, 1⟩
abbrev F.PIX_BANK_COPY : FRef := ⟨R.PIX_BANK, 4, 1⟩
abbrev F.PIX_BANK_COPY_BUSY : FRef := ⟨R.PIX_BANK, 5, 1⟩
abbrev F.PIX_QUIET_QUIET_FRAMES : FRef := ⟨R.PIX_QUIET, 0, 8⟩
abbrev F.PIX_QUIET_QUIET_MAX : FRef := ⟨R.PIX_QUIET, 8, 12⟩
abbrev F.PIX_QSTAT_STATE : FRef := ⟨R.PIX_QSTAT, 0, 2⟩
abbrev F.PIX_QSTAT_CAUSE : FRef := ⟨R.PIX_QSTAT, 2, 4⟩
abbrev F.PIX_QSTAT_STEADY : FRef := ⟨R.PIX_QSTAT, 8, 8⟩
abbrev F.PIX_QSTAT_ENTRIES : FRef := ⟨R.PIX_QSTAT, 16, 16⟩
abbrev F.PIX_FBSTAT_SHOWN : FRef := ⟨R.PIX_FBSTAT, 0, 2⟩
abbrev F.PIX_FBSTAT_FILL : FRef := ⟨R.PIX_FBSTAT, 2, 2⟩
abbrev F.PIX_FBSTAT_GEOM : FRef := ⟨R.PIX_FBSTAT, 8, 8⟩
abbrev F.PIX_FBSTAT_AHEAD : FRef := ⟨R.PIX_FBSTAT, 16, 8⟩
abbrev F.PIX_FBSTAT_FB_UE : FRef := ⟨R.PIX_FBSTAT, 24, 8⟩
abbrev F.PIX_RESCNT_LAMPS : FRef := ⟨R.PIX_RESCNT, 0, 16⟩
abbrev F.PIX_RESCNT_DARKED : FRef := ⟨R.PIX_RESCNT, 16, 16⟩
abbrev F.PIX_LSERR_CE : FRef := ⟨R.PIX_LSERR, 0, 16⟩
abbrev F.PIX_LSERR_UE : FRef := ⟨R.PIX_LSERR, 16, 16⟩
abbrev F.PIX_LSUE_INDEX : FRef := ⟨R.PIX_LSUE, 0, 20⟩
abbrev F.PIX_LSUE_BANK : FRef := ⟨R.PIX_LSUE, 20, 1⟩
abbrev F.PIX_LSUE_VALID : FRef := ⟨R.PIX_LSUE, 31, 1⟩
abbrev F.PIX_ILUT_E (i : Nat) (j : Nat) : FRef := ⟨R.PIX_ILUT i j, 0, 20⟩
abbrev F.CAL_CTL_BLEND_EN : FRef := ⟨R.CAL_CTL, 0, 1⟩
abbrev F.CAL_CTL_KICK : FRef := ⟨R.CAL_CTL, 1, 1⟩
abbrev F.CAL_CTL_LOOP_EN : FRef := ⟨R.CAL_CTL, 2, 1⟩
abbrev F.CAL_CTL_AMB_EN : FRef := ⟨R.CAL_CTL, 3, 1⟩
abbrev F.CAL_CTL_CAPTURE : FRef := ⟨R.CAL_CTL, 4, 1⟩
abbrev F.CAL_CTL_RESET_G : FRef := ⟨R.CAL_CTL, 5, 1⟩
abbrev F.CAL_MODE_MODE : FRef := ⟨R.CAL_MODE, 0, 1⟩
abbrev F.CAL_MODE_CAL_DT : FRef := ⟨R.CAL_MODE, 4, 8⟩
abbrev F.CAL_MODE_ZSTEP : FRef := ⟨R.CAL_MODE, 12, 8⟩
abbrev F.CAL_MODE_BW : FRef := ⟨R.CAL_MODE, 20, 4⟩
abbrev F.CAL_MODE_RETRY : FRef := ⟨R.CAL_MODE, 24, 8⟩
abbrev F.CAL_STAT_ENG : FRef := ⟨R.CAL_STAT, 0, 2⟩
abbrev F.CAL_STAT_INIT : FRef := ⟨R.CAL_STAT, 2, 1⟩
abbrev F.CAL_STAT_TRACED : FRef := ⟨R.CAL_STAT, 3, 1⟩
abbrev F.CAL_STAT_SETS : FRef := ⟨R.CAL_STAT, 4, 4⟩
abbrev F.CAL_STAT_MIGRATED : FRef := ⟨R.CAL_STAT, 8, 1⟩
abbrev F.CAL_STAT_PASSES : FRef := ⟨R.CAL_STAT, 16, 16⟩
abbrev F.CAL_LAMPS_LAMPS : FRef := ⟨R.CAL_LAMPS, 0, 20⟩
abbrev F.CAL_LAMPS_REF : FRef := ⟨R.CAL_LAMPS, 20, 3⟩
abbrev F.CAL_LAMPS_VALIDMASK : FRef := ⟨R.CAL_LAMPS, 24, 8⟩
abbrev F.CAL_SETBASE_BASE : FRef := ⟨R.CAL_SETBASE, 12, 20⟩
abbrev F.CAL_LIM0_OFFMAX : FRef := ⟨R.CAL_LIM0, 0, 11⟩
abbrev F.CAL_LIM0_MAXSTEP : FRef := ⟨R.CAL_LIM0, 12, 8⟩
abbrev F.CAL_LIM0_PLAUS_MAX : FRef := ⟨R.CAL_LIM0, 20, 12⟩
abbrev F.CAL_LIM1_MAXDEV : FRef := ⟨R.CAL_LIM1, 0, 11⟩
abbrev F.CAL_LIM1_DIAGMIN : FRef := ⟨R.CAL_LIM1, 16, 12⟩
abbrev F.CAL_BCNT_KEPT : FRef := ⟨R.CAL_BCNT, 0, 16⟩
abbrev F.CAL_BCNT_REJECTS : FRef := ⟨R.CAL_BCNT, 16, 16⟩
abbrev F.CAL_POINT_V0 (i : Nat) : FRef := ⟨R.CAL_POINT i, 0, 16⟩
abbrev F.CAL_POINT_V1 (i : Nat) : FRef := ⟨R.CAL_POINT i, 16, 16⟩
abbrev F.CAL_ZTEMP_V0 (i : Nat) : FRef := ⟨R.CAL_ZTEMP i, 0, 16⟩
abbrev F.CAL_ZTEMP_V1 (i : Nat) : FRef := ⟨R.CAL_ZTEMP i, 16, 16⟩
abbrev F.CAL_ZSUB_ZONE0 : FRef := ⟨R.CAL_ZSUB, 0, 3⟩
abbrev F.CAL_ZSUB_EN0 : FRef := ⟨R.CAL_ZSUB, 3, 1⟩
abbrev F.CAL_ZSUB_ZONE1 : FRef := ⟨R.CAL_ZSUB, 4, 3⟩
abbrev F.CAL_ZSUB_EN1 : FRef := ⟨R.CAL_ZSUB, 7, 1⟩
abbrev F.CAL_ZSUB_ZONE2 : FRef := ⟨R.CAL_ZSUB, 8, 3⟩
abbrev F.CAL_ZSUB_EN2 : FRef := ⟨R.CAL_ZSUB, 11, 1⟩
abbrev F.CAL_ZSUB_ZONE3 : FRef := ⟨R.CAL_ZSUB, 12, 3⟩
abbrev F.CAL_ZSUB_EN3 : FRef := ⟨R.CAL_ZSUB, 15, 1⟩
abbrev F.CAL_ZSUB_ZONE4 : FRef := ⟨R.CAL_ZSUB, 16, 3⟩
abbrev F.CAL_ZSUB_EN4 : FRef := ⟨R.CAL_ZSUB, 19, 1⟩
abbrev F.CAL_ZSUB_ZONE5 : FRef := ⟨R.CAL_ZSUB, 20, 3⟩
abbrev F.CAL_ZSUB_EN5 : FRef := ⟨R.CAL_ZSUB, 23, 1⟩
abbrev F.CAL_ZSUB_ZONE6 : FRef := ⟨R.CAL_ZSUB, 24, 3⟩
abbrev F.CAL_ZSUB_EN6 : FRef := ⟨R.CAL_ZSUB, 27, 1⟩
abbrev F.CAL_ZSUB_ZONE7 : FRef := ⟨R.CAL_ZSUB, 28, 3⟩
abbrev F.CAL_ZSUB_EN7 : FRef := ⟨R.CAL_ZSUB, 31, 1⟩
abbrev F.CAL_LOOP_LOOP_N : FRef := ⟨R.CAL_LOOP, 0, 8⟩
abbrev F.CAL_LOOP_GAIN : FRef := ⟨R.CAL_LOOP, 8, 8⟩
abbrev F.CAL_LOOP_STEP : FRef := ⟨R.CAL_LOOP, 16, 8⟩
abbrev F.CAL_LOOP_SENS_MIN : FRef := ⟨R.CAL_LOOP, 24, 2⟩
abbrev F.CAL_LOOPLIM_G_MIN : FRef := ⟨R.CAL_LOOPLIM, 0, 16⟩
abbrev F.CAL_LOOPLIM_G_MAX : FRef := ⟨R.CAL_LOOPLIM, 16, 16⟩
abbrev F.CAL_LOOPHOLD_HOLD : FRef := ⟨R.CAL_LOOPHOLD, 0, 8⟩
abbrev F.CAL_LOOPHOLD_WIN : FRef := ⟨R.CAL_LOOPHOLD, 8, 8⟩
abbrev F.CAL_WITLVL_WIT_LVL : FRef := ⟨R.CAL_WITLVL, 0, 16⟩
abbrev F.CAL_WITLVL_WIT_TIME : FRef := ⟨R.CAL_WITLVL, 16, 8⟩
abbrev F.CAL_WIT_EN (i : Nat) : FRef := ⟨R.CAL_WIT i, 0, 1⟩
abbrev F.CAL_WIT_PORT (i : Nat) : FRef := ⟨R.CAL_WIT i, 1, 4⟩
abbrev F.CAL_WIT_DEV (i : Nat) : FRef := ⟨R.CAL_WIT i, 5, 5⟩
abbrev F.CAL_WIT_SC (i : Nat) : FRef := ⟨R.CAL_WIT i, 10, 5⟩
abbrev F.CAL_WIT_TFIRST (i : Nat) : FRef := ⟨R.CAL_WIT i, 15, 4⟩
abbrev F.CAL_WIT_TCOUNT (i : Nat) : FRef := ⟨R.CAL_WIT i, 19, 4⟩
abbrev F.CAL_LGAIN0_G_R : FRef := ⟨R.CAL_LGAIN0, 0, 16⟩
abbrev F.CAL_LGAIN0_G_G : FRef := ⟨R.CAL_LGAIN0, 16, 16⟩
abbrev F.CAL_LGAIN1_G_B : FRef := ⟨R.CAL_LGAIN1, 0, 16⟩
abbrev F.CAL_LSTAT_STATE : FRef := ⟨R.CAL_LSTAT, 0, 2⟩
abbrev F.CAL_LSTAT_HOLD : FRef := ⟨R.CAL_LSTAT, 2, 4⟩
abbrev F.CAL_LSTAT_SEQ : FRef := ⟨R.CAL_LSTAT, 8, 8⟩
abbrev F.CAL_LSTAT_UPDATES : FRef := ⟨R.CAL_LSTAT, 16, 16⟩
abbrev F.CAL_TBASE_T0 (i : Nat) : FRef := ⟨R.CAL_TBASE i, 0, 16⟩
abbrev F.CAL_TBASE_T1 (i : Nat) : FRef := ⟨R.CAL_TBASE i, 16, 16⟩
abbrev F.CAL_REFSTAT_VALID : FRef := ⟨R.CAL_REFSTAT, 0, 1⟩
abbrev F.CAL_REFSTAT_TRACED : FRef := ⟨R.CAL_REFSTAT, 1, 1⟩
abbrev F.CAL_REF_REF (i : Nat) (j : Nat) : FRef := ⟨R.CAL_REF i j, 0, 20⟩
abbrev F.CAL_TARGET_XY_X (i : Nat) : FRef := ⟨R.CAL_TARGET_XY i, 0, 16⟩
abbrev F.CAL_TARGET_XY_Y_CHR (i : Nat) : FRef := ⟨R.CAL_TARGET_XY i, 16, 16⟩
abbrev F.CAL_TARGET_Y_TGT_Y (i : Nat) : FRef := ⟨R.CAL_TARGET_Y i, 0, 32⟩
abbrev F.CAL_LUM_LUM (i : Nat) : FRef := ⟨R.CAL_LUM i, 0, 32⟩
abbrev F.CAL_AMB_AMB_MIN : FRef := ⟨R.CAL_AMB, 0, 13⟩
abbrev F.CAL_AMB_HYST : FRef := ⟨R.CAL_AMB, 16, 8⟩
abbrev F.CAL_AMB_STEP : FRef := ⟨R.CAL_AMB, 24, 8⟩
abbrev F.CAL_AMBK_SLOPE : FRef := ⟨R.CAL_AMBK, 0, 16⟩
abbrev F.CAL_AMBK_TC : FRef := ⟨R.CAL_AMBK, 16, 4⟩
abbrev F.CAL_AMBW_W_R : FRef := ⟨R.CAL_AMBW, 0, 8⟩
abbrev F.CAL_AMBW_W_G : FRef := ⟨R.CAL_AMBW, 8, 8⟩
abbrev F.CAL_AMBW_W_B : FRef := ⟨R.CAL_AMBW, 16, 8⟩
abbrev F.CAL_AMBRD_AF : FRef := ⟨R.CAL_AMBRD, 0, 20⟩
abbrev F.CAL_ZMAP_ZONE0 (i : Nat) : FRef := ⟨R.CAL_ZMAP i, 0, 3⟩
abbrev F.CAL_ZMAP_ZONE1 (i : Nat) : FRef := ⟨R.CAL_ZMAP i, 4, 3⟩
abbrev F.CAL_ZMAP_ZONE2 (i : Nat) : FRef := ⟨R.CAL_ZMAP i, 8, 3⟩
abbrev F.CAL_ZMAP_ZONE3 (i : Nat) : FRef := ⟨R.CAL_ZMAP i, 12, 3⟩
abbrev F.CAL_ZMAP_ZONE4 (i : Nat) : FRef := ⟨R.CAL_ZMAP i, 16, 3⟩
abbrev F.CAL_ZMAP_ZONE5 (i : Nat) : FRef := ⟨R.CAL_ZMAP i, 20, 3⟩
abbrev F.CAL_ZMAP_ZONE6 (i : Nat) : FRef := ⟨R.CAL_ZMAP i, 24, 3⟩
abbrev F.CAL_ZMAP_ZONE7 (i : Nat) : FRef := ⟨R.CAL_ZMAP i, 28, 3⟩
abbrev F.DRV_CTL_EN : FRef := ⟨R.DRV_CTL, 0, 1⟩
abbrev F.DRV_CTL_ENUM : FRef := ⟨R.DRV_CTL, 1, 1⟩
abbrev F.DRV_CTL_AUTO_MASK : FRef := ⟨R.DRV_CTL, 2, 1⟩
abbrev F.DRV_CTL_MASK_CLR : FRef := ⟨R.DRV_CTL, 3, 1⟩
abbrev F.DRV_TOPO_S_M1 : FRef := ⟨R.DRV_TOPO, 0, 5⟩
abbrev F.DRV_TOPO_K_M1 : FRef := ⟨R.DRV_TOPO, 5, 5⟩
abbrev F.DRV_TOPO_CORDER : FRef := ⟨R.DRV_TOPO, 10, 3⟩
abbrev F.DRV_TOPO_IGAIN : FRef := ⟨R.DRV_TOPO, 16, 8⟩
abbrev F.DRV_LINE_LINE_T : FRef := ⟨R.DRV_LINE, 0, 16⟩
abbrev F.DRV_LINE_BLANK_T : FRef := ⟨R.DRV_LINE, 16, 12⟩
abbrev F.DRV_TIME_LIGHT_DLY : FRef := ⟨R.DRV_TIME, 0, 13⟩
abbrev F.DRV_TIME_PHASE_STEP : FRef := ⟨R.DRV_TIME, 16, 13⟩
abbrev F.DRV_POLL_RET_LOST : FRef := ⟨R.DRV_POLL, 0, 4⟩
abbrev F.DRV_STAT_STATE : FRef := ⟨R.DRV_STAT, 0, 2⟩
abbrev F.DRV_STAT_ADAPTED : FRef := ⟨R.DRV_STAT, 2, 1⟩
abbrev F.DRV_STAT_TOPO_ERR : FRef := ⟨R.DRV_STAT, 3, 4⟩
abbrev F.DRV_STAT_UNDERRUNS : FRef := ⟨R.DRV_STAT, 16, 16⟩
abbrev F.DRV_LGFORCE_FORCE : FRef := ⟨R.DRV_LGFORCE, 0, 32⟩
abbrev F.DRV_LGLATCH_LATCHED : FRef := ⟨R.DRV_LGLATCH, 0, 32⟩
abbrev F.DRV_LGCLR_CLR : FRef := ⟨R.DRV_LGCLR, 0, 32⟩
abbrev F.DRV_LGVALID_VALID : FRef := ⟨R.DRV_LGVALID, 0, 32⟩
abbrev F.DRV_MASKCNT_USED : FRef := ⟨R.DRV_MASKCNT, 0, 10⟩
abbrev F.DRV_MASKCNT_FAULTS : FRef := ⟨R.DRV_MASKCNT, 16, 16⟩
abbrev F.DRV_LGLVL_LEVEL (i : Nat) : FRef := ⟨R.DRV_LGLVL i, 0, 20⟩
abbrev F.DRV_LGCAUSE_LAMP (i : Nat) : FRef := ⟨R.DRV_LGCAUSE i, 0, 20⟩
abbrev F.DRV_LGCAUSE_CAUSE (i : Nat) : FRef := ⟨R.DRV_LGCAUSE i, 20, 3⟩
abbrev F.DRV_PSTAT_FOUND (i : Nat) : FRef := ⟨R.DRV_PSTAT i, 0, 6⟩
abbrev F.DRV_PSTAT_LONG (i : Nat) : FRef := ⟨R.DRV_PSTAT i, 6, 1⟩
abbrev F.DRV_PSTAT_RETERR (i : Nat) : FRef := ⟨R.DRV_PSTAT i, 8, 8⟩
abbrev F.DRV_PCFG_DCOUNT (i : Nat) : FRef := ⟨R.DRV_PCFG i, 0, 6⟩
abbrev F.DRV_PLOST_LOST (i : Nat) : FRef := ⟨R.DRV_PLOST i, 0, 32⟩
abbrev F.DRV_RAIL_CTL_EN : FRef := ⟨R.DRV_RAIL_CTL, 0, 1⟩
abbrev F.DRV_RAIL_CTL_RESTART : FRef := ⟨R.DRV_RAIL_CTL, 1, 1⟩
abbrev F.DRV_RAIL_CTL_FSW : FRef := ⟨R.DRV_RAIL_CTL, 2, 8⟩
abbrev F.DRV_RAIL_CTL_DMAX : FRef := ⟨R.DRV_RAIL_CTL, 10, 10⟩
abbrev F.DRV_RAIL_V_VMIN : FRef := ⟨R.DRV_RAIL_V, 0, 7⟩
abbrev F.DRV_RAIL_V_VMAX : FRef := ⟨R.DRV_RAIL_V, 8, 7⟩
abbrev F.DRV_RAIL_V_VSTART : FRef := ⟨R.DRV_RAIL_V, 16, 7⟩
abbrev F.DRV_RAIL_V_VSAFE : FRef := ⟨R.DRV_RAIL_V, 24, 7⟩
abbrev F.DRV_RAIL_TRK_HR_MIN : FRef := ⟨R.DRV_RAIL_TRK, 0, 3⟩
abbrev F.DRV_RAIL_TRK_HR_TGT : FRef := ⟨R.DRV_RAIL_TRK, 4, 3⟩
abbrev F.DRV_RAIL_TRK_DOWN_FRAMES : FRef := ⟨R.DRV_RAIL_TRK, 8, 8⟩
abbrev F.DRV_RAIL_TRK_UP_STEP : FRef := ⟨R.DRV_RAIL_TRK, 16, 4⟩
abbrev F.DRV_RAIL_TRK_UP_HOLD : FRef := ⟨R.DRV_RAIL_TRK, 20, 12⟩
abbrev F.DRV_RAIL_PID_KP : FRef := ⟨R.DRV_RAIL_PID, 0, 8⟩
abbrev F.DRV_RAIL_PID_KI : FRef := ⟨R.DRV_RAIL_PID, 8, 8⟩
abbrev F.DRV_RAIL_PID_KD : FRef := ⟨R.DRV_RAIL_PID, 16, 8⟩
abbrev F.DRV_RAIL_ILIM_ILIM : FRef := ⟨R.DRV_RAIL_ILIM, 0, 10⟩
abbrev F.DRV_RAIL_PROT_OV_MARGIN : FRef := ⟨R.DRV_RAIL_PROT, 0, 6⟩
abbrev F.DRV_RAIL_PROT_UV_MARGIN : FRef := ⟨R.DRV_RAIL_PROT, 8, 6⟩
abbrev F.DRV_RAIL_PROT_UV_TIME : FRef := ⟨R.DRV_RAIL_PROT, 16, 8⟩
abbrev F.DRV_RAIL_STAT_CODE : FRef := ⟨R.DRV_RAIL_STAT, 0, 7⟩
abbrev F.DRV_RAIL_STAT_STATE : FRef := ⟨R.DRV_RAIL_STAT, 8, 3⟩
abbrev F.DRV_RAIL_STAT_HEAD_MIN : FRef := ⟨R.DRV_RAIL_STAT, 12, 3⟩
abbrev F.DRV_RAIL_STAT_RISES : FRef := ⟨R.DRV_RAIL_STAT, 16, 16⟩
abbrev F.DRV_RAIL_MEAS_V : FRef := ⟨R.DRV_RAIL_MEAS, 0, 10⟩
abbrev F.DRV_RAIL_MEAS_I : FRef := ⟨R.DRV_RAIL_MEAS, 16, 10⟩
abbrev F.DRV_DMAP_X0 (i : Nat) : FRef := ⟨R.DRV_DMAP i, 0, 12⟩
abbrev F.DRV_DMAP_Y0 (i : Nat) : FRef := ⟨R.DRV_DMAP i, 12, 12⟩
abbrev F.DRV_MASK_INDEX (i : Nat) : FRef := ⟨R.DRV_MASK i, 0, 20⟩
abbrev F.DRV_MASK_TYPE (i : Nat) : FRef := ⟨R.DRV_MASK i, 20, 2⟩
abbrev F.DRV_MASK_VALID (i : Nat) : FRef := ⟨R.DRV_MASK i, 31, 1⟩
abbrev F.DRV_SCANMAP_DX (i : Nat) : FRef := ⟨R.DRV_SCANMAP i, 0, 8⟩
abbrev F.DRV_SCANMAP_DY (i : Nat) : FRef := ⟨R.DRV_SCANMAP i, 8, 8⟩
abbrev F.DRV_LGRANGE0_FIRST (i : Nat) (j : Nat) : FRef := ⟨R.DRV_LGRANGE0 i j, 0, 20⟩
abbrev F.DRV_LGRANGE0_BMEN (i : Nat) (j : Nat) : FRef := ⟨R.DRV_LGRANGE0 i j, 20, 1⟩
abbrev F.DRV_LGRANGE1_COUNT (i : Nat) (j : Nat) : FRef := ⟨R.DRV_LGRANGE1 i j, 0, 14⟩
abbrev F.DRV_LGRANGE1_BMOFS (i : Nat) (j : Nat) : FRef := ⟨R.DRV_LGRANGE1 i j, 14, 18⟩
abbrev F.DRV_LGBMP_BITS (i : Nat) : FRef := ⟨R.DRV_LGBMP i, 0, 32⟩
abbrev F.CHK_CTL_IN_EN : FRef := ⟨R.CHK_CTL, 0, 1⟩
abbrev F.CHK_CTL_OUT_EN : FRef := ⟨R.CHK_CTL, 1, 1⟩
abbrev F.CHK_CTL_PAIR_EN : FRef := ⟨R.CHK_CTL, 2, 1⟩
abbrev F.CHK_CTL_PAIR_LIMIT : FRef := ⟨R.CHK_CTL, 8, 8⟩
abbrev F.CHK_CNT_IN_FAIL : FRef := ⟨R.CHK_CNT, 0, 16⟩
abbrev F.CHK_CNT_OUT_FAIL : FRef := ⟨R.CHK_CNT, 16, 16⟩
abbrev F.CHK_SKIP_IN_SKIP : FRef := ⟨R.CHK_SKIP, 0, 16⟩
abbrev F.CHK_SKIP_OUT_SKIP : FRef := ⟨R.CHK_SKIP, 16, 16⟩
abbrev F.CHK_ILAST_CRC (i : Nat) : FRef := ⟨R.CHK_ILAST i, 0, 32⟩
abbrev F.CHK_IEXP_CRC (i : Nat) : FRef := ⟨R.CHK_IEXP i, 0, 32⟩
abbrev F.CHK_OPOS_X (i : Nat) : FRef := ⟨R.CHK_OPOS i, 0, 13⟩
abbrev F.CHK_OPOS_Y (i : Nat) : FRef := ⟨R.CHK_OPOS i, 16, 12⟩
abbrev F.CHK_OSIZE_W (i : Nat) : FRef := ⟨R.CHK_OSIZE i, 0, 13⟩
abbrev F.CHK_OSIZE_H (i : Nat) : FRef := ⟨R.CHK_OSIZE i, 16, 12⟩
abbrev F.CHK_OCFG_EN (i : Nat) : FRef := ⟨R.CHK_OCFG i, 0, 1⟩
abbrev F.CHK_OCFG_SRC (i : Nat) : FRef := ⟨R.CHK_OCFG i, 1, 1⟩
abbrev F.CHK_OCFG_LINK (i : Nat) : FRef := ⟨R.CHK_OCFG i, 2, 1⟩
abbrev F.CHK_OCFG_GROUP (i : Nat) : FRef := ⟨R.CHK_OCFG i, 3, 5⟩
abbrev F.CHK_OCFG_BAD (i : Nat) : FRef := ⟨R.CHK_OCFG i, 8, 4⟩
abbrev F.CHK_OEXP_EXP (i : Nat) : FRef := ⟨R.CHK_OEXP i, 0, 32⟩
abbrev F.CHK_OLAST_CRC (i : Nat) : FRef := ⟨R.CHK_OLAST i, 0, 32⟩
abbrev F.CHK_PSTAT_ACTIVE : FRef := ⟨R.CHK_PSTAT, 0, 1⟩
abbrev F.CHK_PSTAT_DIVERGED : FRef := ⟨R.CHK_PSTAT, 1, 1⟩
abbrev F.CHK_PSTAT_RUN : FRef := ⟨R.CHK_PSTAT, 8, 8⟩
abbrev F.CHK_PSTAT_DIFFS : FRef := ⟨R.CHK_PSTAT, 16, 16⟩
abbrev F.CHK_PDIG_DIG (i : Nat) : FRef := ⟨R.CHK_PDIG i, 0, 32⟩
abbrev F.CHK_PPDIG_DIG (i : Nat) : FRef := ⟨R.CHK_PPDIG i, 0, 32⟩
abbrev F.RED_CFG_EN : FRef := ⟨R.RED_CFG, 0, 1⟩
abbrev F.RED_CFG_HOME : FRef := ⟨R.RED_CFG, 1, 1⟩
abbrev F.RED_CFG_REVERT_EN : FRef := ⟨R.RED_CFG, 2, 1⟩
abbrev F.RED_CFG_RED_SOLO : FRef := ⟨R.RED_CFG, 3, 1⟩
abbrev F.RED_CFG_MPORT : FRef := ⟨R.RED_CFG, 4, 4⟩
abbrev F.RED_TIMERS_WHISTLE_INT : FRef := ⟨R.RED_TIMERS, 0, 4⟩
abbrev F.RED_TIMERS_MIRROR_TIMEOUT : FRef := ⟨R.RED_TIMERS, 8, 10⟩
abbrev F.RED_TIMERS_LEASE_TIMEOUT : FRef := ⟨R.RED_TIMERS, 18, 10⟩
abbrev F.RED_REVERT_REVERT_HOLDOFF : FRef := ⟨R.RED_REVERT, 0, 12⟩
abbrev F.RED_CTL_RINGS_GO : FRef := ⟨R.RED_CTL, 0, 1⟩
abbrev F.RED_CTL_HANDOVER : FRef := ⟨R.RED_CTL, 1, 1⟩
abbrev F.RED_CTL_RESYNC : FRef := ⟨R.RED_CTL, 2, 1⟩
abbrev F.RED_STAT_ROLE : FRef := ⟨R.RED_STAT, 0, 2⟩
abbrev F.RED_STAT_MIRROR_UP : FRef := ⟨R.RED_STAT, 2, 1⟩
abbrev F.RED_STAT_SYNCED : FRef := ⟨R.RED_STAT, 3, 1⟩
abbrev F.RED_STAT_HEALTHY : FRef := ⟨R.RED_STAT, 4, 1⟩
abbrev F.RED_STAT_RINGS_STOPPED : FRef := ⟨R.RED_STAT, 5, 1⟩
abbrev F.RED_STAT_SOLO : FRef := ⟨R.RED_STAT, 6, 1⟩
abbrev F.RED_STAT_HELD_MASK : FRef := ⟨R.RED_STAT, 8, 8⟩
abbrev F.RED_STAT_HOLDOFF_LEFT : FRef := ⟨R.RED_STAT, 16, 12⟩
abbrev F.RED_MQ_S_USED : FRef := ⟨R.RED_MQ, 0, 6⟩
abbrev F.RED_MQ_U_USED : FRef := ⟨R.RED_MQ, 8, 5⟩
abbrev F.RED_MQ_RTX : FRef := ⟨R.RED_MQ, 16, 16⟩
abbrev F.RED_SEQCNT_FREE : FRef := ⟨R.RED_SEQCNT, 0, 16⟩
abbrev F.RED_SEQCNT_LATE_DOWN : FRef := ⟨R.RED_SEQCNT, 16, 16⟩
abbrev F.RED_REPOCH_EPOCH (i : Nat) : FRef := ⟨R.RED_REPOCH i, 0, 32⟩
abbrev F.RED_RSTAT_HELD (i : Nat) : FRef := ⟨R.RED_RSTAT i, 0, 1⟩
abbrev F.RED_RSTAT_RELAY_SEEN (i : Nat) : FRef := ⟨R.RED_RSTAT i, 1, 1⟩
abbrev F.RED_RSTAT_SILENT (i : Nat) : FRef := ⟨R.RED_RSTAT i, 2, 1⟩
abbrev F.RED_RSTAT_SEQ (i : Nat) : FRef := ⟨R.RED_RSTAT i, 16, 16⟩
abbrev F.RED_MREG_LO_BASE (i : Nat) : FRef := ⟨R.RED_MREG_LO i, 12, 20⟩
abbrev F.RED_MREG_HI_BASE_HI (i : Nat) : FRef := ⟨R.RED_MREG_HI i, 0, 2⟩
abbrev F.RED_MREG_SIZE_SIZE (i : Nat) : FRef := ⟨R.RED_MREG_SIZE i, 0, 20⟩
abbrev F.RED_MREG_SIZE_EN (i : Nat) : FRef := ⟨R.RED_MREG_SIZE i, 31, 1⟩
abbrev F.RED_MIDX_IDX (i : Nat) : FRef := ⟨R.RED_MIDX i, 0, 16⟩
abbrev F.RED_FOLLOW_EPOCH : FRef := ⟨R.RED_FOLLOW, 0, 32⟩
abbrev F.RED_FSTAT_VALID : FRef := ⟨R.RED_FSTAT, 0, 1⟩
abbrev F.RED_FSTAT_HOLDER_HOME : FRef := ⟨R.RED_FSTAT, 1, 1⟩
abbrev F.RED_FSTAT_CHANGES : FRef := ⟨R.RED_FSTAT, 16, 16⟩
abbrev F.HK_CTL_HK_ROUND : FRef := ⟨R.HK_CTL, 0, 7⟩
abbrev F.HK_CTL_HK_THR_STEP : FRef := ⟨R.HK_CTL, 8, 4⟩
abbrev F.HK_CTL_SUBST_MARGIN : FRef := ⟨R.HK_CTL, 12, 4⟩
abbrev F.HK_CTL_AUTO_RESTART : FRef := ⟨R.HK_CTL, 16, 1⟩
abbrev F.HK_CTL_RESTART_WAIT : FRef := ⟨R.HK_CTL, 17, 7⟩
abbrev F.HK_CTL_SUP_TOL : FRef := ⟨R.HK_CTL, 24, 4⟩
abbrev F.HK_CHEN_EN : FRef := ⟨R.HK_CHEN, 0, 32⟩
abbrev F.HK_STAT_THR : FRef := ⟨R.HK_STAT, 0, 5⟩
abbrev F.HK_STAT_DIE_LVL : FRef := ⟨R.HK_STAT, 5, 2⟩
abbrev F.HK_STAT_ZONE_LVL : FRef := ⟨R.HK_STAT, 7, 2⟩
abbrev F.HK_STAT_SUBST : FRef := ⟨R.HK_STAT, 9, 1⟩
abbrev F.HK_STAT_BLIND : FRef := ⟨R.HK_STAT, 10, 2⟩
abbrev F.HK_STAT_ROUNDS : FRef := ⟨R.HK_STAT, 16, 16⟩
abbrev F.HK_FAILED_FAILED : FRef := ⟨R.HK_FAILED, 0, 13⟩
abbrev F.HK_LIM_DIE_WARN : FRef := ⟨R.HK_LIM_DIE, 0, 8⟩
abbrev F.HK_LIM_DIE_THROT : FRef := ⟨R.HK_LIM_DIE, 8, 8⟩
abbrev F.HK_LIM_DIE_SD : FRef := ⟨R.HK_LIM_DIE, 16, 8⟩
abbrev F.HK_LIM_DIE_HYST : FRef := ⟨R.HK_LIM_DIE, 24, 4⟩
abbrev F.HK_LIM_ZONE_WARN : FRef := ⟨R.HK_LIM_ZONE, 0, 8⟩
abbrev F.HK_LIM_ZONE_THROT : FRef := ⟨R.HK_LIM_ZONE, 8, 8⟩
abbrev F.HK_LIM_ZONE_SD : FRef := ⟨R.HK_LIM_ZONE, 16, 8⟩
abbrev F.HK_LIM_ZONE_HYST : FRef := ⟨R.HK_LIM_ZONE, 24, 4⟩
abbrev F.HK_FAIL_FAIL_LO : FRef := ⟨R.HK_FAIL, 0, 12⟩
abbrev F.HK_FAIL_FAIL_HI : FRef := ⟨R.HK_FAIL, 16, 12⟩
abbrev F.HK_SDCNT_COUNT : FRef := ⟨R.HK_SDCNT, 0, 8⟩
abbrev F.HK_NTC_TEMP (i : Nat) : FRef := ⟨R.HK_NTC i, 0, 16⟩
abbrev F.HK_VAL_VALUE (i : Nat) : FRef := ⟨R.HK_VAL i, 0, 16⟩
abbrev F.HK_VAL_VALID (i : Nat) : FRef := ⟨R.HK_VAL i, 16, 1⟩
abbrev F.HK_VAL_FAILED (i : Nat) : FRef := ⟨R.HK_VAL i, 17, 1⟩
abbrev F.HK_VAL_SUBST (i : Nat) : FRef := ⟨R.HK_VAL i, 18, 1⟩
abbrev F.HK_VAL_UNTRACED (i : Nat) : FRef := ⟨R.HK_VAL i, 19, 1⟩
abbrev F.HK_PD_LIT (i : Nat) : FRef := ⟨R.HK_PD i, 0, 12⟩
abbrev F.HK_PD_UNTRACED (i : Nat) : FRef := ⟨R.HK_PD i, 15, 1⟩
abbrev F.HK_PD_DARK (i : Nat) : FRef := ⟨R.HK_PD i, 16, 12⟩
abbrev F.UPD_CTL_SESS_TIMEOUT : FRef := ⟨R.UPD_CTL, 0, 8⟩
abbrev F.UPD_STAT_RUNNING : FRef := ⟨R.UPD_STAT, 0, 2⟩
abbrev F.UPD_STAT_LOADED : FRef := ⟨R.UPD_STAT, 2, 1⟩
abbrev F.UPD_STAT_LIVE_AREA : FRef := ⟨R.UPD_STAT, 3, 1⟩
abbrev F.UPD_STAT_SESS : FRef := ⟨R.UPD_STAT, 4, 2⟩
abbrev F.UPD_STAT_RESTART_PEND : FRef := ⟨R.UPD_STAT, 6, 1⟩
abbrev F.UPD_STAT_ACT_UNSAVED : FRef := ⟨R.UPD_STAT, 7, 1⟩
abbrev F.UPD_STAT_SVC_PRESENT : FRef := ⟨R.UPD_STAT, 8, 1⟩
abbrev F.UPD_STAT_STAGED : FRef := ⟨R.UPD_STAT, 9, 2⟩
abbrev F.UPD_GEN_GEN : FRef := ⟨R.UPD_GEN, 0, 32⟩
abbrev F.UPD_MFID_MFID : FRef := ⟨R.UPD_MFID, 0, 32⟩
abbrev F.UPD_MFID_PREV_MFID : FRef := ⟨R.UPD_MFID_PREV, 0, 32⟩
abbrev F.UPD_SLOTA_VERIFIED : FRef := ⟨R.UPD_SLOTA, 0, 1⟩
abbrev F.UPD_SLOTA_SELECTABLE : FRef := ⟨R.UPD_SLOTA, 1, 1⟩
abbrev F.UPD_SLOTA_USED : FRef := ⟨R.UPD_SLOTA, 2, 6⟩
abbrev F.UPD_SLOTB_VERIFIED : FRef := ⟨R.UPD_SLOTB, 0, 1⟩
abbrev F.UPD_SLOTB_SELECTABLE : FRef := ⟨R.UPD_SLOTB, 1, 1⟩
abbrev F.UPD_SLOTB_USED : FRef := ⟨R.UPD_SLOTB, 2, 6⟩
abbrev F.UPD_VERA_VERSION : FRef := ⟨R.UPD_VERA, 0, 32⟩
abbrev F.UPD_VERB_VERSION : FRef := ⟨R.UPD_VERB, 0, 32⟩
abbrev F.UPD_ACT_GO : FRef := ⟨R.UPD_ACT, 0, 1⟩
abbrev F.UPD_ACT_SLOT : FRef := ⟨R.UPD_ACT, 1, 1⟩
abbrev F.UPD_AREA0_BASE : FRef := ⟨R.UPD_AREA0, 12, 20⟩
abbrev F.UPD_AREA1_BASE : FRef := ⟨R.UPD_AREA1, 12, 20⟩
abbrev F.UPD_FLASH_SFDP_BAD : FRef := ⟨R.UPD_FLASH, 0, 1⟩
abbrev F.UPD_FLASH_MHZ : FRef := ⟨R.UPD_FLASH, 8, 8⟩
abbrev F.UPD_FLASH_SIZE : FRef := ⟨R.UPD_FLASH, 16, 16⟩
abbrev F.UPD_LOADT_TIME : FRef := ⟨R.UPD_LOADT, 0, 16⟩
abbrev F.UPD_LOADT_FAILSTEP : FRef := ⟨R.UPD_LOADT, 16, 3⟩
abbrev F.OBS_TCTL_EN : FRef := ⟨R.OBS_TCTL, 0, 1⟩
abbrev F.OBS_TCTL_MODE : FRef := ⟨R.OBS_TCTL, 1, 1⟩
abbrev F.OBS_TCTL_CLEAR : FRef := ⟨R.OBS_TCTL, 2, 1⟩
abbrev F.OBS_TCTL_CLASS : FRef := ⟨R.OBS_TCTL, 3, 5⟩
abbrev F.OBS_TEVT_LO : FRef := ⟨R.OBS_TEVT, 0, 9⟩
abbrev F.OBS_TEVT_HI : FRef := ⟨R.OBS_TEVT, 16, 9⟩
abbrev F.OBS_TSTAT_WPTR : FRef := ⟨R.OBS_TSTAT, 0, 12⟩
abbrev F.OBS_TSTAT_WRAPPED : FRef := ⟨R.OBS_TSTAT, 12, 1⟩
abbrev F.OBS_TSTAT_FULL : FRef := ⟨R.OBS_TSTAT, 13, 1⟩
abbrev F.OBS_TSTAT_LOST : FRef := ⟨R.OBS_TSTAT, 16, 16⟩
abbrev F.OBS_TPAGE_PAGE : FRef := ⟨R.OBS_TPAGE, 0, 2⟩
abbrev F.OBS_CCTL_CLR : FRef := ⟨R.OBS_CCTL, 0, 1⟩
abbrev F.OBS_CSEL_SRC (i : Nat) : FRef := ⟨R.OBS_CSEL i, 0, 9⟩
abbrev F.OBS_CSEL_EN (i : Nat) : FRef := ⟨R.OBS_CSEL i, 15, 1⟩
abbrev F.OBS_CNT_LO_CNT (i : Nat) : FRef := ⟨R.OBS_CNT_LO i, 0, 32⟩
abbrev F.OBS_CNT_HI_CNT (i : Nat) : FRef := ⟨R.OBS_CNT_HI i, 0, 16⟩

end Sys2Proof.Machine
end

