-- ==== Sys2Proof/Machine/RegTable.lean ====
section
/-! DEFINITION. Machine/RegTable.lean: the register tables of the chapters of spec/, block by block in the order of R417.
Each row: base address, repeated groups (count, stride), fields ⟨lowest bit, width, access, apply, reset, limits, kept by
WRST_N⟩. A reset value that depends on the role, the index or the image stands in Machine/Regs.lean (`resetWord`). -/
namespace Sys2Proof.Machine

def sysRegs0 : List RegSpec := [
  ⟨0, [], [⟨0, 16, .ro, .l, 0x9610, none, false⟩, ⟨16, 4, .ro, .l, 2, none, false⟩, ⟨20, 4, .ro, .l, 1, none, false⟩]⟩,
  ⟨8, [], [⟨0, 32, .ro, .l, 0, none, false⟩]⟩,
  ⟨0xc, [], [⟨0, 32, .ro, .l, 0, none, false⟩]⟩,
  ⟨0x10, [], [⟨0, 2, .ro, .l, 0, none, false⟩, ⟨2, 2, .ro, .l, 0, none, false⟩, ⟨4, 1, .ro, .l, 0, none, false⟩, ⟨5, 1, .ro, .l, 0, none, false⟩, ⟨6, 4, .ro, .l, 0, none, false⟩]⟩,
  ⟨0x20, [], [⟨0, 3, .rw, .l, 2, none, false⟩]⟩,
  ⟨0x24, [], [⟨0, 3, .ro, .l, 0, none, false⟩, ⟨3, 1, .ro, .l, 0, none, false⟩, ⟨4, 1, .ro, .l, 0, none, false⟩, ⟨5, 3, .ro, .l, 0, none, false⟩, ⟨8, 4, .ro, .l, 0, none, false⟩, ⟨12, 4, .ro, .l, 0, none, false⟩]⟩,
  ⟨0x40, [], [⟨0, 1, .wo, .l, 0, none, false⟩]⟩,
  ⟨0x44, [], [⟨0, 1, .ro, .l, 0, none, false⟩, ⟨1, 1, .ro, .l, 0, none, false⟩, ⟨2, 1, .w1c, .l, 0, none, false⟩, ⟨16, 16, .rc, .l, 0, none, false⟩]⟩]

/-- The registers of block 00h of R417, in address order: SYS_ID, SYS_UID_LO, SYS_UID_HI, SYS_STRAP, SYS_MODE, SYS_MSTAT, SYS_COMMIT, SYS_CSTAT. -/
def sysRegs : List RegSpec := sysRegs0

def ckgRegs0 : List RegSpec := [
  ⟨0x10000, [], [⟨0, 3, .rw, .l, 7, none, false⟩, ⟨3, 1, .rw, .l, 1, none, false⟩, ⟨4, 2, .rw, .l, 0, none, false⟩, ⟨6, 1, .rw, .l, 0, none, false⟩, ⟨8, 8, .rw, .l, 0xa, none, false⟩]⟩,
  ⟨0x10004, [], [⟨0, 1, .ro, .l, 0, none, false⟩, ⟨1, 1, .ro, .l, 0, none, false⟩, ⟨2, 1, .ro, .l, 0, none, false⟩, ⟨3, 4, .ro, .l, 0, none, false⟩, ⟨8, 2, .ro, .l, 0, none, false⟩, ⟨10, 1, .ro, .l, 0, none, false⟩, ⟨12, 2, .ro, .l, 3, none, false⟩, ⟨14, 1, .ro, .l, 0, none, false⟩]⟩,
  ⟨0x10008, [], [⟨0, 10, .ro, .l, 0, none, true⟩, ⟨10, 2, .ro, .l, 0, none, true⟩, ⟨12, 1, .ro, .l, 0, none, true⟩, ⟨16, 16, .ro, .l, 0, none, true⟩]⟩,
  ⟨0x1000c, [], [⟨0, 24, .ro, .l, 0x100000, none, true⟩]⟩,
  ⟨0x10010, [], [⟨0, 8, .rc, .l, 0, none, false⟩, ⟨8, 8, .rc, .l, 0, none, false⟩]⟩,
  ⟨0x10100, [], [⟨0, 16, .rw, .l, 0xffff, none, false⟩]⟩,
  ⟨0x10104, [], [⟨0, 16, .rw, .l, 0xf039, none, false⟩]⟩,
  ⟨0x10108, [], [⟨0, 16, .rw, .l, 0xffff, none, false⟩]⟩,
  ⟨0x1010c, [], [⟨0, 8, .rw, .l, 0x14, none, false⟩, ⟨16, 16, .rc, .l, 0, none, false⟩]⟩,
  ⟨0x10110, [], [⟨0, 4, .rw, .l, 6, some (3, 12), false⟩, ⟨4, 4, .rw, .l, 7, none, false⟩, ⟨8, 1, .rw, .l, 1, none, false⟩, ⟨16, 16, .rc, .l, 0, none, false⟩]⟩,
  ⟨0x10114, [], [⟨0, 1, .rw, .l, 1, none, false⟩, ⟨1, 1, .rw, .l, 1, none, false⟩, ⟨2, 4, .rw, .l, 0, none, false⟩, ⟨6, 1, .rw, .l, 0, none, false⟩, ⟨8, 3, .ro, .l, 0, none, false⟩]⟩,
  ⟨0x10118, [], [⟨0, 24, .rw, .l, 0, none, false⟩]⟩]

/-- The registers of block 01h of R417, in address order: CKG_CTL, CKG_STAT, CKG_TRIM, CKG_LPO, CKG_MON, PWR_RUN_EN, PWR_SLP_EN, PWR_DSLP_EN, PWR_GATE, PWR_DROOP, PWR_WAKE, PWR_TIMER. -/
def ckgRegs : List RegSpec := ckgRegs0

def evcRegs0 : List RegSpec := [
  ⟨0x20000, [], [⟨0, 1, .rw, .l, 1, none, false⟩]⟩,
  ⟨0x20004, [], [⟨0, 9, .ro, .l, 0, none, false⟩, ⟨16, 16, .rc, .l, 0, none, false⟩]⟩,
  ⟨0x20100, [(4, 0x40)], [⟨0, 32, .rw, .q, 0, none, false⟩]⟩,
  ⟨0x20104, [(4, 0x40)], [⟨0, 32, .rw, .q, 0, none, false⟩]⟩,
  ⟨0x20108, [(4, 0x40)], [⟨0, 1, .rw, .l, 0, none, false⟩, ⟨1, 4, .rw, .q, 8, some (6, 12), false⟩, ⟨5, 1, .rw, .l, 0, none, false⟩, ⟨6, 2, .rw, .l, 0, none, false⟩]⟩,
  ⟨0x2010c, [(4, 0x40)], [⟨0, 12, .ro, .l, 0, none, false⟩, ⟨12, 1, .ro, .l, 1, none, false⟩]⟩,
  ⟨0x20110, [(4, 0x40)], [⟨0, 12, .rw, .l, 0, none, false⟩, ⟨12, 1, .wo, .l, 0, none, false⟩]⟩,
  ⟨0x20114, [(4, 0x40)], [⟨0, 1, .wo, .l, 0, none, false⟩]⟩,
  ⟨0x20118, [(4, 0x40)], [⟨0, 3, .ro, .l, 0, none, false⟩, ⟨3, 1, .ro, .l, 1, none, false⟩, ⟨4, 4, .ro, .l, 0, none, false⟩, ⟨8, 1, .ro, .l, 0, none, false⟩, ⟨9, 1, .ro, .l, 0, none, false⟩]⟩,
  ⟨0x20120, [(4, 0x40), (8, 4)], [⟨0, 9, .ro, .l, 0, none, false⟩, ⟨9, 3, .ro, .l, 0, none, false⟩, ⟨12, 1, .ro, .l, 0, none, false⟩, ⟨31, 1, .ro, .l, 0, none, false⟩]⟩,
  ⟨0x21000, [(512, 4)], [⟨0, 3, .rw, .l, 2, none, false⟩, ⟨4, 2, .rw, .l, 0, none, false⟩, ⟨8, 1, .rw, .l, 1, none, false⟩, ⟨12, 3, .ro, .l, 0, none, false⟩, ⟨15, 1, .ro, .l, 0, none, false⟩, ⟨24, 8, .ro, .l, 0, none, false⟩]⟩,
  ⟨0x21800, [(512, 4)], [⟨4, 2, .rw, .l, 0, none, false⟩, ⟨8, 1, .rw, .l, 1, none, false⟩]⟩]

/-- The registers of block 02h of R417, in address order: EVC_CTL, EVC_STAT, EVC_TBASE_LO, EVC_TBASE_HI, EVC_TCTL, EVC_TPROD, EVC_TCONS, EVC_TEOI, EVC_TRP, EVC_TSTK, EVC_SRC, EVC_RSRC. -/
def evcRegs : List RegSpec := evcRegs0

def hifRegs0 : List RegSpec := [
  ⟨0x30000, [], [⟨0, 8, .rw, .l, 0x14, none, false⟩, ⟨8, 8, .rw, .l, 0x10, none, false⟩]⟩,
  ⟨0x30004, [], [⟨0, 1, .ro, .l, 0, none, false⟩, ⟨1, 2, .ro, .l, 0, none, false⟩, ⟨3, 2, .ro, .l, 0, none, false⟩, ⟨5, 1, .ro, .l, 0, none, false⟩, ⟨6, 1, .ro, .l, 0, none, false⟩, ⟨8, 7, .ro, .l, 0, none, false⟩]⟩,
  ⟨0x30008, [], [⟨0, 6, .rw, .l, 0, none, false⟩]⟩,
  ⟨0x3000c, [], [⟨0, 16, .rc, .l, 0, none, false⟩, ⟨16, 16, .rc, .l, 0, none, false⟩]⟩,
  ⟨0x30010, [], [⟨0, 16, .rc, .l, 0, none, false⟩, ⟨16, 16, .rc, .l, 0, none, false⟩]⟩,
  ⟨0x30100, [(16, 0x40)], [⟨0, 32, .rw, .q, 0, none, false⟩]⟩,
  ⟨0x30104, [(16, 0x40)], [⟨0, 32, .rw, .q, 0, none, false⟩]⟩,
  ⟨0x30108, [(16, 0x40)], [⟨0, 1, .rw, .l, 0, none, false⟩, ⟨1, 4, .rw, .q, 8, some (6, 12), false⟩]⟩,
  ⟨0x3010c, [(16, 0x40)], [⟨0, 12, .rw, .l, 0, none, false⟩]⟩,
  ⟨0x30110, [(16, 0x40)], [⟨0, 12, .rw, .q, 0, none, false⟩]⟩,
  ⟨0x30114, [(16, 0x40)], [⟨0, 1, .ro, .l, 0, none, false⟩, ⟨1, 1, .ro, .l, 0, none, false⟩, ⟨2, 1, .ro, .l, 0, none, false⟩, ⟨8, 13, .ro, .l, 0, none, false⟩]⟩,
  ⟨0x30118, [(16, 0x40)], [⟨0, 32, .rw, .q, 0, none, false⟩]⟩]

def hifRegs1 : List RegSpec := [
  ⟨0x3011c, [(16, 0x40)], [⟨0, 32, .rw, .q, 0, none, false⟩]⟩,
  ⟨0x30120, [(16, 0x40)], [⟨0, 1, .rw, .l, 0, none, false⟩, ⟨1, 4, .rw, .q, 8, some (6, 12), false⟩]⟩,
  ⟨0x30124, [(16, 0x40)], [⟨0, 12, .ro, .l, 0, none, false⟩, ⟨12, 1, .ro, .l, 1, none, false⟩]⟩,
  ⟨0x30128, [(16, 0x40)], [⟨0, 12, .rw, .l, 0, none, false⟩]⟩]

/-- The registers of block 03h of R417, in address order: HIF_CTL, HIF_STAT, HIF_BAR2, HIF_CNT, HIF_CNT2, HIF_CR_BASE_LO, HIF_CR_BASE_HI, HIF_CR_CTL, HIF_DB, HIF_CR_CONS, HIF_CR_STAT, HIF_CP_BASE_LO, HIF_CP_BASE_HI, HIF_CP_CTL, HIF_CP_PROD, HIF_CP_CONS. -/
def hifRegs : List RegSpec := hifRegs0 ++ hifRegs1

def mcRegs0 : List RegSpec := [
  ⟨0x40000, [(2, 0x8000)], [⟨0, 1, .rw, .l, 0, none, false⟩, ⟨1, 1, .rw, .l, 1, none, false⟩, ⟨2, 1, .rw, .l, 1, none, false⟩, ⟨3, 1, .rw, .q, 0, none, false⟩, ⟨4, 1, .rw, .q, 1, none, false⟩, ⟨5, 1, .rw, .q, 0, none, false⟩, ⟨8, 8, .rw, .l, 4, none, false⟩]⟩,
  ⟨0x40004, [(2, 0x8000)], [⟨0, 1, .rw, .q, 1, none, false⟩, ⟨1, 1, .rw, .q, 0, none, false⟩, ⟨2, 3, .rw, .q, 3, none, false⟩, ⟨5, 1, .rw, .q, 0, none, false⟩]⟩,
  ⟨0x40008, [(2, 0x8000)], [⟨0, 4, .rw, .l, 0, none, false⟩, ⟨4, 4, .rw, .l, 0, none, false⟩, ⟨8, 8, .rw, .l, 0, none, false⟩]⟩,
  ⟨0x4000c, [(2, 0x8000)], [⟨0, 8, .ro, .l, 0, none, false⟩, ⟨8, 8, .ro, .l, 0, none, false⟩, ⟨16, 8, .ro, .l, 0, none, false⟩, ⟨24, 8, .ro, .l, 0, none, false⟩]⟩,
  ⟨0x40010, [(2, 0x8000)], [⟨0, 16, .ro, .l, 0, none, false⟩, ⟨16, 11, .ro, .l, 0, none, false⟩]⟩,
  ⟨0x40014, [(2, 0x8000)], [⟨0, 7, .rw, .l, 0x30, some (8, 64), false⟩, ⟨8, 7, .rw, .l, 0x10, none, false⟩, ⟨16, 12, .rw, .l, 0xc8, some (10, 4095), false⟩]⟩,
  ⟨0x40018, [(2, 0x8000)], [⟨0, 16, .rw, .l, 0x64, none, false⟩]⟩,
  ⟨0x4001c, [(2, 0x8000)], [⟨0, 8, .rw, .l, 0x55, some (60, 95), false⟩, ⟨8, 4, .rw, .l, 3, none, false⟩, ⟨12, 1, .ro, .l, 0, none, false⟩, ⟨13, 4, .ro, .l, 0, none, false⟩, ⟨17, 1, .ro, .l, 0, none, false⟩]⟩,
  ⟨0x40020, [(2, 0x8000)], [⟨0, 10, .rw, .l, 0x64, none, false⟩, ⟨10, 4, .rw, .l, 4, none, false⟩, ⟨14, 6, .rw, .l, 0xc, none, false⟩]⟩,
  ⟨0x40024, [(2, 0x8000)], [⟨0, 3, .rw, .l, 3, none, false⟩, ⟨3, 1, .wo, .l, 0, none, false⟩, ⟨4, 1, .ro, .l, 0, none, false⟩, ⟨5, 1, .ro, .l, 0, none, false⟩]⟩,
  ⟨0x40028, [(2, 0x8000)], [⟨0, 3, .ro, .l, 0, none, false⟩, ⟨4, 3, .ro, .l, 0, none, false⟩, ⟨8, 3, .ro, .l, 0, none, false⟩, ⟨12, 13, .ro, .l, 0, none, false⟩]⟩,
  ⟨0x4002c, [(2, 0x8000)], [⟨0, 16, .rc, .l, 0, none, false⟩, ⟨16, 16, .rc, .l, 0, none, false⟩]⟩]

def mcRegs1 : List RegSpec := [
  ⟨0x40030, [(2, 0x8000)], [⟨0, 1, .w1c, .l, 0, none, false⟩, ⟨1, 3, .ro, .l, 0, none, false⟩, ⟨6, 26, .ro, .l, 0, none, false⟩]⟩,
  ⟨0x40034, [(2, 0x8000)], [⟨0, 16, .rc, .l, 0, none, false⟩, ⟨16, 4, .rw, .l, 3, none, false⟩]⟩,
  ⟨0x40038, [(2, 0x8000)], [⟨0, 6, .ro, .l, 0, none, false⟩, ⟨6, 1, .ro, .l, 0, none, false⟩, ⟨8, 8, .ro, .l, 0, none, false⟩, ⟨16, 8, .ro, .l, 0, none, false⟩, ⟨24, 8, .rc, .l, 0, none, false⟩]⟩]

/-- The registers of block 04h of R417, in address order: MC_CTL, MC_DEV, MC_TADJ, MC_TIM0, MC_TIM1, MC_QOS, MC_PWR, MC_REF, MC_RECAL, MC_FREQ, MC_STAT, MC_ECC, MC_UEADDR, MC_CAPAR, MC_TRAIN. -/
def mcRegs : List RegSpec := mcRegs0 ++ mcRegs1

def laneRegs0 : List RegSpec := [
  ⟨0x50000, [(16, 0x1000)], [⟨0, 1, .rw, .l, 0, none, false⟩, ⟨1, 1, .rw, .q, 1, none, false⟩, ⟨2, 1, .rw, .q, 0, none, false⟩, ⟨3, 1, .rw, .q, 0, none, false⟩, ⟨4, 2, .rw, .q, 0, none, false⟩]⟩,
  ⟨0x50004, [(16, 0x1000)], [⟨0, 1, .ro, .l, 0, none, false⟩, ⟨1, 1, .ro, .l, 0, none, false⟩, ⟨2, 1, .ro, .l, 0, none, false⟩, ⟨3, 1, .ro, .l, 0, none, false⟩, ⟨4, 1, .ro, .l, 0, none, false⟩, ⟨5, 1, .ro, .l, 0, none, false⟩]⟩,
  ⟨0x50008, [(16, 0x1000)], [⟨0, 32, .rc, .l, 0, none, false⟩]⟩,
  ⟨0x5000c, [(16, 0x1000)], [⟨0, 8, .rw, .l, 0xa, none, false⟩, ⟨8, 1, .rw, .l, 0, none, false⟩, ⟨16, 16, .rw, .l, 0x10, none, false⟩]⟩,
  ⟨0x50010, [(16, 0x1000)], [⟨0, 4, .rw, .q, 2, none, false⟩, ⟨4, 6, .rw, .q, 0x30, none, false⟩, ⟨10, 4, .rw, .q, 4, none, false⟩]⟩]

/-- The registers of block 05h of R417, in address order: LANE_CTL, LANE_STAT, LANE_SHERR, LANE_QUAL, LANE_TXEQ. -/
def laneRegs : List RegSpec := laneRegs0

def clRegs0 : List RegSpec := [
  ⟨0x60000, [], [⟨0, 5, .rw, .l, 4, none, false⟩, ⟨8, 7, .rw, .l, 5, none, false⟩, ⟨16, 9, .rw, .l, 0x14, none, false⟩, ⟨25, 7, .rw, .l, 5, none, false⟩]⟩,
  ⟨0x60004, [], [⟨0, 1, .ro, .l, 0, none, false⟩, ⟨1, 1, .rw, .l, 0, none, false⟩]⟩,
  ⟨0x60008, [], [⟨0, 2, .ro, .l, 0, none, false⟩]⟩,
  ⟨0x60100, [(12, 0x40)], [⟨0, 1, .rw, .l, 0, none, false⟩, ⟨1, 3, .rw, .q, 0, none, false⟩, ⟨4, 1, .rw, .q, 0, none, false⟩, ⟨5, 1, .rw, .q, 0, none, false⟩, ⟨8, 3, .rw, .q, 0, none, false⟩, ⟨12, 4, .rw, .q, 0, none, false⟩, ⟨16, 4, .rw, .q, 0, none, false⟩]⟩,
  ⟨0x60104, [(12, 0x40)], [⟨0, 3, .ro, .l, 0, none, false⟩, ⟨3, 2, .ro, .l, 0, none, false⟩, ⟨5, 1, .ro, .l, 0, none, false⟩, ⟨6, 6, .ro, .l, 0x3f, none, false⟩, ⟨12, 2, .ro, .l, 0, none, false⟩]⟩,
  ⟨0x60108, [(12, 0x40)], [⟨0, 32, .ro, .l, 0, none, false⟩]⟩,
  ⟨0x6010c, [(12, 0x40)], [⟨0, 32, .ro, .l, 0, none, false⟩]⟩,
  ⟨0x60110, [(12, 0x40)], [⟨0, 32, .ro, .l, 0, none, false⟩]⟩,
  ⟨0x60114, [(12, 0x40)], [⟨0, 32, .rw, .s, 0, none, false⟩]⟩,
  ⟨0x60118, [(12, 0x40)], [⟨0, 32, .ro, .l, 0, none, false⟩]⟩,
  ⟨0x6011c, [(12, 0x40)], [⟨0, 16, .rc, .l, 0, none, false⟩, ⟨16, 16, .rc, .l, 0, none, false⟩]⟩,
  ⟨0x60120, [(12, 0x40)], [⟨0, 16, .rc, .l, 0, none, false⟩]⟩]

def clRegs1 : List RegSpec := [
  ⟨0x60400, [], [⟨0, 6, .rw, .s, 8, some (4, 32), false⟩, ⟨8, 6, .rw, .l, 4, none, false⟩]⟩,
  ⟨0x60404, [], [⟨0, 10, .rw, .l, 0xc8, some (10, 1000), false⟩]⟩,
  ⟨0x60408, [], [⟨0, 8, .rw, .l, 1, none, false⟩]⟩,
  ⟨0x6040c, [], [⟨0, 7, .ro, .l, 0, none, false⟩, ⟨8, 7, .rc, .l, 0, none, false⟩, ⟨16, 16, .rc, .l, 0, none, false⟩]⟩,
  ⟨0x60410, [], [⟨0, 6, .ro, .l, 0x3f, none, false⟩, ⟨6, 1, .ro, .l, 0, none, false⟩, ⟨7, 1, .ro, .l, 0, none, false⟩]⟩,
  ⟨0x60414, [], [⟨0, 32, .ro, .l, 0, none, false⟩]⟩,
  ⟨0x60418, [], [⟨0, 16, .rc, .l, 0, none, false⟩, ⟨16, 16, .rc, .l, 0, none, false⟩]⟩,
  ⟨0x6041c, [], [⟨0, 16, .rc, .l, 0, none, false⟩, ⟨16, 16, .rc, .l, 0, none, false⟩]⟩,
  ⟨0x60420, [], [⟨0, 16, .rc, .l, 0, none, false⟩, ⟨16, 16, .rc, .l, 0, none, false⟩]⟩,
  ⟨0x60424, [], [⟨0, 16, .rc, .l, 0, none, false⟩, ⟨16, 16, .rc, .l, 0, none, false⟩]⟩,
  ⟨0x60800, [], [⟨0, 32, .ro, .l, 0, none, false⟩]⟩,
  ⟨0x60804, [], [⟨0, 1, .ro, .l, 0, none, false⟩, ⟨1, 1, .ro, .l, 0, none, false⟩]⟩]

def clRegs2 : List RegSpec := [
  ⟨0x60808, [(62, 8)], [⟨0, 32, .ro, .l, 0, none, false⟩]⟩,
  ⟨0x6080c, [(62, 8)], [⟨0, 32, .ro, .l, 0, none, false⟩]⟩,
  ⟨0x61000, [(8, 0x200)], [⟨0, 32, .ro, .l, 0, none, false⟩]⟩,
  ⟨0x61004, [(8, 0x200)], [⟨0, 1, .rw, .l, 0, none, false⟩, ⟨1, 1, .ro, .l, 0, none, false⟩]⟩,
  ⟨0x61008, [(8, 0x200), (62, 8)], [⟨0, 32, .rw, .l, 0, none, false⟩]⟩,
  ⟨0x6100c, [(8, 0x200), (62, 8)], [⟨0, 32, .rw, .l, 0, none, false⟩]⟩]

/-- The registers of block 06h of R417, in address order: CL_TIMERS, CL_BYP, CL_CLKSRC, CL_PCFG, CL_PSTAT, CL_PUID_LO, CL_PUID_HI, CL_PDELAY, CL_PASYM, CL_PRES, CL_PFAULT, CL_PDOWN, CL_SLOT, CL_ORDER, CL_ECHO, CL_OUTQ, CL_MYPOS, CL_MYROUTE, CL_MERGE, CL_PKTERR, CL_SEGSTAT, CL_DROP, CL_FRTAB_PREFIX, CL_FRTAB_FLAGS, CL_FRTAB_UID_LO, CL_FRTAB_UID_HI, CL_RTAB_PREFIX, CL_RTAB_FLAGS, CL_RTAB_UID_LO, CL_RTAB_UID_HI. -/
def clRegs : List RegSpec := clRegs0 ++ clRegs1 ++ clRegs2

def wtRegs0 : List RegSpec := [
  ⟨0x70000, [], [⟨0, 2, .rw, .q, 0, none, false⟩, ⟨2, 1, .wo, .l, 0, none, false⟩, ⟨3, 1, .wo, .l, 0, none, false⟩]⟩,
  ⟨0x70004, [], [⟨0, 32, .rw, .l, 0x40000000, none, false⟩]⟩,
  ⟨0x70008, [], [⟨0, 10, .rw, .l, 0x64, some (1, 1000), false⟩]⟩,
  ⟨0x7000c, [], [⟨0, 6, .rw, .l, 4, none, false⟩]⟩,
  ⟨0x70010, [], [⟨0, 32, .wo, .q, 0, none, false⟩]⟩,
  ⟨0x70014, [], [⟨0, 32, .wo, .q, 0, none, false⟩]⟩,
  ⟨0x70018, [], [⟨0, 32, .ro, .l, 0, none, false⟩]⟩,
  ⟨0x7001c, [], [⟨0, 32, .ro, .l, 0, none, false⟩]⟩,
  ⟨0x70020, [], [⟨0, 1, .ro, .l, 0, none, false⟩, ⟨1, 1, .ro, .l, 0, none, false⟩]⟩,
  ⟨0x70040, [(4, 4)], [⟨0, 16, .rw, .l, 0, none, false⟩, ⟨16, 16, .rw, .l, 0, none, false⟩]⟩,
  ⟨0x70060, [], [⟨0, 2, .rw, .l, 0, none, false⟩, ⟨2, 6, .rw, .l, 0, none, false⟩, ⟨8, 2, .rw, .l, 0, none, false⟩, ⟨10, 6, .rw, .l, 0, none, false⟩, ⟨16, 2, .rw, .l, 0, none, false⟩, ⟨18, 6, .rw, .l, 0, none, false⟩, ⟨24, 2, .rw, .l, 0, none, false⟩, ⟨26, 6, .rw, .l, 0, none, false⟩]⟩,
  ⟨0x70080, [(4, 8)], [⟨0, 32, .ro, .l, 0, none, false⟩]⟩]

def wtRegs1 : List RegSpec := [
  ⟨0x70084, [(4, 8)], [⟨0, 32, .ro, .l, 0, none, false⟩]⟩,
  ⟨0x700a0, [], [⟨0, 8, .rc, .l, 0, none, false⟩, ⟨8, 8, .rc, .l, 0, none, false⟩, ⟨16, 8, .rc, .l, 0, none, false⟩, ⟨24, 8, .rc, .l, 0, none, false⟩]⟩,
  ⟨0x70100, [(8, 0x20)], [⟨0, 1, .rw, .l, 0, none, false⟩, ⟨8, 8, .rw, .s, 0x24, none, false⟩, ⟨16, 8, .rw, .s, 0x28, some (10, 160), false⟩]⟩,
  ⟨0x70104, [(8, 0x20)], [⟨0, 32, .ro, .l, 0, none, false⟩]⟩,
  ⟨0x70108, [(8, 0x20)], [⟨0, 16, .ro, .l, 0, none, false⟩]⟩,
  ⟨0x7010c, [(8, 0x20)], [⟨0, 32, .ro, .l, 0, none, false⟩]⟩,
  ⟨0x70110, [(8, 0x20)], [⟨0, 32, .ro, .l, 0, none, false⟩]⟩,
  ⟨0x70200, [], [⟨0, 12, .rw, .l, 0x78, none, false⟩, ⟨16, 16, .rw, .l, 0x64, none, false⟩]⟩,
  ⟨0x70204, [], [⟨0, 2, .ro, .l, 0, none, false⟩, ⟨2, 2, .ro, .l, 0, none, false⟩, ⟨4, 3, .ro, .l, 0, none, false⟩, ⟨7, 1, .ro, .l, 0, none, false⟩, ⟨8, 1, .ro, .l, 0, none, false⟩, ⟨12, 12, .ro, .l, 0, none, false⟩]⟩,
  ⟨0x70208, [], [⟨0, 8, .ro, .l, 0, none, false⟩, ⟨8, 8, .ro, .l, 0, none, false⟩]⟩,
  ⟨0x7020c, [], [⟨0, 32, .ro, .l, 0, none, false⟩]⟩,
  ⟨0x70210, [], [⟨0, 16, .ro, .l, 0, none, false⟩]⟩]

def wtRegs2 : List RegSpec := [
  ⟨0x70214, [], [⟨0, 32, .ro, .l, 0, none, false⟩]⟩,
  ⟨0x70218, [], [⟨0, 32, .ro, .l, 0, none, false⟩]⟩,
  ⟨0x7021c, [], [⟨0, 32, .ro, .l, 0, none, false⟩]⟩,
  ⟨0x70240, [], [⟨0, 1, .rw, .l, 1, none, false⟩, ⟨1, 1, .ro, .l, 0, none, false⟩, ⟨8, 8, .rw, .l, 1, none, false⟩, ⟨16, 16, .rw, .l, 0x32, none, false⟩]⟩,
  ⟨0x70244, [], [⟨0, 32, .ro, .l, 0, none, false⟩]⟩]

/-- The registers of block 07h of R417, in address order: WT_CTL, WT_INC, WT_INC_LIM, WT_SERVO, WT_STEP_LO, WT_STEP_HI, WT_TIME_LO, WT_TIME_HI, WT_STAT, WT_PORT_ADJ, WT_EVTIN_CFG, WT_EVTIN_TS_LO, WT_EVTIN_TS_HI, WT_EVTIN_CNT, WT_RCFG, WT_RFRAME_LO, WT_RFRAME_HI, WT_RFLIP_LO, WT_RFLIP_HI, WT_FCFG, WT_FSTAT, WT_FMARK, WT_FFRAME_LO, WT_FFRAME_HI, WT_FDEV, WT_FTIME_LO, WT_FTIME_HI, WT_PAIR, WT_PAIR_OFS. -/
def wtRegs : List RegSpec := wtRegs0 ++ wtRegs1 ++ wtRegs2

def xaRegs0 : List RegSpec := [
  ⟨0x80000, [], [⟨0, 13, .rw, .l, 0x64, some (10, 5000), false⟩, ⟨16, 13, .rw, .l, 0x12c, some (50, 5000), false⟩]⟩,
  ⟨0x80004, [], [⟨0, 4, .rw, .l, 3, none, false⟩, ⟨8, 1, .rw, .l, 1, none, false⟩, ⟨12, 4, .rw, .l, 1, none, false⟩]⟩,
  ⟨0x80008, [], [⟨0, 13, .ro, .l, 0, none, false⟩, ⟨16, 13, .rc, .l, 0, none, false⟩]⟩,
  ⟨0x8000c, [], [⟨0, 16, .rc, .l, 0, none, false⟩, ⟨16, 16, .rc, .l, 0, none, false⟩]⟩,
  ⟨0x80010, [], [⟨0, 16, .wo, .l, 0, none, false⟩]⟩,
  ⟨0x80100, [(16, 0x10)], [⟨0, 4, .ro, .l, 0, none, false⟩, ⟨8, 4, .ro, .l, 0, none, false⟩, ⟨16, 4, .ro, .l, 0, none, false⟩, ⟨20, 1, .ro, .l, 0, none, false⟩, ⟨21, 1, .ro, .l, 0, none, false⟩]⟩,
  ⟨0x80104, [(16, 0x10)], [⟨0, 32, .ro, .l, 0, none, false⟩]⟩,
  ⟨0x80108, [(16, 0x10)], [⟨0, 16, .ro, .l, 0, none, false⟩]⟩,
  ⟨0x8010c, [(16, 0x10)], [⟨0, 10, .ro, .l, 0, none, false⟩, ⟨16, 10, .ro, .l, 0, none, false⟩]⟩,
  ⟨0x80200, [(8, 8)], [⟨0, 32, .rw, .l, 0, none, false⟩]⟩,
  ⟨0x80204, [(8, 8)], [⟨0, 30, .rw, .l, 0, none, false⟩]⟩]

/-- The registers of block 08h of R417, in address order: XA_CTL, XA_AUTO, XA_STAGE, XA_CNT, XA_ABORT, XA_XSTAT, XA_XTGT_LO, XA_XTGT_HI, XA_XVOTE, XA_EXCL_LO, XA_EXCL_HI. -/
def xaRegs : List RegSpec := xaRegs0

def niRegs0 : List RegSpec := [
  ⟨0x90000, [], [⟨0, 10, .rw, .l, 0x32, some (10, 500), false⟩, ⟨16, 8, .rw, .l, 0x40, none, false⟩]⟩,
  ⟨0x90004, [], [⟨0, 8, .rw, .l, 0x14, none, false⟩, ⟨8, 8, .rw, .l, 5, none, false⟩, ⟨16, 10, .rw, .l, 0x32, some (1, 1000), false⟩]⟩,
  ⟨0x90008, [], [⟨0, 13, .ro, .l, 0, none, false⟩]⟩,
  ⟨0x90100, [(4, 0x40)], [⟨0, 1, .rw, .l, 0, none, false⟩, ⟨1, 4, .rw, .q, 0, none, false⟩, ⟨5, 2, .rw, .q, 0, none, false⟩, ⟨7, 1, .rw, .l, 0, none, false⟩]⟩,
  ⟨0x90104, [(4, 0x40)], [⟨0, 1, .ro, .l, 0, none, false⟩, ⟨1, 1, .ro, .l, 0, none, false⟩, ⟨2, 1, .ro, .l, 0, none, false⟩, ⟨3, 1, .ro, .l, 0, none, false⟩]⟩,
  ⟨0x90108, [(4, 0x40)], [⟨0, 32, .rw, .q, 0, none, false⟩]⟩,
  ⟨0x9010c, [(4, 0x40)], [⟨0, 16, .rw, .q, 0, none, false⟩]⟩,
  ⟨0x90110, [(4, 0x40)], [⟨0, 32, .rc, .l, 0, none, false⟩]⟩,
  ⟨0x90114, [(4, 0x40)], [⟨0, 16, .rc, .l, 0, none, false⟩, ⟨16, 16, .rc, .l, 0, none, false⟩]⟩,
  ⟨0x90118, [(4, 0x40)], [⟨0, 16, .rc, .l, 0, none, false⟩, ⟨16, 16, .rc, .l, 0, none, false⟩]⟩,
  ⟨0x90300, [], [⟨0, 32, .rw, .q, 0, none, false⟩]⟩,
  ⟨0x90304, [], [⟨0, 32, .rw, .q, 0, none, false⟩]⟩]

def niRegs1 : List RegSpec := [
  ⟨0x90308, [], [⟨0, 1, .rw, .l, 0, none, false⟩, ⟨1, 4, .rw, .q, 8, some (6, 12), false⟩, ⟨8, 8, .rw, .l, 0x10, none, false⟩, ⟨16, 16, .rw, .l, 0x3e8, none, false⟩]⟩,
  ⟨0x9030c, [], [⟨0, 12, .rw, .l, 0, none, false⟩]⟩,
  ⟨0x90310, [], [⟨0, 12, .ro, .l, 0, none, false⟩, ⟨16, 16, .rc, .l, 0, none, false⟩]⟩,
  ⟨0x90320, [], [⟨0, 32, .rw, .q, 0, none, false⟩]⟩,
  ⟨0x90324, [], [⟨0, 32, .rw, .q, 0, none, false⟩]⟩,
  ⟨0x90328, [], [⟨0, 1, .rw, .l, 0, none, false⟩, ⟨1, 4, .rw, .q, 8, some (6, 12), false⟩, ⟨8, 8, .rw, .l, 0x10, none, false⟩]⟩,
  ⟨0x9032c, [], [⟨0, 12, .rw, .l, 0, none, false⟩]⟩,
  ⟨0x90330, [], [⟨0, 12, .ro, .l, 0, none, false⟩]⟩,
  ⟨0x91000, [(32, 0x80)], [⟨0, 1, .rw, .l, 0, none, false⟩, ⟨1, 1, .rw, .q, 0, none, false⟩, ⟨2, 1, .rw, .q, 0, none, false⟩, ⟨3, 2, .rw, .q, 0, none, false⟩, ⟨5, 2, .rw, .q, 0, none, false⟩, ⟨8, 7, .rw, .q, 0x60, none, false⟩, ⟨16, 4, .rw, .q, 4, none, false⟩, ⟨24, 1, .rw, .q, 0, none, false⟩, ⟨25, 3, .rw, .q, 0, none, false⟩, ⟨28, 1, .rw, .q, 0, none, false⟩, ⟨29, 1, .rw, .q, 0, none, false⟩]⟩,
  ⟨0x91004, [(32, 0x80)], [⟨0, 2, .rw, .q, 0, none, false⟩, ⟨2, 2, .rw, .q, 1, none, false⟩, ⟨4, 2, .rw, .q, 0, none, false⟩, ⟨6, 2, .rw, .q, 0, none, false⟩, ⟨8, 1, .rw, .q, 0, none, false⟩, ⟨9, 1, .rw, .q, 0, none, false⟩]⟩,
  ⟨0x91008, [(32, 0x80)], [⟨0, 13, .rw, .q, 0, none, false⟩, ⟨16, 12, .rw, .q, 0, none, false⟩]⟩,
  ⟨0x9100c, [(32, 0x80)], [⟨0, 16, .rw, .q, 0x3c, none, false⟩, ⟨16, 16, .rw, .q, 1, none, false⟩]⟩]

def niRegs2 : List RegSpec := [
  ⟨0x91010, [(32, 0x80)], [⟨0, 16, .rw, .q, 0, none, false⟩, ⟨16, 16, .rw, .q, 0, none, false⟩]⟩,
  ⟨0x91014, [(32, 0x80)], [⟨0, 12, .rw, .q, 0, none, false⟩, ⟨12, 1, .rw, .q, 0, none, false⟩, ⟨16, 12, .rw, .q, 0, none, false⟩, ⟨28, 1, .rw, .q, 0, none, false⟩]⟩,
  ⟨0x91018, [(32, 0x80), (4, 4)], [⟨0, 32, .rw, .q, 0, none, false⟩]⟩,
  ⟨0x91028, [(32, 0x80), (4, 4)], [⟨0, 32, .rw, .q, 0, none, false⟩]⟩,
  ⟨0x91038, [(32, 0x80)], [⟨0, 32, .rw, .q, 0, none, false⟩]⟩,
  ⟨0x9103c, [(32, 0x80)], [⟨0, 2, .rw, .q, 0, none, false⟩]⟩,
  ⟨0x91040, [(32, 0x80)], [⟨0, 16, .rw, .q, 0, none, false⟩]⟩,
  ⟨0x91044, [(32, 0x80)], [⟨0, 2, .ro, .l, 0, none, false⟩, ⟨2, 1, .ro, .l, 0, none, false⟩, ⟨3, 1, .ro, .l, 0, none, false⟩, ⟨4, 4, .ro, .l, 0, none, false⟩, ⟨8, 3, .ro, .l, 0, none, false⟩, ⟨11, 1, .ro, .l, 0, none, false⟩]⟩,
  ⟨0x91048, [(32, 0x80)], [⟨0, 32, .ro, .l, 0, none, false⟩]⟩,
  ⟨0x9104c, [(32, 0x80)], [⟨0, 32, .ro, .l, 0, none, false⟩]⟩,
  ⟨0x92000, [(32, 0x10)], [⟨0, 16, .rc, .l, 0, none, false⟩, ⟨16, 16, .rc, .l, 0, none, false⟩]⟩,
  ⟨0x92004, [(32, 0x10)], [⟨0, 16, .rc, .l, 0, none, false⟩, ⟨16, 16, .rc, .l, 0, none, false⟩]⟩]

def niRegs3 : List RegSpec := [
  ⟨0x92008, [(32, 0x10)], [⟨0, 16, .rc, .l, 0, none, false⟩, ⟨16, 16, .rc, .l, 0, none, false⟩]⟩]

/-- The registers of block 09h of R417, in address order: NI_CTL, NI_TIMERS, NI_BUDGET, NI_PCFG, NI_PSTAT, NI_PMAC_LO, NI_PMAC_HI, NI_PRX, NI_PERR, NI_PFEC, NI_HRX_BASE_LO, NI_HRX_BASE_HI, NI_HRX_CTL, NI_HRX_TAIL, NI_HRX_HEAD, NI_HTX_BASE_LO, NI_HTX_BASE_HI, NI_HTX_CTL, NI_HTX_TAIL, NI_HTX_HEAD, NI_FCFG, NI_FFMT, NI_FSIZE, NI_FRATE, NI_FKEY, NI_FVLAN, NI_FADDR_A, NI_FADDR_B, NI_FBUF_LO, NI_FBUF_HI, NI_FLINE, NI_FSTAT, NI_FMEDIA_LO, NI_FMEDIA_HI, NI_FLOSS, NI_FMERGE, NI_FERR. -/
def niRegs : List RegSpec := niRegs0 ++ niRegs1 ++ niRegs2 ++ niRegs3

def cmpRegs0 : List RegSpec := [
  ⟨0xa0000, [], [⟨0, 8, .rw, .s, 0x14, some (10, 200), false⟩, ⟨16, 8, .rw, .l, 0x28, none, false⟩]⟩,
  ⟨0xa0004, [], [⟨0, 12, .ro, .l, 0, none, false⟩, ⟨16, 16, .rc, .l, 0, none, false⟩]⟩,
  ⟨0xa0100, [(8, 0x20)], [⟨0, 1, .rw, .l, 0, none, false⟩, ⟨1, 2, .rw, .s, 1, none, false⟩]⟩,
  ⟨0xa0104, [(8, 0x20)], [⟨0, 10, .rw, .s, 0, none, false⟩, ⟨10, 10, .rw, .s, 0, none, false⟩, ⟨20, 10, .rw, .s, 0, none, false⟩]⟩,
  ⟨0xa0108, [(8, 0x20)], [⟨0, 32, .rw, .s, 0, none, false⟩]⟩,
  ⟨0xa010c, [(8, 0x20)], [⟨0, 2, .rw, .s, 0, none, false⟩]⟩,
  ⟨0xa0110, [(8, 0x20)], [⟨0, 6, .ro, .l, 0, none, false⟩, ⟨6, 1, .ro, .l, 0, none, false⟩, ⟨16, 16, .rc, .l, 0, none, false⟩]⟩,
  ⟨0xa0200, [], [⟨0, 13, .rw, .q, 0, none, false⟩, ⟨16, 13, .rw, .q, 0, none, false⟩, ⟨31, 1, .rw, .l, 0, none, false⟩]⟩,
  ⟨0xa0204, [], [⟨0, 32, .rw, .q, 0, none, false⟩]⟩,
  ⟨0xa0208, [], [⟨0, 2, .rw, .q, 0, none, false⟩]⟩,
  ⟨0xa1000, [(8, 0x400), (16, 0x40)], [⟨0, 1, .rw, .s, 0, none, false⟩, ⟨1, 2, .rw, .s, 0, none, false⟩, ⟨3, 5, .rw, .s, 0, none, false⟩, ⟨8, 4, .rw, .s, 0, none, false⟩, ⟨12, 2, .rw, .s, 0, none, false⟩, ⟨14, 1, .rw, .l, 0, none, false⟩, ⟨15, 1, .rw, .l, 0, none, false⟩, ⟨16, 10, .rw, .s, 0x3ff, none, false⟩]⟩,
  ⟨0xa1004, [(8, 0x400), (16, 0x40)], [⟨0, 16, .rw, .s, 0, none, false⟩, ⟨16, 16, .rw, .s, 0, none, false⟩]⟩]

def cmpRegs1 : List RegSpec := [
  ⟨0xa1008, [(8, 0x400), (16, 0x40)], [⟨0, 16, .rw, .s, 0, none, false⟩, ⟨16, 16, .rw, .s, 0, none, false⟩]⟩,
  ⟨0xa100c, [(8, 0x400), (16, 0x40)], [⟨0, 16, .rw, .s, 0, none, false⟩, ⟨16, 16, .rw, .s, 0, none, false⟩]⟩,
  ⟨0xa1010, [(8, 0x400), (16, 0x40)], [⟨0, 16, .rw, .s, 0, none, false⟩, ⟨16, 16, .rw, .s, 0, none, false⟩]⟩,
  ⟨0xa1014, [(8, 0x400), (16, 0x40)], [⟨0, 32, .rw, .s, 0, none, false⟩]⟩,
  ⟨0xa1018, [(8, 0x400), (16, 0x40)], [⟨0, 2, .rw, .s, 0, none, false⟩]⟩,
  ⟨0xa101c, [(8, 0x400), (16, 0x40)], [⟨0, 16, .rw, .s, 0, none, false⟩]⟩,
  ⟨0xa1020, [(8, 0x400), (16, 0x40)], [⟨0, 32, .ro, .l, 0, none, false⟩]⟩,
  ⟨0xa1024, [(8, 0x400), (16, 0x40)], [⟨0, 2, .ro, .l, 0, none, false⟩]⟩,
  ⟨0xa1028, [(8, 0x400), (16, 0x40)], [⟨0, 3, .ro, .l, 0, none, false⟩, ⟨3, 1, .ro, .l, 0, none, false⟩, ⟨4, 1, .ro, .l, 0, none, false⟩, ⟨5, 1, .ro, .l, 0, none, false⟩, ⟨8, 4, .ro, .l, 0, none, false⟩]⟩,
  ⟨0xa102c, [(8, 0x400), (16, 0x40)], [⟨0, 32, .ro, .l, 0, none, false⟩]⟩,
  ⟨0xa1030, [(8, 0x400), (16, 0x40)], [⟨0, 32, .ro, .l, 0, none, false⟩]⟩,
  ⟨0xa1034, [(8, 0x400), (16, 0x40)], [⟨0, 16, .rc, .l, 0, none, false⟩, ⟨16, 16, .rc, .l, 0, none, false⟩]⟩]

/-- The registers of block 0Ah of R417, in address order: CMP_CTL, CMP_STAT, CMP_RCFG, CMP_RBG, CMP_RREC_LO, CMP_RREC_HI, CMP_RSTAT, CMP_DBCFG, CMP_DBBASE_LO, CMP_DBBASE_HI, CMP_LCFG, CMP_LDST, CMP_LDSZ, CMP_LCROP, CMP_LCSZ, CMP_LREC_LO, CMP_LREC_HI, CMP_LPITCH, CMP_LBUF_LO, CMP_LBUF_HI, CMP_LSTAT, CMP_LMEDIA_LO, CMP_LMEDIA_HI, CMP_LCNT. -/
def cmpRegs : List RegSpec := cmpRegs0 ++ cmpRegs1

def pixRegs0 : List RegSpec := [
  ⟨0xb0000, [], [⟨0, 1, .rw, .l, 0, none, false⟩, ⟨1, 1, .rw, .s, 1, none, false⟩, ⟨2, 1, .rw, .l, 1, none, false⟩]⟩,
  ⟨0xb0004, [], [⟨0, 13, .rw, .q, 0, none, false⟩, ⟨16, 12, .rw, .q, 0, none, false⟩]⟩,
  ⟨0xb0008, [], [⟨12, 20, .rw, .q, 0, none, false⟩]⟩,
  ⟨0xb000c, [], [⟨0, 13, .rw, .s, 0x1000, some (0, 4096), false⟩, ⟨16, 5, .ro, .l, 0x10, none, false⟩]⟩,
  ⟨0xb0010, [], [⟨0, 13, .ro, .l, 0x1000, none, false⟩]⟩,
  ⟨0xb0014, [], [⟨0, 13, .rw, .s, 0x1000, none, false⟩, ⟨16, 13, .rw, .s, 0x1000, none, false⟩]⟩,
  ⟨0xb0018, [], [⟨0, 13, .rw, .s, 0x1000, none, false⟩]⟩,
  ⟨0xb0020, [(5, 4)], [⟨0, 16, .rw, .s, 0, none, false⟩, ⟨16, 16, .rw, .s, 0, none, false⟩]⟩,
  ⟨0xb0040, [], [⟨0, 1, .ro, .l, 0, none, false⟩, ⟨1, 1, .ro, .l, 0, none, false⟩, ⟨2, 1, .ro, .l, 0, none, false⟩, ⟨3, 1, .wo, .s, 0, none, false⟩, ⟨4, 1, .wo, .l, 0, none, false⟩, ⟨5, 1, .ro, .l, 0, none, false⟩]⟩,
  ⟨0xb0044, [], [⟨0, 8, .rw, .l, 8, none, false⟩, ⟨8, 12, .rw, .l, 0x258, none, false⟩]⟩,
  ⟨0xb0048, [], [⟨0, 2, .ro, .l, 0, none, false⟩, ⟨2, 4, .ro, .l, 0, none, false⟩, ⟨8, 8, .ro, .l, 0, none, false⟩, ⟨16, 16, .rc, .l, 0, none, false⟩]⟩,
  ⟨0xb004c, [], [⟨0, 2, .ro, .l, 0, none, false⟩, ⟨2, 2, .ro, .l, 1, none, false⟩, ⟨8, 8, .rc, .l, 0, none, false⟩, ⟨16, 8, .rc, .l, 0, none, false⟩, ⟨24, 8, .rc, .l, 0, none, false⟩]⟩]

def pixRegs1 : List RegSpec := [
  ⟨0xb0050, [], [⟨0, 16, .rc, .l, 0, none, false⟩, ⟨16, 16, .rc, .l, 0, none, false⟩]⟩,
  ⟨0xb0054, [], [⟨0, 16, .rc, .l, 0, none, false⟩, ⟨16, 16, .rc, .l, 0, none, false⟩]⟩,
  ⟨0xb0058, [], [⟨0, 20, .ro, .l, 0, none, false⟩, ⟨20, 1, .ro, .l, 0, none, false⟩, ⟨31, 1, .w1c, .l, 0, none, false⟩]⟩,
  ⟨0xb4000, [(3, 0x4000), (4096, 4)], [⟨0, 20, .rw, .s, 0, none, false⟩]⟩]

/-- The registers of block 0Bh of R417, in address order: PIX_CTL, PIX_GEOM, PIX_FBBASE, PIX_SCALE, PIX_AMB, PIX_FBGAIN0, PIX_FBGAIN1, PIX_TMAT, PIX_BANK, PIX_QUIET, PIX_QSTAT, PIX_FBSTAT, PIX_RESCNT, PIX_LSERR, PIX_LSUE, PIX_ILUT. -/
def pixRegs : List RegSpec := pixRegs0 ++ pixRegs1

def calRegs0 : List RegSpec := [
  ⟨0xc0000, [], [⟨0, 1, .rw, .l, 0, none, false⟩, ⟨1, 1, .wo, .l, 0, none, false⟩, ⟨2, 1, .rw, .l, 0, none, false⟩, ⟨3, 1, .rw, .l, 0, none, false⟩, ⟨4, 1, .wo, .l, 0, none, false⟩, ⟨5, 1, .wo, .l, 0, none, false⟩]⟩,
  ⟨0xc0004, [], [⟨0, 1, .rw, .l, 0, none, false⟩, ⟨4, 8, .rw, .l, 8, none, false⟩, ⟨12, 8, .rw, .l, 0x20, none, false⟩, ⟨20, 4, .rw, .l, 8, none, false⟩, ⟨24, 8, .rw, .l, 0xa, none, false⟩]⟩,
  ⟨0xc0008, [], [⟨0, 2, .ro, .l, 0, none, false⟩, ⟨2, 1, .ro, .l, 0, none, false⟩, ⟨3, 1, .ro, .l, 0, none, false⟩, ⟨4, 4, .ro, .l, 0, none, false⟩, ⟨8, 1, .ro, .l, 0, none, false⟩, ⟨16, 16, .rc, .l, 0, none, false⟩]⟩,
  ⟨0xc000c, [], [⟨0, 20, .ro, .l, 0, none, false⟩, ⟨20, 3, .ro, .l, 0, none, false⟩, ⟨24, 8, .ro, .l, 0, none, false⟩]⟩,
  ⟨0xc0010, [], [⟨12, 20, .rw, .q, 0, none, false⟩]⟩,
  ⟨0xc0014, [], [⟨0, 11, .rw, .l, 0x100, none, false⟩, ⟨12, 8, .rw, .l, 8, none, false⟩, ⟨20, 12, .rw, .l, 0x40, none, false⟩]⟩,
  ⟨0xc0018, [], [⟨0, 11, .rw, .l, 0x100, none, false⟩, ⟨16, 12, .rw, .l, 0, none, false⟩]⟩,
  ⟨0xc001c, [], [⟨0, 16, .rc, .l, 0, none, false⟩, ⟨16, 16, .rc, .l, 0, none, false⟩]⟩,
  ⟨0xc0020, [(4, 4)], [⟨0, 16, .ro, .l, 0, none, false⟩, ⟨16, 16, .ro, .l, 0, none, false⟩]⟩,
  ⟨0xc0030, [(4, 4)], [⟨0, 16, .ro, .l, 0, none, false⟩, ⟨16, 16, .ro, .l, 0, none, false⟩]⟩,
  ⟨0xc0040, [], [⟨0, 3, .rw, .l, 0, none, false⟩, ⟨3, 1, .rw, .l, 0, none, false⟩, ⟨4, 3, .rw, .l, 0, none, false⟩, ⟨7, 1, .rw, .l, 0, none, false⟩, ⟨8, 3, .rw, .l, 0, none, false⟩, ⟨11, 1, .rw, .l, 0, none, false⟩, ⟨12, 3, .rw, .l, 0, none, false⟩, ⟨15, 1, .rw, .l, 0, none, false⟩, ⟨16, 3, .rw, .l, 0, none, false⟩, ⟨19, 1, .rw, .l, 0, none, false⟩, ⟨20, 3, .rw, .l, 0, none, false⟩, ⟨23, 1, .rw, .l, 0, none, false⟩, ⟨24, 3, .rw, .l, 0, none, false⟩, ⟨27, 1, .rw, .l, 0, none, false⟩, ⟨28, 3, .rw, .l, 0, none, false⟩, ⟨31, 1, .rw, .l, 0, none, false⟩]⟩,
  ⟨0xc0080, [], [⟨0, 8, .rw, .l, 0x80, some (16, 255), false⟩, ⟨8, 8, .rw, .l, 0x10, none, false⟩, ⟨16, 8, .rw, .l, 0x20, none, false⟩, ⟨24, 2, .rw, .l, 1, none, false⟩]⟩]

def calRegs1 : List RegSpec := [
  ⟨0xc0084, [], [⟨0, 16, .rw, .l, 0x3333, none, false⟩, ⟨16, 16, .rw, .l, 0x4ccd, none, false⟩]⟩,
  ⟨0xc0088, [], [⟨0, 8, .rw, .l, 0x1e, none, false⟩, ⟨8, 8, .rw, .l, 0x40, none, false⟩]⟩,
  ⟨0xc008c, [], [⟨0, 16, .rw, .q, 0x8000, none, false⟩, ⟨16, 8, .rw, .q, 0x14, none, false⟩]⟩,
  ⟨0xc0090, [(4, 4)], [⟨0, 1, .rw, .q, 0, none, false⟩, ⟨1, 4, .rw, .q, 0, none, false⟩, ⟨5, 5, .rw, .q, 0, none, false⟩, ⟨10, 5, .rw, .q, 0, none, false⟩, ⟨15, 4, .rw, .q, 0, none, false⟩, ⟨19, 4, .rw, .q, 0, none, false⟩]⟩,
  ⟨0xc00a0, [], [⟨0, 16, .ro, .l, 0x4000, none, false⟩, ⟨16, 16, .ro, .l, 0x4000, none, false⟩]⟩,
  ⟨0xc00a4, [], [⟨0, 16, .ro, .l, 0x4000, none, false⟩]⟩,
  ⟨0xc00a8, [], [⟨0, 2, .ro, .l, 0, none, false⟩, ⟨2, 4, .ro, .l, 1, none, false⟩, ⟨8, 8, .ro, .l, 0, none, false⟩, ⟨16, 16, .rc, .l, 0, none, false⟩]⟩,
  ⟨0xc00b0, [(5, 4)], [⟨0, 16, .rw, .s, 0, none, false⟩, ⟨16, 16, .rw, .s, 0, none, false⟩]⟩,
  ⟨0xc00c4, [], [⟨0, 1, .rw, .q, 0, none, false⟩, ⟨1, 1, .rw, .q, 0, none, false⟩]⟩,
  ⟨0xc0100, [(4, 0x10), (3, 4)], [⟨0, 20, .rw, .q, 0, none, false⟩]⟩,
  ⟨0xc0180, [(3, 8)], [⟨0, 16, .rw, .l, 0, none, false⟩, ⟨16, 16, .rw, .l, 0, none, false⟩]⟩,
  ⟨0xc0184, [(3, 8)], [⟨0, 32, .rw, .l, 0, none, false⟩]⟩]

def calRegs2 : List RegSpec := [
  ⟨0xc01a0, [(3, 4)], [⟨0, 32, .ro, .l, 0, none, false⟩]⟩,
  ⟨0xc01c0, [], [⟨0, 13, .rw, .l, 0x400, none, false⟩, ⟨16, 8, .rw, .l, 0x10, none, false⟩, ⟨24, 8, .rw, .l, 8, none, false⟩]⟩,
  ⟨0xc01c4, [], [⟨0, 16, .rw, .l, 0x1000, none, false⟩, ⟨16, 4, .rw, .l, 8, none, false⟩]⟩,
  ⟨0xc01c8, [], [⟨0, 8, .rw, .l, 0x36, none, false⟩, ⟨8, 8, .rw, .l, 0xb7, none, false⟩, ⟨16, 8, .rw, .l, 0x12, none, false⟩]⟩,
  ⟨0xc01cc, [], [⟨0, 20, .ro, .l, 0, none, false⟩]⟩,
  ⟨0xc0400, [(256, 4)], [⟨0, 3, .rw, .q, 0, none, false⟩, ⟨4, 3, .rw, .q, 0, none, false⟩, ⟨8, 3, .rw, .q, 0, none, false⟩, ⟨12, 3, .rw, .q, 0, none, false⟩, ⟨16, 3, .rw, .q, 0, none, false⟩, ⟨20, 3, .rw, .q, 0, none, false⟩, ⟨24, 3, .rw, .q, 0, none, false⟩, ⟨28, 3, .rw, .q, 0, none, false⟩]⟩]

/-- The registers of block 0Ch of R417, in address order: CAL_CTL, CAL_MODE, CAL_STAT, CAL_LAMPS, CAL_SETBASE, CAL_LIM0, CAL_LIM1, CAL_BCNT, CAL_POINT, CAL_ZTEMP, CAL_ZSUB, CAL_LOOP, CAL_LOOPLIM, CAL_LOOPHOLD, CAL_WITLVL, CAL_WIT, CAL_LGAIN0, CAL_LGAIN1, CAL_LSTAT, CAL_TBASE, CAL_REFSTAT, CAL_REF, CAL_TARGET_XY, CAL_TARGET_Y, CAL_LUM, CAL_AMB, CAL_AMBK, CAL_AMBW, CAL_AMBRD, CAL_ZMAP. -/
def calRegs : List RegSpec := calRegs0 ++ calRegs1 ++ calRegs2

def drvRegs0 : List RegSpec := [
  ⟨0xd0000, [], [⟨0, 1, .rw, .l, 0, none, false⟩, ⟨1, 1, .wo, .l, 0, none, false⟩, ⟨2, 1, .rw, .l, 1, none, false⟩, ⟨3, 1, .wo, .l, 0, none, false⟩]⟩,
  ⟨0xd0004, [], [⟨0, 5, .rw, .q, 0x1f, none, false⟩, ⟨5, 5, .rw, .q, 7, none, false⟩, ⟨10, 3, .rw, .q, 0, none, false⟩, ⟨16, 8, .rw, .q, 0x80, none, false⟩]⟩,
  ⟨0xd0008, [], [⟨0, 16, .rw, .q, 0x319c, none, false⟩, ⟨16, 12, .rw, .q, 0x64, none, false⟩]⟩,
  ⟨0xd000c, [], [⟨0, 13, .rw, .q, 0xbb8, some (500, 5000), false⟩, ⟨16, 13, .rw, .q, 0x2b, none, false⟩]⟩,
  ⟨0xd0010, [], [⟨0, 4, .rw, .l, 4, none, false⟩]⟩,
  ⟨0xd0014, [], [⟨0, 2, .ro, .l, 0, none, false⟩, ⟨2, 1, .ro, .l, 0, none, false⟩, ⟨3, 4, .ro, .l, 0, none, false⟩, ⟨16, 16, .rc, .l, 0, none, false⟩]⟩,
  ⟨0xd0020, [], [⟨0, 32, .rw, .s, 0, none, false⟩]⟩,
  ⟨0xd0024, [], [⟨0, 32, .ro, .l, 0, none, true⟩]⟩,
  ⟨0xd0028, [], [⟨0, 32, .wo, .l, 0, none, false⟩]⟩,
  ⟨0xd002c, [], [⟨0, 32, .ro, .l, 0, none, false⟩]⟩,
  ⟨0xd0030, [], [⟨0, 10, .ro, .l, 0, none, false⟩, ⟨16, 16, .rc, .l, 0, none, false⟩]⟩,
  ⟨0xd0080, [(32, 4)], [⟨0, 20, .rw, .s, 0, none, false⟩]⟩]

def drvRegs1 : List RegSpec := [
  ⟨0xd0100, [(32, 4)], [⟨0, 20, .ro, .l, 0, none, true⟩, ⟨20, 3, .ro, .l, 0, none, true⟩]⟩,
  ⟨0xd0180, [(16, 4)], [⟨0, 6, .ro, .l, 0, none, false⟩, ⟨6, 1, .ro, .l, 0, none, false⟩, ⟨8, 8, .rc, .l, 0, none, false⟩]⟩,
  ⟨0xd01c0, [(16, 4)], [⟨0, 6, .rw, .q, 0, none, false⟩]⟩,
  ⟨0xd0200, [(16, 4)], [⟨0, 32, .ro, .l, 0, none, false⟩]⟩,
  ⟨0xd0300, [], [⟨0, 1, .rw, .l, 1, none, false⟩, ⟨1, 1, .wo, .l, 0, none, false⟩, ⟨2, 8, .rw, .q, 0x50, some (25, 200), false⟩, ⟨10, 10, .rw, .q, 0x384, none, false⟩]⟩,
  ⟨0xd0304, [], [⟨0, 7, .rw, .l, 0, none, false⟩, ⟨8, 7, .rw, .l, 0x58, some (0, 88), false⟩, ⟨16, 7, .rw, .l, 0x30, none, false⟩, ⟨24, 7, .rw, .l, 0x28, none, false⟩]⟩,
  ⟨0xd0308, [], [⟨0, 3, .rw, .l, 1, none, false⟩, ⟨4, 3, .rw, .l, 3, none, false⟩, ⟨8, 8, .rw, .l, 0xa, none, false⟩, ⟨16, 4, .rw, .l, 4, none, false⟩, ⟨20, 12, .rw, .l, 0x64, some (10, 4095), false⟩]⟩,
  ⟨0xd030c, [], [⟨0, 8, .rw, .q, 0x40, none, false⟩, ⟨8, 8, .rw, .q, 8, none, false⟩, ⟨16, 8, .rw, .q, 0x20, none, false⟩]⟩,
  ⟨0xd0310, [], [⟨0, 10, .rw, .l, 0x190, none, false⟩]⟩,
  ⟨0xd0314, [], [⟨0, 6, .rw, .l, 0xc, none, false⟩, ⟨8, 6, .rw, .l, 0xa, none, false⟩, ⟨16, 8, .rw, .l, 0xa, none, false⟩]⟩,
  ⟨0xd0318, [], [⟨0, 7, .ro, .l, 0, none, false⟩, ⟨8, 3, .ro, .l, 0, none, false⟩, ⟨12, 3, .ro, .l, 7, none, false⟩, ⟨16, 16, .rc, .l, 0, none, false⟩]⟩,
  ⟨0xd031c, [], [⟨0, 10, .ro, .l, 0, none, false⟩, ⟨16, 10, .ro, .l, 0, none, false⟩]⟩]

def drvRegs2 : List RegSpec := [
  ⟨0xd0800, [(512, 4)], [⟨0, 12, .rw, .q, 0, none, false⟩, ⟨12, 12, .rw, .q, 0, none, false⟩]⟩,
  ⟨0xd1000, [(512, 4)], [⟨0, 20, .rw, .l, 0, none, true⟩, ⟨20, 2, .rw, .l, 0, none, true⟩, ⟨31, 1, .rw, .l, 0, none, true⟩]⟩,
  ⟨0xd1800, [(512, 4)], [⟨0, 8, .rw, .q, 0, none, false⟩, ⟨8, 8, .rw, .q, 0, none, false⟩]⟩,
  ⟨0xd4000, [(32, 0x200), (64, 8)], [⟨0, 20, .rw, .q, 0, none, false⟩, ⟨20, 1, .rw, .q, 0, none, false⟩]⟩,
  ⟨0xd4004, [(32, 0x200), (64, 8)], [⟨0, 14, .rw, .q, 0, none, false⟩, ⟨14, 18, .rw, .q, 0, none, false⟩]⟩,
  ⟨0xd8000, [(8192, 4)], [⟨0, 32, .rw, .q, 0, none, false⟩]⟩]

/-- The registers of block 0Dh of R417, in address order: DRV_CTL, DRV_TOPO, DRV_LINE, DRV_TIME, DRV_POLL, DRV_STAT, DRV_LGFORCE, DRV_LGLATCH, DRV_LGCLR, DRV_LGVALID, DRV_MASKCNT, DRV_LGLVL, DRV_LGCAUSE, DRV_PSTAT, DRV_PCFG, DRV_PLOST, DRV_RAIL_CTL, DRV_RAIL_V, DRV_RAIL_TRK, DRV_RAIL_PID, DRV_RAIL_ILIM, DRV_RAIL_PROT, DRV_RAIL_STAT, DRV_RAIL_MEAS, DRV_DMAP, DRV_MASK, DRV_SCANMAP, DRV_LGRANGE0, DRV_LGRANGE1, DRV_LGBMP. -/
def drvRegs : List RegSpec := drvRegs0 ++ drvRegs1 ++ drvRegs2

def chkRegs0 : List RegSpec := [
  ⟨0xe0000, [], [⟨0, 1, .rw, .l, 1, none, false⟩, ⟨1, 1, .rw, .l, 1, none, false⟩, ⟨2, 1, .rw, .l, 1, none, false⟩, ⟨8, 8, .rw, .l, 3, none, false⟩]⟩,
  ⟨0xe0004, [], [⟨0, 16, .rc, .l, 0, none, false⟩, ⟨16, 16, .rc, .l, 0, none, false⟩]⟩,
  ⟨0xe0008, [], [⟨0, 16, .rc, .l, 0, none, false⟩, ⟨16, 16, .rc, .l, 0, none, false⟩]⟩,
  ⟨0xe0040, [(8, 4)], [⟨0, 32, .ro, .l, 0, none, false⟩]⟩,
  ⟨0xe0060, [(8, 4)], [⟨0, 32, .ro, .l, 0, none, false⟩]⟩,
  ⟨0xe0100, [(8, 0x20)], [⟨0, 13, .rw, .s, 0, none, false⟩, ⟨16, 12, .rw, .s, 0, none, false⟩]⟩,
  ⟨0xe0104, [(8, 0x20)], [⟨0, 13, .rw, .s, 0, none, false⟩, ⟨16, 12, .rw, .s, 0, none, false⟩]⟩,
  ⟨0xe0108, [(8, 0x20)], [⟨0, 1, .rw, .s, 0, none, false⟩, ⟨1, 1, .rw, .s, 0, none, false⟩, ⟨2, 1, .rw, .s, 0, none, false⟩, ⟨3, 5, .rw, .s, 0, none, false⟩, ⟨8, 4, .ro, .l, 0, none, false⟩]⟩,
  ⟨0xe010c, [(8, 0x20)], [⟨0, 32, .rw, .s, 0, none, false⟩]⟩,
  ⟨0xe0110, [(8, 0x20)], [⟨0, 32, .ro, .l, 0, none, false⟩]⟩,
  ⟨0xe0200, [], [⟨0, 1, .ro, .l, 0, none, false⟩, ⟨1, 1, .ro, .l, 0, none, false⟩, ⟨8, 8, .ro, .l, 0, none, false⟩, ⟨16, 16, .rc, .l, 0, none, false⟩]⟩,
  ⟨0xe0240, [(8, 4)], [⟨0, 32, .ro, .l, 0, none, false⟩]⟩]

def chkRegs1 : List RegSpec := [
  ⟨0xe0260, [(8, 4)], [⟨0, 32, .ro, .l, 0, none, false⟩]⟩]

/-- The registers of block 0Eh of R417, in address order: CHK_CTL, CHK_CNT, CHK_SKIP, CHK_ILAST, CHK_IEXP, CHK_OPOS, CHK_OSIZE, CHK_OCFG, CHK_OEXP, CHK_OLAST, CHK_PSTAT, CHK_PDIG, CHK_PPDIG. -/
def chkRegs : List RegSpec := chkRegs0 ++ chkRegs1

def redRegs0 : List RegSpec := [
  ⟨0xf0000, [], [⟨0, 1, .rw, .l, 0, none, false⟩, ⟨1, 1, .rw, .q, 0, none, false⟩, ⟨2, 1, .rw, .l, 1, none, false⟩, ⟨3, 1, .rw, .l, 0, none, false⟩, ⟨4, 4, .rw, .q, 0, none, false⟩]⟩,
  ⟨0xf0004, [], [⟨0, 4, .rw, .l, 5, some (0, 10), false⟩, ⟨8, 10, .rw, .l, 0x14, some (2, 1000), false⟩, ⟨18, 10, .rw, .l, 0x1e, some (2, 1000), false⟩]⟩,
  ⟨0xf0008, [], [⟨0, 12, .rw, .l, 0x3c, some (5, 3600), false⟩]⟩,
  ⟨0xf000c, [], [⟨0, 1, .wo, .l, 0, none, false⟩, ⟨1, 1, .wo, .l, 0, none, false⟩, ⟨2, 1, .wo, .l, 0, none, false⟩]⟩,
  ⟨0xf0010, [], [⟨0, 2, .ro, .l, 0, none, false⟩, ⟨2, 1, .ro, .l, 0, none, false⟩, ⟨3, 1, .ro, .l, 0, none, false⟩, ⟨4, 1, .ro, .l, 0, none, false⟩, ⟨5, 1, .ro, .l, 0, none, false⟩, ⟨6, 1, .ro, .l, 0, none, false⟩, ⟨8, 8, .ro, .l, 0, none, false⟩, ⟨16, 12, .ro, .l, 0, none, false⟩]⟩,
  ⟨0xf0014, [], [⟨0, 6, .ro, .l, 0, none, false⟩, ⟨8, 5, .ro, .l, 0, none, false⟩, ⟨16, 16, .rc, .l, 0, none, false⟩]⟩,
  ⟨0xf0018, [], [⟨0, 16, .rc, .l, 0, none, false⟩, ⟨16, 16, .rc, .l, 0, none, false⟩]⟩,
  ⟨0xf0100, [(8, 0x10)], [⟨0, 32, .ro, .l, 0, none, false⟩]⟩,
  ⟨0xf0104, [(8, 0x10)], [⟨0, 1, .ro, .l, 0, none, false⟩, ⟨1, 1, .ro, .l, 0, none, false⟩, ⟨2, 1, .ro, .l, 0, none, false⟩, ⟨16, 16, .ro, .l, 0, none, false⟩]⟩,
  ⟨0xf0200, [(8, 0x10)], [⟨12, 20, .rw, .l, 0, none, false⟩]⟩,
  ⟨0xf0204, [(8, 0x10)], [⟨0, 2, .rw, .l, 0, none, false⟩]⟩,
  ⟨0xf0208, [(8, 0x10)], [⟨0, 20, .rw, .l, 0, none, false⟩, ⟨31, 1, .rw, .l, 0, none, false⟩]⟩]

def redRegs1 : List RegSpec := [
  ⟨0xf0300, [(16, 4)], [⟨0, 16, .ro, .l, 0, none, false⟩]⟩,
  ⟨0xf0400, [], [⟨0, 32, .ro, .l, 0, none, false⟩]⟩,
  ⟨0xf0404, [], [⟨0, 1, .ro, .l, 0, none, false⟩, ⟨1, 1, .ro, .l, 0, none, false⟩, ⟨16, 16, .rc, .l, 0, none, false⟩]⟩]

/-- The registers of block 0Fh of R417, in address order: RED_CFG, RED_TIMERS, RED_REVERT, RED_CTL, RED_STAT, RED_MQ, RED_SEQCNT, RED_REPOCH, RED_RSTAT, RED_MREG_LO, RED_MREG_HI, RED_MREG_SIZE, RED_MIDX, RED_FOLLOW, RED_FSTAT. -/
def redRegs : List RegSpec := redRegs0 ++ redRegs1

def hkRegs0 : List RegSpec := [
  ⟨0x100000, [], [⟨0, 7, .rw, .l, 0xa, some (1, 100), false⟩, ⟨8, 4, .rw, .l, 2, none, false⟩, ⟨12, 4, .rw, .l, 5, none, false⟩, ⟨16, 1, .rw, .l, 1, none, true⟩, ⟨17, 7, .rw, .l, 0x3c, none, true⟩, ⟨24, 4, .rw, .l, 5, none, false⟩]⟩,
  ⟨0x100004, [], [⟨0, 32, .rw, .l, 0, none, false⟩]⟩,
  ⟨0x100008, [], [⟨0, 5, .ro, .l, 0x10, none, false⟩, ⟨5, 2, .ro, .l, 0, none, false⟩, ⟨7, 2, .ro, .l, 0, none, false⟩, ⟨9, 1, .ro, .l, 0, none, false⟩, ⟨10, 2, .ro, .l, 0, none, false⟩, ⟨16, 16, .rc, .l, 0, none, false⟩]⟩,
  ⟨0x10000c, [], [⟨0, 13, .ro, .l, 0, none, false⟩]⟩,
  ⟨0x100010, [], [⟨0, 8, .rw, .l, 0x64, none, false⟩, ⟨8, 8, .rw, .l, 0x69, none, false⟩, ⟨16, 8, .rw, .l, 0x73, none, false⟩, ⟨24, 4, .rw, .l, 3, none, false⟩]⟩,
  ⟨0x100014, [], [⟨0, 8, .rw, .l, 0x3c, none, false⟩, ⟨8, 8, .rw, .l, 0x46, none, false⟩, ⟨16, 8, .rw, .l, 0x55, none, false⟩, ⟨24, 4, .rw, .l, 3, none, false⟩]⟩,
  ⟨0x100018, [], [⟨0, 12, .rw, .l, 0x10, none, false⟩, ⟨16, 12, .rw, .l, 0xff0, none, false⟩]⟩,
  ⟨0x10001c, [], [⟨0, 8, .rc, .l, 0, none, true⟩]⟩,
  ⟨0x100040, [(33, 4)], [⟨0, 16, .rw, .l, 0, none, false⟩]⟩,
  ⟨0x100100, [(32, 4)], [⟨0, 16, .ro, .l, 0, none, false⟩, ⟨16, 1, .ro, .l, 0, none, false⟩, ⟨17, 1, .ro, .l, 0, none, false⟩, ⟨18, 1, .ro, .l, 0, none, false⟩, ⟨19, 1, .ro, .l, 0, none, false⟩]⟩,
  ⟨0x100180, [(12, 4)], [⟨0, 12, .ro, .l, 0, none, false⟩, ⟨15, 1, .ro, .l, 0, none, false⟩, ⟨16, 12, .ro, .l, 0, none, false⟩]⟩]

/-- The registers of block 10h of R417, in address order: HK_CTL, HK_CHEN, HK_STAT, HK_FAILED, HK_LIM_DIE, HK_LIM_ZONE, HK_FAIL, HK_SDCNT, HK_NTC, HK_VAL, HK_PD. -/
def hkRegs : List RegSpec := hkRegs0

def updRegs0 : List RegSpec := [
  ⟨0x110000, [], [⟨0, 8, .rw, .l, 0x3c, none, false⟩]⟩,
  ⟨0x110004, [], [⟨0, 2, .ro, .l, 0, none, false⟩, ⟨2, 1, .ro, .l, 0, none, false⟩, ⟨3, 1, .ro, .l, 0, none, false⟩, ⟨4, 2, .ro, .l, 0, none, false⟩, ⟨6, 1, .ro, .l, 0, none, false⟩, ⟨7, 1, .ro, .l, 0, none, false⟩, ⟨8, 1, .ro, .l, 0, none, false⟩, ⟨9, 2, .ro, .l, 0, none, false⟩]⟩,
  ⟨0x110008, [], [⟨0, 32, .ro, .l, 0, none, false⟩]⟩,
  ⟨0x11000c, [], [⟨0, 32, .rw, .l, 0, none, false⟩]⟩,
  ⟨0x110010, [], [⟨0, 32, .ro, .l, 0, none, false⟩]⟩,
  ⟨0x110020, [], [⟨0, 1, .ro, .l, 0, none, false⟩, ⟨1, 1, .ro, .l, 0, none, false⟩, ⟨2, 6, .ro, .l, 0, none, false⟩]⟩,
  ⟨0x110024, [], [⟨0, 1, .ro, .l, 0, none, false⟩, ⟨1, 1, .ro, .l, 0, none, false⟩, ⟨2, 6, .ro, .l, 0, none, false⟩]⟩,
  ⟨0x110028, [], [⟨0, 32, .ro, .l, 0, none, false⟩]⟩,
  ⟨0x11002c, [], [⟨0, 32, .ro, .l, 0, none, false⟩]⟩,
  ⟨0x110030, [], [⟨0, 1, .rw, .s, 0, none, false⟩, ⟨1, 1, .rw, .s, 0, none, false⟩]⟩,
  ⟨0x110040, [], [⟨12, 20, .rw, .q, 0, none, false⟩]⟩,
  ⟨0x110044, [], [⟨12, 20, .rw, .q, 0x2800, none, false⟩]⟩]

def updRegs1 : List RegSpec := [
  ⟨0x110060, [], [⟨0, 1, .ro, .l, 0, none, false⟩, ⟨8, 8, .ro, .l, 0x19, none, false⟩, ⟨16, 16, .ro, .l, 0, none, false⟩]⟩,
  ⟨0x110064, [], [⟨0, 16, .ro, .l, 0, none, false⟩, ⟨16, 3, .ro, .l, 0, none, false⟩]⟩]

/-- The registers of block 11h of R417, in address order: UPD_CTL, UPD_STAT, UPD_GEN, UPD_MFID, UPD_MFID_PREV, UPD_SLOTA, UPD_SLOTB, UPD_VERA, UPD_VERB, UPD_ACT, UPD_AREA0, UPD_AREA1, UPD_FLASH, UPD_LOADT. -/
def updRegs : List RegSpec := updRegs0 ++ updRegs1

def obsRegs0 : List RegSpec := [
  ⟨0x120000, [], [⟨0, 1, .rw, .l, 1, none, false⟩, ⟨1, 1, .rw, .l, 0, none, false⟩, ⟨2, 1, .wo, .l, 0, none, false⟩, ⟨3, 5, .rw, .l, 0x1e, none, false⟩]⟩,
  ⟨0x120004, [], [⟨0, 9, .rw, .l, 0, none, false⟩, ⟨16, 9, .rw, .l, 0x1ff, none, false⟩]⟩,
  ⟨0x120008, [], [⟨0, 12, .ro, .l, 0, none, true⟩, ⟨12, 1, .ro, .l, 0, none, true⟩, ⟨13, 1, .ro, .l, 0, none, true⟩, ⟨16, 16, .rc, .l, 0, none, true⟩]⟩,
  ⟨0x12000c, [], [⟨0, 2, .rw, .l, 0, none, false⟩]⟩,
  ⟨0x120010, [], [⟨0, 1, .wo, .l, 0, none, false⟩]⟩,
  ⟨0x120100, [(192, 4)], [⟨0, 9, .rw, .l, 0, none, false⟩, ⟨15, 1, .rw, .l, 0, none, false⟩]⟩,
  ⟨0x120800, [(256, 8)], [⟨0, 32, .ro, .l, 0, none, false⟩]⟩,
  ⟨0x120804, [(256, 8)], [⟨0, 16, .ro, .l, 0, none, false⟩]⟩]

/-- The registers of block 12h of R417, in address order: OBS_TCTL, OBS_TEVT, OBS_TSTAT, OBS_TPAGE, OBS_CCTL, OBS_CSEL, OBS_CNT_LO, OBS_CNT_HI. -/
def obsRegs : List RegSpec := obsRegs0
/-- The registers of the block that holds address `a` (R417: 64 KiB each; reserved ranges have none). -/
def blockRegs (a : Nat) : List RegSpec :=
  match a / 0x10000 with
  | 0 => sysRegs
  | 1 => ckgRegs
  | 2 => evcRegs
  | 3 => hifRegs
  | 4 => mcRegs
  | 5 => laneRegs
  | 6 => clRegs
  | 7 => wtRegs
  | 8 => xaRegs
  | 9 => niRegs
  | 10 => cmpRegs
  | 11 => pixRegs
  | 12 => calRegs
  | 13 => drvRegs
  | 14 => chkRegs
  | 15 => redRegs
  | 16 => hkRegs
  | 17 => updRegs
  | 18 => obsRegs
  | _ => []

/-- The register at byte address `a`; none at a reserved offset (R8). [log 6 DESIGN CHOICE] -/
def findReg (a : Nat) : Option RegSpec := (blockRegs a).find? fun r => r.hit a

end Sys2Proof.Machine
end

