-- ==== Sys2Proof/Machine/Table.lean ====
section
/-! DEFINITION. Machine/Table.lean: a sparse table, the one form in which registers, memories and indexed records are held:
pairs of an index and a value, indexes strictly rising, none equal to what an unlisted index reads as. -/
namespace Sys2Proof.Machine

/-- A sparse table of values by index. -/
abbrev Table (α : Type) := List (Nat × α)

/-- The value at index `k`; `d` where the table lists none. -/
def Table.get {α : Type} (d : α) (t : Table α) (k : Nat) : α :=
  match t with
  | [] => d
  | (j, v) :: r => if j = k then v else Table.get d r k

/-- The table with an entry put in its place; nothing is listed at `k` before. -/
def Table.insert {α : Type} (t : Table α) (k : Nat) (v : α) : Table α :=
  match t with
  | [] => [(k, v)]
  | (j, w) :: r => if j < k then (j, w) :: Table.insert r k v else (k, v) :: (j, w) :: r

/-- The table with `v` at index `k`; `d` is what an unlisted index `k` reads as. -/
def Table.set {α : Type} [DecidableEq α] (d : α) (t : Table α) (k : Nat) (v : α) : Table α :=
  if v = d then t.filter fun e => e.1 != k else Table.insert (t.filter fun e => e.1 != k) k v

/-- Every index of the table is above `k`, and indexes rise strictly. -/
def Table.risesAbove {α : Type} : Nat → Table α → Bool
  | _, [] => true
  | k, (j, _) :: r => decide (k < j) && Table.risesAbove j r

/-- Indexes rise strictly. -/
def Table.rises {α : Type} : Table α → Bool
  | [] => true
  | (j, _) :: r => Table.risesAbove j r

/-- The canonical form: indexes rise strictly and no entry equals what its index reads as when unlisted. -/
def Table.wf {α : Type} [DecidableEq α] (d : Nat → α) (t : Table α) : Bool :=
  Table.rises t && t.all fun p => p.2 != d p.1

/-- Write of consecutive indexes from `k`. -/
def Table.setMany {α : Type} [DecidableEq α] (d : α) (t : Table α) (k : Nat) : List α → Table α
  | [] => t
  | v :: vs => Table.setMany d (Table.set d t k v) (k + 1) vs

/-- Read of `n` consecutive indexes from `k`. -/
def Table.getMany {α : Type} (d : α) (t : Table α) (k n : Nat) : List α :=
  (List.range n).map fun i => Table.get d t (k + i)

/-- The table without the entries whose index lies in [lo, lo + n). -/
def Table.clear {α : Type} (t : Table α) (lo n : Nat) : Table α :=
  t.filter fun p => !(decide (lo ≤ p.1) && decide (p.1 < lo + n))

end Sys2Proof.Machine
end

