-- ==== Sys2Proof/Machine/State.lean ====
section
/-! DEFINITION. Machine/State.lean: the state of the MF9610: registers, the state the chapters give it beside its registers,
memories, pins' last levels, what it has sent, and the queue of commands that wait. Plain data throughout. -/
namespace Sys2Proof.Machine

/-- What stops the block with a fault: nothing. The spec gives every command an effect, or says that it is ignored, so the
type has no constructor (safe: no run ends in a fault). -/
inductive Fault
deriving DecidableEq, Repr

/-- Why a command has no meaning. -/
inductive Refusal where
  /-- Raised by an arm of `exec` whose meaning is not written; safe (the run stops). -/
  | notModelled (mnemonic : String)
deriving DecidableEq, Repr

/-- The roles of R1. -/
inductive Role | carriage | sender | standalone | reserved
deriving DecidableEq, Repr

/-- What is fixed from one release of PORST_N to the next: the ROLE and XO_DLY straps (R1, R357) and the identity and trim
set at production test (R9: SYS_UID, the factory trim code). -/
structure Strap where
  role : Role
  xoDly : Nat
  uid : Nat
  trim : Nat
deriving DecidableEq, Repr

/-- What the device has driven out of its balls or written into host memory, oldest first: the model's own record. -/
inductive Output where
  /-- A packet copy leaves a port (R64). -/
  | packet (port : Nat) (c : Copy)
  /-- A TRAIN group leaves a port (R48). -/
  | train (port : Nat) (group : List Byte)
  /-- An ALIGN pair with its pair count (R36). -/
  | align (port count : Nat)
  /-- The transmit clock of a port changed (R52, R53): 0 stopped, 1 the lane PLL, 2 + q the clock recovered by port q. -/
  | txClock (port source : Nat)
  /-- A FAULT block with its reason and position (R40, R56). -/
  | faultBlock (port reason pos : Nat)
  /-- A train of eight blocks: open (`true`) or closed IDLE (R78, R79). -/
  | idleTrain (port : Nat) (opened : Bool)
  /-- A Bugle run of four blocks, 32 bytes (R98). -/
  | bugle (port : Nat) (blocks : List Byte)
  /-- A Whistle block, 8 bytes (R282). -/
  | whistle (port : Nat) (block : List Byte)
  /-- A write into host memory (R301, R307, R326). -/
  | hostWrite (addr : Nat) (data : List Byte)
  /-- An MSI-X message of a vector (R330). -/
  | msix (vector : Nat)
  /-- An Ethernet frame leaves a network port (R156). -/
  | ethFrame (port : Nat) (data : List Byte)
  /-- Drive Link words on a port, 20 bits each: a command word and its data words, or IDLE words (R238). -/
  | dlWord (port : Nat) (words : List Nat)
  /-- DL_CLK of a port starts or stops (R237, R246). -/
  | dlClk (port : Nat) (on : Bool)
  /-- A DDR4 command of a channel, by the code the DRAM chapter's operations give it. -/
  | dram (ch code arg : Nat)
  /-- A level or value on a named pin: the pin number of `Config.Pin`. -/
  | pin (pin level : Nat)
  /-- A response frame of the Vodan port (R403). -/
  | vodan (data : List Byte)
  /-- A MIRROR packet leaves the mirror port: KIND, channel, MSEQ, ACK, ARG and the fields of its body (R273, R274). -/
  | mirror (kind ch mseq ack arg : Nat) (body : List Nat)
  /-- Bytes read through BAR2 (R301). -/
  | readBytes (data : List Byte)
  /-- A byte read on the PCI Express function: the answer to a host read (R300, R301). -/
  | readData (value : Nat)
deriving DecidableEq, Repr

/-! Events and observation (chapters *Event controller*, *Trace and counters*). -/

/-- The states of an event source (R328). -/
inductive SrcPhase | idle | queued | active | counting
deriving DecidableEq, Repr

/-- A source's state, its counter with the SAT mark, and the time and data of the first firing it counts (R326, R328). -/
structure Source where
  st : SrcPhase
  cnt : Nat
  sat : Bool
  time : Nat
  data : List Byte
deriving DecidableEq, Repr

/-- A source at reset. -/
def Source.init : Source := ⟨.idle, 0, false, 0, []⟩

/-- A record of R326 without its PHASE. -/
structure Record where
  source : Nat
  prio : Nat
  rhb : Nat
  remote : Bool
  sat : Bool
  count : Nat
  route : Nat
  time : Nat
  data : List Byte
deriving DecidableEq, Repr

/-- An entry of a target's stack (R331). -/
structure Claim where
  source : Nat
  prio : Nat
  remote : Bool
deriving DecidableEq, Repr

/-- A target: producer and consumer index, PHASE, the unreleased records, the stack (top first), the last eligibility,
the pending bit of its vector, and whether it has refused a record since it last had room (R327 to R334). -/
structure Target where
  prod : Nat
  cons : Nat
  phase : Bool
  queue : List Record
  stack : List Claim
  eligible : Bool
  vecPend : Bool
  refused : Bool
deriving DecidableEq, Repr

/-- A target at reset: PHASE 1, empty. -/
def Target.init : Target := ⟨0, 0, true, [], [], false, false, false⟩

/-- The event controller: source states of the host path and of the upward path (R336), targets, and the hold buffer of
remote records (R335) with the count lost since the last report. -/
structure Evc where
  src : Table Source
  up : Table Source
  tgt : Table Target
  hold : List Record
  lost : Nat
deriving DecidableEq, Repr

/-- A trace record of R410. -/
structure Trace where
  time : Nat
  cls : Nat
  item : Nat
  data : List Byte
deriving DecidableEq, Repr

/-- The OBS block: the 64 KiB buffer by record index, the write pointer, WRAPPED and FULL, the records entering in this
core clock (R411), records lost since the last report, and the counters (R414). -/
structure Obs where
  buf : Table Trace
  wptr : Nat
  wrapped : Bool
  full : Bool
  entering : List Trace
  lost : Nat
  lostCnt : Nat
  cnt : Table Nat
deriving DecidableEq, Repr

/-! Coachline (chapters *Coachline: lanes, blocks and bring-up*, *Coachline: packets, slots and the two-way ring*). -/

/-- A port beside its registers: round-trip samples of the TRAIN exchange, whether a good group was seen, the partner's
latest stamp, the ECHO samples and the mean that
waits for a second one, whether the stream it receives is being forwarded inside a packet or run where a command says so, whether its
transmitter sends filler, free trains still to pass, feed loss, ALIGN pairs sent, whether its direction is refused (R49), whether its
filler has opened a train that is not used yet (R82), the next train of a ring end's grid and the block after the last one sent (R78). -/
structure Port where
  samples : List Nat
  goodGroup : Bool
  lastStamp : Option Nat
  echo : List Nat
  candidate : Option Nat
  inPacket : Option Bool
  filler : Bool
  gapLeft : Nat
  feedLost : Bool
  alignCount : Nat
  dirRefused : Bool
  trainOwed : Bool
  trainK : Nat
  trainEnd : Option Nat
deriving DecidableEq, Repr

/-- A port at reset. -/
def Port.init : Port := ⟨[], false, none, [], none, none, false, 0, false, 0, false, false, 0, none⟩

/-- A merge window: the newest SEQ and the SEQs marked at or below it (R73, R74). -/
structure Window where
  newest : Option Nat
  marks : List Nat
deriving DecidableEq, Repr

/-- An empty window. -/
def Window.empty : Window := ⟨none, []⟩

/-- An accepted control packet with whether it executes with a gap before it (R75). -/
structure Ready where
  pkt : Copy
  gap : Bool
deriving DecidableEq, Repr

/-- An upward packet accepted at a ring end: its ring and the packet (R74). -/
structure UpPkt where
  ring : Nat
  pkt : Copy
deriving DecidableEq, Repr

/-- An entry of the outbound queue: class and priority of R81, the packet, the copies still owed, the event source it
reports (R336), whether a coach relays it (R28), and the number by which the queue knows it. -/
structure OutPkt where
  cls : Nat
  prio : Nat
  pkt : Copy
  owedE : Bool
  owedW : Bool
  src : Option Nat
  relay : Bool := false
  id : Nat := 0
deriving DecidableEq, Repr

/-- Coachline beside the ports: the downward window, accepted packets held for order, the last SEQ executed, packets
ready to execute, PIXEL packets ready, upward windows by ring and position, upward packets ready, the outbound queue with
the packets that wait for an entry and whether a refusal was reported in this spell, the upward SEQ
counter, the number of the next entry, SEQs seen that have left the downward window and lie above the last executed, the R24 case for which a position was refused, the rings whose table is due, whether a ring table is held. -/
structure Ring where
  down : Window
  held : List Copy
  last : Option Nat
  ready : List Ready
  pixels : List Copy
  ups : Table Window
  upReady : List UpPkt
  outq : List OutPkt
  waiting : List OutPkt
  fullTold : Bool
  hiwater : Nat
  refused : Nat
  upSeq : Nat
  outId : Nat
  seenOut : List Nat
  posCase : Nat
  tableDue : List Nat
  tableHeld : Bool
deriving DecidableEq, Repr

/-- A 66-bit block on a lane: its sync header and its 64 payload bits as they are sent, scrambled (R38, R42). -/
structure LineBlock where
  lane : Nat
  header : BitVec 2
  payload : BitVec 64
deriving DecidableEq, Repr

/-- Every scrambler's state after reset (R42). -/
def scramSeed : BitVec 58 := 0x3FFFFFFFFFFFFFF

/-- The line side of the lanes: the scrambler of each lane's transmitter (R42), the index of each port's next stream block modulo 2
(R36), and the blocks the commands have sent, oldest first: the model's own record. -/
structure Line where
  scram : Table (BitVec 58)
  index : Table Nat
  sent : List LineBlock
deriving DecidableEq, Repr
/-! Wall time (chapter *Wall time, Bugle marks and frame lock*). -/

/-- The parameters of an intact mark: those of the first copy, the fence that the earliest copy of each direction predicts
in local ps (eastbound or mirror link; westbound), whether the shadow bank was ready when the first copy came, and whether
the other direction's copy is to be used (R103, R136). -/
structure Mark where
  frame : Nat
  flip : Nat
  rate : Nat
  lead : Nat
  flags : Nat
  commit : Nat
  rep : Nat
  fenceE : Option Nat
  fenceW : Option Nat
  bankReady : Bool
  other : Bool
deriving DecidableEq, Repr

/-- A ring generator: whether it has started, the count n of its next frame, the count of the frame whose mark is being sent
with the copy to send next and the FLAGS, LEAD, COMMIT and REPEAT its copies share, the rate in force, a rate that comes into
force at a fence count (R95, R96, R100, R135), the change of numbers that the marks have made and the fences have not (the last
old count and the first new one), and its last fence in local ps. -/
structure Gen where
  started : Bool
  next : Nat
  mark : Nat
  markRate : Nat
  copy : Nat
  flags : Nat
  lead : Nat
  commit : Nat
  rep : Nat
  rate : Nat
  newRate : Option (Nat × Nat)
  turned : Option (Nat × Nat)
  lastFence : Nat
deriving DecidableEq, Repr

/-- A generator at reset. -/
def Gen.init : Gen := ⟨false, 0, 0, 0x24, 0, 0, 0, 0, 0, 0x24, none, none, 0⟩

/-- The follower of R103 to R108: pending marks, the last fence in local ps with its frame and FLIP, the last locked
intervals (newest first), the direction to change to, FRAME shown, the mark taken at the last fence, and the first intact copies
of the last frames heard, newest last (R103, R104). -/
structure Follower where
  marks : List Mark
  lastFence : Nat
  lastFrame : Nat
  lastFlip : Nat
  shown : Bool
  intervals : List Nat
  dirNext : Option Nat
  taken : Option Mark
  seen : List Mark
  noUpFrames : Nat
deriving DecidableEq, Repr

/-- Wall time: the PTP clock in units of 2^-28 ns, the increment in force, an increment and a step that wait for the next
wall tick, whether FREERUN came from the watchdog, EVT_IN records not yet taken per pin, generators, the follower, the
coach's marks by ring, and the pair offset. -/
structure Wt where
  ptp : Nat
  inc : Nat
  incNext : Option Nat
  stepLo : Nat
  stepNext : Option Int
  wdFree : Bool
  evtin : Table Nat
  gens : Table Gen
  fol : Follower
  coach : Table Mark
  slew : Int
deriving DecidableEq, Repr

/-! Wall transactions (chapter *Wall transactions*). -/

/-- A write held in a shadow or staged: register address, the bits written and their values (R10, R115). -/
structure SWrite where
  addr : Nat
  mask : Nat
  value : Nat
deriving DecidableEq, Repr

/-- A destination of a transaction: route, RHB, the entries (address, data) as they were read, OPS, SLOT, and the host address and count of
its entry lists, which are read while the prepares are sent (R120). -/
structure XaDest where
  route : Nat
  rhb : Nat
  entries : List (Nat × Nat)
  ops : Nat
  slot : Nat
  lists : List (Nat × Nat)
deriving DecidableEq, Repr

/-- An expected voter: ring, position, entries sent to it, its vote (READY or REFUSE with reason), its result (R126, R132). -/
structure Voter where
  ring : Nat
  pos : Nat
  entries : Nat
  vote : Option Bool
  result : Option Nat
deriving DecidableEq, Repr

/-- The states of R119. -/
inductive XidSt | free | building | preparing | voting | fired | aborted
deriving DecidableEq, Repr

/-- A transaction of the ring end: state, abort reason, destinations, target in frames of the reference ring, reference
ring, touched rings with their targets, deadline in wall ns, voters, epoch at the prepare, whether a vote of another epoch
came, whether a prepare was sent, the job of its completion, parent XID, AUTO with its RATE, route of
the first offender or late report, decision sent to the standby, aborted while BUILDING; of a coach's sub-transaction
the coach's own result (0 none yet, 5 reported) and the parent frame of it (R132), the parent frame whose mark fired it (R129), and whether the member that decides has found it ready. -/
structure Xid where
  st : XidSt
  reason : Nat
  dests : List XaDest
  target : Nat
  refRing : Nat
  rings : List (Nat × Nat)
  deadline : Nat
  voters : List Voter
  epoch : Nat
  otherEpoch : Bool
  sent : Bool
  completion : Option Nat
  parent : Option Nat
  auto : Bool
  rate : Nat
  offender : Nat
  offRhb : Nat
  offCode : Nat
  asked : Bool
  early : Bool
  subRes : Nat
  subFrame : Nat
  fireFrame : Option Nat
  ready : Bool
deriving DecidableEq, Repr

/-- A transaction that is FREE. -/
def Xid.init : Xid := ⟨.free, 0, [], 0, 0, [], 0, [], 0, false, false, none, none, false, 0, 0, 0, 0, false, false, 0, 0, none, false⟩

/-- A follower's use of an XID: epoch, target, P1 of the first part, parts by destination route
with NPARTS, staged entries in staging order, whether its close was executed, whether it voted and whether it refused,
whether parts disagreed, whether the limit of 512 entries was passed, the end of its window (R124, R130), the sub-XID of a coach, entries passed
down, the rings they go to, whether a part found no FREE sub-XID, so that the coach does not vote. -/
structure Use where
  epoch : Nat
  target : Nat
  ops : Nat
  slot : Nat
  rate : Nat
  dlead : Nat
  parts : List (Nat × Nat × List Nat)
  entries : List (Nat × Nat)
  closed : Bool
  voted : Bool
  refused : Bool
  badParts : Bool
  full : Bool
  windowEnd : Nat
  sub : Option Nat
  down : Nat
  into : List Nat
  mute : Bool
deriving DecidableEq, Repr

/-- The XA unit: transactions of the ring end, uses of the follower, automatic RATE changes waiting for a FREE XID
(ring, rate). -/
structure Xa where
  xids : Table Xid
  uses : Table (Option Use)
  autoWait : List (Nat × Nat)
deriving DecidableEq, Repr

/-- Local commits: the open set, the closed set per write with the blocks still to take it over, and the local time of
the closing write (R115, R116). -/
structure Commit where
  opened : List SWrite
  closed : List SWrite
  closedAt : Nat
deriving DecidableEq, Repr

/-! The host interface (chapter *Host interface and descriptor rings*). -/

/-- A consumed descriptor without its record (R305): its number, command ring and index, its 64 bytes, whether its own
command has run it, replies received, the worst reply with its route and RHB, words of a read, replies without room, part
replies with RSP 04h, missing replies, data of a TABLE_LOAD still to send, parts sent, whether any reply came. -/
structure Job where
  id : Nat
  ring : Nat
  index : Nat
  bytes : List Byte
  ran : Bool
  count : Nat
  rsp : Nat
  rspRoute : Nat
  rspRhb : Nat
  words : List Nat
  ovr : Nat
  gaps : Nat
  missing : Nat
  lost : Bool
  data : List Byte
  parts : Nat
  answered : Bool
deriving DecidableEq, Repr

/-- A request packet that waits for replies (R313): its job, Coachline ring, TAG, route and RHB, and the positions that owe a
reply, none where they are not known. -/
structure Request where
  job : Nat
  ring : Nat
  tag : Nat
  route : Nat
  rhb : Nat
  owed : Option (List Nat)
deriving DecidableEq, Repr

/-- HIF beside its registers: jobs and requests, the next job number, records written and not released per ring, heads that
wait, the mask of rings with records not yet reported, the function reset that waits for the link, and the DRAM base of
BAR2 in force. -/
structure Hif where
  jobs : List Job
  reqs : List Request
  nextId : Nat
  unreleased : Table Nat
  heads : Table (List Byte)
  dirty : Nat
  flrDue : Bool
deriving DecidableEq, Repr

/-! The sender pair (chapter *The sender pair*). -/

/-- An item of a mirror channel: KIND, MSEQ, ARG and its body as a list of fields (R273, R274). -/
structure MItem where
  kind : Nat
  mseq : Nat
  arg : Nat
  body : List Nat
deriving DecidableEq, Repr

/-- A mirror channel: items not acknowledged, items that wait for room, the next MSEQ to send and the next expected. -/
structure Chan where
  unacked : List MItem
  waiting : List MItem
  next : Nat
  rx : Nat
deriving DecidableEq, Repr

/-- A lease heard in a Whistle, with the local time (R285). -/
structure Heard where
  epoch : Nat
  home : Bool
  time : Nat
deriving DecidableEq, Repr

/-- A ring of the pair: whether the holder's Whistle was heard on the mirror link within MIRROR_TIMEOUT, whether the holder
is home, the content last sent, DOWN packets and control SEQs waiting for their turn, the SEQ up to which SEQMARKs cover,
own PIXEL packets that wait for a SEQ, own PIXEL SEQs with their CRC plus one, control SEQs not yet marked, whether the
24,576 jump was made, whether the member has originated on the ring, the epoch it held or copied last, when the partner's
Whistle last came at its end. -/
structure Lease where
  heard : Bool
  holderHome : Bool
  sent : Nat
  down : List Copy
  ctrl : List Nat
  mark : Nat
  waitPix : List Copy
  pix : Table Nat
  unmarked : List Nat
  jumped : Bool
  originated : Bool
  epoch : Nat
  relayAt : Option Nat
deriving DecidableEq, Repr

/-- A ring's lease state at reset. -/
def Lease.init : Lease := ⟨false, false, 0, [], [], 0, [], [], [], false, false, 0, none⟩

/-- A granted change of lease: ring mask, the fence, and whether this member takes (R289). -/
structure Grant where
  mask : Nat
  fence : Nat
  take : Bool
deriving DecidableEq, Repr

/-- The pair: channels U and S, rings, the partner's HOME, MIRROR_UP and HEALTHY of its last Whistle, whether its mirror
Whistles are present, a claim sent, a claim received that waits, a granted change, rings given away whose new holder is not yet heard, questions to the standby that wait for ACKK (KIND,
MSEQ, XID or job), synced since reset, the resync role with
its fence, received items and the mirrored writes that came behind them, rings whose Whistle from the partner is awaited before the roles of a resync are known,
whether the member was the target of a resync, the time since which the member is healthy, the carriage's heard leases by direction; of a coach pair, packets from above that came while the partner held the ring, and packets the
partner has sent that have not come here yet (R29). -/
structure Pair where
  chU : Chan
  chS : Chan
  lease : Table Lease
  partnerHome : Option Bool
  partnerUp : Bool
  partnerHealthy : Bool
  partnerHere : Bool
  claimSent : Option (Nat × Nat)
  claimHeld : Option (Nat × Nat)
  grant : Option Grant
  given : Nat
  owed : List (Nat × Nat × Nat)
  everSynced : Bool
  syncSource : Option Nat
  syncFence : Option Nat
  syncItems : List SyncItem
  syncWrites : List (Nat × Nat)
  syncStart : Nat
  healthySince : Option Nat
  wasUp : Bool
  heardE : Option Heard
  heardW : Option Heard
  syncWait : Option Nat
  wasTarget : Bool
  downSeen : List Copy
  downTold : List Copy
deriving DecidableEq, Repr
/-! DDR4 (chapter *DDR4 memory controller*). -/

/-- A channel beside its registers: whether it was trained since the last reset, refreshes since the last ZQCS, whether a mode
asks it to stay in self-refresh, whether the 95 °C episode stands, corrections since the last report, the recentring step,
the patrol's next channel address, the rate of the change in hand. -/
structure DramChan where
  trained : Bool
  refs : Nat
  asked : Bool
  hot : Bool
  ces : Nat
  recal : Nat
  patrol : Nat
  newRate : Nat
deriving DecidableEq, Repr

def DramChan.init : DramChan := ⟨false, 0, false, false, 0, 0, 0, 0⟩

/-- DRAM: its bytes by device address (an unlisted byte reads 0: R351's zero fill), the pairs of beats (device address / 8)
that read as uncorrectable with their cause (R343, R344), the channels. -/
structure Dram where
  mem : Table Byte
  bad : Table Nat
  ch : Table DramChan
deriving DecidableEq, Repr
/-! Network ingest (chapter *Network ingest in the sender*). -/

/-- An open frame of a flow: media time, buffer (none: R151 found none), pgroups written per line as a bit mask, whether its
marker packet came. -/
structure OpenFrame where
  media : Nat
  buf : Option Nat
  cover : Table Nat
  marker : Bool
deriving DecidableEq, Repr

/-- A closed frame that waits for the partner (R152): its incomplete lines, the partner's, whether it will be published, the
repair lines still to come. -/
structure PairFrame where
  media : Nat
  buf : Option Nat
  missing : List Nat
  theirs : Option (List Nat)
  alone : Bool
  wait : List Nat
deriving DecidableEq, Repr

/-- A flow: open frames (oldest first), frames that wait for the partner, close reports that came before the own close, the
merge record of R148 (newest number, marked numbers), media time of the last frame closed, the buffer last taken, the
buffer published before the latest with its media time (R168), frames of a group ready to publish (media, buffer), whether leg A and leg B
have been down for LOSS_TIME (R145), and, in the leader of a group, the last media times that the group dropped (R154). -/
structure Flow where
  opens : List OpenFrame
  closing : List PairFrame
  early : List (Nat × List Nat)
  newest : Option Nat
  marks : List Nat
  lastClosed : Option Nat
  lastBuf : Nat
  prev : Option (Nat × Nat)
  ready : List (Nat × Nat)
  longA : Bool
  longB : Bool
  dropped : List Nat
deriving DecidableEq, Repr

def Flow.init : Flow := ⟨[], [], [], none, [], none, 7, none, [], true, true, []⟩

/-- NI: flows, posted receive descriptors (address, length), posted transmit descriptors, the 1 ms window of LIMIT with its
bits, completions of HRX and HTX not yet told. -/
structure Ni where
  flows : Table Flow
  hrx : List (Nat × Nat)
  htx : List (List Byte)
  limWin : Nat
  limBits : Nat
  hrxDirty : Bool
  htxDirty : Bool
deriving DecidableEq, Repr

/-! Composition (chapter *Composition, mapping and ring timing*). -/

/-- A seal: rectangle within the crop and expected CRC (R170). -/
structure Seal where
  x : Nat
  y : Nat
  w : Nat
  h : Nat
  crc : Nat
deriving DecidableEq, Repr

/-- A layer: the on-chip copy of its record ([]: never read), whether the record is to be read now, at the next fence; the
graphics buffer in force and its seal, whether a seal failure blanks it; the flow whose buffer it holds; whether it is
transparent in the open window; whether the window waits for the partner's choice; seal failures found in the buffer in force. -/
structure CLayer where
  copy : List Byte
  due : Bool
  retry : Bool
  gbuf : Option Nat
  rect : Option Seal
  sealBad : Bool
  heldFlow : Nat
  blank : Bool
  waits : Bool
  fails : Nat
deriving DecidableEq, Repr

def CLayer.init : CLayer := ⟨[], false, false, none, none, false, 0, false, false, 0⟩

/-- A LAYER_FLIP not yet completed: its job (none: the standby's copy), whether the partner's ACKK came, layer, buffer, seal, T on the reference ring, LATE, rings with their frame still
to apply, rings applied with the buffer replaced, seal failures found in replaced buffers. -/
structure Flip where
  job : Option Nat
  acked : Bool
  layer : Nat
  buf : Nat
  rect : Option Seal
  frame : Nat
  late : Bool
  rings : List (Nat × Nat)
  applied : List (Nat × Option Nat)
  fails : Nat
deriving DecidableEq, Repr

/-- A seal check not yet ended: ring, layer, frame, buffer, first byte, row pitch, bytes a row, rows, expected CRC. -/
structure SealRun where
  ring : Nat
  layer : Nat
  frame : Nat
  buf : Nat
  start : Nat
  pitch : Nat
  bytes : Nat
  rows : Nat
  crc : Nat
deriving DecidableEq, Repr

/-- A send window: open, its frame, the round, position index and pixel of the next segment, whether the check-value packets
are being sent, SEGSEQ by position, running band CRCs (position × 8 + band), positions disabled for the frame,
residue mismatches. -/
structure SendWin where
  isOpen : Bool
  frame : Nat
  round : Nat
  pos : Nat
  x : Nat
  checks : Bool
  seq : Table Nat
  bands : Table Nat
  dead : List Nat
  residue : Nat
deriving DecidableEq, Repr

def SendWin.init : SendWin := ⟨false, 0, 0, 0, 0, false, [], [], [], 0⟩

/-- A MAP_LOAD that waits for its frame. -/
structure MapLoad where
  ring : Nat
  frame : Nat
  late : Bool
  job : Option Nat
  acked : Bool
  table : List Byte
deriving DecidableEq, Repr

/-- The drawbar receiver of R169: the frame and buffer being filled, its segments by SEGSEQ with the pixels each covered
(line, X, COUNT), the count LAST gave and the last one given, frames received (frame, buffer, the parent flip from which it shows,
FMT), the FMT of the frame being filled. -/
structure Drawbar where
  frame : Nat
  fill : Nat
  segs : List (Nat × Nat × Nat × Nat)
  total : Option Nat
  lastTotal : Nat
  shown : List (Nat × Nat × Nat × Nat)
  fmt : Nat
deriving DecidableEq, Repr

/-- CMP: layers (ring × 16 + layer), those whose registers were taken over and are not judged yet, ring record copies, the rings whose
record is to be read now and those at the next fence, send windows, maps in force
and loads that wait, flips, seal checks, choices reported by the active (ring, layer, frame, media), band digests of the
frame last closed, own and the partner's (ring, frame, digest), the rings that differed when compared last, the frame whose digests come now with the rings
compared or missed in it, whether any was compared and whether one differed (R268), frames in a row that matched, the drawbar. -/
structure Cmp where
  layers : Table CLayer
  ringRec : Table (List Byte)
  taken : List Nat
  ringDue : Nat
  ringRetry : Nat
  win : Table SendWin
  maps : Table (List Byte)
  loads : List MapLoad
  flips : List Flip
  seals : List SealRun
  samples : List (Nat × Nat × Nat × Nat)
  digests : List (Nat × Nat × Nat)
  theirs : List (Nat × Nat × Nat)
  differed : Nat
  digFrame : Nat
  digSeen : Nat
  digCompared : Bool
  digDiff : Bool
  matched : Nat
  db : Drawbar
deriving DecidableEq, Repr

/-! The carriage pixel pipeline (chapter *The carriage pixel pipeline and lamp store*). -/

/-- A lamp bank: whether an unlisted entry reads as the identity of R215 (else 0), the entries, those that read as
uncorrectable. -/
structure Bank where
  ident : Bool
  ent : Table Nat
  bad : Table Nat
deriving DecidableEq, Repr

/-- A segment of the fill frame: line, first pixel, COUNT, whether it was compared and not written. -/
structure Seg where
  seq : Nat
  line : Nat
  x : Nat
  count : Nat
  same : Bool
deriving DecidableEq, Repr

/-- What is fixed for a frame at its fence (R187): its number, THR, AMB, groups forced and blanked, masked lamps, whether
every lamp is sent 0, DRAM addresses of the picture and of the one shown before (the same for a safe frame), pixels that were
uncorrectable in the latter where spans were taken from it. -/
structure Readout where
  frame : Nat
  thr : Nat
  amb : Nat
  forced : Nat
  blanked : Nat
  masks : List Nat
  dark : Bool
  src : Nat
  prev : Nat
  ue : Nat
deriving DecidableEq, Repr

/-- PIX beside its registers: banks, the held word +0 of a window by access path (its address and value), shadow entries written since the
last swap (all, or listed), corrections since the last report; the fill frame, its segments, the segment count LAST gave and
that of the frame before, FMT, whether it differs from the record; content CRCs by SEGSEQ plus one, count and FMT of the
recorded frame; reports already made for the fill frame; the check-value packet's CRCs; the readout in hand; segments of the
wake buffer; whether the last readout substituted or met an uncorrectable error; what happened since the last fence that
breaks steadiness; whether a wake's frame is still to be read out; a SWAP that waits; the latest changes of the readiness that a
request for a swap samples, with their times, newest first; whether the lamps wait for the INIT pass; array entries that read as
uncorrectable. -/
structure Pix where
  bankA : Bank
  bankB : Bank
  held : Table (Nat × Nat)
  wroteAll : Bool
  wrote : Table Nat
  ces : Nat
  fillFrame : Option Nat
  segs : List Seg
  total : Option Nat
  lastTotal : Nat
  fmt : Option Nat
  differs : Bool
  crcs : Table Nat
  recFmt : Nat
  geomTold : Bool
  aheadTold : Bool
  expect : Option (List Nat)
  reading : Option Readout
  shown : Nat
  wakeBuf : List Copy
  faulty : Bool
  changed : Bool
  woke : Bool
  swapAsk : Bool
  readyLog : List (Nat × Bool)
  initWait : Bool
  lutBad : Table Nat
  tmatBad : Nat
  crcBad : Table Nat
deriving DecidableEq, Repr

/-- CHK of a carriage: the read-back pass (frame, expected CRCs, bands with a missing segment), rectangles checked or skipped
at the last readout, whether the last frame read out met the fourth condition of
R203, whether the frame in hand is comparable. -/
structure Chk where
  pass : Option (Nat × Option (List Nat) × Nat)
  judged : Nat
  clean : Bool
  comparable : Bool
deriving DecidableEq, Repr

/-! Lamp drive (chapter *Lamp drive: Drive Link, lamp rail and legend groups*). -/

/-- The rail: set point in µV, the compensator's acc, e1, e2 and duty, periods over the limit in a row, the law's
last rise, good and run, whether DRV_RAIL_MAX and DRV_RAIL_UV stand reported, sums of the subframe with their count. -/
structure Rail where
  vref : Nat
  acc : Int
  e1 : Int
  e2 : Int
  duty : Nat
  ovr : Nat
  lastRise : Option Nat
  good : Bool
  run : Nat
  maxTold : Bool
  uvTold : Bool
  sumV : Nat
  sumI : Nat
  n : Nat
  headMin : Nat
deriving DecidableEq, Repr

/-- DRV beside its registers: devices that answered enumeration by port, devices with a pending fault entry, misses in a row by
device, devices asked since the fence by port, the device asked in the slot by port with whether by FREAD (plus one), the next
STAT position by port; an enumeration that waits for light; whether DRV_MASK_FULL stands reported; subframe and scan line of
the next slot; the sample of the gap in hand with whether it is lit; LINE_T and LIGHT_DLY in force (0: as written); values that come
into force at the next light instant and whether CONFIG has told them; whether every WLOAD of the subframe's gap went out; THR of the frame shown and of the frame of the last fence; the rail. -/
structure Drv where
  answered : Table Nat
  pend : Table Nat
  misses : Table Nat
  asked : Table Nat
  request : Table Nat
  next : Table Nat
  enumDue : Bool
  maskTold : Bool
  frame : Nat
  sub : Nat
  sc : Nat
  gapSample : Option (Nat × Bool)
  lineT : Nat
  lightDly : Nat
  adapt : Option (Nat × Nat)
  adaptTold : Bool
  wloaded : Bool
  thr : Nat
  thrNext : Nat
  rail : Rail
deriving DecidableEq, Repr

/-! Self-calibration (chapter *Temperature sets, self-calibration and the colour loop*). -/

/-- CAL beside its registers: temperatures (16 bits) by zone of the latest pass and of the last completed pass, whether a pass
has completed since the load, whether a pass is due (after a load, KICK or a change of mode), whether the next pass is an INIT
pass, whether a rejected pass waits for RETRY, whether the live bank is to be copied after an INIT swap, zones substituted,
zones out of range (bit z below, bit 8 + z above); the latest dark codes by input, the next gap of the sequence in hand with its
differences by input, the sums of lit minus dark by input and the sequences gathered; gains that wait for the fence; a capture (0
none, 1 waiting for its fence, 2 gathering); RESET_G and AMB_EN = 0 that wait for the fence; sensors excluded; witness lamps masked or DARK at the last fence; when THR
returned to 16; whether AMB moves; gain limits reached (bit 2k + side); whether the loop holds; rounds in a row with VREF_EXT
in its window. -/
structure Cal where
  theta : Table Nat
  done : Table Nat
  everDone : Bool
  due : Bool
  init : Bool
  retry : Bool
  copyAfter : Bool
  subst : Nat
  range : Nat
  dark : Table Nat
  gap : Nat
  diff : Table Int
  sums : Table Int
  seqs : Nat
  newG : Option (List Nat)
  capture : Nat
  resetG : Bool
  ambOff : Bool
  lost : Nat
  witOff : List Nat
  thrBack : Option Nat
  ambMove : Bool
  limTold : Nat
  held : Bool
  vrefRun : Nat
deriving DecidableEq, Repr

/-! Housekeeping (chapter *Housekeeping and thermal management*). -/

/-- HK beside its registers: a round in hand, bad and good rounds in a row by channel, the last good value, supplies outside
their range by channel (rounds in a row), time of the last THR change, whether the restart wait runs. -/
structure Hk where
  running : Bool
  bad : Table Nat
  ok : Table Nat
  good : Table Nat
  supply : Table Nat
  thrAt : Option Nat
  restart : Bool
deriving DecidableEq, Repr

/-! Clocks, modes, images (chapters *Clocks, power and operating modes*, *Images, start-up loading and field update*). -/

/-- The mode engine and clocks beside their registers: the transition in hand (mode, cause), the request it serves, whether that
request's result is still to be told, a request that waits; start-up under way with the cause of its entry; a request of the
PRELOAD list; the wake latched; units powered off in SENTRY; whether a SENTRY exit re-applies PRELOAD; Reed restarting; Reed once
trimmed; a CODE that waits for a fence; source in use by PLL (0 Reed, 1 crystal, 2 lane reference, 3 none yet), PLLs on the Reed
path, PLLs held stopped with the time since; the ramp step of the core divider; droop responses since the last report; units whose
gate waits and units closed; whether a reset is held (1 PORST_N, 2 WRST_N); local time plus one of the entry a fault made last and of
the last mode request (0 none; R371 sets them side by side). -/
structure Sys where
  going : Option (Nat × Nat)
  after : Option (Nat × Nat)
  waiting : Option Nat
  starting : Option Nat
  preloadReq : Option Nat
  wake : Option Nat
  off : Nat
  reedRestart : Bool
  reedTrimmed : Bool
  codeNext : Option Nat
  pllSrc : Table Nat
  path : Nat
  stopped : Table Nat
  ramp : Nat
  droops : Nat
  faultAt : Nat
  askedAt : Nat
  gates : Nat
  closed : Nat
  low : Nat
deriving DecidableEq, Repr

def Sys.init : Sys :=
  { going := none, after := none, waiting := none, starting := none, preloadReq := none, wake := none, off := 0, reedRestart := false,
    reedTrimmed := false, codeNext := none, pllSrc := [], path := 0, stopped := [], ramp := 3, droops := 0, faultAt := 0, askedAt := 0, gates := 0, closed := 0, low := 0 }

/-- An update session (R396 to R399): from the Vodan port, its number, slot, TOTAL, next offset, the last DATA accepted (offset,
length), bytes of the slot erased so far, the DETAIL of an erase or program failure, accepted bytes not yet programmed. -/
structure Session where
  vodan : Bool
  number : Nat
  slot : Nat
  total : Nat
  next : Nat
  last : Option (Nat × Nat)
  erased : Nat
  fail : Option Nat
  buffer : List Byte
deriving DecidableEq, Repr

/-- UPD beside its registers: the flash (an unlisted byte reads FFh: erased), the open session, the closed session under
verification, the result of the last verification (session number, slot, STATUS, DETAIL), activation entries to be programmed
(slot, MFID), whether an activation of this fence waits to abandon the blend, the response frame that waits on the Vodan port, and whether
its SVC_ATTN_N waits for the core that the request woke. -/
structure Upd where
  flash : Table Byte
  session : Option Session
  verifying : Option Session
  result : Option (Nat × Nat × Nat × Nat)
  entries : List (Nat × Nat)
  abandon : Bool
  reply : List Byte
  attnDue : Bool
deriving DecidableEq, Repr

/-- The test port (chapter *Balls, electrical characteristics and ordering*): the instruction in force and the data register. -/
inductive TapInstr | bypass | idcode | samplePreload | extest | clamp | highz
deriving DecidableEq, Repr

structure Tap where
  ir : TapInstr
  dr : Nat
  boundary : Nat
deriving DecidableEq, Repr

/-- The whole device. -/
structure State where
  strap : Strap
  now : Nat
  regs : Table Word
  latch : Table Nat
  lastAt : Table Nat
  commit : Commit
  evc : Evc
  obs : Obs
  ports : Table Port
  line : Line
  ring : Ring
  wt : Wt
  xa : Xa
  hif : Hif
  dram : Dram
  pair : Pair
  ni : Ni
  cmp : Cmp
  pix : Pix
  chk : Chk
  drv : Drv
  cal : Cal
  hk : Hk
  sys : Sys
  upd : Upd
  tap : Tap
  free : Nat
  out : List Output
  pending : List Instr
deriving DecidableEq, Repr

/-- The lamp rail at reset. -/
def Rail.init : Rail :=
  { vref := 0, acc := 0, e1 := 0, e2 := 0, duty := 0, ovr := 0, lastRise := none, good := true, run := 0, maxTold := false,
    uvTold := false, sumV := 0, sumI := 0, n := 0, headMin := 0 }

/-- The OBS block as PORST_N leaves it (R413, R414). -/
def Obs.init : Obs :=
  { buf := [], wptr := 0, wrapped := false, full := false, entering := [], lost := 0, lostCnt := 0, cnt := [] }

/-- A lamp bank at reset: every entry 0. -/
def Bank.init : Bank := { ident := false, ent := [], bad := [] }

/-- The device with every field at its reset value (R9): what a release of PORST_N leaves, with the straps and the flash it has. -/
def State.fresh (st : Strap) (flash : Table Byte) : State :=
  { strap := st, now := 0, regs := [], latch := [], lastAt := [],
    commit := { opened := [], closed := [], closedAt := 0 },
    evc := { src := [], up := [], tgt := [], hold := [], lost := 0 },
    obs := Obs.init, ports := [], line := { scram := [], index := [], sent := [] },
    ring := { down := Window.empty, held := [], last := none, ready := [], pixels := [], ups := [], upReady := [], outq := [], waiting := [],
              fullTold := false, hiwater := 0, refused := 0, upSeq := 0, outId := 0, seenOut := [], posCase := 0, tableDue := [], tableHeld := false },
    wt := { ptp := 0, inc := 0x40000000, incNext := none, stepLo := 0, stepNext := none, wdFree := false, evtin := [], gens := [],
            fol := { marks := [], lastFence := 0, lastFrame := 0, lastFlip := 0, shown := false, intervals := [], dirNext := none, taken := none, seen := [], noUpFrames := 0 },
            coach := [], slew := 0 },
    xa := { xids := [], uses := [], autoWait := [] },
    hif := { jobs := [], reqs := [], nextId := 0, unreleased := [], heads := [], dirty := 0, flrDue := false },
    dram := { mem := [], bad := [], ch := [] },
    pair := { chU := ⟨[], [], 0, 0⟩, chS := ⟨[], [], 0, 0⟩, lease := [], partnerHome := none, partnerUp := false, partnerHealthy := false,
              partnerHere := false, claimSent := none, claimHeld := none, grant := none, given := 0, owed := [], everSynced := false,
              syncSource := none, syncFence := none, syncItems := [], syncWrites := [], syncStart := 0, healthySince := none, wasUp := false, heardE := none, heardW := none, syncWait := none, wasTarget := false, downSeen := [], downTold := [] },
    ni := { flows := [], hrx := [], htx := [], limWin := 0, limBits := 0, hrxDirty := false, htxDirty := false },
    cmp := { layers := [], ringRec := [], taken := [], ringDue := 0, ringRetry := 0, win := [], maps := [], loads := [], flips := [], seals := [], samples := [], digests := [],
             theirs := [], differed := 0, digFrame := 0, digSeen := 0, digCompared := false, digDiff := false, matched := 0, db := { frame := 0, fill := 0, segs := [], total := none, lastTotal := 0, shown := [], fmt := 0 } },
    pix := { bankA := Bank.init, bankB := Bank.init, held := [], wroteAll := false, wrote := [], ces := 0, fillFrame := none, segs := [], total := none,
             lastTotal := 0, fmt := none, differs := false, crcs := [], recFmt := 0, geomTold := false, aheadTold := false, expect := none, reading := none,
             shown := 0, wakeBuf := [], faulty := false, changed := false, woke := false, swapAsk := false, readyLog := [], initWait := false, lutBad := [], tmatBad := 0, crcBad := [] },
    chk := { pass := none, judged := 0, clean := false, comparable := false },
    drv := { answered := [], pend := [], misses := [], asked := [], request := [], next := [], enumDue := false, maskTold := false, frame := 0, sub := 0,
             sc := 0, gapSample := none, lineT := 0, lightDly := 0, adapt := none, adaptTold := false, wloaded := false, thr := 16, thrNext := 16, rail := Rail.init },
    cal := { theta := [], done := [], everDone := false, due := false, init := true, retry := false, copyAfter := false, subst := 0, range := 0,
             dark := [], gap := 0, diff := [], sums := [], seqs := 0, newG := none, capture := 0, resetG := false, ambOff := false, lost := 0, witOff := [],
             thrBack := none, ambMove := false, limTold := 0, held := true, vrefRun := 0 },
    hk := { running := false, bad := [], ok := [], good := [], supply := [], thrAt := none, restart := false },
    sys := Sys.init,
    upd := { flash := flash, session := none, verifying := none, result := none, entries := [], abandon := false, reply := [], attnDue := false },
    tap := { ir := .bypass, dr := 0, boundary := 0 },
    free := 0, out := [], pending := [] }

/-- The device right after reset (R9, R374): PORST_N was released with carriage straps, start-up has begun, the flash is erased. The
straps, the identity and the trim code are board and production values that the spec does not give (DESIGN CHOICE, log 12). -/
def State.reset : State :=
  let s := State.fresh ⟨.carriage, 0, 1, 0x200⟩ []
  { s with sys := { s.sys with starting := some 0 } }

end Sys2Proof.Machine
end

