-- ==== Sys2Proof/Machine/Regs.lean ====
section
/-! DEFINITION. Machine/Regs.lean: the register file: reset values that depend on role or index, reading and writing a
register and a named field, which blocks a role enables (R26), time limits on repeated reports. -/
namespace Sys2Proof.Machine

/-- The code of a role in the ROLE straps (R1). -/
def Role.code : Role → Nat
  | .carriage => 0
  | .sender => 1
  | .standalone => 2
  | .reserved => 3

/-- The role a strap code selects (R1). -/
def Role.ofCode (n : Nat) : Role :=
  match n % 4 with
  | 0 => .carriage
  | 1 => .sender
  | 2 => .standalone
  | _ => .reserved

/-- Whether a role enables the block numbered by address bits [31:16] (R26). -/
def blockOn (r : Role) (blk : Nat) : Bool :=
  match blk with
  | 0 | 1 | 2 | 16 | 17 | 18 => true
  | 3 => r == .sender || r == .standalone
  | 4 | 7 | 14 => r != .reserved
  | 5 | 6 | 8 | 15 => r == .carriage || r == .sender
  | 9 | 10 => r == .sender
  | 11 | 12 | 13 => r == .carriage || r == .standalone
  | b => (r == .carriage || r == .standalone) && ((0x100 ≤ b && b ≤ 0x15F) || (0x180 ≤ b && b ≤ 0x1DF))

/-- Whether a role uses the WT register at an offset: a carriage follows marks, a standalone device has the PTP clock and one generator,
a sender (or coach) all of it (R26, R93, R97; chapter *Wall time*, WT registers). [log 126 DEDUCED] -/
def wtUses (r : Role) (o : Nat) : Bool :=
  let stamps := o = 0 || o = 0x18 || o = 0x1C || o = 0x20 || (decide (0x60 ≤ o) && decide (o < 0xA4))
  match r with
  | .sender => true
  | .standalone => stamps || decide (o < 0x24) || (decide (0x100 ≤ o) && decide (o < 0x120))
  | _ => stamps || (decide (0x200 ≤ o) && decide (o < 0x220))

/-- Whether the role enables the register at an address: R26, with DRAM channel 1 in sender role only, and of WT what the role uses. [log 126 DEDUCED] -/
def addrOn (r : Role) (a : Nat) : Bool :=
  blockOn r (a / 0x10000) && !(decide (0x48000 ≤ a) && decide (a < 0x50000) && r != .sender) &&
  (a / 0x10000 != 7 || wtUses r (a % 0x10000))

/-- Reset words that the tables give by role, index or formula; the factory trim code and the identity come with the
device (R9). [log 12 DESIGN CHOICE] -/
def resetSpecial (st : Strap) (a : Nat) : Option Nat :=
  let car := st.role == .carriage
  let snd := st.role == .sender
  if a = R.SYS_UID_LO then some (st.uid % 2 ^ 32)
  else if a = R.SYS_UID_HI then some (st.uid / 2 ^ 32)
  else if a = R.SYS_STRAP then some (st.role.code + 4 * (st.xoDly % 4) + 16 * b2n (st.role == .reserved))
  else if a = R.CKG_TRIM then some (st.trim % 1024)
  else if a / 0x10000 = 5 then
    if (a - 0x50000) % 0x1000 = 0 then some (2 + b2n (car && decide ((a - 0x50000) / 0x1000 < 4))) else none
  else if a / 0x10000 = 6 then
    if a = R.CL_PCFG 0 then some (0x10000 + b2n car)
    else if a = R.CL_PCFG 1 then some (0x32000 + b2n car)
    else none
  else if a = R.WT_CTL then
    some (match st.role with | .carriage => 1 | .standalone => 2 | _ => 0)
  else if a / 0x10000 = 9 then
    if a = R.NI_PCFG 0 then some 0x18 else if a = R.NI_PCFG 1 then some 0x1A
    else if a = R.NI_PCFG 2 then some 0x1C else if a = R.NI_PCFG 3 then some 0x1E else none
  else if a = R.MC_CTL 0 || a = R.MC_CTL 1 then some (0x416 + 32 * b2n snd)
  else if a = R.PIX_TMAT 0 || a = R.PIX_TMAT 2 || a = R.PIX_TMAT 4 then some 0x4000
  else if a = R.CAL_TBASE 0 || a = R.CAL_TBASE 2 || a = R.CAL_TBASE 4 then some 0x4000
  else if 0xB4000 ≤ a && a < 0xC0000 then
    let i := (a % 0x4000) / 4
    if a % 4 = 0 then some (i * 256 + i / 16) else none
  else if a = R.HK_CHEN then some (if snd then 0x27F00F else 0x3FFFFF)
  else if 0x120100 ≤ a && a < 0x120400 && a % 4 = 0 then some (64 + (a - 0x120100) / 4)
  else none

/-- The word a register holds at reset (R9); 0 at a reserved offset (R8). The MSI-X table of the function is that of PCI Express,
whose vectors come up masked (PRESUMED: R330 names the PCI Express rules and gives no reset). -/
def resetWord (st : Strap) (a : Nat) : Word :=
  match findReg a with
  | none => if 0x30800 ≤ a && a < 0x30840 && a % 16 = 12 then 1#32 else 0#32
  | some r =>
    match resetSpecial st a with
    | some w => BitVec.ofNat 32 w
    | none => BitVec.ofNat 32 r.resetWord

/-- The stored word of a register. [log 6 DESIGN CHOICE] -/
def State.reg (s : State) (a : Nat) : Nat := (s.regs.get (resetWord s.strap a) a).toNat

/-- The state with a register's stored word. [log 6 DESIGN CHOICE] -/
def State.setReg (s : State) (a v : Nat) : State :=
  { s with regs := s.regs.set (resetWord s.strap a) a (BitVec.ofNat 32 v) }

/-- The value of a field. [log 121 DESIGN CHOICE] -/
def State.rd (s : State) (f : FRef) : Nat := bits (s.reg f.addr) f.lo f.w

/-- Whether a field is not 0. -/
def State.on (s : State) (f : FRef) : Bool := s.rd f != 0

/-- The state with a field's value (modulo its width). -/
def State.wr (s : State) (f : FRef) (v : Nat) : State :=
  s.setReg f.addr (setBits (s.reg f.addr) f.lo f.w v)

/-- A saturating count of a field (R7's counts). -/
def State.bump (s : State) (f : FRef) (k : Nat) : State := s.wr f (satAdd f.w (s.rd f) k)

/-- The signed value of a field. -/
def State.rdS (s : State) (f : FRef) : Int := signed (s.rd f) f.w

/-- A field of which 0 acts as 1. -/
def State.rd1 (s : State) (f : FRef) : Nat := zeroAs1 (s.rd f)

/-- A 64-bit value in a LO and a HI word. -/
def State.rd64 (s : State) (lo hi : FRef) : Nat := s.rd lo + 2 ^ 32 * s.rd hi

/-- Sets a 64-bit value in a LO and a HI word. -/
def State.wr64 (s : State) (lo hi : FRef) (v : Nat) : State := (s.wr lo (v % 2 ^ 32)).wr hi (v / 2 ^ 32)

def State.isCarriage (s : State) : Bool := s.strap.role == .carriage
def State.isSender (s : State) : Bool := s.strap.role == .sender
def State.isStandalone (s : State) : Bool := s.strap.role == .standalone

/-- The value of `f` at the lowest index below `n` that meets `p`. -/
def firstIdx (n : Nat) (p : Nat → Bool) : Option Nat := (List.range n).find? p

/-- Whether some index below `n` meets `p`. -/
def anyIdx (n : Nat) (p : Nat → Bool) : Bool := (List.range n).any p

/-- Whether every index below `n` meets `p`. -/
def allIdx (n : Nat) (p : Nat → Bool) : Bool := (List.range n).all p

/-- `f` applied for every index below `n`, in rising order. -/
def forIdx (n : Nat) (s : State) (f : State → Nat → State) : State := (List.range n).foldl f s

/-- Whether a port is in use with a given kind. -/
def State.portIs (s : State) (p kind : Nat) : Bool := s.on (F.CL_PCFG_EN p) && s.rd (F.CL_PCFG_KIND p) == kind

/-- A coach is a sender with an enabled drawbar port (R13). -/
def State.isCoach (s : State) : Bool := s.isSender && anyIdx 12 fun p => s.portIs p 2

/-- Whether a report limited to one per `period` ps may go out now: the time of the last one is kept under `key`
(R324: the limit acts before the firing). -/
def State.mayReport (s : State) (key period : Nat) : Bool :=
  let t := s.lastAt.get 0 key
  t == 0 || decide (t + period ≤ s.now + 1)

/-- Notes that a limited report went out now. -/
def State.reported (s : State) (key : Nat) : State := { s with lastAt := s.lastAt.set 0 key (s.now + 1) }

def msPs : Nat := 1000000000
def secPs : Nat := 1000000000000
def usPs : Nat := 1000000

/-- Rate code to frames per second as a fraction (R95). -/
def rateFrac (code : Nat) : Option (Nat × Nat) :=
  if code ≤ 0xD8 then some (24 + code, 1)
  else match code with
    | 0xE0 => some (24000, 1001)
    | 0xE1 => some (30000, 1001)
    | 0xE2 => some (48000, 1001)
    | 0xE3 => some (60000, 1001)
    | 0xE4 => some (72000, 1001)
    | 0xE5 => some (96000, 1001)
    | 0xE6 => some (120000, 1001)
    | 0xE7 => some (240000, 1001)
    | _ => none

/-- flip_ns(n) of R95, with 96-bit intermediates. -/
def flipNs (num den n : Nat) : Nat := ceilDiv ((n * den * 1000000000) % 2 ^ 96) num

/-- The nominal frame period in ps (R107); 0 for a reserved rate. -/
def nominalPs (code : Nat) : Nat :=
  match rateFrac code with
  | some (num, den) => den * 1000000000000 / num
  | none => 0

/-- The flywheel period of R107: the mean of the last locked intervals, or the nominal period. -/
def flyPs (s : State) : Nat :=
  let l := s.wt.fol.intervals
  if l.isEmpty then nominalPs (s.rd F.WT_FMARK_RATE) else l.foldl (· + ·) 0 / l.length

/-- The reconstructed wall time of R108: 0 before the first fence. -/
def folTimeNs (s : State) : Nat :=
  let f := s.wt.fol
  if !f.shown then 0
  else
    let per := flyPs s
    let el := s.now - f.lastFence
    (f.lastFlip + (if per = 0 then el else el * nominalPs (s.rd F.WT_FMARK_RATE) / per) / 1000) % 2 ^ 64

/-- The present wall time in ns: the PTP clock of a sender with SRC 00b and of a standalone device, the reconstruction of
R108 in a follower (R93, R325). -/
def wallNs (s : State) : Nat :=
  let src := s.rd F.WT_CTL_SRC
  if s.isStandalone || (s.isSender && (src == 0 || src == 3)) then s.wt.ptp / 2 ^ 28 else folTimeNs s

/-- The change of an enable: from 0 to 1, from 1 to 0. -/
def rose (old new : Nat) : Bool := !(bitAt old 0) && bitAt new 0
def fell (old new : Nat) : Bool := bitAt old 0 && !(bitAt new 0)

end Sys2Proof.Machine
end

