-- ==== Sys2Proof/Machine/Events.lean ====
section
/-! DEFINITION. Machine/Events.lean: a firing of an event source (R324 to R330, R336), the trace (R410 to R413) and the
counters (R414): the one operation `raise` that every block's condition calls, `trace` and `count`. -/
namespace Sys2Proof.Machine

/-- The block that owns a source (R324), by address bits [31:16]; DRAM channels share theirs. -/
def srcBlock (n : Nat) : Nat :=
  if n < 16 then 0 else if n < 40 then 1 else if n < 48 then 2 else if n < 176 then 5
  else if n < 208 then 6 else if n < 224 then 7 else if n < 240 then 8 else if n < 280 then 9
  else if n < 320 then 10 else if n < 352 then 11 else if n < 368 then 12 else if n < 416 then 13
  else if n < 432 then 14 else if n < 448 then 15 else if n < 464 then 3 else if n < 480 then 4
  else if n < 496 then 16 else if n < 504 then 17 else 18

/-- Sources marked reserved, by the event tables of the chapters: they never fire (R324). -/
def srcReserved (n : Nat) : Bool :=
  [(5, 15), (27, 39), (45, 47), (197, 207), (233, 239), (260, 279), (287, 319), (335, 351), (366, 367), (387, 415), (422, 431), (446, 447),
    (457, 463), (476, 479), (487, 495), (507, 511)].any fun r => decide (r.1 ≤ n) && decide (n ≤ r.2)

/-- The size of target `t`'s queue (R327). -/
def qSize (s : State) (t : Nat) : Nat := 2 ^ clamp 6 12 (s.rd (F.EVC_TCTL_LOG2SIZE t))

/-- A target's state. -/
def State.tgt (s : State) (t : Nat) : Target := s.evc.tgt.get Target.init t

/-- The state with a target. -/
def State.setTgt (s : State) (t : Nat) (x : Target) : State :=
  { s with evc := { s.evc with tgt := s.evc.tgt.set Target.init t x } }

/-- A source's state on the host path. -/
def State.hsrc (s : State) (n : Nat) : Source := s.evc.src.get Source.init n

/-- A source's state on the upward path. -/
def State.usrc (s : State) (n : Nat) : Source := s.evc.up.get Source.init n

def State.setHsrc (s : State) (n : Nat) (x : Source) : State :=
  { s with evc := { s.evc with src := s.evc.src.set Source.init n x } }

def State.setUsrc (s : State) (n : Nat) (x : Source) : State :=
  { s with evc := { s.evc with up := s.evc.up.set Source.init n x } }

/-- Whether a target's queue has room: fewer than 2^LOG2SIZE − 1 unreleased records (R327). -/
def hasRoom (s : State) (t : Nat) : Bool := decide ((s.tgt t).queue.length + 1 < qSize s t)

def tgtEn (s : State) (t : Nat) : Bool := s.on (F.EVC_TCTL_EN t)
def tgtAwake (s : State) (t : Nat) : Bool := tgtEn s t && s.on (F.EVC_TCTL_AWAKE t)

/-- The queue a record of target `t` resolves to at its write (R329). -/
def resolve (s : State) (t : Nat) : Option Nat :=
  let fb := s.rd (F.EVC_TCTL_FALLBACK t)
  if tgtAwake s t then some t
  else if fb != t && tgtAwake s fb then some fb
  else if tgtEn s t then some t
  else none

/-- The highest priority on a stack plus one; 0 while it is empty (R330). -/
def rp1 (x : Target) : Nat := x.stack.foldl (fun m c => max m (c.prio + 1)) 0

/-- Whether target `t` is eligible (R330). -/
def eligibleNow (s : State) (t : Nat) : Bool :=
  tgtAwake s t && (s.tgt t).queue.any fun r => decide (rp1 (s.tgt t) ≤ r.prio)

/-- Address of the MSI-X table entry of vector `t`, word `k` (table at BAR0 0003_0800h, 16 bytes a vector). -/
def msixAddr (t k : Nat) : Nat := 0x30800 + 16 * t + 4 * k

/-- Whether vector `t` is masked: bit 0 of its vector control word. [log 57 PRESUMED] -/
def vecMasked (s : State) (t : Nat) : Bool := (s.reg (msixAddr t 3)).testBit 0

/-- Evaluates eligibility after a change: a rise sends the vector, or sets its pending bit while it is masked (R330). [log 57 PRESUMED] -/
def evalTgt (s : State) (t : Nat) : State :=
  let x := s.tgt t
  let e := eligibleNow s t
  if e && !x.eligible then
    if vecMasked s t then s.setTgt t { x with eligible := true, vecPend := true }
    else { (s.setTgt t { x with eligible := true }) with out := s.out ++ [.msix t] }
  else s.setTgt t { x with eligible := e }

/-- The 32 bytes of a record with its PHASE (R326). -/
def recordBytes (r : Record) (phase : Bool) : List Byte :=
  bytesLE 2 r.source ++
  bytesLE 1 (r.prio + 8 * r.rhb + 16 * b2n r.remote + 32 * b2n r.sat + 128 * b2n phase) ++
  bytesLE 1 r.count ++ bytesLE 4 r.route ++ bytesLE 8 r.time ++ pad16 r.data

/-- Writes a record at a target's producer index and advances it, PHASE toggling at each wrap (R327), then evaluates
eligibility. The queue has room. -/
def putRecord (s : State) (t : Nat) (r : Record) : State :=
  let x := s.tgt t
  let base := s.rd64 (F.EVC_TBASE_LO_BASE t) (F.EVC_TBASE_HI_BASE t)
  let p := (x.prod + 1) % qSize s t
  let s1 := s.setTgt t { x with prod := p, phase := if p = 0 then !x.phase else x.phase, queue := x.queue ++ [r] }
  evalTgt { s1 with out := s1.out ++ [.hostWrite (base + 32 * x.prod) (recordBytes r x.phase)] } t

/-- The record of a local source (R326). -/
def localRecord (s : State) (n : Nat) (q : Source) : Record :=
  { source := n, prio := s.rd (F.EVC_SRC_PRIO n), rhb := s.rd F.CL_MYPOS_RHB, remote := false, sat := q.sat, count := q.cnt,
    route := if s.isStandalone then 0 else s.rd F.CL_MYROUTE_ROUTE, time := q.time, data := q.data }

/-- Counts one more firing in a source's counter, which saturates at 255 (R328). -/
def Source.bump (q : Source) (time : Nat) (data : List Byte) : Source :=
  if q.cnt = 0 then { q with cnt := 1, time := time, data := data }
  else if q.cnt ≥ 255 then { q with sat := true }
  else { q with cnt := q.cnt + 1 }

/-- Notes that target `t` refused a record; answers the report EVC_QFULL if it is the first since it had room (R334). -/
def refuseAt (s : State) (t : Nat) : State × List (Nat × List Byte) :=
  if (s.tgt t).refused then (s, [])
  else (s.setTgt t { s.tgt t with refused := true }, [(40, bytesLE 1 t)])

/-- Tries to write the record of a local source to a host queue: QUEUED, or COUNTING where no queue takes it (R328, R329). -/
def hostTry (s : State) (n : Nat) (q : Source) : State × List (Nat × List Byte) :=
  match resolve s (s.rd (F.EVC_SRC_TGT n)) with
  | none => (s.setHsrc n { q with st := .counting }, [])
  | some t =>
    if hasRoom s t then
      (putRecord (s.setHsrc n { Source.init with st := .queued }) t (localRecord s n q), [])
    else
      let r := refuseAt s t
      (r.1.setHsrc n { q with st := .counting }, r.2)

/-- A firing on the host path (R328). -/
def hostFire (s : State) (n time : Nat) (data : List Byte) : State × List (Nat × List Byte) :=
  let q := s.hsrc n
  match q.st with
  | .idle => hostTry s n { st := .idle, cnt := 1, sat := false, time := time, data := data }
  | _ => (s.setHsrc n (q.bump time data), [])

/-- Entries of the outbound queue that may be used by classes 3 to 5: eight of the 64 are kept for classes 1 and 2 (R81). -/
def lowEntries : Nat := 56

/-- Whether the outbound queue has a free entry for a class (R81). -/
def outqFree (s : State) (cls : Nat) : Bool :=
  decide (s.ring.outq.length < 64) &&
  (decide (cls ≤ 2) || decide ((s.ring.outq.filter fun e => decide (3 ≤ e.cls)).length < lowEntries))

/-- The CRC of a packet copy (R65). -/
def copyCrc (c : Copy) : Nat :=
  crc32 (c.ctl :: (bytesBE 4 c.route.toNat ++ bytesBE 2 c.seq.toNat ++ c.data))

/-- A packet with its CRC in place (R64, R65): TYPE, UP, RHB, ROUTE, SEQ, data padded to whole blocks. -/
def mkCopy (type : Nat) (up : Bool) (rhb route seq : Nat) (data : List Byte) : Copy :=
  let padN := (8 - data.length % 8) % 8
  let c : Copy := { ctl := BitVec.ofNat 8 (16 * type + 8 * b2n up + 4 * rhb), route := BitVec.ofNat 32 route,
                    seq := BitVec.ofNat 16 seq, data := data ++ List.replicate padN 0#8, pad := BitVec.ofNat 8 padN, crc := 0#32, framed := true }
  { c with crc := BitVec.ofNat 32 (copyCrc c) }

/-- Puts a packet into the outbound queue; where its class finds no entry it waits for one. CL_OUTQ_FULL is reported at
the first refusal or wait of a spell (R81). [log 9 DESIGN CHOICE] -/
def outqPut (s : State) (e : OutPkt) : State × List (Nat × List Byte) :=
  if outqFree s e.cls then
    let q := s.ring.outq ++ [{ e with id := s.ring.outId }]
    ({ s with ring := { s.ring with outq := q, outId := s.ring.outId + 1, hiwater := max s.ring.hiwater q.length } }, [])
  else
    let told := s.ring.fullTold
    let rep := if told then [] else [(191, bytesLE 1 e.cls ++ bytesLE 1 s.ring.outq.length)]
    if e.cls = 5 then
      ({ s with ring := { s.ring with fullTold := true, refused := satAdd 16 s.ring.refused 1 } }, rep)
    else ({ s with ring := { s.ring with fullTold := true, waiting := s.ring.waiting ++ [e] } }, rep)

/-- The EVENT packet of a local source (R67 EVENT layout, R84); its SEQ is given when it is inserted. -/
def eventPacket (s : State) (n : Nat) (q : Source) : OutPkt :=
  let prio := s.rd (F.EVC_SRC_PRIO n)
  let body := bytesBE 2 n ++ bytesBE 1 prio ++ bytesBE 1 q.cnt ++ bytesBE 1 (b2n q.sat) ++ bytesBE 3 0 ++
    bytesBE 8 q.time ++ pad16 q.data
  { cls := 5, prio := prio, pkt := mkCopy 5 true (s.rd F.CL_MYPOS_RHB) (if s.on F.CL_MYPOS_VALID then s.rd F.CL_MYROUTE_ROUTE else 0) 0 body,
    owedE := true, owedW := true, src := some n }

/-- Tries to hand a record to the outbound queue: needs a valid position and a free EVENT entry, CL_POS_UNASSIGNED
excepted from the first (R84, R336). -/
def upTry (s : State) (n : Nat) (q : Source) : State × List (Nat × List Byte) :=
  if !(s.on F.CL_MYPOS_VALID) && n != 185 then (s.setUsrc n { q with st := .counting }, [])
  else if outqFree s 5 then outqPut (s.setUsrc n { Source.init with st := .queued }) (eventPacket s n q)
  else
    let r := outqPut s (eventPacket s n q)
    (r.1.setUsrc n { q with st := .counting }, r.2)

/-- A firing on the upward path (R336). -/
def upFire (s : State) (n time : Nat) (data : List Byte) : State × List (Nat × List Byte) :=
  let q := s.usrc n
  match q.st with
  | .idle => upTry s n { st := .idle, cnt := 1, sat := false, time := time, data := data }
  | _ => (s.setUsrc n (q.bump time data), [])

/-- Holds a trace record for the end of this core clock, if its class is recorded (R410, R411). [log 118 DESIGN CHOICE] -/
def trace (s : State) (cls item : Nat) (data : List Byte) : State :=
  if s.on F.OBS_TCTL_EN && (s.rd F.OBS_TCTL_CLASS).testBit (cls - 1) then
    { s with obs := { s.obs with entering := s.obs.entering ++ [⟨wallNs s, cls, item, slice data 0 6⟩] } }
  else s

/-- The top of a counter (R414). -/
def cntMax : Nat := 2 ^ 48 - 1

/-- Adds to a counter; answers the report of its reaching the top (R414). [log 90 DEDUCED] -/
def addCount (s : State) (n k : Nat) : State × List (Nat × List Byte) :=
  let c := s.obs.cnt.get 0 n
  let c' := min cntMax (c + k)
  ({ s with obs := { s.obs with cnt := s.obs.cnt.set 0 n c' } },
    if c < cntMax && c' = cntMax then [(506, bytesLE 1 n)] else [])

/-- The counters of OBS_CSEL that count source `n`: an enabled entry differs from its reset word, so it is listed. -/
def selCounters (s : State) (n : Nat) : List Nat :=
  (s.regs.filter fun e => decide (0x120100 ≤ e.1) && decide (e.1 < 0x120400) &&
    e.2.toNat.testBit 15 && bits e.2.toNat 0 9 == n).map fun e => 64 + (e.1 - 0x120100) / 4

/-- One firing of one source: counters of OBS_CSEL, then, with EN = 1, the trace and delivery by role (R325, R336). Answers
the reports it causes in its turn. -/
def fireOne (s : State) (n : Nat) (data : List Byte) : State × List (Nat × List Byte) :=
  if !(blockOn s.strap.role (srcBlock n)) then (s, [])
  else
    let a := (selCounters s n).foldl (fun a k => let r := addCount a.1 k 1; (r.1, a.2 ++ r.2)) (s, [])
    if !(a.1.on (F.EVC_SRC_EN n)) then a
    else
      let s1 := a.1
      let s2 := if n < 504 && decide (s1.rd F.OBS_TEVT_LO ≤ n) && decide (n ≤ s1.rd F.OBS_TEVT_HI)
        then trace s1 1 n data else s1
      let time := wallNs s2
      let h := if s2.isCarriage then (s2, []) else hostFire s2 n time (pad16 data)
      let up := s2.isCarriage || (s2.isCoach && s2.on F.EVC_CTL_UPLINK)
      let u := if up then upFire h.1 n time (pad16 data) else (h.1, [])
      (u.1, a.2 ++ h.2 ++ u.2)

/-- Firings in order with those they cause, `fuel` in all. -/
def fireAll : Nat → State → List (Nat × List Byte) → State
  | 0, s, _ => s
  | _ + 1, s, [] => s
  | k + 1, s, (n, d) :: r =>
    let x := fireOne s n d
    fireAll k x.1 (r ++ x.2)

/-- Raises event source `n` with its data bytes (R325). It touches the event controller, OBS, the outbound queue and what
is sent, and nothing else. -/
def raise (s : State) (n : Nat) (data : List Byte) : State :=
  let t := fireAll 512 s [(n, data)]
  let q := { s.ring with outq := t.ring.outq, waiting := t.ring.waiting, fullTold := t.ring.fullTold }
  let r := { q with hiwater := t.ring.hiwater, refused := t.ring.refused, outId := t.ring.outId }
  { s with evc := t.evc, obs := t.obs, ring := r, out := t.out }

/-- Raises a list of sources in order. -/
def raises (s : State) (l : List (Nat × List Byte)) : State := l.foldl (fun s e => raise s e.1 e.2) s

/-- Raises a source at most once per `period` ps. -/
def raiseLim (s : State) (n period : Nat) (data : List Byte) : State :=
  if s.mayReport n period then (raise s n data).reported n else s

/-- Adds to counter `n` of R414 and reports its reaching the top. [log 90 DEDUCED] -/
def count (s : State) (n k : Nat) : State :=
  let r := addCount s n k
  raises r.1 r.2

/-- Two data bytes. -/
def d2 (a b : Nat) : List Byte := bytesLE 1 a ++ bytesLE 1 b

/-- Writes one trace record into the buffer (R412). -/
def putTrace (s : State) (t : Trace) : State :=
  let o := s.obs
  if o.full then s
  else
    let o1 := { o with buf := o.buf.set ⟨0, 0, 0, []⟩ o.wptr t, wptr := (o.wptr + 1) % 4096 }
    if o.wptr = 4095 then
      if s.on F.OBS_TCTL_MODE then raise { s with obs := { o1 with full := true } } 504 []
      else { s with obs := { o1 with wrapped := true } }
    else { s with obs := o1 }

/-- Whether trace record `a` enters before `b` in one core clock (R411). -/
def traceBefore (a b : Trace) : Bool := decide (a.cls < b.cls) || (a.cls == b.cls && decide (a.item ≤ b.item))

def insertTrace (t : Trace) : List Trace → List Trace
  | [] => [t]
  | x :: r => if traceBefore x t then x :: insertTrace t r else t :: x :: r

/-- The end of a command: its trace records enter the queue of 16 in the order of R411 and are written; those beyond the
queue are lost, and OBS_TRACE_LOST tells so at most once per second. [log 118 DESIGN CHOICE] -/
def flushTrace (s : State) : State :=
  let l := s.obs.entering.foldl (fun a t => insertTrace t a) []
  let s0 := { s with obs := { s.obs with entering := [] } }
  let s1 := (l.take 16).foldl putTrace s0
  let n := l.length - 16
  if n = 0 then s1
  else
    let s2 := { s1 with obs := { s1.obs with lostCnt := satAdd 16 s1.obs.lostCnt n, lost := s1.obs.lost + n } }
    if s2.mayReport 505 secPs then
      let s3 := (raise s2 505 (d2 0 0 ++ bytesLE 4 s2.obs.lost)).reported 505
      { s3 with obs := { s3.obs with lost := 0 } }
    else s2

end Sys2Proof.Machine
end

