-- ==== Sys2Proof/Machine/EvcOps.lean ====
section
/-! DEFINITION. Machine/EvcOps.lean: release, claim and end of interrupt, waiting records, records from the ring, and what
the EVC registers show (chapter *Event controller*). -/
namespace Sys2Proof.Machine

/-- A source leaves QUEUED without a claim, or ACTIVE at its EOI: a pending one writes its record at once (R328). -/
def sourceLeaves (s : State) (n : Nat) : State :=
  let q := s.hsrc n
  if q.cnt = 0 then s.setHsrc n Source.init
  else
    let r := hostTry s n { q with st := .idle }
    raises r.1 r.2

/-- A source whose record or claim was discarded: COUNTING if pending, else IDLE (R333). -/
def sourceDrops (s : State) (n : Nat) : State :=
  let q := s.hsrc n
  if q.cnt = 0 then s.setHsrc n Source.init else s.setHsrc n { q with st := .counting }

/-- A waiting record: a counting local source or a remote record of the hold buffer (R334). -/
structure Waiting where
  prio : Nat
  time : Nat
  source : Nat
  rem : Option Record
  queue : Nat

/-- Whether `a` goes before `b`: higher PRIO, earlier TIME, lower source number (R334). -/
def Waiting.before (a b : Waiting) : Bool :=
  decide (b.prio < a.prio) || (a.prio == b.prio &&
    (decide (a.time < b.time) || (a.time == b.time && decide (a.source < b.source))))

/-- The queue with room that a target number resolves to now (R329). -/
def roomFor (s : State) (t : Nat) : Option Nat :=
  match resolve s t with
  | some q => if hasRoom s q then some q else none
  | none => none

/-- The waiting records whose queue has room. -/
def waitingNow (s : State) : List Waiting :=
  (s.evc.src.filterMap fun e =>
    if e.2.st == .counting then
      (roomFor s (s.rd (F.EVC_SRC_TGT e.1))).map fun q => ⟨s.rd (F.EVC_SRC_PRIO e.1), e.2.time, e.1, none, q⟩
    else none) ++
  (s.evc.hold.filterMap fun r =>
    (roomFor s (s.rd (F.EVC_RSRC_TGT r.source))).map fun q => ⟨r.prio, r.time, r.source, some r, q⟩)

/-- The first of a list by R334. -/
def firstWaiting (l : List Waiting) : Option Waiting :=
  l.foldl (fun b w => match b with
    | none => some w
    | some x => if w.before x then some w else b) none

/-- Targets with room have no refusal standing (R334). -/
def clearRefused (s : State) : State :=
  forIdx 4 s fun s t => if (s.tgt t).refused && hasRoom s t then s.setTgt t { s.tgt t with refused := false } else s

/-- Writes waiting records while a queue has room for one (R334). -/
def drainHost : Nat → State → State
  | 0, s => s
  | k + 1, s =>
    match firstWaiting (waitingNow s) with
    | none => s
    | some w => match w.rem with
      | some r =>
        drainHost k (putRecord { s with evc := { s.evc with hold := s.evc.hold.erase r } } w.queue r)
      | none =>
        let q := s.hsrc w.source
        drainHost k (putRecord (s.setHsrc w.source { Source.init with st := .queued }) w.queue (localRecord s w.source q))

/-- A queue gained room or a target changed (R334). [log 128 DEDUCED] -/
def roomGained (s : State) : State := drainHost 768 (clearRefused s)

/-- The records between CONS and a new CONS: how many a write of TCONS releases; none if it lies outside (R331). -/
def releaseCount (s : State) (t cons : Nat) : Option Nat :=
  let x := s.tgt t
  let n := (cons + qSize s t - x.cons) % qSize s t
  if cons < qSize s t && n ≤ x.queue.length then some n else none

/-- A write of EVC_TCONS (R331). -/
def tconsWrite (s : State) (t cons : Nat) (claim : Bool) : State :=
  let x := s.tgt t
  if !(tgtEn s t) then s
  else match releaseCount s t cons with
    | none => raise s 44 (d2 t 0 ++ bytesLE 2 cons)
    | some 0 => if claim then raise s 44 (d2 t 0 ++ bytesLE 2 cons) else s
    | some n =>
      let rel := x.queue.take n
      let last := rel.getLast?
      let ovf := claim && decide (8 ≤ x.stack.length)
      let taken := if claim && !ovf then last else none
      let st := match taken with | some r => ⟨r.source, r.prio, r.remote⟩ :: x.stack | none => x.stack
      let s1 := evalTgt (s.setTgt t { x with cons := cons, queue := x.queue.drop n, stack := st }) t
      let freed := if taken.isSome then rel.dropLast else rel
      let s2 := freed.foldl (fun s r => if r.remote then s else sourceLeaves s r.source) s1
      let s3 := match taken with
        | some r => if r.remote then s2 else s2.setHsrc r.source { s2.hsrc r.source with st := .active }
        | none => s2
      let s4 := match last with
        | some r => if ovf then raise s3 41 (d2 t r.source ++ bytesLE 1 (r.source / 256)) else s3
        | none => s3
      roomGained s4

/-- A write of EVC_TEOI.EOI = 1 (R332). -/
def teoiWrite (s : State) (t : Nat) : State :=
  let x := s.tgt t
  match x.stack with
  | [] => raise s 42 (d2 t 0)
  | c :: r =>
    let s1 := evalTgt (s.setTgt t { x with stack := r }) t
    if c.remote then s1 else roomGained (sourceLeaves s1 c.source)

/-- EVC_TCTL.EN became 0 (R333). -/
def targetDisable (s : State) (t : Nat) : State :=
  let x := s.tgt t
  let lost := (x.queue.filter (·.remote)).length
  let s1 := (s.setTgt t { Target.init with vecPend := x.vecPend, prod := x.prod, cons := x.cons, phase := x.phase }).bump F.EVC_STAT_REMOTE_LOST lost
  let s2 := x.queue.foldl (fun s r => if r.remote then s else sourceDrops s r.source) s1
  let s3 := x.stack.foldl (fun s c => if c.remote then s else sourceDrops s c.source) s2
  roomGained s3

/-- EVC_TCTL.EN went from 0 to 1: the queue starts empty with PHASE 1 (R327). -/
def targetEnable (s : State) (t : Nat) : State := evalTgt (roomGained (s.setTgt t { Target.init with vecPend := (s.tgt t).vecPend })) t

/-- EVC_TCTL was written: what its EN and AWAKE bits bring about. `old` is the word before. -/
def tctlWritten (s : State) (t old : Nat) : State :=
  let was := old.testBit 0
  let now := tgtEn s t
  if was && !now then evalTgt (targetDisable s t) t
  else if !was && now then targetEnable s t
  else roomGained (evalTgt s t)

/-- A remote record meets the queues: written, held, or lost (R335). -/
def remoteRecord (s : State) (r : Record) : State :=
  match resolve s (s.rd (F.EVC_RSRC_TGT r.source)) with
  | some q =>
    if hasRoom s q then putRecord s q r
    else
      let x := refuseAt s q
      hold (raises x.1 x.2)
  | none => hold s
where
  /-- The hold buffer of 256 records takes it, or it is lost. -/
  hold (s : State) : State :=
    if s.evc.hold.length < 256 then { s with evc := { s.evc with hold := s.evc.hold ++ [r] } }
    else
      let s1 := { s.bump F.EVC_STAT_REMOTE_LOST 1 with evc := { s.evc with lost := s.evc.lost + 1 } }
      if s1.mayReport 43 msPs then
        let s2 := (raise s1 43 (d2 0 0 ++ bytesLE 4 s1.evc.lost)).reported 43
        { s2 with evc := { s2.evc with lost := 0 } }
      else s1

/-- The record an EVENT packet spells (R335): SOURCE, PRIO, COUNT, SAT, TIME and DATA of its header and body. -/
def eventRecord (c : Copy) : Record :=
  { source := beAt c.data 0 2 % 512, prio := beAt c.data 2 1 % 8, rhb := bits c.ctl.toNat 2 1, remote := true,
    sat := (beAt c.data 4 1).testBit 0, count := beAt c.data 3 1, route := c.route.toNat, time := beAt c.data 8 8,
    data := slice c.data 16 16 }

/-- An accepted EVENT packet at a ring end (R335); an entry with EN = 0 drops it. -/
def eventAccept (s : State) (c : Copy) : State :=
  let r := eventRecord c
  if s.on (F.EVC_RSRC_EN r.source) then remoteRecord s r else s

/-- A vector was unmasked: its pending message goes out (R330). -/
def unmask (s : State) (t : Nat) : State :=
  if (s.tgt t).vecPend && !(vecMasked s t)
  then { s.setTgt t { s.tgt t with vecPend := false } with out := s.out ++ [.msix t] } else s

def SrcPhase.code : SrcPhase → Nat
  | .idle => 0
  | .queued => 1
  | .active => 2
  | .counting => 3

/-- What EVC_SRC shows of source `n`: STATE, PEND and CNT (R328). -/
def srcView (s : State) (n : Nat) : Nat :=
  let q := if s.isCarriage then s.usrc n else s.hsrc n
  q.st.code * 4096 + b2n (q.cnt != 0) * 32768 + q.cnt * 2 ^ 24

/-- What the EVC registers show; none where the stored word stands. -/
def evcView (s : State) (a : Nat) : Option Nat :=
  if a = R.EVC_STAT then some (s.reg a / 65536 * 65536 + s.evc.hold.length)
  else if 0x20100 ≤ a && a < 0x20200 then
    let t := (a - 0x20100) / 64
    let o := a % 64
    let x := s.tgt t
    if o = 0xC then some (x.prod + 4096 * b2n x.phase)
    else if o = 0x10 then some x.cons
    else if o = 0x18 then
      some ((rp1 x - 1) + 8 * b2n x.stack.isEmpty + 16 * x.stack.length + 256 * b2n (eligibleNow s t) +
        512 * b2n (!x.queue.isEmpty && !(tgtAwake s t)))
    else if 0x20 ≤ o then
      match (x.stack.reverse)[(o - 0x20) / 4]? with
      | some c => some (c.source + 512 * c.prio + 4096 * b2n c.remote + 2 ^ 31)
      | none => some 0
    else none
  else if 0x21000 ≤ a && a < 0x21800 then some (bits (s.reg a) 0 12 + srcView s ((a - 0x21000) / 4))
  else none

end Sys2Proof.Machine
end

