-- ==== Sys2Proof/Config.lean ====
section
/-! DEFINITION. Config.lean: the values the spec leaves open, as constants without a body: no statement can rest on a value
of one. Each is named in the assumption log. -/
namespace Sys2Proof

/-- The cause byte of CL_BYPASS_OPEN (R63 names it and gives no codes), by the model's own numbering of what moved the pin. [log 2 DESIGN CHOICE] -/
opaque Config.bypassCause : Nat → BitVec 8

/-- What a read of a DRAM channel that serves no request answers, by byte address (R351 gives no data). [log 2 DESIGN CHOICE] -/
opaque Config.dramUnserved : Nat → BitVec 8

/-- The PLL byte of CKG_MON_TRIP where no PLL uses the source that tripped (R376 names a PLL and R362 gives none). [log 2 DESIGN CHOICE] -/
opaque Config.noPll : Nat → BitVec 8

/-- Whether a packet or a run is being forwarded at the moment a port leaves UP (R56), where the command does not say so: by the count of
free values and the port. [log 135 DESIGN CHOICE] -/
opaque Config.midPacket : Nat → Nat → Bool

/-- The number of carriages on a ring whose roster is unlocked, less one, modulo 62: R24 uses it and nothing tells a carriage. -/
opaque Config.ringLength : Nat → BitVec 8

/-- A byte of host memory that the device reads by itself where a command carries no copy of it: by the count of such reads and
the address. Host memory is outside the device, so its content is not the spec's to give. [log 2 DESIGN CHOICE] -/
opaque Config.hostByte : Nat → Nat → BitVec 8

/-- The maker's number in the IDCODE of R415, which the spec does not give. [log 2 DESIGN CHOICE] -/
opaque Config.jtagMaker : BitVec 11

end Sys2Proof
end

