-- ==== Sys2Proof/Machine/PortOps.lean ====
section
/-! DEFINITION. Machine/PortOps.lean: what happens to a Coachline port and its lanes (chapter *Coachline: lanes, blocks and
bring-up*): falling back, reaching UP, the by-pass switch, the reference of the lane PLL. -/
namespace Sys2Proof.Machine

def State.port (s : State) (p : Nat) : Port := s.ports.get Port.init p
def State.setPort (s : State) (p : Nat) (x : Port) : State := { s with ports := s.ports.set Port.init p x }
def State.modPort (s : State) (p : Nat) (f : Port → Port) : State := s.setPort p (f (s.port p))

/-- CL_PSTAT.STATE of R43. -/
def State.pst (s : State) (p : Nat) : Nat := s.rd (F.CL_PSTAT_STATE p)
def State.setPst (s : State) (p v : Nat) : State := s.wr (F.CL_PSTAT_STATE p) v
def State.isUp (s : State) (p : Nat) : Bool := s.pst p == 6

/-- The lanes of a port, lower-numbered first (R33, R35). -/
def portLanes (s : State) (p : Nat) : List Nat :=
  s.rd (F.CL_PCFG_LANE0 p) :: (if s.on (F.CL_PCFG_WIDTH2 p) then [s.rd (F.CL_PCFG_LANE1 p)] else [])

/-- The ports that sit on the ring behind the by-pass switch: ports 0 and 1 of a carriage, the drawbar ports of a coach. -/
def ringPorts (s : State) : List Nat :=
  if s.isCarriage then [0, 1] else (List.range 12).filter fun p => s.portIs p 2

/-- The other port behind the by-pass switch. -/
def otherPort (s : State) (p : Nat) : Option Nat := (ringPorts s).find? (· != p)

/-- The enabled port that uses a lane. -/
def laneOwner (s : State) (n : Nat) : Option Nat :=
  firstIdx 12 fun p => s.on (F.CL_PCFG_EN p) && (portLanes s p).contains n

/-- Whether every lane of a port has a LANE_STAT condition. -/
def lanesHave (s : State) (p : Nat) (f : Nat → FRef) : Bool := (portLanes s p).all fun n => s.on (f n)

/-- Block lock on every lane of a port; with HIBER_DOWN a lane in HIBER counts as without (R47). -/
def hasBlock (s : State) (p : Nat) : Bool :=
  lanesHave s p F.LANE_STAT_BLOCK_LOCK && (portLanes s p).all fun n => !(s.on (F.LANE_STAT_HIBER n) && s.on (F.LANE_QUAL_HIBER_DOWN n))

/-- What BLOCK waits for: block lock, and the deskew of a bonded port (R43). -/
def blockReady (s : State) (p : Nat) : Bool :=
  hasBlock s p && (!(s.on (F.CL_PCFG_WIDTH2 p)) || lanesHave s p F.LANE_STAT_DESKEW_OK)

/-- Writes a LANE_STAT condition of every lane of a port. -/
def lanesWr (s : State) (p : Nat) (f : Nat → FRef) (v : Nat) : State :=
  (portLanes s p).foldl (fun s n => s.wr (f n) v) s

/-- Source number of lane `n`'s event at an offset of R63. -/
def laneSrc (n off : Nat) : Nat := 48 + 8 * n + off

/-- The position of CL_MYPOS. -/
def ownPos (s : State) : Nat := s.rd F.CL_MYPOS_POS

/-- The port's rate bit: RATE of its lower-numbered lane (R33). -/
def portRate (s : State) (p : Nat) : Nat := s.rd (F.LANE_CTL_RATE (s.rd (F.CL_PCFG_LANE0 p)))

/-- Residence of a port in ps (R55): its rate and width. -/
def residence (s : State) (p : Nat) : Nat :=
  match portRate s p, s.on (F.CL_PCFG_WIDTH2 p) with
  | 1, false => 122880
  | 1, true => 143360
  | _, false => 140800
  | _, true => 153600

/-- Numerator of the unit interval in ps over 33: 1280/33 at 25.78125 Gb/s, 3200/33 at 10.3125 Gb/s (R32). -/
def uiNum (rate : Nat) : Nat := if rate = 1 then 1280 else 3200

/-- The receive delay of R50 from 32 round-trip samples in UI and ASYM in ps. -/
def delayPs (rate : Nat) (samples : List Nat) (asym : Int) : Int :=
  roundDiv (((samples.foldl (· + ·) 0) * uiNum rate : Nat) + asym * 1056) 2112

/-- One round-trip sample in UI (R50); none if it is not valid. -/
def rttSample (t1 t4 turn : Nat) : Option Nat :=
  let r := (t4 + 2 ^ 33 - t1 - turn) % 2 ^ 32
  if 0 < r && r < 2 ^ 24 then some r else none

/-- Whether 32 samples spread by no more than 4 UI (R50). -/
def spreadOk (l : List Nat) : Bool := decide (l.foldl max 0 ≤ l.foldl min (2 ^ 32) + 4)

/-- The direction a port transmits (R48 DIR, R49): 1 eastbound, 2 westbound, 3 none, 0 unknown. -/
def dirTx (s : State) (p : Nat) : Nat :=
  match s.rd (F.CL_PCFG_KIND p) with
  | 1 => if s.on (F.CL_PCFG_END p) then 2 else 1
  | 3 => 3
  | _ =>
    let own := s.rd (F.CL_PSTAT_DIR_RX p)
    let oth := match otherPort s p with | some q => s.rd (F.CL_PSTAT_DIR_RX q) | none => 0
    if oth = 1 then 1 else if oth = 2 then 2 else if own = 1 then 2 else if own = 2 then 1 else 0

/-- The position a port's TRAIN groups and ECHO packets carry (R48 G21, R85): 0 at a sender or coach end, else CL_MYPOS. The mirror port of a
coach is no end: its partner learns the coach's position by it, as R17 needs. [log 132 DESIGN CHOICE] -/
def sentPos (s : State) (p : Nat) : Nat := if s.portIs p 1 || (s.portIs p 3 && !s.isCoach) then 0 else ownPos s

/-- The 24 bytes of a TRAIN group (R48). Before a group has been received ECHO_VALID and ECHO_STAMP are 0. [log 133 DESIGN CHOICE] -/
def trainGroup (s : State) (p stamp turn : Nat) : List Byte :=
  let x := s.port p
  let st := s.pst p == 5 || s.pst p == 6
  let flags := dirTx s p + 4 * s.strap.role.code + 16 * b2n st + 32 * b2n x.lastStamp.isSome +
    64 * b2n (s.on (F.CL_PCFG_WIDTH2 p)) + 128 * portRate s p
  let pos := sentPos s p
  let g := bytesBE 4 stamp ++ bytesBE 4 (x.lastStamp.getD 0) ++ bytesBE 4 turn ++ bytesBE 8 s.strap.uid ++
    bytesBE 1 flags ++ bytesBE 1 pos
  g ++ bytesBE 2 (crc16 g)

/-- The direction received by the port that references the lane PLL (R103): 0 none, 3 the mirror link. -/
def refDir (s : State) : Nat :=
  match s.rd F.CL_CLKSRC_REF, ringPorts s with
  | 1, p :: _ => s.rd (F.CL_PSTAT_DIR_RX p)
  | 2, _ :: q :: _ => s.rd (F.CL_PSTAT_DIR_RX q)
  | _, _ => 0

/-- The timing direction follows the lane PLL's port: at once in SEEK, at the next fence otherwise (R103, R105). -/
def followDir (s : State) : State :=
  let d := refDir s
  if d = 0 || d = s.rd F.WT_FSTAT_DIR then { s with wt := { s.wt with fol := { s.wt.fol with dirNext := none } } }
  else if s.rd F.WT_FSTAT_STATE = 0 then s.wr F.WT_FSTAT_DIR d
  else { s with wt := { s.wt with fol := { s.wt.fol with dirNext := some d } } }

/-- The reference of the lane PLL by R54: the ring port that receives the eastbound stream if it has CDR lock, else one
that has; without one Reed, in a coach and a sender the crystal while it is healthy. -/
def pllRef (s : State) : Nat :=
  let l := (ringPorts s).zip [1, 2]
  let locked := l.filter fun e => lanesHave s e.1 F.LANE_STAT_CDR_LOCK
  match locked.find? (fun e => s.rd (F.CL_PSTAT_DIR_RX e.1) == 1) with
  | some e => e.2
  | none =>
    let cur := s.rd F.CL_CLKSRC_REF
    if locked.any (fun e => e.2 == cur) then cur
    else match locked with
      | e :: _ => e.2
      | [] => if s.isSender && s.on F.CKG_STAT_XO_OK then 3 else 0

/-- A core PLL that runs from the lane PLL's reference moves on to Reed, without a break, where that reference is Reed itself (R358, R361). [log 160 DEDUCED] -/
def coreFollow (s : State) : State :=
  if s.rd F.CL_CLKSRC_REF = 0 && s.sys.pllSrc.get 3 0 == 2 then
    { s.wr F.CKG_STAT_CORE_SRC 0 with sys := { s.sys with pllSrc := s.sys.pllSrc.set 3 0 0 } }
  else s

/-- Moves the lane PLL to the reference of R54; a change raises CL_CLKSRC. -/
def clkUpdate (s : State) : State :=
  let r := pllRef s
  if r = s.rd F.CL_CLKSRC_REF then followDir s
  else followDir (coreFollow (raise (s.wr F.CL_CLKSRC_REF r) 181 (d2 r 0)))

/-- Windows that empty when no port of their ring is UP (R73, R74), with the accepted packets still held for order, and the position given up
when both ring ports have lost block lock (R25). [log 134 DESIGN CHOICE] -/
def lossEffects (s : State) : State :=
  let rp := ringPorts s
  let s1 := if rp.any s.isUp then s
    else { s with ring := { s.ring with down := Window.empty, held := [], last := none, seenOut := [] } }
  let ringDead (r : Nat) : Bool := !(anyIdx 12 fun p => s.portIs p 1 && s.rd (F.CL_PCFG_RING p) == r && s.isUp p)
  let s2 := { s1 with ring := { s1.ring with ups := s1.ring.ups.filter fun e => !(ringDead (e.1 / 64)) } }
  if rp.any (hasBlock s2) then s2
  else { ((s2.wr F.CL_MYPOS_POS 63).wr F.CL_MYPOS_VALID 0) with ring := { s2.ring with posCase := 0 } }

/-- The stream that port `p` received has no upstream: the transmitter that forwarded it, while it is UP or not yet isolated by the switch,
sends FAULT 03h if a packet or run was cut, then FAULT 02h, which opens a train (R56, R62, R82). Whether one was cut is the command's to say,
or a free value. [log 26 DEDUCED, 135 DESIGN CHOICE] -/
def startFiller (s : State) (p : Nat) : State :=
  match otherPort s p with
  | none => s
  | some q =>
    let s0 := { (s.modPort p fun x => { x with inPacket := none }) with free := s.free + 1 }
    if s.isUp q || s.pst q == 7 then
      let cut := !((s.port q).filler) && (s.port p).inPacket.getD (Config.midPacket s.free p)
      let s1 := (s0.modPort q fun x => { x with filler := true }).modPort p fun x => { x with trainOwed := true }
      { s1 with out := s1.out ++ (if cut then [Output.faultBlock q 3 (ownPos s)] else []) ++ [Output.faultBlock q 2 (ownPos s)] }
    else s0

/-- A port leaves its state for another: leaving UP raises CL_PORT_DOWN with the state entered and counts the drop; below
TRAIN the stable timer starts from zero and the partner's stamp is forgotten (R44, R51). [log 135 DESIGN CHOICE] -/
def leaveTo (s : State) (p st : Nat) : State :=
  let up := s.isUp p
  let s0 := if st = 5 then s.setPst p st
    else (lanesWr (s.setPst p st) p F.LANE_STAT_STABLE 0).modPort p fun x => { x with lastStamp := none, dirRefused := false }
  let s1 := s0.modPort p
    fun x => { x with samples := [], goodGroup := false, echo := [], candidate := none }
  let s2 := if up then startFiller (raise (s1.bump (F.CL_PDOWN_DOWNS p) 1) 177 (d2 p st)) p else s1
  lossEffects s2

/-- A lane of a port lost a condition: the port falls back from any state from CDR on; not from SETTLE (R44, R60). -/
def fallBack (s : State) (p st : Nat) : State :=
  let c := s.pst p
  if 2 ≤ c && c ≤ 6 && st < c then leaveTo s p st else lossEffects s

/-- Start-up has loaded its image and brings up its ports: steps 7 and 8 of R374 come before STANDBY. -/
def portsStarting (s : State) : Bool := s.sys.starting.isSome && s.sys.going.isSome

/-- The lane PLL has a usable reference: a ring port, the crystal, or Reed (R54, R61). -/
def laneUsable (s : State) : Bool := pllRef s != 0 || s.on F.CKG_STAT_REED_READY

/-- Whether a cause of R61 holds the switch closed: BYPASS mode, FORCE_CLOSE, or no usable reference of the lane PLL. -/
def closedCause (s : State) : Bool :=
  (s.rd F.SYS_MSTAT_MODE == 0 && !(portsStarting s)) || s.sys.going.any (fun g => g.1 == 0) || s.on F.CL_BYP_FORCE_CLOSE || !(laneUsable s)

/-- The ball number of BYPASS_OPEN in `Output.pin`. -/
def pinBypassOpen : Nat := 1

/-- BYPASS_OPEN changes level (R59, R61): the pin, CL_BYP and event CL_BYPASS_OPEN. -/
def driveBypass (s : State) (level cause : Nat) : State :=
  let s1 := s.wr F.CL_BYP_BYP_STATE level
  raise { s1 with out := s1.out ++ [.pin pinBypassOpen level] } 180 (d2 level (Config.bypassCause cause).toNat)

/-- BYPASS_OPEN goes high: both ring ports enter SETTLE (R60). -/
def bypassRise (s : State) (cause : Nat) : State :=
  (ringPorts s).foldl (fun s p => if s.pst p = 0 then s else s.setPst p 7) (driveBypass s 1 cause)

/-- BYPASS_OPEN goes high if no cause of R61 holds and both ring ports are in BLOCK with block lock (R59). -/
def tryRise (s : State) : State :=
  let rp := ringPorts s
  if !(s.on F.CL_BYP_BYP_STATE) && !(closedCause s) && rp.length == 2 && rp.all (fun p => s.pst p == 3 && hasBlock s p)
  then bypassRise s 0 else s

/-- BYPASS_OPEN falls while the device keeps running: both ring ports leave their state, fill, and enter SETTLE (R62). -/
def bypassFall (s : State) (cause : Nat) : State :=
  if !(s.on F.CL_BYP_BYP_STATE) then s
  else (ringPorts s).foldl (fun s p => if s.pst p = 0 then s else leaveTo s p 7) (driveBypass s 0 cause)

/-- A port goes to OFF: its transmitter stops, its lanes are no longer judged and hold no lock, and the lane PLL leaves it (R43, R54). [log 25 DEDUCED] -/
def portOff (s : State) (p : Nat) : State :=
  if s.pst p = 0 then s
  else
    let s1 := (portLanes s p).foldl (fun s n => ((((s.wr (F.LANE_STAT_SIGDET n) 0).wr (F.LANE_STAT_CDR_LOCK n) 0).wr (F.LANE_STAT_BLOCK_LOCK n) 0).wr
      (F.LANE_STAT_DESKEW_OK n) 0)) s
    clkUpdate (leaveTo s1 p 0)

/-- Whether a lane of port `p` belongs to another enabled port as well (R35). [log 25 DEDUCED] -/
def laneConflict (s : State) (p q : Nat) : Bool :=
  p != q && s.on (F.CL_PCFG_EN q) && (portLanes s p).any fun n => (portLanes s q).contains n

/-- The enabled ports that share a lane with port `p` (R35). -/
def laneRivals (s : State) (p : Nat) : List Nat := (List.range 12).filter (laneConflict s p)

/-- A lane used by an enabled network port (R138, R139). -/
def netLane (s : State) (n : Nat) : Bool := anyIdx 4 fun i => s.on (F.NI_PCFG_EN i) && s.rd (F.NI_PCFG_LANE i) == n

/-- The modes in which ports run under R43: not BYPASS and SENTRY, nor on the way there, but on the way out (R370, R372). -/
def portsRun (s : State) : Bool :=
  (decide (2 ≤ s.rd F.SYS_MSTAT_MODE) || s.sys.going.any fun g => g.1 == 2) && !(s.sys.going.any fun g => decide (g.1 ≤ 1))

/-- An enabled port in OFF leaves it, where the mode lets ports run and none of its lanes is claimed twice (R35, R43, R139). -/
def portStart (s : State) (p : Nat) : State :=
  if s.on (F.CL_PCFG_EN p) && s.pst p = 0 && portsRun s && (laneRivals s p).isEmpty && !((portLanes s p).any (netLane s)) then s.setPst p 1 else s

/-- Every enabled port held in OFF is judged again, where a conflict or a mode has ended (R35, R139). -/
def portsStart (s : State) : State := forIdx 12 s portStart

/-- CL_PCFG.EN was written: 1 takes a port from OFF to SEARCH, or keeps every port of a lane conflict in OFF with
CL_PARTNER_BAD; 0 takes it to OFF, which may end a conflict (R35, R43). -/
def portEnable (s : State) (p : Nat) : State :=
  if !(s.on (F.CL_PCFG_EN p)) then portsStart (portOff s p)
  else
    match laneRivals s p with
    | [] => portStart s p
    | l => (p :: l).foldl (fun s q => raise s 178 (d2 q 4)) (l.foldl portOff (portOff s p))

/-- The lane conditions allow the port to leave BLOCK: with the switch closed its ring ports stay there until both have block lock
(R43, R59). [log 20 DESIGN CHOICE] -/
def blockSettled (s : State) (p : Nat) : State :=
  if s.pst p != 3 then s
  else if (ringPorts s).contains p && !(s.on F.CL_BYP_BYP_STATE) then tryRise s
  else if blockReady s p then s.setPst p 4 else s

/-- The other ring port, where it is UP and receives the same direction (R49). -/
def dirRival (s : State) (p d : Nat) : Option Nat :=
  if (d = 1 || d = 2) && (ringPorts s).contains p then
    (otherPort s p).filter fun q => s.isUp q && s.rd (F.CL_PSTAT_DIR_RX q) == d
  else none

/-- The port enters UP if it holds 32 samples and a good group and its direction is its own: CL_PDELAY, CL_PORT_UP, the ring table
due (R48, R50, R86). -/
def tryUp (s : State) (p : Nat) : State :=
  let x := s.port p
  if s.pst p = 5 && x.samples.length = 32 && x.goodGroup && !x.dirRefused && (dirRival s p (s.rd (F.CL_PSTAT_DIR_RX p))).isNone then
    let d := delayPs (portRate s p) x.samples (s.rdS (F.CL_PASYM_ASYM p))
    let s1 := ((s.setPst p 6).wr (F.CL_PDELAY_DELAY p) (toBits d 32)).modPort p
      fun y => { y with samples := [], echo := [], candidate := none,
                        filler := match otherPort s p with | some q => !(s.isUp q) | none => false, trainK := 0, trainEnd := none }
    let due := if s.portIs p 1 then s.ring.tableDue ++ [s.rd (F.CL_PCFG_RING p)] else s.ring.tableDue
    let s2 := { s1 with ring := { s1.ring with tableDue := due } }
    clkUpdate (raise s2 176 (d2 p (s2.rd (F.CL_PSTAT_DIR_RX p))))
  else s

/-- The port that forwards what `p` receives: both ring ports UP, and the transmitter not filling (R52, R56). -/
def forwardsTo (s : State) (p : Nat) : Option Nat :=
  if s.isUp p then (otherPort s p).filter fun q => s.isUp q && !((s.port q).filler) else none

/-- Forwarding resumes at the first SOP, BUGLE or WHISTLE that a ring port in UP receives (R56, R82). -/
def resume (s : State) (p : Nat) : State :=
  match otherPort s p with
  | some q => if s.isUp p && (s.port q).filler then s.modPort q fun x => { x with filler := false } else s
  | none => s

end Sys2Proof.Machine
end

