-- ==== Sys2Proof/Machine/Traffic.lean ====
section
/-! DEFINITION. Machine/Traffic.lean: packets on the ring (chapter *Coachline: packets, slots and the two-way ring*): judging
and merging copies, execution order, the outbound queue and open slots, downward sending, positions. -/
namespace Sys2Proof

/-- TYPE of a packet (R64). -/
def Copy.type (c : Copy) : Nat := Machine.bits c.ctl.toNat 4 4
/-- UP of a packet (R64). -/
def Copy.up (c : Copy) : Bool := c.ctl.toNat.testBit 3
/-- RHB of a packet (R64). -/
def Copy.rhb (c : Copy) : Nat := Machine.bits c.ctl.toNat 2 1

end Sys2Proof

namespace Sys2Proof.Machine

/-- Header blocks of a type (R67). -/
def headerBlocks (type : Nat) : Nat := if type = 1 || type = 5 || type = 10 then 2 else 1

/-- Bits per pixel of a PIXEL FMT; none if reserved. -/
def fmtBits (fmt : Nat) : Option Nat := match fmt with | 0 => some 30 | 1 => some 36 | 2 => some 48 | _ => none

/-- The body lengths, in blocks, that a copy's header allows (R66); none where the header fixes no length. -/
def bodyAllowed (c : Copy) : Option (List Nat) :=
  match c.type with
  | 1 =>
    if (beAt c.data 15 1).testBit 1 then some [4]
    else match fmtBits (beAt c.data 14 1) with
      | some b => some [ceilDiv (beAt c.data 12 2 * b) 64]
      | none => none
  | 2 => some [ceilDiv (beAt c.data 4 1) 2]
  | 3 => some [0]
  | 4 => some [ceilDiv (beAt c.data 4 1) 2, 0]
  | 5 => some [2]
  | 6 => some [beAt c.data 4 2]
  | 8 => some [beAt c.data 6 2]
  | 10 => some [0]
  | _ => none

/-- Whether the framing and lengths of a copy hold (R64, R66), its CRC and TYPE aside. -/
def shapeOk (c : Copy) : Bool :=
  c.framed && c.data.length % 8 == 0 && decide (8 ≤ c.data.length) && decide (c.data.length ≤ 8192) &&
  decide (headerBlocks c.type ≤ c.data.length / 8) &&
  match bodyAllowed c with
  | none => true
  | some l => l.contains (c.data.length / 8 - headerBlocks c.type)

def typeOk (c : Copy) : Bool := decide (1 ≤ c.type) && decide (c.type ≤ 10)
def crcOk (c : Copy) : Bool := c.crc.toNat == copyCrc c

/-- A copy is intact (R66). [log 19 DESIGN CHOICE] -/
def intact (c : Copy) : Bool := shapeOk c && typeOk c && crcOk c

/-- The three answers of a merge window (R73). -/
inductive Verdict | accept | duplicate | stale
deriving DecidableEq, Repr

/-- Offers an intact SEQ to a window of `span` values (R73). [log 19 DESIGN CHOICE] -/
def Window.offer (w : Window) (span q : Nat) : Verdict × Window :=
  match w.newest with
  | none => (.accept, ⟨some q, [q]⟩)
  | some n =>
    let ahead := (q + 65536 - n) % 65536
    let behind := (n + 65536 - q) % 65536
    if 1 ≤ ahead && ahead ≤ 32767 then
      (.accept, ⟨some q, q :: w.marks.filter fun m => decide ((q + 65536 - m) % 65536 < span)⟩)
    else if behind < span then
      if w.marks.contains q then (.duplicate, w) else (.accept, ⟨some n, q :: w.marks⟩)
    else (.stale, w)

/-- Counts a broken copy and reports it (R66, R67, CL_PKTERR): framing, length or TYPE in ABORTED, a CRC that does not match in CRC_ERR where
an EOP brought one. -/
def brokenCopy (s : State) (dir : Nat) (c : Copy) : State :=
  let s1 := if shapeOk c && typeOk c then s else s.bump F.CL_PKTERR_ABORTED 1
  let s2 := if c.framed && !(crcOk c) then raiseLim (s1.bump F.CL_PKTERR_CRC_ERR 1) 186 msPs (d2 dir c.type) else s1
  if typeOk c then s2 else raise s2 192 (d2 dir c.type)

/-- Hop byte `i` of a route (R18). -/
def hop (route i : Nat) : Nat := bits route (24 - 8 * i) 8
def hopPos (h : Nat) : Nat := h % 64
def hopRing (h : Nat) : Nat := h / 64

/-- Leading hops of a route that name a position: the tier of a ring whose prefix this is (R19, R23). -/
def tierOf (route : Nat) : Nat :=
  if hopPos (hop route 0) = 0 then 0 else if hopPos (hop route 1) = 0 then 1
  else if hopPos (hop route 2) = 0 then 2 else if hopPos (hop route 3) = 0 then 3 else 4

/-- The first hop after the ending hop that is not 00h (R19, R20). -/
def badTail (route : Nat) : Option Nat :=
  let e := tierOf route
  (List.range 4).find? fun i => decide (e < i) && hop route i != 0

/-- Whether a ring table is held (R24, R86). -/
def tableHeld (s : State) : Bool := s.ring.tableHeld

/-- The hop a device on a ring reads for itself: by the prefix it holds; before it holds a ring table, the last hop of the route that names
a position. [log 139 DESIGN CHOICE] -/
def ownTier (s : State) (route : Nat) : Nat :=
  if tableHeld s then tierOf (s.rd F.CL_FRTAB_PREFIX_PREFIX) else tierOf route - 1

/-- The position of the partner of a coach pair on the parent ring, as the TRAIN groups and ECHO packets of the mirror link bring it; R17 names
no way by which a member learns it. [log 132 DESIGN CHOICE] -/
def partnerPos (s : State) : Option Nat :=
  let m := s.rd F.RED_CFG_MPORT
  let p := s.rd (F.CL_PSTAT_PARTNER_POS m)
  if 1 ≤ p && p ≤ 62 && m < 12 then some p else none

/-- The lead position of a coach pair (R17): the lower of the two. [log 132 DESIGN CHOICE] -/
def leadPos (s : State) : Nat :=
  if s.isCoach && s.on F.RED_CFG_EN then
    match partnerPos s with
    | some p => min p (ownPos s)
    | none => ownPos s
  else ownPos s

/-- Where an intact downward packet goes at this device (R19 to R21, R17). -/
inductive Dest where
  /-- Addressed to this device; `true` by a broadcast hop. -/
  | here (broadcast : Bool)
  /-- Its route passes through this coach into one of its rings. -/
  | through (ring : Nat)
  /-- Malformed or beyond this device: hop number and ring for CL_ROUTE_ERR. -/
  | error (hopNo ring : Nat)
  /-- For another device. -/
  | elsewhere
deriving DecidableEq, Repr

/-- Whether the device drives a ring: it has a ring end for it. -/
def drivesRing (s : State) (r : Nat) : Bool := anyIdx 12 fun p => s.portIs p 1 && s.rd (F.CL_PCFG_RING p) == r

/-- Reads a route at this device (R19 to R21). A member of a coach pair takes a route that passes on through the lead position or through its own. [log 139 DESIGN CHOICE] -/
def readRoute (s : State) (route : Nat) : Dest :=
  let t := ownTier s route
  let h := hop route t
  let nx := if t < 3 then hop route (t + 1) else 0
  let bc := hopPos h == 63
  let mine := s.on F.CL_MYPOS_VALID && (hopPos h == ownPos s || (nx != 0 && hopPos h == leadPos s))
  if !(bc || mine) then .elsewhere
  else if nx = 0 then
    match badTail route with
    | some i => .error i (hopRing (hop route i))
    | none => .here bc
  else if !s.isCoach then (if bc then .elsewhere else .error (t + 1) (hopRing nx))
  else
    match badTail route with
    | some i => .error i (hopRing (hop route i))
    | none =>
      if hopPos nx = 0 then .error (t + 1) (hopRing nx)
      else if drivesRing s (hopRing nx) then .through (hopRing nx) else .error (t + 1) (hopRing nx)

/-- Whether SEQ `q` lies after SEQ `l` in the modular order of R73. -/
def seqAfter (l q : Nat) : Bool := let n := (q + 65536 - l) % 65536; decide (1 ≤ n) && decide (n ≤ 32767)

/-- Whether a packet of SEQ `q` may execute: every SEQ between the last executed and it has been seen or has left the
window; answers whether one was not seen (R75). `gone`: SEQs that were seen before they left the window. A packet at or below the last executed
has none between and executes at once. [log 140 DESIGN CHOICE] -/
def gapState (w : Window) (gone : List Nat) (last q : Nat) : Option Bool :=
  let n := if seqAfter last q then (q + 65536 - last) % 65536 else 0
  let between := (List.range (n - 1)).map fun i => (last + 1 + i) % 65536
  let unseen := between.filter fun v => !(w.marks.contains v) && !(gone.contains v)
  if unseen.all fun v => match w.newest with
    | some m => decide (16384 ≤ (m + 65536 - v) % 65536)
    | none => true
  then some (!unseen.isEmpty) else none

/-- The held packet next in SEQ order, one at or below the last executed first. [log 140 DESIGN CHOICE] -/
def nextHeld (last : Nat) (l : List Copy) : Option Copy :=
  l.foldl (fun b c => match b with
    | none => some c
    | some x => if (c.seq.toNat + 98304 - last) % 65536 < (x.seq.toNat + 98304 - last) % 65536 then some c else b) none

/-- Moves a held packet to the queue of packets ready to execute; the last one executed is the highest SEQ of them. [log 140 DESIGN CHOICE] -/
def release (s : State) (c : Copy) (gap : Bool) : State :=
  let g := s.ring
  let q := c.seq.toNat
  let last := match g.last with | some l => if seqAfter l q then q else l | none => q
  { s with ring := { g with held := g.held.erase c, last := some last, ready := g.ready ++ [⟨c, gap⟩], seenOut := g.seenOut.filter (seqAfter last) } }

/-- Releases the held packets that may execute, in SEQ order (R75). -/
def orderRun : Nat → State → State
  | 0, s => s
  | k + 1, s =>
    match s.ring.last with
    | none => match s.ring.held with
      | [] => s
      | c :: _ => orderRun k (release s c false)
    | some l => match nextHeld l s.ring.held with
      | none => s
      | some c => match gapState s.ring.down s.ring.seenOut l c.seq.toNat with
        | some g => orderRun k (release s c g)
        | none => s

/-- Accepts a control packet into execution order (R75). -/
def acceptOrdered (s : State) (c : Copy) : State := { s with ring := { s.ring with held := s.ring.held ++ [c] } }

/-- ORDER_WAIT passed for the packet held longest: its gaps are given up, the held packets below it execute first (R75). -/
def giveUp : Nat → Nat → State → State
  | 0, _, s => s
  | k + 1, q, s =>
    match nextHeld (s.ring.last.getD q) s.ring.held with
    | none => s
    | some c =>
      let g := match s.ring.last with
        | some l => (gapState s.ring.down s.ring.seenOut l c.seq.toNat) != some false
        | none => false
      let s1 := release s c g
      let s2 := if g then raise s1 190 (bytesLE 2 c.seq.toNat) else s1
      if c.seq.toNat = q then s2 else giveUp k q s2

/-- The outgoing port of a stream direction: the ring port that transmits it (R49). -/
def outPortOf (s : State) (dir : Nat) : Option Nat := (ringPorts s).find? fun p => dirTx s p == dir

/-- Whether a copy owed on a direction can leave: its outgoing port is UP (R80). -/
def canLeave (s : State) (dir : Nat) : Bool :=
  match outPortOf s dir with
  | some q => s.isUp q
  | none => false

/-- Whether entry `a` is served before `b` (R81). -/
def servedBefore (a b : OutPkt) : Bool := decide (a.cls < b.cls) || (a.cls == b.cls && a.cls == 5 && decide (b.prio < a.prio))

/-- The entry served next among those that meet `p` (R81); packets that a coach relays go in the order they came (R28). -/
def nextOut (l : List OutPkt) (p : OutPkt → Bool) : Option OutPkt :=
  let m := l.filter p
  let first := m.find? (·.relay)
  (m.filter fun e => !e.relay || first == some e).foldl (fun b e => match b with
    | none => some e
    | some x => if servedBefore e x then some e else b) none

/-- The waiting source that is next on the upward path: highest PRIO, earliest TIME, lowest number (R334, R336). -/
def nextUpSource (s : State) : Option Nat :=
  let l := s.evc.up.filter fun e => e.2.st == .counting
  (l.foldl (fun b e => match b with
    | none => some e
    | some x =>
      let pe := s.rd (F.EVC_SRC_PRIO e.1)
      let px := s.rd (F.EVC_SRC_PRIO x.1)
      if px < pe || (px == pe && e.2.time < x.2.time) then some e else b) none).map (·.1)

/-- Delivers counted sources while an EVENT entry is free and the position is valid (R84, R336). -/
def drainUp : Nat → State → State
  | 0, s => s
  | k + 1, s =>
    if !(outqFree s 5) || !(s.on F.CL_MYPOS_VALID) then s
    else match nextUpSource s with
      | none => s
      | some n => drainUp k (upTry s n (s.usrc n)).1

/-- Takes waiting packets into freed entries (R81). -/
def fillWaiting : Nat → State → State
  | 0, s => s
  | k + 1, s =>
    match s.ring.waiting.find? fun e => outqFree s e.cls with
    | none => s
    | some e =>
      let s1 := { s with ring := { s.ring with waiting := s.ring.waiting.erase e } }
      fillWaiting k (outqPut s1 e).1

/-- An event source whose packet has left counts as released without claim (R336). -/
def upReleased (s : State) (n : Nat) : State :=
  let q := s.usrc n
  if q.st != .queued then s
  else if q.cnt = 0 then s.setUsrc n Source.init
  else (upTry s n { q with st := .idle }).1

/-- Removes the entries that owe no copy they can still send, and lets others in (R80, R81). [log 119 DESIGN CHOICE] -/
def outqSweep (s : State) : State :=
  let done := s.ring.outq.filter fun e => !((e.owedE && canLeave s 1) || (e.owedW && canLeave s 2))
  let done := done.filter fun e => !(e.owedE && e.owedW)
  if done.isEmpty then s
  else
    let s1 := { s with ring := { s.ring with outq := s.ring.outq.filter (fun e => !(done.contains e)), fullTold := false } }
    let s2 := done.foldl (fun s e => match e.src with | some n => upReleased s n | none => s) s1
    drainUp 64 (fillWaiting 64 s2)

/-- Puts a packet of a class into the outbound queue, both copies owed, and reports a first wait (R80, R81). A device without a valid
position originates none (R84). -/
def sendUp (s : State) (cls prio : Nat) (c : Copy) : State :=
  if !(s.on F.CL_MYPOS_VALID) then s
  else
  let r := outqPut s { cls := cls, prio := prio, pkt := c, owedE := true, owedW := true, src := none }
  raises r.1 r.2

/-- The upward packet of the device itself, with its route and RHB (R84); SEQ is given at insertion. -/
def upPacket (s : State) (type : Nat) (body : List Byte) : Copy :=
  mkCopy type true (s.rd F.CL_MYPOS_RHB) (s.rd F.CL_MYROUTE_ROUTE) 0 body

/-- A packet with another SEQ and its CRC anew (R71). -/
def reSeq (c : Copy) (q : Nat) : Copy :=
  let d := { c with seq := BitVec.ofNat 16 q }
  { d with crc := BitVec.ofNat 32 (copyCrc d) }

/-- A free train of the stream received at `p`: with no insertion owed or SLOT_GAP trains still to pass it goes on open;
otherwise the next packet of the outbound queue replaces it, and a cut train leaves the copy owed (R79, R80). [log 144 DEDUCED] -/
def useTrain (s : State) (p : Nat) (cut : Bool) : State :=
  match otherPort s p with
  | none => s
  | some q =>
    let dir := dirTx s q
    let g := (s.port p).gapLeft
    if 0 < g then { (s.modPort p fun x => { x with gapLeft := g - 1 }) with out := s.out ++ [.idleTrain q true] }
    else match nextOut s.ring.outq fun e => if dir = 1 then e.owedE else if dir = 2 then e.owedW else false with
      | none => { s with out := s.out ++ [.idleTrain q true] }
      | some e =>
        let fresh := e.owedE && e.owedW
        let n := (s.ring.upSeq + 1) % 65536
        let e1 := if fresh then { e with pkt := reSeq e.pkt s.ring.upSeq } else e
        let e2 := if cut then e1 else if dir = 1 then { e1 with owedE := false } else { e1 with owedW := false }
        let q1 := s.ring.outq.map fun x => if x.id == e.id then e2 else x
        let s1 := { s with ring := { s.ring with outq := q1, upSeq := if fresh && !cut then n else s.ring.upSeq } }
        if cut then { s1 with out := s1.out ++ [.packet q { e1.pkt with framed := false }] }
        else
          let s2 := s1.modPort p fun x => { x with gapLeft := s.rd F.CL_SLOT_SLOT_GAP }
          outqSweep { s2 with out := s2.out ++ [.packet q e2.pkt, .idleTrain q false] }

/-- The ports that end ring `r` at this device. -/
def ringEnds (s : State) (r : Nat) : List Nat :=
  (List.range 12).filter fun p => s.portIs p 1 && s.rd (F.CL_PCFG_RING p) == r

/-- Sends a downward packet of ring `r` with a given SEQ out of every end that is UP (R27). -/
def emitDown (s : State) (r : Nat) (c : Copy) : State :=
  { s with out := s.out ++ (((ringEnds s r).filter s.isUp).map fun p => Output.packet p c) }

/-- Whether neither end of a ring has block lock (R29). -/
def unreachable (s : State) (r : Nat) : Bool := !((ringEnds s r).any (hasBlock s))

/-- Queues a REGRSP (R70): ADDR, COUNT, STATUS and TAG of the request, words of a REGRD (R68). -/
def answer (s : State) (addr cnt status tag : Nat) (words : List Nat) : State :=
  sendUp s 2 0 (upPacket s 4 (bytesBE 4 addr ++ bytesBE 1 cnt ++ bytesBE 1 status ++ bytesBE 2 tag ++
    words.flatMap (bytesBE 4)))

/-- A packet with another ring-high bit, which belongs to the ring it goes onto (R22, R64). -/
def withRhb (c : Copy) (rhb : Nat) : Copy := { c with ctl := BitVec.ofNat 8 (setBits c.ctl.toNat 2 1 rhb) }

/-- Coach: relays an EVENT or REGRSP of its rings upward in its open slots, route unchanged, RHB that of the ring above (R22, R28). [log 29 DEDUCED] -/
def relayUp (s : State) (c : Copy) : State :=
  if s.isCoach && (c.type == 4 || c.type == 5) then
    let e : OutPkt := { cls := if c.type = 4 then 2 else 5, prio := beAt c.data 2 1 % 8, pkt := withRhb c (s.rd F.CL_MYPOS_RHB),
                        owedE := true, owedW := true, src := none, relay := true }
    let r := outqPut s e
    raises r.1 r.2
  else s

/-- The highest position whose roster entry is not free (R24). -/
def rosterTop (s : State) : Nat :=
  (List.range 62).foldl (fun m i =>
    if s.rd64 (F.CL_FRTAB_UID_LO_UID i) (F.CL_FRTAB_UID_HI_UID i) != 0 then i + 1 else m) 0

/-- The answers of R24 at one moment: a position, none with its case, or a decision that waits. -/
inductive PosAnswer where
  | take (p : Nat)
  | refuse (c : Nat)
  | wait
deriving DecidableEq, Repr

/-- The number of carriages on a ring whose roster is unlocked: R24 uses it and nothing tells a carriage, so it is a free value. [log 141 DESIGN CHOICE] -/
def ringLen (s : State) : Nat := (Config.ringLength s.free).toNat % 62 + 1

/-- The position rules of R24 on the table held and the neighbours' positions. [log 141 DESIGN CHOICE] -/
def positionAnswer (s : State) : PosAnswer :=
  let east := (ringPorts s).find? fun p => s.rd (F.CL_PSTAT_DIR_RX p) == 1
  let west := (ringPorts s).find? fun p => s.rd (F.CL_PSTAT_DIR_RX p) == 2
  let lo := east.map fun p => s.rd (F.CL_PSTAT_PARTNER_POS p)
  let hi0 := west.map fun p => s.rd (F.CL_PSTAT_PARTNER_POS p)
  if !(s.on F.CL_FRTAB_FLAGS_LOCK) then
    match lo with
    | some a => if a < 62 then .take (a + 1) else .wait
    | none => match hi0 with
      | some b => if b = 0 then .take (ringLen s) else if 2 ≤ b && b ≤ 62 then .take (b - 1) else .wait
      | none => .wait
  else
    let len := rosterTop s
    let hi := hi0.map fun b => if b = 0 then len + 1 else b
    match firstIdx 62 fun i => s.rd64 (F.CL_FRTAB_UID_LO_UID i) (F.CL_FRTAB_UID_HI_UID i) == s.strap.uid with
    | some i =>
      let p := i + 1
      let okLo := match lo with | some a => a == 63 || decide (a < p) | none => true
      let okHi := match hi with | some b => b == 63 || decide (p < b) | none => true
      if okLo && okHi then .take p else .refuse 1
    | none =>
      match lo, hi with
      | some a, some b =>
        if a = 63 || b = 63 then .wait
        else if b = a + 2 && a + 1 ≤ 62 then .take (a + 1) else .refuse 2
      | _, _ => .wait

/-- Own route: the prefix with the position filled in (R23). -/
def fullRoute (prefix_ pos : Nat) : Nat := (prefix_ + pos * 2 ^ (24 - 8 * tierOf prefix_)) % 2 ^ 32

/-- Applies R24 until a position is held: takes it, or raises CL_POS_UNASSIGNED once for a case. -/
def positionRules (s : State) : State :=
  if !(tableHeld s) || ownPos s != 63 then s
  else match positionAnswer s with
    | .wait => s
    | .take p =>
      let s1 := ((s.wr F.CL_MYPOS_POS p).wr F.CL_MYPOS_VALID 1).wr F.CL_MYROUTE_ROUTE
        (fullRoute (s.rd F.CL_FRTAB_PREFIX_PREFIX) p)
      drainUp 64 { s1 with ring := { s1.ring with posCase := 0 } }
    | .refuse c =>
      if s.ring.posCase = c then s
      else raise { s with ring := { s.ring with posCase := c } } 185 (d2 c 0 ++ bytesLE 6 0 ++ bytesLE 8 s.strap.uid)

/-- A neighbour reported its position (R24). -/
def neighbourPos (s : State) (p pos : Nat) : State :=
  if s.rd (F.CL_PSTAT_PARTNER_POS p) = pos then s
  else
    let s1 := s.wr (F.CL_PSTAT_PARTNER_POS p) pos
    if (ringPorts s).contains p then positionRules s1 else s1

end Sys2Proof.Machine
end

