-- ==== Sys2Proof/Machine/WtOps.lean ====
section
/-! DEFINITION. Machine/WtOps.lean: the PTP clock, ring generators, Bugle runs and the follower (chapter *Wall time, Bugle
marks and frame lock*). -/
namespace Sys2Proof.Machine

/-- Whether the PTP hardware clock runs on its own here: a sender with SRC 00b (11b acts as 00b) and a standalone device. -/
def ptpRuns (s : State) : Bool :=
  s.isStandalone || (s.isSender && (s.rd F.WT_CTL_SRC == 0 || s.rd F.WT_CTL_SRC == 3))

/-- `k` wall ticks of 4 ns: a waiting increment and step come into force at the first (R89, R91). -/
def wallTicks (s : State) (k : Nat) : State :=
  if k = 0 then s
  else
    let w := s.wt
    let inc := w.incNext.getD w.inc
    let step := (w.stepNext.getD 0) * ((2 ^ 28 : Nat) : Int)
    let p := if ptpRuns s then (((w.ptp + k * inc : Nat) : Int) + step) % ((2 ^ 92 : Nat) : Int) else (w.ptp : Int)
    { s with wt := { w with inc := inc, incNext := none, stepNext := none, ptp := p.toNat, evtin := [] } }

/-- Local time runs to `t` ps, with the wall ticks that fall in between. [log 34 DEDUCED] -/
def advanceTo (s : State) (t : Nat) : State :=
  if t ≤ s.now then s
  else wallTicks { s with now := t } (t / 4000 - s.now / 4000)

/-- The local time at which wall time reads `ns`: counted by the PTP clock, or from the last fence by the flywheel period (R108, R110). -/
def localAt (s : State) (ns : Nat) : Int :=
  let f := s.wt.fol
  if ptpRuns s then
    let cur := s.wt.ptp / 2 ^ 28
    if ns ≤ cur then (s.now : Int) - (((cur - ns) * 1000 : Nat) : Int)
    else ((s.now / 4000 * 4000 + 4000 * ceilDiv (ns * 2 ^ 28 - s.wt.ptp) (max 1 s.wt.inc) : Nat) : Int)
  else if !f.shown then ((s.now + ns * 1000 : Nat) : Int)
  else
    let el : Int := ((ns : Int) - (f.lastFlip : Int)) * 1000
    let nom := nominalPs (s.rd F.WT_FMARK_RATE)
    (f.lastFence : Int) + (if nom = 0 then el else el * (flyPs s : Int) / (nom : Int))

/-- Wall time for an edge stamp, in ns: within a wall tick it is counted on in steps of the 1.25 ns core clock (R94). -/
def stampNs (s : State) : Nat :=
  if ptpRuns s then (s.wt.ptp + s.now % 4000 / 1250 * 1250 * s.wt.inc / 4000) / 2 ^ 28 % 2 ^ 64 else wallNs s

/-- A write of WT_INC (R89, R90): clamped to INC_LIM ppm of nominal; ignored in a coach with SRC 01b; ends a FREERUN that
the watchdog set. `old` is the word before the write. -/
def incWrite (s : State) (v old : Nat) : State :=
  if !(ptpRuns s) then s.setReg R.WT_INC old
  else
    let nom := 0x40000000
    let d := nom * s.rd F.WT_INC_LIM_LIM / 1000000
    let c := clamp (nom - d) (nom + d) v
    let s1 := (s.setReg R.WT_INC c).wr F.WT_STAT_CLAMPED (b2n (c != v))
    let s2 := if s1.wt.wdFree then (s1.wr F.WT_STAT_FREERUN 0) else s1
    let s3 := { s2 with wt := { s2.wt with incNext := some c, wdFree := false } }
    if c = v then s3 else raise s3 209 (d2 0 0 ++ bytesLE 4 v)

/-- FREERUN set by the watchdog (cause 1) or the host (cause 2) (R90). -/
def setFreerun (s : State) (cause : Nat) : State :=
  let s1 := s.wr F.WT_STAT_FREERUN 1
  raise { s1 with wt := { s1.wt with wdFree := s1.wt.wdFree || cause == 1 } } 208 (d2 cause 0)

def clrFreerun (s : State) : State :=
  let s1 := s.wr F.WT_STAT_FREERUN 0
  { s1 with wt := { s1.wt with wdFree := false } }

/-- WT counts as disabled while every generator has EN = 0 (R91). -/
def wtEnabled (s : State) : Bool := anyIdx 8 fun n => s.on (F.WT_RCFG_EN n)

/-- WT_STEP_HI written: the signed offset waits for the next wall tick (R91); ignored in a coach with SRC 01b (R93). [log 15 DEDUCED, 146 DESIGN CHOICE] -/
def stepWrite (s : State) (hi : Nat) : State :=
  if ptpRuns s then { s with wt := { s.wt with stepNext := some (signed (s.wt.stepLo + 2 ^ 32 * hi) 64) } } else s

def State.gen (s : State) (n : Nat) : Gen := s.wt.gens.get Gen.init n
def State.setGen (s : State) (n : Nat) (g : Gen) : State := { s with wt := { s.wt with gens := s.wt.gens.set Gen.init n g } }

/-- A generator is running: enabled and not stopped by a reserved rate. -/
def genRuns (s : State) (n : Nat) : Bool := s.on (F.WT_RCFG_EN n) && (s.gen n).started

/-- The lowest-numbered running generator (R97). -/
def refGen (s : State) : Option Nat := firstIdx 8 (genRuns s)

/-- flip_ns of count `n` at a rate code. [log 36 DEDUCED] -/
def flipOf (code n : Nat) : Nat := match rateFrac code with | some (a, b) => flipNs a b n | none => 0

/-- The first frame count whose flip is at or after `t` ns: the least n with ceil(n·den·10^9/num) ≥ t. -/
def firstCount (code t : Nat) : Nat :=
  match rateFrac code with
  | some (a, b) => if t = 0 then 0 else (t - 1) * a / (b * 1000000000) + 1
  | none => 0

/-- Shows a generator's next frame and flip in WT_RFRAME and WT_RFLIP. -/
def showGen (s : State) (n : Nat) : State :=
  let g := s.gen n
  let f := g.next % 2 ^ 48
  let s1 := (s.wr (F.WT_RFRAME_LO_FRAME n) (f % 2 ^ 32)).wr (F.WT_RFRAME_HI_FRAME n) (f / 2 ^ 32)
  s1.wr64 (F.WT_RFLIP_LO_FLIP n) (F.WT_RFLIP_HI_FLIP n) (flipOf g.rate g.next)

/-- WT_RCFG.EN became 1: the first fence is that of the first frame whose copy 0 has its nominal departure at or after now;
a reserved rate leaves the generator stopped with WT_RATE_BAD (R95, R96). [log 18 DEDUCED] -/
def genEnable (s : State) (n : Nat) : State :=
  let code := s.rd (F.WT_RCFG_RATE n)
  match rateFrac code with
  | none => raise (s.setGen n { s.gen n with started := false }) 219 (d2 n code)
  | some _ =>
    let c := firstCount code (wallNs s + s.rd (F.WT_RCFG_LEAD n) * 50000)
    showGen (s.setGen n { Gen.init with started := true, next := c, mark := c, markRate := code, rate := code }) n

def genDisable (s : State) (n : Nat) : State := s.setGen n { s.gen n with started := false }

/-- The COMMIT and REPEAT bits of one transaction in the mark of a ring's frame (R127): those of T and of the next three. -/
def xidBits (x : Xid) (ring frame : Nat) : Nat × Nat :=
  match x.rings.find? fun e => e.1 == ring with
  | none => (0, 0)
  | some (_, t) =>
    let d := (frame + 2 ^ 48 - t) % 2 ^ 48
    if x.st != .fired then (0, 0)
    else if d = 0 then (1, 0) else if d ≤ 3 then (1, 1) else (0, 0)

def State.xid (s : State) (x : Nat) : Xid := s.xa.xids.get Xid.init x
def State.setXid (s : State) (x : Nat) (v : Xid) : State := { s with xa := { s.xa with xids := s.xa.xids.set Xid.init x v } }

/-- Swap fences of R136: frames that are multiples of SWAP_PERIOD while XID 15 is the swap channel. -/
def isSwapFence (s : State) (frame : Nat) : Bool :=
  s.on F.XA_AUTO_SWAP_SYNC && frame % zeroAs1 (s.rd F.XA_AUTO_SWAP_PERIOD) == 0

/-- The ratio k of a coach ring to its parent, 1 to 10, in the same ÷1.001 choice (R110). -/
def rateRatio (ring parent : Nat) : Option Nat :=
  match rateFrac ring, rateFrac parent with
  | some (a, b), some (c, d) =>
    if b = d && c != 0 && a % c = 0 && decide (1 ≤ a / c) && decide (a / c ≤ 10) then some (a / c) else none
  | _, _ => none

/-- The ratio of ring `n` to the parent ring; 1 where there is none. -/
def parentRatio (s : State) (n : Nat) : Nat := (rateRatio (s.rd (F.WT_RCFG_RATE n)) (s.rd F.WT_FMARK_RATE)).getD 1

/-- The first intact copy of a frame's mark, among those of the last frames heard (R103). -/
def seenMark (s : State) (frame : Nat) : Option Mark := s.wt.fol.seen.find? fun x => x.frame == frame

/-- The parent's bits for parent XID `x` in a coach's mark of `frame`: those of the first intact copy held for the parent frame that
falls with it (R129). [log 37 DEDUCED] -/
def parentBits (s : State) (x k frame : Nat) : Nat × Nat :=
  match (if frame % k = 0 then seenMark s (frame / k) else none) with
  | some m => (b2n (m.commit.testBit x), b2n (m.rep.testBit x))
  | none => (0, 0)

/-- Bits of a coach's sub-transaction of parent XID `p` (R127, R129): the parent's bits in the mark of k × F, COMMIT 1 REPEAT 1 in the next
three after the one that fires it, and HOLD (0, 1) while no parent mark with the decision is held. [log 37 DEDUCED] -/
def subBits (s : State) (x : Xid) (p ring frame : Nat) : Nat × Nat :=
  match x.rings.find? fun e => e.1 == ring with
  | none => (0, 0)
  | some (_, t) =>
    let k := parentRatio s ring
    let d := (frame + 2 ^ 48 - t) % 2 ^ 48
    if 2 ^ 47 < d then (0, 0)
    else match x.st, x.fireFrame with
      | .fired, some f =>
        let e := (frame + 2 ^ 48 - k * f) % 2 ^ 48
        if e = 1 || e = 2 || e = 3 then (1, 1) else parentBits s p k frame
      | .preparing, _ => (0, 1)
      | .voting, _ => (0, 1)
      | _, _ => (0, 0)

/-- The COMMIT and REPEAT vectors of the mark of `frame` on ring `n` (R127, R136); the transactions of a ring whose marks have changed
their numbers and its fences not yet count on in the old ones (R135). [log 147 DEDUCED] -/
def commitBits (s : State) (n frame : Nat) : Nat × Nat :=
  let count := match (s.wt.gens.get Gen.init n).turned with | some (t, m) => t + 1 + (frame - m) | none => frame
  (List.range 16).foldl (fun (a : Nat × Nat) x =>
    let v := s.xid x
    let e := if x = 15 && s.on F.XA_AUTO_SWAP_SYNC && v.st == .free then (b2n (isSwapFence s (frame % 2 ^ 48)), 0)
      else match v.parent with
        | some p => subBits s v p n count
        | none => xidBits v n count
    (a.1 + e.1 * 2 ^ x, a.2 + e.2 * 2 ^ x)) (0, 0)

/-- The 32 bytes of a Bugle run (R98, R99). -/
def bugleBytes (flags frame flip corr rate lead commit rep : Nat) : List Byte :=
  let b0 := bytesBE 1 flags ++ bytesBE 6 frame
  let b1 := bytesBE 1 (64 + rep / 1024) ++ bytesBE 6 (flip / 65536)
  let b2 := bytesBE 1 (128 + (rep / 16) % 64) ++ bytesBE 2 (flip % 65536) ++ bytesBE 4 corr
  let b3 := bytesBE 1 (192 + (rep % 16) * 4) ++ bytesBE 1 rate ++ bytesBE 2 commit ++ bytesBE 1 lead
  let t := [0xA5#8]
  t ++ b0 ++ t ++ b1 ++ t ++ b2 ++ t ++ b3 ++ bytesBE 2 (crc16 (b0 ++ b1 ++ b2 ++ b3))

/-- The bytes a run's CRC covers (R99). -/
def bugleCrcBytes (b : List Byte) : List Byte := slice b 1 7 ++ slice b 9 7 ++ slice b 17 7 ++ slice b 25 5

/-- A run is intact (R99): four BUGLE blocks with indices 0 to 3, CRC, a defined RATE, LEAD within 10 to 160. -/
def bugleIntact (b : List Byte) : Bool :=
  b.length == 32 && ([0, 8, 16, 24].all fun i => beAt b i 1 == 0xA5) &&
  ([0, 1, 2, 3].all fun i => beAt b (8 * i + 1) 1 / 64 == i) &&
  crc16 (bugleCrcBytes b) == beAt b 30 2 && (rateFrac (beAt b 26 1)).isSome &&
  decide (10 ≤ beAt b 29 1) && decide (beAt b 29 1 ≤ 160)

/-- The mark a run spells (R98), with no fence yet. -/
def parseMark (b : List Byte) : Mark :=
  let rep := (beAt b 9 1 % 64) * 1024 + (beAt b 17 1 % 64) * 16 + (beAt b 25 1 / 4) % 16
  { frame := beAt b 2 6, flip := beAt b 10 6 * 65536 + beAt b 18 2, rate := beAt b 26 1, lead := beAt b 29 1,
    flags := beAt b 1 1 % 64, commit := beAt b 27 2, rep := rep, fenceE := none, fenceW := none, bankReady := false,
    other := false }

/-- CORR of a run, signed ps. -/
def bugleCorr (b : List Byte) : Int := signed (beAt b 20 4) 32

/-- The run as it is sent on: CORR raised by the delay and residence of the port it came by, CRC anew, or inverted where
CORR would pass 2^31 − 1; a broken run unchanged (R101). -/
def bugleForward (s : State) (p : Nat) (b : List Byte) : List Byte :=
  if !(bugleIntact b) then b
  else
    let c := bugleCorr b + s.rdS (F.CL_PDELAY_DELAY p) + ((residence s p : Nat) : Int)
    let m := parseMark b
    let r := bugleBytes m.flags m.frame m.flip (toBits c 32) m.rate m.lead m.commit m.rep
    if c ≤ 2147483647 then r else r.take 30 ++ (r.drop 30).map fun x => ~~~x

/-- The state of the follower (WT_FSTAT.STATE): 0 SEEK, 1 LOCKED, 2 FLYWHEEL, 3 UNLOCKED. -/
def folState (s : State) : Nat := s.rd F.WT_FSTAT_STATE

/-- The fence a mark predicts by a direction (1 or 3 eastbound or mirror, 2 westbound), else by the other. -/
def markFence (m : Mark) (dir : Nat) : Option Nat :=
  let own := if dir = 2 then m.fenceW else m.fenceE
  let oth := if dir = 2 then m.fenceE else m.fenceW
  if m.other then (match oth with | some t => some t | none => own)
  else match own with | some t => some t | none => oth

/-- Adds an intact copy of direction `d` with its predicted fence to the pending marks; at most three are pending (R103,
R108). Answers the marks and whether it is the first copy of its frame. -/
def addCopy (l : List Mark) (m : Mark) (d fence : Nat) : List Mark × Bool :=
  let put (x : Mark) : Mark :=
    if d = 2 then (if x.fenceW.isNone then { x with fenceW := some fence } else x)
    else (if x.fenceE.isNone then { x with fenceE := some fence } else x)
  match l.find? fun x => x.frame == m.frame with
  | some _ => (l.map (fun y => if y.frame == m.frame then put y else y), false)
  | none =>
    (if l.length < 3 then l ++ [put m] else l, true)

/-- The earliest pending mark by its fence. -/
def earliest (l : List Mark) (dir : Nat) : Option (Mark × Nat) :=
  l.foldl (fun b m => match markFence m dir with
    | none => b
    | some t => match b with
      | none => some (m, t)
      | some (_, u) => if t < u then some (m, t) else b) none

/-- A later intact copy that differs from the first copy of its frame in COMMIT, REPEAT, RATE or FLIP (R104). [log 129 DEDUCED] -/
def copyConflict (s : State) (m : Mark) : State :=
  match seenMark s m.frame with
  | some f =>
    if f.commit != m.commit || f.rep != m.rep || f.rate != m.rate || f.flip != m.flip
    then raise s 214 (bytesLE 6 m.frame ++ bytesLE 2 f.commit ++ bytesLE 2 m.commit) else s
  | none => s

/-- Keeps the first intact copy of a frame's mark, of the last eight frames heard. [log 37 DEDUCED] -/
def noteSeen (s : State) (m : Mark) : State :=
  if (seenMark s m.frame).isSome then s
  else { s with wt := { s.wt with fol := { s.wt.fol with seen := (s.wt.fol.seen ++ [m]).drop (s.wt.fol.seen.length - 7) } } }

/-- An intact copy reaches the follower from direction `d` by port `p` (R102 to R104, R106): the first copy of its frame gives the parameters.
Answers whether it is the first that can be used. [log 129 DEDUCED] -/
def followCopy (s : State) (p d : Nat) (b : List Byte) (ready : Bool) : State × Bool :=
  let own := { parseMark b with bankReady := ready }
  let m := (seenMark s own.frame).getD own
  let remain := ((own.lead * 50000000 : Nat) : Int) - bugleCorr b - s.rdS (F.CL_PDELAY_DELAY p)
  let s0 := noteSeen (copyConflict s own) own
  if remain ≤ 0 then (raise s0 215 (d2 d 1), false)
  else if s0.wt.fol.taken.any fun x => x.frame == m.frame then (s0, false)
  else
    let a := addCopy s0.wt.fol.marks m d (s0.now + remain.toNat)
    let s1 := { s0 with wt := { s0.wt with fol := { s0.wt.fol with marks := a.1 } } }
    if !a.2 then (s1, false)
    else
      let s2 := ((s1.wr F.WT_FSTAT_TIER (bits m.flags 2 3)).wr F.WT_FSTAT_HOLD (bits m.flags 0 1)).wr F.WT_FSTAT_FLY (bits m.flags 1 1)
      let s3 := (s2.wr F.WT_FMARK_RATE m.rate).wr F.WT_FMARK_LEAD m.lead
      if folState s3 = 0 then
        let s4 := if s3.rd F.WT_FSTAT_DIR = 0 then s3.wr F.WT_FSTAT_DIR d else s3
        (raise (s4.wr F.WT_FSTAT_STATE 1) 210 (d2 (s4.rd F.WT_FSTAT_DIR) (bits m.flags 2 3)), true)
      else (s3, true)

/-- Signed ps in 32 bits, saturating. -/
def ps32 (x : Int) : Nat := toBits (satI 32 x) 32

/-- The follower takes a pending mark's fence at `t` (R103, R106 to R108). -/
def takeMark (s : State) (m : Mark) (t : Nat) : State :=
  let f := s.wt.fol
  let st := folState s
  let pred := f.lastFence + flyPs s
  let dev : Int := (t : Int) - (pred : Int)
  let iv := if st = 1 && f.shown then ((t - f.lastFence) :: f.intervals).take 16 else f.intervals
  let s1 := { s with wt := { s.wt with fol := { f with marks := f.marks.filter (fun x => x.frame != m.frame), lastFence := t, lastFrame := m.frame, lastFlip := m.flip, shown := true, intervals := iv, taken := some m } } }
  let s2 := ((s1.wr F.WT_FSTAT_STATE 1).wr F.WT_FSTAT_FLY_COUNT 0)
  let s3 := if st = 2 || st = 3 then
      let s4 := s2.wr F.WT_FDEV_DEV (ps32 dev)
      let s5 := if decide (((s.rd F.WT_FCFG_STEP_THR * 1000 : Nat) : Int) < dev) || decide (dev < -((s.rd F.WT_FCFG_STEP_THR * 1000 : Nat) : Int))
        then raise s4 213 (bytesLE 4 (ps32 dev)) else s4
      if st = 3 then raise s5 210 (d2 (s.rd F.WT_FSTAT_DIR) (bits m.flags 2 3)) else s5
    else s2
  count (trace s3 2 (s.rd F.WT_FSTAT_DIR + 4 * bits m.flags 1 1 + 8 * bits m.flags 2 3) (bytesLE 6 m.frame)) 33 1

/-- The follower takes a predicted fence without a mark: the next frame at its flip of R95 (R106, R107). -/
def takePredicted (s : State) (t : Nat) : State :=
  let f := s.wt.fol
  let st := folState s
  let n := satAdd 12 (s.rd F.WT_FSTAT_FLY_COUNT) 1
  let rate := s.rd F.WT_FMARK_RATE
  let flip := flipOf rate (firstCount rate (f.lastFlip + 1))
  let s1 := { s with wt := { s.wt with fol := { f with lastFence := t, lastFrame := (f.lastFrame + 1) % 2 ^ 48, lastFlip := flip, shown := true, taken := none } } }
  let s2 := s1.wr F.WT_FSTAT_FLY_COUNT n
  let s3 := if st = 1 then raise (s2.wr F.WT_FSTAT_STATE 2) 211 (d2 (s.rd F.WT_FSTAT_DIR) 0) else s2
  let s4 := if folState s3 = 2 && decide (zeroAs1 (s.rd F.WT_FCFG_FLY_MAX) ≤ n) then raise (s3.wr F.WT_FSTAT_STATE 3) 212 (d2 0 0) else s3
  count s4 34 1

/-- The follower's next fence falls: a pending mark's, or the predicted one; then a waiting change of timing direction and
the return to SEEK after FLY_MAX frames without a port in UP that its marks come by (R105, R106, R108, R111). Answers whether a fence fell. -/
def followerFence (s : State) : State × Bool :=
  if folState s = 0 then (s, false)
  else
    let f := s.wt.fol
    let pred := f.lastFence + flyPs s
    let half := nominalPs (s.rd F.WT_FMARK_RATE) / 2
    let pick := match earliest f.marks (s.rd F.WT_FSTAT_DIR) with
      | none => none
      | some (m, t) => if !f.shown || decide (t ≤ pred) || decide (t - pred < half) then some (m, t) else none
    if pick.isNone && !f.shown then (s, false)
    else
      let s1 := match pick with
        | some (m, t) => takeMark (advanceTo s t) m (max t s.now)
        | none => takePredicted (advanceTo s pred) (max pred s.now)
      let s2 := match s1.wt.fol.dirNext with
        | none => s1
        | some d =>
          let old := s1.rd F.WT_FSTAT_DIR
          let s3 := { s1.wr F.WT_FSTAT_DIR d with wt := { s1.wt with fol := { s1.wt.fol with dirNext := none } } }
          raise s3 216 (d2 d old)
      let ports := if s2.isSender && !s2.isCoach then [s2.rd F.RED_CFG_MPORT] else ringPorts s2
      let n := if ports.any s2.isUp then 0 else s2.wt.fol.noUpFrames + 1
      let s4 := { s2 with wt := { s2.wt with fol := { s2.wt.fol with noUpFrames := n } } }
      let s5 := if zeroAs1 (s4.rd F.WT_FCFG_FLY_MAX) < n then
          { s4.wr F.WT_FSTAT_STATE 0 with wt := { s4.wt with fol := { s4.wt.fol with marks := [], intervals := [], shown := false, taken := none, seen := [], noUpFrames := 0 } } }
        else s4
      let fr := s5.wt.fol.lastFrame
      ((s5.wr F.WT_FFRAME_LO_FRAME (fr % 2 ^ 32)).wr F.WT_FFRAME_HI_FRAME (fr / 2 ^ 32), true)

/-- The smallest count at a new rate whose flip is at least half a new period after the flip of T at the old rate (R135). -/
def rateChangeCount (old new t : Nat) : Nat :=
  firstCount new (flipOf old t + ceilDiv (nominalPs new) 2000)

/-- The transactions of ring `n` count on in the frame numbers of a new rate, whose first frame after `t` is `m`: one whose T has come by its fences
since, another by the flip of its T (R119, R135). [log 147 DEDUCED] -/
def renumber (s : State) (n t m old new : Nat) : State :=
  forIdx 16 s fun s x =>
    let v := s.xid x
    let turn (u : Nat) : Nat := if u ≤ t then m + u - t - 1 else firstCount new (flipOf old u)
    if v.parent.isNone && v.rings.any (fun e => e.1 == n)
    then s.setXid x { v with rings := v.rings.map fun e => if e.1 == n then (e.1, turn e.2) else e } else s

/-- Generator `n` takes a new rate after its frame `t` (R135); a reserved one stops it (R95). [log 18 DEDUCED] -/
def turnRate (s : State) (n code t : Nat) : State :=
  let g := s.gen n
  match rateFrac code with
  | none => raise (s.setGen n { g with started := false, newRate := none, turned := none }) 219 (d2 n code)
  | some _ =>
    let m := rateChangeCount g.rate code t
    let g1 := if g.turned.isSome then g else { g with mark := m, copy := 0, markRate := code }
    renumber (s.setGen n { g1 with next := m, rate := code, newRate := none, turned := none }) n t m g.rate code

/-- A generator's fence falls: wall time reaches its flip, moved by the pair offset (R111); a RATE of an automatic transaction comes into force from its
frame on, and WT_RCFG shows it (R95, R97, R135). Answers the frame shown, none if the generator does not run. -/
def genFence (s : State) (n : Nat) : State × Option Nat :=
  if !(genRuns s n) then (s, none)
  else
    let g := s.gen n
    let s1 := advanceTo s (localAt s (flipOf g.rate g.next) + s.wt.slew).toNat
    let s2 := match g.newRate.filter fun e => e.2 == g.next with
      | some (code, t) => (turnRate (s1.setGen n { g with lastFence := s1.now }) n code t).wr (F.WT_RCFG_RATE n) code
      | none => s1.setGen n { g with next := g.next + 1, lastFence := s1.now }
    (showGen s2 n, some (g.next % 2 ^ 48))

end Sys2Proof.Machine
end

