-- ==== Sys2Proof/Machine/MirrorOps.lean ====
section
/-! DEFINITION. Machine/MirrorOps.lean: the mirror link's channels, the lease a member holds, Whistles, and the origination
of downward packets in one sender or a pair (chapter *The sender pair*). -/
namespace Sys2Proof.Machine

/-- A member of a sender pair (R270); a sender that is not is alone (R272). -/
def pairEn (s : State) : Bool := s.isSender && s.on F.RED_CFG_EN

def mport (s : State) : Nat := s.rd F.RED_CFG_MPORT

/-- The mirror port is UP. [log 69 DEDUCED] -/
def mirrorUp (s : State) : Bool := pairEn s && decide (mport s < 12) && s.isUp (mport s)

/-- A ring counts as enabled while one of its ring-end ports has EN = 1 (R283). -/
def ringEnabled (s : State) (r : Nat) : Bool := !(ringEnds s r).isEmpty

/-- The rings this member drives. -/
def enabledRings (s : State) : List Nat := (List.range 8).filter (ringEnabled s)

/-- Whether this member holds ring `r`: alone, every enabled ring (R272). -/
def holds (s : State) (r : Nat) : Bool := if pairEn s then s.on (F.RED_RSTAT_HELD r) else ringEnabled s r

/-- The epoch held or last heard for a ring; 1 alone (R272). -/
def epochOf (s : State) (r : Nat) : Nat := if pairEn s then s.rd (F.RED_REPOCH_EPOCH r) else 1

/-- Active: every enabled ring held; standby: none; split otherwise (R284). -/
def redRole (s : State) : Nat :=
  if !(pairEn s) then 0
  else
    let l := enabledRings s
    if !(l.any (holds s)) then 2 else if l.all (holds s) then 1 else 3

def isActive (s : State) : Bool := redRole s == 0 || redRole s == 1

def State.lease (s : State) (r : Nat) : Lease := s.pair.lease.get Lease.init r
def State.setLease (s : State) (r : Nat) (x : Lease) : State :=
  { s with pair := { s.pair with lease := s.pair.lease.set Lease.init r x } }

/-- Whether this member counts as home: its bit, or the lower identity under a conflict (R271). -/
def countsHome (s : State) : Bool :=
  let own := s.on F.RED_CFG_HOME
  if s.pair.partnerHome == some own then
    decide (s.strap.uid < s.rd64 (F.CL_PUID_LO_PUID (mport s)) (F.CL_PUID_HI_PUID (mport s)))
  else own

/-- Healthy by R288. -/
def healthyNow (s : State) : Bool :=
  pairEn s && mirrorUp s && s.on F.RED_STAT_SYNCED && !(s.on F.CHK_PSTAT_DIVERGED) &&
  (enabledRings s).all (fun r => (ringEnds s r).all s.isUp) && s.rd F.SYS_MSTAT_MODE == 3

/-- CRC-8 of a Whistle (R282). -/
def whistleCrc (b : List Byte) : Nat := crcBytes 8 0x07 0xFF (slice b 1 6)

/-- The eight bytes of a Whistle (R282). -/
def whistleBytes (flags epoch ring : Nat) : List Byte :=
  let b := [0x5A#8] ++ bytesLE 1 flags ++ bytesBE 4 epoch ++ bytesLE 1 ring
  b ++ bytesLE 1 (whistleCrc b)

/-- An intact Whistle. -/
def whistleIntact (b : List Byte) : Bool := b.length == 8 && beAt b 0 1 == 0x5A && whistleCrc b == beAt b 7 1

/-- The epoch of this member's Whistle for a ring: its own, the holder's as copied, else the last it held or copied; 1 alone (R272, R283). -/
def whistleEpoch (s : State) (r : Nat) : Nat :=
  if !(pairEn s) then 1 else if holds s r then epochOf s r else (s.lease r).epoch

/-- The flags byte of this member's Whistle for a ring (R272, R282, R283). -/
def whistleFlags (s : State) (r : Nat) : Nat :=
  if !(pairEn s) then 7
  else
    let x := s.lease r
    let held := holds s r || x.heard
    let hh := if holds s r then countsHome s else x.holderHome
    let cp := match s.pair.grant with | some g => g.mask.testBit r | none => false
    b2n held + 2 * b2n (s.on F.RED_CFG_HOME) + 4 * b2n hh + 8 * b2n (mirrorUp s) + 16 * b2n (s.on F.RED_STAT_HEALTHY) + 32 * b2n cp

/-- Flags and epoch of a ring's Whistle as one number, by which a change of content is seen. -/
def whistleContent (s : State) (r : Nat) : Nat := whistleFlags s r + 256 * whistleEpoch s r + 1

/-- Sends ring `r`'s Whistle from its ends, and on the mirror link (R283). [log 41 DEDUCED] -/
def sendWhistle (s : State) (r : Nat) : State :=
  let b := whistleBytes (whistleFlags s r) (whistleEpoch s r) r
  let ends := (ringEnds s r).filter s.isUp
  let ports := if mirrorUp s then ends ++ [mport s] else ends
  let s1 := s.setLease r { s.lease r with sent := whistleContent s r }
  { s1 with out := s1.out ++ ports.map fun p => Output.whistle p b }

/-- Shows the member's state in RED_STAT, where a member that has become active waits for RINGS_GO, and sends a Whistle for each ring whose content changed (R283, R284, R288). -/
def redRefresh (s : State) : State :=
  if !s.isSender then s
  else
    let mask := (enabledRings s).foldl (fun m r => m + b2n (holds s r) * 2 ^ r) 0
    let hn := healthyNow s
    let role := redRole s
    let stopped := if role = 1 then (if s.rd F.RED_STAT_ROLE = 1 then s.rd F.RED_STAT_RINGS_STOPPED else 1) else 0
    let s1 := ((((s.wr F.RED_STAT_RINGS_STOPPED stopped).wr F.RED_STAT_ROLE role).wr F.RED_STAT_MIRROR_UP (b2n (mirrorUp s))).wr F.RED_STAT_HELD_MASK mask).wr F.RED_STAT_HEALTHY (b2n hn)
    let s2 := s1.wr F.RED_STAT_SOLO (b2n (s.on F.RED_CFG_RED_SOLO && pairEn s && !(mirrorUp s)))
    let hs := if hn then (match s.pair.healthySince with | some t => some t | none => some s.now) else none
    let s3 := { s2 with pair := { s2.pair with healthySince := hs } }
    (enabledRings s3).foldl (fun s r => if (s.lease r).sent = whistleContent s r then s else sendWhistle s r) s3

def State.chan (s : State) (u : Bool) : Chan := if u then s.pair.chU else s.pair.chS
def State.setChan (s : State) (u : Bool) (c : Chan) : State :=
  { s with pair := if u then { s.pair with chU := c } else { s.pair with chS := c } }

/-- Bytes an item takes in a channel's queue: SOP, header and EOP blocks and eight bytes a field. -/
def MItem.size (i : MItem) : Nat := 24 + 8 * i.body.length

def Chan.used (c : Chan) : Nat := (c.unacked ++ c.waiting).foldl (fun n i => n + i.size) 0

/-- Room of a channel: 16 KiB in U, 48 KiB in S (R273). -/
def chanRoom (u : Bool) : Nat := if u then 16384 else 49152

/-- Shows the channels' use in KiB (RED_MQ). -/
def showMq (s : State) : State :=
  (s.wr F.RED_MQ_S_USED (min 48 (ceilDiv (s.chan false).used 1024))).wr F.RED_MQ_U_USED (min 16 (ceilDiv (s.chan true).used 1024))

/-- Sends one item of a channel: its packet leaves the mirror port (R273). -/
def mirrorOut (s : State) (u : Bool) (i : MItem) : State :=
  let ack := ((s.chan u).rx + 65535) % 65536
  { s with out := s.out ++ [.mirror i.kind (b2n (!u)) i.mseq ack i.arg i.body] }

/-- Queues an item on a channel while the mirror port is UP; one without room waits, and a wait in U raises RED_MQ_FULL
(R273, R275). -/
def mirrorSend (s : State) (u : Bool) (kind arg : Nat) (body : List Nat) : State :=
  if !(mirrorUp s) then s
  else
    let c := s.chan u
    let i : MItem := ⟨kind, c.next, arg, body⟩
    let fits := c.waiting.isEmpty && decide ((c.unacked.foldl (fun n i => n + i.size) 0) + i.size ≤ chanRoom u)
    let c1 := { c with next := (c.next + 1) % 65536 }
    if fits then mirrorOut (showMq (s.setChan u { c1 with unacked := c.unacked ++ [i] })) u i
    else
      let s1 := showMq (s.setChan u { c1 with waiting := c.waiting ++ [i] })
      if u && c.waiting.isEmpty then raise s1 443 (d2 0 0) else s1

/-- Queues an item whose ACKK this member then waits for; `subject` is the XID or job it concerns (R128, R279). [log 67 DEDUCED] -/
def mirrorAsk (s : State) (u : Bool) (kind : Nat) (body : List Nat) (subject : Nat) : State :=
  if !(mirrorUp s) then s
  else
    let q := (s.chan u).next
    mirrorSend { s with pair := { s.pair with owed := s.pair.owed ++ [(kind, q, subject)] } } u kind 0 body

/-- Lets waiting items in while they fit. [log 62 DEDUCED] -/
def mirrorFill : Nat → State → Bool → State
  | 0, s, _ => s
  | k + 1, s, u =>
    let c := s.chan u
    match c.waiting with
    | [] => s
    | i :: r =>
      if (c.unacked.foldl (fun n i => n + i.size) 0) + i.size ≤ chanRoom u
      then mirrorFill k (mirrorOut (s.setChan u { c with unacked := c.unacked ++ [i], waiting := r }) u i) u
      else s

/-- An ACK of the partner: items up to it are delivered (R273). -/
def mirrorAck (s : State) (u : Bool) (ack : Nat) : State :=
  let c := s.chan u
  let left := c.unacked.filter fun i => decide (0 < (i.mseq + 65536 - ack) % 65536) && decide ((i.mseq + 65536 - ack) % 65536 < 32768)
  showMq (mirrorFill c.waiting.length (s.setChan u { c with unacked := left }) u)

/-- An arriving MIRROR packet: its ACK counts, and it is accepted if it carries the next MSEQ of its channel (R273). -/
def mirrorAccept (s : State) (h : MHead) : State × Bool :=
  let u := !h.chS
  if !(mirrorUp s) then (s, false)
  else
    let s1 := mirrorAck s u h.ack.toNat
    let c := s1.chan u
    if h.mseq.toNat = c.rx then (s1.setChan u { c with rx := (c.rx + 1) % 65536 }, true) else (s1, false)

/-- The mirror port left UP: both channels are emptied and their counters restart (R273). -/
def mirrorReset (s : State) : State :=
  showMq { s with pair := { s.pair with chU := ⟨[], [], 0, 0⟩, chS := ⟨[], [], 0, 0⟩, owed := [] } }

/-- Whether a member sends on its ring ends at all: not while SILENT, nor as a target before its first sync unless it holds (R293, R295). -/
def mayOriginate (s : State) (r : Nat) : Bool :=
  !(s.on (F.RED_RSTAT_SILENT r)) && (!(pairEn s) || s.pair.everSynced || holds s r || !(mirrorUp s || s.pair.wasTarget))

def State.win (s : State) (r : Nat) : SendWin := s.cmp.win.get SendWin.init r

/-- GUARD in ns. -/
def guardNs (s : State) : Nat := s.rd F.CMP_CTL_GUARD * 10000

/-- The block period of a ring in ps: its ring end's rate and width (R87, R178). -/
def ringBlockPs (s : State) (r : Nat) : Nat :=
  match ringEnds s r with
  | [] => 2560
  | p :: _ => (if portRate s p = 1 then 2560 else 6400) / (if s.on (F.CL_PCFG_WIDTH2 p) then 2 else 1)

/-- The PIXEL share of a ring in ten-thousandths: min(0.90, 0.92 − SHARE), SHARE in units of 0.25 % (R87). -/
def pixelShare (s : State) : Nat := min 9000 (9200 - 25 * clamp 4 32 (s.rd F.CL_SLOT_SHARE))

/-- Whether a PIXEL packet of `n` body blocks, started now at the pace of R177, ends before the window of `frame` closes (R166). [log 149 DEDUCED] -/
def endsInWindow (s : State) (r frame n : Nat) : Bool :=
  decide (wallNs s * 1000 + (ceilDiv (n * 10000) (pixelShare s) + 4) * ringBlockPs s r ≤ (flipOf (s.gen r).rate frame - guardNs s) * 1000)

/-- Whether the window of a PIXEL packet's frame still takes it (R166, R280). -/
def winTakes (s : State) (r : Nat) (c : Copy) : Bool :=
  (s.win r).isOpen && (s.win r).frame == beAt c.data 0 6 && endsInWindow s r (beAt c.data 0 6) ((c.data.length - 16) / 8)

/-- Sends a packet with SEQ `q` from this member's ends, if it may. -/
def sendSeq (s : State) (r : Nat) (c : Copy) : State :=
  if mayOriginate s r then emitDown (s.setLease r { s.lease r with originated := true }) r c else s

/-- The next SEQ of a ring's counter, which advances by one (R71). -/
def takeSeq (s : State) (r : Nat) : State × Nat :=
  let q := s.rd (F.RED_RSTAT_SEQ r)
  (s.wr (F.RED_RSTAT_SEQ r) ((q + 1) % 65536), q)

/-- A member in solo mode, or one that claims without having originated, advances the counter by 24,576 once (R293, R294). -/
def jumpSeq (s : State) (r : Nat) : State :=
  if (s.lease r).jumped then s
  else (s.wr (F.RED_RSTAT_SEQ r) ((s.rd (F.RED_RSTAT_SEQ r) + 24576) % 65536)).setLease r { s.lease r with jumped := true }

/-- The fields of a packet as a mirror body. -/
def copyBody (r : Nat) (c : Copy) : List Nat := [r, c.seq.toNat, c.ctl.toNat, c.route.toNat] ++ c.data.map (·.toNat)

/-- Sends a SEQMARK for ring `r`: the next SEQ not assigned and the control SEQs since the last one (R280). -/
def sendSeqmark (s : State) (r : Nat) : State :=
  let x := s.lease r
  mirrorSend (s.setLease r { x with unmarked := [] }) true 5 0 ([r, s.rd (F.RED_RSTAT_SEQ r)] ++ x.unmarked)

/-- Whether this device may originate downward control packets on a ring: the holder, with the mirror link up or in solo
mode (R284, R292, R293). -/
def mayControl (s : State) (r : Nat) : Bool :=
  holds s r && !(s.pair.given.testBit r) && (!(pairEn s) || mirrorUp s || s.on F.RED_CFG_RED_SOLO)

/-- SEQ `q` was not used for a PIXEL packet (R293). -/
def dropPix (s : State) (r q : Nat) : State := s.setLease r { s.lease r with pix := (s.lease r).pix.set 0 q 0 }

/-- Originates a downward control packet on ring `r` (R71, R280): from this member's ends, to the standby as DOWN and
SEQMARK. Answers its SEQ; none where this device may not. -/
def sendControl (s : State) (r : Nat) (mk : Nat → Copy) : State × Option Nat :=
  if !(mayControl s r) then (s, none)
  else
    let s0 := if pairEn s && !(mirrorUp s) then jumpSeq s r else s
    let t := takeSeq s0 r
    let c := mk t.2
    let s1 := sendSeq (dropPix t.1 r t.2) r c
    if mirrorUp s1 then
      let s2 := mirrorSend s1 false 4 0 (copyBody r c)
      (sendSeqmark (s2.setLease r { s2.lease r with unmarked := (s2.lease r).unmarked ++ [t.2] }) r, some t.2)
    else (s1, some t.2)

/-- A downward packet of TYPE `type` for route `route` on ring `r`. -/
def downPacket (type rhb route : Nat) (data : List Byte) (q : Nat) : Copy := mkCopy type false rhb route q data

/-- Notes the CRC of an own PIXEL packet of SEQ `q` (R293). -/
def notePixel (s : State) (r q : Nat) (c : Copy) : State :=
  s.setLease r { s.lease r with pix := (s.lease r).pix.set 0 q (c.crc.toNat + 1) }

/-- A standby's PIXEL packet takes SEQ `q`; one that its wait pushed past the window's close is not sent from this end (R280). -/
def sendWaited (s : State) (r q : Nat) (c : Copy) : State :=
  let d := reSeq c q
  let s1 := notePixel (s.wr (F.RED_RSTAT_SEQ r) ((q + 1) % 65536)) r q d
  if winTakes s r c then sendSeq s1 r d else s1

/-- The standby's stream goes on in SEQ order: DOWN packets at their turn, waiting PIXEL packets at every SEQ that is not
listed as control, up to the latest SEQMARK (R280). -/
def pumpStandby : Nat → State → Nat → State
  | 0, s, _ => s
  | k + 1, s, r =>
    let x := s.lease r
    let q := s.rd (F.RED_RSTAT_SEQ r)
    if q = x.mark then s
    else
      let adv (s : State) : State := s.wr (F.RED_RSTAT_SEQ r) ((q + 1) % 65536)
      let ctl (s : State) : State := dropPix (adv s) r q
      if x.ctrl.contains q then
        match x.down.find? (fun c => c.seq.toNat == q) with
        | some c => pumpStandby k (sendSeq (ctl (s.setLease r { x with ctrl := x.ctrl.erase q, down := x.down.erase c })) r c) r
        | none =>
          if x.waitPix.isEmpty then s
          else pumpStandby k (ctl (s.setLease r { x with ctrl := x.ctrl.erase q })) r
      else match x.waitPix with
        | [] => s
        | c :: l => pumpStandby k (sendWaited (s.setLease r { x with waitPix := l }) r q c) r

/-- The standby's stream as far as it can go. -/
def pump (s : State) (r : Nat) : State := pumpStandby ((s.lease r).waitPix.length + (s.lease r).ctrl.length + 1) s r

/-- The next SEQ from `q` on that is not listed as control. -/
def pastControl : Nat → List Nat → Nat → Nat
  | 0, _, q => q
  | k + 1, l, q => if l.contains q then pastControl k l ((q + 1) % 65536) else q

/-- A member that follows no SEQMARKs any more: its waiting PIXEL packets take the SEQs that are not listed as control, and nothing waits
(R292). -/
def endStream (s : State) (r : Nat) : State :=
  let s1 := pump s r
  let x := s1.lease r
  let s2 := x.waitPix.foldl (fun s c => sendWaited s r (pastControl x.ctrl.length x.ctrl (s.rd (F.RED_RSTAT_SEQ r))) c) s1
  s2.setLease r { s2.lease r with waitPix := [], ctrl := [], down := [] }

/-- The later of two SEQ values in the modulo comparison of R73. -/
def laterSeq (a b : Nat) : Nat := if decide (0 < (b + 65536 - a) % 65536) && decide ((b + 65536 - a) % 65536 < 32768) then b else a

/-- A member takes over SEQ assignment with the holder's counter, as the latest SEQMARK told it (R289). [log 66 DEDUCED] -/
def takeStream (s : State) (r : Nat) : State :=
  let s1 := endStream s r
  if mirrorUp s then s1.wr (F.RED_RSTAT_SEQ r) (laterSeq (s1.rd (F.RED_RSTAT_SEQ r)) (s1.lease r).mark) else s1

/-- Originates a PIXEL packet on ring `r`: with its own next SEQ, or as the standby at its turn (R280, R292). -/
def sendPixel (s : State) (r : Nat) (c : Copy) : State :=
  if pairEn s && mirrorUp s && !(holds s r) then
    let x := s.lease r
    pump (s.setLease r { x with waitPix := x.waitPix ++ [c] }) r
  else
    let t := takeSeq s r
    let d := reSeq c t.2
    let s1 := if pairEn s then notePixel t.1 r t.2 d else t.1
    sendSeq s1 r d

/-- A packet as the record of R29 knows it: SEQ, CRC and RHB aside. [log 142 DESIGN CHOICE] -/
def plainPkt (c : Copy) : Copy := { withRhb c 0 with seq := 0, crc := 0 }

/-- A downward packet that the partner has sent is told over the mirror link: a packet from above is not sent again when it comes here, or it has
come already (R29). A record is of 64 packets. [log 142 DESIGN CHOICE] -/
def toldDown (s : State) (c : Copy) : State :=
  let x := plainPkt c
  if !(s.isCoach) then s
  else if s.pair.downSeen.contains x then { s with pair := { s.pair with downSeen := s.pair.downSeen.erase x } }
  else { s with pair := { s.pair with downTold := (s.pair.downTold ++ [x]).drop (s.pair.downTold.length - 63) } }

/-- Coach: sends a packet on into ring `r`, or says that it cannot (R28, R29). PIXEL is never relayed; in a pair the holder
acts. [log 142 DESIGN CHOICE] -/
def relayDown (s : State) (r : Nat) (c : Copy) : State :=
  let x := plainPkt c
  let told := s.pair.downTold.contains x
  if c.type = 1 then s
  else if told then { s with pair := { s.pair with downTold := s.pair.downTold.erase x } }
  else if !(holds s r) then (if pairEn s then { s with pair := { s.pair with downSeen := (s.pair.downSeen ++ [x]).drop (s.pair.downSeen.length - 63) } } else s)
  else if unreachable s r then
    if c.type = 2 || c.type = 3 || c.type = 6 then
      answer s (beAt c.data 0 4) (if c.type = 2 then beAt c.data 4 1 else 0) 1 c.seq.toNat []
    else s.bump F.CL_DROP_UNREACH 1
  else (sendControl s r fun q => reSeq (withRhb c 0) q).1

/-- A member becomes SILENT on a ring (R280, R293). -/
def goSilent (s : State) (r : Nat) : State := s.wr (F.RED_RSTAT_SILENT r) 1

end Sys2Proof.Machine
end

