-- ==== Sys2Proof/Machine/HifOps.lean ====
section
/-! DEFINITION. Machine/HifOps.lean: completion records, jobs and register requests, doorbells and resets of the host
interface (chapter *Host interface and descriptor rings*). -/
namespace Sys2Proof.Machine

/-- The content of a completion record (R308), its PHASE aside. -/
structure CplRec where
  type : Nat
  status : Nat
  index : Nat
  route : Nat
  cookie : List Byte
  rhb : Nat
  late : Bool
  rsp : Nat
  count : Nat
  frame : Nat
  result : List Byte

/-- The 64 bytes of a record (R308). -/
def CplRec.toBytes (r : CplRec) (phase : Bool) : List Byte :=
  bytesLE 1 r.type ++ bytesLE 1 r.status ++ bytesLE 2 r.index ++ bytesLE 4 r.route ++ slice r.cookie 0 8 ++
  bytesLE 1 (r.rhb + 2 * b2n r.late) ++ bytesLE 1 r.rsp ++ bytesLE 2 r.count ++ bytesLE 6 r.frame ++ bytesLE 2 0 ++
  slice r.result 0 32 ++ bytesLE 3 0 ++ bytesLE 1 (128 * b2n phase)

/-- The size of a command and of a completion ring (R303, R307). -/
def crSize (s : State) (n : Nat) : Nat := 2 ^ clamp 6 12 (s.rd (F.HIF_CR_CTL_LOG2SIZE n))
def cpSize (s : State) (n : Nat) : Nat := 2 ^ clamp 6 12 (s.rd (F.HIF_CP_CTL_LOG2SIZE n))

def State.modHif (s : State) (f : Hif → Hif) : State := { s with hif := f s.hif }

/-- HIF_CPL_READY for the rings with new records, at most once per CPL_MOD µs (R307). -/
def cplTell (s : State) : State :=
  if s.hif.dirty = 0 || !(s.mayReport 448 (s.rd F.HIF_CTL_CPL_MOD * usPs)) then s
  else ((raise s 448 (bytesLE 2 s.hif.dirty)).modHif fun h => { h with dirty := 0 }).reported 448

/-- Writes a record into the slot at HIF_CP_PROD of ring `n`, if the completion ring is enabled (R307, R319); a job that outlived a
reset of the function has a ring of 16 on, and no record (R302). -/
def postCpl (s : State) (n : Nat) (r : CplRec) : State :=
  if 16 ≤ n || !(s.on (F.HIF_CP_CTL_EN n)) then s
  else
    let p := s.rd (F.HIF_CP_PROD_PROD n)
    let ph := s.on (F.HIF_CP_PROD_PHASE n)
    let base := s.rd64 (F.HIF_CP_BASE_LO_BASE n) (F.HIF_CP_BASE_HI_BASE n)
    let p1 := (p + 1) % cpSize s n
    let s1 := (s.wr (F.HIF_CP_PROD_PROD n) p1).wr (F.HIF_CP_PROD_PHASE n) (b2n (if p1 = 0 then !ph else ph))
    let s2 := { s1 with out := s1.out ++ [Output.hostWrite (base + 64 * p) (r.toBytes ph)] }
    cplTell (s2.modHif fun h => { h with unreleased := h.unreleased.set 0 n (h.unreleased.get 0 n + 1), dirty := h.dirty ||| 2 ^ n })

def Job.type (j : Job) : Nat := leAt j.bytes 0 1
def Job.route (j : Job) : Nat := leAt j.bytes 4 4
def Job.rhb (j : Job) : Nat := leAt j.bytes 1 1 % 2

/-- The plain record of a job. -/
def Job.record (j : Job) (status : Nat) : CplRec :=
  { type := j.type, status := status, index := j.index, route := j.route, cookie := slice j.bytes 8 8, rhb := j.rhb,
    late := false, rsp := 0, count := 0, frame := 0, result := [] }

def State.job (s : State) (id : Nat) : Option Job := s.hif.jobs.find? fun j => j.id == id
def State.setJob (s : State) (j : Job) : State :=
  s.modHif fun h => { h with jobs := h.jobs.map fun x => if x.id == j.id then j else x }

/-- Posts a job's record and ends it. [log 55 DEDUCED] -/
def finishWith (s : State) (j : Job) (r : CplRec) : State :=
  postCpl (s.modHif fun h => { h with jobs := h.jobs.filter fun x => x.id != j.id, reqs := h.reqs.filter fun q => q.job != j.id }) j.ring r

/-- Ends a job with a status and nothing else to tell. -/
def finish (s : State) (j : Job) (status : Nat) : State := finishWith s j (j.record status)

/-- Order of reply statuses, worst highest: 01h, 03h, 02h, 04h, 00h (R308). -/
def rspRank (c : Nat) : Nat := match c with | 1 => 4 | 3 => 3 | 2 => 2 | 4 => 1 | _ => 0

/-- Whether a route holds a broadcast hop. -/
def hasBroadcast (route : Nat) : Bool := [0, 1, 2, 3].any fun i => hopPos (hop route i) == 63

/-- The status of a register descriptor: missing replies, else a reply of 01h, 02h or 03h (R314). [log 51 DEDUCED] -/
def regStatus (j : Job) : Nat := if 0 < j.missing then 2 else if 2 ≤ rspRank j.rsp then 1 else 0

/-- The record of a register descriptor (R314). -/
def finishReg (s : State) (j : Job) : State :=
  let r := { j.record (regStatus j) with rsp := j.rsp, count := j.count }
  let named := { r with route := j.rspRoute, rhb := j.rspRhb }
  if j.type = 3 then finishWith s j named
  else if j.type = 4 then
    if hasBroadcast j.route then finishWith s j { r with result := bytesLE 2 j.ovr }
    else finishWith s j { named with result := j.words.flatMap (bytesLE 4) }
  else finishWith s j { named with count := j.parts, result := bytesLE 2 j.gaps ++ bytesLE 2 j.missing }

/-- Whether a response route lies under a request's route: equal, or equal but for broadcast hops (R21, R313). -/
def routeCovers (req rsp : Nat) : Bool :=
  [0, 1, 2, 3].all fun i =>
    hop req i == hop rsp i || (hopPos (hop req i) == 63 && hopRing (hop req i) == hopRing (hop rsp i) && hopPos (hop rsp i) != 0)

/-- The positions of ring `r` whose roster entry is not free. -/
def rosterOf (s : State) (r : Nat) : List Nat :=
  ((List.range 62).filter fun i => s.rd64 (F.CL_RTAB_UID_LO_UID r i) (F.CL_RTAB_UID_HI_UID r i) != 0).map (· + 1)

/-- The hop number at which this device's ring stands in a route: 0 for a top sender, below it the tier of its own route. -/
def ringTier (s : State) : Nat := if s.isCoach then tierOf (s.rd F.CL_MYROUTE_ROUTE) else 0

/-- The ring a route and RHB name at this device (R22). -/
def ringOfRoute (s : State) (route rhb : Nat) : Nat :=
  hopRing (hop route (ringTier s)) + (if s.isCoach then 0 else 4 * rhb)

/-- The position of a route on this device's ring. -/
def posOfRoute (s : State) (route : Nat) : Nat := hopPos (hop route (ringTier s))

/-- Whether a route from this device is well formed under R20 and names a ring it drives (R312). [log 51 DEDUCED, 124 DEDUCED] -/
def routeOk (s : State) (route rhb : Nat) : Bool :=
  (badTail route).isNone && posOfRoute s route != 0 && drivesRing s (ringOfRoute s route rhb) &&
  ([0, 1, 2, 3].all fun i => !(hopPos (hop route i) == 0 && hopRing (hop route i) != 0))

/-- The positions that owe a reply to a request (R313): one for a unicast route; every roster position for a broadcast in
hop 0 while LOCK = 1; not known for any other broadcast. -/
def owedBy (s : State) (ring route : Nat) : Option (List Nat) :=
  if !(hasBroadcast route) then some [posOfRoute s route]
  else if posOfRoute s route = 63 && tierOf route = ringTier s + 1 && s.on (F.CL_RTAB_FLAGS_LOCK ring) then some (rosterOf s ring)
  else none

/-- Notes a request that left. -/
def addRequest (s : State) (q : Request) : State := s.modHif fun h => { h with reqs := h.reqs ++ [q] }

/-- A register request packet for a job: sent, with its replies noted where it asks for any (R312, R313). Answers whether it
left. -/
def sendRequest (s : State) (j : Job) (type : Nat) (replies : Bool) (data : List Byte) : State × Bool :=
  let ring := ringOfRoute s j.route j.rhb
  let x := sendControl s ring (downPacket type j.rhb j.route data)
  match x.2 with
  | none => (x.1, false)
  | some q =>
    if replies then (addRequest x.1 ⟨j.id, ring, q, j.route, j.rhb, owedBy s ring j.route⟩, true) else (x.1, true)

/-- Sends parts of a TABLE_LOAD while fewer than 16 are without their replies (R315); where this member may no longer originate, the parts
that are left are missing. -/
def sendParts : Nat → State → Nat → State
  | 0, s, _ => s
  | k + 1, s, id =>
    match s.job id with
    | none => s
    | some j =>
      let out := (s.hif.reqs.filter fun q => q.job == id).length
      if j.data.isEmpty || 16 ≤ out then s
      else
        let n := min 8184 j.data.length
        let addr := leAt j.bytes 16 4 + 8184 * j.parts
        let body := bytesBE 4 addr ++ bytesBE 2 (n / 8) ++ bytesBE 1 1 ++ bytesBE 1 0 ++ j.data.take n
        let j1 := { j with data := j.data.drop n, parts := j.parts + 1 }
        let x := sendRequest (s.setJob j1) j 6 true body
        if x.2 then sendParts k x.1 id else x.1.setJob { j with data := [], missing := j.missing + 1 }

/-- A request has all its replies, or its time passed: the job ends, or a TABLE_LOAD sends on (R313, R315). -/
def requestDone (s : State) (q : Request) : State :=
  let s1 := s.modHif fun h => { h with reqs := h.reqs.filter fun x => !(x == q) }
  match s1.job q.job with
  | none => s1
  | some j =>
    if j.type = 5 then
      let s2 := sendParts 16 s1 j.id
      if (s2.hif.reqs.any fun x => x.job == j.id) then s2
      else match s2.job j.id with
        | some j2 => if j2.data.isEmpty then finishReg s2 j2 else s2
        | none => s2
    else finishReg s1 j

/-- A reply of a broadcast REG_READ goes into the next entry of RBUF, or is counted for lack of room (R314). -/
def rbufWrite (s : State) (j : Job) (c : Copy) (st : Nat) (words : List Nat) : State :=
  let max := leAt j.bytes 32 2
  if j.count < max then
    let r := { j.record 0 with route := c.route.toNat, rhb := c.rhb, rsp := st, count := words.length, result := words.flatMap (bytesLE 4) }
    let s1 := s.setJob { j with count := j.count + 1 }
    if 16 ≤ j.ring then s1 else { s1 with out := s1.out ++ [Output.hostWrite (leAt j.bytes 24 8 + 64 * j.count) (r.toBytes true)] }
  else
    let s1 := s.setJob { j with ovr := j.ovr + 1, lost := true }
    if j.lost then s1 else raise s1 455 (d2 (j.ring % 16) 0 ++ bytesLE 2 j.index)

/-- The worst reply so far and its first responder (R308, R314). -/
def worseReply (j : Job) (c : Copy) (st : Nat) : Job :=
  if !j.answered || rspRank j.rsp < rspRank st
  then { j with rsp := st, rspRoute := c.route.toNat, rspRhb := c.rhb, answered := true } else j

/-- A REGRSP at a ring end is matched by route, RHB and TAG (R313, R314); one that matches nothing is counted and reported. -/
def regrspAccept (s : State) (ring : Nat) (c : Copy) : State :=
  let st := beAt c.data 5 1
  let tag := beAt c.data 6 2
  let words := wordsBE (if c.data.length ≤ 8 then 0 else beAt c.data 4 1) (c.data.drop 8)
  let pos := posOfRoute s c.route.toNat
  let fits (q : Request) : Bool :=
    q.ring == ring && q.tag == tag && routeCovers q.route c.route.toNat &&
    (match q.owed with | some l => l.contains pos | none => true)
  match s.hif.reqs.find? fits with
  | none => raise (s.bump F.HIF_CNT_LATE_RSP 1) 451 (d2 0 0 ++ bytesLE 4 c.route.toNat ++ bytesLE 2 tag)
  | some q =>
    match s.job q.job with
    | none => s
    | some j =>
      let j1 := worseReply j c st
      let s1 :=
        if j.type = 3 then s.setJob { j1 with count := j1.count + 1 }
        else if j.type = 4 then
          if hasBroadcast j.route then rbufWrite (s.setJob j1) j1 c st words
          else s.setJob { j1 with words := words, count := words.length }
        else s.setJob { j1 with gaps := j1.gaps + b2n (st == 4) }
      match q.owed with
      | none => s1
      | some l =>
        let l1 := l.erase pos
        let q1 := { q with owed := some l1 }
        let s2 := s1.modHif fun h => { h with reqs := h.reqs.map fun x => if x == q then q1 else x }
        if l1.isEmpty then requestDone s2 q1 else s2

/-- REPLY_WAIT passed for the request of TAG `tag` on a ring (R313). -/
def requestExpire (s : State) (ring tag : Nat) : State :=
  match s.hif.reqs.find? fun q => q.ring == ring && q.tag == tag with
  | none => s
  | some q => match s.job q.job with
    | none => s
    | some j => requestDone (s.setJob { j with missing := j.missing + (match q.owed with | some l => l.length | none => 0) }) q

/-- Descriptors posted on ring `n` from `cons` to `prod`. -/
def postedFrom (s : State) (n cons prod : Nat) : Nat := (prod + crSize s n - cons) % crSize s n

/-- A doorbell write (R304). -/
def dbWrite (s : State) (n prod : Nat) : State :=
  let cons := s.rd (F.HIF_CR_CONS_CONS n)
  if prod < crSize s n && postedFrom s n cons (s.rd (F.HIF_DB_PROD n)) ≤ postedFrom s n cons prod
  then s.wr (F.HIF_DB_PROD n) prod
  else raise s 456 (d2 n 0 ++ bytesLE 2 prod)

/-- A write of HIF_CP_CONS releases records (R307). -/
def cpConsWrite (s : State) (n cons : Nat) : State :=
  let u := (s.rd (F.HIF_CP_PROD_PROD n) + cpSize s n - cons % cpSize s n) % cpSize s n
  (s.wr (F.HIF_CP_CONS_CONS n) cons).modHif fun h => { h with unreleased := h.unreleased.set 0 n (min u (h.unreleased.get 0 n)) }

def inflight (s : State) (n : Nat) : Nat := (s.hif.jobs.filter fun j => j.ring == n).length

/-- Register requests outstanding (HIF_STAT.REGS_OUT): register descriptors that ran and have no record yet. [log 53 DEDUCED] -/
def regsOut (s : State) : Nat := (s.hif.jobs.filter fun j => j.ran && decide (3 ≤ j.type) && decide (j.type ≤ 5)).length

/-- Whether the pair rules stop the command rings (R284, R319). -/
def ringsStopped (s : State) : Bool := pairEn s && (redRole s != 1 || s.on F.RED_STAT_RINGS_STOPPED)

/-- A free completion slot for one more descriptor (R305). -/
def slotFree (s : State) (n : Nat) : Bool := decide (s.hif.unreleased.get 0 n + inflight s n + 1 ≤ cpSize s n)

/-- Whether ring `n` may consume its head, a waiting head aside (R305, R319). -/
def mayConsume (s : State) (n : Nat) : Bool :=
  s.on (F.HIF_CR_CTL_EN n) && s.on (F.HIF_CP_CTL_EN n) && !(s.on (F.HIF_CR_STAT_HALT n)) && !(ringsStopped s) && slotFree s n &&
  s.rd (F.HIF_CR_CONS_CONS n) != s.rd (F.HIF_DB_PROD n) && (s.hif.jobs.all fun j => j.ring != n || j.ran)

/-- Takes the head of ring `n`: CONS advances and the descriptor becomes a job (R305). RED_MIDX counts it in a pair. -/
def takeHead (s : State) (n : Nat) (bytes : List Byte) : State × Job :=
  let cons := s.rd (F.HIF_CR_CONS_CONS n)
  let j : Job := { id := s.hif.nextId, ring := n, index := cons, bytes := bytes, ran := false, count := 0, rsp := 0, rspRoute := leAt bytes 4 4, rspRhb := leAt bytes 1 1 % 2, words := [], ovr := 0, gaps := 0, missing := 0, lost := false, data := [], parts := 0, answered := false }
  let s1 := ((s.wr (F.HIF_CR_CONS_CONS n) ((cons + 1) % crSize s n)).wr (F.HIF_CR_STAT_WAITING n) 0)
  let s2 := s1.wr (F.RED_MIDX_IDX n) ((s1.rd (F.RED_MIDX_IDX n) + 1) % 65536)
  (s2.modHif fun h => { h with jobs := h.jobs ++ [j], nextId := h.nextId + 1, heads := h.heads.set [] n [] }, j)

/-- HIF_CR_CTL.EN became 0: a waiting head completes FLUSHED (R319). A later EN = 1 ends a halt. -/
def ringDisable (s : State) (n : Nat) : State :=
  if s.on (F.HIF_CR_STAT_WAITING n) then
    let x := takeHead s n (s.hif.heads.get [] n)
    finish x.1 x.2 0x82
  else s

/-- HIF_CP_CTL.EN went from 0 to 1: PROD = 0, PHASE = 1 (R307, R322). -/
def cpEnable (s : State) (n : Nat) : State :=
  ((s.wr (F.HIF_CP_PROD_PROD n) 0).wr (F.HIF_CP_PROD_PHASE n) 1).modHif fun h => { h with unreleased := h.unreleased.set 0 n 0 }

/-- The reset of the function (R302): every HIF register and the MSI-X state return to reset; records not yet written are
discarded; descriptors consumed still take effect, as jobs of ring 16 + n, whose records go nowhere. [log 55 DEDUCED, 56 DEDUCED] -/
def functionReset (s : State) : State :=
  let s1 := { s with regs := s.regs.clear 0x30000 0x10000 }
  let js := s.hif.jobs.map fun j => { j with ring := 16 + j.ring % 16 }
  let s2 := { s1 with hif := { s.hif with jobs := js, unreleased := [], heads := [], dirty := 0 } }
  forIdx 4 s2 fun s t => s.setTgt t { s.tgt t with vecPend := false }

/-- What HIF registers show that the stored word does not hold. [log 121 DESIGN CHOICE] -/
def hifView (s : State) (a : Nat) : Option Nat :=
  if a = R.HIF_STAT then some (setBits (s.reg a) 8 7 (min 127 (regsOut s)))
  else if 0x30100 ≤ a && a < 0x30500 && a % 64 = 0x14 then
    let n := (a - 0x30100) / 64
    some (setBits (setBits (s.reg a) 2 1 (b2n (ringsStopped s))) 8 13 (min 4095 (inflight s n)))
  else if 0x30900 ≤ a && a < 0x30A00 then
    some (if a = 0x30900 then (List.range 4).foldl (fun m t => m + b2n (s.tgt t).vecPend * 2 ^ t) 0 else 0)
  else none

end Sys2Proof.Machine
end

