-- ==== Sys2Proof/Machine/XaOps.lean ====
section
/-! DEFINITION. Machine/XaOps.lean: the XA unit of a ring end: building, preparing, counting votes, firing and aborting
transactions, and a coach's sub-transactions (chapter *Wall transactions*). -/
namespace Sys2Proof.Machine

/-- The abort reasons of R133. -/
def reasonMissing : Nat := 1
def reasonRefused : Nat := 2
def reasonPartition : Nat := 3
def reasonLease : Nat := 4
def reasonPast : Nat := 5
def reasonHost : Nat := 6
def reasonUnreachable : Nat := 7
def reasonRoster : Nat := 8
def reasonFence : Nat := 9
def reasonLimit : Nat := 10

def State.modXid (s : State) (x : Nat) (f : Xid → Xid) : State := s.setXid x (f (s.xid x))

/-- An XA trace record: an XID changes phase (R410 class 3). -/
def traceXa (s : State) (x phase target : Nat) : State := trace s 3 (x + 256 * phase) (bytesLE 6 target)

/-- The ring of a destination. -/
def destRing (s : State) (d : XaDest) : Nat := ringOfRoute s d.route d.rhb

/-- The route of position `p` of ring `r` of this device: its own route with one hop more. -/
def posRoute (s : State) (r p : Nat) : Nat :=
  (if s.isCoach then s.rd F.CL_MYROUTE_ROUTE else 0) + ((r % 4) * 64 + p) * 2 ^ (24 - 8 * ringTier s)

/-- The route of every device of ring `r` of this device: its own route with the next hop a broadcast. -/
def ringRoute (s : State) (r : Nat) : Nat := posRoute s r 63

/-- RHB of ring `r` (R22). -/
def ringRhb (s : State) (r : Nat) : Nat := if s.isCoach then 0 else r / 4

/-- The rings that destinations touch, ascending (R120). -/
def touched (s : State) (l : List XaDest) : List Nat := (List.range 8).filter fun r => l.any fun d => destRing s d == r

/-- Whether a destination covers position `p` of ring `r`. -/
def destCovers (s : State) (d : XaDest) (r p : Nat) : Bool :=
  destRing s d == r && (posOfRoute s d.route == p || posOfRoute s d.route == 63)

/-- Whether XA_EXCL excludes a position (R126). -/
def excluded (s : State) (r p : Nat) : Bool :=
  if p ≤ 32 then (s.rd (F.XA_EXCL_LO_EXCL r)).testBit (p - 1) else (s.rd (F.XA_EXCL_HI_EXCL r)).testBit (p - 33)

/-- The positions of ring `r` that the destinations reach: named ones and, for a broadcast, the roster (R126). -/
def reached (s : State) (l : List XaDest) (r : Nat) : List Nat :=
  (List.range 63).filter fun p => p != 0 && l.any fun d =>
    destRing s d == r && (posOfRoute s d.route == p || (posOfRoute s d.route == 63 && (rosterOf s r).contains p))

/-- The entries of a destination, read or still in its lists. -/
def XaDest.count (d : XaDest) : Nat := d.lists.foldl (fun n e => n + e.2) d.entries.length

/-- Entries sent to a position (R126). -/
def entriesFor (s : State) (l : List XaDest) (r p : Nat) : Nat :=
  (l.filter fun d => destCovers s d r p).foldl (fun n d => n + d.count) 0

/-- The expected voters (R126). -/
def votersOf (s : State) (l : List XaDest) : List Voter :=
  (touched s l).flatMap fun r => ((reached s l r).filter fun p => !(excluded s r p)).map fun p =>
    { ring := r, pos := p, entries := entriesFor s l r p, vote := none, result := none }

/-- Joins an XA_ADD into the destinations (R120). -/
def joinDest (l : List XaDest) (d : XaDest) : List XaDest :=
  if l.any fun e => e.route == d.route && e.rhb == d.rhb then
    l.map fun e => if e.route == d.route && e.rhb == d.rhb then
      { e with entries := e.entries ++ d.entries, lists := e.lists ++ d.lists, ops := e.ops ||| d.ops, slot := if d.ops.testBit 1 then d.slot else e.slot } else e
  else l ++ [d]

/-- AUTO_FRAMES: 0 and 1 act as 2. -/
def autoFrames (s : State) : Nat := max 2 (s.rd F.XA_AUTO_AUTO_FRAMES)

/-- DLEAD of ring `r` in µs (R121). -/
def dleadOf (s : State) (r : Nat) : Nat := s.rd (F.WT_RCFG_LEAD r) * 50 + s.rd F.XA_CTL_VOTE_GUARD

/-- The frame of ring `r` whose flip equals `flip` (R120). -/
def frameAt (s : State) (r flip : Nat) : Option Nat :=
  if !(genRuns s r) then none
  else
    let n := firstCount (s.gen r).rate flip
    if flipOf (s.gen r).rate n = flip then some n else none

/-- The targets of the touched rings; none without a common fence (R120). -/
def targetsOf (s : State) (rings : List Nat) (ref t : Nat) : Option (List (Nat × Nat)) :=
  let flip := flipOf (s.gen ref).rate t
  rings.foldr (fun r acc => match acc, frameAt s r flip with
    | some l, some n => some ((r, n) :: l)
    | _, _ => none) (some [])

/-- The first position of the touched rings to which more than 512 entries would go (R133 LIMIT). -/
def overfull (s : State) (l : List XaDest) (rings : List Nat) : Option (Nat × Nat) :=
  (rings.flatMap fun r => ((List.range 63).filter fun p => p != 0 && decide (512 < entriesFor s l r p)).map fun p => (r, p)).head?

/-- The causes judged when XA_COMMIT is consumed, in the order of R133. -/
def commitCause (s : State) (l : List XaDest) (rings : List Nat) (tg : Option (List (Nat × Nat))) (deadline : Int) : Option Nat :=
  if l.any fun d => !(routeOk s d.route d.rhb) then some reasonLimit
  else if l.any fun d => posOfRoute s d.route == 63 && !(s.on (F.CL_RTAB_FLAGS_LOCK (destRing s d))) then some reasonRoster
  else if (overfull s l rings).isSome then some reasonLimit
  else if tg.isNone then some reasonFence
  else if deadline - (wallNs s : Int) < 1000000 then some reasonPast
  else none

/-- The route and RHB that an abort at XA_COMMIT names: the malformed route, the broadcast without a roster, the voter with too many
entries, else none. [log 124 DEDUCED] -/
def commitOffender (s : State) (l : List XaDest) (rings : List Nat) (cause : Nat) : Nat × Nat :=
  let named (o : Option XaDest) : Nat × Nat := match o with | some d => (d.route, d.rhb) | none => (0, 0)
  match l.find? fun d => !(routeOk s d.route d.rhb) with
  | some d => named (some d)
  | none =>
    if cause = reasonRoster then named (l.find? fun d => posOfRoute s d.route == 63 && !(s.on (F.CL_RTAB_FLAGS_LOCK (destRing s d))))
    else if cause = reasonLimit then match overfull s l rings with
      | some (r, p) => (posRoute s r p, ringRhb s r)
      | none => (0, 0)
    else (0, 0)

/-- XID `x` becomes FREE; the reason, the target and the votes of its last use stay to be read until it is begun again (R133). [log 48 DEDUCED, 123 DEDUCED] -/
def freeXid (s : State) (x : Nat) : State :=
  s.setXid x { Xid.init with reason := (s.xid x).reason, target := (s.xid x).target, voters := (s.xid x).voters }

/-- The completion of XA_COMMIT (R317). -/
def postXa (s : State) (x status : Nat) : State :=
  let v := s.xid x
  match v.completion with
  | none => s
  | some id => match s.job id with
    | none => s.modXid x fun v => { v with completion := none }
    | some j =>
      let n (r : Nat) : Nat := (v.voters.filter fun w => w.result == some r).length
      let unknown := if status = 0 then (v.voters.filter fun w => w.result == none || w.result == some 4).length else 0
      let cnt (r : Nat) : Nat := if status = 0 then n r else 0
      let res := bytesLE 2 (cnt 1) ++ bytesLE 2 (cnt 2) ++ bytesLE 2 unknown ++ bytesLE 1 v.offCode ++ bytesLE 1 0 ++ bytesLE 2 (cnt 3)
      let r := { j.record status with frame := v.target, route := v.offender, rhb := v.offRhb, result := res }
      finishWith (s.modXid x fun v => { v with completion := none }) j r

/-- Whether the generator of an XID's reference ring runs. -/
def refRuns (s : State) (v : Xid) : Bool := genRuns s v.refRing

/-- Transaction `x` fires (R119, R128, R137): XA_FIRED, its count, the rate change of an automatic one. One that expects no voter has
every report at once (R132). -/
def fire (s : State) (x : Nat) : State :=
  let v := s.xid x
  let s1 := raise (traceXa (s.setXid x { v with st := .fired }) x 3 v.target) 224 (d2 x 0 ++ bytesLE 6 v.target)
  let s2 := count s1 35 1
  let s3 := if v.auto then s2.setGen v.refRing { s2.gen v.refRing with newRate := some (v.rate, v.target) } else s2
  let s4 := if v.voters.isEmpty || !(refRuns s3 v) then postXa s3 x 0 else s3
  if refRuns s3 v then s4 else freeXid s4 x

/-- Sub-transaction `y` of a coach goes with its parent: the follower part dropped it, so its marks carry COMMIT 0 and REPEAT 0 (R129). R133 names no
reason for that, and the sub-XID raises no XA_ABORTED. [log 43 DEDUCED] -/
def dropSub (s : State) (y : Nat) : State :=
  let v := s.xid y
  let s1 := traceXa (s.setXid y { v with st := .aborted }) y 5 v.target
  if v.sent && genRuns s1 v.refRing then s1 else freeXid s1 y

/-- Transaction `x` aborts with a reason (R119, R133, R137). One aborted while BUILDING waits for its XA_COMMIT. -/
def abortXid (s : State) (x reason route rhb code : Nat) : State :=
  let v := s.xid x
  let v1 := { v with st := .aborted, reason := reason, offender := route, offRhb := rhb, offCode := code, early := v.st == .building && v.completion.isNone }
  let s1 := traceXa (s.setXid x v1) x 5 v.target
  let s2 := raise s1 225 (d2 x reason ++ bytesLE 4 route ++ bytesLE 1 rhb ++ bytesLE 1 code ++ bytesLE 1 (b2n v.auto))
  let s3 := postXa (count s2 36 1) x reason
  if v1.early then s3
  else if v.sent && refRuns s3 v then s3 else freeXid s3 x

/-- Every expected vote is READY. -/
def allReady (v : Xid) : Bool := v.voters.all fun w => w.vote == some true

/-- The decision of R128: alone it fires at once; in a pair the standby is asked first; a coach's sub-transaction waits for
its parent's mark, and the partner of a coach pair is told that it is ready (R296). [log 65 DEDUCED] -/
def decide_ (s : State) (x : Nat) : State :=
  let v := s.xid x
  if v.st != .voting || !(allReady v) then s
  else if v.parent.isSome then
    if v.ready then s else mirrorSend (s.setXid x { v with ready := true }) true 11 0 [x, 1, v.target]
  else if pairEn s then
    if v.asked then s else mirrorAsk (s.setXid x { v with asked := true }) true 11 [x, 1, v.target] x
  else fire s x

/-- The lowest FREE XID below `n`. -/
def freeXidBelow (s : State) (n : Nat) : Option Nat := firstIdx n fun x => (s.xid x).st == .free

/-- Fixes the rings, targets, voters and deadline of a transaction with its cause of abort, if any (R120, R133). `t` is a frame of the
reference ring. [log 124 DEDUCED] -/
def planXid (s : State) (x : Nat) (t : Nat) : State × Option Nat :=
  let v := s.xid x
  let rings := touched s v.dests
  let ref := rings.headD 0
  let bad := v.dests.any fun d => !(routeOk s d.route d.rhb)
  let tg := if bad || !(genRuns s ref) then none else targetsOf s rings ref t
  let dl := rings.foldl (fun m r => max m (dleadOf s r)) 0
  let deadline : Int := (flipOf (s.gen ref).rate t : Int) - ((dl * 1000 : Nat) : Int)
  let s1 := s.setXid x { v with refRing := ref, target := t, deadline := deadline.toNat, epoch := epochOf s ref, rings := tg.getD [], voters := votersOf s v.dests }
  (s1, commitCause s v.dests rings tg deadline)

/-- Starts the transaction of a destination list: PREPARING, or ABORTED with the cause found (R119, R120, R133). -/
def startXid (s : State) (x : Nat) (t : Nat) : State :=
  match planXid s x t with
  | (s1, some c) =>
    let l := (s1.xid x).dests
    let o := commitOffender s1 l (touched s1 l) c
    abortXid s1 x c o.1 o.2 0
  | (s1, none) => s1.modXid x fun v => { v with st := .preparing }

/-- The standby's state of a transaction that the active has committed for frame `t` (R279). -/
def shadowXid (s : State) (x : Nat) (t : Nat) : State :=
  if (s.xid x).st != .building then s
  else match planXid s x t with
    | (s1, some _) => freeXid s1 x
    | (s1, none) => s1.modXid x fun v => { v with st := .preparing }

/-- The standby learns that transaction `x` fires at `t` (R128): it originates the same bits. [log 65 DEDUCED] -/
def shadowFire (s : State) (x t : Nat) : State :=
  let v := s.xid x
  let s1 := s.setXid x { v with st := .fired, target := t }
  if v.auto then s1.setGen v.refRing { s1.gen v.refRing with newRate := some (v.rate, t) } else s1

/-- The frame of the reference ring that an XA_COMMIT asks for (R120). -/
def commitFrame (s : State) (x : Nat) (target : Option Nat) (k : Nat) : Nat :=
  match target with
  | some t => t
  | none => (s.gen ((touched s (s.xid x).dests).headD 0)).next + (if k = 0 then autoFrames s else k) - 1

/-- XA_COMMIT of a job (R119, R120). -/
def xaCommit (s : State) (x : Nat) (target : Option Nat) (k : Nat) (j : Job) : State :=
  let v := s.xid x
  if v.st == .aborted && v.early then
    freeXid (finishWith s j { j.record reasonHost with frame := v.target, route := v.offender, rhb := v.offRhb }) x
  else if v.st != .building then finish s j 0x10
  else if v.dests.isEmpty then freeXid (finish s j 0) x
  else
    let s1 := s.setXid x { v with completion := some j.id }
    startXid s1 x (commitFrame s x target k)

/-- The header of an XA packet (R67). -/
def xaHead (sub x epoch part : Nat) : List Byte := bytesBE 1 sub ++ bytesBE 1 x ++ bytesBE 4 epoch ++ bytesBE 2 part

/-- Chunks of at most 256 entries; one empty chunk for no entry (R121). -/
def chunks : Nat → List (Nat × Nat) → List (List (Nat × Nat))
  | 0, _ => []
  | n + 1, l => if l.length ≤ 256 then [l] else l.take 256 :: chunks n (l.drop 256)

/-- The rate code of ring `r` from frame `t` on: a change that comes into force by then, else the one in force (R121). -/
def rateFrom (s : State) (r t : Nat) : Nat :=
  match (s.gen r).newRate with
  | some (code, u) => if u ≤ t then code else (s.gen r).rate
  | none => (s.gen r).rate

/-- RATE of P1 for OPS `ops` of transaction `v`: with TIMING the ring's rate code from TARGET on (R121). -/
def partRate (s : State) (v : Xid) (r target ops : Nat) : Nat :=
  if !(ops.testBit 2) then 0 else if v.auto then v.rate else rateFrom s r target

/-- The prepare parts of one destination as packet bodies (R121). -/
def partBodies (x epoch target dlead rate : Nat) (d : XaDest) : List (List Byte) :=
  let cs := chunks 16 d.entries
  cs.zipIdx.map fun (e, i) =>
    xaHead 1 x epoch i ++ bytesBE 6 target ++ bytesBE 2 cs.length ++
    bytesBE 1 d.ops ++ bytesBE 1 d.slot ++ bytesBE 1 rate ++ bytesBE 1 0 ++ bytesBE 4 dlead ++
    e.flatMap fun (a, w) => bytesBE 4 a ++ bytesBE 4 w

/-- The prepare close of ring `r` (R121). -/
def closeBody (x epoch target : Nat) : List Byte := xaHead 4 x epoch 0 ++ bytesBE 6 target ++ bytesBE 2 0

/-- Sends the prepare parts of ring `r`, broadcasts first, then the close (R121). -/
def prepareRing (s : State) (x : Nat) (r target : Nat) : State :=
  let v := s.xid x
  let l := v.dests.filter fun d => destRing s d == r
  let bc := l.filter fun d => posOfRoute s d.route == 63
  let one := l.filter fun d => posOfRoute s d.route != 63
  let send (s : State) (d : XaDest) : State :=
    (partBodies x (epochOf s r) target (dleadOf s r) (partRate s v r target d.ops) d).foldl (fun s b => (sendControl s r (downPacket 7 d.rhb d.route b)).1) s
  let s1 := (bc ++ one).foldl send s
  (sendControl s1 r (downPacket 7 (ringRhb s r) (ringRoute s r) (closeBody x (epochOf s r) target))).1

/-- The bytes of the entry lists of destinations. -/
def listBytes (l : List XaDest) : Nat := l.foldl (fun n d => d.lists.foldl (fun m e => m + 8 * e.2) n) 0

/-- The entries of `data`, (ADDR, DATA) pairs of host words. -/
def hostEntries (data : List Byte) : List (Nat × Nat) :=
  (List.range (data.length / 8)).map fun i => (leAt data (8 * i) 4, leAt data (8 * i + 4) 4)

/-- The destinations with the entries of their lists, as `data` holds them one list after the other (R120). -/
def readLists (l : List XaDest) (data : List Byte) : List XaDest :=
  (l.foldl (fun (a : List XaDest × List Byte) d =>
    let n := listBytes [d]
    (a.1 ++ [{ d with entries := d.entries ++ hostEntries (slice a.2 0 n), lists := [] }], a.2.drop n)) ([], data)).1

/-- The entry lists of a transaction cannot be read: its XA_COMMIT completes with 81h and nothing is sent (R309). [log 47 DESIGN CHOICE] -/
def listsUnread (s : State) (x : Nat) : State :=
  let v := s.xid x
  match v.completion.bind s.job with
  | none => freeXid s x
  | some j => freeXid (finish (raise (s.bump F.HIF_CNT2_DMA_ERR 1) 450 (d2 (j.ring % 16) 2 ++ bytesLE 2 j.index)) j 0x81) x

/-- The prepares of a PREPARING XID fall due (R119 to R121): its entry lists are read as `data`, none where the read failed, the parts
are sent, then VOTING; a touched ring with neither end UP aborts it. [log 47 DESIGN CHOICE] -/
def prepareSend (s : State) (x : Nat) (data : Option (List Byte)) : State :=
  let v := s.xid x
  if v.st != .preparing || v.parent.isSome || v.rings.any (fun e => !(holds s e.1)) then s
  else if v.rings.any fun e => !((ringEnds s e.1).any s.isUp) then abortXid s x reasonUnreachable 0 0 0
  else if pairEn s && !(mirrorUp s) && !(s.on F.RED_CFG_RED_SOLO) then abortXid s x reasonPartition 0 0 0
  else if listBytes v.dests != 0 && data.isNone then listsUnread s x
  else
    let s0 := s.modXid x fun v => { v with dests := readLists v.dests (data.getD []) }
    let s1 := v.rings.foldl (fun s e => prepareRing s x e.1 e.2) s0
    decide_ (traceXa (s1.modXid x fun v => { v with st := .voting, sent := true }) x 1 v.target) x

/-- A vote reaches the ring end (R126, R133). A voter's first vote is the one taken; one with another epoch is not counted and remembered,
but a refusal with EPOCH is a cause of its own. [log 125 DEDUCED] -/
def voteAccept (s : State) (ring : Nat) (c : Copy) : State :=
  let x := beAt c.data 1 1 % 16
  let v := s.xid x
  let pos := posOfRoute s c.route.toNat
  if !(holds s ring) || (v.st != .voting && v.st != .preparing) then s
  else match v.voters.find? fun w => w.ring == ring && w.pos == pos && w.vote.isNone with
    | none => s
    | some w =>
      let ready := beAt c.data 8 1 == 1
      let reason := beAt c.data 9 1
      let other := beAt c.data 2 4 != epochOf s ring && !(beAt c.data 8 1 == 2 && reason == 5)
      let okCount := beAt c.data 10 2 == w.entries
      let s1 := s.modXid x fun v => { v with otherEpoch := v.otherEpoch || other,
                                             voters := v.voters.map fun u => if u == w then { u with vote := some (ready && okCount && !other) } else u }
      if other then s1
      else if ready && okCount then decide_ s1 x
      else if v.asked then s1
      else if ready then abortXid s1 x reasonRefused c.route.toNat c.rhb 9
      else if reason = 5 then abortXid s1 x reasonPartition c.route.toNat c.rhb reason
      else abortXid s1 x reasonRefused c.route.toNat c.rhb reason

/-- The route of a voter. -/
def voterRoute (s : State) (w : Voter) : Nat := posRoute s w.ring w.pos

/-- The vote deadline passes undecided (R128, R133). A coach's sub-transaction whose votes are all READY has its decision from the parent's mark.
A member that does not hold the rings only forgets the transaction. [log 65 DEDUCED, 125 DEDUCED] -/
def deadlinePass (s : State) (x : Nat) : State :=
  let v := s.xid x
  if (v.st != .voting && v.st != .preparing) || (v.st == .voting && v.parent.isSome && (allReady v || v.ready)) then s
  else if v.rings.any fun e => !(holds s e.1) then freeXid s x
  else
    let miss := v.voters.find? fun w => w.vote != some true
    let route := match miss with | some w => voterRoute s w | none => 0
    let rhb := match miss with | some w => ringRhb s w.ring | none => 0
    if pairEn s && (!(mirrorUp s) || v.asked) then abortXid s x reasonPartition route rhb 0
    else if v.otherEpoch then abortXid s x reasonPartition route rhb 0
    else abortXid s x reasonMissing route rhb 0

/-- A write of XA_ABORT (R119, R133). -/
def xaAbortWrite (s : State) (mask : Nat) : State :=
  forIdx 16 s fun s x =>
    let v := s.xid x
    if mask.testBit x && (v.st == .building || ((v.st == .preparing || v.st == .voting) && !v.asked))
    then abortXid s x reasonHost 0 0 0 else s

/-- Every transaction of this device that is PREPARING or VOTING aborts on a ring whose lease passed (R133 LEASE_LOST). -/
def leaseLost (s : State) (mask : Nat) : State :=
  forIdx 16 s fun s x =>
    let v := s.xid x
    if (v.st == .preparing || v.st == .voting) && v.rings.any (fun e => mask.testBit e.1)
    then abortXid s x reasonLease 0 0 0 else s

/-- The epoch followed; none without a lease (R285). -/
def followedEpoch (s : State) : Option Nat := if s.on F.RED_FSTAT_VALID then some (s.rd F.RED_FOLLOW_EPOCH) else none

/-- Queues an XA packet of the follower: SUB, XID and its one body block (R124, R132). [log 45 DEDUCED] -/
def sendXaUp (s : State) (sub x : Nat) (body : List Byte) : State :=
  sendUp s 1 0 (upPacket s 7 (xaHead sub x ((followedEpoch s).getD 0) 0 ++ body))

/-- Sends the arm-ack of a use: 1 ON_TIME, 2 LATE, 3 DROPPED, 4 UNKNOWN. -/
def armack (s : State) (x result frame : Nat) : State :=
  sendXaUp s 3 x (bytesBE 1 result ++ [0#8] ++ bytesBE 6 frame)

/-- The worse of two results: UNKNOWN, LATE, DROPPED, ON_TIME. -/
def worse (a b : Nat) : Nat :=
  let rank := fun r => match r with | 4 => 3 | 2 => 2 | 3 => 1 | _ => 0
  if rank a < rank b then b else a

/-- A coach's arm-ack for itself and its sub-wall: once every voter of sub-transaction `y` has reported, or when it is forced (R132). [log 43 DEDUCED] -/
def subReport (s : State) (y : Nat) (force : Bool) : State :=
  let v := s.xid y
  match v.parent with
  | none => s
  | some x =>
    if v.st != .fired || v.subRes = 0 || v.subRes = 5 then s
    else if !force && v.voters.any fun w => w.result.isNone then s
    else
      let r := v.voters.foldl (fun r w => worse r (w.result.getD 4)) v.subRes
      armack (s.setXid y { v with subRes := 5 }) x r v.subFrame

/-- An arm-ack reaches the ring end (R132); the last one of a coach's sub-wall lets its own leave. -/
def armackAccept (s : State) (ring : Nat) (c : Copy) : State :=
  let x := beAt c.data 1 1 % 16
  let v := s.xid x
  let pos := posOfRoute s c.route.toNat
  let res := beAt c.data 8 1
  if v.st != .fired then s
  else match v.voters.find? fun w => w.ring == ring && w.pos == pos && w.result.isNone with
    | none => s
    | some w =>
      let bad := res != 1
      let v1 := { v with voters := v.voters.map fun u => if u == w then { u with result := some res } else u }
      let v2 := if bad && v.offender = 0 then { v1 with offender := c.route.toNat, offRhb := c.rhb } else v1
      let s1 := s.setXid x v2
      let s2 := if bad then raise s1 232 (d2 x res ++ bytesLE 4 c.route.toNat ++ bytesLE 1 c.rhb) else s1
      if v2.voters.all fun u => u.result.isSome then (if v.parent.isSome then subReport s2 x false else postXa s2 x 0) else s2

/-- Whether a claim of the partner holds new transactions back: one that waits for those that run, or one granted whose fence has not come
(R134, R289). -/
def claimHolds (s : State) : Bool := s.pair.claimHeld.isSome || s.pair.grant.any fun g => !g.take

/-- The automatic RATE transactions that wait for a FREE XID start (R135). -/
def autoStart : Nat → State → State
  | 0, s => s
  | k + 1, s =>
    match s.xa.autoWait, (if claimHolds s then none else freeXidBelow s 15) with
    | (r, code) :: l, some x =>
      let d : XaDest := { route := ringRoute s r, rhb := ringRhb s r, entries := [], ops := 4, slot := 0, lists := [] }
      let v := { Xid.init with st := .preparing, dests := [d], auto := true, rate := code }
      let s1 := { s.setXid x v with xa := { (s.setXid x v).xa with autoWait := l } }
      autoStart k (startXid s1 x ((s.gen r).next + autoFrames s - 1))
    | _, _ => s

/-- The generator of ring `n` stopped: the transactions FIRED or ABORTED on it are FREE at once (R119). -/
def xidStop (s : State) (n : Nat) : State :=
  forIdx 16 s fun s x =>
    let v := s.xid x
    if v.refRing = n && (v.st == .fired || (v.st == .aborted && !v.early))
    then freeXid (if v.st == .fired && v.parent.isNone then postXa s x 0 else s) x else s

/-- The frame of the reference ring at which a transaction applies, in the numbers that the ring counts now (R119, R135). [log 147 DEDUCED] -/
def refTarget (v : Xid) : Nat := match v.rings.find? fun e => e.1 == v.refRing with | some e => e.2 | none => v.target

/-- A fence of ring `n` with frame `f` frees the XIDs whose T + 3 it is, completions first (R119, R132). -/
def xidFence (s : State) (n f : Nat) : State :=
  let s1 := forIdx 16 s fun s x =>
    let v := s.xid x
    if v.refRing = n && (v.st == .fired || (v.st == .aborted && !v.early)) && v.parent.isNone && frameLe (refTarget v + 3) f
    then freeXid (if v.st == .fired then postXa s x 0 else s) x else s
  autoStart 8 s1

/-- Whether sub-XID `y` is the sub-transaction of parent XID `x` and has not ended. -/
def subLives (s : State) (y x : Nat) : Bool :=
  (s.xid y).parent == some x && ((s.xid y).st == .preparing || (s.xid y).st == .voting)

/-- Why a part of route `route` cannot go on in ring `r` of this coach: a ring whose generator does not run has no fence, a broadcast has no voters
while LOCK = 0 (R120, R126). [log 43 DEDUCED] -/
def relayCause (s : State) (r route : Nat) : Option Nat :=
  if posOfRoute s route = 63 && !(s.on (F.CL_RTAB_FLAGS_LOCK r)) then some reasonRoster
  else if !(genRuns s r) then some reasonFence else none

/-- Sub-transaction `y` takes a part for ring `r` and sends it on with XID, EPOCH, TARGET and DLEAD rewritten (R123). Its reference ring is the
lowest it touches. -/
def subPart (s : State) (y r : Nat) (c : Copy) : State :=
  let v := s.xid y
  let target := parentRatio s r * beAt c.data 8 6
  let d : XaDest := { route := c.route.toNat, rhb := 0, entries := hostEntries [], ops := beAt c.data 16 1, slot := beAt c.data 17 1, lists := [(0, (c.data.length - 24) / 8)] }
  let ds := joinDest v.dests d
  let rs := if v.rings.any fun e => e.1 == r then v.rings else v.rings ++ [(r, target)]
  let ref := rs.foldl (fun m e => min m e.1) r
  let v1 := { v with dests := ds, rings := rs, refRing := ref, voters := votersOf s ds, sent := true }
  let body := xaHead 1 y (epochOf s r) (beAt c.data 6 2) ++ bytesBE 6 target ++ slice c.data 14 2 ++
    slice c.data 16 4 ++ bytesBE 4 (beAt c.data 20 4 + s.rd F.XA_CTL_COACH_GUARD) ++ c.data.drop 24
  (sendControl (s.setXid y { v1 with target := refTarget v1 }) r (downPacket 7 0 c.route.toNat body)).1

/-- A coach sends a prepare part on into ring `r` (R123), `sub` its sub-XID so far: with no FREE XID, or once the sub-transaction has aborted,
it is not sent on. Answers the sub-XID. [log 43 DEDUCED] -/
def xaRelay (s : State) (r : Nat) (c : Copy) (sub : Option Nat) : State × Option Nat :=
  let x := beAt c.data 1 1 % 16
  let go (s : State) (y : Nat) : State :=
    if !(subLives s y x) then s
    else match relayCause s r c.route.toNat with
      | some e => abortXid s y e c.route.toNat 0 0
      | none => subPart s y r c
  match sub, freeXidBelow s (if s.on F.XA_AUTO_SWAP_SYNC then 15 else 16) with
  | some y, _ => (go s y, some y)
  | none, some y => (go (s.setXid y { Xid.init with st := .preparing, parent := some x }) y, some y)
  | none, none => (s, none)

/-- A coach executed the parent's close: it sends its own close on each ring of the sub-transaction, which is then VOTING
(R123); one that has aborted stays so. -/
def subClose (s : State) (y : Nat) : State :=
  let v := s.xid y
  if v.st != .preparing then s
  else
    let s1 := v.rings.foldl (fun s e => (sendControl s e.1 (downPacket 7 0 (ringRoute s e.1) (closeBody y (epochOf s e.1) e.2))).1) s
    s1.modXid y fun v => { v with st := .voting }

/-- Whether sub-transaction `y` of parent XID `x` is ready: every expected sub-vote is READY (R15, R124), or the holder of its rings has said so
(R296). -/
def subReady (s : State) (y x : Nat) : Bool :=
  let v := s.xid y
  v.parent == some x && v.st == .voting && (if v.rings.all fun e => holds s e.1 then allReady v else v.ready)

def XidSt.code : XidSt → Nat
  | .free => 0
  | .building => 1
  | .preparing => 2
  | .voting => 3
  | .fired => 4
  | .aborted => 5

/-- Entries staged by the follower, in all (R122). -/
def stagedAll (s : State) : Nat :=
  s.xa.uses.foldl (fun n e => match e.2 with | some u => n + u.entries.length | none => n) 0

def State.use (s : State) (x : Nat) : Option Use := s.xa.uses.get none x
def State.setUse (s : State) (x : Nat) (u : Option Use) : State :=
  let t := { s with xa := { s.xa with uses := s.xa.uses.set none x u } }
  let n := 8 * stagedAll t
  (t.wr F.XA_STAGE_USED n).wr F.XA_STAGE_HIWATER (max n (t.rd F.XA_STAGE_HIWATER))

/-- Whether XID `x` is the swap channel that this ring end fires (R136). [log 123 DEDUCED] -/
def swapChannel (s : State) (x : Nat) : Bool :=
  x == 15 && (s.xid x).st == .free && s.on F.XA_AUTO_SWAP_SYNC && anyIdx 8 (genRuns s)

/-- What XA_XSTAT, XA_XTGT and XA_XVOTE show of XID `n`. [log 123 DEDUCED] -/
def xaView (s : State) (a : Nat) : Option Nat :=
  if 0x80100 ≤ a && a < 0x80200 then
    let x := (a - 0x80100) / 16
    let v := s.xid x
    let tgt := match v.st, s.use x with
      | .free, some u => u.target
      | _, _ => v.target
    match a % 16 with
    | 0 => some (match v.st, s.use x with
      | .free, some u => if s.wt.fol.shown && frameLe u.target s.wt.fol.lastFrame then 8 else if u.voted then 7 else 6
      | st, _ => st.code + 256 * v.reason + 65536 * v.parent.getD 0 + 2 ^ 20 * b2n v.parent.isSome + 2 ^ 21 * b2n (v.auto || swapChannel s x))
    | 4 => some (tgt % 2 ^ 32)
    | 8 => some (tgt / 2 ^ 32)
    | _ => some ((v.voters.filter fun w => w.vote == some true).length % 1024 + 65536 * (v.voters.length % 1024))
  else none

end Sys2Proof.Machine
end

