-- ==== Sys2Proof/Machine/LeaseOps.lean ====
section
/-! DEFINITION. Machine/LeaseOps.lean: leases heard, claimed, granted and given up, and the lease a carriage follows (chapter
*The sender pair*). -/
namespace Sys2Proof.Machine

/-- The lease trace record: ring, held by this device, epoch (R410 class 5). -/
def traceLease (s : State) (r : Nat) (held : Bool) (epoch : Nat) : State :=
  trace s 5 (r + 8 * b2n held) (bytesLE 4 epoch)

def State.modPair (s : State) (f : Pair → Pair) : State := { s with pair := f s.pair }

/-- This member holds ring `r` at an epoch from now on (R284, R286, R289). A member that becomes active waits for RINGS_GO. -/
def becomeHolder (s : State) (r epoch : Nat) : State :=
  let was := redRole s
  let s0 := (s.wr (F.RED_RSTAT_HELD r) 1).wr (F.RED_REPOCH_EPOCH r) epoch
  let s1 := count (traceLease (s0.setLease r { s0.lease r with epoch := epoch }) r true epoch) 38 1
  if redRole s1 = 1 && was != 1 then s1.wr F.RED_STAT_RINGS_STOPPED 1 else s1

/-- This member steps down from ring `r` (R284): cause 1 a higher epoch, 2 an equal epoch where home wins. -/
def stepDown (s : State) (r epoch cause : Nat) : State :=
  let s0 := (s.wr (F.RED_RSTAT_HELD r) 0).wr (F.RED_REPOCH_EPOCH r) epoch
  let s1 := s0.setLease r { s0.lease r with mark := s0.rd (F.RED_RSTAT_SEQ r) }
  let s2 := (s1.wr F.RED_STAT_RINGS_STOPPED 0).modPair fun p => { p with given := setBits p.given r 1 0 }
  leaseLost (raise (count (traceLease s2 r false epoch) 38 1) 434 (d2 r cause)) (2 ^ r)

/-- An intact Whistle for ring `r` reaches a pair member (R283, R284): from the mirror link or at its end. -/
def memberWhistle (s : State) (fromMirror : Bool) (b : List Byte) : State :=
  let f := (slice b 1 1).headD 0#8
  let held := f.toNat.testBit 0
  let origHome := f.toNat.testBit 1
  let hh := f.toNat.testBit 2
  let epoch := beAt b 2 4
  let r := beAt b 6 1 % 8
  let s1 := if fromMirror then
      let p := { s.pair with partnerHome := some origHome, partnerUp := f.toNat.testBit 3, partnerHealthy := f.toNat.testBit 4, partnerHere := true }
      let t := { s with pair := p }
      if s.pair.partnerHome != some origHome && origHome == s.on F.RED_CFG_HOME then raise t 440 (d2 (b2n origHome) 0) else t
    else if origHome != s.on F.RED_CFG_HOME then s.setLease r { s.lease r with relayAt := some s.now } else s
  let own := s1.rd (F.RED_REPOCH_EPOCH r)
  if !held then s1
  else if holds s1 r then
    if own < epoch then stepDown (lost s1 r hh epoch) r epoch 1
    else if epoch = own && hh && !(countsHome s1) then stepDown (lost s1 r hh epoch) r epoch 2
    else s1
  else
    let s2 := if own ≤ epoch then s1.wr (F.RED_REPOCH_EPOCH r) epoch else s1
    if fromMirror then note s2 r hh epoch else s2
where
  /-- The holder's Whistle was heard on the mirror link: what this member copies (R283). -/
  note (s : State) (r : Nat) (hh : Bool) (epoch : Nat) : State := s.setLease r { s.lease r with heard := true, holderHome := hh, epoch := epoch }
  /-- What a member that steps down sends: the holder's values where the mirror link brought them, else the last it held. -/
  lost (s : State) (r : Nat) (hh : Bool) (epoch : Nat) : State :=
    if fromMirror then note s r hh epoch else s.setLease r { s.lease r with heard := false, holderHome := countsHome s }

/-- LEASE_TIMEOUT in ps. -/
def leaseTimeoutPs (s : State) : Nat := clamp 2 1000 (s.rd F.RED_TIMERS_LEASE_TIMEOUT) * msPs

/-- The better of two leases heard: the higher epoch, between equal ones the home holder (R285). -/
def betterLease (a b : Option Heard) : Option Heard :=
  match a, b with
  | none, x => x
  | x, none => x
  | some x, some y => if x.epoch < y.epoch || (x.epoch == y.epoch && y.home && !x.home) then some y else some x

/-- The lease heard from one direction: the better of the one held, while it is fresh, and the new one (R285). -/
def hearLease (old : Option Heard) (h : Heard) : Option Heard :=
  match old with
  | some x => if x.epoch = h.epoch && x.home == h.home then some h else betterLease (some x) (some h)
  | none => some h

/-- Drops the staged entries of uses prepared under another epoch than the one followed, unless a mark held has decided
them (R134). -/
def dropOldUses (s : State) (epoch : Nat) : State :=
  forIdx 16 s fun s x =>
    match s.use x with
    | none => s
    | some u =>
      let decided := (s.wt.fol.marks ++ s.wt.fol.taken.toList).any fun m =>
        frameLe u.target m.frame && frameLe m.frame u.windowEnd && (m.commit.testBit x || !(m.rep.testBit x))
      if u.epoch != epoch && !decided then (match u.sub with | some y => if subLives s y x then dropSub s y else s | none => s).setUse x none else s

/-- A follower hears a Whistle from a direction (R285): the followed epoch, its events, R134. -/
def followWhistle (s : State) (dir : Nat) (b : List Byte) : State :=
  let f := (slice b 1 1).headD 0#8
  if !(f.toNat.testBit 0) then s
  else
    let h : Heard := ⟨beAt b 2 4, f.toNat.testBit 2, s.now⟩
    let fresh (o : Option Heard) : Option Heard := o.filter fun x => decide (s.now ≤ x.time + leaseTimeoutPs s)
    let p := if dir = 2 then { s.pair with heardW := hearLease (fresh s.pair.heardW) h, heardE := fresh s.pair.heardE }
      else { s.pair with heardE := hearLease (fresh s.pair.heardE) h, heardW := fresh s.pair.heardW }
    let s1 := { s with pair := p }
    match betterLease p.heardE p.heardW with
    | none => s1
    | some x =>
      let old := s.rd F.RED_FOLLOW_EPOCH
      let s2 := ((s1.wr F.RED_FOLLOW_EPOCH x.epoch).wr F.RED_FSTAT_VALID 1).wr F.RED_FSTAT_HOLDER_HOME (b2n x.home)
      if x.epoch = old then s2
      else
        let s3 := raise (s2.bump F.RED_FSTAT_CHANGES 1) 444 (d2 (b2n x.home) 0 ++ bytesLE 4 x.epoch)
        dropOldUses (count (traceLease s3 (beAt b 6 1 % 8) false x.epoch) 38 1) x.epoch

/-- No held Whistle was heard for LEASE_TIMEOUT (R285). -/
def followLost (s : State) : State :=
  if !(s.on F.RED_FSTAT_VALID) then s
  else
    let s1 := (s.wr F.RED_FSTAT_VALID 0).modPair fun p => { p with heardE := none, heardW := none }
    raise s1 445 (d2 0 0 ++ bytesLE 4 (s.rd F.RED_FOLLOW_EPOCH))

/-- The member claims rings by promotion, ring by ring (R286, R294). -/
def promote (s : State) (r : Nat) : State :=
  let epoch := s.rd (F.RED_REPOCH_EPOCH r) + 1
  let unsynced := !s.pair.everSynced
  let s1 := leaseLost s (2 ^ r)
  let s2 := if (s1.lease r).originated then takeStream s1 r else jumpSeq (takeStream s1 r) r
  let s3 := becomeHolder (s2.setLease r { s2.lease r with heard := false }) r epoch
  redRefresh (raise s3 432 (d2 (2 ^ r) (b2n unsynced) ++ bytesLE 4 epoch))

/-- Rings as a mask. -/
def ringMask (l : List Nat) : Nat := l.foldl (fun m r => m + 2 ^ r) 0

/-- The lowest ring of a mask. -/
def lowRing (mask : Nat) : Nat := (firstIdx 8 mask.testBit).getD 0

/-- Sends a CLAIM for rings, three frames ahead on their reference ring (R289). -/
def sendClaim (s : State) (mask : Nat) : State :=
  if mask = 0 || !(mirrorUp s) || s.pair.claimSent.isSome || s.pair.grant.isSome then s
  else
    let f := (s.gen (lowRing mask)).next + 3
    let es := (List.range 8).filterMap fun r => if mask.testBit r then some (s.rd (F.RED_REPOCH_EPOCH r)) else none
    mirrorSend (s.modPair fun p => { p with claimSent := some (mask, f) }) true 13 0 ([mask, f] ++ es)

/-- An XID of this member that is PREPARING, VOTING or FIRED. -/
def runningXid (s : State) : Option Nat :=
  firstIdx 16 fun x => let v := s.xid x; v.st == .preparing || v.st == .voting || v.st == .fired

/-- Grants a claim at fence `f` (R289). -/
def grantAt (s : State) (mask f : Nat) : State :=
  mirrorSend (redRefresh (s.modPair fun p => { p with claimHeld := none, grant := some ⟨mask, f, false⟩ })) true 14 0 [mask, f]

/-- A CLAIM reaches the holder (R289, R134). -/
def claimAccept (s : State) (mask f : Nat) : State :=
  let m := ringMask ((enabledRings s).filter fun r => mask.testBit r && holds s r)
  if m = 0 then s
  else match runningXid s with
    | none => grantAt s m f
    | some x => raise (s.modPair fun p => { p with claimHeld := some (m, f) }) 438 (d2 m x)

/-- A claim that waited is granted once no XID runs: at the later of F and two frames on (R289). -/
def claimRelease (s : State) : State :=
  match s.pair.claimHeld with
  | none => s
  | some (m, f) => if (runningXid s).isSome then s else grantAt s m (max f ((s.gen (lowRing m)).next + 2))

/-- GRANT reaches the claimant (R289), or the partner that a HANDOVER makes claim (R290). [log 60 DEDUCED] -/
def grantAccept (s : State) (mask f : Nat) : State :=
  redRefresh (s.modPair fun p => { p with claimSent := none, grant := some ⟨mask, f, true⟩ })

/-- The granted fence falls on reference ring `n` (R289). -/
def leaseFence (s : State) (n f : Nat) : State :=
  match s.pair.grant with
  | none => s
  | some g =>
    if lowRing g.mask != n || frameLt f g.fence then s
    else
      let rs := (List.range 8).filter fun r => g.mask.testBit r
      let s0 := s.modPair fun p => { p with grant := none }
      if g.take then
        let s1 := rs.foldl (fun s r => becomeHolder (takeStream s r) r (s.rd (F.RED_REPOCH_EPOCH r) + 1)) s0
        redRefresh (raise s1 433 (d2 g.mask 2 ++ bytesLE 6 f))
      else
        let s1 := s0.modPair fun p => { p with given := p.given ||| g.mask }
        redRefresh (raise (leaseLost s1 g.mask) 433 (d2 g.mask 1 ++ bytesLE 6 f))

/-- Seconds until a revert may claim: REVERT_HOLDOFF less the time the member has been healthy (R288, R290). -/
def holdoffLeft (s : State) : Nat :=
  let h := clamp 5 3600 (s.rd F.RED_REVERT_REVERT_HOLDOFF)
  match s.pair.healthySince with
  | some t => h - (s.now - t) / secPs
  | none => h

/-- The revert claim of the home member that has been healthy for REVERT_HOLDOFF (R290). -/
def revertClaim (s : State) : State :=
  let conflict := s.pair.partnerHome == some (s.on F.RED_CFG_HOME)
  if pairEn s && holdoffLeft s = 0 && s.on F.RED_CFG_REVERT_EN && !conflict && s.on F.RED_CFG_HOME && redRole s == 2 && s.on F.RED_STAT_HEALTHY && s.pair.partnerUp
  then sendClaim s (ringMask (enabledRings s)) else s

/-- Rings the partner holds, as its Whistles say. -/
def partnerRings (s : State) : List Nat := (enabledRings s).filter fun r => !(holds s r) && (s.lease r).heard

/-- Both members hold rings and the link is up: the one that is not home claims the home member's rings (R291). -/
def splitRejoin (s : State) : State :=
  if pairEn s && mirrorUp s && !(countsHome s) && redRole s == 3 then sendClaim s (ringMask (partnerRings s)) else s

/-- A write of RED_CTL.HANDOVER (R290): the healthy partner claims every ring held here. [log 60 DEDUCED] -/
def handover (s : State) : State :=
  let m := ringMask ((enabledRings s).filter (holds s))
  if pairEn s && m != 0 && s.pair.partnerHealthy && mirrorUp s then claimAccept s m ((s.gen (lowRing m)).next + 3) else s

/-- A write of RED_CTL.RINGS_GO (R284). -/
def ringsGo (s : State) : State := if pairEn s && redRole s == 1 then (s.wr F.RED_STAT_RINGS_STOPPED 0).wr F.RED_STAT_ROLE 1 else s

/-- The register ranges that the active mirrors (R276). -/
def mirrored (a : Nat) : Bool :=
  a == R.SYS_COMMIT || a == R.CL_SLOT || a == R.CL_ORDER || a == R.CL_ECHO || (decide (0x61000 ≤ a) && decide (a < 0x62000)) ||
  (List.range 8).any (fun n => a == R.WT_RCFG n) || a == R.WT_FCFG ||
  a == R.XA_CTL || a == R.XA_AUTO || (decide (0x80200 ≤ a) && decide (a < 0x80240)) ||
  a == R.NI_CTL || a == R.NI_TIMERS || (decide (0x91000 ≤ a) && decide (a < 0x92000)) ||
  a / 0x10000 == 0xA || a / 0x10000 == 0xE || a == R.RED_TIMERS || a == R.RED_REVERT ||
  (decide (0xF0200 ≤ a) && decide (a < 0xF0280))

/-- Whether this member is the source of a resync: the one that holds a lease; if both do, the one that is not home; if
neither does, the home member (R295). -/
def isSyncSource (s : State) : Bool :=
  let own := (enabledRings s).any (holds s)
  let oth := !(partnerRings s).isEmpty
  if own && !oth then true else if oth && !own then false else if own then !(countsHome s) else countsHome s

/-- Mirrored DRAM region `i`: base and size in bytes (R278). -/
def region (s : State) (i : Nat) : Nat × Nat :=
  (s.rd (F.RED_MREG_LO_BASE i) * 4096 + s.rd (F.RED_MREG_HI_BASE_HI i) * 2 ^ 32, s.rd (F.RED_MREG_SIZE_SIZE i) * 4096)

/-- A region's content for a resync: offset and value of every byte that is not 0. [log 61 DEDUCED] -/
def regionBody (s : State) (i : Nat) : List Nat :=
  let g := region s i
  (s.dram.mem.filter fun e => decide (g.1 ≤ e.1) && decide (e.1 < g.1 + g.2)).flatMap fun e => [e.1 - g.1, e.2.toNat]

/-- A list in pieces of at most `n` elements; at least one piece. -/
def pieces : Nat → Nat → List Nat → List (List Nat)
  | 0, _, l => [l]
  | k + 1, n, l => if l.length ≤ n then [l] else l.take n :: pieces k n (l.drop n)

/-- SYNC items of kind `arg` with a head and a long body, in packets that the channel's queue can hold. [log 61 DEDUCED] -/
def sendSync (s : State) (arg : Nat) (head body : List Nat) : State :=
  (pieces body.length 128 body).foldl (fun s l => mirrorSend s false 16 arg (head ++ l)) s

/-- What a resync's source sends (R295): mirrored registers, ring tables among them, that do not hold their reset values, SEQ counters, map tables,
layers with the buffer in force and the held media time, the state of every XID, the mirrored regions, then the fence. [log 61 DEDUCED] -/
def sendContent (s : State) (f : Nat) : State :=
  let s1 := sendSync s 0 [] ((s.regs.filter fun e => mirrored e.1).flatMap fun e => [e.1, e.2.toNat])
  let s2 := (enabledRings s).foldl (fun s r => mirrorSend s false 16 1 [r, s.rd (F.RED_RSTAT_SEQ r)]) s1
  let s3 := (List.range 8).foldl (fun s r => sendSync s 3 [r] ((s.cmp.maps.get [] r).map BitVec.toNat)) s2
  let s4 := (List.range 128).foldl (fun s i =>
    let media := s.rd64 (F.CMP_LMEDIA_LO_MEDIA (i / 16) (i % 16)) (F.CMP_LMEDIA_HI_MEDIA (i / 16) (i % 16))
    mirrorSend s false 16 4 [i / 16, i % 16, match (s.cmp.layers.get CLayer.init i).gbuf with | some b => b + 1 | none => 0, media]) s3
  let s5 := (List.range 16).foldl (fun s x => mirrorSend s false 16 5 [x, (s.xid x).st.code, (s.xid x).target]) s4
  let s6 := (List.range 8).foldl (fun s i =>
    if s.on (F.RED_MREG_SIZE_EN i) then sendSync s 6 [(region s i).1, (region s i).2] (regionBody s i) else s) s5
  mirrorSend s6 false 16 2 [f]

/-- This member becomes the target of a resync (R295). -/
def becomeTarget (s : State) : State :=
  redRefresh ((s.wr F.RED_STAT_SYNCED 0).modPair fun p => { p with syncSource := some 2, syncFence := none, syncItems := [], syncWrites := [], syncStart := s.now, syncWait := none, wasTarget := true })

/-- A resync starts (R295): the source sends its content and names the fence; the target is no longer SYNCED. [log 61 DEDUCED, 66 DEDUCED] -/
def startResync (s : State) : State :=
  if !(mirrorUp s) then s
  else if isSyncSource s then
    let f := ((s.gen ((enabledRings s).headD 0)).next + 2) % 2 ^ 48
    sendContent (s.modPair fun p => { p with syncSource := some 1, syncFence := some f, syncStart := s.now, everSynced := true, syncWait := none }) f
  else becomeTarget s

/-- The partner's Whistle for ring `r` was heard since the mirror port reached UP; with the last one the roles of the resync are known (R295). [log 157 DEDUCED] -/
def syncHear (s : State) (r : Nat) : State :=
  match s.pair.syncWait with
  | none => s
  | some m =>
    let w := if m.testBit r then m - 2 ^ r else m
    if w = 0 then startResync s else s.modPair fun p => { p with syncWait := some w }

/-- WT_PAIR.ALIGNED follows the mirror link and the standby's follower (R111); each change is reported. -/
def alignShow (s : State) : State :=
  let a := pairEn s && mirrorUp s && s.on F.WT_PAIR_ALIGN_EN && redRole s == 2 && folState s == 1
  if a == s.on F.WT_PAIR_ALIGNED then s else raise (s.wr F.WT_PAIR_ALIGNED (b2n a)) 217 (d2 (b2n a) 0 ++ bytesLE 4 (s.rd F.WT_PAIR_OFS_OFS))

/-- The mirror port left or reached UP since the last look (R273, R289, R292, R295): a GRANT that the claimant may not hold grants nothing. [log 62 DEDUCED, 157 DEDUCED] -/
def pairLink (s : State) : State :=
  if !(pairEn s) then redRefresh s
  else
    let u := mirrorUp s
    if u = s.pair.wasUp then redRefresh s
    else if u then
      let rings := enabledRings s
      let s1 := rings.foldl (fun s r => s.setLease r { s.lease r with mark := s.rd (F.RED_RSTAT_SEQ r), jumped := false }) s
      let s2 := raise (s1.modPair fun p => { p with wasUp := true, syncWait := some (ringMask rings) }) 436 (d2 0 0)
      redRefresh (if rings.isEmpty then startResync s2 else s2)
    else
      let untold := (s.pair.chU.unacked ++ s.pair.chU.waiting).any fun i => i.kind == 14
      let s0 := (enabledRings s).foldl (fun s r => if holds s r then s else endStream s r) s
      let s1 := mirrorReset (s0.modPair fun p => { p with wasUp := false, claimSent := none, claimHeld := none, grant := p.grant.filter fun g => g.take || !untold, partnerHere := false, syncSource := none, syncFence := none, syncItems := [], syncWrites := [], syncWait := none })
      let s2 := raise s1 435 (d2 0 0)
      let s3 := if s2.on F.RED_CFG_RED_SOLO then s2
        else forIdx 16 s2 fun s x =>
          let v := s.xid x
          if v.st == .preparing || v.st == .voting then abortXid s x reasonPartition 0 0 0 else s
      redRefresh s3

def pairCheck (s : State) : State := alignShow (pairLink s)

/-- MIRROR_TIMEOUT passed without the holder's Whistle on the mirror link (R283): the rings not held turn to HELD = 0. -/
def mirrorTimeout (s : State) : State :=
  if !(pairEn s) then s
  else
    let s1 := (enabledRings s).foldl (fun s r => if holds s r then s else s.setLease r { s.lease r with heard := false }) s
    redRefresh (s1.modPair fun p => { p with partnerHere := false })

/-- RED_CFG.EN became 0: nothing of the pair is left, so that a member that joins again holds no ring (R272). [log 69 DEDUCED, 157 DEDUCED] -/
def leavePair (s : State) : State :=
  let s1 := (List.range 8).foldl (fun s r => (s.wr (F.RED_RSTAT_HELD r) 0).wr (F.RED_RSTAT_SILENT r) 0) s
  redRefresh { s1.wr F.RED_STAT_SYNCED 0 with pair := { State.reset.pair with heardE := s.pair.heardE, heardW := s.pair.heardW, downSeen := s.pair.downSeen, downTold := s.pair.downTold } }

/-- What RED registers show beside the stored word: HOLDOFF_LEFT counts down while HEALTHY (R288); alone, every enabled ring is
held at epoch 1 (R272); RELAY_SEEN lasts for LEASE_TIMEOUT. -/
def redView (s : State) (a : Nat) : Option Nat :=
  if a = R.RED_STAT then
    some (setBits (s.reg a) 16 12 (if pairEn s then holdoffLeft s else 0))
  else if 0xF0100 ≤ a && a < 0xF0180 && s.isSender then
    let r := (a - 0xF0100) / 16
    if a % 16 = 0 then (if pairEn s || !(ringEnabled s r) then none else some 1)
    else if a % 16 = 4 then
      let seen := pairEn s && (s.lease r).relayAt.any fun t => decide (s.now ≤ t + leaseTimeoutPs s)
      some (setBits (setBits (s.reg a) 0 1 (b2n (holds s r))) 1 1 (b2n seen))
    else none
  else none

end Sys2Proof.Machine
end

