-- ==== Sys2Proof/Machine/McOps.lean ====
section
/-! DEFINITION. Machine/McOps.lean: the DRAM space, its check code, refresh, self-refresh, training and frequency change
(chapter *DDR4 memory controller*). -/
namespace Sys2Proof.Machine

def State.dch (s : State) (c : Nat) : DramChan := s.dram.ch.get DramChan.init c
def State.setDch (s : State) (c : Nat) (x : DramChan) : State :=
  { s with dram := { s.dram with ch := s.dram.ch.set DramChan.init c x } }

/-- MC_STAT.STATE: 0 off, 1 training, 2 ready, 3 self-refresh, 4 frequency change, 5 failed. -/
def mcState (s : State) (c : Nat) : Nat := s.rd (F.MC_STAT_STATE c)

/-- Capacity in bytes by DEVW and DENS (R338). -/
def chanBytes (s : State) (c : Nat) : Nat :=
  if s.rd (F.MC_DEV_DEVW c) = 1 && s.rd (F.MC_DEV_DENS c) = 0 then 2 ^ 31 else 2 ^ 32

def ilv (s : State) : Bool := s.isSender && s.on (F.MC_CTL_ILV 0)

/-- The channel and channel address of a device address (R341). -/
def chanOf (s : State) (a : Nat) : Nat × Nat :=
  if ilv s then (bits a 8 1, a / 512 * 256 + a % 256)
  else if s.isSender && chanBytes s 0 ≤ a then (1, a - chanBytes s 0) else (0, a)

/-- The device address of a channel address. -/
def deviceOf (s : State) (c a : Nat) : Nat :=
  if ilv s then a / 256 * 512 + 256 * c + a % 256 else if c = 1 then chanBytes s 0 + a else a

/-- Installed DRAM: each channel but its last 4 KiB (R341). -/
def installed (s : State) (a : Nat) : Bool :=
  let x := chanOf s a
  decide (x.2 + 4096 < chanBytes s x.1 + 0) && (s.isSender || x.1 == 0)

/-- Whether the `n` bytes from `a` are installed: without interleaving all in one channel, since each keeps its last 4 KiB. [log 58 DEDUCED] -/
def installedRange (s : State) (a n : Nat) : Bool :=
  installed s a && (n = 0 || (installed s (a + n - 1) && (ilv s || (chanOf s a).1 == (chanOf s (a + n - 1)).1)))

/-- The row, bank, bank group and column of a channel address (R342): row, bank, group, column C9 to C3. -/
def dramFields (s : State) (c a : Nat) : Nat × Nat × Nat × Nat :=
  if s.rd (F.MC_DEV_DEVW c) = 0 then (bits a 16 16, bits a 14 2, bits a 12 2, bits a 5 7)
  else (bits a 15 17, bits a 13 2, bits a 12 1, bits a 5 7)

/-- The address tag of pair `i` of the 64-byte block at a channel address (R343). -/
def addressTag (a i : Nat) : Nat := crcBytes 8 0x07 0xFF (bytesBE 4 (a / 64 * 64) ++ bytesBE 1 i)

/-- A DRAM command: 1 REF, 2 ZQCS, 3 self-refresh entry, 4 self-refresh exit, 5 precharge all, 6 MR2 SRT, 7 initialisation,
8 relock at a rate, 9 commands reissued. -/
def dramCmd (s : State) (c code arg : Nat) : State := { s with out := s.out ++ [.dram c code arg] }

/-- One refresh, with a ZQCS after every 128th (R348, R349). -/
def refresh (s : State) (c : Nat) : State :=
  let x := s.dch c
  let n := x.refs + 1
  let s1 := dramCmd (s.setDch c { x with refs := n % 128 }) c 1 0
  if n = 128 then dramCmd s1 c 2 0 else s1

/-- `k` refreshes back to back. -/
def refreshes : Nat → State → Nat → State
  | 0, s, _ => s
  | k + 1, s, c => refreshes k (refresh s c) c

/-- Entry to self-refresh in the order of R350. -/
def enterSr (s : State) (c : Nat) : State :=
  if mcState s c != 2 then s
  else
    let s1 := (refreshes (s.rd (F.MC_REF_OWED c)) s c).wr (F.MC_REF_OWED c) 0
    let s2 := dramCmd (dramCmd s1 c 5 0) c 6 (s.rd (F.MC_REF_REF2X c))
    dramCmd ((s2.wr (F.MC_REF_SRT c) (s.rd (F.MC_REF_REF2X c))).wr (F.MC_STAT_STATE c) 3) c 3 0

/-- Exit from self-refresh: CKE, tXS_DLL, ZQCS (R350). -/
def exitSr (s : State) (c : Nat) : State :=
  if mcState s c != 3 then s else dramCmd (dramCmd (s.wr (F.MC_STAT_STATE c) 2) c 4 0) c 2 0

/-- Whether a channel is to be in self-refresh: a mode asks for it, or MC_CTL.EN is 0 (R350). -/
def srWanted (s : State) (c : Nat) : Bool := (s.dch c).asked || !(s.on (F.MC_CTL_EN c))

/-- A ready channel goes into self-refresh where it is wanted there (R350). -/
def settleSr (s : State) (c : Nat) : State := if srWanted s c then enterSr s c else s

/-- A request reaches a channel in self-refresh: it exits, serves, and goes back in if it is asked to stay (R350). -/
def touch (s : State) (c : Nat) : State := if mcState s c != 3 then s else settleSr (exitSr s c) c

/-- A mode asks channel `c` into self-refresh, or lets it go (R350). -/
def askSr (s : State) (c : Nat) (yes : Bool) : State :=
  let s1 := s.setDch c { s.dch c with asked := yes }
  if srWanted s1 c then enterSr s1 c else exitSr s1 c

/-- Whether a channel serves requests. -/
def serves (s : State) (c : Nat) : Bool := mcState s c == 2 || mcState s c == 3 || mcState s c == 4

/-- One byte as DRAM holds it. -/
def dramByte (s : State) (a : Nat) : Byte :=
  if serves s (chanOf s a).1 then s.dram.mem.get 0#8 a else Config.dramUnserved a

/-- `n` bytes from device address `a`. [log 13 DESIGN CHOICE, 70 DESIGN CHOICE] -/
def dramRead (s : State) (a n : Nat) : List Byte := (List.range n).map fun i => dramByte s (a + i)

/-- Stores bytes where the channel serves them; a byte of none is left. -/
def storeBytes : State → Nat → List (Option Byte) → State
  | s, _, [] => s
  | s, a, b :: l =>
    let s1 := match b with
      | some v => if serves s (chanOf s a).1 then { s with dram := { s.dram with mem := s.dram.mem.set 0#8 a v } } else s
      | none => s
    storeBytes s1 (a + 1) l

/-- The bytes of pair `p` (8 bytes) that a write of `l` at `a` covers. -/
def pairCover (a p : Nat) (l : List (Option Byte)) : Nat :=
  ((List.range 8).filter fun i => decide (a ≤ 8 * p + i) && ((l[8 * p + i - a]?).join).isSome).length

/-- The code after a write: a pair written whole is good; one merged over an uncorrectable pair is poisoned (R344). -/
def recode (s : State) (a : Nat) (l : List (Option Byte)) : State :=
  let ps := (List.range (l.length / 8 + 2)).map (a / 8 + ·)
  ps.foldl (fun s p =>
    let n := pairCover a p l
    if s.dram.bad.get 0 p = 0 || n = 0 then s
    else { s with dram := { s.dram with bad := s.dram.bad.set 0 p (if n = 8 then 0 else 3) } }) s

/-- A write of bytes with byte enables at device address `a` (R343, R344, R350). -/
def dramStore (s : State) (a : Nat) (l : List (Option Byte)) : State :=
  storeBytes (recode (touch s (chanOf s a).1) a l) a l

/-- A write of whole bytes. [log 70 DESIGN CHOICE] -/
def dramWrite (s : State) (a : Nat) (l : List Byte) : State := dramStore s a (l.map some)

/-- The cause of the first uncorrectable pair in a range; 0 if it reads good. -/
def dramCause (s : State) (a n : Nat) : Nat :=
  if s.dram.bad.isEmpty then 0
  else ((List.range (n / 8 + 2)).map (a / 8 + ·)).foldl (fun c p =>
    if c = 0 && decide (8 * p < a + n) then s.dram.bad.get 0 p else c) 0

/-- An uncorrectable read of a channel address: MC_ECC.UE, MC_UEADDR, MC_UE at most once per ms, its counter (R343). -/
def countUe (s : State) (c addr cause : Nat) : State :=
  let s1 := s.bump (F.MC_ECC_UE c) 1
  let s2 := if s1.on (F.MC_UEADDR_VALID c) then s1
    else ((s1.wr (F.MC_UEADDR_VALID c) 1).wr (F.MC_UEADDR_CAUSE c) cause).wr (F.MC_UEADDR_ADDR c) (addr / 64)
  count (raiseLim s2 465 msPs (d2 c cause ++ bytesLE 4 addr)) (43 + 2 * c) 1

/-- A corrected read: MC_ECC.CE, MC_CE at most once per second with the corrections since the last report, its counter. -/
def countCe (s : State) (c : Nat) : State :=
  let n := (s.dch c).ces + 1
  let s1 := (s.bump (F.MC_ECC_CE c) 1).setDch c { s.dch c with ces := n }
  let s2 := if s1.mayReport (464 + 1024 * c) secPs
    then (raise (s1.setDch c { s1.dch c with ces := 0 }) 464 (d2 c 0 ++ bytesLE 4 n)).reported (464 + 1024 * c) else s1
  count s2 (42 + 2 * c) 1

/-- Reads for a requestor: wakes the channel, counts an uncorrectable read. Answers the bytes and whether they are good. -/
def dramFetch (s : State) (a n : Nat) : State × List Byte × Bool :=
  let x := chanOf s a
  let s1 := touch s x.1
  let cause := dramCause s1 a n
  (if cause = 0 then s1 else countUe s1 x.1 x.2 cause, dramRead s1 a n, cause == 0)

/-- The slowest bin of a RATE: data rate in MT/s, CK in MHz, CL, CWL, tRCD = tRP, parity latency (R340). -/
def bin (rate : Nat) : Nat × Nat × Nat × Nat × Nat × Nat :=
  match rate with
  | 0 => (1600, 800, 12, 9, 12, 4)
  | 1 => (1866, 933, 14, 10, 14, 4)
  | 2 => (2133, 1067, 16, 11, 16, 4)
  | 3 => (2400, 1200, 18, 12, 18, 5)
  | 4 => (2666, 1333, 20, 14, 20, 5)
  | 5 => (2933, 1467, 22, 16, 22, 6)
  | _ => (3200, 1600, 24, 16, 24, 6)

/-- MC_TIM0 and MC_TIM1 for a rate, with the offsets of MC_TADJ; tREFI by REF2X (R340, R348). -/
def setTimings (s : State) (c rate : Nat) : State :=
  let (_, ck, cl, cwl, rcd, pl) := bin rate
  let rfc := ceilDiv ((if s.rd (F.MC_DEV_DENS c) = 1 then 550 else 350) * ck) 1000 + 4 * s.rd (F.MC_TADJ_ADD_RFC c)
  let refi := (if s.on (F.MC_REF_REF2X c) then 39 else 78) * ck / 10
  let s1 := (s.wr (F.MC_TIM0_CL c) (cl + s.rd (F.MC_TADJ_ADD_CL c))).wr (F.MC_TIM0_CWL c) cwl
  let s2 := (s1.wr (F.MC_TIM0_RCD c) (rcd + s.rd (F.MC_TADJ_ADD_RCD c))).wr (F.MC_TIM0_PL c) pl
  ((s2.wr (F.MC_TIM1_REFI c) refi).wr (F.MC_TIM1_RFC c) rfc).wr (F.MC_STAT_RATE c) rate

/-- Training starts: from step 1 the first time after a reset, else from step 2 (R351). -/
def startTraining (s : State) (c rate : Nat) : State :=
  let first := !(s.dch c).trained
  let s1 := setTimings s c rate
  let s2 := (s1.wr (F.MC_STAT_STATE c) 1).wr (F.MC_STAT_TSTEP c) (if first then 1 else 2)
  let s3 := s2.wr (F.MC_STAT_SIZE c) (chanBytes s c / 2 ^ 20)
  if first then dramCmd s3 c 7 rate else dramCmd s3 c 4 0

/-- MC_CTL.EN became 1 (R340, R341, R351): refused with MC_CONFIG_BAD for a reserved RATE or unequal MC_DEV settings under
interleave. [log 159 DEDUCED] -/
def mcEnable (s : State) (c : Nat) : State :=
  let rate := s.rd (F.MC_DEV_RATE c)
  let bad := if rate = 7 then 1 else if c = 0 && ilv s && s.reg (R.MC_DEV 0) != s.reg (R.MC_DEV 1) then 2 else 0
  if bad != 0 then raise (s.wr (F.MC_CTL_EN c) 0) 475 (d2 c bad) else startTraining s c rate

/-- MC_CTL.EN became 0: self-refresh (R350). -/
def mcDisable (s : State) (c : Nat) : State := if mcState s c = 2 then enterSr s c else s

/-- Zero fill of a channel with valid codes (R351 step 8). -/
def zeroFill (s : State) (c : Nat) : State :=
  let m := s.dram.mem.filter fun e => (chanOf s e.1).1 != c
  let b := s.dram.bad.filter fun e => (chanOf s (8 * e.1)).1 != c
  { s with dram := { s.dram with mem := m, bad := b } }

/-- Step 7 of training fills MC_TRAIN (R351). -/
def fillTrain (s : State) (c vref vrange eyeR eyeW : Nat) : State :=
  (((s.wr (F.MC_TRAIN_VREFDQ c) vref).wr (F.MC_TRAIN_VRANGE c) vrange).wr (F.MC_TRAIN_EYE_R c) eyeR).wr (F.MC_TRAIN_EYE_W c) eyeW

/-- The channel is trained and ready: the zero fill of the first training after a reset, then MC_TRAIN_DONE (R351). -/
def trained (s : State) (c : Nat) : State :=
  let s1 := if (s.dch c).trained then s else zeroFill s c
  let s2 := (s1.wr (F.MC_STAT_TSTEP c) 0).wr (F.MC_STAT_STATE c) 2
  raise (s2.setDch c { s2.dch c with trained := true }) 467 (d2 c (s2.rd (F.MC_STAT_RATE c)))

/-- Training ends well (R351); a channel wanted in self-refresh goes there. -/
def trainOk (s : State) (c vref vrange eyeR eyeW : Nat) : State :=
  settleSr (trained (fillTrain s c vref vrange eyeR eyeW) c) c

/-- A training step found no eye: the channel fails, and with it a change of rate under way (R351, R353). -/
def trainFail (s : State) (c step lane : Nat) : State :=
  raise (((s.wr (F.MC_STAT_STATE c) 5).wr (F.MC_STAT_TSTEP c) 0).wr (F.MC_FREQ_BUSY c) 0) 468 (d2 c step ++ bytesLE 1 lane)

/-- tREFI passed (R348, R349): native mode refreshes at once; compatibility mode postpones while an RT request is pending, up
to 8, and catches up when none is. -/
def refreshDue (s : State) (c : Nat) (rt : Bool) : State :=
  if mcState s c != 2 then s
  else if !(s.on (F.MC_CTL_COMPAT_REF c)) then refresh s c
  else
    let owed := s.rd (F.MC_REF_OWED c)
    if rt then (if owed = 8 then refresh s c else s.wr (F.MC_REF_OWED c) (owed + 1))
    else (refreshes (owed + 1) s c).wr (F.MC_REF_OWED c) 0

/-- The refresh mode by a round's DRAM temperature in 1/16 °C (R348, R349): `ok` a healthy sensor. [log 92 DEDUCED] -/
def refreshMode (s : State) (c : Nat) (temp : Int) (ok : Bool) : State :=
  let t2x : Int := (clamp 60 95 (s.rd (F.MC_REF_T2X c)) : Nat)
  let hyst : Int := (s.rd1 (F.MC_REF_THYST c) : Nat)
  let cur := s.on (F.MC_REF_REF2X c)
  let want := if !ok || decide (16 * t2x ≤ temp) then true else if temp < 16 * (t2x - hyst) then false else cur
  let hot := ok && decide (16 * 95 < temp)
  let s0 := if hot && !(s.dch c).hot then raise s 474 (d2 c (toBits (temp / 16) 8)) else s
  let s1 := s0.setDch c { s0.dch c with hot := hot }
  if want = cur then s1
  else
    let ck := (bin (s.rd (F.MC_STAT_RATE c))).2.1
    let s2 := (s1.wr (F.MC_REF_REF2X c) (b2n want)).wr (F.MC_TIM1_REFI c) ((if want then 39 else 78) * ck / 10)
    let s3 := raise s2 470 (d2 c (b2n want))
    let owed := s.rd (F.MC_REF_OWED c)
    if want && 0 < owed && mcState s c = 2 then raise ((refreshes owed s3 c).wr (F.MC_REF_OWED c) 0) 471 (d2 c owed)
    else if want && mcState s c = 3 && !(s.on (F.MC_REF_SRT c)) then
      settleSr (dramCmd ((refreshes 2 (exitSr s3 c) c).wr (F.MC_REF_SRT c) 1) c 6 1) c
    else s3

/-- A recentring step of the lane and direction whose turn it is (R352): abandoned for a request, accepted, or rejected. -/
def recentre (s : State) (c : Nat) (abandoned : Bool) (shift eye : Nat) : State :=
  let x := s.dch c
  if mcState s c != 2 || s.rd (F.MC_RECAL_RECAL_INT c) = 0 || abandoned then s
  else
    let s1 := s.setDch c { x with recal := (x.recal + 1) % 10 }
    if shift ≤ s.rd1 (F.MC_RECAL_STEP_MAX c) && s.rd1 (F.MC_RECAL_EYE_MIN c) ≤ eye then s1.bump (F.MC_TRAIN_RECALS c) 1
    else raise s1 469 (d2 c (x.recal % 5) ++ bytesLE 1 (1 + x.recal % 2))

/-- The patrol reads its next block (R345): `found` 0 as stored, 1 a single-bit error, 2 to 4 a new DATA, TAG or POISON error
in pair `pair` of the block. -/
def patrol (s : State) (c found pair : Nat) : State :=
  if !(s.on (F.MC_CTL_SCRUB_EN c)) || mcState s c != 2 then s
  else
    let x := s.dch c
    let a := x.patrol
    let next := if a + 64 + 4096 < chanBytes s c then a + 64 else 0
    let dev := deviceOf s c a
    let s0 := if 2 ≤ found then { s with dram := { s.dram with bad := s.dram.bad.set 0 (dev / 8 + pair) (found - 1) } } else s
    let s1 := s0.setDch c { x with patrol := next }
    let cause := dramCause s1 dev 64
    if cause != 0 then countUe s1 c a cause else if found = 1 then countCe s1 c else s1

/-- A write of MC_FREQ.GO (R353): refused in RUN; a reserved RATE is refused as for EN. Owed refreshes are issued and
self-refresh is entered; a GO while BUSY replaces the pending RATE. [log 158 DESIGN CHOICE] -/
def freqGo (s : State) (c : Nat) : State :=
  let rate := s.rd (F.MC_FREQ_RATE c)
  let s1 := s.wr (F.MC_FREQ_REFUSED c) 0
  if s.rd F.SYS_MSTAT_MODE = 3 then raise (s1.wr (F.MC_FREQ_REFUSED c) 1) 473 (d2 c 0)
  else if rate = 7 then raise (s1.wr (F.MC_FREQ_REFUSED c) 1) 475 (d2 c 1)
  else
    let s2 := ((enterSr s1 c).wr (F.MC_FREQ_BUSY c) 1).wr (F.MC_STAT_STATE c) 4
    s2.setDch c { s2.dch c with newRate := rate }

/-- The change of rate ends with its training (R353): relock, exit from self-refresh, MC_TRAIN_DONE and MC_FREQ_DONE. A first
training that the change broke into ends here with its zero fill. [log 158 DESIGN CHOICE] -/
def freqDone (s : State) (c : Nat) : State :=
  if !(s.on (F.MC_FREQ_BUSY c)) then s
  else
    let rate := (s.dch c).newRate
    let s1 := dramCmd (setTimings (dramCmd s c 8 rate) c rate) c 4 0
    settleSr (raise (trained (s1.wr (F.MC_FREQ_BUSY c) 0) c) 472 (d2 c rate)) c

/-- A parity alert (R354): the banks are closed and the commands reissued; `attempts` are those made of a command before this alert. After
RETRY_MAX of them it has failed, and a read of it is uncorrectable with cause DATA. -/
def capar (s : State) (c attempts : Nat) (read : Option Nat) : State :=
  if !(s.on (F.MC_CTL_CAPAR_EN c)) then s
  else
    let failed := decide (s.rd1 (F.MC_CAPAR_RETRY_MAX c) ≤ attempts)
    let s1 := dramCmd (s.bump (F.MC_CAPAR_ERR c) 1) c 5 0
    let s2 := raise (if failed then s1 else dramCmd s1 c 9 (attempts + 1)) 466 (d2 c (b2n failed))
    match failed, read with
    | true, some a => countUe s2 c a 1
    | _, _ => s2

end Sys2Proof.Machine
end

