-- ==== Sys2Proof/Machine/NiOps.lean ====
section
/-! DEFINITION. Machine/NiOps.lean: network ports, frame classification, flows, the merge of R148, closing, pair repair and
publication of frames, quadrant groups and the host rings (chapter *Network ingest in the sender*). -/
namespace Sys2Proof.Machine

def State.modNi (s : State) (f : Ni → Ni) : State := { s with ni := f s.ni }
def State.flow (s : State) (f : Nat) : Flow := s.ni.flows.get Flow.init f
def State.setFlow (s : State) (f : Nat) (x : Flow) : State := s.modNi fun n => { n with flows := n.flows.set Flow.init f x }
def State.modFlow (s : State) (f : Nat) (g : Flow → Flow) : State := s.setFlow f (g (s.flow f))

/-! Ports. -/

/-- Enabled Coachline ports that claim a network port's lane (R139). [log 25 DEDUCED] -/
def niRivals (s : State) (n : Nat) : List Nat :=
  if !(s.on (F.NI_PCFG_EN n)) then [] else
  (List.range 12).filter fun p => s.on (F.CL_PCFG_EN p) && (portLanes s p).contains (s.rd (F.NI_PCFG_LANE n))

/-- Whether the rate and FEC of a network port form a combination of R138. -/
def niConfigOk (s : State) (n : Nat) : Bool :=
  let fec := s.rd (F.NI_PCFG_FEC n)
  if s.rd (F.LANE_CTL_RATE (s.rd (F.NI_PCFG_LANE n))) = 1 then decide (fec ≤ 2) else fec == 0

/-- The lane conflict of one network port after a change of ports: entering it brings both ports down with NI_LANE_CONFLICT
and CL_PARTNER_BAD mismatch 4 (R139). -/
def niConflict (s : State) (n : Nat) : State :=
  let l := niRivals s n
  if l.isEmpty then portsStart (s.wr (F.NI_PSTAT_CONFLICT n) 0)
  else
    let s0 := (s.wr (F.NI_PSTAT_LINK n) 0).wr (F.NI_PSTAT_FEC_LOCK n) 0
    let s1 := l.foldl portOff s0
    if s.on (F.NI_PSTAT_CONFLICT n) then s1
    else
      let s2 := raise (s1.wr (F.NI_PSTAT_CONFLICT n) 1) 242 (d2 n (s.rd (F.NI_PCFG_LANE n)))
      l.foldl (fun s p => raise s 178 (d2 p 4)) s2

/-- All network ports after a change of port enables or lanes. -/
def niConflicts (s : State) : State := forIdx 4 s niConflict

/-- A write that gave an enabled network port a combination outside R138: it is down, with NI_PORT_DOWN and cause CONFIG. `old` is the state
before the write. -/
def niJudge (old s : State) : State :=
  forIdx 4 s fun s n =>
    if s.on (F.NI_PCFG_EN n) && !(niConfigOk s n) && !(old.on (F.NI_PCFG_EN n) && !(niConfigOk old n))
    then raise ((s.wr (F.NI_PSTAT_LINK n) 0).wr (F.NI_PSTAT_FEC_LOCK n) 0) 241 (d2 n 4) else s

/-- NI_PCFG was written: EN = 0 takes the port down (R138, R139). -/
def niPortWritten (s : State) (n old : Nat) : State :=
  let s1 := if s.on (F.NI_PCFG_EN n) then s
    else ((s.wr (F.NI_PSTAT_LINK n) 0).wr (F.NI_PSTAT_FEC_LOCK n) 0).wr (F.NI_PSTAT_HIBER n) 0
  niConflicts (niJudge (s.setReg (R.NI_PCFG n) old) s1)

/-- The PCS and FEC of a port meet R139; its lane has come to stable lock (R63). [log 25 DEDUCED] -/
def niPortUp (s : State) (n : Nat) (fecLock : Bool) : State :=
  let fec := s.rd (F.NI_PCFG_FEC n) != 0
  if s.on (F.NI_PCFG_EN n) && !(s.on (F.NI_PSTAT_CONFLICT n)) && niConfigOk s n && !(s.on (F.NI_PSTAT_LINK n)) && (!fec || fecLock) then
    let s1 := ((s.wr (F.NI_PSTAT_LINK n) 1).wr (F.NI_PSTAT_HIBER n) 0).wr (F.NI_PSTAT_FEC_LOCK n) (b2n fec)
    let l := s.rd (F.NI_PCFG_LANE n)
    let s2 := [F.LANE_STAT_SIGDET l, F.LANE_STAT_CDR_LOCK l, F.LANE_STAT_BLOCK_LOCK l, F.LANE_STAT_STABLE l].foldl (fun s f => s.wr f 1) s1
    raise (raise s2 (laneSrc l 4) []) 240 (d2 n (s.rd (F.LANE_CTL_RATE l)))
  else s

/-- A port loses its PCS lock (0), enters hi_ber (1) or loses FEC lock (2). -/
def niPortDown (s : State) (n cause : Nat) : State :=
  if s.on (F.NI_PSTAT_LINK n) then
    let s1 := ((s.wr (F.NI_PSTAT_LINK n) 0).wr (F.NI_PSTAT_HIBER n) (b2n (cause == 1)))
    raise (if cause = 2 then s1.wr (F.NI_PSTAT_FEC_LOCK n) 0 else s1) 241 (d2 n (cause + 1))
  else s

/-! Flow geometry. -/

/-- Pixels and bytes of a pgroup (R143). -/
def pgroup (samp depth : Nat) : Nat × Nat :=
  match samp, depth with
  | 0, 0 => (2, 4) | 0, 1 => (2, 5) | 0, _ => (2, 6)
  | _, 0 => (1, 3) | _, 1 => (4, 15) | _, _ => (2, 9)

def flowPg (s : State) (f : Nat) : Nat × Nat := pgroup (s.rd (F.NI_FFMT_SAMP f)) (s.rd (F.NI_FFMT_DEPTH f))
def flowW (s : State) (f : Nat) : Nat := s.rd (F.NI_FSIZE_WIDTH f)
def flowH (s : State) (f : Nat) : Nat := s.rd (F.NI_FSIZE_HEIGHT f)
/-- Bytes of one line of a flow. -/
def lineBytes (s : State) (f : Nat) : Nat := flowW s f / (flowPg s f).1 * (flowPg s f).2
def grouped (s : State) (f : Nat) : Bool := s.on (F.NI_FCFG_GRP_EN f)
/-- The members of quadrant group `g` (R154). -/
def members (s : State) (g : Nat) : List Nat := (List.range 32).filter fun f => grouped s f && s.rd (F.NI_FCFG_GROUP f) == g
/-- The flow whose buffers a flow uses: itself, or the leader of its group. [log 75 DEDUCED] -/
def leader (s : State) (f : Nat) : Nat := if grouped s f then ((members s (s.rd (F.NI_FCFG_GROUP f))).head?).getD f else f
def strideOf (s : State) (f : Nat) : Nat := s.rd (F.NI_FLINE_STRIDE f) * 64
/-- The size of one buffer of leader `f`: STRIDE × height rounded up to 4 KiB, twice the height in a group (R146, R154). [log 75 DEDUCED] -/
def bufSize (s : State) (f : Nat) : Nat := ceilDiv (strideOf s f * flowH s f * (if grouped s f then 2 else 1)) 4096 * 4096
def bufBase (s : State) (f : Nat) : Nat := s.rd64 (F.NI_FBUF_LO_BASE f) (F.NI_FBUF_HI_BASE f) % 2 ^ 34
/-- The address of line `row` of flow `f` in buffer `k` (R146, R154). -/
def lineAddr (s : State) (f k row : Nat) : Nat :=
  let l := leader s f
  let g := grouped s f
  bufBase s l + k * bufSize s l + (row + (if g then s.rd (F.NI_FCFG_QY f) * flowH s f else 0)) * strideOf s l +
    (if g then s.rd (F.NI_FCFG_QX f) * lineBytes s f else 0)

/-- Bits per pixel of R144. -/
def flowBpp (s : State) (f : Nat) : Nat := (8 + 2 * s.rd (F.NI_FFMT_DEPTH f)) * (if s.rd (F.NI_FFMT_SAMP f) = 0 then 2 else 3)
/-- The payload rate of a flow in bytes per second (R144). -/
def payloadRate (s : State) (f : Nat) : Nat :=
  flowW s f * flowH s f * flowBpp s f * s.rd (F.NI_FRATE_NUM f) / (8 * zeroAs1 (s.rd (F.NI_FRATE_DEN f)))
def flowEn (s : State) (f : Nat) : Bool := s.on (F.NI_FCFG_EN f)
def admitted (s : State) : Nat := ((List.range 32).filter (flowEn s)).foldl (fun n f => n + payloadRate s f) 0
/-- NI_BUDGET shows the sum of the enabled flows. -/
def showBudget (s : State) : State := s.wr F.NI_BUDGET_USED (admitted s / 1000000)

def addrOf (w : Nat → FRef) (s : State) : Nat := (List.range 4).foldl (fun n k => n * 2 ^ 32 + s.rd (w k)) 0

/-- A leg's key (R142): port, address, UDP port, VLAN ID if matched. -/
structure LegKey where
  port : Nat
  addr : Nat
  udp : Nat
  vid : Option Nat
deriving DecidableEq

def legKey (s : State) (f : Nat) (b : Bool) : LegKey :=
  if b then ⟨s.rd (F.NI_FCFG_PORT_B f), addrOf (F.NI_FADDR_B_ADDR f) s, s.rd (F.NI_FKEY_UDP_B f),
    if s.on (F.NI_FVLAN_VMATCH_B f) then some (s.rd (F.NI_FVLAN_VID_B f)) else none⟩
  else ⟨s.rd (F.NI_FCFG_PORT_A f), addrOf (F.NI_FADDR_A_ADDR f) s, s.rd (F.NI_FKEY_UDP_A f),
    if s.on (F.NI_FVLAN_VMATCH_A f) then some (s.rd (F.NI_FVLAN_VID_A f)) else none⟩

def legOn (s : State) (f : Nat) (b : Bool) : Bool := if b then s.on (F.NI_FCFG_LEG_B f) else s.on (F.NI_FCFG_LEG_A f)
def legKeys (s : State) (f : Nat) : List LegKey := ([false, true].filter (legOn s f)).map (legKey s f)

/-- The first failing check of R144 for flow `f`, its EN bit still 0. -/
def enableCheck (s : State) (f : Nat) : Option Nat :=
  let w := flowW s f
  let h := flowH s f
  let num := s.rd (F.NI_FRATE_NUM f)
  let den := s.rd (F.NI_FRATE_DEN f)
  let others := (List.range 32).filter fun g => g != f && flowEn s g
  let l := leader s f
  let mates := (members s (s.rd (F.NI_FCFG_GROUP f))).filter fun g => g != f && flowEn s g
  let nbuf := s.rd (F.NI_FCFG_NBUF f)
  if s.rd (F.NI_FFMT_SAMP f) = 3 || s.rd (F.NI_FFMT_DEPTH f) = 3 || s.rd (F.NI_FFMT_COLOR f) = 3 || s.rd (F.NI_FFMT_TCS f) = 3 then some 1
  else if w < 16 || 4096 < w || h < 16 || 2304 < h || w % (flowPg s f).1 ≠ 0 then some 2
  else if den = 0 || num * 1001 < 24000 * den || 120 * den < num then some 3
  else if (legKeys s f).isEmpty || (legKeys s f).any (fun k => others.any fun g => (legKeys s g).contains k) then some 4
  else if l = f && (nbuf < 3 || 8 < nbuf || bufBase s f % 4096 ≠ 0 || strideOf s f < lineBytes s f ||
      !(installedRange s (bufBase s f) (nbuf * bufSize s f))) then some 5
  else if grouped s f && (mates.any (fun g => s.reg (R.NI_FFMT g) != s.reg (R.NI_FFMT f) || s.reg (R.NI_FSIZE g) != s.reg (R.NI_FSIZE f) ||
        s.reg (R.NI_FRATE g) != s.reg (R.NI_FRATE f) ||
        (s.rd (F.NI_FCFG_QX g) == s.rd (F.NI_FCFG_QX f) && s.rd (F.NI_FCFG_QY g) == s.rd (F.NI_FCFG_QY f))) ||
      decide (strideOf s l < 2 * lineBytes s f)) then some 6
  else if 7500000000 < admitted s + payloadRate s f then some 7
  else none

/-- EN written 1 on a flow that was disabled: WAIT, or refused (R144, R145). [log 74 DEDUCED, 76 DEDUCED] -/
def flowEnable (s : State) (f : Nat) : State :=
  let s0 := s.wr (F.NI_FCFG_EN f) 0
  match enableCheck s0 f with
  | some c => raise (s0.wr (F.NI_FSTAT_REFUSE f) c) 244 (d2 f c)
  | none =>
    let s1 := (s0.setFlow f Flow.init).wr (F.NI_FCFG_EN f) 1
    let s2 := ((s1.wr (F.NI_FSTAT_STATE f) 1).wr (F.NI_FSTAT_PUB_VALID f) 0).wr (F.NI_FSTAT_LEGA_UP f) 0
    showBudget (s2.wr (F.NI_FSTAT_LEGB_UP f) 0)

/-- EN written 0: open frames are discarded, OFF (R145). -/
def flowDisable (s : State) (f : Nat) : State :=
  let s1 := s.modFlow f fun x => { x with opens := [], closing := [], early := [], ready := [], longA := true, longB := true }
  showBudget ((s1.wr (F.NI_FCFG_EN f) 0).wr (F.NI_FSTAT_STATE f) 0)

/-! Publication. -/

def lcfgKind (s : State) (r l : Nat) : Nat := s.rd (F.CMP_LCFG_KIND r l)
/-- The flow that carries a video layer: its flow, or its group's leader (R158). -/
def layerFlow (s : State) (r l : Nat) : Option Nat :=
  let src := s.rd (F.CMP_LCFG_SRC r l)
  match lcfgKind s r l with
  | 0 => some src
  | 1 => (members s (src % 8)).head?
  | _ => none

/-- Whether an enabled layer of this member uses the buffers of leader `f` (R158, R168). -/
def layerUses (s : State) (f : Nat) : Bool :=
  anyIdx 8 fun r => anyIdx 16 fun l => s.on (F.CMP_LCFG_EN r l) && (layerFlow s r l).any fun g => leader s g == f

/-- Whether a compositor holds buffer `k` of leader `f`: a layer's choice, and in a standby with the mirror link up the buffer published before
the latest one of a flow that a layer uses (R151, R167, R168). -/
def bufHeld (s : State) (f k : Nat) : Bool :=
  s.cmp.layers.any (fun e => s.on (F.CMP_LSTAT_HELD (e.1 / 16) (e.1 % 16)) && e.2.heldFlow != 0 && leader s (e.2.heldFlow - 1) == f &&
    s.rd (F.CMP_LSTAT_VBUF (e.1 / 16) (e.1 % 16)) == k) ||
  (mirrorUp s && redRole s == 2 && layerUses s f && ((s.flow f).prev.any fun p => p.1 == k))

/-- Whether a member's open, closing or ready frame uses buffer `k` of leader `f`. -/
def bufInWrite (s : State) (f k : Nat) : Bool :=
  (List.range 32).any fun g => leader s g == f &&
    (let x := s.flow g
     x.opens.any (fun o => o.buf == some k) || x.closing.any (fun o => o.buf == some k) || x.ready.any fun o => o.2 == k)

/-- The buffer other members of the group write this media time into. [log 75 DEDUCED] -/
def groupBuf (s : State) (f media : Nat) : Option (Option Nat) :=
  if !(grouped s f) then none else
  ((members s (s.rd (F.NI_FCFG_GROUP f))).filterMap fun g =>
    let x := s.flow g
    match (x.opens.find? fun o => o.media == media), (x.closing.find? fun o => o.media == media), (x.ready.find? fun o => o.1 == media) with
    | some o, _, _ => some o.buf
    | _, some o, _ => some o.buf
    | _, _, some o => some (some o.2)
    | _, _, _ => none).head?

/-- The buffer for a new frame: the next in ring order that is neither the latest published nor held (R151). -/
def chooseBuf (s : State) (f media : Nat) : State × Option Nat :=
  match groupBuf s f media with
  | some b => (s, b)
  | none =>
    let l := leader s f
    let n := s.rd (F.NI_FCFG_NBUF l)
    let free := ((List.range n).map fun i => ((s.flow l).lastBuf + 1 + i) % n).find? fun k =>
      !(s.on (F.NI_FSTAT_PUB_VALID l) && s.rd (F.NI_FSTAT_PUB l) == k) && !(bufHeld s l k) && !(bufInWrite s l k)
    match free with
    | some k => (s.modFlow l fun x => { x with lastBuf := k }, some k)
    | none => (raise s 251 (d2 f 0), none)

/-- The shown state of a flow that published a frame: PUB and NI_FMEDIA at once, WAIT or STALL to RUN (R145, R151). -/
def publishOne (s : State) (f k media : Nat) : State :=
  let old := if s.on (F.NI_FSTAT_PUB_VALID f) then some (s.rd (F.NI_FSTAT_PUB f), s.rd64 (F.NI_FMEDIA_LO_MEDIA f) (F.NI_FMEDIA_HI_MEDIA f)) else none
  let s1 := s.modFlow f fun x => { x with prev := old }
  let s2 := ((s1.wr (F.NI_FSTAT_PUB f) k).wr (F.NI_FSTAT_PUB_VALID f) 1).wr64 (F.NI_FMEDIA_LO_MEDIA f) (F.NI_FMEDIA_HI_MEDIA f) media
  if s.rd (F.NI_FSTAT_STATE f) = 1 || s.rd (F.NI_FSTAT_STATE f) = 3 then raise (s2.wr (F.NI_FSTAT_STATE f) 2) 245 (d2 f 0) else s2

/-- Member `f` drops a media time, or has no frame of it: the whole group keeps its previous buffer, NI_GROUP_DROP names the first member that
failed, and what the others hold ready for it is free again (R154). [log 75 DEDUCED] -/
def groupDrop (s : State) (f media : Nat) : State :=
  let g := s.rd (F.NI_FCFG_GROUP f)
  let ms := members s g
  let d := leader s f
  if !(grouped s f) || (s.flow d).dropped.contains media || ((ms.filter (flowEn s)).length < 4) then s
  else
    let s1 := ms.foldl (fun s m =>
      if (s.flow m).ready.any (fun r => r.1 == media) then
        (s.modFlow m fun x => { x with ready := x.ready.filter fun r => r.1 != media }).bump (F.NI_FERR_DROPPED m) 1
      else s) s
    raise (s1.modFlow d fun x => { x with dropped := (x.dropped ++ [media]).drop (x.dropped.length - 7) }) 254 (d2 g f)

/-- Whether member `m` has passed a media time without a frame of it. -/
def passedBy (s : State) (media m : Nat) : Bool :=
  let x := s.flow m
  (x.lastClosed.any fun c => decide (media ≤ c)) && !(x.ready.any fun r => r.1 == media) && !(x.closing.any fun c => c.media == media) &&
  !(x.opens.any fun c => c.media == media)

/-- A member of a group decided to publish a media time: the group publishes once all four have, and drops it where one has dropped or passed it (R154). -/
def groupReady (s : State) (f k media : Nat) : State :=
  let ms := (members s (s.rd (F.NI_FCFG_GROUP f))).filter (flowEn s)
  if ms.length < 4 || (s.flow (leader s f)).dropped.contains media then s.bump (F.NI_FERR_DROPPED f) 1
  else
    let s1 := s.modFlow f fun x => { x with ready := x.ready ++ [(media, k)] }
    if ms.all (fun m => (s1.flow m).ready.any fun r => r.1 == media) then
      ms.foldl (fun s m => publishOne (s.modFlow m fun x => { x with ready := x.ready.filter fun r => r.1 != media }) m k media) s1
    else match ms.find? (passedBy s1 media) with
      | some m => groupDrop s1 m media
      | none => s1

/-- Media times that other members hold ready and that this one has passed fail (R154). -/
def groupSweep (s : State) (f : Nat) : State :=
  if !(grouped s f) then s else
  let l := ((members s (s.rd (F.NI_FCFG_GROUP f))).flatMap fun m => (s.flow m).ready.map (·.1)).eraseDups
  l.foldl (fun s t => if passedBy s t f then groupDrop s f t else s) s

def publish (s : State) (f k media : Nat) : State := if grouped s f then groupReady s f k media else publishOne s f k media

/-- One pgroup of the format's black level as a bit list (R150). -/
def blackBits (s : State) (f : Nat) : List Bool :=
  let d := 8 + 2 * s.rd (F.NI_FFMT_DEPTH f)
  let samp := s.rd (F.NI_FFMT_SAMP f)
  let lo := if s.on (F.NI_FFMT_RANGE f) then 0 else 16 * 2 ^ (d - 8)
  let mid := 2 ^ (d - 1)
  let px := if samp = 0 then [mid, lo, mid, lo] else if samp = 1 then [mid, lo, mid] else [lo, lo, lo]
  let n := (flowPg s f).2 * 8 / (d * px.length)
  ((List.replicate n px).flatten).flatMap (natBits d)

/-- Copies incomplete lines from the latest published buffer, or fills them with black (R150). -/
def conceal (s : State) (f k : Nat) (missing : List Nat) : State :=
  let l := leader s f
  let n := lineBytes s f
  let black := packBits n ((List.replicate (n / (flowPg s f).2) (blackBits s f)).flatten)
  missing.foldl (fun s row =>
    dramWrite s (lineAddr s f k row) (if s.on (F.NI_FSTAT_PUB_VALID l) then dramRead s (lineAddr s f (s.rd (F.NI_FSTAT_PUB l)) row) n else black)) s

/-- Conceals and publishes a frame with `missing` incomplete lines (R150). -/
def finishFrame (s : State) (f k media : Nat) (missing : List Nat) : State :=
  let m := missing.length
  let s1 := conceal s f k missing
  let s2 := if m = 0 then s1
    else raise (s1.bump (F.NI_FLOSS_CONCEALED f) m) 249 (d2 f 0 ++ bytesLE 2 m ++ bytesLE 4 0 ++ bytesLE 8 media)
  publish s2 f k media

/-- A frame that is not published: its buffer is free again, and its group drops it (R150, R154). -/
def dropFrame (s : State) (f m media : Nat) : State :=
  groupDrop (raise (s.bump (F.NI_FERR_DROPPED f) 1) 250 (d2 f 0 ++ bytesLE 2 m ++ bytesLE 4 0 ++ bytesLE 8 media)) f media

/-- A frame for which no buffer qualified is not written (R151, R154). -/
def unwritten (s : State) (f media : Nat) : State := groupDrop (s.bump (F.NI_FERR_DROPPED f) 1) f media

/-- The decision of R150 for a frame decided alone; without a buffer it is counted and not written (R151). -/
def decideFrame (s : State) (f : Nat) (buf : Option Nat) (media : Nat) (missing : List Nat) : State :=
  match buf with
  | none => unwritten s f media
  | some k =>
    if missing.length ≤ s.rd F.NI_CTL_CONCEAL_MAX then finishFrame s f k media missing
    else dropFrame s f missing.length media

/-- The MIRROR item of a close report and of a repair line (R152, R274). -/
def sendClose (s : State) (f media : Nat) (missing : List Nat) : State := mirrorSend s true 7 0 ([f, media] ++ missing)
def sendLine (s : State) (f media row : Nat) (data : List Byte) : State := mirrorSend s true 8 0 ([f, media, row] ++ data.map (·.toNat))

/-- The oldest frame that waits for the partner is finished as soon as it can be; then the next (R152). -/
def pairRun : Nat → State → Nat → State
  | 0, s, _ => s
  | n + 1, s, f =>
    match (s.flow f).closing with
    | [] => s
    | c :: rest =>
      let done := s.modFlow f fun x => { x with closing := rest }
      if c.alone then pairRun n (groupSweep (decideFrame done f c.buf c.media c.missing) f) f
      else
        match c.theirs with
        | none => s
        | some mb =>
          if !(c.wait.isEmpty) then s
          else
            let lim := s.rd F.NI_CTL_CONCEAL_MAX
            let both := c.missing.filter mb.contains
            let ok := decide (both.length ≤ lim) && decide ((c.missing.filter fun r => !(mb.contains r)).length ≤ lim) &&
              decide ((mb.filter fun r => !(c.missing.contains r)).length ≤ lim)
            let s1 := match c.buf with
              | none => unwritten done f c.media
              | some k => if ok then finishFrame done f k c.media both else dropFrame done f c.missing.length c.media
            pairRun n (groupSweep s1 f) f

/-- The partner's report of a frame this member has closed: lines it lacks are sent, lines it holds are awaited (R152). -/
def pairReport (s : State) (f media : Nat) (mb : List Nat) : State :=
  match (s.flow f).closing.find? fun c => c.media == media && c.theirs.isNone with
  | none => s
  | some c =>
    let lim := s.rd F.NI_CTL_CONCEAL_MAX
    let mine := c.missing.filter fun r => !(mb.contains r)
    let lacks := mb.filter fun r => !(c.missing.contains r)
    let ok := c.buf.isSome && decide ((c.missing.filter mb.contains).length ≤ lim) && decide (mine.length ≤ lim) && decide (lacks.length ≤ lim)
    let s1 := s.modFlow f fun x => { x with closing := x.closing.map fun d =>
      if d.media = media then { d with theirs := some mb, wait := if ok then mine else [] } else d }
    let s2 := match c.buf with
      | some k => if ok then lacks.foldl (fun s r => sendLine s f media r (dramRead s (lineAddr s f k r) (lineBytes s f))) s1 else s1
      | none => s1
    pairRun 8 s2 f

/-- A repair line from the partner (R152). -/
def pairLine (s : State) (f media row : Nat) (data : List Byte) : State :=
  match (s.flow f).closing.find? fun c => c.media == media && c.wait.contains row with
  | none => s
  | some c =>
    let s1 := match c.buf with
      | some k => dramWrite s (lineAddr s f k row) (slice data 0 (lineBytes s f))
      | none => s
    pairRun 8 (s1.modFlow f fun x => { x with closing := x.closing.map fun d =>
      if d.media = media then { d with wait := d.wait.filter (· != row) } else d }) f

/-- The incomplete lines of an open frame. -/
def incomplete (s : State) (f : Nat) (o : OpenFrame) : List Nat :=
  let full := 2 ^ (flowW s f / (flowPg s f).1) - 1
  (List.range (flowH s f)).filter fun r => o.cover.get 0 r != full

/-- Closes a frame with its incomplete lines (R149, R150, R152). -/
def closeWith (s : State) (f : Nat) (o : OpenFrame) (miss : List Nat) : State :=
  let s1 := s.modFlow f fun x => { x with opens := x.opens.filter fun p => p.media != o.media, lastClosed := some (max o.media (x.lastClosed.getD 0)) }
  if mirrorUp s then
    let s2 := sendClose (s1.modFlow f fun x => { x with closing := x.closing ++ [⟨o.media, o.buf, miss, none, false, []⟩] }) f o.media miss
    match (s2.flow f).early.find? fun e => e.1 == o.media with
    | some e => pairReport (s2.modFlow f fun x => { x with early := x.early.filter fun e => decide (o.media < e.1) }) f o.media e.2
    | none => s2
  else groupSweep (decideFrame s1 f o.buf o.media miss) f

/-- The oldest open frame closes while all its lines are complete (R149). -/
def closeWhole : Nat → State → Nat → State
  | 0, s, _ => s
  | n + 1, s, f =>
    match (s.flow f).opens with
    | [] => s
    | o :: _ => if o.buf.isSome && (incomplete s f o).isEmpty then closeWhole n (closeWith s f o []) f else s

/-- Closes the oldest open frame, and with it the next where that is whole already (R149). -/
def closeOldest (s : State) (f : Nat) : State :=
  match (s.flow f).opens with
  | [] => s
  | o :: _ => closeWhole 2 (closeWith s f o (incomplete s f o)) f

/-- A close report arrives: for a frame that is closed, for one still open or behind it (kept), or for one newer than every
open frame, which counts as closed with every line incomplete (R152). -/
def closeReport (s : State) (f media : Nat) (mb : List Nat) : State :=
  let x := s.flow f
  if !(flowEn s f) then s
  else if x.closing.any (fun c => c.media == media) then pairReport s f media mb
  else if x.opens.all (fun o => decide (o.media < media)) && x.lastClosed.all (fun c => decide (c < media)) then
    let b := chooseBuf s f media
    closeWith (b.1.modFlow f fun x => { x with early := x.early ++ [(media, mb)] }) f ⟨media, b.2, [], false⟩ (List.range (flowH s f))
  else s.modFlow f fun x => { x with early := x.early ++ [(media, mb)] }

/-- A waiting frame is to be decided alone: NI_PAIR_UNREPAIRED (R152). -/
def alone (s : State) (f : Nat) (c : PairFrame) : State :=
  let s1 := s.modFlow f fun x => { x with closing := x.closing.map fun d => if d.media = c.media then { d with alone := true } else d }
  raise s1 255 (d2 f 0 ++ bytesLE 6 0 ++ bytesLE 8 c.media)

/-- PAIR_WAIT has passed for the oldest frame whose report has not come: the member decides alone (R152). -/
def pairAlone (s : State) (f : Nat) : State :=
  match (s.flow f).closing.find? fun c => c.theirs.isNone && !c.alone with
  | none => s
  | some c => pairRun 8 (alone s f c) f

/-- The mirror link went down: each frame under repair is finished alone, as if the report had not come (R153). -/
def pairFinishAll (s : State) : State :=
  forIdx 32 s fun s f => pairRun 8 (((s.flow f).closing.filter fun c => !c.alone).foldl (fun s c => alone s f c) s) f

/-! Packets of a flow. -/

/-- An SRD of RFC 4175: row, offset in pixels, length in bytes, F. -/
structure Srd where
  row : Nat
  off : Nat
  len : Nat
  f : Bool

/-- SRD headers from byte `o`, at most `n`; none where more follow or the packet ends. -/
def srds : Nat → List Byte → Nat → Option (List Srd × Nat)
  | 0, _, _ => none
  | n + 1, b, o =>
    if b.length < o + 6 then none else
    let x : Srd := ⟨beAt b (o + 2) 2 % 2 ^ 15, beAt b (o + 4) 2 % 2 ^ 15, beAt b o 2, bitAt (beAt b (o + 2) 2) 15⟩
    if bitAt (beAt b (o + 4) 2) 15 then (srds n b (o + 6)).map fun r => (x :: r.1, r.2) else some ([x], o + 6)

/-- An RTP packet taken apart: marker, 32-bit sequence number, timestamp, SRDs, data. -/
structure Rtp where
  marker : Bool
  seq : Nat
  ts : Nat
  srds : List Srd
  data : List Byte

/-- The checks of R146: the packet, or the first that fails (1 to 6). A packet too short for its headers fails check 1, one
whose data do not fill its SRDs check 5. -/
def parseRtp (s : State) (f : Nat) (b : List Byte) : Rtp ⊕ Nat :=
  let b0 := beAt b 0 1
  let cc := b0 % 16
  let ext := 12 + 4 * cc
  let o := if bitAt b0 4 then ext + 4 + 4 * beAt b (ext + 2) 2 else ext
  let len := if bitAt b0 5 then b.length - beAt b (b.length - 1) 1 else b.length
  let body := b.take len
  let pg := flowPg s f
  if b0 / 64 ≠ 2 || beAt b 1 1 % 128 ≠ s.rd (F.NI_FCFG_PT f) || body.length < o + 8 then .inr 1
  else match srds 4 body (o + 2) with
    | none => .inr 2
    | some (l, d) =>
      let data := body.drop d
      if l.any (·.f) then .inr 3
      else if l.any (fun x => decide (flowH s f ≤ x.row)) then .inr 4
      else if l.any (fun x => x.off % pg.1 != 0 || x.len % pg.2 != 0) || decide (data.length < l.foldl (fun n x => n + x.len) 0) then .inr 5
      else if l.any (fun x => decide (flowW s f < x.off + x.len / pg.2 * pg.1)) then .inr 6
      else .inl ⟨bitAt (beAt b 1 1) 7, beAt b o 2 * 65536 + beAt b 2 2, beAt b 4 4, l, data⟩

/-- The media time of an RTP timestamp (R147). -/
def mediaNs (arrival r : Nat) : Nat :=
  let top : Int := (arrival * 9 / 100000 : Nat) + 9000
  let k := top - (top - r) % (2 ^ 32 : Nat)
  toBits (-(-(k * 100000) / 9)) 64

/-- A packet's number in the merge record of R148: accepted with the new record, a duplicate (`some false`), or late. -/
def mergeOffer (x : Flow) (q : Nat) : Option (Bool × Flow) :=
  match x.newest with
  | none => some (true, { x with newest := some q, marks := [q] })
  | some n =>
    let d := signed (q + 2 ^ 32 - n) 32
    if d > 16384 then some (true, { x with newest := some q, marks := [q] })
    else if d > 0 then some (true, { x with newest := some q, marks := q :: x.marks.filter fun m => decide (signed (q + 2 ^ 32 - m) 32 < 16384) })
    else if d > -16384 then if x.marks.contains q then some (false, x) else some (true, { x with marks := q :: x.marks })
    else none

/-- Whether media time `t` lies two or more frame periods after `m`. [log 73 DEDUCED] -/
def twoNewer (s : State) (f m t : Nat) : Bool :=
  let per := s.rd (F.NI_FRATE_DEN f) * 1000000000
  decide (3 * per ≤ 2 * (t - m) * s.rd (F.NI_FRATE_NUM f))

/-- Closes open frames until a packet of media time `t` can open its own (R149). -/
def makeRoom : Nat → State → Nat → Nat → State
  | 0, s, _, _ => s
  | n + 1, s, f, t =>
    match (s.flow f).opens with
    | [] => s
    | o :: r => if twoNewer s f o.media t || !(r.isEmpty) then makeRoom n (closeOldest s f) f t else s

/-- Marks the pgroups `a` to `a + n - 1` of a line. -/
def coverMask (a n : Nat) : Nat := (2 ^ n - 1) * 2 ^ a

/-- Writes the SRDs of an accepted packet into the buffer of the open frame of media time `t` (R146). -/
def writeSrds (s : State) (f t : Nat) : List Srd → List Byte → State
  | [], _ => s
  | x :: l, data =>
    let pg := flowPg s f
    let s1 := match (s.flow f).opens.find? fun o => o.media == t with
      | some o =>
        let s0 := match o.buf with
          | some k => dramWrite s (lineAddr s f k x.row + x.off / pg.1 * pg.2) (data.take x.len)
          | none => s
        s0.modFlow f fun y => { y with opens := y.opens.map fun p =>
          if p.media = t && p.buf.isSome then { p with cover := p.cover.set 0 x.row (p.cover.get 0 x.row ||| coverMask (x.off / pg.1) (x.len / pg.2)) } else p }
      | none => s
    writeSrds s1 f t l (data.drop x.len)

/-- An accepted packet goes to its frame (R149). -/
def toFrame (s : State) (f : Nat) (r : Rtp) (t : Nat) : State :=
  let x := s.flow f
  let late := !(x.opens.any fun o => o.media == t) && (x.lastClosed.any (fun c => decide (t ≤ c)) || x.opens.any fun o => decide (t < o.media))
  if late then s.bump (F.NI_FLOSS_LATE f) 1
  else
    let s1 := if x.opens.any (fun o => o.media == t) then s
      else
        let s0 := makeRoom 3 s f t
        let b := chooseBuf s0 f t
        b.1.modFlow f fun x => { x with opens := x.opens ++ [⟨t, b.2, [], false⟩] }
    let s2 := writeSrds s1 f t r.srds r.data
    let s3 := if r.marker then s2.modFlow f fun y => { y with opens := y.opens.map fun p => if p.media = t then { p with marker := true } else p } else s2
    closeWhole 2 s3 f

/-- A leg had an accepted packet: it is up (R145). [log 74 DEDUCED] -/
def legHeard (s : State) (f : Nat) (b : Bool) : State :=
  let up := if b then F.NI_FSTAT_LEGB_UP f else F.NI_FSTAT_LEGA_UP f
  let s1 := s.modFlow f fun x => if b then { x with longB := false } else { x with longA := false }
  if s1.on up then s1 else raise (s1.wr up 1) 248 (d2 f (b2n b))

/-- A UDP payload that matched a leg of flow `f` (R146 to R149). -/
def flowPacket (s : State) (f : Nat) (b : Bool) (payload : List Byte) : State :=
  match parseRtp s f payload with
  | .inr c => raiseLimKey (s.bump (F.NI_FERR_BAD f) 1) 252 f (d2 f c)
  | .inl r =>
    let both := legOn s f false && legOn s f true
    match (if both then mergeOffer (s.flow f) r.seq else some (true, s.flow f)) with
    | none => s.bump (F.NI_FLOSS_LATE f) 1
    | some (false, _) => s
    | some (true, x) =>
      let s1 := legHeard ((s.setFlow f x).bump (if b then F.NI_FMERGE_FIRST_B f else F.NI_FMERGE_FIRST_A f) 1) f b
      let arrival := wallNs s
      let t := mediaNs arrival r.ts
      let age := arrival - t
      let s2 := if s.rd F.NI_TIMERS_AGE_MAX * 1000000 < age then raiseLimKey s1 253 f (d2 f 0 ++ bytesLE 4 (age / 1000)) else s1
      toFrame s2 f r t
where
  /-- An event limited to once per second per flow. -/
  raiseLimKey (s : State) (src f : Nat) (d : List Byte) : State :=
    if s.mayReport (1000 + 32 * src + f) secPs then (raise s src d).reported (1000 + 32 * src + f) else s

/-- LOSS_TIME without an accepted packet on a leg: it goes down, or has been down for LOSS_TIME; once every enabled leg has, a running flow stalls (R145). [log 74 DEDUCED] -/
def legLoss (s : State) (f : Nat) (b : Bool) : State :=
  let up := if b then F.NI_FSTAT_LEGB_UP f else F.NI_FSTAT_LEGA_UP f
  if s.on up then raise (s.wr up 0) 247 (d2 f (b2n b))
  else
    let s1 := s.modFlow f fun x => if b then { x with longB := true } else { x with longA := true }
    let long := fun l => !(legOn s1 f l) || (if l then (s1.flow f).longB else (s1.flow f).longA)
    if legOn s f b && s.rd (F.NI_FSTAT_STATE f) = 2 && long false && long true then raise (s1.wr (F.NI_FSTAT_STATE f) 3) 246 (d2 f 0) else s1

/-! Classification. -/

/-- Where a good frame goes (R141). -/
inductive FrameTo where
  | host (ptp : Bool)
  | flow (f : Nat) (legB : Bool) (payload : List Byte)
  | bad
  | gone
deriving DecidableEq

/-- The Internet checksum over bytes: the one's complement sum, FFFFh where it checks. -/
def inetSum (b : List Byte) : Nat :=
  let n := (List.range ((b.length + 1) / 2)).foldl (fun a i => a + beAt b (2 * i) 2) 0
  let m := n % 65536 + n / 65536
  m % 65536 + m / 65536

/-- A UDP datagram found in a frame: IPv6-form destination, offsets of the UDP header and of its addresses. [log 72 DEDUCED] -/
def udpOk (b : List Byte) (v6 : Bool) (u : Nat) (addrs : List Byte) : Bool :=
  let len := beAt b (u + 4) 2
  if beAt b (u + 6) 2 = 0 then !v6
  else inetSum (addrs ++ bytesBE 2 17 ++ bytesBE 2 len ++ slice b u len) == 65535

/-- Whether a PTP message type is an event message of R92. -/
def ptpEvent (b : List Byte) (o : Nat) : Bool := decide (beAt b o 1 % 16 ≤ 3)

/-- The rows of R141 after the IP layer: `u` is the UDP header. [log 72 DEDUCED] -/
def classifyUdp (s : State) (n : Nat) (b : List Byte) (vid : Option Nat) (dst u : Nat) (other : FrameTo) : FrameTo :=
  let port := beAt b (u + 2) 2
  if port = 319 then .host (ptpEvent b (u + 8)) else if port = 320 then .host false
  else
    let hit := fun f l => flowEn s f && legOn s f l && (let k := legKey s f l
      k.port == n && k.addr == dst && k.udp == port && (k.vid.all fun v => vid == some v))
    match firstIdx 32 fun f => hit f false || hit f true with
    | some f => .flow f (!(hit f false)) (slice b (u + 8) (beAt b (u + 4) 2 - 8))
    | none => other

/-- The extension headers of IPv6. -/
def extHeader (nh : Nat) : Bool := [0, 43, 44, 50, 51, 60, 135, 139, 140].contains nh

/-- The UDP header behind a chain of extension headers that starts with header `nh` at `o`: none behind a fragment that is not the first, or
behind an encrypted payload. [log 72 DEDUCED] -/
def udpBehind : Nat → List Byte → Nat → Nat → Option Nat
  | 0, _, _, _ => none
  | n + 1, b, nh, o =>
    if nh = 17 then some o
    else if nh = 44 then (if beAt b (o + 2) 2 / 8 = 0 then udpBehind n b (beAt b o 1) (o + 8) else none)
    else if nh = 51 then udpBehind n b (beAt b o 1) (o + 4 * (beAt b (o + 1) 1 + 2))
    else if nh ≠ 50 && extHeader nh then udpBehind n b (beAt b o 1) (o + 8 * (beAt b (o + 1) 1 + 1)) else none

/-- The classification of a frame without its FCS (R141). [log 72 DEDUCED] -/
def classify (s : State) (n : Nat) (b : List Byte) : FrameTo :=
  let e0 := beAt b 12 2
  let tagged := e0 == 0x8100
  let vid := if tagged then some (beAt b 14 2 % 4096) else none
  let o := if tagged then 18 else 14
  let et := beAt b (o - 2) 2
  let mac := s.rd (F.NI_PMAC_LO_MAC n) + 2 ^ 32 * (s.rd (F.NI_PMAC_HI_MAC n) % 65536)
  let dstMac := beAt b 0 6
  let other := if dstMac = mac || bitAt (beAt b 0 1) 0 || s.on (F.NI_PCFG_PROMISC n) then FrameTo.host false else .gone
  if e0 = 0x88A8 || (tagged && (et = 0x8100 || et = 0x88A8)) then .host false
  else if et = 0x88F7 then .host (ptpEvent b o)
  else if et = 0x0800 then
    let hl := 4 * (beAt b o 1 % 16)
    let frag := beAt b (o + 6) 2 % 2 ^ 14
    let udp := beAt b (o + 9) 1 = 17
    let u := o + hl
    let ptp := udp && frag % 2 ^ 13 = 0 && (beAt b (u + 2) 2 = 319 || beAt b (u + 2) 2 = 320)
    let sumBad := inetSum (slice b o hl) ≠ 65535
    if sumBad && !ptp then .bad
    else if frag ≠ 0 then .host (ptp && beAt b (u + 2) 2 = 319 && ptpEvent b (u + 8))
    else if udp && !(udpOk b false u (slice b (o + 12) 8)) then .bad
    else if udp then classifyUdp s n b vid (0xFFFF * 2 ^ 32 + beAt b (o + 16) 4) u other
    else other
  else if et = 0x86DD then
    let nh := beAt b (o + 6) 1
    let u := o + 40
    if nh = 17 then
      if !(udpOk b true u (slice b (o + 8) 32)) then .bad
      else classifyUdp s n b vid (beAt b (o + 24) 16) u other
    else if extHeader nh then (match udpBehind 8 b nh u with
      | some v => .host (beAt b (v + 2) 2 = 319 && ptpEvent b (v + 8))
      | none => .host false)
    else other
  else other

/-! Host rings (R155, R156). -/

def hrSize (s : State) (tx : Bool) : Nat :=
  2 ^ clamp 6 12 (if tx then s.rd F.NI_HTX_CTL_LOG2SIZE else s.rd F.NI_HRX_CTL_LOG2SIZE)

/-- NI_HRX_READY and NI_HTX_DONE for completions not yet told, each at most once per MOD µs. -/
def niTell (s : State) : State :=
  let s1 := if s.ni.hrxDirty && s.mayReport 256 (s.rd F.NI_HRX_CTL_MOD * usPs) then
      ((raise s 256 (d2 0 0)).reported 256).modNi fun n => { n with hrxDirty := false } else s
  if s1.ni.htxDirty && s1.mayReport 259 (s1.rd F.NI_HTX_CTL_MOD * usPs) then
    ((raise s1 259 (d2 0 0)).reported 259).modNi fun n => { n with htxDirty := false } else s1

/-- The wall clock in 1/256 ns; a coach that follows its parent has whole nanoseconds (R92, R93). [log 39 DESIGN CHOICE] -/
def wallUnits (s : State) : Nat :=
  if s.rd F.WT_CTL_SRC = 1 then wallNs s * 256 else s.wt.ptp / 2 ^ 20

/-- A hardware timestamp, 64-bit nanoseconds and an 8-bit fraction, with a board delay of `adj` ps added (R92). [log 39 DESIGN CHOICE] -/
def stamp (s : State) (adj : Int) : List Byte := bytesLE 9 (swapFrac ((((wallUnits s : Nat) : Int) * 1000 + adj * 256) / 1000))
where
  /-- Nanoseconds in the low 64 bits, the fraction above them, as the descriptor stores them. -/
  swapFrac (v : Int) : Nat :=
    let u := (v % ((2 ^ 72 : Nat) : Int)).toNat
    u / 256 + u % 256 * 2 ^ 64

/-- A frame for the host receive ring (R155). -/
def hrxDeliver (s : State) (n : Nat) (b : List Byte) (ptp : Bool) : State :=
  let win := wallNs s / 1000000
  let used := if s.ni.limWin = win then s.ni.limBits else 0
  let ovr := decide (s.rd1 F.NI_HRX_CTL_LIMIT * 1000 < used + 8 * b.length)
  if ovr && !ptp then raiseLim s 258 msPs (d2 0 0)
  else
    let s0 := s.modNi fun x => { x with limWin := win, limBits := used + 8 * b.length }
    match s.on F.NI_HRX_CTL_EN, s.ni.hrx with
    | true, (addr, len) :: rest =>
      let head := s.rd F.NI_HRX_HEAD_HEAD
      let base := s.rd64 F.NI_HRX_BASE_LO_BASE F.NI_HRX_BASE_HI_BASE
      let flags := b2n ptp + 2 * b2n (beAt b 12 2 == 0x8100 || beAt b 12 2 == 0x88A8) + 4 * b2n (decide (len < b.length))
      let desc := bytesLE 8 addr ++ bytesLE 2 b.length ++ bytesLE 1 n ++ bytesLE 1 flags ++ bytesLE 4 0 ++
        stamp s (-(signed (s.rd (F.WT_PORT_ADJ_RX_ADJ n)) 16)) ++ bytesLE 6 0 ++ [0x80#8]
      let s1 := (s0.modNi fun x => { x with hrx := rest, hrxDirty := true }).wr F.NI_HRX_HEAD_HEAD ((head + 1) % hrSize s false)
      niTell { s1 with out := s1.out ++ [.hostWrite addr (b.take len), .hostWrite (base + 32 * head) desc] }
    | _, _ => raiseLim (s0.bump F.NI_HRX_HEAD_FULL_DROPS 1) 257 msPs (d2 0 0)

/-- A frame received on a port (R140, R141): its bytes with the FCS; `over`: a buffer or the merge had no room. -/
def niFrame (s : State) (n : Nat) (bytes : List Byte) (fcsOk ovr : Bool) (corr uncorr : Nat) : State :=
  if !(s.on (F.NI_PSTAT_LINK n)) then s else
  let s0 := (s.bump (F.NI_PFEC_CORR n) corr).bump (F.NI_PFEC_UNCORR n) uncorr
  let s1 := if uncorr = 0 then s0 else
    (if s0.mayReport (2000 + n) msPs then (raise s0 243 (d2 n 0 ++ bytesLE 2 uncorr)).reported (2000 + n) else s0)
  let b := bytes.take (bytes.length - 4)
  if !fcsOk || bytes.length < 64 || 9216 < bytes.length then s1.bump (F.NI_PERR_FCS_ERR n) 1
  else if ovr || beAt b 12 2 = 0x8808 then s1.bump (F.NI_PERR_DROP n) 1
  else
    let s2 := s1.bump (F.NI_PRX_RX_OK n) 1
    match classify s2 n b with
    | .host ptp => hrxDeliver s2 n b ptp
    | .flow f l p => flowPacket s2 f l p
    | .bad => s2.bump (F.NI_PERR_DROP n) 1
    | .gone => s2

/-- TAIL of the receive ring was written, with the descriptors posted (address, length). [log 71 DESIGN CHOICE] -/
def hrxPost (s : State) (descs : List (Nat × Nat)) : State :=
  let posted := (s.rd F.NI_HRX_TAIL_TAIL + hrSize s false - s.rd F.NI_HRX_HEAD_HEAD % hrSize s false) % hrSize s false
  s.modNi fun n => { n with hrx := (n.hrx ++ descs).take posted }

/-- Completes the head of the transmit ring with STATUS (R156). -/
def htxComplete (s : State) (d : List Byte) (status : Nat) : State :=
  let head := s.rd F.NI_HTX_HEAD_HEAD
  let base := s.rd64 F.NI_HTX_BASE_LO_BASE F.NI_HTX_BASE_HI_BASE
  let ts := bitAt (leAt d 11 1) 0 && status == 0
  let desc := slice d 0 16 ++ (if ts then stamp s (signed (s.rd (F.WT_PORT_ADJ_TX_ADJ (leAt d 10 1))) 16) else bytesLE 9 0) ++ bytesLE 1 status ++
    bytesLE 5 0 ++ [0x80#8]
  let s1 := (s.modNi fun x => { x with htx := x.htx.drop 1, htxDirty := true }).wr F.NI_HTX_HEAD_HEAD ((head + 1) % hrSize s true)
  niTell { s1 with out := s1.out ++ [.hostWrite (base + 32 * head) desc] }

/-- Heads that cannot be sent complete at once, in ring order (R156). -/
def htxRun : Nat → State → State
  | 0, s => s
  | n + 1, s =>
    match s.ni.htx with
    | [] => s
    | d :: _ =>
      let len := leAt d 8 2
      let port := leAt d 10 1
      if !(s.on F.NI_HTX_CTL_EN) then s
      else if len < 60 || 9212 < len || 3 < port then htxRun n (htxComplete s d 2)
      else if !(s.on (F.NI_PSTAT_LINK port)) then htxRun n (htxComplete s d 1)
      else s

/-- TAIL of the transmit ring was written, with the 32-byte descriptors posted. [log 71 DESIGN CHOICE] -/
def htxPost (s : State) (descs : List (List Byte)) : State :=
  let posted := (s.rd F.NI_HTX_TAIL_TAIL + hrSize s true - s.rd F.NI_HTX_HEAD_HEAD % hrSize s true) % hrSize s true
  htxRun 4096 (s.modNi fun n => { n with htx := (n.htx ++ descs).take posted })

/-- A byte with its bits reversed, and the FCS of IEEE 802.3. -/
def revByte (b : Byte) : Byte := BitVec.ofNat 8 (ofBits (msbBits b).reverse)
def ethFcs (b : List Byte) : List Byte := (bytesBE 4 ((crc32 (b.map revByte)) ^^^ 0xFFFFFFFF)).map revByte

/-- The head of the transmit ring has left its port (R156). -/
def htxSent (s : State) (bytes : List Byte) : State :=
  let s0 := htxRun 4096 s
  match s0.on F.NI_HTX_CTL_EN, s0.ni.htx with
  | true, d :: _ =>
    let b := slice bytes 0 (leAt d 8 2)
    htxRun 4096 (htxComplete { s0 with out := s0.out ++ [.ethFrame (leAt d 10 1) (b ++ ethFcs b)] } d 0)
  | _, _ => s0

end Sys2Proof.Machine
end

