-- ==== Sys2Proof/Machine/CmpOps.lean ====
section
/-! DEFINITION. Machine/CmpOps.lean: layers and their choice of buffers, the pixel path of R161, send windows, the mapper,
flips and seals, map loads, band CRCs and digests, the drawbar (chapters *Composition, mapping and ring timing* and, for the
sender's side, *Checking the picture*). -/
namespace Sys2Proof.Machine

def State.modCmp (s : State) (f : Cmp → Cmp) : State := { s with cmp := f s.cmp }
def State.layer (s : State) (r l : Nat) : CLayer := s.cmp.layers.get CLayer.init (r * 16 + l)
def State.setLayer (s : State) (r l : Nat) (x : CLayer) : State := s.modCmp fun c => { c with layers := c.layers.set CLayer.init (r * 16 + l) x }
def State.setWin (s : State) (r : Nat) (x : SendWin) : State := s.modCmp fun c => { c with win := c.win.set SendWin.init r x }

/-! The map (R174 to R176). -/

/-- An entry of a map table. -/
structure MapEntry where
  x : Nat
  y : Nat
  w : Nat
  h : Nat
  en : Bool
  chk : Bool
  rot : Nat
  mirror : Bool

def mapEntry (t : List Byte) (p : Nat) : MapEntry :=
  let o := (p - 1) * 16
  let f := leAt t (o + 8) 1
  let g := leAt t (o + 9) 1
  ⟨leAt t o 2, leAt t (o + 2) 2, leAt t (o + 4) 2, leAt t (o + 6) 2, bitAt f 0, bitAt f 1, g % 4, bitAt g 2⟩

def State.map (s : State) (r : Nat) : List Byte := s.cmp.maps.get [] r
def positions : List Nat := (List.range 62).map (· + 1)
def enabledPos (t : List Byte) : List Nat := positions.filter fun p => (mapEntry t p).en
/-- Carriage lines and pixels a line of an entry (R175). -/
def MapEntry.lines (e : MapEntry) : Nat := if e.rot % 2 = 0 then e.h else e.w
def MapEntry.width (e : MapEntry) : Nat := if e.rot % 2 = 0 then e.w else e.h
/-- The wall pixel of carriage pixel `c` of line `l` (R175). -/
def MapEntry.wall (e : MapEntry) (c0 l : Nat) : Nat × Nat :=
  let c := if e.mirror then e.width - 1 - c0 else c0
  match e.rot with
  | 0 => (e.x + c, e.y + l)
  | 1 => (e.x + e.w - 1 - l, e.y + c)
  | 2 => (e.x + e.w - 1 - c, e.y + e.h - 1 - l)
  | _ => (e.x + l, e.y + e.h - 1 - c)

/-- The FMT of a ring (a reserved code acts as 01b), its component width and SEGMAX (R176). -/
def ringFmt (s : State) (r : Nat) : Nat := if s.rd (F.CMP_RCFG_FMT r) = 3 then 1 else s.rd (F.CMP_RCFG_FMT r)
def compBits (fmt : Nat) : Nat := match fmt with | 0 => 10 | 1 => 12 | _ => 16
def segMax (fmt : Nat) : Nat := match fmt with | 0 => 2048 | 1 => 1792 | _ => 1280
def segBlocks (fmt n : Nat) : Nat := ceilDiv (n * 3 * compBits fmt) 64
/-- PIXEL data blocks of a frame, segments of a frame with check-value packets, pixels of a frame. -/
def mapBlocks (t : List Byte) (fmt : Nat) : Nat :=
  (enabledPos t).foldl (fun n p =>
    let e := mapEntry t p
    n + e.lines * (e.width / segMax fmt * segBlocks fmt (segMax fmt) + segBlocks fmt (e.width % segMax fmt))) 0
def mapSegs (t : List Byte) (fmt : Nat) : Nat :=
  (enabledPos t).foldl (fun n p => let e := mapEntry t p; n + e.lines * ceilDiv e.width (segMax fmt) + b2n e.chk) 0
def mapPixels (t : List Byte) : Nat := (enabledPos t).foldl (fun n p => let e := mapEntry t p; n + e.w * e.h) 0

/-- The shortest frame of a rate in ns (R95, R178). -/
def shortNs (code : Nat) : Nat := match rateFrac code with | some (a, b) => b * 1000000000 / a | none => 1

/-- Check 03h: the PIXEL data blocks of a frame fit its window (R178). -/
def mapFits (s : State) (r : Nat) (t : List Byte) : Bool :=
  decide (mapBlocks t (ringFmt s r) * 10000 * ringBlockPs s r ≤ pixelShare s * (shortNs (s.gen r).rate - guardNs s) * 1000)

/-- The composition rate as a fraction in px/ns: sum over enabled rings, ring `r` with table `t` (R178). -/
def engineLoad (s : State) (r : Nat) (t : List Byte) : Nat × Nat :=
  ((List.range 8).filter fun n => s.on (F.CMP_RCFG_EN n)).foldl (fun a n =>
    let px := mapPixels (if n = r then t else s.map n)
    let ns := zeroAs1 (shortNs (s.gen n).rate - guardNs s)
    (a.1 * ns + px * a.2, a.2 * ns)) (0, 1)

def engineFits (s : State) (r : Nat) (t : List Byte) : Bool :=
  let l := engineLoad s r t
  decide (l.1 * 10 ≤ 32 * l.2)

/-- CMP_STAT.USED in Mpx/s. -/
def showUsed (s : State) : State :=
  let l := engineLoad s 8 []
  s.wr F.CMP_STAT_USED (min 3200 (l.1 * 1000 / l.2))

/-- The check 01h of R178: reserved bytes and bits 0, enabled entries within R174. -/
def mapFieldsOk (t : List Byte) : Bool :=
  positions.all fun p =>
    let o := (p - 1) * 16
    let e := mapEntry t p
    decide (leAt t (o + 8) 1 < 4) && decide (leAt t (o + 9) 1 < 8) && leAt t (o + 10) 6 == 0 &&
    (!e.en || (decide (1 ≤ e.w) && decide (e.w ≤ 4096) && decide (1 ≤ e.h) && decide (e.h ≤ 4096) && decide (e.w * e.h ≤ 262144) && decide (e.lines ≤ 4095)))

/-- The first failed check of R178. -/
def mapCheck (s : State) (r : Nat) (t : List Byte) : Nat :=
  if !(mapFieldsOk t) then 1
  else if !(s.on (F.CMP_RCFG_EN r)) || (ringEnds s r).isEmpty then 2
  else if !(mapFits s r t) then 3
  else if !(engineFits s r t) then 4 else 0

/-- A change of GUARD, of a ring's rate or of EN re-runs checks 03h and 04h over every ring (R178). -/
def recheckMaps (s : State) : State :=
  let one := fun (s : State) (r : Nat) =>
    if !(s.on (F.CMP_RCFG_EN r)) || (s.map r).isEmpty then s
    else if !(mapFits s r (s.map r)) then raise s 286 (d2 r 3)
    else if !(engineFits s r (s.map r)) then raise s 286 (d2 r 4) else s
  showUsed (forIdx 8 s one)

/-! Sources of a layer. -/

def gfmtBytes (g : Nat) : Nat := if g = 2 then 8 else 4

/-- The source extent of a layer (R158). -/
def extent (s : State) (r l : Nat) : Nat × Nat :=
  match lcfgKind s r l, layerFlow s r l with
  | 0, some f => (flowW s f, flowH s f)
  | 1, some f => (2 * flowW s f, 2 * flowH s f)
  | 2, _ => (s.rd (F.CMP_LCROP_XW r l) + s.rd (F.CMP_LCSZ_XW r l), s.rd (F.CMP_LCROP_YH r l) + s.rd (F.CMP_LCSZ_YH r l))
  | 3, _ => (s.rd F.CMP_DBCFG_DB_W, s.rd F.CMP_DBCFG_DB_H)
  | _, _ => (0, 0)

def ratioBad (c d : Nat) : Bool := d == 0 || decide (32 * c < d) || decide (4 * d < c)
def lrec (s : State) (r l : Nat) : Nat := s.rd64 (F.CMP_LREC_LO_REC r l) (F.CMP_LREC_HI_REC r l)
def rrec (s : State) (r : Nat) : Nat := s.rd64 (F.CMP_RREC_LO_REC r) (F.CMP_RREC_HI_REC r)
def pitchOf (s : State) (r l : Nat) : Nat := s.rd (F.CMP_LPITCH_PITCH r l) * 64

/-- The code of R159 that a layer meets at a takeover; 0 where it is usable. [log 79 DEDUCED] -/
def layerCode (s : State) (r l : Nat) : Nat :=
  let cw := s.rd (F.CMP_LCSZ_XW r l)
  let ch := s.rd (F.CMP_LCSZ_YH r l)
  let e := extent s r l
  if !(s.on (F.CMP_LCFG_EN r l)) then 0
  else if anyIdx l fun m => s.on (F.CMP_LCFG_EN r m) && s.rd (F.CMP_LCFG_Z r m) == s.rd (F.CMP_LCFG_Z r l) then 1
  else if cw = 0 || ch = 0 then 3
  else if ratioBad cw (s.rd (F.CMP_LDSZ_XW r l)) || ratioBad ch (s.rd (F.CMP_LDSZ_YH r l)) then 2
  else if e.1 < s.rd (F.CMP_LCROP_XW r l) + cw || e.2 < s.rd (F.CMP_LCROP_YH r l) + ch then 3
  else if lrec s r l % 4096 ≠ 0 || !(installedRange s (lrec s r l) 12288) || (s.layer r l).retry then 4
  else if lcfgKind s r l = 2 && (s.rd (F.CMP_LCFG_GFMT r l) = 3 || pitchOf s r l < cw * gfmtBytes (s.rd (F.CMP_LCFG_GFMT r l))) then 5
  else 0

/-- A layer's usability as its ring judges it; a bad layer is reported where its own registers were taken over (`own`) or its code
changed (R159). [log 79 DEDUCED] -/
def judgeLayer (s : State) (r l : Nat) (own : Bool) : State :=
  let c := layerCode s r l
  let s1 := s.wr (F.CMP_LSTAT_BAD r l) c
  if c ≠ 0 && (own || c ≠ s.rd (F.CMP_LSTAT_BAD r l)) then raise s1 282 (d2 r l ++ bytesLE 1 c) else s1

/-- A register of layer `l` of ring `r` was taken over; a new record address is read afresh (R159, R160). -/
def markTaken (s : State) (r l : Nat) (record : Bool) : State :=
  let s1 := if record then s.setLayer r l { s.layer r l with due := true, retry := false } else s
  s1.modCmp fun c => { c with taken := (r * 16 + l) :: c.taken }

/-- Ends a takeover: every layer of a ring that took over a layer's registers is judged, with all their new values (R159). [log 79 DEDUCED] -/
def judgeTaken (s : State) : State :=
  let t := s.cmp.taken
  forIdx 8 (s.modCmp fun c => { c with taken := [] }) fun s r =>
    if t.any (fun e => e / 16 == r) then forIdx 16 s fun s l => judgeLayer s r l (t.contains (r * 16 + l)) else s

/-- The copy of a layer's record shows an uncorrectable error: it is read again at the next fence, the layer is transparent until then (R160). [log 78 DEDUCED] -/
def recordBad (s : State) (r l : Nat) : State :=
  let s1 := s.setLayer r l { s.layer r l with due := false, retry := true }
  let bad := s1.rd (F.CMP_LSTAT_BAD r l)
  if s1.on (F.CMP_LCFG_EN r l) && (bad == 0 || bad == 4) then raise (s1.wr (F.CMP_LSTAT_BAD r l) 4) 282 (d2 r l ++ bytesLE 1 4) else s1

/-- The read of a layer's record ends, or (`ue`, with no read under way) its copy meets an uncorrectable error (R160). -/
def layerRead (s : State) (r l : Nat) (ue : Bool) : State :=
  let x := s.layer r l
  if !x.due then (if ue then recordBad s r l else s)
  else
    let d := dramFetch s (lrec s r l) 12288
    let s1 := d.1.setLayer r l { x with due := false, copy := d.2.1 }
    if ue || !d.2.2 then recordBad s1 r l
    else if x.retry then judgeLayer (s1.setLayer r l { s1.layer r l with retry := false }) r l false
    else s1

/-- The same of a ring's record: an uncorrectable copy is read again at the next fence (R160). [log 78 DEDUCED] -/
def ringRead (s : State) (r : Nat) (ue : Bool) : State :=
  let again := fun (s : State) => s.modCmp fun c => { c with ringRetry := c.ringRetry ||| 2 ^ r }
  if !(s.cmp.ringDue.testBit r) then (if ue then again s else s)
  else
    let d := dramFetch s (rrec s r) 36864
    let s1 := d.1.modCmp fun c => { c with ringRec := c.ringRec.set [] r d.2.1, ringDue := c.ringDue ^^^ 2 ^ r }
    if ue || !d.2.2 then again s1 else s1

/-- The records whose copies were uncorrectable are read again from the fence of ring `r` (R160). -/
def retryRecords (s : State) (r : Nat) : State :=
  let s1 := if s.cmp.ringRetry.testBit r then
      s.modCmp fun c => { c with ringDue := c.ringDue ||| 2 ^ r, ringRetry := c.ringRetry ^^^ 2 ^ r } else s
  forIdx 16 s1 fun s l => let x := s.layer r l; if x.retry then s.setLayer r l { x with due := true } else s

/-- A record read of a layer or of the ring ends (R160). -/
def recordRead (s : State) (r : Nat) (layer : Option Nat) (ue : Bool) : State :=
  match layer with
  | none => ringRead s r ue
  | some l => layerRead s r l ue

/-! The pixel path (R161, R162). -/

/-- A `w`-bit component expanded to u0.16 by replicating its top bits. -/
def expand16 (w v : Nat) : Nat :=
  match w with
  | 2 => v * 0x5555
  | 16 => v
  | 8 => v * 257
  | 10 => v * 64 + v / 16
  | _ => v * 16 + v / 256

/-- `w` bits at bit `o` of a byte string, most significant bit first. -/
def bitsAt (b : List Byte) (o w : Nat) : Nat :=
  let n := (o % 8 + w + 7) / 8
  beAt b (o / 8) n / 2 ^ (8 * n - o % 8 - w) % 2 ^ w

def clip16 (x : Int) : Int := clampI 0 65535 x

/-- Components (0 to 2) of pixel `c` of a stored video line, u0.16, with 4:2:2 chroma interpolated (stage 1). [log 77 PRESUMED] -/
def videoPixel (s : State) (f addr width c : Nat) : List Int :=
  let d := 8 + 2 * s.rd (F.NI_FFMT_DEPTH f)
  let pg := flowPg s f
  let get := fun px k => -- component k of the pgroup of pixel px, counted in stored order
    let b := dramRead s (addr + px / pg.1 * pg.2) pg.2
    (expand16 d (bitsAt b (k * d) d) : Int)
  if s.rd (F.NI_FFMT_SAMP f) = 0 then
    let j := c / 2
    let last := width / 2 - 1
    let ch := fun (k : Nat) (i : Int) => get ((clampI 0 last i).toNat * 2) k
    let at_ := fun (k : Nat) =>
      if c % 2 = 0 then ch k j
      else clip16 ((9 * ch k j + 9 * ch k (j + 1) - ch k (j - 1) - ch k (j + 2) + 8) / 16)
    [get (2 * j) (1 + 2 * (c % 2)), at_ 0, at_ 2]
  else
    let o := 3 * (c % pg.1)
    if s.rd (F.NI_FFMT_SAMP f) = 1 then [get c (o + 1), get c o, get c (o + 2)] else [get c o, get c (o + 1), get c (o + 2)]

/-- Components and alpha of a graphics pixel (R165). -/
def gfxPixel (s : State) (g addr : Nat) : List Int × Int :=
  let b := dramRead s addr (gfmtBytes g)
  let w := leAt b 0 4
  match g with
  | 0 => ([expand16 8 (leAt b 2 1), expand16 8 (leAt b 1 1), expand16 8 (leAt b 0 1)], expand16 8 (leAt b 3 1))
  | 1 => ([expand16 10 (w % 1024), expand16 10 (w / 1024 % 1024), expand16 10 (w / 2 ^ 20 % 1024)], expand16 2 (w / 2 ^ 30))
  | _ => ([leAt b 0 2, leAt b 2 2, leAt b 4 2], leAt b 6 2)

/-- A drawbar pixel of a frame's buffer: three 16-bit little-endian values in that frame's FMT (R169). -/
def dbPixel (s : State) (buf fmt x y : Nat) : List Int :=
  let w := s.rd F.CMP_DBCFG_DB_W
  let size := ceilDiv (w * s.rd F.CMP_DBCFG_DB_H * 6) 4096 * 4096
  let b := dramRead s (s.rd64 F.CMP_DBBASE_LO_BASE F.CMP_DBBASE_HI_BASE + buf * size + (y * w + x) * 6) 6
  [0, 2, 4].map fun i => (expand16 (compBits fmt) (leAt b i 2) : Int)

/-- The drawbar frame a window of flip `t` shows, its buffer and FMT: the newest whose parent fence is not later (R169). -/
def dbFrame (s : State) (t : Nat) : Option (Nat × Nat) :=
  ((s.cmp.db.shown.filter fun e => decide (e.2.2.1 ≤ t)).reverse.head?).map fun e => (e.2.1, e.2.2.2)

/-- Stored pixel (column, row of the crop) of a layer: components and alpha, u0.16 (stage 1). -/
def layerPixel (s : State) (r l frame col row : Nat) : List Int × Int :=
  let x := s.rd (F.CMP_LCROP_XW r l) + col
  let y := s.rd (F.CMP_LCROP_YH r l) + row
  let k := s.rd (F.CMP_LSTAT_VBUF r l)
  match lcfgKind s r l, layerFlow s r l with
  | 2, _ =>
    let g := s.rd (F.CMP_LCFG_GFMT r l)
    gfxPixel s g (((s.layer r l).gbuf.getD 0) + row * pitchOf s r l + col * gfmtBytes g)
  | 3, _ => let d := (dbFrame s (flipOf (s.gen r).rate frame)).getD (0, 0); (dbPixel s d.1 d.2 x y, 65535)
  | 0, some f => (videoPixel s f (lineAddr s f k y) (flowW s f) x, 65535)
  | _, some f => (videoPixel s f (bufBase s f + k * bufSize s f + y * strideOf s f) (extent s r l).1 x, 65535)
  | _, none => ([0, 0, 0], 0)

/-- A signed little-endian field of a record. -/
def recS (b : List Byte) (o w : Nat) : Int := signed (leAt b o 2) w

/-- Stage 2: the matrix A with OFS. -/
def csc (b : List Byte) (v : List Int) : List Int :=
  [0, 1, 2].map fun i => clip16 (([0, 1, 2].foldl (fun a j => a + recS b (0x08 + 2 * (3 * i + j)) 16 * (v.getD j 0 + recS b (2 * j) 16)) 0 + 4096) / 8192)

/-- Step, first source index and phase of a destination pixel (R162). -/
def scalePos (ph0 : Int) (sc sd i : Nat) : Int × Nat :=
  let step := sc * 65536 / sd
  let p : Int := ph0 + (i * step : Nat) + ((step : Int) - 65536) / 2
  (p / 65536, ((p / 1024) % 64).toNat)

/-- An eight-tap filter: coefficients at offset `o` of the record, phase `ph`, source `src` (R162). -/
def taps (b : List Byte) (o ph : Nat) (n : Int) (sc : Nat) (src : Nat → Int) : Int :=
  clip16 (((List.range 8).foldl (fun a k => a + recS b (o + ph * 16 + k * 2) 12 * src (clampI 0 ((sc : Int) - 1) (n - 3 + k)).toNat) 0 + 512) / 1024)

/-- Stages 1 to 3 of destination pixel (i, j) of a layer: four u0.16 values, alpha last. -/
def scaled (s : State) (r l frame i j : Nat) : List Int :=
  let b := (s.layer r l).copy
  let cw := s.rd (F.CMP_LCSZ_XW r l)
  let ch := s.rd (F.CMP_LCSZ_YH r l)
  let h := scalePos (signed (leAt b 0x34 4) 32) cw (s.rd (F.CMP_LDSZ_XW r l)) i
  let v := scalePos (signed (leAt b 0x38 4) 32) ch (s.rd (F.CMP_LDSZ_YH r l)) j
  let px := fun col row => let q := layerPixel s r l frame col row; csc b q.1 ++ [q.2]
  [0, 1, 2, 3].map fun c => taps b 0x2600 v.2 v.1 ch fun row => taps b 0x2200 h.2 h.1 cw fun col => (px col row).getD c 0

/-- Stage 4: the LUT of a layer record, component `c`. -/
def linearise (b : List Byte) (c : Nat) (x : Int) : Int :=
  let i := x.toNat / 64
  let f := x % 64
  let e := fun i => (leAt b (0x100 + 8 * i) 8 / 2 ^ (20 * c) % 2 ^ 20 : Nat)
  (e i : Int) + (((e (i + 1) : Int) - e i) * f + 32) / 64

/-- Stage 5: the matrix B. -/
def primaries (b : List Byte) (y : List Int) : List Int :=
  [0, 1, 2].map fun i => clampI 0 (2 ^ 20 - 1) (([0, 1, 2].foldl (fun a j => a + recS b (0x20 + 2 * (3 * i + j)) 16 * y.getD j 0) 0 + 4096) / 8192)

/-- Stage 6 of one layer over `c`. -/
def blendOver (s : State) (r l frame x y : Nat) (c : List Int) : List Int :=
  let q := scaled s r l frame (x - s.rd (F.CMP_LDST_XW r l)) (y - s.rd (F.CMP_LDST_YH r l))
  let b := (s.layer r l).copy
  let w := primaries b ([0, 1, 2].map fun i => linearise b i (q.getD i 0))
  let ap := (q.getD 3 0 * 1024 + 32767) / 65536
  let g := s.rd (F.CMP_LCFG_GALPHA r l)
  let a := (ap * (g + g / 512 : Nat) + 512) / 1024
  [0, 1, 2].map fun i => (w.getD i 0 * a + c.getD i 0 * (1024 - a) + 512) / 1024

/-- The background of a ring, u0.20. -/
def background (s : State) (r : Nat) : List Int :=
  [s.rd (F.CMP_RBG_R r), s.rd (F.CMP_RBG_G r), s.rd (F.CMP_RBG_B r)].map fun v => ((v * 1024 + v : Nat) : Int)

/-- A layer covers a wall pixel (R158). -/
def covers (s : State) (r l x y : Nat) : Bool :=
  decide (s.rd (F.CMP_LDST_XW r l) ≤ x) && decide (x < s.rd (F.CMP_LDST_XW r l) + s.rd (F.CMP_LDSZ_XW r l)) &&
  decide (s.rd (F.CMP_LDST_YH r l) ≤ y) && decide (y < s.rd (F.CMP_LDST_YH r l) + s.rd (F.CMP_LDSZ_YH r l))

/-- A layer in use and usable (R159). -/
def layerUsable (s : State) (r l : Nat) : Bool := s.on (F.CMP_LCFG_EN r l) && s.rd (F.CMP_LSTAT_BAD r l) == 0

/-- The layer with Z = `z` that is drawn in the open window at wall pixel (x, y). -/
def layerAtZ (s : State) (r z x y : Nat) : Option Nat :=
  firstIdx 16 fun l => layerUsable s r l && s.rd (F.CMP_LCFG_Z r l) == z && !(s.layer r l).blank && covers s r l x y

/-- Stages 7 and 8 of one component. -/
def encodePx (s : State) (r : Nat) (v : List Int) : List Nat :=
  let b := s.cmp.ringRec.get [] r
  let d := compBits (ringFmt s r)
  [0, 1, 2].map fun c =>
    let x := (v.getD c 0).toNat
    let i := x / 256
    let e := fun i => (leAt b (8 * i + 2 * c) 2 : Int)
    let o := (e i + ((e (i + 1) - e i) * ((x % 256 : Nat) : Int) + 128) / 256).toNat
    if d = 16 then o % 65536 else min (2 ^ d - 1) ((o + 2 ^ (15 - d)) / 2 ^ (16 - d))

/-- The pixel of a ring at wall coordinates (R159, R161). -/
def wallPixel (s : State) (r frame x y : Nat) : List Nat :=
  encodePx s r ((List.range 16).foldl (fun c z => match layerAtZ s r z x y with | some l => blendOver s r l frame x y c | none => c) (background s r))

/-! Windows and the mapper. -/

/-- The band of a line (R260). -/
def bandOf (lines l : Nat) : Nat := ((List.range 8).filter fun b => decide (b * lines / 8 ≤ l)).foldl max 0

/-- The stale condition of a video layer and what it then shows; reports its entry (R167). -/
def staleLayer (s : State) (r l f flip : Nat) (have_ : Bool) (media : Nat) : State :=
  let st := s.rd (F.NI_FSTAT_STATE f)
  let off := st == 0 || st == 3
  let max_ := s.rd1 F.CMP_CTL_STALE_MAX * 1000000
  let stale := off || (have_ && decide (media + max_ < flip))
  let x := s.layer r l
  let s1 := s.setLayer r l { x with blank := !have_ || (stale && s.on (F.CMP_LCFG_STALE_ACT r l)) }
  let s2 := if stale then s1.bump (F.CMP_LCNT_STALE r l) 1 else s1
  let s3 := s2.wr (F.CMP_LSTAT_STALE r l) (b2n stale)
  if stale && !(s.on (F.CMP_LSTAT_STALE r l)) then
    raise s3 284 (d2 r l ++ bytesLE 4 (if have_ then (flip - media) / 1000000 else 0xFFFFFFFF))
  else s3

/-- A layer takes buffer `k` of flow `f` with its media time. -/
def holdBuf (s : State) (r l f k media : Nat) : State :=
  let x := s.layer r l
  (((s.setLayer r l { x with heldFlow := f + 1 }).wr (F.CMP_LSTAT_VBUF r l) k).wr (F.CMP_LSTAT_HELD r l) 1).wr64
    (F.CMP_LMEDIA_LO_MEDIA r l) (F.CMP_LMEDIA_HI_MEDIA r l) media

def heldMedia (s : State) (r l : Nat) : Nat := s.rd64 (F.CMP_LMEDIA_LO_MEDIA r l) (F.CMP_LMEDIA_HI_MEDIA r l)
def holdsFlow (s : State) (r l f : Nat) : Bool := s.on (F.CMP_LSTAT_HELD r l) && (s.layer r l).heldFlow == f + 1
def pubMedia (s : State) (f : Nat) : Nat := s.rd64 (F.NI_FMEDIA_LO_MEDIA f) (F.NI_FMEDIA_HI_MEDIA f)

/-- The standby takes the buffer the active chose; media time 0 reports that the active has none to show (R168). [log 81 DEDUCED] -/
def takeSample (s : State) (r l f frame media : Nat) : State :=
  let flip := flipOf (s.gen r).rate frame
  let x := s.layer r l
  let s0 := (s.setLayer r l { x with waits := false }).modCmp fun c => { c with samples := c.samples.filter fun e => !(e.1 == r && e.2.1 == l && frameLe e.2.2.1 frame) }
  let s1 :=
    if media = 0 || (holdsFlow s r l f && heldMedia s r l = media) then s0
    else if s.on (F.NI_FSTAT_PUB_VALID f) && pubMedia s f = media then holdBuf s0 r l f (s.rd (F.NI_FSTAT_PUB f)) media
    else match (s.flow f).prev with
      | some (k, m) => if m = media then holdBuf s0 r l f k m else raise s0 285 (d2 r l ++ bytesLE 6 0 ++ bytesLE 8 media)
      | none => raise s0 285 (d2 r l ++ bytesLE 6 0 ++ bytesLE 8 media)
  staleLayer s1 r l f flip (media != 0 && holdsFlow s1 r l f) (heldMedia s1 r l)

/-- The choice of a video layer's buffer as the window of `frame` opens (R167, R168). [log 81 DEDUCED] -/
def chooseLayer (s : State) (r l f frame : Nat) : State :=
  let flip := flipOf (s.gen r).rate frame
  if mirrorUp s && !(isActive s) then
    match s.cmp.samples.find? fun e => e.1 == r && e.2.1 == l && e.2.2.1 == frame with
    | some e => takeSample s r l f frame e.2.2.2
    | none => s.setLayer r l { s.layer r l with waits := true }
  else
    let held := holdsFlow s r l f
    let pub := s.on (F.NI_FSTAT_PUB_VALID f)
    let m := pubMedia s f
    let take := pub && decide (m ≤ flip) && (!held || decide (heldMedia s r l < m))
    let s1 := if take then holdBuf s r l f (s.rd (F.NI_FSTAT_PUB f)) m else s
    let s2 := staleLayer s1 r l f flip (holdsFlow s1 r l f) (heldMedia s1 r l)
    if mirrorUp s2 then mirrorSend s2 true 9 0 [r, l, frame, if holdsFlow s2 r l f then heldMedia s2 r l else 0] else s2

/-- A SAMPLE item: taken at once where the open window waits for it, else kept (R168). [log 81 DEDUCED] -/
def sampleAccept (s : State) (r l frame media : Nat) : State :=
  let w := s.win r
  match layerFlow s r l with
  | some f => if (s.layer r l).waits && w.isOpen && w.frame = frame then takeSample s r l f frame media
    else s.modCmp fun c => { c with samples := c.samples ++ [(r, l, frame, media)] }
  | none => s

/-- A layer of an opening window. -/
def openLayer (s : State) (r frame l : Nat) : State :=
  if !(s.on (F.CMP_LCFG_EN r l)) then s
  else
    let x := s.layer r l
    match lcfgKind s r l, layerFlow s r l with
    | 2, _ => s.setLayer r l { x with blank := x.gbuf.isNone || x.sealBad }
    | 3, _ => s.setLayer r l { x with blank := !(s.on F.CMP_DBCFG_EN) || (dbFrame s (flipOf (s.gen r).rate frame)).isNone }
    | _, some f => chooseLayer s r l f frame
    | _, none => s.setLayer r l { x with blank := true }

/-- The seal check of a sealed graphics layer begins, the window that read it having closed (R173). [log 148 DEDUCED] -/
def startSeal (r frame : Nat) (s : State) (l : Nat) : State :=
  let x := s.layer r l
  match x.gbuf, x.rect with
  | some b, some q =>
    if layerUsable s r l && lcfgKind s r l = 2 && !x.blank && !x.due then
      let bpp := gfmtBytes (s.rd (F.CMP_LCFG_GFMT r l))
      s.modCmp fun c => { c with seals := c.seals ++ [⟨r, l, frame, b, b + q.y * pitchOf s r l + q.x * bpp, pitchOf s r l, q.w * bpp, q.h, q.crc⟩] }
    else s
  | _, _ => s

/-- The status of a flip that has ended (R172). -/
def postFlip (s : State) (f : Flip) (status : Nat) : State :=
  match f.job.bind s.job with
  | none => s
  | some j => finishWith s j { j.record status with frame := f.frame, late := f.late, result := bytesLE 2 f.fails }

/-- Whether a replaced buffer has retired: no layer of any ring still reads it and no check of it runs (R172). -/
def retired (s : State) (b : Nat) : Bool :=
  !(s.cmp.seals.any fun q => q.buf == b) &&
  !(anyIdx 8 fun r => s.on (F.CMP_RCFG_EN r) && anyIdx 16 fun l =>
    s.on (F.CMP_LCFG_EN r l) && lcfgKind s r l == 2 && (s.layer r l).gbuf == some b)

/-- Flips that have applied everywhere and whose replaced buffers have retired complete (R172). -/
def flipsSweep (s : State) : State :=
  let done := s.cmp.flips.filter fun f => f.rings.isEmpty && f.applied.all fun a => a.2.all (retired s)
  let s1 := s.modCmp fun c => { c with flips := c.flips.filter fun f => !(done.contains f) }
  done.foldl (fun s f => postFlip s f 0) s1

/-- CMP_LSTAT.FLIP_PEND and CMP_RSTAT.MAP_PEND show what has been accepted and waits for its frame. -/
def showFlipPend (s : State) (r l : Nat) : State :=
  s.wr (F.CMP_LSTAT_FLIP_PEND r l) (b2n (s.cmp.flips.any fun f => f.acked && f.layer == l && f.rings.any fun e => e.1 == r))
def showMapPend (s : State) (r : Nat) : State :=
  s.wr (F.CMP_RSTAT_MAP_PEND r) (b2n (s.cmp.loads.any fun q => q.acked && q.ring == r))

/-- Flips whose frame a window of ring `r` reaches apply (R170). [log 80 DEDUCED] -/
def applyFlips (s : State) (r frame : Nat) : State :=
  let due := s.cmp.flips.filter fun f => f.rings.any fun e => e.1 == r && frameLe e.2 frame
  due.foldl (fun s f =>
    if !f.acked then
      postFlip (showFlipPend (s.modCmp fun c => { c with flips := c.flips.filter (· != f) }) r f.layer) f 2
    else
      let x := s.layer r f.layer
      let old := if x.gbuf = some f.buf then none else x.gbuf
      let g := { f with rings := f.rings.filter fun e => e.1 != r, applied := f.applied ++ [(r, old)], fails := f.fails + x.fails }
      let s1 := (s.setLayer r f.layer { x with gbuf := some f.buf, rect := f.rect, sealBad := false, fails := 0 }).wr64 (F.CMP_LBUF_LO_BUF r f.layer) (F.CMP_LBUF_HI_BUF r f.layer) f.buf
      showFlipPend (s1.modCmp fun c => { c with flips := c.flips.map fun h => if h = f then g else h }) r f.layer) s

/-- Map loads whose frame a window of ring `r` reaches apply (R178). [log 80 DEDUCED] -/
def applyLoads (s : State) (r frame : Nat) : State :=
  let due := s.cmp.loads.filter fun m => m.ring == r && frameLe m.frame frame
  due.foldl (fun s m =>
    let s0 := s.modCmp fun c => { c with loads := c.loads.filter (· != m) }
    let post := fun (s : State) st => match m.job.bind s.job with
      | none => s
      | some j => finishWith s j { j.record st with frame := m.frame, late := m.late }
    if !m.acked then post (showMapPend s0 r) 0x83
    else post (showUsed ((showMapPend (s0.modCmp fun c => { c with maps := c.maps.set [] r m.table }) r).wr (F.CMP_RSTAT_MAPPED r) (enabledPos m.table).length)) 0) s

/-- The check-value body of a position (R262). -/
def bandBody (w : SendWin) (p : Nat) : List Byte := (List.range 8).flatMap fun b => bytesBE 4 (w.bands.get 0xFFFFFFFF (p * 8 + b))

/-- The digest of a ring's frame (R268). -/
def ringDigest (s : State) (r : Nat) : Nat := crc32 ((enabledPos (s.map r)).flatMap (bandBody (s.win r)))

/-- The window of ring `r` closes: unsent segments are dropped, the seal checks begin, the digest is formed (R173, R179, R180, R268). -/
def windowClose (s : State) (r : Nat) : State :=
  let w := s.win r
  if !w.isOpen then s else
  let sent := w.seq.foldl (fun n e => n + e.2) 0
  let unsent := mapSegs (s.map r) (ringFmt s r) - sent
  let s1 := forIdx 16 (s.setWin r { w with isOpen := false }) (startSeal r w.frame)
  let s2 := if unsent = 0 then s1 else
    raise (s1.bump (F.CMP_RSTAT_UNDERRUNS r) 1) 280 (d2 r 0 ++ bytesLE 6 w.frame ++ bytesLE 2 unsent)
  let s3 := if w.residue = 0 then s2 else raise s2 281 (d2 r 0 ++ bytesLE 2 w.residue)
  if mirrorUp s3 && s3.on F.CHK_CTL_PAIR_EN then
    let d := ringDigest s r
    mirrorSend (s3.modCmp fun c => { c with digests := c.digests ++ [(r, w.frame, d)] }) true 10 0 [r, w.frame, d]
  else s3

/-- The window of frame `f + 1` of ring `r` opens at the fence of `f` (R166). -/
def windowOpen (s : State) (r f : Nat) : State :=
  let s0 := windowClose s r
  if !(s.on (F.CMP_RCFG_EN r)) then flipsSweep s0
  else
    let n := (f + 1) % 2 ^ 48
    let s2 := applyLoads (applyFlips (retryRecords s0 r) r n) r n
    let s3 := forIdx 16 s2 fun s l => openLayer s r n l
    flipsSweep (s3.setWin r { SendWin.init with isOpen := true, frame := n })

/-- The next segment of a window: round, position, pixel, whether it is a check-value packet. -/
def seekSeg (t : List Byte) (fmt : Nat) : Nat → SendWin → Option SendWin
  | 0, _ => none
  | n + 1, w =>
    let ps := (enabledPos t).filter fun p => !(w.dead.contains p)
    let top := ps.foldl (fun m p => max m (mapEntry t p).lines) 0
    let e := mapEntry t (w.pos + 1)
    if w.checks then
      if 62 ≤ w.pos then none
      else if e.en && e.chk && !(w.dead.contains (w.pos + 1)) then some w else seekSeg t fmt n { w with pos := w.pos + 1 }
    else if top ≤ w.round then seekSeg t fmt n { w with checks := true, pos := 0, x := 0 }
    else if 62 ≤ w.pos then seekSeg t fmt n { w with pos := 0, x := 0, round := w.round + 1 }
    else if e.en && decide (w.round < e.lines) && decide (w.x < e.width) && !(w.dead.contains (w.pos + 1)) then some w
    else seekSeg t fmt n { w with pos := w.pos + 1, x := 0 }

/-- Replaces the pixels whose residue failed by the previous output pixel of the segment, or by the background (R180). -/
def substitute (faults : List Nat) (bg : List Nat) : Nat → List Nat → List (List Nat) → List (List Nat)
  | _, _, [] => []
  | i, prev, p :: ps =>
    let q := if faults.contains i then (if i = 0 then bg else prev) else p
    q :: substitute faults bg (i + 1) q ps

/-- A PIXEL packet's data (R68 layout of PIXEL, R176). -/
def pixelData (frame seq line x count fmt flags : Nat) (body : List Byte) : List Byte :=
  bytesBE 6 frame ++ bytesBE 2 seq ++ bytesBE 2 line ++ bytesBE 2 x ++ bytesBE 2 count ++ bytesBE 1 fmt ++ bytesBE 1 flags ++ body

/-- Whether a segment over wall pixels `pts` still waits: for the ring's record, or for the first fetch of a usable layer that covers one of
them, whose record is being read or whose buffer the active has not named (R160, R168). [log 81 DEDUCED] -/
def fetchWaits (s : State) (r : Nat) (pts : List (Nat × Nat)) : Bool :=
  s.cmp.ringDue.testBit r || anyIdx 16 fun l =>
    let x := s.layer r l
    layerUsable s r l && (x.waits || (x.due && !x.blank)) && pts.any fun a => covers s r l a.1 a.2

/-- The mapper sends the next segment of ring `r` (R166, R176, R177, R180): `faults` names pixels of it whose residue failed,
`mapErr` a double-bit error in the position's map entry. [log 149 DEDUCED] -/
def mapperSend (s : State) (r : Nat) (faults : List Nat) (mapErr : Bool) : State :=
  let t := s.map r
  let fmt := ringFmt s r
  let w0 := s.win r
  if !w0.isOpen then s else
  match seekSeg t fmt 4300 w0 with
  | none => s
  | some w =>
    let p := w.pos + 1
    let e := mapEntry t p
    if mapErr then s.setWin r { w with dead := p :: w.dead }
    else
      let q := w.seq.get 0 p
      if w.checks then
        if !(endsInWindow s r w.frame 4) then s else
        let s1 := s.setWin r { w with pos := w.pos + 1, seq := w.seq.set 0 p (q + 1) }
        sendPixel s1 r (mkCopy 1 false (ringRhb s r) (posRoute s r p) 0 (pixelData w.frame q 0 0 0 fmt 3 (bandBody w p)))
      else
        let n := min (segMax fmt) (e.width - w.x)
        let pts := (List.range n).map fun i => e.wall (w.x + i) w.round
        if fetchWaits s r pts || !(endsInWindow s r w.frame (segBlocks fmt n)) then s else
        let raw := pts.map fun a => wallPixel s r w.frame a.1 a.2
        let bad := faults.filter (decide <| · < n)
        let px := substitute bad (encodePx s r (background s r)) 0 [] raw
        let d := compBits fmt
        let body := packBits (n * 6) (px.flatMap fun v => v.flatMap (natBits d))
        let b := p * 8 + bandOf e.lines w.round
        let crc := crcBytes 32 0x04C11DB7 (w.bands.get 0xFFFFFFFF b) (px.flatMap fun v => v.flatMap fun c => bytesBE 2 (expand16 d c))
        let last := !e.chk && w.round + 1 = e.lines && w.x + n = e.width
        let w1 := { w with x := w.x + n, seq := w.seq.set 0 p (q + 1), bands := w.bands.set 0xFFFFFFFF b crc, residue := w.residue + bad.length }
        let s1 := (s.setWin r w1).bump F.CMP_STAT_RESIDUE bad.length
        sendPixel s1 r (mkCopy 1 false (ringRhb s r) (posRoute s r p) 0 (pixelData w.frame q w.round w.x n fmt (b2n last) body))

/-- The oldest seal check of a ring and layer ends: the rectangle is read from DRAM and compared (R173). [log 148 DEDUCED] -/
def sealDone (s : State) (r l : Nat) : State :=
  match s.cmp.seals.find? fun q => q.ring == r && q.layer == l with
  | none => s
  | some q =>
    let got := crc32 ((List.range q.rows).flatMap fun i => dramRead s (q.start + i * q.pitch) q.bytes)
    let s1 := s.modCmp fun c => { c with seals := c.seals.erase q }
    if got = q.crc then flipsSweep s1
    else
      let s2 := raise (s1.bump (F.CMP_LCNT_SEAL_FAIL r l) 1) 283 (d2 r l ++ bytesLE 6 q.frame ++ bytesLE 5 q.buf)
      let x := s2.layer r l
      let own := x.gbuf == some q.buf
      let replaced := fun (f : Flip) => !own && f.layer == l && f.applied.any fun a => a.1 == r && a.2 == some q.buf
      let s3 := s2.modCmp fun c => { c with flips := c.flips.map fun f => if replaced f then { f with fails := f.fails + 1 } else f }
      flipsSweep (s3.setLayer r l { x with fails := if own then x.fails + 1 else x.fails, sealBad := x.sealBad || s3.on (F.CMP_LCFG_SEAL_ACT r l) })

/-! LAYER_FLIP and MAP_LOAD. -/

/-- The first frame of ring `r` whose window opens at least `us` µs from now (R170, R178). -/
def firstWindow (s : State) (r us : Nat) : Nat := firstCount (s.gen r).rate (wallNs s + us * 1000) + 1

/-- Whether a graphics plane at `buf` lies in installed DRAM. -/
def planeIn (s : State) (r l buf : Nat) : Bool :=
  let h := s.rd (F.CMP_LCSZ_YH r l)
  installedRange s buf ((h - 1) * pitchOf s r l + s.rd (F.CMP_LCSZ_XW r l) * gfmtBytes (s.rd (F.CMP_LCFG_GFMT r l)))

/-- The status with which a flip would be refused; 0 where it is taken (R172). -/
def flipCheck (s : State) (rings l buf : Nat) (q : Option Seal) : Nat :=
  let rs := (List.range 8).filter rings.testBit
  if pairEn s && !(mirrorUp s) && !(s.on F.RED_CFG_RED_SOLO) then 2
  else if rs.any fun r => !(s.on (F.CMP_RCFG_EN r)) || lcfgKind s r l != 2 then 3
  else if buf % 64 ≠ 0 || rs.any (fun r => !(planeIn s r l buf)) then 4
  else if q.any fun q => rs.any fun r =>
      decide (s.rd (F.CMP_LCSZ_XW r l) < q.x + q.w) || decide (s.rd (F.CMP_LCSZ_YH r l) < q.y + q.h) ||
      decide (4 * 2 ^ 20 < q.w * q.h * gfmtBytes (s.rd (F.CMP_LCFG_GFMT r l))) then 5
  else 0

/-- Drops the rings of earlier accepted flips that a new one takes over; a flip left with none ends SUPERSEDED (R171). -/
def supersede (s : State) (rings l : Nat) : State :=
  let old := s.cmp.flips.filter fun f => f.acked && f.layer == l && f.rings.any fun e => rings.testBit e.1
  let cut := fun (f : Flip) =>
    let g := { f with rings := f.rings.filter fun e => !(rings.testBit e.1) }
    if f.layer ≠ l || !f.acked then some f else if g.rings.isEmpty && f.applied.isEmpty then none else some g
  let s1 := s.modCmp fun c => { c with flips := c.flips.filterMap cut }
  (old.filter fun f => f.applied.isEmpty && f.rings.all fun e => rings.testBit e.1).foldl (fun s f => postFlip s f 1) s1

/-- Installs a flip for frame T (given by `at_`, or chosen); one that waits for the partner's ACKK replaces nothing yet (R170, R171, R279). -/
def flipStart (s : State) (job : Option Nat) (acked : Bool) (rings l buf target : Nat) (q : Option Seal) (at_ : Option Nat) : State :=
  let rs := (List.range 8).filter rings.testBit
  let ref := rs.headD 0
  let t := at_.getD (max target (firstWindow s ref 50))
  let flip := flipOf (s.gen ref).rate t
  let fr := rs.map fun r => (r, if r = ref then t else firstCount (s.gen r).rate flip)
  let s1 := if acked then supersede s rings l else s
  let s2 := s1.modCmp fun c => { c with flips := c.flips ++ [⟨job, acked, l, buf, q, t, target != 0 && decide (target < t), fr, [], 0⟩] }
  flipsSweep (rs.foldl (fun s r => showFlipPend s r l) s2)

/-- Installs a map load for its frame (R178). -/
def loadStart (s : State) (job : Option Nat) (acked : Bool) (r target : Nat) (table : List Byte) (at_ : Option Nat) : State :=
  let t := at_.getD (max target (firstWindow s r 50))
  showMapPend (s.modCmp fun c => { c with loads := c.loads ++ [⟨r, t, target != 0 && decide (target < t), job, acked, slice table 0 992⟩] }) r

/-- The partner accepted flip `g`: it takes the place of earlier ones and waits for its frame (R171, R279). [log 80 DEDUCED] -/
def flipAccepted (s : State) (g : Flip) : State :=
  let mask := g.rings.foldl (fun n e => n ||| 2 ^ e.1) 0
  let s1 := supersede (s.modCmp fun c => { c with flips := c.flips.filter (· != g) }) mask g.layer
  let s2 := s1.modCmp fun c => { c with flips := c.flips ++ [({ g with acked := true } : Flip)] }
  flipsSweep (g.rings.foldl (fun s e => showFlipPend s e.1 g.layer) s2)

/-- The partner's answer to the DESC of a job: accepted, or refused with a status (R279). -/
def cmpAck (s : State) (job status : Nat) : State :=
  if status = 0 then
    let s1 := (s.cmp.flips.filter fun f => f.job == some job && !f.acked).foldl flipAccepted s
    let s2 := s1.modCmp fun c => { c with loads := c.loads.map fun m => if m.job = some job then { m with acked := true } else m }
    forIdx 8 s2 showMapPend
  else
    let fs := s.cmp.flips.filter fun f => f.job == some job
    let s1 := s.modCmp fun c => { c with flips := c.flips.filter (·.job != some job), loads := c.loads.filter (·.job != some job) }
    let s2 := fs.foldl (fun s f => f.rings.foldl (fun s e => showFlipPend s e.1 f.layer) s) s1
    let s3 := forIdx 8 s2 showMapPend
    match s3.job job with
    | some j => finish s3 j status
    | none => s3

/-- The mirror link left UP: descriptors that still wait for ACKK complete MIRROR_DOWN (R279). -/
def cmpMirrorDown (s : State) : State :=
  let a := s.cmp.flips.filter (fun f => !f.acked) |>.filterMap (·.job)
  let b := s.cmp.loads.filter (fun f => !f.acked) |>.filterMap (·.job)
  b.foldl (fun s j => cmpAck s j 0x83) (a.foldl (fun s j => cmpAck s j 2) s)

/-! The pair comparison (R268). -/

/-- The pair comparison is not made: ACTIVE = 0. -/
def digestSkip (s : State) : State := s.wr F.CHK_PSTAT_ACTIVE 0

/-- Rings whose digests are compared: those that the send side drives. -/
def digestRings (s : State) : List Nat := (List.range 8).filter fun r => s.on (F.CMP_RCFG_EN r)

/-- A frame's comparisons are all made: a frame in which every compared ring matched counts toward the end of a divergence (R268). [log 156 DEDUCED] -/
def digestClose (s : State) : State :=
  let c := s.cmp
  let s0 := s.modCmp fun c => { c with digSeen := 0, digCompared := false, digDiff := false }
  if !c.digCompared || c.digDiff then s0
  else
    let s1 := (s0.wr F.CHK_PSTAT_RUN 0).modCmp fun c => { c with matched := satAdd 8 c.matched 1 }
    if s1.on F.CHK_PSTAT_DIVERGED && s.rd1 F.CHK_CTL_PAIR_LIMIT ≤ s1.cmp.matched then
      raise (s1.wr F.CHK_PSTAT_DIVERGED 0) 420 (d2 0 ((digestRings s).getLastD 0))
    else s1

/-- A difference on ring `r` in frame `n`: the frame counts once, whatever rings differ in it (R268). [log 156 DEDUCED] -/
def digestDiffers (s : State) (r n : Nat) : State :=
  let first := !(s.cmp.differed.testBit r)
  let s1 := if s.cmp.digDiff then s else (s.bump F.CHK_PSTAT_DIFFS 1).bump F.CHK_PSTAT_RUN 1
  let s2 := s1.modCmp fun c => { c with differed := c.differed ||| 2 ^ r, matched := 0, digCompared := true, digDiff := true }
  let s3 := if first then raise s2 419 (d2 r 0 ++ bytesLE 6 n) else s2
  if s.rd1 F.CHK_CTL_PAIR_LIMIT ≤ s3.rd F.CHK_PSTAT_RUN && !(s3.on F.CHK_PSTAT_DIVERGED) then raise (s3.wr F.CHK_PSTAT_DIVERGED 1) 420 (d2 1 r) else s3

/-- A match on ring `r`. -/
def digestMatches (s : State) (r : Nat) : State :=
  s.modCmp fun c => { c with differed := if c.differed.testBit r then c.differed - 2 ^ r else c.differed, digCompared := true }

/-- The digests of ring `r` for the frame before `f` are compared at the fence of `f` (R268). [log 156 DEDUCED] -/
def digestFence (s : State) (r f : Nat) : State :=
  if !(s.on (F.CMP_RCFG_EN r)) then s
  else if !(pairEn s) || !(s.on F.CHK_CTL_PAIR_EN) then digestSkip s
  else
    let n := (f + 2 ^ 48 - 1) % 2 ^ 48
    let mine := fun (d : Nat × Nat × Nat) => d.1 == r && d.2.1 == n
    let keep := fun (l : List (Nat × Nat × Nat)) => l.filter fun d => !(d.1 == r && frameLe d.2.1 n)
    let s0 := if s.cmp.digFrame = n then s else digestClose s
    let s1 := s0.modCmp fun c => { c with digests := keep c.digests, theirs := keep c.theirs, digFrame := n, digSeen := c.digSeen ||| 2 ^ r }
    let s2 := match mirrorUp s, s.cmp.digests.find? mine, s.cmp.theirs.find? mine with
      | true, some a, some b =>
        let s2 := ((s1.wr (F.CHK_PDIG_DIG r) a.2.2).wr (F.CHK_PPDIG_DIG r) b.2.2).wr F.CHK_PSTAT_ACTIVE 1
        if a.2.2 = b.2.2 then digestMatches s2 r else digestDiffers s2 r n
      | _, _, _ => digestSkip s1
    if (digestRings s).all s2.cmp.digSeen.testBit then digestClose s2 else s2

/-- The partner's digest. -/
def digestAccept (s : State) (r frame d : Nat) : State := s.modCmp fun c => { c with theirs := c.theirs ++ [(r, frame, d)] }

/-! The drawbar (R169). -/

def dbBuf (s : State) (k : Nat) : Nat :=
  s.rd64 F.CMP_DBBASE_LO_BASE F.CMP_DBBASE_HI_BASE + k * (ceilDiv (s.rd F.CMP_DBCFG_DB_W * s.rd F.CMP_DBCFG_DB_H * 6) 4096 * 4096)

/-- The drawbar picture's counterpart of R76 and R184: a PIXEL segment of the coach's own position is stored. -/
def dbSegment (s : State) (c : Copy) : State :=
  let b := c.data
  let frame := beAt b 0 6
  let line := beAt b 8 2
  let x := beAt b 10 2
  let n := beAt b 12 2
  let fmt := beAt b 14 1
  let flags := beAt b 15 1
  let w := s.rd F.CMP_DBCFG_DB_W
  let d := s.cmp.db
  let total := if bitAt flags 0 then some (beAt b 6 2 + 1) else d.total
  let noted := fun (l x n : Nat) => { d with segs := (beAt b 6 2, l, x, n) :: d.segs.filter (fun e => e.1 != beAt b 6 2), total := total }
  if !(s.on F.CMP_DBCFG_EN) then s
  else if bitAt flags 1 then (if frame = d.frame then s.modCmp fun q => { q with db := noted 0 0 0 } else s)
  else if 2 < fmt then s
  else if frameLt frame d.frame then raise (s.bump F.CL_SEGSTAT_SEG_LATE 1) 188 (bytesLE 2 1 ++ bytesLE 6 frame)
  else if frame ≠ d.frame || w < x + n || s.rd F.CMP_DBCFG_DB_H ≤ line then s
  else
    let k := compBits fmt
    let body := b.drop 16
    let px := (List.range (3 * n)).flatMap fun i => bytesLE 2 (bitsAt body (i * k) k)
    let s1 := dramWrite s (dbBuf s d.fill + (line * w + x) * 6) px
    s1.modCmp fun q => { q with db := { (noted line x n) with fmt := fmt } }

/-- The parent fence of `f`: the drawbar frame is complete, spans that did not come keep the previous frame's content, and
the next buffer is filled (R76, R77, R169). [log 36 DEDUCED] -/
def dbFence (s : State) (f flipNext : Nat) : State :=
  if !(s.on F.CMP_DBCFG_EN) then s else
  let d := s.cmp.db
  let w := s.rd F.CMP_DBCFG_DB_W
  let h := s.rd F.CMP_DBCFG_DB_H
  let prev := (d.shown.reverse.head?).map fun e => e.2.1
  let covered := fun i => d.segs.any fun e => e.2.1 == i / w && decide (e.2.2.1 ≤ i % w) && decide (i % w < e.2.2.1 + e.2.2.2)
  let s1 := match prev with
    | some k => ((List.range (w * h)).filter fun i => !(covered i)).foldl (fun s i =>
        dramWrite s (dbBuf s d.fill + i * 6) (dramRead s (dbBuf s k + i * 6) 6)) s
    | none => s
  let want := d.total.getD d.lastTotal
  let missing := want - d.segs.length
  let s2 := if missing = 0 then s1 else raise (s1.bump F.CL_SEGSTAT_SEG_MISSING missing) 187 (bytesLE 2 missing ++ bytesLE 6 f)
  let next := { d with frame := (f + 1) % 2 ^ 48, fill := (d.fill + 1) % 3, segs := [], total := none, lastTotal := want }
  s2.modCmp fun q => { q with db := { next with shown := (d.shown.reverse.take 1).reverse ++ [(f, d.fill, flipNext, d.fmt)] } }

end Sys2Proof.Machine
end

