-- ==== Sys2Proof/Machine/TopoOps.lean ====
section
/-! DEFINITION. Machine/TopoOps.lean: Drive Link topology, the mask list, legend groups and their latch (chapter *Lamp drive:
Drive Link, lamp rail and legend groups*), modes that display, the wake from RUN-quiet. -/
namespace Sys2Proof.Machine

def State.modPix (s : State) (f : Pix → Pix) : State := { s with pix := f s.pix }
def State.modDrv (s : State) (f : Drv → Drv) : State := { s with drv := f s.drv }
def State.mode (s : State) : Nat := s.rd F.SYS_MSTAT_MODE
def mBypass : Nat := 0
def mSentry : Nat := 1
def mStandby : Nat := 2
def mRun : Nat := 3
def mService : Nat := 4
def mSafe : Nat := 5
/-- The modes that display (R370). -/
def State.displays (s : State) : Bool := decide (3 ≤ s.mode) && decide (s.mode ≤ 5)
def State.quiet (s : State) : Bool := s.rd F.PIX_QSTAT_STATE == 1

/-! RUN-quiet (R205, R206). -/

/-- A wake cause arises: in RUN-quiet the wake starts, with PIX_QUIET_EXIT; DRAM leaves self-refresh; the next frame is read out and steady
frames are counted afresh (R205, R206). -/
def pixWake (s : State) (cause : Nat) : State :=
  if !s.quiet then s
  else
    let s1 := askSr ((s.wr F.PIX_QSTAT_STATE 2).wr F.PIX_QSTAT_CAUSE cause) 0 false
    let s2 := s1.wr F.SYS_MSTAT_QUIET 0
    raise ((s2.wr F.PIX_QSTAT_STEADY 0).modPix fun p => { p with woke := true }) 328 (d2 cause 0 ++ bytesLE 6 (s.pix.fillFrame.getD 0))

/-- Something that breaks steadiness, and that wakes with the given cause (R203, R205). -/
def pixTouch (s : State) (cause : Nat) : State := pixWake (s.modPix fun p => { p with changed := true }) cause

/-! Topology (R235, R236). -/

def dcount (s : State) (p : Nat) : Nat := min 32 (s.rd (F.DRV_PCFG_DCOUNT p))
def scanLines (s : State) : Nat := s.rd F.DRV_TOPO_S_M1 + 1
def subframes (s : State) : Nat := s.rd F.DRV_TOPO_K_M1 + 1
/-- The lamp index of R196. -/
def lampIndex (p d sc ch : Nat) : Nat := ((p * 32 + d) * 32 + sc) * 48 + ch
def lampPort (i : Nat) : Nat := i / 49152
def lampDev (i : Nat) : Nat := i / 1536 % 32
def lampSc (i : Nat) : Nat := i / 48 % 32
def lampCh (i : Nat) : Nat := i % 48
/-- Whether a lamp is present (R235). -/
def present (s : State) (i : Nat) : Bool := decide (lampDev i < dcount s (lampPort i)) && decide (lampSc i < scanLines s)
/-- Colour (0 R, 1 G, 2 B) of channel `c` of a triplet (R236). -/
def colourOf (corder c : Nat) : Nat :=
  match corder with
  | 0 => c
  | 1 => [0, 2, 1].getD c 0
  | 2 => [1, 0, 2].getD c 0
  | 3 => [1, 2, 0].getD c 0
  | 4 => [2, 0, 1].getD c 0
  | _ => [2, 1, 0].getD c 0
def lampColour (s : State) (i : Nat) : Nat := colourOf (s.rd F.DRV_TOPO_CORDER) (i % 3)
/-- The pixel of the triplet whose first lamp is `i` (R236). -/
def tripletPixel (s : State) (i : Nat) : Nat × Nat :=
  let dm := lampPort i * 32 + lampDev i
  let sm := lampSc i * 16 + lampCh i / 3
  (s.rd (F.DRV_DMAP_X0 dm) + s.rd (F.DRV_SCANMAP_DX sm), s.rd (F.DRV_DMAP_Y0 dm) + s.rd (F.DRV_SCANMAP_DY sm))
/-- First lamps of the triplets of port `p`, in the order position, scan line, triplet. -/
def portTriplets (s : State) (p : Nat) : List Nat :=
  (List.range (dcount s p)).flatMap fun d => (List.range (scanLines s)).flatMap fun sc => (List.range 16).map fun m => lampIndex p d sc (3 * m)
/-- All present triplets in load order: the ports served in turn (R236). [log 85 DEDUCED] -/
def loadOrder (s : State) : List Nat :=
  let l := (List.range 16).map (portTriplets s)
  let n := l.foldl (fun m x => max m x.length) 0
  (List.range n).flatMap fun k => l.filterMap fun x => x[k]?
/-- Present lamps, ascending. -/
def presentLamps (s : State) : List Nat :=
  (List.range 16).flatMap fun p => (List.range (dcount s p)).flatMap fun d => (List.range (scanLines s)).flatMap fun sc =>
    (List.range 48).map fun c => lampIndex p d sc c
/-- Whether a lamp's device answered enumeration. -/
def answers (s : State) (i : Nat) : Bool := (s.drv.answered.get 0 (lampPort i)).testBit (lampDev i)

/-! Drive Link words (R238, R239). -/

def opIdle : Nat := 0
def opReset : Nat := 1
def opEnum : Nat := 2
def opConfig : Nat := 3
def opLoad : Nat := 4
def opLatch : Nat := 5
def opScan : Nat := 6
def opGap : Nat := 7
def opWload : Nat := 8
def opStat : Nat := 9
def opFread : Nat := 10
def opFclr : Nat := 11
def opBlank : Nat := 12

/-- A command word: header 10b, opcode in [17:12], argument in [11:1], the parity bit that makes bits [17:0] odd (R238). -/
def cmdWord (op arg : Nat) : Nat :=
  let b := op % 64 * 4096 + arg % 2048 * 2
  2 ^ 19 + b + (popCount 18 b + 1) % 2
/-- A data word: header 01b and the payload (R238). -/
def dataWord (v : Nat) : Nat := 2 ^ 18 + v % 2 ^ 18
/-- What the sequencer sends when it has nothing to send (R238). -/
def idleWord : Nat := cmdWord opIdle 0

/-- A command on a port with its argument and data words. -/
def dlSend (s : State) (p op arg : Nat) (data : List Nat) : State := { s with out := s.out ++ [.dlWord p (cmdWord op arg :: data.map dataWord)] }
/-- Ports whose DCOUNT is not 0 (R237). -/
def usedPorts (s : State) : List Nat := (List.range 16).filter fun p => dcount s p != 0
/-- The same command on every used port. -/
def dlAll (s : State) (op arg : Nat) (data : List Nat) : State := (usedPorts s).foldl (fun s p => dlSend s p op arg data) s
/-- The sequencer runs: state 2 or 3 of DRV_STAT. -/
def drvRuns (s : State) : Bool := decide (2 ≤ s.rd F.DRV_STAT_STATE)

/-! The mask list (R249). -/

/-- Lamps of the valid mask entries: a valid entry differs from reset, so it is listed. -/
def maskedLamps (s : State) : List Nat :=
  (s.regs.filter fun e => decide (R.DRV_MASK 0 ≤ e.1) && decide (e.1 < R.DRV_MASK 0 + 2048) && e.2.toNat.testBit 31).map fun e => e.2.toNat % 2 ^ 20

def showMaskCnt (s : State) : State := s.wr F.DRV_MASKCNT_USED (maskedLamps s).length

/-- Enters a lamp with a TYPE, once; a full list raises DRV_MASK_FULL once. -/
def maskLamp (s : State) (i type : Nat) : State :=
  if (maskedLamps s).contains i then s
  else match firstIdx 512 fun n => !(s.on (F.DRV_MASK_VALID n)) with
    | some n => showMaskCnt (s.setReg (R.DRV_MASK n) (i + type * 2 ^ 20 + 2 ^ 31))
    | none => if s.drv.maskTold then s else (raise s 372 (d2 0 0)).modDrv fun d => { d with maskTold := true }

/-- MASK_CLR. -/
def maskClear (s : State) : State :=
  let s1 := { s with regs := s.regs.clear (R.DRV_MASK 0) 2048 }
  showMaskCnt (s1.modDrv fun d => { d with maskTold := false })

/-! Legend groups (R255 to R258). -/

/-- Used ranges of a group: FIRST, COUNT, BMEN, BMOFS. -/
def rangesOf (s : State) (g : Nat) : List (Nat × Nat × Bool × Nat) :=
  ((List.range 64).map fun r => (s.rd (F.DRV_LGRANGE0_FIRST g r), s.rd (F.DRV_LGRANGE1_COUNT g r), s.on (F.DRV_LGRANGE0_BMEN g r),
    s.rd (F.DRV_LGRANGE1_BMOFS g r))).filter fun e => e.2.1 != 0

/-- The first range of group `g` that fails R256. -/
def badRange (s : State) (g : Nat) : Option Nat :=
  let used := fun r => s.rd (F.DRV_LGRANGE1_COUNT g r)
  let first := fun r => s.rd (F.DRV_LGRANGE0_FIRST g r)
  firstIdx 64 fun r =>
    used r != 0 && (decide (786432 < first r + used r) ||
      (s.on (F.DRV_LGRANGE0_BMEN g r) && decide (262144 < s.rd (F.DRV_LGRANGE1_BMOFS g r) + used r)) ||
      anyIdx r fun q => used q != 0 && decide (first q < first r + used r) && decide (first r < first q + used q))

/-- Judges group `g` after a change of its ranges: LGVALID, or DRV_LG_BAD. -/
def judgeGroup (s : State) (g : Nat) : State :=
  let v := s.rd F.DRV_LGVALID_VALID
  let clr := s.wr F.DRV_LGVALID_VALID (if v.testBit g then v - 2 ^ g else v)
  match badRange s g with
  | some r => raise clr 377 (d2 g r)
  | none => if (rangesOf s g).isEmpty then clr else s.wr F.DRV_LGVALID_VALID (v ||| 2 ^ g)

/-- Whether lamp `i` is a member of group `g` (R255). -/
def isMember (s : State) (g i : Nat) : Bool :=
  (rangesOf s g).any fun e =>
    decide (e.1 ≤ i) && decide (i < e.1 + e.2.1) &&
    (!e.2.2.1 || (let b := e.2.2.2 + (i - e.1); (s.rd (F.DRV_LGBMP_BITS (b / 32))).testBit (b % 32)))

def validGroups (s : State) : List Nat := (List.range 32).filter (s.rd F.DRV_LGVALID_VALID).testBit
/-- The accepted groups lamp `i` belongs to, ascending. -/
def groupsOf (s : State) (i : Nat) : List Nat := (validGroups s).filter fun g => isMember s g i
/-- The members of a group, ascending. -/
def membersOf (s : State) (g : Nat) : List Nat :=
  ((rangesOf s g).flatMap fun e => (List.range e.2.1).map (e.1 + ·)).filter (isMember s g)

/-- Latches a group with the cause and lamp found, and wakes (R257). -/
def latchGroup (s : State) (g cause lamp : Nat) : State :=
  let l := s.rd F.DRV_LGLATCH_LATCHED
  if l.testBit g then s
  else
    let s1 := ((s.wr F.DRV_LGLATCH_LATCHED (l ||| 2 ^ g)).wr (F.DRV_LGCAUSE_LAMP g) lamp).wr (F.DRV_LGCAUSE_CAUSE g) cause
    pixTouch (count (raise s1 374 (d2 g cause ++ bytesLE 3 lamp)) 60 1) 6

/-- Latches every group that holds lamp `i`. -/
def latchLamp (s : State) (cause i : Nat) : State := (groupsOf s i).foldl (fun s g => latchGroup s g cause i) s

/-- Whether a lamp's device is lost or did not answer enumeration, or the lamp is not present (R255, R257 cause 4h). -/
def deviceGone (s : State) (i : Nat) : Bool :=
  !(present s i) || !(answers s i) || (s.rd (F.DRV_PLOST_LOST (lampPort i))).testBit (lampDev i)

/-! The lamp store (R196 to R201). -/

def identityEntry (s : State) (i : Nat) : Nat := 0x400 * 2 ^ (12 * lampColour s i)
def bankOf (s : State) (b : Bool) : Bank := if b then s.pix.bankB else s.pix.bankA
def State.setBank (s : State) (b : Bool) (x : Bank) : State :=
  s.modPix fun p => if b then { p with bankB := x } else { p with bankA := x }
def liveBank (s : State) : Bool := s.on F.PIX_BANK_LIVE
/-- What an unlisted entry of a bank reads as. -/
def bankRest (s : State) (x : Bank) (i : Nat) : Nat := if x.ident then identityEntry s i else 0
/-- The bits of an entry that are not reserved. -/
def entryOf (s : State) (b : Bool) (i : Nat) : Nat := let x := bankOf s b; x.ent.get (bankRest s x i) i
def liveEntry (s : State) (i : Nat) : Nat := entryOf s (liveBank s) i
def entryDark (e : Nat) : Bool := e.testBit 36
def liveBad (s : State) (i : Nat) : Bool := (bankOf s (liveBank s)).bad.get 0 i != 0

/-- Writes a whole entry with its check bits, its reserved bits ignored (R196); a shadow entry counts as written since the last swap. -/
def writeEntry (s : State) (b : Bool) (i v : Nat) : State :=
  let x := bankOf s b
  let s1 := s.setBank b { x with ent := x.ent.set (bankRest s x i) i (v % 2 ^ 37), bad := x.bad.set 0 i 0 }
  if b = liveBank s then s1 else s1.modPix fun p => { p with wrote := p.wrote.set 0 i 1 }

/-- The first cause of R257 that holds at a fence for a member of group `g` (2h, 3h, 4h), with the member. -/
def groupCause (s : State) (masks : List Nat) (g : Nat) : Option (Nat × Nat) :=
  let m := membersOf s g
  match m.find? masks.contains with
  | some i => some (2, i)
  | none => match m.find? fun i => entryDark (liveEntry s i) with
    | some i => some (3, i)
    | none => (m.find? (deviceGone s)).map fun i => (4, i)

/-- LGCLR: clears the latches named unless a cause 2h, 3h or 4h still holds (R258). -/
def clearLatches (s : State) (mask : Nat) : State :=
  ((List.range 32).filter mask.testBit).foldl (fun s g =>
    match groupCause s (maskedLamps s) g with
    | some (c, _) => raise s 376 (d2 g c)
    | none =>
      let l := s.rd F.DRV_LGLATCH_LATCHED
      if !(l.testBit g) then s
      else pixTouch (raise (((s.wr F.DRV_LGLATCH_LATCHED (l - 2 ^ g)).wr (F.DRV_LGCAUSE_CAUSE g) 0).wr (F.DRV_LGCAUSE_LAMP g) 0) 375 (d2 g 0)) 6) s

end Sys2Proof.Machine
end

