-- ==== Sys2Proof/Machine/PixOps.lean ====
section
/-! DEFINITION. Machine/PixOps.lean: receive and store, the lamp-store windows, swaps and copies, stages 4 to 9, the readout,
RUN-quiet, and the carriage's rectangle checks (chapters *The carriage pixel pipeline and lamp store*, *Checking the picture*). -/
namespace Sys2Proof.Machine

def State.modChk (s : State) (f : Chk → Chk) : State := { s with chk := f s.chk }
def pixW (s : State) : Nat := s.rd F.PIX_GEOM_WIDTH
def pixL (s : State) : Nat := s.rd F.PIX_GEOM_LINES
/-- The address of pixel (x, line) of frame buffer `k` (R183). -/
def fbAddr (s : State) (k line x : Nat) : Nat := s.rd F.PIX_FBBASE_BASE * 4096 + k * 0x180000 + (line * pixW s + x) * 6
def fbShown (s : State) : Nat := s.rd F.PIX_FBSTAT_SHOWN
def fbFill (s : State) : Nat := s.rd F.PIX_FBSTAT_FILL
/-- The previous buffer: the third of the three (R185). -/
def fbPrev (s : State) : Nat := 3 - (fbShown s + fbFill s)

/-- PIX_CTL.EN was written 1: refused with PIX_GEOM_BAD where the geometry does not allow it. -/
def pixEnable (s : State) : State :=
  if pixW s = 0 || pixL s = 0 || 262144 < pixW s * pixL s then raise (s.wr F.PIX_CTL_EN 0) 334 (d2 0 0)
  else pixTouch (s.wr F.PIX_CTL_EN 1) 8

/-! Receive (R184, R186, R204). -/

/-- The content CRC of a segment: header block H1 bytes 0 to 6 and the body (R186). -/
def contentCrc (c : Copy) : Nat := crc32 (slice c.data 8 7 ++ c.data.drop 16)

/-- Writes an accepted, well-placed segment into the fill buffer and records its content (R183, R186). -/
def storeSegment (s : State) (c : Copy) : State :=
  let b := c.data
  let q := beAt b 6 2
  let line := beAt b 8 2
  let x := beAt b 10 2
  let n := beAt b 12 2
  let fmt := beAt b 14 1
  let k := compBits fmt
  let crc := contentCrc c
  let body := b.drop 16
  let px := (List.range (3 * n)).flatMap fun i => bytesLE 2 (expand16 k (bitsAt body (i * k) k))
  let same := s.pix.crcs.get 0 q == crc + 1 && s.pix.crcBad.get 0 q == 0 && s.pix.recFmt == fmt
  let s1 := dramWrite s (fbAddr s (fbFill s) line x) px
  let seg : Seg := ⟨q, line, x, n, false⟩
  s1.modPix fun p => { p with segs := seg :: p.segs.filter (fun e => e.seq != q), crcs := p.crcs.set 0 q (crc + 1), fmt := some fmt, differs := p.differs || !same, crcBad := p.crcBad.set 0 q 0 }

/-- LAST gives the frame's segment count (R76). -/
def noteLast (s : State) (b : List Byte) : State :=
  if bitAt (beAt b 15 1) 0 then s.modPix fun p => { p with total := some (beAt b 6 2 + 1) } else s

/-- A check-value packet of the fill frame: it counts as a segment; in RUN-quiet one that shows another segment count or FMT starts the
wake (R76, R184, R204). [log 82 DEDUCED] -/
def checkPacket (s : State) (c : Copy) : State :=
  let b := c.data
  let q := beAt b 6 2
  let other := (bitAt (beAt b 15 1) 0 && q + 1 != s.pix.lastTotal) || beAt b 14 1 != s.pix.recFmt
  let s1 := (noteLast s b).modPix fun p => { p with expect := some (wordsBE 8 (b.drop 16)), segs := ⟨q, 0, 0, 0, true⟩ :: p.segs.filter (fun e => e.seq != q) }
  if s.quiet && other then pixWake (s1.modPix fun p => { p with differs := true }) 1 else s1

/-- A segment in RUN-quiet: equal content is marked SAME; the first that differs starts the wake and is held (R204). -/
def quietSegment (s : State) (c : Copy) : State :=
  let b := c.data
  let q := beAt b 6 2
  let same := s.pix.crcs.get 0 q == contentCrc c + 1 && s.pix.crcBad.get 0 q == 0 && s.pix.recFmt == beAt b 14 1 &&
    (!(bitAt (beAt b 15 1) 0) || q + 1 == s.pix.lastTotal)
  if same then s.modPix fun p => { p with segs := ⟨q, beAt b 8 2, beAt b 10 2, beAt b 12 2, true⟩ :: p.segs.filter (fun e => e.seq != q) }
  else pixWake (s.modPix fun p => { p with wakeBuf := p.wakeBuf ++ [c], differs := true }) 1

/-- An accepted PIXEL segment of a carriage, by the first row of R184 it matches. [log 82 DEDUCED, 143 DESIGN CHOICE] -/
def pixSegment (s : State) (c : Copy) : State :=
  let b := c.data
  let frame := beAt b 0 6
  let flags := beAt b 15 1
  if !s.displays then s else
  match s.pix.fillFrame with
  | none => s
  | some f =>
    if bitAt flags 1 then (if frame = f then checkPacket s c else s)
    else if 2 < beAt b 14 1 || pixL s ≤ beAt b 8 2 || pixW s < beAt b 10 2 + beAt b 12 2 then
      let s1 := s.bump F.PIX_FBSTAT_GEOM 1
      if s.pix.geomTold then s1
      else (raise s1 329 (d2 0 0 ++ bytesLE 2 (beAt b 8 2) ++ bytesLE 2 (beAt b 10 2))).modPix fun p => { p with geomTold := true }
    else if frameLt frame f then raise (s.bump F.CL_SEGSTAT_SEG_LATE 1) 188 (bytesLE 2 1 ++ bytesLE 6 frame)
    else if frame ≠ f then
      let s1 := s.bump F.PIX_FBSTAT_AHEAD 1
      if s.pix.aheadTold then s1
      else (raise s1 330 (d2 0 0 ++ bytesLE 6 frame)).modPix fun p => { p with aheadTold := true }
    else if s.rd F.PIX_QSTAT_STATE = 1 then quietSegment (noteLast s b) c
    else if s.rd F.PIX_QSTAT_STATE = 2 then (noteLast s b).modPix fun p => { p with wakeBuf := p.wakeBuf ++ [c] }
    else storeSegment (noteLast s b) c

/-- The wake completes: the wake buffer drains into the fill buffer, the pipeline runs (R204, R206). -/
def quietWakeDone (s : State) : State :=
  if s.rd F.PIX_QSTAT_STATE ≠ 2 then s
  else
    let l := s.pix.wakeBuf
    let s1 := (s.wr F.PIX_QSTAT_STATE 0).modPix fun p => { p with wakeBuf := [] }
    l.foldl storeSegment (if s1.rd F.DRV_STAT_STATE = 3 then s1.wr F.DRV_STAT_STATE 2 else s1)

/-! Banks (R198 to R200). -/

/-- The shadow holds no entry written since the last swap and found uncorrectable since (R200). -/
def shadowClean (s : State) : Bool :=
  (bankOf s (!(liveBank s))).bad.all fun e => !(s.pix.wroteAll) && s.pix.wrote.get 0 e.1 == 0

/-- Whether the shadow is ready (R200). [log 83 DEDUCED] -/
def shadowReady (s : State) : Bool :=
  (if s.on F.PIX_BANK_OWNER then s.on F.PIX_BANK_READY else !(s.on F.PIX_BANK_COPY_BUSY)) && shadowClean s

/-- What the sampling instant of a swap request takes: READY of the engine that owns the shadow, else whether the shadow is ready (R200, R224). -/
def readyNow (s : State) : Bool := if s.on F.PIX_BANK_OWNER then s.on F.PIX_BANK_READY else shadowReady s

/-- Keeps the change of that readiness, of the last eight, with its time. [log 42 DEDUCED] -/
def noteReady (s : State) : State :=
  let r := readyNow s
  if (s.pix.readyLog.head?.map (·.2)).getD true == r then s
  else s.modPix fun p => { p with readyLog := (s.now, r) :: p.readyLog.take 7 }

/-- The readiness at an earlier instant. [log 42 DEDUCED] -/
def readyAt (s : State) (t : Nat) : Bool :=
  match s.pix.readyLog.find? fun e => decide (e.1 ≤ t) with
  | some e => e.2
  | none => (s.pix.readyLog.getLast?.map fun e => !e.2).getD true

/-- An uncorrectable entry counts, is recorded and reported (R198, R199). -/
def tellUe (b : Bool) (s : State) (i : Nat) : State :=
  let s1 := s.bump F.PIX_LSERR_UE 1
  let s2 := if s1.on F.PIX_LSUE_VALID then s1 else ((s1.wr F.PIX_LSUE_INDEX i).wr F.PIX_LSUE_BANK (b2n b)).wr F.PIX_LSUE_VALID 1
  count (raise s2 322 (d2 (b2n b) 0 ++ bytesLE 3 i)) 47 1

/-- Records an uncorrectable entry once (R199). -/
def lampUe (s : State) (b : Bool) (i : Nat) : State :=
  let x := bankOf s b
  if x.bad.get 0 i ≠ 0 then s else noteReady (tellUe b (s.setBank b { x with bad := x.bad.set 0 i 1 }) i)

/-- The scrubber met entry `i` of a bank: clean (0), corrected (1), uncorrectable (2) (R199). -/
def lsScrub (s : State) (b : Bool) (i err : Nat) : State :=
  if s.quiet then s
  else if err = 1 then
    let s1 := (count (s.bump F.PIX_LSERR_CE 1) 46 1).modPix fun p => { p with ces := p.ces + 1 }
    if s1.mayReport 321 secPs then ((raise s1 321 (d2 (b2n b) 0 ++ bytesLE 4 s1.pix.ces)).reported 321).modPix fun p => { p with ces := 0 } else s1
  else if err = 2 then lampUe s b i else s

/-- The bank swap itself, with PIX_SWAP; that of an INIT pass ends the wait for it (R200, R225). -/
def swapBanks (s : State) (cause frame : Nat) : State :=
  let b := !(liveBank s)
  let s1 := (((s.wr F.PIX_BANK_LIVE (b2n b)).wr F.PIX_BANK_READY 0).modPix fun p => { p with wroteAll := false, wrote := [], initWait := p.initWait && !s.cal.copyAfter })
  pixTouch (count (raise (noteReady s1) 325 (d2 (b2n b) cause ++ bytesLE 6 frame)) 59 1) 2

/-- A fence's swap requests: one swap if the shadow was ready at the sampling instant and holds no uncorrectable entry found since, else
PIX_SWAP_SKIPPED (R200, R224). [log 83 DEDUCED] -/
def swapAt (s : State) (cause frame : Nat) (ready : Bool) : State :=
  if ready && shadowClean s then swapBanks s cause frame else raise s 326 (d2 cause 0 ++ bytesLE 6 frame)

/-- Starts a copy of the live bank into the shadow (R198). -/
def startCopy (s : State) (own : Bool) : State :=
  if s.on F.PIX_BANK_COPY_BUSY || (s.on F.PIX_BANK_OWNER && !own) then s
  else noteReady ((s.wr F.PIX_BANK_COPY_BUSY 1).modPix fun p => { p with changed := true })

/-- The copy completes: PIX_COPY_DONE; entries that read as uncorrectable stay so in the shadow (R198). -/
def copyDone (s : State) : State :=
  if !(s.on F.PIX_BANK_COPY_BUSY) then s
  else
    let b := liveBank s
    let x := bankOf s b
    let s1 := (s.setBank (!b) x).modPix fun p => { p with wroteAll := true, wrote := [] }
    let s2 := x.bad.foldl (fun s e => tellUe b s e.1) s1
    raise (noteReady (s2.wr F.PIX_BANK_COPY_BUSY 0)) 333 (d2 (b2n b) 0)

/-- Bank, lamp and word (+0 or +4) of a window address (R197). -/
def lsAddr (a : Nat) : Option (Bool × Nat × Bool) :=
  let o := a % 0x800000
  let i := o / 8
  if (a / 0x800000 = 2 || a / 0x800000 = 3) && i < 786432 && a % 4 = 0 then some (a / 0x800000 == 3, i, o % 8 == 4) else none

/-- Whether a bank accepts a window write now, else the cause of PIX_LS_REFUSED (0: the live bank's Q rule) (R198). -/
def lsRefusal (s : State) (b : Bool) : Option Nat :=
  if b = liveBank s then (if s.on F.PIX_CTL_EN then some 0 else none)
  else if s.on F.PIX_BANK_OWNER then some 1
  else if s.on F.PIX_BANK_COPY_BUSY then some 2 else none

/-- A window write by path `p`: +0 is held, +4 writes the whole entry (R197, R419). -/
def lsStore (s : State) (p a : Nat) (b : Bool) (i : Nat) (hi : Bool) (w : Nat) : State :=
  let h := Table.get (0, 0) s.pix.held p
  if !hi then s.modPix fun x => { x with held := Table.set (0, 0) x.held p (a, w) }
  else
    let lo := if h.1 + 4 = a && h.1 ≠ 0 then h.2 else entryOf s b i % 2 ^ 32
    noteReady ((writeEntry s b i (lo + 2 ^ 32 * (w % 256))).modPix fun x => { x with held := Table.set (0, 0) x.held p (0, 0) })

/-- A refused write of word +4 discards the word its path holds (R419). -/
def lsDrop (s : State) (p : Nat) (hi : Bool) : State :=
  if hi then s.modPix fun x => { x with held := Table.set (0, 0) x.held p (0, 0) } else s

/-! Stages 4 to 9 (R188 to R195). -/

def lutEntry (s : State) (c i : Nat) : Int :=
  let j := min i 4095
  if s.pix.lutBad.get 0 (c * 4096 + j) ≠ 0 then ((j * 256 + j / 16 : Nat) : Int) else s.rd (F.PIX_ILUT_E c j)

/-- Stage 4. -/
def stage4 (s : State) (c x : Nat) : Int :=
  let i := x / 16
  lutEntry s c i + ((lutEntry s c (i + 1) - lutEntry s c i) * ((x % 16 : Nat) : Int) + 8) / 16

/-- A signed `s1.10` coefficient of an entry. -/
def coef (e j : Nat) : Int := signed (e / 2 ^ (12 * j)) 12

def clamp20 (x : Int) : Int := clampI 0 (2 ^ 20 - 1) x

/-- Stage 5. -/
def stage5 (e : Nat) (y : List Int) : Int := clamp20 ((coef e 0 * y.getD 0 0 + coef e 1 * y.getD 1 0 + coef e 2 * y.getD 2 0 + 512) / 1024)

/-- Tile-matrix coefficient n. -/
def tmat (s : State) (n : Nat) : Int :=
  if s.pix.tmatBad.testBit n then (if n % 4 = 0 then 0x4000 else 0)
  else signed (if n % 2 = 0 then s.rd (F.PIX_TMAT_T0 (n / 2)) else s.rd (F.PIX_TMAT_T1 (n / 2))) 16

/-- Stage 6 for colour `k`. -/
def stage6 (s : State) (k : Nat) (d : List Int) : Int :=
  clamp20 ((tmat s (3 * k) * d.getD 0 0 + tmat s (3 * k + 1) * d.getD 1 0 + tmat s (3 * k + 2) * d.getD 2 0 + 8192) / 16384)

/-- The frame's scale g (R191). -/
def scaleG (s : State) (r : Readout) : Nat := ((s.rd F.PIX_SCALE_BRIGHT * r.amb + 2048) / 4096 * r.thr + 8) / 16

def fbgain (s : State) (k : Nat) : Nat :=
  match k with | 0 => s.rd F.PIX_FBGAIN0_R | 1 => s.rd F.PIX_FBGAIN0_G | _ => s.rd F.PIX_FBGAIN1_B

/-- The substitute of R195. -/
def substitute7 (s : State) (g k : Nat) (y : List Int) : Nat :=
  ((clamp20 ((y.getD k 0 * (fbgain s k : Int) + 2048) / 4096)).toNat * g + 2048) / 4096

/-- Faults of the arithmetic that the readout met: stage 5; stage 6 or 7; the forced-level product; the fallback as well. -/
def hasFault (l : List (Nat × Nat)) (i kind : Nat) : Bool := l.contains (i, kind)

/-- A lamp's output of stage 8: f, whether it was substituted, whether the fallback path failed as well, whether a mismatch set its
output to 0 (R192, R195). -/
structure LampOut where
  lamp : Nat
  f : Nat
  subst : Bool
  darked : Bool
  zeroed : Bool

/-- Stage 9: the 18-bit value v × 4 + q (R193). -/
def stage9 (dither : Bool) (f : Nat) : Nat := if dither then min 262140 ((f + 2) / 4) else min 65535 ((f + 8) / 16) * 4

/-- The three lamps of the triplet at `i` for pixel components `px`. -/
def triplet (s : State) (r : Readout) (g : Nat) (faults : List (Nat × Nat)) (px : List Nat) (i : Nat) : List LampOut :=
  let y := [0, 1, 2].map fun c => stage4 s c (px.getD c 0)
  let lampOf := fun k => ((List.range 3).find? fun c => lampColour s (i + c) == k).getD k + i
  let d := [0, 1, 2].map fun k => stage5 (liveEntry s (lampOf k)) y
  let whole := (List.range 3).any fun c => hasFault faults (i + c) 0 || liveBad s (i + c)
  (List.range 3).map fun c =>
    let l := i + c
    let k := lampColour s l
    let sub := whole || hasFault faults l 1
    let both := sub && hasFault faults l 3
    let v := if sub then substitute7 s g k y else ((stage6 s k d).toNat * g + 2048) / 4096
    let gs := groupsOf s l
    let forced := gs.find? r.forced.testBit
    let off := r.dark || entryDark (liveEntry s l) || r.masks.contains l || gs.any r.blanked.testBit
    match forced with
    | some h =>
      let bad := both || (hasFault faults l 2 && !off)
      ⟨l, if off || bad then 0 else (s.rd (F.DRV_LGLVL_LEVEL h) * r.thr + 8) / 16, sub, both, bad⟩
    | none => ⟨l, if off || both then 0 else v, sub, both, both⟩

/-- A pixel of the frame being read: from the shown buffer, on an error from the previous one, else 0; whether the error rule
was used (R186). A safe frame has no other buffer. -/
def readPixel (s : State) (r : Readout) (x y : Nat) : List Nat × Bool :=
  let o := (y * pixW s + x) * 6
  let get := fun a => let b := dramRead s a 6; [leAt b 0 2, leAt b 2 2, leAt b 4 2]
  if dramCause s (r.src + o) 6 = 0 then (get (r.src + o), false)
  else if dramCause s (r.prev + o) 6 = 0 then (get (r.prev + o), true)
  else ([0, 0, 0], true)

/-! Output rectangles (R264 to R267). -/

/-- The code of an enabled rectangle: 1 geometry, 2 group, 0 usable (R264). -/
def rectCode (s : State) (n : Nat) : Nat :=
  let w := s.rd (F.CHK_OSIZE_W n)
  let h := s.rd (F.CHK_OSIZE_H n)
  if !(s.on (F.CHK_OCFG_EN n)) then 0
  else if w = 0 || h = 0 || pixW s < s.rd (F.CHK_OPOS_X n) + w || pixL s < s.rd (F.CHK_OPOS_Y n) + h then 1
  else if s.on (F.CHK_OCFG_LINK n) && !((s.rd F.DRV_LGVALID_VALID).testBit (s.rd (F.CHK_OCFG_GROUP n))) then 2 else 0

/-- The fence fixes each rectangle's code for its frame (R264). -/
def showRects (s : State) : State := forIdx 8 s fun s n => s.wr (F.CHK_OCFG_BAD n) (rectCode s n)

/-- Judges a rectangle at the fence that takes it over (R264). -/
def judgeRect (s : State) (n : Nat) : State :=
  let code := rectCode s n
  let s1 := s.wr (F.CHK_OCFG_BAD n) code
  if code = 0 then s1 else raise s1 421 (d2 n code)

/-- Whether a lamp belongs to rectangle `n`. -/
def inRect (s : State) (n i : Nat) : Bool :=
  let p := tripletPixel s (i - i % 3)
  decide (s.rd (F.CHK_OPOS_X n) ≤ p.1) && decide (p.1 < s.rd (F.CHK_OPOS_X n) + s.rd (F.CHK_OSIZE_W n)) &&
  decide (s.rd (F.CHK_OPOS_Y n) ≤ p.2) && decide (p.2 < s.rd (F.CHK_OPOS_Y n) + s.rd (F.CHK_OSIZE_H n)) &&
  (!(s.on (F.CHK_OCFG_LINK n)) || isMember s (s.rd (F.CHK_OCFG_GROUP n)) i)

/-- The output CRC of rectangle `n` over lamps with their 18-bit values, ascending (R265). -/
def rectCrc (s : State) (n : Nat) (vals : Table Nat) : Nat :=
  crc32 ((List.range 16).flatMap fun p =>
    bytesBE 4 (crc32 ((vals.filter fun e => lampPort e.1 == p && inRect s n e.1).flatMap fun e => bytesBE 3 e.2)))

def skipCheck (s : State) (side cause : Nat) : State := raiseLim s 418 secPs (d2 side cause)

/-- Handles rectangle `n` of a frame read out by the first row of R266 that applies. -/
def checkRect (s : State) (r : Readout) (vals : Table Nat) (n : Nat) : State :=
  let got := rectCrc s n vals
  let last := s.rd (F.CHK_OLAST_CRC n)
  let g := s.rd (F.CHK_OCFG_GROUP n)
  let link := s.on (F.CHK_OCFG_LINK n)
  let host := s.on (F.CHK_OCFG_SRC n)
  let s1 := s.wr (F.CHK_OLAST_CRC n) got
  let judged := fun (s : State) => s.modChk fun c => { c with judged := c.judged ||| 2 ^ n }
  let unjudged := fun (s : State) => s.modChk fun c => { c with judged := if c.judged.testBit n then c.judged - 2 ^ n else c.judged }
  let skip := fun (s : State) => judged (skipCheck (s.bump F.CHK_SKIP_OUT_SKIP 1) 2 3)
  let compare := fun (s : State) (want : Nat) =>
    if got = want then judged s
    else
      let s2 := raise (s.bump F.CHK_CNT_OUT_FAIL 1) 417 (d2 n (b2n host) ++ bytesLE 6 r.frame ++ bytesLE 4 got ++ bytesLE 4 want)
      let first := ((membersOf s g).find? (inRect s n)).getD 0
      judged (if link then latchGroup s2 g 5 first else s2)
  if !(s.on (F.CHK_OCFG_EN n)) || !(s.on F.CHK_CTL_OUT_EN) || s.rd (F.CHK_OCFG_BAD n) ≠ 0 || (link && r.blanked.testBit g) then unjudged s1
  else if host && link && !(r.forced.testBit g) then skip s1
  else if host && r.thr = 16 then compare s1 (s.rd (F.CHK_OEXP_EXP n))
  else if s.chk.comparable && s.chk.judged.testBit n then compare s1 last
  else skip s1

/-! Input bands (R260 to R263). -/

/-- The CRC of band `b` of the shown buffer (R261). -/
def bandCrc (s : State) (b : Nat) : Nat :=
  let l := pixL s
  let w := pixW s
  let lo := b * l / 8
  crc32 ((List.range ((b + 1) * l / 8 - lo)).flatMap fun i => (List.range w).flatMap fun x =>
    let d := dramRead s (fbAddr s (fbShown s) (lo + i) x) 6
    bytesBE 2 (leAt d 0 2) ++ bytesBE 2 (leAt d 2 2) ++ bytesBE 2 (leAt d 4 2))

/-- `n` bands skipped with a cause (R263). -/
def skipBands (s : State) (n cause : Nat) : State := if n = 0 then s else skipCheck (s.bump F.CHK_SKIP_IN_SKIP n) 1 cause

/-- The read-back pass reads every line of the shown buffer; the controller counts what it cannot read (R263, R343). -/
def readBack (s : State) : State := (List.range (pixL s)).foldl (fun s y => (dramFetch s (fbAddr s (fbShown s) y 0) (6 * pixW s)).1) s

/-- The read-back pass ends, after the readout: every band is compared or skipped (R263). -/
def readbackDone (s : State) : State :=
  match s.chk.pass, s.pix.reading with
  | some (frame, want, missing), none =>
    let s0 := s.modChk fun c => { c with pass := none }
    if !(s.on F.CHK_CTL_IN_EN) then s0
    else match want with
      | none => skipBands s0 8 1
      | some exp =>
        let s1 := skipBands (readBack s0) (popCount 8 missing) 2
        let judged := (List.range 8).filter fun b => !(missing.testBit b)
        let s2 := judged.foldl (fun s b => (s.wr (F.CHK_ILAST_CRC b) (bandCrc s0 b)).wr (F.CHK_IEXP_CRC b) (exp.getD b 0)) s1
        let failed := judged.filter fun b => bandCrc s0 b != exp.getD b 0
        match failed with
        | [] => s2
        | b :: _ => raise (s2.bump F.CHK_CNT_IN_FAIL failed.length) 416 (d2 (failed.foldl (fun m b => m + 2 ^ b) 0) 0 ++ bytesLE 6 frame ++
            bytesLE 4 (bandCrc s0 b) ++ bytesLE 4 (exp.getD b 0))
  | _, _ => s

/-- A pass still running at the next fence: the bands that no earlier row covers are skipped with cause 4 (R263). [log 155 DESIGN CHOICE] -/
def readbackLate (s : State) : State :=
  match s.chk.pass with
  | none => s
  | some (_, want, missing) =>
    let s0 := s.modChk fun c => { c with pass := none }
    if !(s.on F.CHK_CTL_IN_EN) then s0
    else if want.isNone then skipBands s0 8 1
    else skipBands (skipBands s0 (popCount 8 missing) 2) (8 - popCount 8 missing) 4

/-! Readout (R187, R243, R265). -/

/-- An uncorrectable array entry was met (R201): array 1 to 5. -/
def arrayUe (s : State) (array index : Nat) : State :=
  let s1 := match array with
    | 4 => s.modPix fun p => { p with tmatBad := p.tmatBad ||| 2 ^ index }
    | 5 => s.modPix fun p => { p with crcBad := p.crcBad.set 0 index 1 }
    | a => s.modPix fun p => { p with lutBad := p.lutBad.set 0 ((a - 1) * 4096 + index) 1 }
  raise s1 324 (d2 array 0 ++ bytesLE 2 index)

/-- The outputs of a readout in load order with the pixels that met R186's error rule and what they showed. -/
def outputs (s : State) (r : Readout) (faults : List (Nat × Nat)) : List LampOut × List (Nat × List Nat) :=
  let g := scaleG s r
  ((loadOrder s).foldl (fun a i =>
    let q := tripletPixel s i
    let px := readPixel s r q.1 q.2
    (a.1 ++ triplet s r g faults px.1 i, if px.2 then a.2 ++ [((q.2 * pixW s + q.1) * 6, px.1)] else a.2)) ([], []))

/-- The controller counts a pixel's failed reads; what was shown is written back into the shown buffer (R186, R343). -/
def repairPixel (r : Readout) (s : State) (e : Nat × List Nat) : State :=
  let s1 := (dramFetch (dramFetch s (r.src + e.1) 6).1 (r.prev + e.1) 6).1
  if r.src = r.prev then s1 else dramWrite s1 (r.src + e.1) (e.2.flatMap (bytesLE 2))

/-- PIX_FBSTAT.FB_UE and PIX_FB_UE, once for a frame (R186). -/
def tellFbUe (s : State) (n : Nat) : State := if n = 0 then s else raise (s.bump F.PIX_FBSTAT_FB_UE n) 332 (d2 0 0 ++ bytesLE 4 n)

/-- The lamps substituted in a frame are counted and reported; the first is the first read out (R195). [log 85 DEDUCED] -/
def tellSubst (s : State) (subs : List LampOut) (frame : Nat) : State :=
  match subs with
  | [] => s
  | o :: _ => raise (count (s.bump F.PIX_RESCNT_LAMPS subs.length) 41 subs.length) 320
      (d2 0 0 ++ bytesLE 4 subs.length ++ bytesLE 3 o.lamp ++ bytesLE 1 0 ++ bytesLE 6 frame)

/-- LOAD of the lamps that were sent, device by device in the order scan line, channel (R239, R243). -/
def loadLamps (s : State) (dither : Bool) (sent : List LampOut) : State :=
  (usedPorts s).foldl (fun s p => (List.range (dcount s p)).foldl (fun s d =>
    let l := sent.filter fun o => lampPort o.lamp == p && lampDev o.lamp == d
    if l.isEmpty then s else dlSend s p opLoad d (l.map fun o => stage9 dither o.f)) s) s

/-- Lamps still unsent at the load deadline: PIX_UNDERRUN, the legend latch (R187, R243, R257). -/
def tellUnderrun (s : State) (late : List LampOut) (frame : Nat) : State :=
  if late.isEmpty then s
  else late.foldl (fun s o => latchLamp s 7 o.lamp)
    (raise (s.bump F.DRV_STAT_UNDERRUNS 1) 331 (d2 0 0 ++ bytesLE 4 late.length ++ bytesLE 4 0 ++ bytesLE 6 frame))

/-- The readout of a frame ends, `undelivered` lamps not sent; a link that does not run is sent nothing (R187, R195, R243, R265 to R267). -/
def endReadout (s : State) (faults : List (Nat × Nat)) (arrays : List (Nat × Nat)) (undelivered : Nat) : State :=
  match s.pix.reading with
  | none => s
  | some r =>
    let s0 := arrays.foldl (fun s e => arrayUe s e.1 e.2) (s.modPix fun p => { p with reading := none })
    let res := outputs s0 r faults
    let outs := res.1
    let due := if drvRuns s then outs.filter fun o => answers s o.lamp else []
    let dither := s.on F.PIX_CTL_DITHER
    let subs := outs.filter (·.subst)
    let zeroed := outs.filter (·.zeroed)
    let s1 := loadLamps s0 dither (due.take (due.length - undelivered))
    let ue := r.ue + res.2.length
    let s2 := tellFbUe (res.2.foldl (repairPixel r) s1) ue
    let s3 := tellSubst s2 subs r.frame
    let s4 := zeroed.foldl (fun s o => latchLamp s 6 o.lamp) (s3.bump F.PIX_RESCNT_DARKED (outs.filter (·.darked)).length)
    let s5 := tellUnderrun s4 (due.drop (due.length - undelivered)) r.frame
    let vals := outs.foldl (fun t o => Table.set (2 ^ 18) t o.lamp (stage9 dither o.f)) []
    let s6 := forIdx 8 s5 fun s n => checkRect s r vals n
    let clean := subs.isEmpty && zeroed.isEmpty && arrays.isEmpty && ue = 0 && outs.all fun o => !(liveBad s o.lamp)
    (s6.modPix fun p => { p with faulty := !clean }).modChk fun c => { c with clean := clean }

/-- Bands that hold a line of a segment missing from the frame: pixels of the line not covered (R263). -/
def missingBands (s : State) : Nat :=
  (List.range 8).foldl (fun m b =>
    let l := pixL s
    let lines := (List.range ((b + 1) * l / 8 - b * l / 8)).map (b * l / 8 + ·)
    let full := fun y => ((s.pix.segs.filter fun e => e.line == y && e.count != 0).foldl (fun n e => n + e.count) 0) == pixW s
    if lines.all full then m else m + 2 ^ b) 0

/-- One pixel that is not in the shown buffer comes from the previous one, or is 0 where that is uncorrectable (counted) (R186). -/
def takePixel (src dst y : Nat) (a : State × Nat) (x : Nat) : State × Nat :=
  let d := dramFetch a.1 (fbAddr a.1 src y x) 6
  (dramWrite d.1 (fbAddr a.1 dst y x) (if d.2.2 then d.2.1 else [0, 0, 0, 0, 0, 0]), a.2 + b2n (!d.2.2))

/-- Spans of the frame not written into the fill buffer are taken from the buffer shown before (R186); with the pixels that could not be read. -/
def fillSpans (s : State) (src dst : Nat) : State × Nat :=
  (List.range (pixL s)).foldl (fun a y =>
    let segs := s.pix.segs.filter fun e => e.line == y && !e.same
    ((List.range (pixW s)).filter fun x => !(segs.any fun e => decide (e.x ≤ x) && decide (x < e.x + e.count))).foldl (takePixel src dst y) a) (s, 0)

/-- Clears what belongs to one fill frame and takes the next. -/
def nextFill (s : State) (n : Nat) : State :=
  s.modPix fun p => { p with fillFrame := some ((n + 1) % 2 ^ 48), segs := [], total := none, fmt := none, differs := false, geomTold := false, aheadTold := false, expect := none, changed := false, woke := false }

/-- Whether the frame's segments match the record (first condition of R203). -/
def segmentsSame (s : State) : Bool :=
  let p := s.pix
  !p.differs && (p.total.all fun t => t == p.lastTotal) && (p.fmt.all fun f => f == p.recFmt)

/-- Zones a substitute zone may stand for: the nibble of CAL_ZSUB. -/
def zsubZone (s : State) (z : Nat) : Nat := bits (s.reg R.CAL_ZSUB) (4 * z) 3
def zsubOn (s : State) (z : Nat) : Bool := (s.reg R.CAL_ZSUB).testBit (4 * z + 3)

/-- The temperature of zone `z` for a pass: its value and the zone used where it is a substitute (R219). -/
def zoneTheta (s : State) (z : Nat) : Nat × Option Nat :=
  if s.on (F.HK_VAL_SUBST (4 + z)) then
    let t := zsubZone s z
    if zsubOn s z && !((s.rd F.HK_FAILED_FAILED).testBit (4 + t)) then (s.rd (F.HK_VAL_VALUE (4 + t)), some t)
    else (s.cal.theta.get 0 z, some 255)
  else (s.rd (F.HK_VAL_VALUE (4 + z)), none)

/-- A zone's temperature moved by more than CAL_DT since the last completed pass (R219, R222). -/
def zoneMoved (s : State) : Bool :=
  anyIdx 8 fun z =>
    let d := signed (zoneTheta s z).1 16 - signed (s.cal.done.get 0 z) 16
    decide ((s.rd1 F.CAL_MODE_CAL_DT : Int) < d) || decide (d < -(s.rd1 F.CAL_MODE_CAL_DT : Int))

/-- The blend engine's condition of R203: off, or idle after a completed pass with nothing to swap. [log 86 DEDUCED] -/
def blendSteady (s : State) : Bool :=
  !(s.on F.CAL_CTL_BLEND_EN) || (s.cal.everDone && !s.cal.due && !(zoneMoved s) && s.rd F.CAL_STAT_ENG == 0 && !(s.on F.PIX_BANK_READY))

/-- Whether the frame taken at this fence is steady (R203). -/
def steadyNow (s : State) : Bool :=
  segmentsSame s && !s.pix.changed && !s.pix.faulty && blendSteady s && !(s.on F.PIX_BANK_COPY_BUSY)

/-- The base of the DRAM area in force (R395). [log 84 DEDUCED] -/
def liveArea (s : State) : Nat := 4096 * (if s.on F.UPD_STAT_LIVE_AREA then s.rd F.UPD_AREA1_BASE else s.rd F.UPD_AREA0_BASE)

/-- Starts the readout of frame `n`: what governs it is fixed (R187); `ue` as in `Readout`. [log 84 DEDUCED] -/
def startReadout (s : State) (n ue : Nat) : State :=
  let safe := s.mode = mSafe
  let base := fun k => s.rd F.PIX_FBBASE_BASE * 4096 + k * 0x180000
  let r : Readout := {
    frame := n, thr := s.rd F.HK_STAT_THR, amb := s.rd F.PIX_AMB_AMB, forced := s.rd F.DRV_LGFORCE_FORCE &&& s.rd F.DRV_LGVALID_VALID,
    blanked := if safe then 2 ^ 32 - 1 else s.rd F.DRV_LGLATCH_LATCHED, masks := maskedLamps s,
    dark := !(s.on F.PIX_CTL_EN) || s.pix.initWait || (safe && (mcState s 0 == 5 || !(s.on F.UPD_STAT_LOADED))),
    src := if safe then liveArea s else base (fbShown s), prev := if safe then liveArea s else base (fbPrev s), ue := ue }
  let s1 := count s 39 1
  s1.modPix fun p => { p with reading := some r, shown := n }

/-- Enters RUN-quiet at the fence of `n` (R202, R203). -/
def enterQuiet (s : State) (n : Nat) : State :=
  let s1 := ((s.wr F.PIX_QSTAT_STATE 1).wr F.SYS_MSTAT_QUIET 1).bump F.PIX_QSTAT_ENTRIES 1
  let s2 := raise (if s1.rd F.DRV_STAT_STATE = 2 then s1.wr F.DRV_STAT_STATE 3 else s1) 327 (d2 0 0 ++ bytesLE 6 n)
  let s3 := s2.modPix fun p => { p with lastTotal := p.total.getD p.lastTotal }
  count (nextFill (askSr s3 0 true) n) 40 1

/-- The segments missing at the fence are reported (R76, R77). -/
def reportMissing (s : State) (n : Nat) : State :=
  if s.isStandalone then s else
  let want := s.pix.total.getD s.pix.lastTotal
  let missing := want - s.pix.segs.length
  if missing = 0 then s else raise (s.bump F.CL_SEGSTAT_SEG_MISSING missing) 187 (bytesLE 2 missing ++ bytesLE 6 n)

/-- The frame's roles rotate and its missing spans are filled (R185, R186); with the pixels that could not be. -/
def rotate (s : State) : State × Nat :=
  let f := fbFill s
  let p := fbPrev s
  let old := fbShown s
  let s1 := (s.wr F.PIX_FBSTAT_SHOWN f).wr F.PIX_FBSTAT_FILL p
  if s.isStandalone then (s1, 0) else fillSpans s1 old f

/-- The pipeline at the fence of frame `n`; `flip`: a standalone device applies a flip (R185, R203, R321). -/
def pixFence (s : State) (n : Nat) (flip : Bool) : State :=
  let s0 := readbackLate (if s.rd F.PIX_QSTAT_STATE = 2 then quietWakeDone s else s)
  if !s0.displays then nextFill (s0.wr F.PIX_QSTAT_STEADY 0) n
  else
    let s1 := reportMissing s0 n
    let comparable := segmentsSame s1 && !s1.pix.changed && s1.chk.clean && !flip
    let steady := steadyNow s1 && !flip && !s1.pix.woke
    let s2 := if steady then s1.bump F.PIX_QSTAT_STEADY 1 else s1.wr F.PIX_QSTAT_STEADY 0
    if s2.quiet then count (nextFill s2 n) 40 1
    else if steady && s2.mode = mRun && s2.on F.PIX_CTL_EN && s2.on F.PIX_CTL_QUIET_EN &&
        max 2 (s2.rd F.PIX_QUIET_QUIET_FRAMES) ≤ s2.rd F.PIX_QSTAT_STEADY then enterQuiet s2 n
    else
      let miss := missingBands s2
      let s3 := if s2.isStandalone && !flip then (s2, 0) else rotate s2
      let s4 := startReadout (showRects s3.1) n s3.2
      let s5 := s4.modPix fun p => { p with lastTotal := p.total.getD p.lastTotal, recFmt := p.fmt.getD p.recFmt }
      let s6 := s5.modChk fun c => { c with comparable := comparable, pass := if s.isCarriage && s.mode != mSafe then some (n, s.pix.expect, miss) else none }
      nextFill s6 n

end Sys2Proof.Machine
end

