-- ==== Sys2Proof/Machine/DrvOps.lean ====
section
/-! DEFINITION. Machine/DrvOps.lean: the Drive Link sequencer, enumeration and replies, the lamp rail (chapter *Lamp drive:
Drive Link, lamp rail and legend groups*). -/
namespace Sys2Proof.Machine

def witTime (s : State) : Nat := s.rd F.CAL_WITLVL_WIT_TIME
/-- LINE_T and LIGHT_DLY in force (R245). -/
def lineT (s : State) : Nat := if s.drv.lineT = 0 then s.rd F.DRV_LINE_LINE_T else s.drv.lineT
def lightDly (s : State) : Nat := if s.drv.lightDly = 0 then clamp 500 5000 (s.rd F.DRV_TIME_LIGHT_DLY) else s.drv.lightDly
/-- The RATE of the last intact mark; a standalone device has its own generator's (R244). [log 152 DEDUCED] -/
def linkRate (s : State) : Nat := if s.isStandalone then (s.gen 0).rate else s.rd F.WT_FMARK_RATE
/-- P_DL and T_SUB in DL_CLK periods (R244). -/
def pDl (s : State) : Nat := match rateFrac (linkRate s) with | some (n, d) => d * 200000000 / n | none => 0
def tSub (s : State) : Nat := match rateFrac (linkRate s) with | some (n, d) => d * 200000000 / (n * subframes s) | none => 0

/-- The first failing check of R245. -/
def topoCheck (s : State) : Option Nat :=
  let inside := fun i => let p := tripletPixel s i; decide (p.1 < pixW s) && decide (p.2 < pixL s)
  let top := (List.range 16).foldl (fun m p => max m (dcount s p)) 0
  if !((List.range 16).all fun p => (portTriplets s p).all inside) then some 1
  else if s.rd F.DRV_LINE_LINE_T ≤ s.rd F.DRV_LINE_BLANK_T || s.rd F.DRV_LINE_LINE_T < 256 then some 2
  else if (clamp 500 5000 (s.rd F.DRV_TIME_LIGHT_DLY) - 10) * 100000 < 101 * top * (48 * scanLines s + 1) * 50 then some 3
  else if anyIdx 32 fun g => (badRange s g).isSome then some 4
  else if 6 ≤ s.rd F.DRV_TOPO_CORDER then some 5
  else none

/-- Evaluates the two conditions that depend on the rate at a first mark or a rate change (R245). -/
def adaptTiming (s : State) : State :=
  let need := scanLines s * s.rd F.DRV_LINE_LINE_T + (witTime s + 5) * 200
  let slotBad := decide (tSub s < need)
  let per := pDl s / 200
  let lightBad := decide (per - 200 < clamp 500 5000 (s.rd F.DRV_TIME_LIGHT_DLY))
  let want := (if slotBad then (tSub s - (witTime s + 5) * 200) / scanLines s else 0, if lightBad then per - 200 else 0)
  if !(s.on F.DRV_CTL_EN) || pDl s = 0 || want = s.drv.adapt.getD (s.drv.lineT, s.drv.lightDly) then s
  else
    let s1 := (s.modDrv fun d => { d with adapt := some want, adaptTold := false }).wr F.DRV_STAT_ADAPTED (b2n (slotBad || lightBad))
    let s2 := if slotBad then raise s1 379 (d2 1 0) else s1
    if lightBad then raise s2 379 (d2 2 0) else s2

/-! Replies (R241, R248 to R250) and enumeration (R240, R246, R250). -/

def replyCrc (bits : Nat) : Nat := crcBits 6 0x03 0x3F (natBits 24 bits)

/-- A reply is valid for position `d`: its CRC-6 and its DEV (R241). -/
def replyOk (bits crc d : Nat) : Bool := replyCrc bits == crc && Machine.bits bits 19 5 == d

/-- A request without a valid reply is counted and reported (R241). -/
def countRetErr (s : State) (p : Nat) : State := raiseLim (s.bump (F.DRV_PSTAT_RETERR p) 1) 373 secPs (d2 p 0)

/-- A device gave no valid reply: RET_LOST of them in a row make it lost (R241, R250). -/
def missed (s : State) (p d : Nat) : State :=
  let n := s.drv.misses.get 0 (p * 32 + d) + 1
  let s1 := countRetErr (s.modDrv fun x => { x with misses := x.misses.set 0 (p * 32 + d) n }) p
  let l := s.rd (F.DRV_PLOST_LOST p)
  if s.rd1 F.DRV_POLL_RET_LOST ≤ n && !(l.testBit d) then raise (s1.wr (F.DRV_PLOST_LOST p) (l ||| 2 ^ d)) 369 (d2 p d) else s1

/-- A device's valid reply: it is no longer lost; whether its fault queue holds more (R248, R250). -/
def devAlive (s : State) (p d : Nat) (more : Bool) : State :=
  let s1 := s.modDrv fun x => { x with misses := x.misses.set 0 (p * 32 + d) 0, pend := x.pend.set 0 (p * 32 + d) (b2n more) }
  let l := s.rd (F.DRV_PLOST_LOST p)
  if l.testBit d then raise (s1.wr (F.DRV_PLOST_LOST p) (l - 2 ^ d)) 370 (d2 p d) else s1

/-- CONFIG of every device of a port: S, LINE_T, BLANK_T, IGAIN, WIT_TIME by broadcast, then PHASE (R246, R247). -/
def configPort (s : State) (p : Nat) : State :=
  let bc := [(0, s.rd F.DRV_TOPO_S_M1), (1, lineT s), (2, s.rd F.DRV_LINE_BLANK_T), (4, s.rd F.DRV_TOPO_IGAIN), (5, witTime s * 200)]
  let s1 := bc.foldl (fun s e => dlSend s p opConfig 32 [e.1, e.2]) s
  let w := zeroAs1 (lineT s - s.rd F.DRV_LINE_BLANK_T)
  (List.range (dcount s p)).foldl (fun s d => dlSend s p opConfig d [3, (d * 16 + p) * s.rd F.DRV_TIME_PHASE_STEP % w]) s1

/-- ENUM of position `d` of port `p` with the reply that came: a device found, the extra device of a longer chain, or no valid reply; that
nothing answers the extra ENUM is no error (R240, R241). [log 87 DEDUCED] -/
def enumAsk (replies : List EnumReply) (p : Nat) (s : State) (d : Nat) : State :=
  let s1 := dlSend s p opEnum d []
  let extra := dcount s p == d
  match replies.find? fun r => r.port.val == p && r.pos.val == d with
  | some r =>
    if !(replyOk r.bits.toNat r.crc.toNat d) then (if extra then countRetErr s1 p else missed s1 p d)
    else if extra then s1.wr (F.DRV_PSTAT_LONG p) 1
    else (devAlive s1 p d (bitAt r.bits.toNat 12)).modDrv fun x => { x with answered := x.answered.set 0 p (x.answered.get 0 p ||| 2 ^ d) }
  | none => if extra then s1 else missed s1 p d

/-- Enumerates port `p`: RESET, ENUM of every position and of one more, then CONFIG (R240, R246). -/
def enumPort (s : State) (replies : List EnumReply) (p : Nat) : State :=
  let dc := dcount s p
  let s0 := ((dlSend s p opReset 0 []).wr (F.DRV_PSTAT_LONG p) 0).modDrv fun x => { x with answered := x.answered.set 0 p 0, request := x.request.set 0 p 0 }
  let s1 := (List.range (if dc < 32 then dc + 1 else dc)).foldl (enumAsk replies p) s0
  let got := popCount 32 (s1.drv.answered.get 0 p)
  let s2 := s1.wr (F.DRV_PSTAT_FOUND p) got
  let s3 := if got < dc then raise s2 368 (d2 p got ++ bytesLE 1 1) else s2
  configPort (if s3.on (F.DRV_PSTAT_LONG p) then raise s3 368 (d2 p got ++ bytesLE 1 2) else s3) p

/-- Enumerates every used port. -/
def enumerate (s : State) (replies : List EnumReply) : State :=
  (usedPorts s).foldl (fun s p => enumPort s replies p) (s.modDrv fun d => { d with enumDue := false })

/-- LOAD of zeros to every device that answered (R250). -/
def loadZeros (s : State) : State :=
  (usedPorts s).foldl (fun s p => ((List.range (dcount s p)).filter fun d => answers s (lampIndex p d 0 0)).foldl (fun s d =>
    dlSend s p opLoad d (List.replicate (48 * scanLines s) 0)) s) s

/-! The rail (R251 to R254). -/

def pinRailEn : Nat := 2
def State.modRail (s : State) (f : Rail → Rail) : State := s.modDrv fun d => { d with rail := f d.rail }
def railState (s : State) : Nat := s.rd F.DRV_RAIL_STAT_STATE
def vSet (s : State) : Nat := 2800000 + 25000 * s.rd F.DRV_RAIL_STAT_CODE
/-- The upper limit of CODE: VMAX, or VSAFE in SAFE (R252). -/
def codeMax (s : State) : Nat :=
  let v := min 88 (s.rd F.DRV_RAIL_V_VMAX)
  if s.mode = mSafe then min v (s.rd F.DRV_RAIL_V_VSAFE) else v

/-- CODE stays within its limits (R252). -/
def railClamp (s : State) : State :=
  s.wr F.DRV_RAIL_STAT_CODE (min (codeMax s) (max (s.rd F.DRV_RAIL_V_VMIN) (s.rd F.DRV_RAIL_STAT_CODE)))

/-- ilim_eff: the limit scaled by the THR of the frame being shown (R254). -/
def ilimEff (s : State) : Nat := (s.rd F.DRV_RAIL_ILIM_ILIM * s.drv.thr + 8) / 16

def railPin (s : State) (level : Nat) : State := { s with out := s.out ++ [.pin pinRailEn level] }

/-- Soft start (R253): vref begins at the measured voltage, CODE at VSTART. [log 89 DESIGN CHOICE] -/
def railStart (s : State) : State :=
  if !(s.on F.DRV_RAIL_CTL_EN) then s
  else
    let s1 := railClamp ((s.wr F.DRV_RAIL_STAT_CODE (s.rd F.DRV_RAIL_V_VSTART)).wr F.DRV_RAIL_STAT_STATE 1)
    let v := s.rd F.DRV_RAIL_MEAS_V * 6250
    railPin (s1.modRail fun r => { r with vref := v, acc := 0, e1 := 0, e2 := 0, duty := 0, ovr := 0, good := true, run := 0, maxTold := false, uvTold := false }) 1

/-- The rail goes off, BLANK first, with DRV_RAIL_OFF (R253). [log 91 DEDUCED, 103 DEDUCED] -/
def railStop (s : State) (cause : Nat) : State :=
  if railState s = 0 || railState s = 4 then s
  else raise (railPin (s.wr F.DRV_RAIL_STAT_STATE 0) 0) 386 (d2 cause 0)

/-- The compensator's step for a sample (R251): accumulator and duty. [log 89 DESIGN CHOICE] -/
def railLaw (s : State) (v i : Nat) : Int × Int × Nat :=
  let r := s.drv.rail
  let e : Int := (r.vref / 6250 : Nat) - (v : Int)
  let kp := s.rd F.DRV_RAIL_PID_KP
  let ki := s.rd F.DRV_RAIL_PID_KI
  let kd := s.rd F.DRV_RAIL_PID_KD
  let acc := satI 24 (r.acc + kp * (e - r.e1) + ki * e + kd * (e - 2 * r.e1 + r.e2))
  let duty := (clampI 0 (s.rd F.DRV_RAIL_CTL_DMAX) (acc / 256)).toNat
  (e, acc, if ilimEff s < i then min duty (r.duty - 16) else duty)

/-- A switching period (R251, R253, R254), with whether it found an overvoltage. [log 89 DESIGN CHOICE] -/
def railStep (s : State) (v i : Nat) : State × Bool :=
  let st := railState s
  if st = 0 || st = 4 then (s, false)
  else
    let r := s.drv.rail
    let set := vSet s
    let inc := 250000 / clamp 25 200 (s.rd F.DRV_RAIL_CTL_FSW)
    let vref := if r.vref ≤ set then min set (r.vref + inc) else max set (r.vref - inc)
    let s0 := s.modRail fun r => { r with vref := vref }
    let law := railLaw s0 v i
    let lim := decide (ilimEff s < i)
    let ovr := if min 5300000 (set + 25000 * s.rd F.DRV_RAIL_PROT_OV_MARGIN) < 6250 * v then r.ovr + 1 else 0
    let s1 := s0.modRail fun q => { q with e2 := q.e1, e1 := law.1, acc := law.2.1, duty := law.2.2, ovr := ovr, sumV := q.sumV + v, sumI := q.sumI + i, n := q.n + 1 }
    let s2 := if set - 25000 * s.rd F.DRV_RAIL_PROT_UV_MARGIN ≤ 6250 * v then s1.modRail fun q => { q with uvTold := false } else s1
    let s3 := if lim then raiseLim s2 384 secPs (d2 0 0 ++ bytesLE 2 i) else s2
    if 2 ≤ ovr then
      let s4 := dlAll (railPin (s3.wr F.DRV_RAIL_STAT_STATE 4) 0) opBlank 0 []
      (raise s4 382 (d2 0 0 ++ bytesLE 2 v), true)
    else if st = 1 then
      if set ≤ 6250 * v + 50000 && 6250 * v ≤ set + 50000 && vref = set then
        (raise (s3.wr F.DRV_RAIL_STAT_STATE 2) 381 (d2 (s.rd F.DRV_RAIL_STAT_CODE) 0), false)
      else (s3, false)
    else (s3.wr F.DRV_RAIL_STAT_STATE (if lim then 3 else 2), false)

/-- UV_TIME passed below the margin while limited (R253). -/
def railUv (s : State) (v : Nat) : State :=
  let r := s.drv.rail
  if (railState s = 2 || railState s = 3) && 6250 * v + 25000 * s.rd F.DRV_RAIL_PROT_UV_MARGIN < vSet s &&
      (r.duty = s.rd F.DRV_RAIL_CTL_DMAX || railState s = 3) && !r.uvTold then
    raise (s.modRail fun r => { r with uvTold := true }) 383 (d2 0 0 ++ bytesLE 2 v)
  else s

/-- The law of R252 on a STAT reply. -/
def railHead (s : State) (head : Nat) : State :=
  if railState s < 2 || railState s = 4 then s else
  let s0 := s.modRail fun r => { r with headMin := min r.headMin head, good := r.good && decide (s.rd F.DRV_RAIL_TRK_HR_TGT ≤ head) }
  if s.rd F.DRV_RAIL_TRK_HR_MIN ≤ head then s0
  else
    let code := s.rd F.DRV_RAIL_STAT_CODE
    let top := codeMax s
    let hold := clamp 10 4095 (s.rd F.DRV_RAIL_TRK_UP_HOLD) * usPs
    let s1 := s0.modRail fun r => { r with good := false }
    let s2 := if s.drv.rail.lastRise.all (fun t => decide (t + hold ≤ s.now)) && code < top then
        ((s1.wr F.DRV_RAIL_STAT_CODE (min top (code + s.rd1 F.DRV_RAIL_TRK_UP_STEP))).bump F.DRV_RAIL_STAT_RISES 1).modRail fun r => { r with lastRise := some s.now, run := 0, maxTold := false }
      else s1
    if code < top || s.drv.rail.maxTold then s2
    else (raise s2 385 (d2 code 0)).modRail fun r => { r with maxTold := true }

/-- The law of R252 at a fence. -/
def railFence (s : State) : State :=
  if railState s < 2 || railState s = 4 then s
  else
    let all := (usedPorts s).all fun p => (List.range (dcount s p)).all fun d => let i := lampIndex p d 0 0
      deviceGone s i || (s.drv.asked.get 0 p).testBit d
    let r := s.drv.rail
    let run := if r.good && all then r.run + 1 else 0
    let code := s.rd F.DRV_RAIL_STAT_CODE
    let down := decide (s.rd1 F.DRV_RAIL_TRK_DOWN_FRAMES ≤ run)
    let s1 := if down then s.wr F.DRV_RAIL_STAT_CODE (max (s.rd F.DRV_RAIL_V_VMIN) (code - 1)) else s
    let s2 := s1.wr F.DRV_RAIL_STAT_HEAD_MIN r.headMin
    let s3 := s2.modDrv fun d => { d with asked := [] }
    s3.modRail fun r => { r with run := if down then 0 else run, good := true, headMin := 7, maxTold := r.maxTold && !down }

/-! The frame on the link (R242 to R245). -/

/-- DL_CLK of every used port starts or stops (R237, R246). -/
def dlClock (s : State) (on : Bool) : State := { s with out := s.out ++ (usedPorts s).map fun p => .dlClk p on }

/-- The link's first steps on entry to a displaying mode: word lock by 32 IDLE words, enumeration (R246). -/
def linkStart (s : State) (replies : List EnumReply) : State :=
  let s1 := (usedPorts s).foldl (fun s p => { s with out := s.out ++ [.dlWord p (List.replicate 32 idleWord)] }) s
  enumerate (s1.wr F.DRV_STAT_STATE 2) replies

/-- Drive Link and the rail start on entry to a displaying mode; each has its own enable (R246, R253). -/
def drvStart (s : State) (replies : List EnumReply) : State :=
  let s1 := if s.on F.DRV_CTL_EN && !(drvRuns s) then linkStart s replies else s
  if railState s1 = 0 || railState s1 = 4 then railStart (s1.modDrv fun d => { d with thr := s.rd F.HK_STAT_THR, thrNext := s.rd F.HK_STAT_THR }) else s1

/-- The link shows nothing more: BLANK on every used port, no readout (R246). [log 91 DEDUCED] -/
def linkOff (s : State) : State :=
  let s1 := if drvRuns s then (dlAll s opBlank 0 []).wr F.DRV_STAT_STATE 0 else s
  s1.modPix fun p => { p with reading := none }

/-- The display goes off: BLANK, then the rail (R246, R253). -/
def drvStop (s : State) (cause : Nat) : State := railStop (linkOff s) cause

/-- A write of DRV_CTL.EN = 1 (R245); in a displaying mode the link starts and enumerates at the next light instant. [log 91 DEDUCED] -/
def drvEnable (s : State) : State :=
  match topoCheck s with
  | some c => raise ((s.wr F.DRV_CTL_EN 0).wr F.DRV_STAT_TOPO_ERR c) 378 (d2 c 0)
  | none =>
    let s1 := s.wr F.DRV_CTL_EN 1
    if s.displays && !(drvRuns s) then (s1.wr F.DRV_STAT_STATE 2).modDrv fun d => { d with enumDue := true } else s1

/-- The Drive Link at the fence: LATCH on every port, the causes 2h to 4h of R257, the rail law (R242, R252, R257). -/
def drvFence (s : State) : State :=
  let s0 := railFence s
  let s1 := if s.rd F.DRV_STAT_STATE = 2 then dlAll s0 opLatch 0 [lightDly s * 50] else s0
  let s2 := s1.modDrv fun d => { d with thrNext := s.rd F.HK_STAT_THR }
  if !(s.displays) then s2
  else (validGroups s).foldl (fun s g =>
    match groupCause s (maskedLamps s) g with
    | some (c, i) => latchGroup s g c i
    | none => s) s2

/-- LINE_T as an adaptation gives it: 0 stands for the written value (R245). -/
def lineTOf (s : State) (t : Nat) : Nat := if t = 0 then s.rd F.DRV_LINE_LINE_T else t

/-- The values that come into force at this light instant: an adaptation whose LINE_T the devices have been told, or need not be (R245). [log 153 DEDUCED] -/
def adaptNow (s : State) : State :=
  match s.drv.adapt with
  | some a =>
    if s.drv.adaptTold || lineTOf s a.1 = lineT s then s.modDrv fun d => { d with lineT := a.1, lightDly := a.2, adapt := none, adaptTold := false }
    else s
  | none => s

/-- The light instant: the drivers swap, subframe 0 starts, the current limit follows the frame; a pending enumeration runs and zeros are
loaded after it (R242, R244, R245, R250, R254). -/
def lightInstant (s : State) (replies : List EnumReply) : State :=
  if !(drvRuns s) then s
  else
    let frame := ((s.pix.fillFrame.getD 1) + 2 ^ 48 - 1) % 2 ^ 48
    let s1 := (adaptNow s).modDrv fun d => { d with sub := 0, sc := 0, frame := frame, thr := d.thrNext, wloaded := false }
    if s1.drv.enumDue then loadZeros (enumerate s1 replies) else s1

/-- The number of the subframe in hand (R244). -/
def subNumber (s : State) : Nat := s.drv.frame * subframes s + s.drv.sub

/-- Enabled sensors of the colour loop. -/
def sensors (s : State) : List Nat := (List.range 4).filter fun n => s.on (F.CAL_WIT_EN n)

/-- Lamps of a sensor's cluster with colour `k` (R227). -/
def clusterLamps (s : State) (n k : Nat) : List Nat :=
  let t := s.rd (F.CAL_WIT_TFIRST n)
  let c := if s.rd (F.CAL_WIT_TCOUNT n) = 0 then 16 else s.rd (F.CAL_WIT_TCOUNT n)
  ((List.range 3).flatMap fun j => (List.range (min c (16 - t))).map fun m =>
    lampIndex (s.rd (F.CAL_WIT_PORT n)) (s.rd (F.CAL_WIT_DEV n)) (s.rd (F.CAL_WIT_SC n)) (3 * (t + m) + j)).filter fun i => lampColour s i == k

/-- The drive value of a witness lamp (R228). -/
def witValue (s : State) (i k : Nat) : Nat :=
  let y := [0, 1, 2].map fun c => stage4 s c (if c = k then s.rd F.CAL_WITLVL_WIT_LVL else 0)
  let base := i - i % 3
  let lampOf := fun c => ((List.range 3).find? fun j => lampColour s (base + j) == c).getD c + base
  let d := [0, 1, 2].map fun c => stage5 (liveEntry s (lampOf c)) y
  stage9 false (stage6 s k d).toNat / 4

/-- Whether the WLOAD of a sensor's cluster can go out: its device is present (R235, R244). -/
def clusterThere (s : State) (n : Nat) : Bool := present s (lampIndex (s.rd (F.CAL_WIT_PORT n)) (s.rd (F.CAL_WIT_DEV n)) (s.rd (F.CAL_WIT_SC n)) 0)

/-- WLOAD of every enabled cluster for colour `k` (R239, R244). -/
def sendWloads (s : State) (k : Nat) : State :=
  ((sensors s).filter (clusterThere s)).foldl (fun s n =>
    let l := clusterLamps s n k
    let t := s.rd (F.CAL_WIT_TFIRST n)
    let ch := (l.headD 0) % 3
    dlSend s (s.rd (F.CAL_WIT_PORT n)) opWload (s.rd (F.CAL_WIT_DEV n))
      ((s.rd (F.CAL_WIT_SC n) + 32 * t + 512 * (l.length - 1) + 8192 * ch) :: l.map fun i => 4 * witValue s i k)) s

/-- The request of a port in a slot: FREAD to the lowest device with an entry pending, else STAT to the next position (R248). [log 87 DEDUCED] -/
def sendRequestSlot (s : State) (p : Nat) : State :=
  let n := dcount s p
  if n = 0 then s
  else match firstIdx n fun d => s.drv.pend.get 0 (p * 32 + d) != 0 with
    | some d => (dlSend s p opFread d []).modDrv fun x => { x with request := x.request.set 0 p (d * 2 + 2) }
    | none =>
      let d := s.drv.next.get 0 p % n
      let mask := s.drv.asked.get 0 p ||| 2 ^ d
      (dlSend s p opStat d []).modDrv fun x => { x with request := x.request.set 0 p (d * 2 + 1), next := x.next.set 0 p ((d + 1) % n), asked := x.asked.set 0 p mask }

/-- The length of the gap in hand in DL_CLK periods (R244). -/
def gapLen (s : State) : Nat :=
  (if s.drv.sub + 1 = subframes s then pDl s - (subframes s - 1) * tSub s else tSub s) - scanLines s * lineT s

/-- The gap in hand is too short for a sample (R244). -/
def gapShort (s : State) : Bool := decide (gapLen s < (witTime s + 5) * 200)

/-- Whether the gap of the subframe in hand is to be lit: a lit sample of R227, outside RUN-quiet, in a long enough gap. [log 88 DEDUCED] -/
def gapLit (s : State) : Bool := subNumber s % 6 % 2 == 1 && s.rd F.DRV_STAT_STATE == 2 && !(gapShort s)

/-- A slot starts: SCAN and one request per port (R244, R248). -/
def scanSlot (s : State) : State :=
  if !(drvRuns s) || scanLines s ≤ s.drv.sc then s
  else
    let sc := s.drv.sc
    let s1 := dlAll s opScan (sc + 32 * (subNumber s % 4) + 128 * b2n (sc == 0)) []
    let s2 := if sc = 0 && gapLit s then (sendWloads s1 (subNumber s % 6 / 2)).modDrv fun d => { d with wloaded := (sensors s).all (clusterThere s) } else s1
    ((usedPorts s).foldl sendRequestSlot s2).modDrv fun d => { d with sc := sc + 1 }

/-- CONFIG of an adapted LINE_T in the last gap before the light instant at which it comes into force (R245). [log 153 DEDUCED] -/
def tellLineT (s : State) : State :=
  match s.drv.adapt with
  | some a =>
    if s.drv.sub + 1 = subframes s && lineTOf s a.1 != lineT s then (dlAll s opConfig 32 [1, lineTOf s a.1]).modDrv fun d => { d with adaptTold := true }
    else s
  | none => s

/-- A gap starts: GAP, lit where every WLOAD went out, the sample it holds, the rail's averages of the subframe (R244). [log 88 DEDUCED] -/
def gapStart (s : State) : State :=
  if !(drvRuns s) then s
  else
    let k := subNumber s % 6
    let short := gapShort s
    let lit := gapLit s && s.drv.wloaded
    let s1 := dlAll s opGap (b2n lit) []
    let s2 := if short then raiseLim s1 380 secPs (d2 0 0) else s1
    let s3 := tellLineT s2
    let r := s.drv.rail
    let n := zeroAs1 r.n
    let s4 := (s3.wr F.DRV_RAIL_MEAS_V (r.sumV / n)).wr F.DRV_RAIL_MEAS_I (r.sumI / n)
    let s5 := if r.n = 0 then s3 else s4.modRail fun r => { r with sumV := 0, sumI := 0, n := 0 }
    s5.modDrv fun d => { d with gapSample := if short then none else some (k, lit), wloaded := false, sub := (d.sub + 1) % subframes s, sc := 0 }

/-! Replies to the requests of slots (R241, R248 to R250). -/

/-- The request in hand of a port ends without a valid reply (R241, R250). -/
def noReply (s : State) (p : Nat) : State :=
  let q := s.drv.request.get 0 p
  if q = 0 then s else missed (s.modDrv fun x => { x with request := x.request.set 0 p 0 }) p ((q - 1) / 2)

/-- A STAT reply of the device asked; one that did not answer enumeration takes no part in the rail's law (R248, R252). -/
def statReply (s : State) (p bits crc : Nat) : State :=
  let q := s.drv.request.get 0 p
  let d := (q - 1) / 2
  if q = 0 || q % 2 = 0 then s
  else if !(replyOk bits crc d) then noReply s p
  else
    let s1 := (devAlive s p d (bitAt bits 12)).modDrv fun x => { x with request := x.request.set 0 p 0 }
    if answers s1 (lampIndex p d 0 0) then railHead s1 (Machine.bits bits 16 3) else s1

/-- A fault entry: event, mask list, legend groups, wake (R249, R257). -/
def lampFault (s : State) (p d type sc ch : Nat) : State :=
  let i := lampIndex p d sc ch
  let lamps := if type = 3 then [i, i + 1] else [i]
  let s1 := count (raise (s.bump F.DRV_MASKCNT_FAULTS 1) 371 (d2 p d ++ bytesLE 1 type ++ bytesLE 1 sc ++ bytesLE 1 ch ++ bytesLE 3 i)) 61 1
  let s2 := if s.on F.DRV_CTL_AUTO_MASK then lamps.foldl (fun s l => maskLamp s l type) s1 else s1
  pixTouch (lamps.foldl (fun s l => latchLamp s 1 l) s2) 6

/-- A FREAD reply of the device asked (R249). -/
def freadReply (s : State) (p bits crc : Nat) : State :=
  let q := s.drv.request.get 0 p
  let d := (q - 1) / 2
  if q = 0 || q % 2 = 1 then s
  else if !(replyOk bits crc d) then noReply s p
  else
    let s1 := (devAlive s p d (bitAt bits 17)).modDrv fun x => { x with request := x.request.set 0 p 0 }
    if bitAt bits 18 then lampFault s1 p d (Machine.bits bits 15 2) (Machine.bits bits 10 5) (Machine.bits bits 4 6) else s1

end Sys2Proof.Machine
end

