-- ==== Sys2Proof/Machine/CalOps.lean ====
section
/-! DEFINITION. Machine/CalOps.lean: calibration sets, the blend engine, the colour loop and the ambient scale (chapter
*Temperature sets, self-calibration and the colour loop*). -/
namespace Sys2Proof.Machine

def State.modCal (s : State) (f : Cal → Cal) : State := { s with cal := f s.cal }

def ztemp (z : Nat) : FRef := if z % 2 = 0 then F.CAL_ZTEMP_V0 (z / 2) else F.CAL_ZTEMP_V1 (z / 2)
def pointRef (n : Nat) : FRef := if n % 2 = 0 then F.CAL_POINT_V0 (n / 2) else F.CAL_POINT_V1 (n / 2)

/-- Kept set point n (R215). -/
def point (s : State) (n : Nat) : Int := s.rdS (pointRef n)

/-- The zone of a lamp (R218). -/
def zoneOf (s : State) (i : Nat) : Nat :=
  let e := (lampPort i * 32 + lampDev i) * 4 + lampSc i / 8
  bits (s.reg (R.CAL_ZMAP (e / 8))) (4 * (e % 8)) 3

/-- Size of a set of `lamps` entries: rounded up to 4 KiB (R213). -/
def setSize (lamps : Nat) : Nat := ceilDiv (lamps * 6) 4096 * 4096

/-- The index in the section of kept set `n`. -/
def keptSet (s : State) (n : Nat) : Nat :=
  ((List.range 8).filter (s.rd F.CAL_LAMPS_VALIDMASK).testBit).getD n 0

/-- The address of entry `i` of kept set `n` (R213). -/
def setAddr (s : State) (n i : Nat) : Nat :=
  s.rd F.CAL_SETBASE_BASE * 4096 + 4096 + keptSet s n * setSize (s.rd F.CAL_LAMPS_LAMPS) + 6 * i

/-! Passes (R218 to R226). -/

/-- Displays, or is on its way to RUN or SERVICE (R222, R225). -/
def mayBlend (s : State) : Bool :=
  s.mode == mRun || s.mode == mService || (match s.sys.going with | some g => g.1 == mRun || g.1 == mService | none => false)

/-- Whether a pass may start now (R222, R223). [log 95 DEDUCED] -/
def passMayStart (s : State) : Bool :=
  s.on F.CAL_CTL_BLEND_EN && s.rd F.CAL_STAT_ENG == 0 && !(s.on F.PIX_BANK_READY) && !(s.on F.PIX_BANK_COPY_BUSY) && mayBlend s &&
  !(s.quiet) && !s.cal.retry && s.rd F.CAL_STAT_SETS != 0 && (s.on F.CAL_MODE_MODE || s.cal.due || zoneMoved s)

/-- One zone at the start of a pass: substitute, ZSTEP, CAL_ZTEMP, CAL_ZSUB and CAL_RANGE (R219, R220). -/
def takeZone (s : State) (z : Nat) : State :=
  let r := zoneTheta s z
  let prev := signed (s.cal.theta.get 0 z) 16
  let st : Int := s.rd1 F.CAL_MODE_ZSTEP
  let now := signed r.1 16
  let v := if s.cal.init then now else clampI (prev - st) (prev + st) now
  let s1 := (s.wr (ztemp z) (toBits v 16)).modCal fun c => { c with theta := c.theta.set 0 z (toBits v 16) }
  let s2 := match r.2 with
    | none => s1.modCal fun c => { c with subst := setBits c.subst z 1 0 }
    | some t => if s.cal.subst.testBit z then s1 else raise (s1.modCal fun c => { c with subst := c.subst ||| 2 ^ z }) 359 (d2 z t)
  let lo := decide (v < point s 0)
  let hi := decide (point s (s.rd F.CAL_STAT_SETS - 1) < v)
  let was := s.cal.range
  let s3 := if lo && !(was.testBit z) then raise s2 358 (d2 z 1) else if hi && !(was.testBit (8 + z)) then raise s2 358 (d2 z 2) else s2
  s3.modCal fun c => { c with range := setBits (setBits c.range z 1 (b2n lo)) (8 + z) 1 (b2n hi) }

/-- A pass starts: the temperatures are taken; what asked for it is served (R219, R222, R225). -/
def passStart (s : State) : State :=
  if !(passMayStart s) then s
  else
    let s1 := forIdx 8 s takeZone
    let s2 := (s1.wr F.CAL_STAT_ENG 1).wr F.CAL_STAT_INIT (b2n s1.cal.init)
    pixTouch (s2.modCal fun c => { c with init := false, due := false }) 5

/-- The set j and the weight w of a zone (R220). -/
def weight (s : State) (z : Nat) : Nat × Nat :=
  let n := s.rd F.CAL_STAT_SETS
  let t := signed (s.cal.theta.get 0 z) 16
  if t ≤ point s 0 then (0, 0)
  else if point s (n - 1) ≤ t then (n - 1, 0)
  else
    let j := (List.range n).foldl (fun m k => if point s k ≤ t then k else m) 0
    let d := point s (j + 1) - point s j
    (j, (((t - point s j) * 4096 + d / 2) / d).toNat)

/-- The interpolated entry of R220: three coefficients and DARK. -/
def interpolate (a b w : Nat) : List Int × Bool :=
  ((List.range 3).map fun k => (coef a k * ((4096 - w : Nat) : Int) + coef b k * (w : Int) + 2048) / 4096,
   entryDark a || (w != 0 && entryDark b))

def packEntry (e : List Int × Bool) : Nat :=
  toBits (e.1.getD 0 0) 12 + 4096 * toBits (e.1.getD 1 0) 12 + 2 ^ 24 * toBits (e.1.getD 2 0) 12 + 2 ^ 36 * b2n e.2

/-- The first failed check of R223 for a result `c` of a lamp of colour `k`, against the reference and the live entry. [log 96 DEDUCED] -/
def entryCheck (s : State) (k : Nat) (c : List Int) (ref live : Nat) (init residue : Bool) : Option Nat :=
  let within := fun (a b : Int) (m : Nat) => decide (a - b ≤ (m : Int)) && decide (b - a ≤ (m : Int))
  let all := fun (p : Nat → Bool) => allIdx 3 p
  if !(decide (s.rdS F.CAL_LIM1_DIAGMIN ≤ c.getD k 0) && all fun j => j == k || within (c.getD j 0) 0 (s.rd F.CAL_LIM0_OFFMAX)) then some 1
  else if !(all fun j => within (c.getD j 0) (coef ref j) (s.rd F.CAL_LIM1_MAXDEV)) then some 2
  else if !init && !(all fun j => within (c.getD j 0) (coef live j) (s.rd F.CAL_LIM0_MAXSTEP)) then some 3
  else if residue then some 4 else none

/-- A pass in hand: entries kept, the first of them with its check, whether an entry differs from the live bank. -/
structure PassSum where
  kept : Nat
  first : Option (Nat × Nat)
  changed : Bool
deriving DecidableEq, Repr

/-- One lamp of a pass: read, interpolate, check, write the shadow (R220 to R223). -/
def passLamp (residue : List Nat) (x : State × PassSum) (i : Nat) : State × PassSum :=
  let s := x.1
  let jw := weight s (zoneOf s i)
  let rd := fun (s : State) n => dramFetch s (setAddr s n i) 6
  let a := rd s jw.1
  let b := if jw.2 = 0 then a else rd a.1 (jw.1 + 1)
  let c := interpolate (leNat a.2.1) (leNat b.2.1) jw.2
  let ref := leNat (dramRead s (setAddr s (s.rd F.CAL_LAMPS_REF) i) 6)
  let live := liveEntry s i
  let chk := entryCheck s (lampColour s i) c.1 ref live (s.on F.CAL_STAT_INIT) (residue.contains i)
  let v := match chk with | none => packEntry c | some _ => live
  let sum := match chk with
    | none => { x.2 with changed := x.2.changed || v != live }
    | some k => { x.2 with kept := x.2.kept + 1, first := some (x.2.first.getD (i, k)) }
  (writeEntry b.1 (!(liveBank s)) i v, sum)

/-- The pass over the first `n` present lamps (R221). [log 96 DEDUCED] -/
def passWalk (s : State) (residue : List Nat) (n : Nat) : State × PassSum :=
  ((presentLamps s).take n).foldl (passLamp residue) (s, ⟨0, none, false⟩)

/-- The live bank is copied into the shadow after the swap of an INIT pass (R225). -/
def copyIfDue (s : State) : State :=
  if s.cal.copyAfter then startCopy (s.modCal fun c => { c with copyAfter := false }) true else s

/-- The swap of a READY shadow for the blend engine, at frame `n` (R224, R225). -/
def blendSwapped (s : State) (n : Nat) : State := copyIfDue ((swapBanks s 2 n).wr F.CAL_STAT_ENG 0)

/-- A pass ends (R221, R223, R225). [log 95 DEDUCED, 96 DEDUCED] -/
def passDone (s : State) (residue : List Nat) : State :=
  if s.rd F.CAL_STAT_ENG != 1 then s
  else
    let w := passWalk s residue 786432
    let k := w.2.kept
    let init := s.on F.CAL_STAT_INIT
    let s1 := (((w.1.bump F.CAL_BCNT_KEPT k).bump F.CAL_STAT_PASSES 1).wr F.CAL_STAT_ENG 0).wr F.CAL_STAT_INIT 0
    if s.rd F.CAL_LIM0_PLAUS_MAX < k then
      raise ((s1.bump F.CAL_BCNT_REJECTS 1).modCal fun c => { c with retry := true, due := true, init := c.init || init }) 357 (d2 0 0 ++ bytesLE 4 k)
    else
      let s2 := match w.2.first with
        | none => s1
        | some f => raise s1 356 (d2 f.2 0 ++ bytesLE 4 k ++ bytesLE 3 f.1)
      let s3 := s2.modCal fun c => { c with done := c.theta, everDone := true, copyAfter := init }
      if !w.2.changed then (s3.modPix fun p => { p with initWait := p.initWait && !init }).modCal fun c => { c with copyAfter := false }
      else
        let s4 := noteReady ((s3.wr F.PIX_BANK_READY 1).wr F.CAL_STAT_ENG 2)
        if init && !s.displays then blendSwapped s4 s4.wt.fol.lastFrame else s4

/-- The engine's request at a fence where it may ask, with READY as it stood at the sampling instant (R224). -/
def blendAsks (s : State) (ready : Bool) : Bool := s.on F.CAL_CTL_BLEND_EN && s.on F.PIX_BANK_OWNER && ready

/-- The engine after a fence's swap: idle, copying after an INIT pass; after a swap that was skipped, a new pass (R224, R225). -/
def blendAfterSwap (s : State) (swapped : Bool) : State :=
  if s.rd F.CAL_STAT_ENG != 2 then s
  else if swapped then copyIfDue (s.wr F.CAL_STAT_ENG 0)
  else (noteReady ((s.wr F.CAL_STAT_ENG 0).wr F.PIX_BANK_READY 0)).modCal fun c => { c with due := true, init := c.init || c.copyAfter, copyAfter := false }

/-- BLEND_EN changes from 0 to 1 (R225). -/
def blendOn (s : State) : State := noteReady ((s.wr F.PIX_BANK_OWNER 1).modCal fun c => { c with init := true })

/-- BLEND_EN = 0 (R223, R226): `walked` entries of a running pass have been checked and written; no lamp waits for an INIT pass any more. [log 95 DEDUCED] -/
def blendOff (s : State) (walked : Nat) (residue : List Nat) : State :=
  let w := passWalk s residue walked
  let s1 := if s.rd F.CAL_STAT_ENG = 1 then w.1.bump F.CAL_BCNT_KEPT w.2.kept else s
  let s2 := (((s1.wr F.CAL_STAT_ENG 0).wr F.CAL_STAT_INIT 0).wr F.PIX_BANK_READY 0).wr F.PIX_BANK_OWNER 0
  noteReady ((s2.modPix fun p => { p with initWait := false }).modCal fun c => { c with copyAfter := false })

/-- A pass in hand is abandoned and the next is an INIT pass (R404). -/
def blendAbandon (s : State) : State :=
  noteReady ((((s.wr F.CAL_STAT_ENG 0).wr F.CAL_STAT_INIT 0).wr F.PIX_BANK_READY 0).modCal fun c => { c with init := true, due := true, retry := false, copyAfter := false })

/-- Entry to RUN or SERVICE: an INIT pass is due; from a mode that does not show the picture, lamps wait for it (R225). [log 95 DEDUCED] -/
def blendEntry (s : State) (dark : Bool) : State :=
  if !(s.on F.CAL_CTL_BLEND_EN) then s
  else (s.modCal fun c => { c with init := true, due := true }).modPix fun p => { p with initWait := p.initWait || dark }

/-! Loading a section (R212 to R217). -/

/-- Both banks hold the identity; the tile shows uncorrected colour (R215). -/
def noSets (s : State) (cause : Nat) : State :=
  let b : Bank := { ident := true, ent := [], bad := [] }
  let s1 := s.modPix fun p => { p with bankA := b, bankB := b, wroteAll := true, wrote := [] }
  raise (((noteReady s1).wr F.CAL_STAT_SETS 0).wr F.CAL_LAMPS_VALIDMASK 0) 355 (d2 cause 0)

/-- The sets of a section with a valid header that are kept (R215): (set, point); with the events of those dropped. -/
def keepSets (h : List Byte) (good : Nat → Bool) : List (Nat × Int) × List (Nat × List Byte) :=
  (List.range (leAt h 2 1)).foldl (fun a j =>
    let p := signed (leAt h (8 + 2 * j) 2) 16
    if !(good j) then (a.1, a.2 ++ [(354, d2 j 1)])
    else match a.1.getLast? with
      | some l => if p ≤ l.2 then (a.1, a.2 ++ [(354, d2 j 2)]) else (a.1 ++ [(j, p)], a.2)
      | none => (a.1 ++ [(j, p)], a.2)) ([], [])

/-- The kept set that serves as reference: REF, or the nearest in point (R215). -/
def refOf (kept : List (Nat × Int)) (ref : Nat) (p : Int) : Nat :=
  match (List.range kept.length).find? fun n => (kept.getD n (0, 0)).1 == ref with
  | some n => n
  | none =>
    let d := fun n => ((kept.getD n (0, 0)).2 - p).natAbs
    (List.range kept.length).foldl (fun m n => if d n < d m then n else m) 0

/-- A format 1 entry as a format 2 entry of a lamp of colour `k` (R216). -/
def convertEntry (k e : Nat) : Nat := min 0x7FF ((e % 4096 + 1) / 2) * 2 ^ (12 * k) + 2 ^ 36 * bits e 12 1

/-- LAMPS in range: at least the highest present lamp plus one, at most 786,432 (R213). -/
def lampsOk (s : State) (n : Nat) : Bool := decide (n ≤ 786432) && (presentLamps s).all fun i => decide (i < n)

/-- Whether a section's header is accepted (R215). [log 98 DEDUCED] -/
def calHeaderOk (s : State) (h : List Byte) : Bool :=
  let f := leAt h 0 2
  let n := leAt h 2 1
  leAt h 64 4 == crc32 (slice h 0 64) && (f == 1 || f == 2) && lampsOk s (leAt h 4 4) && decide (1 ≤ n) && decide (n ≤ if f = 1 then 4 else 8) &&
  decide (leAt h 3 1 < n)

/-- The format 2 section that a format 1 section becomes (R216): header, page fill, converted sets; a set whose SETCRC failed keeps a failing
one (R215). [log 150 DEDUCED] -/
def convertSection (s : State) (sec : List Byte) : List Byte :=
  let n := leAt sec 2 1
  let lamps := leAt sec 4 4
  let size1 := ceilDiv (lamps * 2) 4096 * 4096
  let sets := (List.range n).map fun j =>
    (List.range lamps).flatMap fun i => bytesLE 6 (convertEntry (lampColour s i) (leAt sec (4096 + j * size1 + 2 * i) 2))
  let good := fun j => leAt sec (32 + 4 * j) 4 == crc32 (slice sec (4096 + j * size1) (2 * lamps))
  let crcs := (List.range 8).flatMap fun j =>
    let c := crc32 (sets.getD j [])
    bytesLE 4 (if n ≤ j then 0 else if good j then c else 2 ^ 32 - 1 - c)
  let h := bytesLE 2 2 ++ slice sec 2 22 ++ bytesLE 1 1 ++ slice [] 0 7 ++ crcs
  let head := h ++ bytesLE 4 (crc32 h) ++ slice sec 64 4 ++ slice [] 0 8
  slice head 0 4096 ++ sets.flatMap fun l => slice l 0 (setSize lamps)

/-- PIX_FBGAIN of colour `k` from the reference set (R217). -/
def gainFrom (s : State) (k : Nat) : Nat :=
  let l := (presentLamps s).filter fun i => lampColour s i == k
  let sum : Int := l.foldl (fun t i => t + coef (leNat (dramRead s (setAddr s (s.rd F.CAL_LAMPS_REF) i) 6)) k) 0
  if l.isEmpty then 0 else toBits (min 0x1FFF (4 * roundDiv sum l.length)) 13

/-- Drops held writes of a register (R217: the live value and the shadow). -/
def dropShadow (s : State) (a : Nat) : State :=
  { s with commit := { s.commit with opened := s.commit.opened.filter fun w => w.addr != a } }

/-- Uses a format 2 section that stands at CAL_SETBASE; `format` is its source's (R212, R215, R217). [log 98 DEDUCED] -/
def useSection (s : State) (format : Nat) (migrated : Bool) : State :=
  let base := s.rd F.CAL_SETBASE_BASE * 4096
  let h := dramRead s base 80
  let lamps := leAt h 4 4
  let good := fun j => leAt h (32 + 4 * j) 4 == crc32 (dramRead s (base + 4096 + j * setSize lamps) (6 * lamps))
  let k := keepSets h good
  let s0 := raises s k.2
  if k.1.isEmpty then noSets s0 2
  else
    let ref := leAt h 3 1
    let r := refOf k.1 ref (signed (leAt h (8 + 2 * ref) 2) 16)
    let mask := k.1.foldl (fun m e => m + 2 ^ e.1) 0
    let s1 := (((s0.wr F.CAL_STAT_SETS k.1.length).wr F.CAL_LAMPS_LAMPS lamps).wr F.CAL_LAMPS_REF r).wr F.CAL_LAMPS_VALIDMASK mask
    let s2 := forIdx 8 (s1.wr F.CAL_STAT_MIGRATED (b2n migrated)) fun s n => s.wr (pointRef n) (toBits (k.1.getD n (0, 0)).2 16)
    let s3 := ((s2.wr F.PIX_FBGAIN0_R (gainFrom s2 0)).wr F.PIX_FBGAIN0_G (gainFrom s2 1)).wr F.PIX_FBGAIN1_B (gainFrom s2 2)
    let s4 := dropShadow (dropShadow s3 F.PIX_FBGAIN0_R.addr) F.PIX_FBGAIN1_B.addr
    raise (s4.modCal fun c => { c with init := true, due := true, everDone := false, retry := false }) 352 (d2 k.1.length format ++ bytesLE 3 lamps)

/-- CAL_MODE.MODE at load (R222). -/
def loadMode (s : State) : State := s.wr F.CAL_MODE_MODE (b2n (decide (393216 < (presentLamps s).length)))

/-- The loader starts the blend engine where a set is kept (R212, R394). -/
def loadBlend (s : State) : State :=
  if s.rd F.CAL_STAT_SETS = 0 then s else blendOn (s.wr F.CAL_CTL_BLEND_EN 1)

/-! The colour loop (R227 to R232). -/

def loopN (s : State) : Nat := max 16 (s.rd F.CAL_LOOP_LOOP_N)
def sensMin (s : State) : Nat := s.rd F.CAL_LOOP_SENS_MIN + 1
def gainRef (k : Nat) : FRef := match k with | 0 => F.CAL_LGAIN0_G_R | 1 => F.CAL_LGAIN0_G_G | _ => F.CAL_LGAIN1_G_B
def refRef (n k : Nat) : FRef := F.CAL_REF_REF n k
def tbase (s : State) (n : Nat) : Int := signed (if n % 2 = 0 then s.rd (F.CAL_TBASE_T0 (n / 2)) else s.rd (F.CAL_TBASE_T1 (n / 2))) 16

/-- The first hold cause of R231; 0 where none holds. -/
def holdCause (s : State) : Nat :=
  let hold := s.rd F.CAL_LOOPHOLD_HOLD * secPs
  if !(s.on F.CAL_CTL_LOOP_EN) then 1
  else if !(s.on F.CAL_REFSTAT_VALID) then 2
  else if s.rd F.CAL_STAT_TRACED != s.rd F.CAL_REFSTAT_TRACED then 3
  else if s.rd F.HK_STAT_THR < 16 || (match s.cal.thrBack with | some t => decide (s.now < t + hold) | none => false) then 4
  else if anyIdx 8 fun z => s.on (F.HK_VAL_SUBST (4 + z)) then 5
  else if (s.mode != mRun && s.mode != mService) || s.quiet then 6
  else if s.cal.capture != 0 then 7 else 0

/-- The partial gathering is discarded; the next sequence counts from its first gap. -/
def ungather (s : State) : State := (s.wr F.CAL_LSTAT_SEQ 0).modCal fun c => { c with gap := 0, diff := [], sums := [], seqs := 0 }

/-- Judges the hold causes: entry into a hold is reported and discards the gathering (R231). -/
def judgeHold (s : State) : State :=
  let h := holdCause s
  let st := if s.cal.capture = 2 then 3 else if h = 0 then 1 else if h = 1 then 0 else 2
  let s1 := ((s.wr F.CAL_LSTAT_HOLD h).wr F.CAL_LSTAT_STATE st).modCal fun c => { c with held := h != 0 }
  if h = 0 || s.cal.held then s1
  else raise ((if s.cal.capture = 2 then s1 else ungather s1).modCal fun c => { c with newG := none }) 365 (d2 h 0)

/-- The witness lamps of a sensor. -/
def witLamps (s : State) (n : Nat) : List Nat := (List.range 3).flatMap fun k => clusterLamps s n k

/-- A witness lamp that became masked or DARK since the last fence excludes its sensor until the next capture (R228). [log 151 DEDUCED] -/
def judgeWit (s : State) : State :=
  let masks := maskedLamps s
  let off := fun i => masks.contains i || entryDark (liveEntry s i)
  let s1 := (sensors s).foldl (fun (t : State) n =>
    let new := (witLamps s n).filter fun i => off i && !(s.cal.witOff.contains i)
    if new.isEmpty || t.cal.lost.testBit n then t
    else raise (t.modCal fun c => { c with lost := c.lost ||| 2 ^ n }) 364 (d2 n (if new.any masks.contains then 1 else 2))) s
  s1.modCal fun c => { c with witOff := (sensors s).flatMap fun n => (witLamps s n).filter off }

/-- The 12 codes of a capture are shown (R379). -/
def showPd (s : State) (lit : Bool) (codes : List Nat) : State :=
  forIdx 12 s fun s i =>
    (if lit then s.wr (F.HK_PD_LIT i) (codes.getD i 0) else s.wr (F.HK_PD_DARK i) (codes.getD i 0)).wr (F.HK_PD_UNTRACED i) (1 - s.rd F.CAL_STAT_TRACED)

/-- Inserts into a rising list. -/
def insertNat (x : Nat) : List Nat → List Nat
  | [] => [x]
  | y :: r => if x ≤ y then x :: y :: r else y :: insertNat x r

/-- The median of R233: the mean of the middle two for an even number. -/
def median (l : List Nat) : Nat :=
  let v := l.foldl (fun a x => insertNat x a) []
  let n := v.length
  if n % 2 = 1 then v.getD (n / 2) 0 else (v.getD (n / 2 - 1) 0 + v.getD (n / 2) 0) / 2

/-- The ambient filter on a dark capture (R233). -/
def ambient (s : State) (codes : List Nat) : State :=
  let l := (sensors s).map fun n =>
    (s.rd F.CAL_AMBW_W_R * codes.getD (3 * n) 0 + s.rd F.CAL_AMBW_W_G * codes.getD (3 * n + 1) 0 + s.rd F.CAL_AMBW_W_B * codes.getD (3 * n + 2) 0) / 256
  if !(s.on F.CAL_CTL_AMB_EN) || l.isEmpty then s
  else
    let af : Int := s.rd F.CAL_AMBRD_AF
    s.wr F.CAL_AMBRD_AF (af + ((median l * 256 : Nat) - af) / ((2 ^ s.rd F.CAL_AMBK_TC : Nat) : Int)).toNat

/-- Whether captures of lit gaps are gathered now. -/
def gathers (s : State) : Bool := decide (s.cal.seqs < loopN s) && (s.cal.capture == 2 || (holdCause s == 0 && s.cal.newG.isNone))

/-- A sample of a sequence of six: gap `k` (6: one that should have been lit and was not), its codes (R227, R229). -/
def gather (s : State) (k : Nat) (codes : List Nat) : State :=
  if k = 0 then s.modCal fun c => { c with gap := 1, diff := [] }
  else if s.cal.gap != k then s.modCal fun c => { c with gap := 0, diff := [] }
  else if k % 2 = 0 then s.modCal fun c => { c with gap := k + 1 }
  else
    let col := k / 2
    let d := (sensors s).foldl (fun t n =>
      let i := 3 * n + col
      Table.set (0 : Int) t i ((codes.getD i 0 : Int) - ((Table.get (0 : Nat) s.cal.dark i : Nat) : Int))) s.cal.diff
    if k < 5 then s.modCal fun c => { c with gap := k + 1, diff := d }
    else
      let sums := d.foldl (fun t e => Table.set (0 : Int) t e.1 (Table.get 0 t e.1 + e.2)) s.cal.sums
      (s.wr F.CAL_LSTAT_SEQ (s.cal.seqs + 1)).modCal fun c => { c with gap := 0, diff := [], sums := sums, seqs := c.seqs + 1 }

/-- The photodiode capture of the gap in hand (R227, R233, R379). [log 88 DEDUCED] -/
def pdCapture (s : State) (codes : List Nat) : State :=
  match s.drv.gapSample with
  | none => s
  | some (k, lit) =>
    let s1 := showPd (s.modDrv fun d => { d with gapSample := none }) lit codes
    let s2 := if lit then s1 else ambient s1 codes
    let s3 := judgeHold s2
    let s4 := if gathers s3 then gather s3 (if lit == (k % 2 == 1) then k else 6) codes else s3
    if lit then s4
    else s4.modCal fun c => { c with dark := forDark c.dark codes }
where
  forDark (t : Table Nat) (codes : List Nat) : Table Nat := (List.range 12).foldl (fun t i => Table.set 0 t i (codes.getD i 0)) t

/-- r of R229 for sensor `n` and colour `k`, where it is accepted. -/
def ratioOf (s : State) (n k : Nat) : Option Int :=
  let ref := s.rd (refRef n k)
  let r := s.cal.sums.get 0 (3 * n + k) * 4194304 / ((loopN s * ref : Nat) : Int)
  if ref != 0 && !(s.cal.lost.testBit n) && decide ((r - 16384).natAbs ≤ s.rd F.CAL_LOOPHOLD_WIN * 64) then some r else none

/-- The accepted ratios of colour `k`. -/
def accepted (s : State) (k : Nat) : List Int := (sensors s).filterMap fun n => ratioOf s n k

/-- The mean of the accepted ratios, rounded down. -/
def rhoOf (s : State) (k : Nat) : Int := (accepted s k).foldl (· + ·) 0 / ((accepted s k).length : Int)

/-- The new gain of colour `k` (R229). -/
def newGain (s : State) (k : Nat) : Nat :=
  let e := 16384 - rhoOf s k
  let st : Int := s.rd F.CAL_LOOP_STEP
  let d := clampI (-st) st ((e * s.rd F.CAL_LOOP_GAIN + 128) / 256)
  (clampI (s.rd F.CAL_LOOPLIM_G_MIN) (s.rd F.CAL_LOOPLIM_G_MAX) ((s.rd (gainRef k) : Int) + d)).toNat

/-- A gain at a limit is reported once on reaching it (R229). -/
def limitReport (s : State) (k g : Nat) : State :=
  let at_ := fun (f : FRef) => g == s.rd f
  let side := if at_ F.CAL_LOOPLIM_G_MIN then 1 else if at_ F.CAL_LOOPLIM_G_MAX then 2 else 0
  let told := bits s.cal.limTold (2 * k) 2
  let s1 := s.modCal fun c => { c with limTold := setBits c.limTold (2 * k) 2 side }
  if side = 0 || told = side then s1 else raise s1 363 (d2 k side)

/-- An update (R229): new gains wait for the next fence; with too few sensors it is skipped. [log 97 DEDUCED] -/
def loopUpdate (s : State) : State :=
  if !(s.on F.CAL_CTL_LOOP_EN) || s.cal.capture != 0 || holdCause s != 0 || s.cal.seqs < loopN s || s.cal.newG.isSome then s
  else
    let few := anyIdx 3 fun k => decide ((accepted s k).length < sensMin s)
    if few then
      let m := (List.range 3).foldl (fun m k => m + min 3 (accepted s k).length * 4 ^ k) 0
      raise (ungather s) 362 (d2 m 0)
    else
      let g := (List.range 3).map (newGain s)
      let s1 := forIdx 3 s fun s k => s.wr (F.CAL_LUM_LUM k) ((s.rd (F.CAL_TARGET_Y_TGT_Y k) : Int) * rhoOf s k / 16384).toNat
      let s2 := forIdx 3 s1 fun s k => limitReport s k (g.getD k 0)
      s2.modCal fun c => { c with newG := some g }

/-- The live tile matrix from the gains and CAL_TBASE (R230). [log 97 DEDUCED] -/
def writeTmat (s : State) : State :=
  forIdx 9 s fun s n =>
    let t := clampI (-32768) 32767 ((s.rd (gainRef (n / 3)) * tbase s n + 8192) / 16384)
    (s.wr (if n % 2 = 0 then F.PIX_TMAT_T0 (n / 2) else F.PIX_TMAT_T1 (n / 2)) (toBits t 16)).modPix fun p => { p with tmatBad := setBits p.tmatBad n 1 0 }

def setGains (s : State) (g : List Nat) : State := forIdx 3 s fun s k => s.wr (gainRef k) (g.getD k 0)

/-- A write of CAPTURE (R232). -/
def captureStart (s : State) : State :=
  let mask := (sensors s).foldl (fun m n => m + 2 ^ n) 0
  if s.mode != mService then raise s 361 (d2 2 mask)
  else if (sensors s).length < sensMin s then raise s 361 (d2 3 mask)
  else judgeHold (s.modCal fun c => { c with capture := 1, lost := 0, newG := none })

/-- The capture ends (R232). -/
def captureDone (s : State) : State :=
  if s.cal.capture != 2 || s.cal.seqs < loopN s then s
  else
    let n := loopN s
    let ref := fun i k =>
      let v := s.cal.sums.get 0 (3 * i + k)
      if v < ((16 * n : Nat) : Int) then 0 else (v * 256 / (n : Int)).toNat
    let s1 := forIdx 4 s fun s i => forIdx 3 s fun s k => s.wr (refRef i k) (if (sensors s).contains i then ref i k else 0)
    let good := (sensors s).filter fun i => allIdx 3 fun k => ref i k != 0
    let s2 := (s1.wr F.CAL_REFSTAT_VALID (b2n (decide (sensMin s ≤ good.length)))).wr F.CAL_REFSTAT_TRACED (s.rd F.CAL_STAT_TRACED)
    let s3 := ungather (s2.modCal fun c => { c with capture := 0 })
    judgeHold (raise s3 361 (d2 1 ((sensors s).foldl (fun m n => m + 2 ^ n) 0)))

/-! The ambient scale at a fence (R233). -/

def ambTarget (s : State) : Nat := clamp (s.rd F.CAL_AMB_AMB_MIN) 0x1000 (s.rd F.CAL_AMB_AMB_MIN + s.rd F.CAL_AMBRD_AF * s.rd F.CAL_AMBK_SLOPE / 2 ^ 20)

/-- AMB at a fence. -/
def ambFence (s : State) : State :=
  if !(s.on F.CAL_CTL_AMB_EN) then
    if s.cal.ambOff then (pixTouch (s.wr F.PIX_AMB_AMB 0x1000) 5).modCal fun c => { c with ambOff := false, ambMove := false } else s
  else
    let a := s.rd F.PIX_AMB_AMB
    let t := ambTarget s
    let gap := if a ≤ t then t - a else a - t
    if gap = 0 then s.modCal fun c => { c with ambMove := false }
    else if !s.cal.ambMove && gap < s.rd F.CAL_AMB_HYST then s
    else
      let st := min gap (s.rd1 F.CAL_AMB_STEP)
      (pixTouch (s.wr F.PIX_AMB_AMB (if a < t then a + st else a - st)) 5).modCal fun c => { c with ambMove := gap != st }

/-- CAL at a fence: RESET_G, the start of a capture, new gains and the tile matrix, the ambient scale (R230, R232, R233). [log 97 DEDUCED] -/
def calFence (s : State) : State :=
  let s0 := judgeHold (judgeWit s)
  let one := [0x4000, 0x4000, 0x4000]
  let loop := s0.on F.CAL_CTL_LOOP_EN
  let s1 := if s0.cal.resetG then (setGains s0 one).modCal fun c => { c with resetG := false, newG := none } else s0
  let s2 := if s1.cal.capture = 1 then judgeHold (ungather ((setGains s1 one).modCal fun c => { c with capture := 2, newG := none })) else s1
  let s3 := match s2.cal.newG with
    | some g => ungather (((setGains s2 g).bump F.CAL_LSTAT_UPDATES 1).modCal fun c => { c with newG := none })
    | none => s2
  let moved := s0.cal.resetG || s1.cal.capture == 1 || s2.cal.newG.isSome
  let s4 := if moved && loop then (writeTmat s3).modPix fun p => { p with changed := true } else s3
  ambFence s4

end Sys2Proof.Machine
end

