-- ==== Sys2Proof/Machine/ModeOps.lean ====
section
/-! DEFINITION. Machine/ModeOps.lean: clocks, resets, gating and the mode engine (chapter *Clocks, power and operating modes*). -/
namespace Sys2Proof.Machine

def State.modSys (s : State) (f : Sys → Sys) : State := { s with sys := f s.sys }

/-! Resets (R9, R61, R374). -/

/-- The mask of the fields of a register that WRST_N keeps (R9). [log 105 DEDUCED] -/
def keepMask (a : Nat) : Nat :=
  match findReg a with
  | none => 0
  | some r => r.fields.foldl (fun m f => if f.keep then m + (2 ^ f.w - 1) * 2 ^ f.lo else m) 0

/-- The device after PORST_N: every field at reset; local time, what was sent and the queue are the model's own (R9, R61). [log 12 DESIGN CHOICE] -/
def coldReset (s : State) (st : Strap) : State :=
  { State.fresh st s.upd.flash with now := s.now, line := { scram := [], index := [], sent := s.line.sent }, out := s.out ++ [.pin pinBypassOpen 0, .pin pinRailEn 0], pending := s.pending, tap := s.tap, free := s.free }

/-- The device after WRST_N: as PORST_N, with the retained fields, the trace buffer and the counters kept (R9, R413, R414); what
the crystal's monitor and check showed, and the level of SVC_PRESENT_N, follow the hardware. [log 105 DEDUCED] -/
def warmReset (s : State) : State :=
  let t := coldReset s s.strap
  let kept := s.regs.foldl (fun r e =>
    let m := BitVec.ofNat 32 (keepMask e.1)
    let d := resetWord s.strap e.1
    Table.set d r e.1 ((e.2 &&& m) ||| (d &&& ~~~m))) []
  let t1 := { t with regs := kept, obs := { s.obs with entering := [] } }
  let t2 := (((t1.wr F.UPD_STAT_SVC_PRESENT (s.rd F.UPD_STAT_SVC_PRESENT)).wr F.SYS_STRAP_XO_OK (s.rd F.SYS_STRAP_XO_OK)).wr F.SYS_STRAP_XO_TRIES (s.rd F.SYS_STRAP_XO_TRIES)).wr F.CKG_STAT_XO_OK (s.rd F.CKG_STAT_XO_OK)
  showMaskCnt (t2.modSys fun y => { y with reedTrimmed := s.sys.reedTrimmed })

/-- Start-up begins with the cause of its entry (R374). A crystal whose monitor is not healthy is checked again; one that has stayed healthy
is not. [log 105 DEDUCED] -/
def startUp (s : State) (cause : Nat) : State :=
  (s.wr F.SYS_STRAP_XO_OK (s.rd F.SYS_STRAP_XO_OK &&& s.rd F.CKG_STAT_XO_OK)).modSys fun y => { y with starting := some cause, low := 0 }

/-- A level low on PORST_N, or a supply below its monitor (R61, R429). -/
def porstLow (s : State) : State := (coldReset s s.strap).modSys fun y => { y with low := 1 }

/-- Release of PORST_N: the straps are sampled; ROLE 11b stays in BYPASS with cause 9h (R1, R374). -/
def porstHigh (s : State) (role xoDly : Nat) : State :=
  let t := coldReset s { s.strap with role := Role.ofCode role, xoDly := xoDly }
  if role = 3 then (t.wr F.SYS_MSTAT_CAUSE 9).modSys fun y => { y with low := 3 } else startUp t 0

/-- A level low on WRST_N (R61, R374). -/
def wrstLow (s : State) : State := (warmReset s).modSys fun y => { y with low := 2 }

/-- Release of WRST_N (R374). -/
def wrstHigh (s : State) : State :=
  if s.sys.low != 2 then s
  else if s.strap.role == .reserved then (s.wr F.SYS_MSTAT_CAUSE 9).modSys fun y => { y with low := 3 }
  else startUp s 1

/-! Clock sources and PLLs (R356 to R364). -/

/-- The PLLs a role uses: 0 core, 1 lane, 2 DDR, 3 PCIe (R358). -/
def pllUsed (s : State) (p : Nat) : Bool :=
  match p with
  | 1 => !s.isStandalone
  | 3 => !s.isCarriage
  | _ => true

/-- The sources of a PLL in their order (R358): 0 Reed, 1 crystal, 2 the lane PLL's reference. -/
def pllList (s : State) (p : Nat) : List Nat :=
  match p with
  | 0 => if s.isCarriage || s.isCoach then [2, 0] else [1, 0]
  | 3 => [1, 0]
  | 1 => [2, 0]
  | _ => [0]

def srcHealthy (s : State) (x : Nat) : Bool :=
  match x with
  | 0 => s.on F.CKG_STAT_REED_READY
  | 1 => s.on F.CKG_STAT_XO_OK
  | _ => if s.isCarriage then pllRef s == 1 || pllRef s == 2 else pllRef s != 0

def pickSrc (s : State) (p : Nat) : Option Nat := (pllList s p).find? (srcHealthy s)

/-- The source in use by a PLL; the lane PLL's is CL_CLKSRC. -/
def srcOf (s : State) (p : Nat) : Nat := if p = 1 then (if s.rd F.CL_CLKSRC_REF = 0 then 0 else if s.rd F.CL_CLKSRC_REF = 3 then 1 else 2) else s.sys.pllSrc.get 3 p

/-- The code of a source in the events of R376. -/
def srcCode (s : State) (x : Nat) : Nat := if x = 2 then (if s.rd F.CL_CLKSRC_REF = 3 then 1 else 2 + s.rd F.CL_CLKSRC_REF) else x

def pllLocked (s : State) (p : Nat) : Bool := (s.rd F.CKG_STAT_LOCK).testBit p
def setLock (s : State) (p : Nat) (v : Bool) : State := s.wr F.CKG_STAT_LOCK (setBits (s.rd F.CKG_STAT_LOCK) p 1 (b2n v))

/-- CORE_DIV: the slower of the ramp step and, under droop, ÷2 (R366). -/
def showDiv (s : State) : State := s.wr F.CKG_STAT_CORE_DIV (max s.sys.ramp (if s.on F.CKG_STAT_DROOP then 1 else 0))

/-- The switch closes where the lane PLL has no usable reference (R61, R62). -/
def laneLost (s : State) : State := if closedCause s then bypassFall s 2 else s

/-- Whether the port acts on what its lanes show: not in OFF, and not in SETTLE (R43, R60). In SETTLE the lanes' conditions still follow the
commands. [log 136 DEDUCED] -/
def judged (s : State) (p : Nat) : Bool := s.pst p != 0 && s.pst p != 7

/-- Clears what a lane loses with a condition: `k` 1 the signal, 2 CDR lock, 3 block lock; the deskew is that of the whole port. -/
def laneClear (s : State) (n k : Nat) (owner : Option Nat) : State :=
  let s1 := if k = 1 then s.wr (F.LANE_STAT_SIGDET n) 0 else s
  let s2 := if k ≤ 2 then s1.wr (F.LANE_STAT_CDR_LOCK n) 0 else s1
  let s3 := (s2.wr (F.LANE_STAT_BLOCK_LOCK n) 0).wr (F.LANE_STAT_DESKEW_OK n) 0
  match owner with
  | some p => lanesWr s3 p F.LANE_STAT_DESKEW_OK 0
  | none => s3

/-- A lane loses a condition (R44, R46): its event, the fall back of its port, the lane PLL's reference. `cut`: whether a packet or run was
being forwarded, where the command says so. In SETTLE the port ignores the loss (R60). A network port's lane only counts and reports (R139). [log 136 DEDUCED] -/
def laneLoss (s : State) (n k : Nat) (cut : Option Bool) : State :=
  match laneOwner s n with
  | some p =>
    if s.pst p = 0 then s
    else if s.pst p = 7 then laneLost (clkUpdate (laneClear s n k (some p)))
    else
      let s1 := (laneClear s n k (some p)).modPort p fun x => { x with inPacket := cut }
      laneLost (clkUpdate (fallBack (raise s1 (laneSrc n (k - 1)) []) p k))
  | none => if netLane s n then raise (laneClear s n k none) (laneSrc n (k - 1)) [] else s

/-- A lane in HIBER with HIBER_DOWN = 1 acts as one that has lost block lock (R47): its event, and the fall back of its port. [log 138 DEDUCED] -/
def hiberDown (s : State) (n : Nat) : State :=
  match laneOwner s n with
  | some p => if judged s p then fallBack (raise s (laneSrc n 2) []) p 3 else s
  | none => if netLane s n then raise s (laneSrc n 2) [] else s

/-- LANE_CTL or LANE_QUAL was written: a lane powered down loses its signal; HIBER_DOWN acts on a lane in HIBER (R47). [log 138 DEDUCED] -/
def laneWrote (s : State) (a old : Nat) : State :=
  let n := a % 0x10000 / 0x1000
  match a % 0x1000 with
  | 0 => if fell old (s.reg a) then laneLoss s n 1 none else s
  | 0xC =>
    if !(s.on (F.LANE_STAT_HIBER n)) || bitAt old 8 == bitAt (s.reg a) 8 then s
    else if bitAt (s.reg a) 8 then laneLost (clkUpdate (hiberDown s n))
    else match laneOwner s n with
      | some p => if hasBlock s p then blockSettled s p else s
      | none => s
  | _ => s

/-- A PLL takes the Reed path, or is held stopped until Reed is ready (R361, R363). -/
def toPath (s : State) (p : Nat) : State :=
  let s1 := (setLock s p false).modSys fun y => { y with path := setBits y.path p 1 1 }
  if s.on F.CKG_STAT_REED_READY then
    if p = 0 then (s1.wr F.CKG_STAT_REED_PATH 1).wr F.CKG_STAT_CORE_SRC 0 else s1
  else s1.modSys fun y => { y with stopped := y.stopped.set 0 p (s.now + 1) }

/-- A PLL completes lock to the first healthy source of its list (R358, R361, R374); in start-up the crystal's check comes
first in sender and standalone roles (R357). -/
def pllLock (s : State) (p : Nat) : State :=
  if !(pllUsed s p) || s.mode == mSentry && s.sys.going.isNone || s.sys.low != 0 || (pllLocked s p && !(s.sys.path.testBit p)) then s
  else if p != 2 && !s.isCarriage && s.sys.starting.isSome && !(s.on F.SYS_STRAP_XO_OK) then s
  else match pickSrc s p with
    | none => s
    | some x =>
      let path := s.sys.path.testBit p
      let s1 := (setLock s p true).modSys fun y => { y with path := setBits y.path p 1 0, pllSrc := y.pllSrc.set 3 p x }
      match p with
      | 0 => showDiv (((s1.wr F.CKG_STAT_REED_PATH 0).wr F.CKG_STAT_CORE_SRC x).modSys fun y => { y with ramp := if path then 2 else 3 })
      | 1 => tryRise (clkUpdate s1)
      | _ => s1

/-- A PLL loses lock (R376). -/
def pllUnlock (s : State) (p : Nat) : State := if !(pllLocked s p) then s else raise (setLock s p false) 19 (d2 p 0)

/-- One step of the core divider up in frequency (R365). -/
def rampStep (s : State) : State :=
  if !(pllLocked s 0) || s.on F.CKG_STAT_REED_PATH then s else showDiv (s.modSys fun y => { y with ramp := y.ramp - 1 })

/-- The monitor of source `x` (0 Reed, 1 crystal, 2 REFCLK_IN) trips: every PLL that used it moves on (R362). [log 107 DEDUCED] -/
def monTrip (s : State) (x : Nat) : State :=
  let users := if x = 2 then [] else (List.range 4).filter fun p => pllUsed s p && srcOf s p == x
  let s1 := match x with
    | 0 => s.wr F.CKG_STAT_REED_READY 0
    | 1 => s.wr F.CKG_STAT_XO_OK 0
    | _ => s.wr F.CKG_STAT_REFCLK_OK 0
  let s2 := count (s1.bump F.CKG_MON_TRIPS 1) 57 1
  let s3 := if users.isEmpty then raise s2 16 (d2 (Config.noPll x).toNat x) else users.foldl (fun s p => raise s 16 (d2 p x)) s2
  laneLost (users.foldl (fun s p => if p = 1 then clkUpdate s else toPath s p) s3)

/-- Reed's own monitor trips: Reed restarts, what runs on it stops (R364). -/
def reedFail (s : State) : State :=
  let s1 := raise (monTrip s 0) 23 (d2 0 0)
  let s2 := forIdx 4 s1 fun s p => if s.sys.path.testBit p && s.sys.stopped.get 0 p == 0 then toPath s p else s
  (s2.wr F.CKG_STAT_REED_PATH 0).modSys fun y => { y with reedRestart := true }

/-- Reed is ready: domains held stopped start on it, with the time they were held (R363, R364). -/
def reedReady (s : State) : State :=
  if s.sys.low != 0 then s
  else
    let s1 := (s.wr F.CKG_STAT_REED_READY 1).modSys fun y => { y with reedRestart := false, stopped := [] }
    s.sys.stopped.foldl (fun s e =>
      let ns := (s.now + 1 - e.2) / 1000
      let s2 := raise (s.bump F.CKG_MON_LATE 1) 17 (d2 e.1 0 ++ bytesLE 2 ns)
      if e.1 = 0 then (s2.wr F.CKG_STAT_REED_PATH 1).wr F.CKG_STAT_CORE_SRC 0
      else if e.1 = 2 then forIdx 2 s2 fun s c => if mcState s c = 2 then refreshes 2 s c else s
      else s2) s1

/-- The crystal's delay and check end, in start-up or in a wake (R357, R373). -/
def crystalDone (s : State) (ok : Bool) : State :=
  if s.sys.low != 0 || (s.on F.SYS_STRAP_XO_OK && s.on F.CKG_STAT_XO_OK) then s
  else if ok then (s.wr F.SYS_STRAP_XO_OK 1).wr F.CKG_STAT_XO_OK 1
  else
    let s1 := s.bump F.SYS_STRAP_XO_TRIES 1
    let n := s1.rd F.SYS_STRAP_XO_TRIES
    if n = 8 && s.rd F.SYS_STRAP_XO_TRIES != 8 && !s.isCarriage then raise s1 20 (d2 n 0) else s1

/-- A source higher in a PLL's list has been healthy for RETURN_HOLD (R361): back to it, hitless or by the Reed path. -/
def returnHold (s : State) (p : Nat) (hitless : Bool) : State :=
  let s0 := if (pllList s p).contains 1 && s.on F.SYS_STRAP_XO_OK then s.wr F.CKG_STAT_XO_OK 1 else s
  match pickSrc s0 p with
  | none => s
  | some x =>
    if p = 1 || !(pllUsed s p) || !(pllLocked s p) || x = srcOf s p then s
    else
      let s1 := raise s0 18 (d2 p (srcCode s0 x))
      if hitless then
        let s2 := s1.modSys fun y => { y with pllSrc := y.pllSrc.set 3 p x }
        if p = 0 then s2.wr F.CKG_STAT_CORE_SRC x else s2
      else toPath (s1.modSys fun y => { y with pllSrc := y.pllSrc.set 3 p x }) p

/-! Trim (R360). -/

/-- The source the trim uses now: 1 REFCLK_IN, 2 crystal, 3 the Bugle period; `seen` is the source the measurement reports. [log 104 DESIGN CHOICE] -/
def trimSource (s : State) (seen : Nat) : Option Nat :=
  let sel := s.rd F.CKG_CTL_TRIM_SEL
  let avail := fun x => match x with
    | 1 => s.on F.CKG_CTL_REFCLK_EN && (s.on F.CKG_STAT_REFCLK_OK || seen == 1)
    | 2 => s.on F.SYS_STRAP_XO_OK && s.on F.CKG_STAT_XO_OK
    | _ => s.rd F.WT_FSTAT_STATE == 1 && (s.rd F.CL_CLKSRC_REF == 1 || s.rd F.CL_CLKSRC_REF == 2)
  [1, 2, 3].find? fun x => (sel == 0 || sel == x) && avail x

/-- Whether the device has fences: its follower or a generator runs. -/
def hasFences (s : State) : Bool := s.wt.fol.shown || s.wt.gens.any fun g => g.2.started

/-- The measurement of Reed, once per second (R360): `code` is the code the trim moved to, at most 8 steps from CODE. [log 104 DESIGN CHOICE] -/
def trim (s : State) (x err code lpo : Nat) : State :=
  let s1 := s.wr F.CKG_LPO_CORR lpo
  let e := (signed err 16).natAbs
  if !(s.on F.CKG_STAT_REED_READY) then s
  else if !(s.on F.CKG_CTL_TRIM_EN) || trimSource s x != some x then s1
  else
    let s2 := if x = 1 then s1.wr F.CKG_STAT_REFCLK_OK 1 else s1
    let s3 := (s2.wr F.CKG_TRIM_ERR err).wr F.CKG_TRIM_TRIMMED (b2n (decide (e ≤ 50)))
    if 2000 < e && s.sys.reedTrimmed then raise s3 22 (d2 x 0 ++ bytesLE 2 err)
    else
      let s4 := (raise (s3.wr F.CKG_TRIM_SRC x) 21 (d2 x 0 ++ bytesLE 2 err)).modSys fun y => { y with reedTrimmed := y.reedTrimmed || decide (e ≤ 50) }
      if e ≤ 25 then s4
      else
        let c := s.rd F.CKG_TRIM_CODE
        let n := min 1023 (clamp (c - 8) (c + 8) code)
        if hasFences s then s4.modSys fun y => { y with codeNext := some n } else s4.wr F.CKG_TRIM_CODE n

/-- A CODE that waited for the fence (R360). -/
def clockFence (s : State) : State :=
  match s.sys.codeNext with
  | some c => (s.wr F.CKG_TRIM_CODE c).modSys fun y => { y with codeNext := none }
  | none => s

/-! Droop and gating (R366 to R369). -/

/-- The rail fell below the droop level (R366). -/
def droop (s : State) : State :=
  if !(s.on F.PWR_DROOP_DROOP_EN) || s.on F.CKG_STAT_DROOP then s
  else
    let s1 := showDiv ((s.wr F.CKG_STAT_DROOP 1).bump F.PWR_DROOP_COUNT 1)
    let s2 := (count s1 56 1).modSys fun y => { y with droops := y.droops + 1 }
    if s2.mayReport 25 msPs then
      (raise s2 25 (d2 0 0 ++ bytesLE 4 s2.sys.droops)).reported 25 |>.modSys fun y => { y with droops := 0 }
    else s2

/-- The rail has recovered for the hold time (R366). -/
def droopEnd (s : State) : State := if !(s.on F.CKG_STAT_DROOP) then s else showDiv (s.wr F.CKG_STAT_DROOP 0)

/-- Whether a unit is clocked by its enable in the mode in force (R367). [log 122 DESIGN CHOICE] -/
def unitEnabled (s : State) (u : Nat) : Bool :=
  if s.mode = mStandby then (s.rd F.PWR_SLP_EN_SLP).testBit u
  else if s.displays then (s.rd F.PWR_RUN_EN_RUN).testBit u
  else if s.mode = mBypass then u == 0 || u == 13 else false

/-- A request to close a unit's gate: at once, or it waits while an access to the unit is in flight (R369). [log 122 DESIGN CHOICE] -/
def gateClose (s : State) (u : Nat) (inFlight : Bool) : State :=
  if unitEnabled s u then s
  else if inFlight then s.modSys fun y => { y with gates := setBits y.gates u 1 1 }
  else s.modSys fun y => { y with gates := setBits y.gates u 1 0, closed := setBits y.closed u 1 1 }

/-- The wait of a gate request exceeded GATE_TIMEOUT (R369). -/
def gateTimeout (s : State) (u : Nat) : State :=
  if !(s.sys.gates.testBit u) then s
  else raise ((s.bump F.PWR_GATE_ABANDONED 1).modSys fun y => { y with gates := setBits y.gates u 1 0 }) 24 (d2 u 0)

/-- Units whose enable asks for their clock again. [log 122 DESIGN CHOICE] -/
def openGates (s : State) : State :=
  forIdx 16 s fun s u => if unitEnabled s u then s.modSys fun y => { y with gates := setBits y.gates u 1 0, closed := setBits y.closed u 1 0 } else s

/-! The mode engine (R370 to R373). -/

/-- Every port goes to OFF and BYPASS_OPEN falls (R61, R370). [log 101 DEDUCED] -/
def portsDown (s : State) (cause : Nat) : State :=
  forIdx 12 (if s.on F.CL_BYP_BYP_STATE then driveBypass s 0 cause else s) portOff

/-- Enabled ports without a conflict run from SEARCH (R43, R139, R374). [log 101 DEDUCED] -/
def portsUp (s : State) : State := portsStart s

/-- Self-refresh of the role's channels, asked for or let go (R350). -/
def dramSleep (s : State) (yes : Bool) : State :=
  let one := fun s c => if s.on (F.MC_CTL_EN c) then askSr s c yes else s
  if s.isSender then one (one s 0) 1 else one s 0

/-- A rail fault, a zone shutdown, or DRAM channel 0 failed: what holds the device in SAFE (R372). [log 103 DEDUCED] -/
def safeHolds (s : State) : Bool :=
  railState s == 4 || s.rd F.HK_STAT_ZONE_LVL == 3 || (!s.isSender && mcState s 0 == 5)

/-- An enabled channel that the transition cannot use: neither ready nor in the self-refresh the mode asked for (R372). [log 99 DEDUCED] -/
def dramNotReady (s : State) : Bool :=
  anyIdx (if s.isSender then 2 else 1) fun c => s.on (F.MC_CTL_EN c) && mcState s c != 2 && !(mcState s c == 3 && (s.dch c).asked)

/-- The first reason to refuse a request (R372). [log 99 DEDUCED] -/
def refusal (s : State) (req : Nat) : Option Nat :=
  let show_ := req = mRun || req = mService
  if 6 ≤ req then some 1
  else if show_ && dramNotReady s then some 3
  else if show_ && !(s.on F.UPD_STAT_LOADED) then some 4
  else if show_ && !s.isSender && (!(s.on F.PIX_CTL_EN) || !(s.on F.DRV_CTL_EN)) then some 5
  else if (show_ || req = mSafe) && (s.rd F.HK_STAT_DIE_LVL == 3 || s.rd F.HK_STAT_ZONE_LVL == 3) then some 6
  else if s.mode == mSafe && req != mSafe && safeHolds s then some 7
  else if req = mSentry && s.reg R.PWR_WAKE % 128 == 0 then some 8 else none

def refuse (s : State) (req r : Nat) : State := raise ((s.wr F.SYS_MSTAT_RESULT 3).wr F.SYS_MSTAT_REASON r) 3 (d2 req r)

/-- The next mode on the way to `t` (R371, R372). -/
def nextHop (cur t : Nat) : Nat :=
  if t = mBypass then mBypass
  else if cur = mBypass || cur = mSentry then mStandby
  else if t = mSentry && cur != mStandby then mStandby else t

/-- A transition starts: the steps of R372 that come before its entry. [log 101 DEDUCED] -/
def begin_ (s : State) (t cause : Nat) : State :=
  let h := nextHop s.mode t
  let s1 := ((pixWake s 8).wr F.SYS_MSTAT_BUSY 1).modSys fun y => { y with going := some (h, cause), after := some (t, cause), wake := if t = mSentry then y.wake else none }
  let dark := !s.displays || s.mode == mSafe
  match h with
  | 0 => dramSleep (bypassFall (drvStop s1 1) 0) true
  | 2 => if s.mode = mBypass then portsUp s1 else dramSleep (drvStop s1 1) true
  | 3 | 4 => blendEntry (dramSleep s1 false) dark
  | 5 => dramSleep s1 false
  | _ => s1

/-- A carriage without a position stays in STANDBY: a request of a mode that displays waits for one, since R372 names no reason to refuse it
(R24). [log 145 DESIGN CHOICE] -/
def noPlace (s : State) (req : Nat) : Bool := s.isCarriage && !(s.on F.CL_MYPOS_VALID) && decide (3 ≤ req) && decide (req ≤ 5)

/-- A request of a mode (R371): in start-up it acts when start-up ends, in a transition it waits. [log 100 DEDUCED, 102 DEDUCED, 145 DESIGN CHOICE] -/
def modeRequest (s : State) (req : Nat) : State :=
  if s.sys.low != 0 || s.mode = mSentry then s
  else if s.sys.starting.isSome then s.modSys fun y => { y with preloadReq := some req }
  else if s.sys.going.isSome then s.modSys fun y => { y with waiting := some req }
  else
    let s1 := s.modSys fun y => { y with waiting := none }
    match refusal s1 req with
    | some r => refuse s1 req r
    | none =>
      if req = s.mode then s1.wr F.SYS_MSTAT_RESULT 1
      else if noPlace s1 req then s1.modSys fun y => { y with waiting := some req } else begin_ s1 req 2

/-- A write of SYS_MODE.REQ (R371): with a fault's entry at the same local time it is refused with FAULT, RESERVED coming first. [log 106 DESIGN CHOICE] -/
def modeWritten (s : State) (req : Nat) : State :=
  if req < 6 && s.sys.faultAt == s.now + 1 then refuse s req 2
  else (modeRequest s req).modSys fun y => { y with askedAt := s.now + 1 }

/-- A position has been taken: a request that waited for it acts (R24). [log 145 DESIGN CHOICE] -/
def placed (s t : State) : State :=
  if s.on F.CL_MYPOS_VALID || !(t.on F.CL_MYPOS_VALID) || t.sys.going.isSome then t
  else match t.sys.waiting with
    | some r => modeRequest t r
    | none => t

/-- What a mode's entry changes on the lamp side: DL_CLK starts or stops, a wake completes, SAFE limits the rail (R205, R237, R246, R252). -/
def lampEntry (s : State) (old : Nat) : State :=
  let was := decide (3 ≤ old) && decide (old ≤ 5)
  let s1 := if s.displays == was then s else dlClock s s.displays
  let s2 := (quietWakeDone s1).wr F.PIX_QSTAT_STATE 0
  let s3 := if s2.rd F.DRV_STAT_STATE = 3 then s2.wr F.DRV_STAT_STATE 2 else s2
  if s.mode = mSafe && railState s3 != 0 then railClamp s3 else s3

/-- The entry of a mode: SYS_MSTAT, SYS_MODE, the trace record, gates (R371, R410). [log 161 DEDUCED] -/
def modeEntry (s : State) (m cause : Nat) : State :=
  let old := s.mode
  let s1 := (((s.wr F.SYS_MSTAT_MODE m).wr F.SYS_MSTAT_CAUSE cause).wr F.SYS_MSTAT_BUSY 0).wr F.SYS_MSTAT_QUIET 0
  let s2 := (lampEntry s1 old).modSys fun y => { y with going := none }
  openGates (trace (raise s2 2 (d2 m old ++ bytesLE 1 cause)) 4 (m + 8 * old) (bytesLE 1 cause))

/-- The request written in the core clock of a fault's entry: refused with FAULT, whichever came first (R371). [log 106 DESIGN CHOICE] -/
def refuseTie (s : State) : State :=
  if s.sys.askedAt != s.now + 1 then s
  else match s.sys.waiting, s.sys.after with
    | some r, _ => refuse (s.modSys fun y => { y with waiting := none }) r 2
    | none, some t => if t.2 = 2 then refuse s t.1 2 else s
    | none, none => s

/-- An entry that a fault forces: SAFE with its cause, from a mode that shows or stands by; DRAM leaves self-refresh (R370, R372). [log 103 DEDUCED] -/
def safeEntry (s : State) (cause : Nat) : State :=
  if s.mode = mSafe || s.mode < mStandby then s
  else
    ((dramSleep (pixWake (refuseTie s) 8) false).wr F.SYS_MSTAT_BUSY 1).modSys fun y =>
      { y with going := some (mSafe, cause), after := none, wake := none, faultAt := s.now + 1 }

/-- A request for SENTRY has been accepted and is under way, its first hop or its entry (R371, R373). -/
def sleeping (s : State) : Bool := s.sys.going.isSome && (s.sys.going.any (fun g => g.1 == mSentry) || s.sys.after.any fun t => t.1 == mSentry)

/-- The transition in hand completes, with the replies to the enumeration of R246. [log 109 DEDUCED] -/
def modeDone (s : State) (replies : List EnumReply) : State :=
  match s.sys.going with
  | none => s
  | some g =>
    if g.1 = mSentry then s
    else
      let wasSentry := s.mode == mSentry
      let s0 := modeEntry (if g.1 = mBypass then portsDown s 0 else s) g.1 g.2
      let s1 := if s.mode = mBypass then tryRise s0 else s0
      let fault := decide (4 ≤ g.2) && decide (g.2 ≤ 8) && g.1 == mSafe
      let s2 := if s1.displays && !fault then drvStart s1 replies else s1
      let s3 := if wasSentry then
          let w := s.sys.wake.getD 0
          raise ((dramSleep (dramSleep (portsUp s2) false) true).wr F.PWR_WAKE_LAST w) 26 (d2 w 0)
        else s2
      let s4 := if s.sys.starting.isSome then dramSleep s3 true else s3
      let s5 := s4.modSys fun y => { y with starting := none, wake := if sleeping s then y.wake else none }
      match s.sys.after with
      | some t =>
        if t.1 = g.1 then modeNext ((s5.wr F.SYS_MSTAT_RESULT (if g.2 = 2 then 1 else s5.rd F.SYS_MSTAT_RESULT)).modSys fun y => { y with after := none })
        else match refusal s5 t.1 with
          | some r => modeNext (refuse (s5.modSys fun y => { y with after := none, wake := none }) t.1 r)
          | none =>
          if noPlace s5 t.1 then modeNext (s5.modSys fun y => { y with after := none, waiting := some (y.waiting.getD t.1) }) else begin_ s5 t.1 t.2
      | none => modeNext s5
where
  /-- The request that waited for the transition, or that the PRELOAD list wrote. -/
  modeNext (s : State) : State :=
    match s.sys.waiting, s.sys.preloadReq with
    | some r, _ => modeRequest (s.modSys fun y => { y with waiting := none, preloadReq := none }) r
    | none, some r => modeRequest (s.modSys fun y => { y with preloadReq := none }) r
    | none, none => s

/-- BYPASS in reset on a fault: display and ports off, the core stopped (R61, R364, R385). -/
def bypassReset (s : State) (cause : Nat) : State :=
  let s1 := modeEntry (portsDown (drvStop s 2) 1) mBypass cause
  (s1.wr F.CKG_STAT_LOCK 0).modSys fun y => { y with after := none, waiting := none, starting := none, preloadReq := none, low := 3 }

/-- Reed was not ready 20 µs after its restart (R364). -/
def reedTimeout (s : State) : State :=
  if !s.sys.reedRestart || s.on F.CKG_STAT_REED_READY then s else bypassReset s 8

/-! SENTRY (R373). -/

/-- The UPD registers that show the flash and the running image: they follow the hardware (R9, R408). -/
def showsImage (a : Nat) : Bool :=
  [R.UPD_STAT, R.UPD_GEN, R.UPD_MFID, R.UPD_MFID_PREV, R.UPD_SLOTA, R.UPD_SLOTB, R.UPD_VERA, R.UPD_VERB, R.UPD_FLASH, R.UPD_LOADT].contains a

/-- The state of a unit that is powered off returns to reset (R367). [log 108 DEDUCED] -/
def unitReset (s : State) (u : Nat) : State :=
  let f := State.fresh s.strap s.upd.flash
  let blocks := match u with
    | 0 => [3] | 1 => [] | 2 => [] | 3 => [5, 6] | _ => [u + 3]
  let mcLo := 0x40000 + 0x8000 * (u - 1)
  let gone := fun a => (blocks.contains (a / 0x10000) && !(showsImage a)) || ((u == 1 || u == 2) && decide (mcLo ≤ a) && decide (a < mcLo + 0x8000))
  let s1 := { s with regs := s.regs.filter fun e => !(gone e.1) }
  match u with
  | 0 => { s1 with hif := f.hif }
  | 1 => s1.setDch 0 DramChan.init
  | 2 => s1.setDch 1 DramChan.init
  | 3 => { s1 with ports := f.ports, ring := f.ring }
  | 4 => { s1 with wt := f.wt }
  | 5 => { s1 with xa := f.xa }
  | 6 => { s1 with ni := f.ni }
  | 7 => { s1 with cmp := f.cmp }
  | 8 => { s1 with pix := f.pix }
  | 9 => { s1 with cal := f.cal }
  | 10 => { s1 with drv := f.drv }
  | 11 => { s1 with chk := f.chk }
  | 12 => { s1 with pair := f.pair }
  | 13 => { s1 with hk := f.hk }
  | 14 => { s1.wr F.UPD_STAT_SESS 0 with upd := f.upd }
  | _ => { s1 with obs := f.obs }

/-- Entry to SENTRY completes, or a wake latched since the request undoes it (R373). [log 106 DESIGN CHOICE] -/
def sentryEntry (s : State) : State :=
  match s.sys.going with
  | some (1, c) =>
    match s.sys.wake with
    | some w =>
      let s1 := ((s.wr F.SYS_MSTAT_BUSY 0).wr F.SYS_MSTAT_RESULT 2).wr F.PWR_WAKE_LAST w
      (raise s1 4 (d2 w 0)).modSys fun y => { y with going := none, after := none, wake := none }
    | none =>
      let s1 := modeEntry (portsDown s 0) mSentry c
      let off := (2 ^ 16 - 1) - s1.rd F.PWR_DSLP_EN_DSLP
      let s2 := forIdx 16 s1 fun s u => if off.testBit u then unitReset s u else s
      let s3 := (((s2.wr F.CKG_STAT_LOCK 0).wr F.CKG_STAT_REED_READY 0).wr F.CKG_STAT_XO_OK 0).wr F.CKG_STAT_REED_PATH 0
      let s4 := showDiv ((s3.wr F.CKG_STAT_DROOP 0).modSys fun y => { y with ramp := 3, path := 0, stopped := [], pllSrc := [], off := off })
      (s4.wr F.SYS_MSTAT_RESULT 1).modSys fun y => { y with after := none }
  | _ => s

/-- A wake source (1 Vodan, 2 signal detect, 3 EVT_IN, 4 timer) that PWR_WAKE enables: latched from the acceptance of a request for SENTRY,
a wake once in SENTRY (R373). -/
def wakeBy (s : State) (w : Nat) (enabled : Bool) : State :=
  if !enabled then s
  else if sleeping s then s.modSys fun y => { y with wake := some (y.wake.getD w) }
  else match s.sys.going with
    | some _ => s
    | none =>
      if s.mode != mSentry then s
      else (s.wr F.SYS_MSTAT_BUSY 1).modSys fun y => { y with going := some (mStandby, 3), after := some (mStandby, 3), wake := some w }

/-! Thermal shutdown (R385). -/

/-- The die shutdown level: BYPASS in reset with cause 6h, the restart timer where AUTO_RESTART is set. [log 102 DEDUCED] -/
def dieShutdown (s : State) : State :=
  let s1 := bypassReset (s.bump F.HK_SDCNT_COUNT 1) 6
  { s1 with hk := { s1.hk with restart := s.on F.HK_CTL_AUTO_RESTART } }

/-- RESTART_WAIT has passed: start-up from step 2 of R374, straps as they are. -/
def restartWait (s : State) : State := if !s.hk.restart then s else startUp (warmReset s) 6

/-- Milliseconds by mode, in RUN-quiet and throttled (R414): counted where the wall tick passes a whole millisecond. -/
def countMs (s : State) (before : Nat) : State :=
  if s.now / msPs = before / msPs then s
  else
    let s1 := count s (48 + s.mode) 1
    let s2 := if s.quiet then count s1 54 1 else s1
    if s.rd F.HK_STAT_THR < 16 then count s2 55 1 else s2

end Sys2Proof.Machine
end

