-- ==== Sys2Proof/Machine/HkOps.lean ====
section
/-! DEFINITION. Machine/HkOps.lean: slow rounds, sensor health, limits, the throttle (chapter *Housekeeping and thermal
management*). -/
namespace Sys2Proof.Machine

def State.modHk (s : State) (f : Hk → Hk) : State := { s with hk := f s.hk }

/-- Whether a channel is converted: channels 0 to 3 always (R377). -/
def hkOn (s : State) (c : Nat) : Bool := c < 4 || (s.rd F.HK_CHEN_EN).testBit c

def hkFailed (s : State) (c : Nat) : Bool := (s.rd F.HK_FAILED_FAILED).testBit c

/-- Sensors of a class: 1 die, 2 zone. -/
def classOf (s : State) (k : Nat) : List Nat := if k = 1 then [0, 1, 2, 3] else ([4, 5, 6, 7, 8, 9, 10, 11] : List Nat).filter (hkOn s)

/-- The temperature of an NTC code (R378). -/
def ntcTemp (s : State) (code : Nat) : Int :=
  let k := code / 128 % 32
  let a := s.rdS (F.HK_NTC_TEMP k)
  a + ((s.rdS (F.HK_NTC_TEMP (k + 1)) - a) * ((code % 128 : Nat) : Int) + 64) / 128

/-- A channel's value of a round in the unit of R377: NTC channels report a code, die sensors 1/16 °C, the others HK_VAL's unit. -/
def hkValue (s : State) (c raw : Nat) : Int :=
  if 4 ≤ c && c ≤ 12 then ntcTemp s (raw % 4096) else if c < 4 then signed raw 16 else (raw : Int)

def insertInt (x : Int) : List Int → List Int
  | [] => [x]
  | y :: r => if x ≤ y then x :: y :: r else y :: insertInt x r

/-- The median, the mean of the middle two for an even number. [log 93 DEDUCED] -/
def medianI (l : List Int) : Int :=
  let v := l.foldl (fun a x => insertInt x a) []
  let n := v.length
  if n % 2 = 1 then v.getD (n / 2) 0 else (v.getD (n / 2 - 1) 0 + v.getD (n / 2) 0) / 2

/-- Why a sensor is bad in a round (R380): 1 code low, 2 code high, 3 self-check, 4 median. -/
def sensorBad (s : State) (vals : List Nat) (dieBad c : Nat) : Option Nat :=
  let raw := vals.getD c 0
  if 4 ≤ c then
    if raw % 4096 ≤ s.rd F.HK_FAIL_FAIL_LO then some 1 else if s.rd F.HK_FAIL_FAIL_HI ≤ raw % 4096 then some 2 else none
  else if dieBad.testBit c then some 3
  else
    let others := (([0, 1, 2, 3] : List Nat).filter fun d => d != c && !(hkFailed s d) && !(dieBad.testBit d)).map fun d => hkValue s d (vals.getD d 0)
    if !others.isEmpty && decide (240 < (hkValue s c raw - medianI others).natAbs) then some 4 else none

/-- Health of one sensor (R380): failed after 2 bad rounds, back after 8 good ones. -/
def judgeSensor (vals : List Nat) (dieBad : Nat) (s : State) (c : Nat) : State :=
  if !(hkOn s c) then s
  else
    let f := s.rd F.HK_FAILED_FAILED
    let put := fun (s : State) v => (s.wr F.HK_FAILED_FAILED (setBits f c 1 v)).wr (F.HK_VAL_FAILED c) v
    match sensorBad s vals dieBad c with
    | some k =>
      let n := min 2 (s.hk.bad.get 0 c + 1)
      let s1 := s.modHk fun h => { h with bad := h.bad.set 0 c n, ok := h.ok.set 0 c 0 }
      if n = 2 && !f.testBit c then raise (put s1 1) 483 (d2 c k) else s1
    | none =>
      let n := min 8 (s.hk.ok.get 0 c + 1)
      let s1 := s.modHk fun h => { h with ok := h.ok.set 0 c n, bad := h.bad.set 0 c 0 }
      if n = 8 && f.testBit c then raise (put s1 0) 484 (d2 c 0) else s1

/-- Shows a channel's value with its flags. -/
def showVal (s : State) (c : Nat) (v : Int) (subst : Nat) : State :=
  ((((s.wr (F.HK_VAL_VALUE c) (toBits v 16)).wr (F.HK_VAL_VALID c) 1).wr (F.HK_VAL_SUBST c) subst)).wr (F.HK_VAL_UNTRACED c) (1 - s.rd F.CAL_STAT_TRACED)

/-- The values of a class, with substitutes for failed sensors; a class without a healthy sensor is blind (R381). -/
def showClass (vals : List Nat) (s : State) (k : Nat) : State :=
  let l := classOf s k
  let good := l.filter fun c => !(hkFailed s c)
  let v := fun c => hkValue s c (vals.getD c 0)
  let s1 := good.foldl (fun s c => (showVal s c (v c) 0).modHk fun h => { h with good := h.good.set 0 c (toBits (v c) 16) }) s
  let was := (s.rd F.HK_STAT_BLIND).testBit (k - 1)
  if l.isEmpty then s1
  else if good.isEmpty then
    let s2 := l.foldl (fun s c => showVal s c (signed (s.hk.good.get 0 c) 16) 1) s1
    let s3 := s2.wr F.HK_STAT_BLIND (setBits (s2.rd F.HK_STAT_BLIND) (k - 1) 1 1)
    if was then s3 else raise s3 485 (d2 k 0)
  else
    let top := good.foldl (fun m c => max m (v c)) (-32768)
    let s2 := (l.filter (hkFailed s)).foldl (fun s c => showVal s c (top + 16 * s.rd F.HK_CTL_SUBST_MARGIN) 1) s1
    s2.wr F.HK_STAT_BLIND (setBits (s2.rd F.HK_STAT_BLIND) (k - 1) 1 0)

def classBlind (s : State) (k : Nat) : Bool := (s.rd F.HK_STAT_BLIND).testBit (k - 1) || (classOf s k).isEmpty

/-- The class reading and its channel: the highest value, substitutes included (R382). -/
def classTop (s : State) (k : Nat) : Int × Nat :=
  (classOf s k).foldl (fun m c => let v := signed (s.rd (F.HK_VAL_VALUE c)) 16; if m.1 < v then (v, c) else m) (-32769, 0)

def limOf (s : State) (k n : Nat) : Int :=
  let f := match k, n with
    | 1, 1 => F.HK_LIM_DIE_WARN | 1, 2 => F.HK_LIM_DIE_THROT | 1, _ => F.HK_LIM_DIE_SD
    | _, 1 => F.HK_LIM_ZONE_WARN | _, 2 => F.HK_LIM_ZONE_THROT | _, _ => F.HK_LIM_ZONE_SD
  (16 * s.rd f : Nat)

def hystOf (s : State) (k : Nat) : Int := (16 * s.rd1 (if k = 1 then F.HK_LIM_DIE_HYST else F.HK_LIM_ZONE_HYST) : Nat)
def lvlRef (k : Nat) : FRef := if k = 1 then F.HK_STAT_DIE_LVL else F.HK_STAT_ZONE_LVL

/-- The level of a class after a round: entered at its limit, left below limit minus hysteresis (R382). -/
def levelOf (s : State) (k : Nat) : Nat :=
  let was := s.rd (lvlRef k)
  let t := (classTop s k).1
  let holds := fun n => decide (limOf s k n ≤ t) || (decide (n ≤ was) && decide (limOf s k n - hystOf s k ≤ t))
  if holds 3 then 3 else if holds 2 then 2 else if holds 1 then 1 else 0

/-- Levels of a class, with HK_WARN and HK_SHUTDOWN; a blind class takes no part (R381, R382, R385). [log 92 DEDUCED] -/
def judgeClass (s : State) (k : Nat) : State :=
  let was := s.rd (lvlRef k)
  if classBlind s k then s.wr (lvlRef k) 0
  else
    let n := levelOf s k
    let ch := (classTop s k).2
    let s1 := s.wr (lvlRef k) n
    let s2 := if was = 0 && n != 0 then raise s1 480 (d2 k 1 ++ bytesLE 1 ch) else if was != 0 && n = 0 then raise s1 480 (d2 k 0 ++ bytesLE 1 ch) else s1
    if n = 3 && was != 3 then raise s2 482 (d2 k ch ++ bytesLE 2 (toBits (classTop s k).1 16)) else s2

/-- The nominal value of a supply channel in 0.1 mV (R383, R431). -/
def supplyNominal (s : State) (c : Nat) : Nat :=
  match c with
  | 13 => 7500 | 14 => 8000 | 15 => 8500 | 16 => 12000 | 17 => 12000 | 18 => 33000
  | _ => vSet s / 100

/-- A supply outside its range in two rounds in a row, once for each episode (R383); the lamp rail while it regulates. [log 94 DEDUCED] -/
def judgeSupply (s : State) (c : Nat) : State :=
  let v := s.rd (F.HK_VAL_VALUE c)
  let nom := supplyNominal s c
  let tol := nom * s.rd1 F.HK_CTL_SUP_TOL
  let low := decide (100 * v + tol < 100 * nom)
  let high := decide (100 * nom + tol < 100 * v)
  if !(hkOn s c) || (c = 20 && railState s != 2 && railState s != 3) || !(low || high) then s.modHk fun h => { h with supply := h.supply.set 0 c 0 }
  else
    let n := min 3 (s.hk.supply.get 0 c + 1)
    let s1 := s.modHk fun h => { h with supply := h.supply.set 0 c n }
    if n = 2 then raise s1 486 (d2 c (if low then 1 else 2) ++ bytesLE 2 v) else s1

/-- VREF_EXT against its window: CAL_STAT.TRACED (R211). -/
def judgeTrace (s : State) : State :=
  if !(hkOn s 21) then s
  else
    let v := s.rd (F.HK_VAL_VALUE 21)
    let ok := decide (12375 ≤ v) && decide (v ≤ 12625)
    let n := if ok then min 2 (s.cal.vrefRun + 1) else 0
    let t := b2n (n == 2)
    let want := if ok && n < 2 then s.rd F.CAL_STAT_TRACED else t
    let s1 := s.modCal fun c => { c with vrefRun := n }
    if want = s.rd F.CAL_STAT_TRACED then s1 else raise (s1.wr F.CAL_STAT_TRACED want) 360 (d2 want 0)

/-- THR changes (R384). -/
def setThr (s : State) (v dir : Nat) : State :=
  let s1 := raise ((s.wr F.HK_STAT_THR v).wr F.PIX_SCALE_THR v) 481 (d2 v dir)
  let s2 := s1.modHk fun h => { h with thrAt := some s.now }
  let s3 := if v = 16 then s2.modCal fun c => { c with thrBack := some s.now } else s2
  if s.isSender then s3 else pixTouch s3 5

/-- The throttle at the end of a round: the first row of R384 that holds. -/
def judgeThr (s : State) : State :=
  let thr := s.rd F.HK_STAT_THR
  let passed := match s.hk.thrAt with | none => true | some t => decide (t + s.rd1 F.HK_CTL_HK_THR_STEP * secPs ≤ s.now)
  let cls := ([1, 2] : List Nat).filter fun k => !(classBlind s k)
  if cls.any fun k => decide (2 ≤ s.rd (lvlRef k)) then
    if 4 < thr && (passed || thr = 16) then setThr s (thr - 1) 1 else s
  else if s.on F.HK_STAT_SUBST || s.on F.HK_STAT_BLIND then s
  else if cls.all fun k => decide ((classTop s k).1 < limOf s k 2 - hystOf s k) then
    if thr < 16 && passed then setThr s (thr + 1) 2 else s
  else s

/-- A slow round starts (R377): housekeeping is clocked outside SENTRY and reset (R367, R370). -/
def roundStart (s : State) : State :=
  if s.sys.low != 0 || s.mode = mSentry then s else s.modHk fun h => { h with running := true }

/-- A slow round ends (R377 to R385): sensors, classes, supplies, traceability, refresh mode, throttle, shutdown. -/
def roundEnd (s : State) (vals : List Nat) (dieBad : Nat) : State :=
  if !s.hk.running then s
  else
    let s0 := (s.bump F.HK_STAT_ROUNDS 1).modHk fun h => { h with running := false }
    let s1 := (List.range 13).foldl (judgeSensor vals dieBad) s0
    let s2 := showClass vals (showClass vals s1 1) 2
    let plain := (List.range 32).filter fun c => 12 ≤ c && hkOn s c
    let s3 := plain.foldl (fun s c => showVal s c (hkValue s c (vals.getD c 0)) 0) s2
    let sub := anyIdx 12 fun c => s3.on (F.HK_VAL_SUBST c)
    let s4 := judgeClass (judgeClass (s3.wr F.HK_STAT_SUBST (b2n sub)) 1) 2
    let s5 := ([13, 14, 15, 16, 17, 18, 20] : List Nat).foldl judgeSupply s4
    let temp := signed (s5.rd (F.HK_VAL_VALUE 12)) 16
    let mode := fun s c => refreshMode s c temp (!(hkFailed s5 12))
    let s6 := if !(hkOn s 12) then s5 else if s.isSender then mode (mode s5 0) 1 else mode s5 0
    let s7 := judgeHold (judgeThr (judgeTrace s6))
    let s8 := if s7.on F.CAL_CTL_BLEND_EN && zoneMoved s7 then pixWake s7 5 else s7
    let s9 := if s8.rd F.HK_STAT_ZONE_LVL = 3 && s.rd F.HK_STAT_ZONE_LVL != 3 then safeEntry (drvStop s8 2) 5 else s8
    if s9.rd F.HK_STAT_DIE_LVL = 3 && s.rd F.HK_STAT_DIE_LVL != 3 then dieShutdown s9 else s9

/-- A rail overvoltage asks for SAFE (R253, R372). -/
def railPeriod (s : State) (v i : Nat) : State :=
  let x := railStep s v i
  if x.2 then safeEntry x.1 4 else x.1

end Sys2Proof.Machine
end

