-- ==== Sys2Proof/Machine/UpdOps.lean ====
section
/-! DEFINITION. Machine/UpdOps.lean: the flash, images, start-up loading, update sessions, activation and the Vodan port (chapter
*Images, start-up loading and field update*). -/
namespace Sys2Proof.Machine

def State.modUpd (s : State) (f : Upd → Upd) : State := { s with upd := f s.upd }

/-! The flash (R387, R388). -/

/-- The end of the golden image, which no command writes (R388). -/
def goldenEnd : Nat := 0xC00000
def flashByte (s : State) (a : Nat) : Byte := s.upd.flash.get 0xFF#8 a
def flashRead (s : State) (a n : Nat) : List Byte := s.upd.flash.getMany 0xFF#8 a n
def flashLe (s : State) (a n : Nat) : Nat := leNat (flashRead s a n)

/-- Programs bytes in place: a bit goes from 1 to 0 only. -/
def flashProg (s : State) (a : Nat) (l : List Byte) : State :=
  let old := flashRead s a l.length
  s.modUpd fun u => { u with flash := Table.setMany 0xFF#8 u.flash a ((l.zip old).map fun e => e.1 &&& e.2) }

/-- Erases `n` bytes. [log 110 DEDUCED] -/
def flashErase (s : State) (a n : Nat) : State := s.modUpd fun u => { u with flash := u.flash.clear a n }

/-- First address of a slot: 0 A, 1 B, 2 golden. -/
def slotBase (k : Nat) : Nat := match k with | 0 => 0x2000000 | 1 => 0x5000000 | _ => 0
def slotSize (k : Nat) : Nat := if k = 2 then goldenEnd else 0x3000000
def spareBase : Nat := goldenEnd
def spareSize : Nat := 0x1400000

/-! Headers and activation entries (R389 to R392). -/

def headerCrcOk (s : State) (b : Nat) : Bool := crc32 (flashRead s b 0xBF8) == flashLe s (b + 0xBF8) 4
def verified (s : State) (b : Nat) : Bool := (flashRead s (b + 0xC00) 16).all (· == 0#8)
def entryAddr (b n : Nat) : Nat := b + 0xC10 + 16 * n
def entryGen (s : State) (b n : Nat) : Nat := flashLe s (entryAddr b n) 4
/-- A valid activation entry (R391). -/
def entryValid (s : State) (b n : Nat) : Bool :=
  let g := entryGen s b n
  1 ≤ g && g ≤ 0xFFFFFFFE && crc32 (flashRead s (entryAddr b n) 8) == flashLe s (entryAddr b n + 12) 4
def entryGood (s : State) (b n : Nat) : Bool := entryValid s b n && flashByte s (entryAddr b n + 8) == 0xFF#8
/-- Entries used: those that are not erased throughout. [log 110 DEDUCED] -/
def entriesUsed (s : State) (b : Nat) : Nat := ((List.range 63).filter fun n => (flashRead s (entryAddr b n) 16).any (· != 0xFF#8)).length
/-- The first entry not used. [log 110 DEDUCED] -/
def entryFree (s : State) (b : Nat) : Option Nat := firstIdx 63 fun n => (flashRead s (entryAddr b n) 16).all (· == 0xFF#8)
/-- A slot that a start may select (R391). -/
def selectable (s : State) (k : Nat) : Bool :=
  let b := slotBase k
  k < 2 && verified s b && headerCrcOk s b && anyIdx 63 (entryGood s b)
/-- The good entry with the highest GEN: its index. -/
def runningEntry (s : State) (b : Nat) : Option Nat :=
  (List.range 63).foldl (fun m n => if !(entryGood s b n) then m else match m with
    | none => some n
    | some k => if entryGen s b k < entryGen s b n then some n else m) none
def slotGen (s : State) (k : Nat) : Nat := match runningEntry s (slotBase k) with | some n => entryGen s (slotBase k) n | none => 0
/-- The highest valid GEN in either slot (R404). -/
def topGen (s : State) : Nat :=
  ([0, 1] : List Nat).foldl (fun m k => (List.range 63).foldl (fun m n => if entryValid s (slotBase k) n then max m (entryGen s (slotBase k) n) else m) m) 0

/-- UPD_SLOTA, UPD_SLOTB, UPD_VERA and UPD_VERB as the flash stands. -/
def showSlots (s : State) : State :=
  let ver := fun k => if headerCrcOk s (slotBase k) then flashLe s (slotBase k + 12) 4 else 0
  let word := fun k => b2n (verified s (slotBase k)) + 2 * b2n (selectable s k) + 4 * entriesUsed s (slotBase k)
  (((s.setReg R.UPD_SLOTA (word 0)).setReg R.UPD_SLOTB (word 1)).setReg R.UPD_VERA (ver 0)).setReg R.UPD_VERB (ver 1)

/-- The slot a start takes (R392): the selectable one with the higher generation, else golden. -/
def chooseSlot (s : State) : Nat :=
  match selectable s 0, selectable s 1 with
  | true, true => if slotGen s 0 < slotGen s 1 then 1 else 0
  | true, false => 0
  | false, true => 1
  | false, false => 2

/-! Sections (R389, R390). -/

/-- A directory entry: TYPE, OFFSET, SIZE, CRC. -/
structure Section where
  type : Nat
  addr : Nat
  size : Nat
  crc : Nat
deriving DecidableEq, Repr

def sections (s : State) (b : Nat) : List Section :=
  (List.range (min 16 (flashLe s (b + 7) 1))).map fun i =>
    let d := b + 16 + 16 * i
    ⟨flashLe s d 1, b + flashLe s (d + 4) 4, flashLe s (d + 8) 4, flashLe s (d + 12) 4⟩

/-- Sections a role uses (R390). -/
def sectionUsed (s : State) (t : Nat) : Bool := t == 4 || (!s.isSender && 1 ≤ t && t ≤ 6)
def sectionCrcOk (s : State) (e : Section) : Bool := crc32 (flashRead s e.addr e.size) == e.crc
def findSection (s : State) (b t : Nat) : Option Section := if sectionUsed s t then (sections s b).find? fun e => e.type == t else none
/-- A section's bytes, none where the image has no such section. -/
def sectionBytes (s : State) (b t : Nat) : List Byte :=
  match findSection s b t with
  | some e => flashRead s e.addr e.size
  | none => []
def sectionWords (s : State) (b t : Nat) : List Nat := let l := sectionBytes s b t; wordsLE (l.length / 4) l

/-- Register addresses that a section's words go to, in order (R390). -/
def sectionRegs (t : Nat) : List Nat :=
  match t with
  | 1 => [R.PIX_GEOM, R.PIX_FBBASE]
  | 2 => [R.DRV_TOPO, R.DRV_LINE, R.DRV_TIME] ++ (List.range 16).map R.DRV_PCFG ++ (List.range 512).map R.DRV_DMAP ++
         (List.range 512).map R.DRV_SCANMAP ++ (List.range 256).map R.CAL_ZMAP
  | 3 => (List.range 4096).map (fun i => 0xD4000 + 4 * i) ++ (List.range 8192).map R.DRV_LGBMP ++ (List.range 32).map R.DRV_LGLVL
  | _ => []

/-- Register words that a section gives: address and value. -/
def sectionWrites (s : State) (b t : Nat) : List (Nat × Nat) := (sectionRegs t).zip (sectionWords s b t)

/-- A word within the ranges of its register's fields. -/
def wordInRange (e : Nat × Nat) : Bool :=
  match findReg e.1 with
  | none => false
  | some r => r.fields.all fun f => match f.lim with
    | none => true
    | some l => let v := bits e.2 f.lo f.w; decide (l.1 ≤ v) && decide (v ≤ l.2)

/-- The PRELOAD list: address and data, at most 4,096 entries. -/
def preload (s : State) (b : Nat) : List (Nat × Nat) :=
  let w := sectionWords s b 4
  (List.range (min 4096 (w.length / 2))).map fun i => (w.getD (2 * i) 0, w.getD (2 * i + 1) 0)

def preloadAddrOk (a : Nat) : Bool := decide (a < 0x130000)

/-- The header check of R394 step 1: 0 passed, else the DETAIL of R402 (1 header, 3 role, 4 format, 6 length). -/
def headerFault (s : State) (b size : Nat) : Nat :=
  let n := flashLe s (b + 7) 1
  if flashLe s b 4 != 0x4D463936 || !(headerCrcOk s b) || n = 0 || 16 < n then 1
  else if flashLe s (b + 4) 2 != 2 then 4
  else if flashLe s (b + 6) 1 != s.strap.role.code then 3
  else if size < flashLe s (b + 8) 4 then 6 else 0

/-- The checks of R394 step 2. -/
def sectionsOk (s : State) (b : Nat) : Bool :=
  (sections s b).all fun e => 1 ≤ e.type && e.type ≤ 6 && (!(sectionUsed s e.type) || 5 ≤ e.type || sectionCrcOk s e) &&
    ((e.type != 1 && e.type != 2 && e.type != 3) || !(sectionUsed s e.type) || (sectionWrites s b e.type).all wordInRange)

/-- The CRCs of SAFE and CAL. -/
def streamsOk (s : State) (b : Nat) : Bool := (sections s b).all fun e => e.type < 5 || !(sectionUsed s e.type) || sectionCrcOk s e

/-! Calibration at load (R212 to R217, R395). -/

def areaBase (s : State) (one : Bool) : Nat := 4096 * (if one then s.rd F.UPD_AREA1_BASE else s.rd F.UPD_AREA0_BASE)
def calOffset : Nat := 0x180000

/-- The migrated copy of the spare area that fits a format 1 section (R216). -/
def spareCopy (s : State) (h : List Byte) : Option (List Byte) :=
  let c := flashRead s spareBase 80
  let n := 4096 + leAt c 2 1 * setSize (leAt c 4 4)
  if leAt c 64 4 == crc32 (slice c 0 64) && leAt c 0 2 == 2 && (leAt c 24 1).testBit 0 && leAt c 68 4 == leAt h 64 4 then some (flashRead s spareBase n) else none

/-- A CAL section as it is used: in format 2, with whether it was converted here and whether it is a migrated one (R216). -/
def calForm (s : State) (sec : List Byte) : List Byte × Bool × Bool :=
  if leAt sec 0 2 != 1 then (sec, false, (leAt sec 24 1).testBit 0)
  else match spareCopy s sec with
    | some c => (c, false, true)
    | none => (convertSection s sec, true, true)

/-- Writes the migrated section into the spare area, header last, and reports it (R216). -/
def migrate (s : State) (c : List Byte) (flashOk : Bool) : State :=
  if !flashOk || spareSize < c.length then raise s 353 (d2 2 0)
  else
    let s1 := flashErase s spareBase (ceilDiv c.length 4096 * 4096)
    raise (flashProg (flashProg s1 (spareBase + 4096) (c.drop 4096)) spareBase (c.take 4096)) 353 (d2 1 0)

/-- CAL of the image at `b` into an area and into use (R212, R215, R216); `flashOk` is the outcome of a migration's writes. [log 98 DEDUCED] -/
def loadCal (s : State) (b : Nat) (flashOk : Bool) : State :=
  let base := areaBase s (s.on F.UPD_STAT_LIVE_AREA) + calOffset
  let s0 := s.wr F.CAL_SETBASE_BASE (base / 4096)
  let sec := sectionBytes s b 6
  if sec.isEmpty then noSets s0 3
  else if !(calHeaderOk s0 sec) then noSets (dramWrite s0 base sec) 1
  else
    let c := calForm s0 sec
    let s1 := dramWrite s0 base c.1
    let s2 := if c.2.1 then migrate s1 c.1 flashOk else s1
    useSection s2 (leAt sec 0 2) c.2.2

/-! Loading at start-up (R393 to R395). -/

/-- A channel's training inside a load, with what it trained to (R351, R394). -/
def loadTrain (s : State) (c : Nat) (t : Train) : State :=
  let s1 := if mcState s c = 0 then mcEnable (s.wr (F.MC_CTL_EN c) 1) c else s
  if mcState s1 c != 1 then s1
  else match t with
    | .ok v r x w => trainOk s1 c v.toNat r.toNat x.toNat w.toNat
    | .fail st l => trainFail s1 c st.toNat l.toNat

/-- Takes a slot as the running one (R392). -/
def takeSlot (s : State) (k : Nat) : State :=
  let b := slotBase k
  let e := if k = 2 then none else runningEntry s b
  let gen := match e with | some n => entryGen s b n | none => 0
  let mfid := match e with | some n => flashLe s (entryAddr b n + 4) 4 | none => 0
  ((s.wr F.UPD_STAT_RUNNING k).wr F.UPD_GEN_GEN gen).wr F.UPD_MFID_MFID mfid

/-- A start from slot `k` (R394): the state and the step that failed, 0 for none. `put` writes one register as a PRELOAD entry. [log 113 DEDUCED] -/
def loadFrom (put : State → Nat → Nat → State) (s : State) (k : Nat) (t0 t1 : Train) (flashOk : Bool) : State × Nat :=
  let b := slotBase k
  let s0 := takeSlot s k
  if headerFault s0 b (slotSize k) != 0 then (s0, 1)
  else if !(sectionsOk s0 b) then (s0, 2)
  else
    let l := preload s0 b
    let s1 := ([1, 2, 3] : List Nat).foldl (fun s t => (sectionWrites s b t).foldl (fun s e => s.setReg e.1 e.2) s) s0
    let s2 := if s1.isSender then s1 else forIdx 32 s1 judgeGroup
    if !(l.all fun e => preloadAddrOk e.1) then (s2, 3)
    else
      let s3 := (l.filter fun e => e.1 / 0x10000 != 12).foldl (fun s e => put s e.1 e.2) s2
      let s4 := loadTrain s3 0 t0
      let s5 := if s4.isSender then loadTrain s4 1 t1 else s4
      if !(streamsOk s5 b) then (s5, 5)
      else if s5.isSender then (s5, 0)
      else
        let s6 := loadCal (dramWrite s5 (areaBase s5 false) (sectionBytes s5 b 5)) b flashOk
        let s7 := (l.filter fun e => e.1 / 0x10000 == 12).foldl (fun s e => put s e.1 e.2) (loadMode s6)
        (loadBlend (s7.wr F.CAL_SETBASE_BASE ((areaBase s7 false + calOffset) / 4096)), 0)

/-- Attempts in turn (R393): after each failure its entry is failed, then the other slot where it is selectable, by another entry of it
where it has failed before, else golden. Each failure uses an entry up, of at most 126. [log 113 DEDUCED] -/
def attempts (put : State → Nat → Nat → State) (t0 t1 : Train) (flashOk : Bool) : Nat → State → Nat → State × Bool
  | 0, s, _ => (s, false)
  | n + 1, s, k =>
    let r := loadFrom put s k t0 t1 flashOk
    if r.2 = 0 then (r.1, true)
    else if k = 2 then (r.1, false)
    else
      let s1 := r.1.wr F.UPD_LOADT_FAILSTEP r.2
      let s2 := match runningEntry s (slotBase k) with
        | some e => flashProg s1 (entryAddr (slotBase k) e + 8) [0#8]
        | none => s1
      let nxt := if selectable s2 (1 - k) then 1 - k else 2
      attempts put t0 t1 flashOk n (raise s2 498 (d2 k nxt ++ bytesLE 1 r.2)) nxt

/-- Stays in BYPASS with a cause of R372 (R387, R393). [log 102 DEDUCED] -/
def stayBypass (s : State) (cause : Nat) : State :=
  (s.wr F.SYS_MSTAT_CAUSE cause).modSys fun y => { y with starting := none, low := 3 }

/-- IMAGE_LOAD: steps 5 and 6 of R374; `sfdp` gives flash size in MiB and clock in MHz, none without a usable SFDP table. -/
def imageLoad (put : State → Nat → Nat → State) (s : State) (sfdp : Option (Nat × Nat)) (ms : Nat) (t0 t1 : Train) (flashOk : Bool) : State :=
  match s.sys.starting with
  | none => s
  | some cause =>
    if s.sys.going.isSome || !(pllLocked s 0 || s.on F.CKG_STAT_REED_PATH) then s
    else match sfdp with
      | none => stayBypass (s.wr F.UPD_FLASH_SFDP_BAD 1) 10
      | some f =>
        let s0 := showSlots ((s.wr F.UPD_FLASH_SIZE f.1).wr F.UPD_FLASH_MHZ f.2)
        let r := attempts put t0 t1 flashOk 127 s0 (chooseSlot s0)
        let s1 := showSlots r.1
        if !r.2 then stayBypass s1 11
        else
          let s2 := (s1.wr F.UPD_STAT_LOADED 1).wr F.UPD_LOADT_TIME ms
          let s3 := raise s2 503 (d2 (s2.rd F.UPD_STAT_RUNNING) 0 ++ bytesLE 4 (s2.rd F.UPD_MFID_MFID) ++ bytesLE 2 ms)
          portsUp ((s3.wr F.SYS_MSTAT_BUSY 1).modSys fun y => { y with going := some (mStandby, cause), after := some (mStandby, cause) })

/-- On the way out of SENTRY the PRELOAD list is applied again to the units that were powered off; the mode engine keeps its own
state (R373). [log 108 DEDUCED] -/
def wakePreload (put : State → Nat → Nat → State) (s : State) : State :=
  if s.sys.off = 0 || s.mode != mSentry || !(s.sys.going.any fun g => g.1 != mSentry) then s
  else
    let unitOf := fun a => let k := a / 0x10000; if k = 3 then 0 else if k = 4 then (if a < 0x48000 then 1 else 2) else if k = 5 || k = 6 then 3 else if 7 ≤ k then k - 3 else 16
    let l := (preload s (slotBase (s.rd F.UPD_STAT_RUNNING))).filter fun e => s.sys.off.testBit (unitOf e.1)
    { l.foldl (fun s e => put s e.1 e.2) s with sys := { s.sys with off := 0 } }

/-! Update sessions (R396 to R402). -/

/-- An answer of a session command: STATUS, DETAIL, slot and next offset. -/
structure Reply where
  status : Nat
  detail : Nat
  slot : Nat
  next : Nat
deriving DecidableEq, Repr

def replyOf (status : Nat) (x : Session) : Reply := ⟨status, 0, x.slot, x.next⟩

def showSess (s : State) : State :=
  s.wr F.UPD_STAT_SESS (match s.upd.session with
    | some x => if x.vodan then 2 else 1
    | none => if s.upd.verifying.isSome then 3 else 0)

/-- The session ends: closed (2) or without CLOSE (3). -/
def endSession (s : State) (how : Nat) : State :=
  match s.upd.session with
  | none => s
  | some x => raise (showSess (s.modUpd fun u => { u with session := none })) 496 (d2 how (if x.vodan then 2 else 1) ++ bytesLE 1 x.slot)

/-- A staged transaction names a slot with ACTIVATE (R397). -/
def stagedActivate (s : State) (k : Nat) : Bool :=
  s.xa.uses.any fun u => match u.2 with | some v => v.ops.testBit 1 && v.slot == k | none => false

/-- OPEN (R396, R397). [log 111 DEDUCED] -/
def updOpen (s : State) (vodan : Bool) (number slot total : Nat) : State × Reply :=
  match s.upd.session with
  | some _ => (s, ⟨1, 0, slot, 0⟩)
  | none =>
    if s.upd.verifying.isSome then (s, ⟨7, 0, slot, 0⟩)
    else if 1 < slot || total = 0 || total % 8 != 0 || 0x3000000 < total then (s, ⟨4, 0, slot, 0⟩)
    else if slot = s.rd F.UPD_STAT_RUNNING then (s, ⟨5, 0, slot, 0⟩)
    else if stagedActivate s slot then (s, ⟨6, 0, slot, 0⟩)
    else
      let x : Session := { vodan := vodan, number := number, slot := slot, total := total, next := 0, last := none, erased := 0x10000, fail := none, buffer := [] }
      let s1 := flashErase s (slotBase slot) 0x10000
      let s2 := if s1.rd F.UPD_STAT_STAGED = slot + 1 then s1.wr F.UPD_STAT_STAGED 0 else s1
      let s3 := showSlots (showSess (s2.modUpd fun u => { u with session := some x, result := none }))
      (raise s3 496 (d2 1 (if vodan then 2 else 1) ++ bytesLE 1 slot), replyOf 0 x)

/-- The open session a command of a path and number belongs to (R401, R403). -/
def sessionFor (s : State) (vodan : Bool) (number : Nat) : Option Session :=
  match s.upd.session with
  | some x => if x.vodan == vodan && (vodan || x.number == number) then some x else none
  | none => none

/-- The refusal where no session of the path and number is open: BUSY where the other path holds the device under that number, which a
service command does not carry; else NO_SESSION (R401, R402). [log 115 DEDUCED] -/
def noSession (s : State) (vodan : Bool) (number : Nat) : Reply :=
  if s.upd.session.any fun x => x.vodan != vodan && (vodan || x.number == number) then ⟨1, 0, 0, 0⟩ else ⟨2, 0, 0, 0⟩

/-- An erase or program failure, told at the next DATA or CLOSE, ends the session (R398). -/
def failReply (s : State) (x : Session) (d : Nat) : State × Reply := (endSession s 3, { replyOf 8 x with detail := d })

/-- DATA (R398). -/
def updData (s : State) (vodan : Bool) (number off : Nat) (data : List Byte) : State × Reply :=
  match sessionFor s vodan number with
  | none => (s, noSession s vodan number)
  | some x =>
    let n := data.length
    match x.fail with
    | some d => failReply s x d
    | none =>
      if x.last = some (off, n) then (s, replyOf 0 x)
      else if off != x.next then (s, replyOf 3 x)
      else if n < 8 || 8184 < n || x.total < off + n then (s, replyOf 4 x)
      else if 65536 < x.buffer.length + n then (s, replyOf 7 x)
      else
        let y := { x with next := off + n, last := some (off, n), buffer := x.buffer ++ data }
        (s.modUpd fun u => { u with session := some y }, replyOf 0 y)

/-- CLOSE (R399). -/
def updClose (s : State) (vodan : Bool) (number : Nat) : State × Reply :=
  match sessionFor s vodan number with
  | none => (s, noSession s vodan number)
  | some x => match x.fail with
    | some d => failReply s x d
    | none =>
      if x.next != x.total then (s, replyOf 3 x)
      else (showSess ((endSession s 2).modUpd fun u => { u with verifying := some x }), replyOf 0 x)

/-- ABORT (R396): a ring session by its ring or by FORCE, a service session by the Vodan port. -/
def updAbort (s : State) (vodan force : Bool) (number : Nat) : State × Reply :=
  match s.upd.session with
  | none => (s, ⟨2, 0, 0, 0⟩)
  | some x =>
    if x.vodan != vodan then (if vodan && force then (endSession s 3, replyOf 0 x) else (s, replyOf 1 x))
    else if !vodan && x.number != number then (s, ⟨2, 0, 0, 0⟩)
    else (endSession s 3, replyOf 0 x)

/-- QUERY (R399, R401, R402). [log 111 DEDUCED] -/
def updQuery (s : State) (number : Nat) : Reply :=
  match s.upd.session with
  | some x => if x.number = number then replyOf 0 x else ⟨2, 0, 0, 0⟩
  | none => match s.upd.verifying with
    | some x => if x.number = number then replyOf 7 x else ⟨2, 0, 0, 0⟩
    | none => match s.upd.result with
      | some r => if r.1 = number then ⟨r.2.2.1, r.2.2.2, r.2.1, 0⟩ else ⟨2, 0, 0, 0⟩
      | none => ⟨2, 0, 0, 0⟩

/-- One erase or page program of the buffer at the head of its queue (R398): `true` for an erase, with its address and length. -/
def nextFlashOp (x : Session) : Option (Bool × Nat × Nat) :=
  if x.buffer.isEmpty then none
  else
    let w := x.next - x.buffer.length
    if x.erased ≤ w then some (true, slotBase x.slot + w / 65536 * 65536, 65536)
    else some (false, slotBase x.slot + w, min x.buffer.length (256 - w % 256))

/-- The effect of that operation where it succeeds. -/
def doFlashOp (s : State) (x : Session) : State × Session :=
  match nextFlashOp x with
  | none => (s, x)
  | some (true, a, n) => (flashErase s a n, { x with erased := x.erased + 65536 })
  | some (false, a, n) => (flashProg s a (x.buffer.take n), { x with buffer := x.buffer.drop n })

/-- FLASH_WRITE_DONE (R398): of the open session, else of the one whose buffer drains. -/
def flashDone (s : State) (ok : Bool) : State :=
  let put := fun (s : State) x => if s.upd.session.isSome then s.modUpd fun u => { u with session := some x } else s.modUpd fun u => { u with verifying := some x }
  match (s.upd.session <|> s.upd.verifying) with
  | none => s
  | some x => match nextFlashOp x with
    | none => s
    | some (er, a, n) =>
      if ok then let r := doFlashOp s x; put r.1 r.2
      else
        let y := { x with fail := some (if er then 1 else 2), buffer := if er then x.buffer else x.buffer.drop n }
        raise (put s y) 500 (d2 (if er then 1 else 2) 0 ++ bytesLE 4 a)

/-- The rest of the buffer is programmed (step 1 of R399). [log 111 DEDUCED] -/
def drain : Nat → State × Session → State × Session
  | 0, x => x
  | n + 1, x => if x.2.buffer.isEmpty then x else drain n (doFlashOp x.1 x.2)

/-- The DETAIL of a verification, 0 passed (R399, R402). -/
def verifyFault (s : State) (k : Nat) : Nat :=
  let b := slotBase k
  let h := headerFault s b (slotSize k)
  let cal := sectionBytes s b 6
  let sets := keepSets cal fun j => leAt cal (32 + 4 * j) 4 ==
    crc32 (slice cal (4096 + j * (if leAt cal 0 2 = 1 then ceilDiv (leAt cal 4 4 * 2) 4096 * 4096 else setSize (leAt cal 4 4))) (leAt cal 4 4 * (if leAt cal 0 2 = 1 then 2 else 6)))
  if h != 0 then h
  else if !(sectionsOk s b) || !(streamsOk s b) || !((preload s b).all fun e => preloadAddrOk e.1) then 2
  else if !cal.isEmpty && (!(calHeaderOk s cal) || sets.1.isEmpty) then 5 else 0

/-- SAFE and CAL of a slot into the stage area (step 3 of R399). -/
def stage (s : State) (k : Nat) : State :=
  if s.isSender then s.wr F.UPD_STAT_STAGED (k + 1)
  else
    let base := areaBase s (!(s.on F.UPD_STAT_LIVE_AREA))
    let b := slotBase k
    let cal := sectionBytes s b 6
    let s1 := dramWrite s base (sectionBytes s b 5)
    (if cal.isEmpty then s1 else dramWrite s1 (base + calOffset) (calForm s cal).1).wr F.UPD_STAT_STAGED (k + 1)

/-- VERIFY_DONE (R399): `flashOk` is the outcome of programming VERIFIED. [log 111 DEDUCED] -/
def verifyDone (s : State) (flashOk : Bool) : State :=
  match s.upd.verifying with
  | none => s
  | some x0 =>
    let d := drain 66000 (s, x0)
    let k := x0.slot
    let fault := verifyFault d.1 k
    let status := if fault != 0 then 9 else if flashOk then 0 else 8
    let detail := if fault != 0 then fault else if flashOk then 0 else 2
    let s1 := if fault != 0 then d.1
      else if flashOk then flashProg (stage d.1 k) (slotBase k + 0xC00) (List.replicate 16 0#8)
      else raise (stage d.1 k) 500 (d2 2 0 ++ bytesLE 4 (slotBase k + 0xC00))
    let s2 := showSlots (showSess (s1.modUpd fun u => { u with verifying := none, result := some (x0.number, k, status, detail) }))
    raise s2 497 (d2 k status ++ bytesLE 1 detail)

/-- SESS_TIMEOUT (R396). -/
def sessTimeout (s : State) : State := endSession s 3

/-- The ACK packet of an UPDATE (R401). -/
def updAck (s : State) (number sub : Nat) (r : Reply) : State :=
  let body := bytesBE 1 0x81 ++ bytesBE 1 number ++ bytesBE 4 0 ++ bytesBE 2 1 ++ bytesBE 1 r.status ++ bytesBE 1 sub ++ bytesBE 1 r.detail ++ bytesBE 1 r.slot ++ bytesBE 4 r.next
  sendUp s 3 0 (upPacket s 8 body)

/-- An UPDATE step from its SUB, session number, offset and body (R401). -/
def updStep (s : State) (sub number off : Nat) (body : List Byte) : State × Reply :=
  match sub with
  | 1 => match s.upd.session with
    | some _ => (s, ⟨1, 0, 0, 0⟩)
    | none => updOpen s false number (beAt body 0 1) (beAt body 4 4)
  | 2 => updData s false number off body
  | 3 => updClose s false number
  | 4 => updAbort s false false number
  | 5 => (s, updQuery s number)
  | _ => (s, ⟨2, 0, 0, 0⟩)

/-! Activation (R400, R404 to R407). -/

/-- Activation entries of a slot, those included that an activation has still to program (R404). -/
def entriesTaken (s : State) (k : Nat) : Nat := entriesUsed s (slotBase k) + (s.upd.entries.filter fun e => e.1 == k).length

/-- Whether a slot holds a verified image that a transaction may name (R400). -/
def slotHolds (s : State) (k : Nat) : Bool :=
  k < 2 && decide (entriesTaken s k < 63) && (s.rd F.UPD_STAT_RUNNING == k || (verified s (slotBase k) && s.rd F.UPD_STAT_STAGED == k + 1))

/-- Bits of a word that belong to L or S fields, and to Q fields. -/
def classMask (a : Nat) (q : Bool) : Nat :=
  match findReg a with
  | none => 0
  | some r => r.fields.foldl (fun m f => if (f.app == .q) == q then m + (2 ^ f.w - 1) * 2 ^ f.lo else m) 0

def sameSection (s : State) (a b t : Nat) : Bool := sectionBytes s a t == sectionBytes s b t

/-- Section types of slot `k` that wait for the next start (R404). -/
def restartMask (s : State) (k : Nat) : Nat :=
  let a := slotBase (s.rd F.UPD_STAT_RUNNING)
  let b := slotBase k
  let q := (preload s b).any fun e => let m := classMask e.1 true; s.reg e.1 &&& m != e.2 &&& m
  let topo := !(sameSection s a b 2)
  2 * b2n (!(sameSection s a b 1)) + 4 * b2n topo + 8 * b2n (!(sameSection s a b 3)) + 16 * b2n q + 64 * b2n (topo && !(sectionBytes s b 6).isEmpty)

/-- The PRELOAD entries of a slot that another one's activation puts, those that address L or S fields, in list order (R404 step 2). -/
def slotPreload (put : State → Nat → Nat → State) (s : State) (k : Nat) : State :=
  if k = s.rd F.UPD_STAT_RUNNING then s
  else (preload s (slotBase k)).foldl (fun s e =>
    let m := classMask e.1 false
    if m = 0 || e.1 = R.SYS_MODE then s else put s e.1 ((s.reg e.1 &&& (2 ^ 32 - 1 - m)) + (e.2 &&& m))) s

/-- ACTIVATE of slot `k` at a fence with the MFID given, or the one in force (R404, R405). [log 98 DEDUCED, 109 DEDUCED, 112 DEDUCED] -/
def activate (s : State) (k : Nat) (mfid : Option Nat) : State :=
  let m := mfid.getD (s.rd F.UPD_MFID_MFID)
  let s0 := ((s.wr F.UPD_MFID_PREV_MFID (s.rd F.UPD_MFID_MFID)).wr F.UPD_MFID_MFID m).modUpd fun u => { u with entries := u.entries ++ [(k, m)] }
  if k = s.rd F.UPD_STAT_RUNNING then s0
  else
    let mask := restartMask s k
    let was := s.rd F.UPD_STAT_RUNNING
    let s1 := (s0.wr F.UPD_STAT_LIVE_AREA (1 - s.rd F.UPD_STAT_LIVE_AREA)).wr F.UPD_STAT_STAGED (if was = 2 then 0 else was + 1)
    let s3 := if s1.isSender || mask.testBit 2 then s1
      else
        let base := areaBase s1 (s1.on F.UPD_STAT_LIVE_AREA) + calOffset
        let s4 := s1.wr F.CAL_SETBASE_BASE (base / 4096)
        let sec := sectionBytes s4 (slotBase k) 6
        let s5 := if sec.isEmpty then noSets s4 3 else useSection s4 (leAt sec 0 2) (leAt sec 0 2 == 1)
        s5.modUpd fun u => { u with abandon := true }
    let s6 := s3.wr F.UPD_STAT_RUNNING k
    if mask = 0 then s6 else raise (s6.wr F.UPD_STAT_RESTART_PEND 1) 501 (d2 k 0 ++ bytesLE 2 mask)

/-- MANIFEST without ACTIVATE (R405). -/
def manifest (s : State) (mfid : Option Nat) : State :=
  let m := mfid.getD (s.rd F.UPD_MFID_MFID)
  let k := s.rd F.UPD_STAT_RUNNING
  ((s.wr F.UPD_MFID_PREV_MFID (s.rd F.UPD_MFID_MFID)).wr F.UPD_MFID_MFID m).modUpd fun u => { u with entries := u.entries ++ [(k, m)] }

/-- After the swaps of the fence: the blend of the former sets is abandoned (R404). [log 112 DEDUCED] -/
def activateEnd (s : State) : State :=
  if s.upd.abandon then blendAbandon (s.modUpd fun u => { u with abandon := false }) else s

/-- ACT_ENTRY_PROGRAMMED (R404): the oldest entry due is programmed, or it fails. [log 112 DEDUCED] -/
def entryProgrammed (s : State) (ok : Bool) : State :=
  match s.upd.entries with
  | [] => s
  | e :: rest =>
    let s0 := s.modUpd fun u => { u with entries := rest }
    let b := slotBase e.1
    let bad := fun (s : State) (a : Nat) => raise (s.wr F.UPD_STAT_ACT_UNSAVED 1) 500 (d2 3 0 ++ bytesLE 4 a)
    if e.1 = 2 then bad s0 b
    else match entryFree s b with
      | none => bad s0 (entryAddr b 63)
      | some n =>
        if !ok then bad s0 (entryAddr b n)
        else
          let gen := topGen s + 1
          let h := bytesLE 4 gen ++ bytesLE 4 e.2
          let s1 := flashProg s0 (entryAddr b n) (h ++ [0xFF#8, 0xFF#8, 0xFF#8, 0xFF#8] ++ bytesLE 4 (crc32 h))
          let s2 := showSlots (if s1.rd F.UPD_STAT_RUNNING = e.1 then s1.wr F.UPD_GEN_GEN gen else s1)
          count (raise s2 499 (d2 e.1 0 ++ bytesLE 4 gen ++ bytesLE 4 e.2)) 58 1

/-- UPD_ACT at the device's own fence (R406). -/
def actFence (put : State → Nat → Nat → State) (s : State) : State :=
  if !(s.on F.UPD_ACT_GO) then s
  else
    let k := s.rd F.UPD_ACT_SLOT
    let s1 := s.wr F.UPD_ACT_GO 0
    if slotHolds s k then activate (slotPreload put s1 k) k none else s1

/-! The Vodan port (R403). -/

/-- The ball SVC_ATTN_N in `Output.pin`. -/
def pinAttn : Nat := 3

/-- Whether the core runs, so that commands other than ID are served. -/
def coreRuns (s : State) : Bool := s.sys.low != 1 && s.sys.low != 2 && s.mode != mSentry && (pllLocked s 0 || s.on F.CKG_STAT_REED_PATH)

/-- A response frame: STATUS, LEN, data, CRC-8; SVC_ATTN_N goes low, or waits for the core that the request woke. [log 114 DEDUCED] -/
def vodanReply (s : State) (status : Nat) (data : List Byte) : State :=
  let f := bytesBE 1 status ++ bytesBE 1 data.length ++ data
  let s1 := s.modUpd fun u => { u with reply := f ++ bytesBE 1 (crcBytes 8 0x07 0xFF f) }
  if s.upd.attnDue then s1 else { s1 with out := s.out ++ [.pin pinAttn 0] }

/-- SVC_CS_N low as a wake source (R373): a request that wakes the device is answered when its core starts (R403). -/
def vodanWake (s : State) : State :=
  let t := wakeBy s 1 (s.on F.PWR_WAKE_SVC)
  if s.mode = mSentry && s.sys.going.isNone && t.sys.going.isSome then t.modUpd fun u => { u with attnDue := true } else t

/-- The core has started after a wake: the response that waited for it is shown (R403). -/
def attnRelease (s : State) : State :=
  if s.upd.attnDue && s.mode != mSentry then { (s.modUpd fun u => { u with attnDue := false }) with out := s.out ++ [.pin pinAttn 0] } else s

/-- A request frame: the wake it may be, its CRC, the core it needs. [log 115 DEDUCED] -/
def vodanRequest (s : State) (crcOk : Bool) (f : State → State) : State :=
  let s0 := vodanWake s
  if !crcOk then vodanReply s0 0x11 []
  else if !(coreRuns s) then vodanReply s0 0x10 [] else f s0

/-- A session command: it needs SVC_PRESENT_N low. [log 115 DEDUCED] -/
def vodanSession (s : State) (crcOk : Bool) (f : State → State × Reply) (data : Reply → List Byte) : State :=
  vodanRequest s crcOk fun s => if !(s.on F.UPD_STAT_SVC_PRESENT) then vodanReply s 0x12 [] else let r := f s; vodanReply r.1 r.2.status (data r.2)

def regBytes (s : State) (a : Nat) : List Byte := bytesBE 4 (s.reg a)

/-- ID: answered in every mode. -/
def vodanId (s : State) (crcOk : Bool) : State :=
  let s0 := vodanWake s
  if s.sys.low = 1 then s
  else if !crcOk then vodanReply s0 0x11 []
  else vodanReply s0 0 (regBytes s R.SYS_ID ++ regBytes s R.SYS_UID_HI ++ regBytes s R.SYS_UID_LO ++ regBytes s R.SYS_STRAP ++ regBytes s R.SYS_MSTAT ++ regBytes s R.UPD_STAT)

/-- Registers a WRITE may reach. -/
def vodanMayWrite (a : Nat) : Bool := a == R.SYS_MODE || a == R.CL_BYP || a / 0x10000 == 0x11

/-- The tool reads the response frame: SVC_ATTN_N is released. -/
def vodanResponse (s : State) : State :=
  if s.upd.reply.isEmpty then s
  else { (s.modUpd fun u => { u with reply := [], attnDue := false }) with out := s.out ++ [.pin pinAttn 1, .vodan s.upd.reply] }

/-- An edge of SVC_PRESENT_N (R396, R403): a fall is also a wake source. -/
def svcEdge (s : State) (low : Bool) : State :=
  let s1 := raise (s.wr F.UPD_STAT_SVC_PRESENT (b2n low)) 502 (d2 (b2n low) 0)
  if low then wakeBy s1 1 (s.on F.PWR_WAKE_SVC)
  else if s1.upd.session.any (·.vodan) then endSession s1 3 else s1

end Sys2Proof.Machine
end

