-- ==== Sys2Proof/Machine/Bus.lean ====
section
/-! DEFINITION. Machine/Bus.lean: the register space as software meets it (R5 to R10, R417 to R420): apply classes, Q rules and
local commits (R115 to R118), what a write of each register brings about, what reads show, the lamp-store windows, and the host
rules of a sender pair (R276, R277, R292, R293). -/
namespace Sys2Proof.Machine

/-- The path a register access comes by: the host's BAR0, a local command descriptor, a packet of the ring, the Vodan port, a staged
entry of a wall transaction, a PRELOAD entry of the image, the mirror link. -/
inductive Path | bar0 | local | packet | vodan | xa | preload | mirror
deriving DecidableEq, Repr

/-- The path of a command's access. -/
def accessPath : Access → Path
  | .bar0 => .bar0
  | .local => .local
  | .packet => .packet

/-! When a block counts as disabled (R118, each chapter's rule). -/

/-- The enable of a register ring, channel, lane or port that a Q field belongs to, by block; `true` where the block is disabled. -/
def blockDisabled (s : State) (a : Nat) : Bool :=
  let o := a % 0x10000
  match a / 0x10000 with
  | 2 => !(s.on (F.EVC_TCTL_EN ((o - 0x100) / 64)))
  | 3 =>
    let n := (o - 0x100) / 64
    let k := o % 64
    if k = 0x10 then !(s.on (F.HIF_CR_CTL_EN n)) || ringsStopped s
    else if k < 0x10 then !(s.on (F.HIF_CR_CTL_EN n)) else !(s.on (F.HIF_CP_CTL_EN n))
  | 4 => !(s.on (F.MC_CTL_EN (o / 0x8000)))
  | 5 => !(s.on (F.LANE_CTL_EN (o / 0x1000)))
  | 6 => !(s.on (F.CL_PCFG_EN ((o - 0x100) / 64)))
  | 7 => !(wtEnabled s)
  | 9 =>
    if o < 0x300 then !(s.on (F.NI_PCFG_EN ((o - 0x100) / 64)))
    else if o < 0x320 then !(s.on F.NI_HRX_CTL_EN) else if o < 0x340 then !(s.on F.NI_HTX_CTL_EN)
    else !(s.on (F.NI_FCFG_EN ((o - 0x1000) / 128)))
  | 10 => !(s.on F.CMP_DBCFG_EN)
  | 11 => !(s.on F.PIX_CTL_EN)
  | 12 => if o = 0x10 || 0x400 ≤ o then !(s.on F.CAL_CTL_BLEND_EN) else !(s.on F.CAL_CTL_LOOP_EN) && !(s.on F.CAL_CTL_AMB_EN)
  | 13 => if 0x300 ≤ o && o < 0x400 then !(s.on F.DRV_RAIL_CTL_EN) else !(s.on F.DRV_CTL_EN)
  | 15 => !(s.on F.RED_CFG_EN)
  | 17 => s.upd.session.isNone && !(stagedActivate s 0) && !(stagedActivate s 1)
  | _ => true

/-! One word (R7, R8, R10, R118). -/

/-- What a written word does, field by field: the live word after it, bits and values for the shadow, actions at once, whether a
change of a Q field was dropped. -/
structure WordEffect where
  live : Nat
  smask : Nat
  sval : Nat
  acts : Nat
  rej : Bool
deriving DecidableEq, Repr

/-- A written value within a field's limits. [log 7 DEDUCED] -/
def limited (f : FieldSpec) (v : Nat) : Nat :=
  match f.lim with
  | some (lo, hi) => clamp lo hi v
  | none => v

/-- One field of a written word; `now_`: S fields take the write at once (entries of PRELOAD and of transactions). [log 7 DEDUCED] -/
def fieldEffect (old w : Nat) (enabled now_ : Bool) (e : WordEffect) (f : FieldSpec) : WordEffect :=
  let raw := bits w f.lo f.w
  let v := limited f raw
  let at_ := 2 ^ f.lo
  match f.acc with
  | .rw =>
    match f.app with
    | .l => { e with live := setBits e.live f.lo f.w v }
    | .s =>
      if now_ then { e with live := setBits e.live f.lo f.w v, smask := e.smask + (2 ^ f.w - 1) * at_, sval := e.sval + v * at_ }
      else { e with smask := e.smask + (2 ^ f.w - 1) * at_, sval := e.sval + v * at_ }
    | .q =>
      if enabled && v != bits old f.lo f.w then { e with rej := true } else { e with live := setBits e.live f.lo f.w v }
  | .w1c => { e with live := setBits e.live f.lo f.w (bits old f.lo f.w - (bits old f.lo f.w &&& raw)) }
  | .wo =>
    match f.app with
    | .l => { e with acts := e.acts + raw * at_ }
    | .s => if now_ then { e with acts := e.acts + raw * at_ } else { e with smask := e.smask + raw * at_, sval := e.sval + raw * at_ }
    | .q => if enabled then { e with rej := true } else { e with acts := e.acts + raw * at_ }
  | _ => e

/-- `w` with the bits of a mask as they stand in `old`. [log 127 DEDUCED] -/
def keepBits (old w mask : Nat) : Nat := (w - (w &&& mask)) ||| (old &&& mask)

/-- A word as a register admits it where the tables make the access or the limits depend on more than the field: fields that are RO in this
role or channel keep their value (CL_PCFG, WT_CTL, MC_CTL, PWR_SLP_EN, HK_CHEN), CL_PASYM is clamped as a signed number, WR_LO lies below
WR_HI, and RECAL_INT is 0 or clamped. [log 127 DEDUCED] -/
def admittedWord (s : State) (a w : Nat) : Nat :=
  let old := s.reg a
  let o := a % 0x10000
  match a / 0x10000 with
  | 1 => if a = R.PWR_SLP_EN then keepBits old w 0x2018 else w
  | 4 =>
    let c := o / 0x8000
    if o % 0x8000 = 0 then (if s.isSender && c = 0 then w else keepBits old w 0x20)
    else if a = R.MC_QOS c then setBits w 8 7 (min (bits w 8 7) (clamp 8 64 (bits w 0 7) - 1))
    else if a = R.MC_RECAL c then (if bits w 0 10 = 0 then w else setBits w 0 10 (clamp 10 1000 (bits w 0 10)))
    else w
  | 6 =>
    if 0x100 ≤ o && o < 0x400 && o % 64 = 0 then (if s.isCarriage then keepBits old w 0xFF00E else w)
    else if 0x100 ≤ o && o < 0x400 && o % 64 = 0x14 then toBits (max (-100000) (min 100000 (signed w 32))) 32
    else w
  | 7 => if a = R.WT_CTL && !s.isSender then keepBits old w 3 else w
  | 16 => if a = R.HK_CHEN then keepBits old w 0xF else w
  | _ => w

/-- The effect of a word on a register. -/
def wordEffect (r : RegSpec) (old w : Nat) (enabled now_ : Bool) : WordEffect :=
  r.fields.foldl (fieldEffect old w enabled now_) ⟨old, 0, 0, 0, false⟩

/-- Adds an S write to a set, field by field (R115). -/
def addWrite : List SWrite → Nat → Nat → Nat → List SWrite
  | [], a, m, v => [⟨a, m, v⟩]
  | x :: r, a, m, v =>
    if x.addr = a then ⟨a, x.mask ||| m, (x.value - (x.value &&& m)) ||| v⟩ :: r else x :: addWrite r a m v

/-- Joins an S write to the open set. -/
def openWrite (s : State) (a m v : Nat) : State :=
  if m = 0 then s else { s with commit := { s.commit with opened := addWrite s.commit.opened a m v } }

/-- Removes the bits of a mask from the open set: a write that takes effect at once stands in live value and shadow (R131, R217). -/
def overtake (s : State) (a m : Nat) : State :=
  let l := (s.commit.opened.map fun x => if x.addr = a then { x with mask := x.mask - (x.mask &&& m), value := x.value - (x.value &&& m) } else x)
  { s with commit := { s.commit with opened := l.filter fun x => x.mask != 0 } }

/-- Whether the open set holds bits of a mask. -/
def heldOpen (s : State) (a m : Nat) : Bool := s.commit.opened.any fun x => x.addr == a && x.mask &&& m != 0

/-- The Q write of a word was dropped (R118). [log 15 DEDUCED, 16 DEDUCED] -/
def qReject (s : State) (a : Nat) : State := (raise s 0 (bytesLE 4 a)).bump F.SYS_CSTAT_QREJ_CNT 1

/-! What a write brings about, block by block: `old` is the word before it, `acts` the write-only bits written 1. -/

/-- Bytes the device reads from host memory on its own. [log 2 DESIGN CHOICE, 71 DESIGN CHOICE] -/
def hostBytes (s : State) (addr n : Nat) : State × List Byte :=
  ({ s with free := s.free + 1 }, (List.range n).map fun i => Config.hostByte s.free (addr + i))

/-- The 32-byte descriptors posted and not yet fetched of a network host ring, read from host memory. [log 71 DESIGN CHOICE] -/
def fetchPosted (s : State) (tx : Bool) : State × List (List Byte) :=
  let size := hrSize s tx
  let head := if tx then s.rd F.NI_HTX_HEAD_HEAD else s.rd F.NI_HRX_HEAD_HEAD
  let tail := if tx then s.rd F.NI_HTX_TAIL_TAIL else s.rd F.NI_HRX_TAIL_TAIL
  let have_ := if tx then s.ni.htx.length else s.ni.hrx.length
  let base := if tx then s.rd64 F.NI_HTX_BASE_LO_BASE F.NI_HTX_BASE_HI_BASE else s.rd64 F.NI_HRX_BASE_LO_BASE F.NI_HRX_BASE_HI_BASE
  let want := (tail + size - head % size) % size - have_
  (List.range want).foldl (fun (x : State × List (List Byte)) i =>
    let d := hostBytes x.1 (base + 32 * ((head + have_ + i) % size)) 32
    (d.1, x.2 ++ [d.2])) (s, [])

/-- SYS and CKG/PWR. -/
def sysWrote (s : State) (a : Nat) : State :=
  if a = R.SYS_MODE then modeWritten s (s.rd F.SYS_MODE_REQ)
  else if a = R.PWR_RUN_EN || a = R.PWR_SLP_EN then openGates s else s

/-- EVC. [log 128 DEDUCED] -/
def evcWrote (s : State) (a old acts : Nat) : State :=
  let o := a % 0x10000
  if 0x100 ≤ o && o < 0x200 then
    let t := (o - 0x100) / 64
    match o % 64 with
    | 8 => tctlWritten s t old
    | 0x10 => tconsWrite (s.setReg a old) t (bits (s.reg a) 0 12) (bitAt acts 12)
    | 0x14 => if bitAt acts 0 then teoiWrite s t else s
    | _ => s
  else if 0x1000 ≤ o && o < 0x2000 then roomGained s else s

/-- HIF. -/
def hifWrote (s : State) (a old : Nat) : State :=
  let o := a % 0x10000
  if 0x100 ≤ o && o < 0x500 then
    let n := (o - 0x100) / 64
    match o % 64 with
    | 8 => if fell old (s.reg a) then ringDisable s n else if rose old (s.reg a) then (s.wr (F.HIF_CR_STAT_HALT n) 0) else s
    | 0xC => dbWrite (s.setReg a old) n (bits (s.reg a) 0 12)
    | 0x20 =>
      if fell old (s.reg a) && inflight s n != 0 then s.setReg a (setBits (s.reg a) 0 1 1)
      else if rose old (s.reg a) then cpEnable s n else s
    | 0x28 => cpConsWrite (s.setReg a old) n (bits (s.reg a) 0 12)
    | _ => s
  else s

/-- MC. -/
def mcWrote (s : State) (a old acts : Nat) : State :=
  let c := a % 0x10000 / 0x8000
  match a % 0x8000 with
  | 0 => if rose old (s.reg a) then mcEnable s c else if fell old (s.reg a) then mcDisable s c else s
  | 0x24 => if bitAt acts 3 then freqGo s c else s
  | _ => s

/-- LANE and CL. -/
def clWrote (s : State) (a old : Nat) : State :=
  let o := a % 0x10000
  if a / 0x10000 = 5 then htxRun 4096 (niJudge (s.setReg a old) (laneWrote s a old))
  else if a = R.CL_BYP then
    if s.on F.CL_BYP_FORCE_CLOSE then (if s.on F.CL_BYP_BYP_STATE then bypassFall s 3 else s)
    else if bitAt old 1 then tryRise s else s
  else if 0x100 ≤ o && o < 0x400 && o % 64 = 0 then
    let p := (o - 0x100) / 64
    if s.reg a % 2 = old % 2 then s else redRefresh (htxRun 4096 (niConflicts (portEnable s p)))
  else if 0x1000 ≤ o && o < 0x2000 then
    let r := (o - 0x1000) / 0x200
    if s.ring.tableDue.contains r then s else { s with ring := { s.ring with tableDue := s.ring.tableDue ++ [r] } }
  else s

/-- After a change of a generator: one of its rate re-runs the checks of R178. -/
def rateChanged (t s : State) (n : Nat) : State := if (t.gen n).rate = (s.gen n).rate then t else recheckMaps t

/-- WT. A write of WT_STEP while a generator is enabled is dropped (R91, R118). -/
def wtWrote (s : State) (a old acts : Nat) : State :=
  let o := a % 0x10000
  if a = R.WT_CTL then
    let s1 := if bitAt acts 2 then setFreerun s 2 else s
    if bitAt acts 3 then clrFreerun s1 else s1
  else if a = R.WT_INC then incWrite s (s.reg a) old
  else if a = R.WT_STEP_LO then (if wtEnabled s then s else { s with wt := { s.wt with stepLo := acts } })
  else if a = R.WT_STEP_HI then (if wtEnabled s then s else stepWrite s acts)
  else if 0x100 ≤ o && o < 0x200 && o % 32 = 0 then
    let n := (o - 0x100) / 32
    if rose old (s.reg a) then rateChanged (genEnable s n) s n else if fell old (s.reg a) then rateChanged (xidStop (genDisable s n) n) s n else s
  else s

/-- NI. -/
def niWrote (s : State) (a old : Nat) : State :=
  let o := a % 0x10000
  if 0x100 ≤ o && o < 0x200 && o % 64 = 0 then htxRun 4096 (niPortWritten s ((o - 0x100) / 64) old)
  else if a = R.NI_HRX_TAIL then
    let d := fetchPosted s false
    hrxPost d.1 (d.2.map fun b => (leAt b 0 8, leAt b 8 2))
  else if a = R.NI_HTX_CTL then htxRun 4096 s
  else if a = R.NI_HTX_TAIL then
    let d := fetchPosted s true
    htxPost d.1 d.2
  else if 0x1000 ≤ o && o < 0x2000 && o % 128 = 0 then
    let f := (o - 0x1000) / 128
    if rose old (s.reg a) then flowEnable (s.wr (F.NI_FCFG_EN f) 0) f else if fell old (s.reg a) then flowDisable s f else s
  else s

/-- CMP: a change of EN of a ring re-runs the checks of R178. -/
def cmpWrote (s : State) (a old : Nat) : State :=
  let o := a % 0x10000
  if 0x100 ≤ o && o < 0x200 && o % 32 = 0 && s.reg a % 2 != old % 2 then recheckMaps s else s

/-- PIX. -/
def pixWrote (s : State) (a old acts : Nat) : State :=
  if a = R.PIX_CTL then
    if rose old (s.reg a) then pixEnable s
    else if (bitAt old 0 && !(bitAt (s.reg a) 0)) || (bitAt old 2 && !(bitAt (s.reg a) 2)) then pixTouch s 8 else s
  else if a = R.PIX_BANK && bitAt acts 4 && !(s.on F.PIX_BANK_OWNER) && !(s.on F.PIX_BANK_COPY_BUSY) then startCopy s false
  else s

/-- CAL. -/
def calWrote (s : State) (a old acts : Nat) : State :=
  if a = R.CAL_CTL then
    let s1 := if rose old (s.reg a) then blendOn s else if fell old (s.reg a) then blendOff s 0 [] else s
    let s2 := if bitAt acts 1 && s1.rd F.CAL_MODE_MODE = 0 then s1.modCal fun c => { c with due := true } else s1
    let s3 := if bitAt acts 4 then captureStart s2 else s2
    let s4 := if bitAt acts 5 then s3.modCal fun c => { c with resetG := true } else s3
    let s5 := if bitAt old 3 && !(bitAt (s.reg a) 3) then s4.modCal fun c => { c with ambOff := true } else s4
    if bitAt old 2 != bitAt (s.reg a) 2 then judgeHold s5 else s5
  else if a = R.CAL_REFSTAT then judgeHold s
  else s

/-- DRV. [log 91 DEDUCED] -/
def drvWrote (s : State) (a old acts : Nat) : State :=
  let o := a % 0x10000
  if a = R.DRV_CTL then
    let s1 := if bitAt acts 1 then s.modDrv fun d => { d with enumDue := true } else s
    let s2 := if bitAt acts 3 then maskClear s1 else s1
    if rose old (s.reg a) then drvEnable s2 else if fell old (s.reg a) then linkOff s2 else s2
  else if a = R.DRV_LGCLR then clearLatches s acts
  else if a = R.DRV_RAIL_CTL then
    let s1 := if rose old (s.reg a) then (if s.displays then railStart s else s) else if fell old (s.reg a) then railStop s 1 else s
    if bitAt acts 1 && railState s1 = 4 then railStart s1 else s1
  else if a = R.DRV_RAIL_V then (if railState s = 0 then s else railClamp s)
  else if 0x1000 ≤ o && o < 0x1800 then
    let s1 := showMaskCnt s
    if bitAt old 31 && !(bitAt (s.reg a) 31) then s1.modDrv fun d => { d with maskTold := false } else s1
  else if 0x4000 ≤ o && o < 0x8000 then judgeGroup s ((o - 0x4000) / 0x200)
  else s

/-- RED. -/
def redWrote (s : State) (a old acts : Nat) : State :=
  if a = R.RED_CTL then
    let s1 := if bitAt acts 0 then ringsGo s else s
    let s2 := if bitAt acts 1 then handover s1 else s1
    if bitAt acts 2 && pairEn s2 && mirrorUp s2 && isSyncSource s2 then startResync s2 else s2
  else if a = R.RED_CFG && fell old (s.reg a) then leavePair s
  else redRefresh s

/-- HK. A channel that is no longer converted is not failed and has no substitute (R377). -/
def hkWrote (s : State) (a : Nat) : State :=
  if a != R.HK_CHEN then s
  else
    let keep := s.rd F.HK_CHEN_EN ||| 0xF
    let s1 := s.wr F.HK_FAILED_FAILED (s.rd F.HK_FAILED_FAILED &&& keep)
    forIdx 13 s1 fun s c =>
      if keep.testBit c then s
      else { (s.wr (F.HK_VAL_FAILED c) 0).wr (F.HK_VAL_SUBST c) 0 with hk := { s.hk with bad := s.hk.bad.set 0 c 0, ok := s.hk.ok.set 0 c 0 } }

/-- OBS. -/
def obsWrote (s : State) (a acts : Nat) : State :=
  if a = R.OBS_TCTL && bitAt acts 2 then { s with obs := { s.obs with wptr := 0, wrapped := false, full := false } }
  else if a = R.OBS_CCTL && bitAt acts 0 then { s with obs := { s.obs with cnt := [] } }
  else s

/-- The consequences of a write that took effect at once. [log 17 DEDUCED] -/
def wrote (s : State) (a old acts : Nat) : State :=
  match a / 0x10000 with
  | 0 | 1 => sysWrote s a
  | 2 => evcWrote s a old acts
  | 3 => hifWrote s a old
  | 4 => mcWrote s a old acts
  | 5 | 6 => clWrote s a old
  | 7 => wtWrote s a old acts
  | 8 => if a = R.XA_ABORT then xaAbortWrite s acts else s
  | 9 => niWrote s a old
  | 10 => cmpWrote s a old
  | 11 => pixWrote s a old acts
  | 12 => calWrote s a old acts
  | 13 => drvWrote s a old acts
  | 15 => redWrote s a old acts
  | 16 => hkWrote s a
  | 18 => obsWrote s a acts
  | _ => s

/-! Takeover of S writes (R115, R116, R131). -/

/-- WT_RCFG of generator `n` was taken over: one that stands still with EN = 1 starts; a running one takes a RATE that no transaction of its own
carries, a standalone device's or a staged entry's, from the fence that passes now on (R96, R97, R131, R135). [log 18 DEDUCED] -/
def rateTaken (s : State) (n : Nat) : State :=
  let g := s.gen n
  let code := s.rd (F.WT_RCFG_RATE n)
  if !(s.on (F.WT_RCFG_EN n)) then s
  else if !g.started then genEnable s n
  else if code = g.rate then s
  else if s.isStandalone || wallNs s < flipOf g.rate g.next then showGen (turnRate s n code (g.next - 1)) n
  else s.setGen n { g with newRate := some (code, g.next) }

/-- The consequences of S fields of a register taken over: `acts` the actions its shadow held. -/
def took (s : State) (a acts : Nat) : State :=
  let o := a % 0x10000
  match a / 0x10000 with
  | 7 =>
    let n := (o - 0x100) / 32
    rateChanged (rateTaken s n) s n
  | 10 =>
    if a = R.CMP_CTL then recheckMaps s
    else if o < 0x200 then
      (if o % 32 = 8 || o % 32 = 12 then s.modCmp fun c => { c with ringDue := c.ringDue ||| 2 ^ ((o - 0x100) / 32) } else s)
    else markTaken s ((o - 0x1000) / 0x400) ((o - 0x1000) % 0x400 / 64) (o % 64 == 0x14 || o % 64 == 0x18)
  | 11 =>
    let s1 := pixTouch s 3
    if a = R.PIX_BANK then (if bitAt acts 3 then s1.modPix fun p => { p with swapAsk := true } else s1)
    else if 0x20 ≤ o && o < 0x34 then
      let n := (o - 0x20) / 2
      s1.modPix fun p => { p with tmatBad := setBits p.tmatBad n 2 0 }
    else if 0x4000 ≤ o then
      let c := (o - 0x4000) / 0x4000
      s1.modPix fun p => { p with lutBad := Table.set 0 p.lutBad (c * 4096 + o % 0x4000 / 4) 0 }
    else s1
  | 12 | 13 => pixTouch s 3
  | 14 => judgeRect s ((o - 0x100) / 32)
  | _ => s

/-- Whether a register's takeover is judged once per rectangle rather than per word. -/
def tookKey (a : Nat) : Nat := if a / 0x10000 = 14 then a / 32 * 32 else a

/-- Writes one held write into its register. -/
def applyHeld (s : State) (x : SWrite) : State :=
  match findReg x.addr with
  | none => s
  | some r =>
    s.setReg x.addr (r.fields.foldl (fun v f =>
      if f.acc == .rw && f.app == .s && bitAt x.mask f.lo then setBits v f.lo f.w (bits x.value f.lo f.w) else v) (s.reg x.addr))

/-- Takes over held writes together: every value first, then what they bring about. -/
def takeOver (s : State) (l : List SWrite) : State :=
  let s1 := l.foldl applyHeld s
  judgeTaken (l.foldl (fun (x : State × List Nat) w =>
    let k := tookKey w.addr
    if x.2.contains k || (w.addr = R.CMP_CTL && guardNs s = guardNs s1) then x else (took x.1 w.addr w.value, k :: x.2)) (s1, [])).1

/-! Local commits (R115 to R117, R135). -/

/-- The ring that a register's block is tied to (R97): a generator, a composition ring or its layers. [log 14 DEDUCED] -/
def tiedRing (a : Nat) : Option Nat :=
  let o := a % 0x10000
  if a / 0x10000 = 7 then some ((o - 0x100) / 32)
  else if a / 0x10000 = 10 then
    if 0x100 ≤ o && o < 0x200 then some ((o - 0x100) / 32) else if 0x1000 ≤ o then some ((o - 0x1000) / 0x400) else none
  else none

/-- Whether the blocks take their fences from a follower here: a carriage, a coach (R97). -/
def follows (s : State) : Bool := s.isCarriage || s.isCoach

/-- Whether a held write's block has fences now; one without takes over at the SYS_COMMIT itself (R97, R116). A follower's blocks, those of a
coach too, take their fences from its parent ring. [log 14 DEDUCED] -/
def hasFence (s : State) (a : Nat) : Bool :=
  if follows s then folState s != 0
  else match tiedRing a with
    | some r => genRuns s r
    | none => (refGen s).isSome

/-- The RATE part of a write of WT_RCFG on a running ring leaves the closed set and starts an automatic transaction (R135). -/
def splitRate (s : State) (l : List SWrite) : State × List SWrite :=
  l.foldl (fun (x : State × List SWrite) w =>
    let n := (w.addr - R.WT_RCFG 0) / 32
    let rate := bits w.value 8 8
    if w.addr / 0x10000 = 7 && s.isSender && genRuns s n && bits w.mask 8 8 = 255 then
      let w1 := { w with mask := setBits w.mask 8 8 0, value := setBits w.value 8 8 0 }
      let keep := if w1.mask = 0 then x.2 else x.2 ++ [w1]
      if rate = s.rd (F.WT_RCFG_RATE n) then (x.1, keep)
      else ({ x.1 with xa := { x.1.xa with autoWait := x.1.xa.autoWait ++ [(n, rate)] } }, keep)
    else (x.1, x.2 ++ [w])) (s, [])

/-- Whether a held write belongs to PIX, CAL or DRV (R205 cause 3h). -/
def picturePart (x : SWrite) : Bool := decide (11 ≤ x.addr / 0x10000) && decide (x.addr / 0x10000 ≤ 13)

/-- One word that takes effect under its apply class, SYS_COMMIT apart; `now_` as in `fieldEffect`. Answers whether the change of
a Q field was dropped. -/
def putWord (s : State) (a w : Nat) (now_ : Bool) : State × Bool :=
  match findReg a with
  | none =>
    if 0x30800 ≤ a && a < 0x30840 && a % 4 = 0 then
      let s1 := s.setReg a w
      (if a % 16 = 12 then unmask s1 ((a - 0x30800) / 16) else s1, false)
    else (s, false)
  | some r =>
    if a / 0x10000 = 11 && (decide (R.PIX_TMAT 0 ≤ a) && decide (a ≤ R.PIX_TMAT 4)) && s.on F.CAL_CTL_LOOP_EN then (s, false)
    else
      let old := s.reg a
      let e := wordEffect r old (admittedWord s a w) (!(blockDisabled s a)) now_
      let s1 := s.setReg a e.live
      let s2 := if now_ then overtake s1 a e.smask else openWrite s1 a e.smask e.sval
      let s3 := wrote s2 a old (if r.fields.any (fun f => f.app == .s) then 0 else e.acts)
      let s4 := if a = R.PIX_BANK then pixWrote s2 a old e.acts else s3
      (if now_ && !(a = R.CMP_CTL && guardNs s = guardNs s4) && (e.smask != 0 || (a = R.PIX_BANK && bitAt e.acts 3)) then took s4 a e.acts else s4, e.rej)

/-- A PRELOAD entry (R390, R394, R404). [log 109 DEDUCED] -/
def putPreload (s : State) (a w : Nat) : State :=
  if addrOn s.strap.role a then (putWord s a w true).1 else s

/-- A swap that a closed set asks for where there is no fence to wait for (R200, R225). -/
def swapNow (s : State) : State :=
  if s.pix.swapAsk then
    let s1 := swapAt (s.modPix fun p => { p with swapAsk := false }) 3 0 (readyNow s)
    if liveBank s1 != liveBank s then blendAfterSwap s1 true else s1
  else s

/-- A write of SYS_COMMIT.COMMIT = 1 (R115 to R117, R135). [log 14 DEDUCED] -/
def commitWrite (s : State) : State :=
  if !s.commit.closed.isEmpty then raise (s.wr F.SYS_CSTAT_REFUSED 1) 1 []
  else
    let p := splitRate s s.commit.opened
    let s1 := p.1
    let wait := p.2.filter fun x => hasFence s x.addr
    let at_once := p.2.filter fun x => !(hasFence s x.addr)
    let s2 := { s1 with commit := { opened := [], closed := wait, closedAt := s1.now } }
    let s3 := if wait.any picturePart then pixWake s2 3 else s2
    let s4 := takeOver s3 at_once
    let s5 := if follows s && folState s != 0 then s4 else if (refGen s).isSome && !(follows s) then s4 else judgeTaken (actFence putPreload (swapNow s4))
    autoStart 8 s5

/-- The closed set's share that a fence takes over: `ring` the ring of a generator's fence, `main` whether it is the fence of every
other block; a set closed 2 µs or less before it waits for the next (R97, R115, R116). [log 14 DEDUCED] -/
def commitFence (s : State) (ring : Option Nat) (main : Bool) : State :=
  if s.now < s.commit.closedAt + 2 * usPs + 1 then s
  else
    let mine := fun (x : SWrite) => if follows s then main else match tiedRing x.addr with
      | some r => ring == some r
      | none => main
    let l := s.commit.closed.filter mine
    takeOver { s with commit := { s.commit with closed := s.commit.closed.filter fun x => !(mine x) } } l

/-! The windows (R197, R198, R418, R419). -/

/-- The access paths with a read latch and a write hold of their own: 0 BAR0, 1 packets, 2 the Vodan port (R419). [log 8 DEDUCED] -/
def pathIdx : Path → Nat
  | .bar0 => 0
  | .vodan => 2
  | _ => 1

def isWindow (a : Nat) : Bool := decide (0x1000000 ≤ a)

/-- A write into a lamp-store window; answers whether it was refused. [log 117 DEDUCED] -/
def windowWrite (s : State) (p : Path) (a w : Nat) : State × Bool :=
  if p == .vodan || p == .xa || p == .preload then (s, false)
  else
    match lsAddr a with
    | none => (s, false)
    | some (b, i, hi) =>
      if !hi then (lsStore s (pathIdx p) a b i hi w, false)
      else match lsRefusal s b with
        | none => (pixTouch (lsStore s (pathIdx p) a b i hi w) 4, false)
        | some 0 =>
          if w % 32 = entryOf s b i / 2 ^ 32 && ((Table.get (0, 0) s.pix.held (pathIdx p)).1 + 4 ≠ a ||
              (Table.get (0, 0) s.pix.held (pathIdx p)).2 = entryOf s b i % 2 ^ 32) then (lsDrop s (pathIdx p) hi, false)
          else (qReject (lsDrop s (pathIdx p) hi) a, true)
        | some c => (raise (lsDrop s (pathIdx p) hi) 323 (d2 (b2n b) c ++ bytesLE 3 i), true)

/-! Host rules of the pair (R276, R277, R292, R293). -/

/-- Why a member drops a host write to a mirrored range or region: 1 it is the standby, 2 the mirror link is down. -/
def hostDrop (s : State) : Option Nat :=
  if !(pairEn s) then none
  else if !(mirrorUp s) && !(s.on F.RED_CFG_RED_SOLO && redRole s != 2) then some 2
  else if redRole s = 2 then some 1 else none

/-- Whether a path is the host's. -/
def hostPath (p : Path) : Bool := p == .bar0 || p == .local

/-- Whether an address lies in PIX, CAL, DRV or a lamp-store window. -/
def pictureAddr (a : Nat) : Bool := isWindow a || (decide (11 ≤ a / 0x10000) && decide (a / 0x10000 ≤ 13))

/-- The pixel side hears of a write that a packet or the host addresses to PIX, CAL, DRV or a window (R205 cause 4h). [log 17 DEDUCED] -/
def busTouch (s : State) (p : Path) (a : Nat) : State := if (p == .packet || hostPath p) && pictureAddr a then pixWake s 4 else s

/-- One register write as a path brings it (R10, R118, R300); answers whether the change of a Q field was dropped. -/
def busWrite (s : State) (p : Path) (a w : Nat) : State × Bool :=
  if !(addrOn s.strap.role a) || a % 4 != 0 then (s, false)
  else if hostPath p && mirrored a && (hostDrop s).isSome then
    (raise s 439 (d2 ((hostDrop s).getD 0) 0 ++ bytesLE 4 a), false)
  else
    let s0 := busTouch s p a
    if isWindow a then windowWrite s0 p a w
    else
      let r :=
        if a = R.SYS_COMMIT then (if bitAt w 0 then (commitWrite s0, false) else (s0, false))
        else putWord s0 a w (p == .xa || p == .preload)
      let s1 := if r.2 && p != .xa then qReject r.1 a else r.1
      let s2 := if hostPath p && mirrored a && pairEn s1 && mirrorUp s1 then mirrorSend s1 false 1 0 [a, w] else s1
      (s2, r.2)

/-! Reads. -/

/-- The 16 bytes of a trace record (R410). -/
def Trace.bytes (t : Trace) : List Byte := bytesLE 8 t.time ++ bytesLE 2 (t.cls * 4096 + t.item % 4096) ++ slice t.data 0 6

/-- The word of a trace window address (R410, R412). -/
def traceWord (s : State) (a : Nat) : Nat :=
  let o := a - 0x128000
  let r := s.rd F.OBS_TPAGE_PAGE * 1024 + o / 16
  leAt (Trace.bytes (Table.get ⟨0, 0, 0, []⟩ s.obs.buf r)) (o % 16) 4

/-- What OBS shows beside stored words. -/
def obsView (s : State) (a : Nat) : Option Nat :=
  if a = R.OBS_TSTAT then some (s.obs.wptr + 4096 * b2n s.obs.wrapped + 8192 * b2n s.obs.full + 65536 * s.obs.lostCnt)
  else if 0x120800 ≤ a && a < 0x121000 then
    let c := Table.get 0 s.obs.cnt ((a - 0x120800) / 8)
    some (if a % 8 = 0 then c % 2 ^ 32 else c / 2 ^ 32)
  else if 0x128000 ≤ a && a < 0x12C000 then some (traceWord s a)
  else none

/-- What CL shows beside stored words: the outbound queue (R81), the residence of a port (R55), the prefix and RHB of a ring's table (R88). [log 31 DEDUCED, 32 DEDUCED] -/
def clView (s : State) (a : Nat) : Option Nat :=
  if a = R.CL_OUTQ then some (s.ring.outq.length + 256 * s.ring.hiwater + 65536 * s.ring.refused)
  else if 0x60100 ≤ a && a < 0x60400 && (a - 0x60100) % 0x40 = 0x18 then some (residence s ((a - 0x60100) / 0x40))
  else if 0x61000 ≤ a && a < 0x62000 then
    let n := (a - 0x61000) / 0x200
    if a % 0x200 = 0 then some (if drivesRing s n then ringRoute s n - 63 * 2 ^ (24 - 8 * ringTier s) else 0)
    else if a % 0x200 = 4 then some (setBits (s.reg a) 1 1 (if drivesRing s n then ringRhb s n else 0))
    else none
  else none

/-- What the address shows where the stored word is not the answer. [log 6 DESIGN CHOICE, 31 DEDUCED] -/
def view (s : State) (a : Nat) : Option Nat :=
  match a / 0x10000 with
  | 0 => if a = R.SYS_CSTAT then some (setBits (s.reg a) 0 2 (b2n (!s.commit.closed.isEmpty) + 2 * b2n (!s.commit.opened.isEmpty))) else none
  | 2 => evcView s a
  | 3 => if 0x30800 ≤ a && a < 0x30840 then some (s.reg a) else hifView s a
  | 6 => clView s a
  | 7 =>
    if a = R.WT_TIME_LO then some (wallNs s % 2 ^ 32) else if a = R.WT_TIME_HI then some (wallNs s / 2 ^ 32)
    else if a = R.WT_FTIME_LO then some (folTimeNs s % 2 ^ 32) else if a = R.WT_FTIME_HI then some (folTimeNs s / 2 ^ 32) else none
  | 8 => xaView s a
  | 10 =>
    if 0xA4000 ≤ a && a < 0xA6000 then
      let o := (a - 0xA4000) % 0x400
      some (if o < 0x3E0 then leAt (s.map ((a - 0xA4000) / 0x400)) o 4 else 0)
    else none
  | 15 => redView s a
  | 18 => obsView s a
  | _ => none

/-- The word that an address shows now (R7, R8). -/
def shows (s : State) (a : Nat) : Nat :=
  match view s a with
  | some v => v
  | none => match findReg a with
    | none => 0
    | some r => r.fields.foldl (fun v f => if f.acc == .wo then setBits v f.lo f.w 0 else v) (s.reg a)

/-- The words that a read of an address latches for its path: HI of a LO word, words 1 to 3 of a trace record, +4 of a lamp
entry. [log 8 DEDUCED] -/
def latchesOf (a : Nat) : List Nat :=
  if isWindow a then (if a % 8 = 0 then [a + 4] else [])
  else if 0x128000 ≤ a && a < 0x12C000 then (if a % 16 = 0 then [a + 4, a + 8, a + 12] else [])
  else if 0x120800 ≤ a && a < 0x121000 then (if a % 8 = 0 then [a + 4] else [])
  else if a = R.WT_TIME_LO || a = R.WT_FTIME_LO || (List.range 4).any (fun n => a == R.WT_EVTIN_TS_LO n) ||
      (List.range 8).any (fun n => a == R.WT_RFLIP_LO n) || (List.range 32).any (fun f => a == R.NI_FMEDIA_LO f) ||
      (decide (0xA1000 ≤ a) && decide (a < 0xA3000) && a % 64 == 0x2C) then [a + 4]
  else []

/-- What a read of a window or register answers, latches aside. -/
def content (s : State) (a : Nat) : Nat :=
  if isWindow a then
    match lsAddr a with
    | some (b, i, hi) => if hi then entryOf s b i / 2 ^ 32 else entryOf s b i % 2 ^ 32
    | none => 0
  else shows s a

/-- Clears the RC fields of a register (R7). [log 32 DEDUCED] -/
def clearRc (s : State) (a : Nat) : State :=
  if a = R.OBS_TSTAT then { s with obs := { s.obs with lostCnt := 0 } }
  else if a = R.CL_OUTQ then { s with ring := { s.ring with hiwater := 0, refused := 0 } }
  else
    match findReg a with
    | none => s
    | some r =>
      if r.fields.any (fun f => f.acc == .rc) then
        s.setReg a (r.fields.foldl (fun v f => if f.acc == .rc then setBits v f.lo f.w 0 else v) (s.reg a))
      else s

/-- One register read as a path brings it (R7, R300, R419): `full` whether it clears what a read clears. Answers the word. [log 8 DEDUCED] -/
def busRead (s : State) (p : Path) (a : Nat) (full : Bool) : State × Nat :=
  if !(addrOn s.strap.role a) || a % 4 != 0 then (s, 0)
  else
    let key := fun x => pathIdx p * 0x2000000 + x
    let held := Table.get 0 s.latch (key a)
    let s1 := if isWindow a && a % 8 = 0 then
        match lsAddr a with
        | some (b, i, _) => if (bankOf s b).bad.get 0 i != 0 then lampUe s b i else s
        | none => s
      else s
    let s2 := (latchesOf a).foldl (fun t x => { t with latch := Table.set 0 t.latch (key x) (content s1 x + 1) }) s1
    if held = 0 then (if full then clearRc s2 a else s2, content s1 a)
    else ({ s2 with latch := Table.set 0 s2.latch (key a) 0 }, held - 1)

end Sys2Proof.Machine
end

