-- ==== Sys2Proof/Machine/XaFollow.lean ====
section
/-! DEFINITION. Machine/XaFollow.lean: the follower's side of a wall transaction: staging (R122 to R124), the vote (R124, R125), the
window and the apply (R130, R131), arm-acks (R132), and a coach's mapping of its parent's decision (R15, R123, R129). -/
namespace Sys2Proof.Machine

/-! Staging (R122 to R124). -/

/-- The (ADDR, DATA) entries of a prepare part (R121). -/
def partEntries (c : Copy) : List (Nat × Nat) :=
  (List.range ((c.data.length - 24) / 8)).map fun i => (beAt c.data (24 + 8 * i) 4, beAt c.data (28 + 8 * i) 4)

/-- Notes part `part` of `np` of the destination `route`. -/
def addPart : List (Nat × Nat × List Nat) → Nat → Nat → Nat → List (Nat × Nat × List Nat)
  | [], route, np, part => [(route, np, [part])]
  | x :: r, route, np, part =>
    if x.1 = route then (x.1, x.2.1, if x.2.2.contains part then x.2.2 else x.2.2 ++ [part]) :: r else x :: addPart r route np part

/-- The use that a part belongs to: the one held, or a new one, which drops the one before it; an old use whose window has not ended
is an outcome lost (R124). -/
def useFor (s : State) (c : Copy) : State × Use :=
  let x := beAt c.data 1 1 % 16
  let epoch := beAt c.data 2 4
  let target := beAt c.data 8 6
  let fresh : Use :=
    { epoch := epoch, target := target, ops := beAt c.data 16 1, slot := beAt c.data 17 1, rate := beAt c.data 18 1, dlead := beAt c.data 20 4,
      parts := [], entries := [], closed := false, voted := false, refused := false, badParts := false, full := false, windowEnd := target + 3,
      sub := none, down := 0, into := [], mute := false }
  match s.use x with
  | none => (traceXa s x 1 target, fresh)
  | some u =>
    if u.epoch = epoch && u.target = target then (s, u)
    else
      let s1 := if u.refused then s else raise (traceXa s x 7 u.target) 228 (d2 x 0 ++ bytesLE 6 u.target)
      let s2 := match u.sub with | some y => if subLives s1 y x then dropSub s1 y else s1 | none => s1
      (traceXa s2 x 1 target, fresh)

/-- A prepare part that concerns this device: staged where it is addressed here, sent on where its route passes through this coach
into ring `r`, if the ring's rate lets it carry parent transactions (R110, R122, R123). -/
def prepareAccept (s : State) (c : Copy) (into : Option Nat) : State :=
  let x := beAt c.data 1 1 % 16
  let route := c.route.toNat
  let np := beAt c.data 14 2
  let d := useFor s c
  let u := d.2
  if u.refused || u.voted then d.1
  else
    let same := u.parts.isEmpty || (u.ops == beAt c.data 16 1 && u.slot == beAt c.data 17 1 && u.rate == beAt c.data 18 1 && u.dlead == beAt c.data 20 4)
    let sameN := u.parts.all fun e => e.1 != route || e.2.1 == np
    let u1 := { u with parts := addPart u.parts route np (beAt c.data 6 2), badParts := u.badParts || !same || !sameN }
    let es := partEntries c
    match into with
    | none =>
      let room := decide (stagedAll (d.1.setUse x none) + u1.entries.length + es.length ≤ 512)
      d.1.setUse x (some (if room then { u1 with entries := u1.entries ++ es } else { u1 with full := true }))
    | some r =>
      let u2 := { u1 with down := u1.down + es.length, into := if u1.into.contains r then u1.into else u1.into ++ [r] }
      if (rateRatio (d.1.rd (F.WT_RCFG_RATE r)) (d.1.rd F.WT_FMARK_RATE)).isNone || u1.mute then d.1.setUse x (some u2)
      else
        let y := xaRelay d.1 r c u1.sub
        y.1.setUse x (some { u2 with sub := y.2, mute := y.2.isNone })

/-! The vote (R124, R125). -/

/-- Whether the fence of TARGET lies at least 1 ms ahead. [log 46 DEDUCED] -/
def targetAhead (s : State) (target : Nat) : Bool :=
  decide (folTimeNs s + 1000000 ≤ flipOf (s.rd F.WT_FMARK_RATE) target)

/-- Whether some entry would change a Q field of a block that is enabled now and that no earlier entry disables (R125 code 02h). -/
def qConflict (s : State) : State → List (Nat × Nat) → Bool
  | _, [] => false
  | t, (a, w) :: r =>
    match findReg a with
    | none => qConflict s t r
    | some g =>
      let held := !(blockDisabled s a) && !(blockDisabled t a)
      if held && (wordEffect g (s.reg a) (admittedWord s a w) true true).rej then true
      else qConflict s (t.setReg a (wordEffect g (t.reg a) (admittedWord t a w) held true).live) r

/-- The rate of a coach ring as the staged entries leave it. -/
def stagedRate (s : State) (es : List (Nat × Nat)) (r : Nat) : Nat :=
  es.foldl (fun v e => if e.1 = R.WT_RCFG r then bits e.2 8 8 else v) (s.rd (F.WT_RCFG_RATE r))

/-- Whether coach ring `r` carries parent transactions: it runs at a rate that R110 lets do so, or parts of this use go into it. [log 46 DEDUCED] -/
def carries (s : State) (u : Use) (r : Nat) : Bool :=
  u.into.contains r || (genRuns s r && (rateRatio (s.rd (F.WT_RCFG_RATE r)) (s.rd F.WT_FMARK_RATE)).isSome)

/-- The first failed check of R125. -/
def refuseCode (s : State) (u : Use) : Option Nat :=
  let parent := if u.ops.testBit 2 then u.rate else s.rd F.WT_FMARK_RATE
  if folState s != 1 then some 4
  else if followedEpoch s != some u.epoch then some 5
  else if !(targetAhead s u.target) then some 8
  else if u.badParts then some 9
  else if u.full then some 1
  else if u.entries.any fun e => decide (0x130000 ≤ e.1) || e.1 % 4 != 0 then some 3
  else if qConflict s s u.entries then some 2
  else if u.ops.testBit 1 && !(slotHolds s u.slot) then some 6
  else if u.ops.testBit 3 && !(u.ops.testBit 1) && decide (63 ≤ entriesTaken s (s.rd F.UPD_STAT_RUNNING)) then some 6
  else if s.isCoach && anyIdx 8 fun r => carries s u r && (rateRatio (stagedRate s u.entries r) parent).isNone then some 7
  else none

/-- Whether every part of every destination of a use has come. -/
def partsWhole (u : Use) : Bool := u.parts.all fun e => e.2.2.length == e.2.1

/-- The vote of a use, once its conditions hold (R124, R125); none once its sub-transaction has aborted (R15). -/
def tryVote (s : State) (x : Nat) : State :=
  match s.use x with
  | none => s
  | some u =>
    let subOk := match u.sub with | some y => subReady s y x | none => true
    let subGone := match u.sub with | some y => !(subLives s y x) | none => false
    if u.voted || u.mute || subGone || !u.closed || (!(partsWhole u) && !u.badParts) then s
    else match refuseCode s u with
      | some c =>
        let s1 := (raise (traceXa s x 2 u.target) 226 (d2 x c)).setUse x (some { u with voted := true, refused := true, entries := [] })
        sendXaUp s1 2 x ([2#8] ++ bytesBE 1 c ++ bytesBE 2 (u.entries.length + u.down) ++ bytesBE 4 0)
      | none =>
        if !subOk then s
        else sendXaUp ((traceXa s x 2 u.target).setUse x (some { u with voted := true })) 2 x
          ([1#8] ++ bytesBE 1 0 ++ bytesBE 2 (u.entries.length + u.down) ++ bytesBE 4 0)

/-- The prepare close of an XID: a use of the same EPOCH and TARGET is closed, a coach closes its sub-transaction, and the vote follows
where it can (R123, R124). [log 45 DEDUCED] -/
def closeAccept (s : State) (c : Copy) : State :=
  let x := beAt c.data 1 1 % 16
  match s.use x with
  | none => s
  | some u =>
    if u.epoch != beAt c.data 2 4 || u.target != beAt c.data 8 6 || u.closed then s
    else
      let s1 := s.setUse x (some { u with closed := true })
      tryVote (match u.sub with | some y => subClose s1 y | none => s1) x

/-- A fence of ring `n` with frame `f` ends the sub-transactions of that ring at T + 3, and after the three marks that follow a late fire (R119, R129). [log 43 DEDUCED] -/
def subFence (s : State) (n f : Nat) : State :=
  forIdx 16 s fun s y =>
    let v := s.xid y
    let late := match v.fireFrame with | some p => parentRatio s n * p | none => v.target
    if v.parent.isSome && v.refRing = n && frameLe (v.target + 3) f && frameLe (late + 3) f && (v.st == .fired || v.st == .aborted)
    then freeXid (subReport s y true) y else s

/-- A coach learns its parent's decision from the first intact mark of a frame (R129): its sub-transactions fire or are dropped. -/
def subDecide (s : State) (m : Mark) : State :=
  forIdx 16 s fun s x =>
    match s.use x with
    | none => s
    | some u => match u.sub with
      | none => s
      | some y =>
        let v := s.xid y
        if frameLt m.frame u.target || frameLt u.windowEnd m.frame || !(subLives s y x) then s
        else if m.commit.testBit x then fire (s.setXid y { v with fireFrame := some m.frame }) y
        else if !(m.rep.testBit x) then dropSub s y else s

/-! The window and the apply (R130, R131). -/

/-- What a fence of frame `n` decides for a use of XID `x`, with the mark taken at it: 1 to 4 the arm-ack result, 5 go on waiting with
a window from here, none before the target or while it waits (R130). -/
def xaVerdict (u : Use) (x n : Nat) (m : Option Mark) : Option Nat :=
  if frameLt n u.target then none
  else match m with
    | some k =>
      if frameLt u.windowEnd n then some 4
      else if k.commit.testBit x then some (if n = u.target then 1 else 2)
      else if k.rep.testBit x then some 5
      else some 3
    | none => if frameLe u.windowEnd n then some 4 else none

/-- The bits of a register's S fields. -/
def sMask (a : Nat) : Nat :=
  match findReg a with
  | none => 0
  | some r => r.fields.foldl (fun m f => if f.app == .s then m + (2 ^ f.w - 1) * 2 ^ f.lo else m) 0

/-- One staged entry of XID `x` applies (R131 step 2). [log 16 DEDUCED] -/
def stagedEntry (x : Nat) (s : State) (e : Nat × Nat) : State :=
  let ovr := heldOpen s e.1 (sMask e.1)
  let r := busWrite s .xa e.1 e.2
  let s1 := if ovr then raise r.1 230 (d2 x 0 ++ bytesLE 4 e.1) else r.1
  if r.2 then raise (s1.bump F.SYS_CSTAT_QREJ_CNT 1) 231 (d2 x 0 ++ bytesLE 4 e.1) else s1

/-- The MFID that a transaction gives: the last staged entry to UPD_MFID (R405). -/
def stagedMfid (u : Use) : Option Nat :=
  u.entries.foldl (fun m e => if e.1 = R.UPD_MFID then some e.2 else m) none

/-- The image side of an applying use after its entries: ACTIVATE or MANIFEST (R404, R405). -/
def applyImage (s : State) (u : Use) : State :=
  if u.ops.testBit 1 then activate s u.slot (stagedMfid u)
  else if u.ops.testBit 3 then manifest s (stagedMfid u) else s

/-- The PRELOAD entries that an applying use's ACTIVATE puts ahead of the staged entries (R404 step 2). -/
def imageFirst (s : State) (u : Use) : State := if u.ops.testBit 1 then slotPreload putPreload s u.slot else s

/-- The result of a use that has ended: its events and counts, its trace record, the arm-ack of a carriage, or of a coach with a
sub-transaction once its sub-wall has reported (R130, R132). [log 44 DEDUCED] -/
def endUse (s : State) (x : Nat) (u : Use) (result n : Nat) : State :=
  let s1 := (traceXa s x (match result with | 3 => 6 | 4 => 7 | _ => 4) u.target).setUse x none
  let s2 :=
    if result = 2 then count ((raise s1 227 (d2 x (n - u.target) ++ bytesLE 6 n)).bump F.XA_CNT_LATE 1) 37 1
    else if result = 4 then (raise s1 228 (d2 x 0 ++ bytesLE 6 u.target)).bump F.XA_CNT_UNKNOWN 1 else s1
  match u.sub with
  | none => armack s2 x result n
  | some y =>
    if (s2.xid y).parent == some x && (s2.xid y).st == .fired && result != 4 then subReport (s2.modXid y fun v => { v with subRes := result, subFrame := n }) y false
    else armack (if subLives s2 y x then dropSub s2 y else s2) x result n

/-- The uses that a fence applies, ascending. -/
def applying (s : State) (n : Nat) (m : Option Mark) : List (Nat × Use) :=
  (List.range 16).filterMap fun x => match s.use x with
    | some u => if !u.refused && (xaVerdict u x n m == some 1 || xaVerdict u x n m == some 2) then some (x, u) else none
    | none => none

/-- What the fence decides for XID `x` beside applying: results, a window that moves, the end of a refused use. -/
def settleUse (n : Nat) (m : Option Mark) (s : State) (x : Nat) : State :=
  match s.use x with
  | none => s
  | some u =>
    if u.refused then (if frameLe u.windowEnd n then s.setUse x none else s)
    else match xaVerdict u x n m with
      | none => s
      | some 5 => s.setUse x (some { u with windowEnd := n + 3 })
      | some r => endUse s x u r n

/-- Whether a mark makes its fence a swap fence for this follower (R136). -/
def swapMark (s : State) (m : Mark) : Bool :=
  m.commit.testBit 15 && (match s.use 15 with | some u => u.refused | none => true)

/-- Steps 1 to 3 of R131 at a follower's fence; answers whether an applying transaction asks for BANK. [log 44 DEDUCED] -/
def xaFence (s : State) : State × Bool :=
  let n := s.wt.fol.lastFrame
  let m := s.wt.fol.taken
  let s1 := commitFence s none true
  let l := applying s1 n m
  let s2 := l.foldl (fun s e => imageFirst s e.2) s1
  let s3 := judgeTaken (l.foldl (fun s e => e.2.entries.foldl (stagedEntry e.1) s) s2)
  let s4 := if l.any fun e => e.2.ops.testBit 2 then adaptTiming s3 else s3
  let s5 := l.foldl (fun s e => applyImage s e.2) s4
  let s6 := if l.isEmpty then s5 else s5.modPix fun p => { p with changed := true }
  (forIdx 16 s6 (settleUse n m), l.any fun e => e.2.ops.testBit 0)

/-- Whether a mark brings an apply, or a swap that the blend engine would make, at its fence (R205 cause 2h). -/
def markDue (s : State) (m : Mark) : Bool :=
  (anyIdx 16 fun x => match s.use x with
    | some u => !u.refused && frameLe u.target m.frame && frameLe m.frame u.windowEnd && m.commit.testBit x
    | none => false) || (swapMark s m && blendAsks s (s.on F.PIX_BANK_READY))

end Sys2Proof.Machine
end

