-- ==== Sys2Proof/Machine/HifRun.lean ====
section
/-! DEFINITION. Machine/HifRun.lean: descriptors of the command rings: consumption (R305, R309, R310), waiting heads, and what each
TYPE does (R310 to R318, R321). -/
namespace Sys2Proof.Machine

/-! The checks of a descriptor (R309). -/

/-- Whether `n` bytes from `o` are all 0. -/
def zeros (b : List Byte) (o n : Nat) : Bool := leAt b o n == 0

/-- The descriptor TYPEs that carry a route (R310). -/
def routedType (t : Nat) : Bool := t == 3 || t == 4 || t == 5 || t == 9 || t == 11

/-- LEN of an UPDATE packet by its SUB (R401). -/
def updLenOk (sub len : Nat) : Bool :=
  match sub with
  | 1 => len == 8
  | 2 => decide (8 ≤ len) && decide (len ≤ 8184) && len % 8 == 0
  | 3 | 4 | 5 => len == 0
  | _ => false

/-- Whether the body of a descriptor keeps its reserved bytes 0 and its fields in range (R309, R310 to R318). [log 52 DEDUCED] -/
def bodyOk (s : State) (b : List Byte) : Bool :=
  let route := leAt b 4 4
  match leAt b 0 1 with
  | 1 => zeros b 16 48
  | 2 => decide (leAt b 16 1 ≤ 1) && decide (leAt b 17 1 ≤ 7) && zeros b 18 6 && zeros b 30 34 && (!s.isStandalone || zeros b 17 1)
  | 3 =>
    let n := leAt b 20 1
    leAt b 16 4 % 4 == 0 && decide (leAt b 16 4 < 2 ^ 25) && decide (1 ≤ n) && decide (n ≤ 64) && decide (leAt b 21 1 < 4) && zeros b 22 2 &&
    leAt b 24 8 % 4 == 0 && (if n ≤ 8 then zeros b 24 8 && zeros b (32 + 4 * n) (32 - 4 * n) else zeros b 32 32)
  | 4 =>
    let n := leAt b 20 1
    leAt b 16 4 % 4 == 0 && decide (leAt b 16 4 < 2 ^ 25) && decide (1 ≤ n) && decide (n ≤ 8) && (leAt b 21 1 == 0 || leAt b 21 1 == 2) &&
    zeros b 22 2 && zeros b 34 30 &&
    (!(hasBroadcast route) || (!(zeros b 24 8) && leAt b 24 8 % 64 == 0 && decide (1 ≤ leAt b 32 2) && decide (leAt b 32 2 ≤ 4096)))
  | 5 =>
    leAt b 16 4 % 8 == 0 && leAt b 20 4 % 8 == 0 && decide (8 ≤ leAt b 20 4) && decide (leAt b 20 4 ≤ 2 ^ 24) &&
    decide (leAt b 16 4 + leAt b 20 4 ≤ 2 ^ 25) && leAt b 24 8 % 8 == 0 && zeros b 32 32
  | 6 =>
    !(zeros b 16 1) && decide (leAt b 17 1 < 16) && decide (leAt b 18 1 < 2) && zeros b 19 5 && decide (leAt b 24 8 < 2 ^ 34) &&
    zeros b 38 2 && zeros b 52 12
  | 7 => decide (leAt b 16 1 < 8) && zeros b 17 7 && leAt b 24 8 % 8 == 0 && zeros b 38 26
  | 8 => decide (leAt b 16 1 < 16) && zeros b 17 47
  | 9 =>
    decide (leAt b 16 1 < 16) && decide (leAt b 17 1 < 16) && decide (leAt b 18 1 < 2) && zeros b 19 1 && decide (1 ≤ leAt b 20 2) &&
    decide (leAt b 20 2 ≤ 512) && zeros b 22 2 && zeros b 32 32
  | 10 => decide (leAt b 16 1 < 16) && decide (leAt b 17 1 < 2) && leAt b 18 1 != 1 && zeros b 19 5 && zeros b 30 34
  | 11 => updLenOk (leAt b 16 1) (leAt b 32 4) && zeros b 18 2 && zeros b 36 28 && !(hasBroadcast route)
  | _ => false

/-- The status with which a descriptor is turned away when it is consumed, none where it runs (R309, R310, R312). [log 52 DEDUCED] -/
def descStatus (s : State) (b : List Byte) : Option Nat :=
  let t := leAt b 0 1
  let head := decide (leAt b 1 1 < 2) && zeros b 2 2 && (routedType t || (zeros b 4 4 && zeros b 1 1))
  if !head || !(bodyOk s b) then some 0x80
  else if s.isStandalone && decide (7 ≤ t) && decide (t ≤ 10) then some 0x84
  else if s.isStandalone && routedType t && !(zeros b 4 4 && zeros b 1 1) then some 0x84
  else none

/-! Waiting heads (R305, R119, R310). -/

/-- The frame of the last fence passed on a generator; none before its first. [log 49 DEDUCED] -/
def lastPassed (s : State) (ring : Nat) : Option Nat :=
  if (s.gen ring).lastFence = 0 then none else some ((s.gen ring).next - 1)

/-- Whether the fence of a frame has passed on a generator. [log 49 DEDUCED] -/
def fencePassed (s : State) (ring frame : Nat) : Bool :=
  match lastPassed s ring with
  | none => false
  | some l => decide ((l % 2 ^ 48 + 2 ^ 48 - frame) % 2 ^ 48 < 2 ^ 47)

/-- Whether the head of ring `n` with bytes `b` waits. -/
def headWaits (s : State) (n : Nat) (b : List Byte) : Bool :=
  match leAt b 0 1 with
  | 2 =>
    let g := leAt b 17 1
    inflight s n != 0 || (leAt b 16 1 == 1 && s.on (F.WT_RCFG_EN g) && !(fencePassed s g (leAt b 24 6)))
  | 3 | 4 | 5 => decide (64 ≤ regsOut s)
  | 8 => (s.xid (leAt b 16 1)).st != .free || (leAt b 16 1 == 15 && s.on F.XA_AUTO_SWAP_SYNC)
  | 10 => claimHolds s
  | _ => false

/-- A FENCE that was consumed completes (R310). -/
def fenceDone (s : State) (j : Job) : State :=
  let g := leAt j.bytes 17 1
  finishWith s j { j.record (if s.on (F.WT_RCFG_EN g) then 0 else 1) with frame := (lastPassed s g).getD 0 }

/-- Whether this member is one of a pair with its link up: what the standby is told. -/
def tellsPartner (s : State) : Bool := pairEn s && mirrorUp s

/-- The fields of a DESC item: command ring, index, T, the 64 bytes, the host data (R274). -/
def descBody (j : Job) (t : Nat) (data : List Byte) : List Nat :=
  [j.ring % 16, j.index, t] ++ (slice j.bytes 0 64 ++ data).map BitVec.toNat

/-- An XA descriptor travels to the standby for its state (R279). -/
def tellXa (s : State) (j : Job) (t : Nat) (data : List Byte) : State :=
  if tellsPartner s then mirrorSend s false 2 0 (descBody j t data) else s

/-- A consumed XA_BEGIN puts its XID into BUILDING (R119). -/
def begun (s : State) (b : List Byte) : State :=
  if leAt b 0 1 = 8 then s.setXid (leAt b 16 1) { Xid.init with st := .building } else s

/-- XA_BEGIN completes (R119, R317). -/
def beginDone (s : State) (j : Job) : State := finish (tellXa s j 0 []) j 0

/-- A waiting head whose condition has come is consumed: a FENCE and an XA_BEGIN complete, a register descriptor is then to run. -/
def tryHead (s : State) (n : Nat) : State :=
  let b := s.hif.heads.get [] n
  if !(s.on (F.HIF_CR_STAT_WAITING n)) || !(mayConsume s n) || headWaits s n b then s
  else
    let x := takeHead (begun s b) n b
    let j := { x.2 with ran := true }
    match leAt b 0 1 with
    | 2 => fenceDone (x.1.setJob j) j
    | 8 => beginDone (x.1.setJob j) j
    | _ => x.1

/-- What waits is looked at again: automatic transactions (R135), every ring with a waiting head, and records that HIF_CPL_READY has not told yet
(R307). -/
def retryHeads (s : State) : State := cplTell (forIdx 16 (autoStart 8 s) tryHead)

/-! Consumption (R305, R309, R319). -/

/-- The head of ring `n` could not be read: 81h with TYPE 00h, and the ring halts (R308, R309, R319). [log 50 DEDUCED] -/
def headUnread (s : State) (n : Nat) : State :=
  let x := takeHead s n []
  let s1 := raise (x.1.bump F.HIF_CNT2_DMA_ERR 1) 450 (d2 n 1 ++ bytesLE 2 x.2.index)
  (finish s1 x.2 0x81).wr (F.HIF_CR_STAT_HALT n) 1

/-- The device comes to the head of ring `n`, with the bytes it reads there, none where the read failed (R305). [log 9 DESIGN CHOICE] -/
def consume (s : State) (n : Nat) (desc : Option (List Byte)) : State :=
  if !(mayConsume s n) || s.on (F.HIF_CR_STAT_WAITING n) then s
  else match desc with
    | none => headUnread s n
    | some d =>
      let b := slice d 0 64
      match descStatus s b with
      | some st =>
        let x := takeHead s n b
        let s1 := if st = 0x80 then raise x.1 449 (d2 n (leAt b 0 1) ++ bytesLE 2 x.2.index) else x.1
        finish s1 x.2 st
      | none =>
        if headWaits s n b then (s.wr (F.HIF_CR_STAT_WAITING n) 1).modHif fun h => { h with heads := h.heads.set [] n b }
        else (takeHead (begun s b) n b).1

/-! What a consumed descriptor does. -/

/-- Whether an earlier descriptor of the same command ring has packets still to send (R306). -/
def behind (s : State) (j : Job) : Bool :=
  s.hif.jobs.any fun k => k.ring == j.ring && decide (k.id < j.id) && k.ran &&
    ((k.type == 5 && !k.data.isEmpty) ||
     (k.type == 10 && anyIdx 16 fun x => (s.xid x).completion == some k.id && (s.xid x).st == .preparing))

/-- Whether a descriptor is refused while the mirror link is down (R292, R293). -/
def linkRefuses (s : State) (t : Nat) : Bool :=
  pairEn s && !(mirrorUp s) && !(s.on F.RED_CFG_RED_SOLO) && (t == 3 || t == 4 || t == 5 || t == 7 || t == 10 || t == 11)

/-- A refusal with 83h: an XA_COMMIT aborts its XID with reason PARTITION (R317). -/
def refuseLink (s : State) (j : Job) : State :=
  let s1 := finish s j 0x83
  let x := leAt j.bytes 16 1
  if j.type = 10 && ((s1.xid x).st == .building || ((s1.xid x).st == .aborted && (s1.xid x).early)) then
    freeXid (if (s1.xid x).st == .building then abortXid s1 x reasonPartition 0 0 0 else s1) x
  else s1

/-- Runs the descriptor of TYPE `t` that ring `n` consumed and has not run, if it is its turn; else looks at a waiting head. -/
def runDesc (s : State) (n t : Nat) (f : State → Job → State) : State :=
  match s.hif.jobs.find? fun j => j.ring % 16 == n && !j.ran with
  | none => tryHead s n
  | some j0 =>
    if j0.type ≠ t || behind s j0 then s
    else
      let j := { j0 with ran := true }
      let s1 := s.setJob j
      retryHeads (if linkRefuses s t then refuseLink s1 j else f s1 j)

/-- Host data of a descriptor; a failed read completes it with 81h (R309). -/
def withData (s : State) (j : Job) (data : Option (List Byte)) (f : List Byte → State) : State :=
  match data with
  | some d => f d
  | none => finish (raise (s.bump F.HIF_CNT2_DMA_ERR 1) 450 (d2 (j.ring % 16) 2 ++ bytesLE 2 j.index)) j 0x81

/-- Route 0000_0000h with RHB 0: the consuming device (R312). -/
def isLocal (j : Job) : Bool := j.route == 0 && j.rhb == 0

/-- Writes words from `a` on, the address advancing by `inc`; answers whether a Q field's change was dropped. [log 53 DEDUCED] -/
def writeWords (s : State) (p : Path) (a inc : Nat) (ws : List Nat) : State × Bool :=
  let r := ws.foldl (fun (x : (State × Bool) × Nat) w =>
    let y := busWrite x.1.1 p x.2 w
    ((y.1, x.1.2 || y.2), x.2 + inc)) ((s, false), a)
  r.1

/-- Reads `n` words from `a` on. [log 53 DEDUCED] -/
def readWords (s : State) (p : Path) (a inc n : Nat) : State × List Nat :=
  let r := (List.range n).foldl (fun (x : State × List Nat) i =>
    let y := busRead x.1 p (a + inc * i) true
    (y.1, x.2 ++ [y.2])) (s, [])
  r

/-- The record of a local access: the status a REGRSP would carry, as one reply (R312, R314). [log 53 DEDUCED] -/
def finishLocal (s : State) (j : Job) (rej : Bool) (n : Nat) (words : List Nat) : State :=
  finishReg s { j with rsp := if rej then 2 else 0, count := n, parts := n, words := words, answered := true }

/-- A request that cannot leave from this member (R309 code 84h). -/
def sentOr (s : State) (j : Job) (ok : Bool) (f : State → State) : State := if ok then f s else finish s j 0x84

/-- REG_WRITE (R311 to R314). -/
def runRegWrite (s : State) (j : Job) (data : Option (List Byte)) : State :=
  let b := j.bytes
  let a := leAt b 16 4
  let n := leAt b 20 1
  let opt := leAt b 21 1
  withData s j (if n ≤ 8 then some (slice b 32 (4 * n)) else data) fun d =>
    let ws := wordsLE n d
    if isLocal j then
      let r := writeWords s .local a (if bitAt opt 1 then 4 else 0) ws
      finishLocal r.1 j r.2 1 []
    else if !(routeOk s j.route j.rhb) then finish s j 3
    else
      let r := sendRequest s j 2 (bitAt opt 0) (bytesBE 4 a ++ bytesBE 1 n ++ bytesBE 1 opt ++ bytesBE 2 0 ++ ws.flatMap (bytesBE 4))
      sentOr r.1 j r.2 fun s => if bitAt opt 0 then s else finishReg s j

/-- REG_READ (R311 to R314). [log 53 DEDUCED] -/
def runRegRead (s : State) (j : Job) : State :=
  let a := leAt j.bytes 16 4
  let n := leAt j.bytes 20 1
  let opt := leAt j.bytes 21 1
  if isLocal j then
    let r := readWords s .local a (if bitAt opt 1 then 4 else 0) n
    finishLocal r.1 j false n r.2
  else if !(routeOk s j.route j.rhb) then finish s j 3
  else
    let r := sendRequest s j 3 true (bytesBE 4 a ++ bytesBE 1 n ++ bytesBE 1 opt ++ bytesBE 2 0)
    sentOr r.1 j r.2 id

/-- TABLE_LOAD (R315): host words are little-endian, packet words most significant byte first. [log 54 DEDUCED] -/
def runTableLoad (s : State) (j : Job) (data : Option (List Byte)) : State :=
  let a := leAt j.bytes 16 4
  let len := leAt j.bytes 20 4
  withData s j data fun d =>
    let ws := wordsLE (len / 4) d
    if isLocal j then
      let r := writeWords s .local a 4 ws
      finishLocal r.1 j r.2 1 []
    else if !(routeOk s j.route j.rhb) || (hasBroadcast j.route && posOfRoute s j.route != 63) then finish s j 3
    else if hasBroadcast j.route && !(s.on (F.CL_RTAB_FLAGS_LOCK (ringOfRoute s j.route j.rhb))) then finish s j 4
    else if !(mayControl s (ringOfRoute s j.route j.rhb)) then finish s j 0x84
    else sendParts 16 (s.setJob { j with data := ws.flatMap (bytesBE 4) }) j.id

/-- The seal fields of a LAYER_FLIP (R316). -/
def sealOf (b : List Byte) : Option Seal :=
  if bitAt (leAt b 18 1) 0 then some ⟨leAt b 40 2, leAt b 42 2, leAt b 44 2, leAt b 46 2, leAt b 48 4⟩ else none

/-- A standalone device's flip (R321): fill buffer only, ring 0, frame T of generator 0 at least 50 µs ahead. -/
def runFlipAlone (s : State) (j : Job) : State :=
  let b := j.bytes
  let buf := leAt b 24 8
  if leAt b 16 1 ≠ 1 || leAt b 17 1 ≠ 0 then finish s j 3
  else if buf ≠ fbAddr s (fbFill s) 0 0 then finish s j 4
  else if bitAt (leAt b 18 1) 0 then finish s j 5
  else
    let target := leAt b 32 6
    let t := max target (firstCount (s.gen 0).rate (wallNs s + 50000))
    let s1 := supersede s 1 0
    let f : Flip := ⟨some j.id, true, 0, buf, none, t, target != 0 && decide (target < t), [(0, t)], [], 0⟩
    pixWake (s1.modCmp fun c => { c with flips := c.flips ++ [f] }) 1

/-- LAYER_FLIP (R170 to R172, R279, R321). -/
def runFlip (s : State) (j : Job) : State :=
  if s.isStandalone then runFlipAlone s j
  else
    let b := j.bytes
    let rings := leAt b 16 1
    let l := leAt b 17 1
    let buf := leAt b 24 8
    let target := leAt b 32 6
    let q := sealOf b
    let st := flipCheck s rings l buf q
    if st ≠ 0 then finish s j st
    else if tellsPartner s then
      let ref := ((List.range 8).filter rings.testBit).headD 0
      let t := max target (firstWindow s ref 100)
      mirrorAsk (flipStart s (some j.id) false rings l buf target q (some t)) false 2 (descBody j t []) j.id
    else flipStart s (some j.id) true rings l buf target q none

/-- MAP_LOAD (R178, R279). -/
def runMap (s : State) (j : Job) (data : Option (List Byte)) : State :=
  let r := leAt j.bytes 16 1
  let target := leAt j.bytes 32 6
  withData s j data fun d =>
    let tab := slice d 0 992
    let st := mapCheck s r tab
    if st ≠ 0 then finish s j st
    else if tellsPartner s then
      let t := max target (firstWindow s r 100)
      mirrorAsk (loadStart s (some j.id) false r target tab (some t)) false 2 (descBody j t tab) j.id
    else loadStart s (some j.id) true r target tab none

/-- The destination that an XA_ADD of bytes `b` names (R317). -/
def xaAddDest (b : List Byte) (route rhb : Nat) : XaDest := ⟨route, rhb, [], leAt b 17 1, leAt b 18 1, [(leAt b 24 8, leAt b 20 2)]⟩

/-- XA_ADD is recorded; its entry list stays in host memory until the prepares are sent (R120, R317). -/
def runXaAdd (s : State) (j : Job) : State :=
  let b := j.bytes
  let x := leAt b 16 1
  if (s.xid x).st != .building then finish s j 1
  else
    let s1 := s.modXid x fun v => { v with dests := joinDest v.dests (xaAddDest b j.route j.rhb) }
    finish (tellXa s1 j 0 []) j 0

/-- XA_COMMIT (R119, R120, R317). [log 48 DEDUCED] -/
def runXaCommit (s : State) (j : Job) : State :=
  let b := j.bytes
  let x := leAt b 16 1
  let target := if bitAt (leAt b 17 1) 0 then some (leAt b 24 6) else none
  xaCommit (tellXa s j (commitFrame s x target (leAt b 18 1)) []) x target (leAt b 18 1) j

/-- UPDATE_BLOCK (R318, R401). -/
def runUpdate (s : State) (j : Job) (data : Option (List Byte)) : State :=
  let b := j.bytes
  let sub := leAt b 16 1
  let len := leAt b 32 4
  withData s j (if len = 0 then some [] else data) fun d =>
    let body := slice d 0 len
    if isLocal j then
      let r := updStep s sub (leAt b 17 1) (leAt b 20 4) body
      finish r.1 j r.2.status
    else if !(routeOk s j.route j.rhb) then finish s j 0x84
    else
      let r := sendRequest s j 8 true (bytesBE 1 sub ++ bytesBE 1 (leAt b 17 1) ++ bytesBE 4 (leAt b 20 4) ++ bytesBE 2 (len / 8) ++ body)
      sentOr r.1 j r.2 id

/-- An ACK of an UPDATE reaches the ring end: it answers the oldest UPDATE request of its route (R401, R402). -/
def updAckAccept (s : State) (ring : Nat) (c : Copy) : State :=
  let fits := fun (q : Request) => q.ring == ring && q.route == c.route.toNat &&
    (match s.job q.job with
     | some j => j.type == 11 && leAt j.bytes 16 1 == beAt c.data 9 1 && leAt j.bytes 17 1 == beAt c.data 1 1
     | none => false)
  match (s.hif.reqs.find? fits).bind fun q => s.job q.job with
  | none => s
  | some j => finishWith s j { j.record (beAt c.data 8 1) with route := c.route.toNat, rhb := c.rhb }

/-- REPLY_WAIT passed for a request (R313, R402). -/
def replyExpire (s : State) (ring tag : Nat) : State :=
  match (s.hif.reqs.find? fun q => q.ring == ring && q.tag == tag).bind fun q => s.job q.job with
  | some j => if j.type = 11 then finish s j 0x0A else requestExpire s ring tag
  | none => s

end Sys2Proof.Machine
end

