-- ==== Sys2Proof/Machine/Fence.lean ====
section
/-! DEFINITION. Machine/Fence.lean: what a fence brings about, in one step (R97, R115, R131, R166, R185, R187, R242, R295): the swap
requests, the follower's fence of a carriage, a coach and an aligned standby, and the fences of generators. -/
namespace Sys2Proof.Machine

/-! The swap of a fence (R131 step 4, R136, R200, R224). -/

/-- The readiness at the sampling instant: the arrival of the mark taken, or LEAD before the fence where no mark is held (R200, R224). [log 42 DEDUCED, 83 DEDUCED] -/
def sampledReady (s : State) : Bool :=
  match s.wt.fol.taken with
  | some m => m.bankReady
  | none => readyAt s (s.now - (if follows s then s.rd F.WT_FMARK_LEAD else s.rd (F.WT_RCFG_LEAD 0)) * 50000000)

/-- Whether the blend engine asks for a swap at this fence: at a swap fence of the swap channel, or at the device's own fence while
SWAP_SYNC = 0 and in a standalone device. -/
def engineAsks (s : State) : Bool :=
  blendAsks s (sampledReady s) &&
  (if s.isCarriage && s.on F.XA_AUTO_SWAP_SYNC then
     match s.wt.fol.taken with
     | some m => swapMark s m
     | none => false
   else true)

/-- All requests of a fence make one swap; `bank`: an applying transaction asks for BANK. [log 42 DEDUCED] -/
def swapStep (s : State) (bank : Bool) (frame : Nat) : State :=
  let eng := engineAsks s
  let cause := if bank then 1 else if eng then 2 else 3
  let s0 := s.modPix fun p => { p with swapAsk := false }
  if bank || eng || s.pix.swapAsk then
    let s1 := swapAt s0 cause frame (sampledReady s)
    let swapped := liveBank s1 != liveBank s
    if swapped || sampledReady s then blendAfterSwap s1 swapped else s1
  else s0

/-! The follower's fence. -/

/-- The picture side of a fence: gains, pipeline, Drive Link (R185, R187, R230, R242). -/
def pictureFence (s : State) (frame : Nat) (flip : Bool) : State := drvFence (pixFence (calFence s) frame flip)

/-- The fence of a carriage. -/
def carriageFence (s : State) : State :=
  let x := xaFence s
  let n := x.1.wt.fol.lastFrame
  pictureFence (clockFence (activateEnd (swapStep x.1 x.2 n))) n false

/-- The fence of a coach by its parent ring (R97, R169, R406). -/
def coachFence (s : State) : State :=
  let x := xaFence s
  let n := x.1.wt.fol.lastFrame
  dbFence (clockFence (activateEnd (judgeTaken (actFence putPreload x.1)))) n (flipOf (x.1.rd F.WT_FMARK_RATE) (n + 1))

/-- Wall time now in ps, a sender's own clock. -/
def wallPs (s : State) : Int := ((s.wt.ptp * 1000 / 2 ^ 28 + s.now % 4000 : Nat) : Int)

/-- The standby's look at the active's fence (R111): the offset to its own PTP-derived fence. [log 40 DEDUCED] -/
def pairOffset (s : State) : State :=
  let ofs : Int := wallPs s - ((s.wt.fol.lastFlip * 1000 : Nat) : Int)
  let s1 := { s.wr F.WT_PAIR_OFS_OFS (ps32 ofs) with wt := { s.wt with slew := ofs } }
  let thr : Int := ((s.rd F.WT_PAIR_PAIR_THR * 1000 : Nat) : Int)
  let s2 := alignShow s1
  if s2.on F.WT_PAIR_ALIGNED == s1.on F.WT_PAIR_ALIGNED && (thr < ofs || ofs < -thr)
  then raise s2 217 (d2 (b2n (s2.on F.WT_PAIR_ALIGNED)) 0 ++ bytesLE 4 (ps32 ofs)) else s2

/-- Whether a standby follows the active's mark on the mirror link (R111). [log 40 DEDUCED] -/
def aligns (s : State) : Bool := pairEn s && s.on F.WT_PAIR_ALIGN_EN && redRole s == 2 && mirrorUp s

/-- The follower's fence of this device, if it follows and has one. -/
def fenceFollower (s : State) : State :=
  if !(follows s) && !(aligns s) then s
  else
    let x := followerFence s
    if !x.2 then x.1
    else if s.isCarriage then carriageFence (count x.1 32 1)
    else if s.isCoach then coachFence (count x.1 32 1)
    else if x.1.wt.fol.taken.isSome then pairOffset x.1 else alignShow x.1

/-! The sync fence (R295). -/

/-- A transaction's state by its code. -/
def xidOfCode (n : Nat) : XidSt :=
  match n with
  | 1 => .building | 2 => .preparing | 3 => .voting | 4 => .fired | 5 => .aborted | _ => .free

/-- One received item of a resync is taken over. [log 61 DEDUCED] -/
def syncItem (s : State) (i : SyncItem) : State :=
  match i with
  | .regs l => l.foldl (fun s e => (putWord s e.1.toNat e.2.toNat true).1) s
  | .seq r n => s.wr (F.RED_RSTAT_SEQ r.val) n.toNat
  | .map r b => s.modCmp fun c => { c with maps := c.maps.set [] r.val (slice b 0 992) }
  | .layer r l b m =>
    let s1 := s.setLayer r.val l.val { s.layer r.val l.val with gbuf := b.map BitVec.toNat }
    s1.wr64 (F.CMP_LMEDIA_LO_MEDIA r.val l.val) (F.CMP_LMEDIA_HI_MEDIA r.val l.val) m.toNat
  | .xid x st t => s.modXid x.val fun v => { v with st := xidOfCode st.val, target := t.toNat }
  | .dram a b => dramWrite s a.toNat b
  | .fence _ => s

/-- The registers that a SYNC item of registers lists. -/
def SyncItem.addrs : SyncItem → Option (List Nat)
  | .regs l => some (l.map fun e => e.1.toNat)
  | _ => none

/-- Mirrored registers that the received registers do not list hold their reset values at the source (R295). [log 61 DEDUCED] -/
def syncClear (s : State) (l : List SyncItem) : State :=
  let got := l.filterMap SyncItem.addrs
  if got.isEmpty then s
  else (s.regs.filter fun e => mirrored e.1 && !(got.any fun g => g.contains e.1)).foldl (fun s e => (putWord s e.1 (resetWord s.strap e.1).toNat true).1) s

/-- The sync fence falls on the lowest enabled ring (R295). -/
def syncAt (s : State) (n f : Nat) : State :=
  match s.pair.syncFence with
  | none => s
  | some t =>
    if frameLt f t || (enabledRings s).head? != some n then s
    else
      let target := s.pair.syncSource == some 2
      let s0 := if target then s.pair.syncItems.foldl syncItem (syncClear s s.pair.syncItems) else s
      let s1 := judgeTaken <| if target then s.pair.syncWrites.foldl (fun s e => (busWrite s .mirror e.1 e.2).1) s0 else s0
      let s2 := s1.modPair fun p => { p with syncItems := [], syncWrites := [], syncFence := none, syncSource := none, everSynced := true }
      let s3 := if target then (enabledRings s2).foldl (fun s r => s.wr (F.RED_RSTAT_SILENT r) 0) (s2.wr F.RED_STAT_SYNCED 1) else s2
      redRefresh (raise s3 437 (d2 (1 + b2n target) 0 ++ bytesLE 4 ((s3.now - s.pair.syncStart) / (1000 * 1000 * 1000))))

/-! A generator's fence. -/

/-- A member that does not align moves its fences toward its own PTP-derived ones by at most HANDOVER_SLEW a frame (R112). [log 40 DEDUCED] -/
def slewFence (s : State) : State :=
  if aligns s then s
  else
    let k : Int := ((zeroAs1 (s.rd F.WT_PAIR_HANDOVER_SLEW) * 1000 : Nat) : Int)
    let w := s.wt.slew
    { s with wt := { s.wt with slew := if k < w then w - k else if w < -k then w + k else 0 } }

/-- The standalone device's flip at the fence of `f` (R321). -/
def flipAlone (s : State) (f : Nat) : Option Flip := s.cmp.flips.find? fun q => q.rings.any fun e => frameLe e.2 f

/-- The fence of a standalone device's generator 0, after its commits. -/
def aloneFence (s : State) (f : Nat) : State :=
  let q := flipAlone s f
  let s1 := pictureFence (activateEnd (swapStep (adaptTiming s) false f)) f q.isSome
  match q with
  | none => s1
  | some q =>
    let s2 := s1.modCmp fun c => { c with flips := c.flips.filter fun x => x.job != q.job }
    match q.job.bind s2.job with
    | none => s2
    | some j => finishWith s2 j { j.record 0 with frame := f, late := q.late, result := bytesLE 1 (fbFill s2) }

/-- The fence of frame `f` on ring `n` for what is tied to the ring: commits, transactions, the lease, the sync fence, the window. -/
def ringFence (s : State) (n f : Nat) (main : Bool) : State :=
  let s1 := commitFence (windowClose s n) (some n) main
  let s2 := xidFence s1 n f
  let s3 := if s.isCoach then subFence s2 n f else s2
  let s4 := claimRelease (leaseFence s3 n f)
  digestFence (windowOpen (syncAt s4 n f) n f) n f

/-- What a sender's or a standalone device's fence does for every other block. -/
def mainFence (s : State) : State := clockFence (judgeTaken (actFence putPreload s))

/-- The fence of generator `n`; one that a reserved rate stopped at it ends its transactions (R95, R119). -/
def fenceGen (s : State) (n : Nat) : State :=
  let main := refGen s == some n && !(follows s)
  match genFence s n with
  | (s1, none) => s1
  | (s1, some f) =>
    let s2 := count s1 32 1
    if s.isStandalone then
      if n = 0 then aloneFence (mainFence (commitFence s2 (some 0) true)) f else s2
    else
      let s3 := ringFence s2 n f main
      let s4 := if main then slewFence (mainFence s3) else s3
      if (s4.gen n).started then s4 else xidStop s4 n

/-- FENCE: the fence of the follower, or of a generator, with the command-ring heads that waited for it. -/
def fenceRow (s : State) (src : Option (Fin 8)) : State :=
  retryHeads (match src with
    | none => fenceFollower s
    | some n => fenceGen s n.val)

end Sys2Proof.Machine
end

