-- ==== Sys2Proof/Machine/LineOps.lean ====
section
/-! DEFINITION. Machine/LineOps.lean: blocks on the line (chapter *Coachline: lanes, blocks and bring-up*): the block types, their
66 bits, the scrambler and its inverse, TRAIN groups as blocks, the dealing of a stream over two lanes, and what each thing sent
is in blocks. -/
namespace Sys2Proof.Machine

/-- A block before scrambling: its sync header and 64 payload bits (R38). -/
structure Block where
  header : BitVec 2
  payload : BitVec 64
deriving DecidableEq, Repr

/-- What a block is (R38, R39): data, or one of the eight control types with what its payload says. -/
inductive BlockKind where
  | data (b : List Byte)
  | idle (opened : Bool)
  | bugle (b : List Byte)
  | whistle (b : List Byte)
  | sop (b : List Byte)
  | eop (b : List Byte)
  | align (lane pairs : Nat)
  | train (k : Nat) (b : List Byte)
  | fault (reason pos : Nat)
deriving DecidableEq, Repr

/-- The eight payload bytes of a block, byte 0 first; of the seven bytes after a type, those given (R39, R48). -/
def BlockKind.bytes : BlockKind → List Byte
  | .data b => slice b 0 8
  | .idle o => 0x3C#8 :: (bytesBE 1 (b2n o) ++ bytesBE 6 0)
  | .bugle b => 0xA5#8 :: slice b 0 7
  | .whistle b => 0x5A#8 :: slice b 0 7
  | .sop b => 0x66#8 :: slice b 0 7
  | .eop b => 0x99#8 :: slice b 0 7
  | .align l n => 0xC3#8 :: (bytesBE 1 l ++ bytesBE 4 n ++ bytesBE 2 0)
  | .train k b => 0x0F#8 :: (bytesBE 1 (k * 64) ++ slice b 0 6)
  | .fault r p => 0xF0#8 :: (bytesBE 1 r ++ bytesBE 1 (p % 64) ++ bytesBE 5 0)

/-- The block of a kind: header 01b for data, 10b for control; payload byte k in bits [8k+7:8k] (R38). -/
def BlockKind.block (x : BlockKind) : Block :=
  { header := match x with | .data _ => 1#2 | _ => 2#2, payload := BitVec.ofNat 64 (leNat x.bytes) }

/-- What a block is to a receiver (R38 to R40): an invalid header, and a type that is not exactly one of the eight, are none.
Reserved payload bits are ignored. -/
def Block.kind (x : Block) : Option BlockKind :=
  let b := bytesLE 8 x.payload.toNat
  let r := b.drop 1
  if x.header = 1#2 then some (.data b)
  else if x.header = 2#2 then
    match beAt b 0 1 with
    | 0x3C => some (.idle ((beAt b 1 1).testBit 0))
    | 0xA5 => some (.bugle r)
    | 0x5A => some (.whistle r)
    | 0x66 => some (.sop r)
    | 0x99 => some (.eop r)
    | 0xC3 => some (.align (beAt b 1 1) (beAt b 2 4))
    | 0x0F => some (.train (bits (beAt b 1 1) 6 2) (r.drop 1))
    | 0xF0 => some (.fault (beAt b 1 1) (beAt b 2 1 % 64))
    | _ => none
  else none

/-! The scrambler x^58 + x^39 + 1 (R42). Bit i of its state is the line bit sent i + 1 bits ago. -/

/-- The feedback of a state: the line bits 39 and 58 bits ago. -/
def scramTap (s : BitVec 58) : Bool := s.getLsbD 38 ^^ s.getLsbD 57

/-- The state after one more line bit. -/
def scramShift (s : BitVec 58) (b : Bool) : BitVec 58 := (s <<< 1) ||| (BitVec.ofBool b).setWidth 58

/-- Scrambles bits in transmission order. -/
def scramble (s : BitVec 58) : List Bool → List Bool × BitVec 58
  | [] => ([], s)
  | b :: r =>
    let o := b ^^ scramTap s
    let x := scramble (scramShift s o) r
    (o :: x.1, x.2)

/-- Descrambles line bits: the state is the 58 line bits before them, whatever a receiver started from. -/
def descramble (s : BitVec 58) : List Bool → List Bool × BitVec 58
  | [] => ([], s)
  | o :: r =>
    let x := descramble (scramShift s o) r
    ((o ^^ scramTap s) :: x.1, x.2)

/-- The bits of a word in transmission order: bit 0 first (R38). -/
def wordBits {w : Nat} (v : BitVec w) : List Bool := (List.range w).map v.getLsbD

/-- The word of bits in transmission order. -/
def bitsWord (w : Nat) (l : List Bool) : BitVec w := BitVec.ofNat w (ofBits l.reverse)

/-- A block as a receiver takes it from its lane: `prev` the 58 payload bits before it on the line, the polarity turned round where RX_INV
asks for it, the payload descrambled (R42). [log 130 DESIGN CHOICE] -/
def rxBlock (s : State) (lane : Nat) (header : BitVec 2) (line : BitVec 64) (prev : BitVec 58) : Block :=
  let inv := s.on (F.LANE_CTL_RX_INV lane)
  let h := if inv then ~~~header else header
  let l := if inv then ~~~line else line
  let p := if inv then ~~~prev else prev
  { header := h, payload := bitsWord 64 (descramble p (wordBits l)).1 }

/-- The TRAIN group that four blocks carry: indexes 0 to 3 in order, 24 bytes (R48). -/
def trainOf (bs : List (BitVec 64)) : Option (List Byte) :=
  match bs.map fun p => (Block.mk 2#2 p).kind with
  | [some (.train 0 a), some (.train 1 b), some (.train 2 c), some (.train 3 d)] => some (a ++ b ++ c ++ d)
  | _ => none

/-- The four blocks of a TRAIN group (R48). -/
def trainBlocks (g : List Byte) : List BlockKind := (List.range 4).map fun k => .train k (slice g (6 * k) 6)

/-! Transmission. -/

/-- The blocks of a packet copy: SOP, data, EOP; a copy whose framing was cut has no EOP (R64, R79). -/
def copyBlocks (c : Copy) : List BlockKind :=
  [.sop (c.ctl :: (bytesBE 4 c.route.toNat ++ bytesBE 2 c.seq.toNat))] ++
  (List.range (ceilDiv c.data.length 8)).map (fun i => .data (slice c.data (8 * i) 8)) ++
  (if c.framed then [.eop (bytesBE 1 (c.pad.toNat % 8) ++ bytesBE 4 c.crc.toNat ++ bytesBE 2 0)] else [])

/-- A MIRROR packet (R273): its header block, and each field of its body in a block of its own, since R274 gives bodies no byte
layout. [log 130 DESIGN CHOICE] -/
def mirrorCopy (kind ch mseq ack arg : Nat) (body : List Nat) : Copy :=
  mkCopy 9 false 0 0 0 (bytesBE 1 kind ++ bytesBE 1 ch ++ bytesBE 2 mseq ++ bytesBE 2 ack ++ bytesBE 2 arg ++ body.flatMap (bytesBE 8))

/-- What is sent, in blocks of its port's stream; none for what does not leave by a Coachline port. -/
def outBlocks (mirrorPort : Nat) : Output → Option (Nat × List BlockKind)
  | .packet p c => some (p, copyBlocks c)
  | .train p g => some (p, trainBlocks g)
  | .align p n => some (p, [.align 0 n, .align 1 n])
  | .faultBlock p r pos => some (p, [.fault r pos])
  | .idleTrain p o => some (p, List.replicate 8 (.idle o))
  | .bugle p b => some (p, (List.range 4).map fun i => .bugle (slice b (8 * i + 1) 7))
  | .whistle p b => some (p, [.whistle (slice b 1 7)])
  | .mirror k c m a g b => some (mirrorPort, copyBlocks (mirrorCopy k c m a g b))
  | _ => none

/-- Sends one block on a lane: scrambled by that lane's transmitter, its polarity turned where TX_INV asks for it (R42). [log 130 DESIGN CHOICE] -/
def sendBlock (s : State) (lane : Nat) (x : BlockKind) : State :=
  let b := x.block
  let y := scramble (s.line.scram.get scramSeed lane) (wordBits b.payload)
  let w := bitsWord 64 y.1
  let inv := s.on (F.LANE_CTL_TX_INV lane)
  let l : LineBlock := ⟨lane, if inv then ~~~b.header else b.header, if inv then ~~~w else w⟩
  { s with line := { s.line with scram := s.line.scram.set scramSeed lane y.2, sent := s.line.sent ++ [l] } }

/-- Sends the next block of a port's stream: on a bonded port even indexes go on the lower-numbered lane (R36). -/
def streamBlock (s : State) (p : Nat) (x : BlockKind) : State :=
  let i := s.line.index.get 0 p
  let s1 := sendBlock s ((portLanes s p).getD (if s.on (F.CL_PCFG_WIDTH2 p) then i else 0) 0) x
  if s.on (F.CL_PCFG_WIDTH2 p) then { s1 with line := { s1.line with index := s1.line.index.set 0 p (1 - i) } } else s1

/-- An IDLE block brings a bonded stream to an even index. -/
def evenIndex (s : State) (p : Nat) : State := if s.line.index.get 0 p = 1 then streamBlock s p (.idle false) else s

/-- Sends blocks of a port's stream: an ALIGN pair at indexes 2k and 2k + 1, TRAIN blocks on the lower-numbered lane with IDLE on the other
(R36, R48). -/
def streamBlocks (s : State) (p : Nat) (l : List BlockKind) : State :=
  let wide := s.on (F.CL_PCFG_WIDTH2 p)
  match l with
  | .align _ _ :: _ => l.foldl (fun s x => streamBlock s p x) (evenIndex s p)
  | .train _ _ :: _ => l.foldl (fun s x => if wide then streamBlock (streamBlock s p x) p (.idle false) else streamBlock s p x) (evenIndex s p)
  | _ => l.foldl (fun s x => streamBlock s p x) s

/-- What a command sent goes out block by block; the IDLE blocks between commands are not shown. [log 130 DESIGN CHOICE] -/
def transmit (n : Nat) (s : State) : State :=
  (s.out.drop n).foldl (fun s o => match outBlocks (s.rd F.RED_CFG_MPORT) o with
    | some x => streamBlocks s x.1 x.2
    | none => s) s

/-! The transmit clock (R34, R52, R60). -/

/-- What clocks a transmitter. -/
inductive TxClock where
  /-- The port is OFF and sends nothing. -/
  | stopped
  | lanePll
  | recovered (port : Nat)
deriving DecidableEq, Repr

/-- The transmit clock of a port: a ring port's is the recovered clock of the opposite port while that is in CDR or a later state, SETTLE
among them (R52, R60); every other port's is the lane PLL (R34). [log 131 DEDUCED] -/
def txClock (s : State) (p : Nat) : TxClock :=
  if s.pst p = 0 then .stopped
  else if (ringPorts s).contains p then
    match otherPort s p with
    | some q => if 2 ≤ s.pst q then .recovered q else .lanePll
    | none => .lanePll
  else .lanePll

/-- The transmitters whose clock a command changed, in the order of their ports: the multiplexer of R53 moves each. [log 131 DEDUCED] -/
def clockMoves (s t : State) : List Output :=
  ((List.range 12).filter fun p => txClock s p != txClock t p).map fun p =>
    .txClock p (match txClock t p with | .stopped => 0 | .lanePll => 1 | .recovered q => 2 + q)

end Sys2Proof.Machine
end

