-- ==== Sys2Proof/Machine/Command.lean ====
section
/-! DEFINITION. Machine/Command.lean: how a command's effect becomes its outcome, and a register access as a command brings it. -/
namespace Sys2Proof.Machine

/-- Layers whose window waits for the partner's choice make their own once the link is down (R168). [log 68 DESIGN CHOICE, 81 DEDUCED] -/
def chooseAlone (s : State) : State :=
  forIdx 8 s fun s r => forIdx 16 s fun s l =>
    let x := s.layer r l
    if !x.waits then s
    else
      let s1 := s.setLayer r l { x with waits := false }
      match layerFlow s1 r l with
      | some f => if (s1.win r).isOpen then chooseLayer s1 r l f (s1.win r).frame else s1
      | none => s1

/-- What follows once the mirror port has left or reached UP: the rules of the pair (R273, R289, R292, R295); a link that went down
ends repairs (R153), descriptors that wait for ACKK (R279) and the pair comparison (R268). [log 68 DESIGN CHOICE] -/
def linkCheck (s : State) : State :=
  let fell := pairEn s && s.pair.wasUp && !(mirrorUp s)
  let s1 := pairCheck s
  if fell then digestSkip (chooseAlone (pairFinishAll (cmpMirrorDown s1))) else s1

/-- A command that may take a port into or out of UP. -/
def linked (f : State → State) (s : State) : State := linkCheck (f s)

/-- The trains that a FAULT block of reason 02h opened carry the next packets (R82). -/
def owedTrains (t : State) : State :=
  forIdx 12 t fun t p => if (t.port p).trainOwed then useTrain (t.modPort p fun x => { x with trainOwed := false }) p false else t

/-- The end of a command's core clock, begun in state `s`: trains of the filler, packets that owe no copy they can still send leave the outbound
queue (R80), the trace records are written (R411), transmitters change their clocks (R53), and what was sent goes out in blocks (R38, R42). [log 118 DESIGN CHOICE, 119 DESIGN CHOICE] -/
def settle (s t : State) : State :=
  let u := flushTrace (outqSweep (owedTrains t))
  let v := transmit s.out.length { u with out := u.out ++ clockMoves s u }
  { t with obs := v.obs, evc := v.evc, out := v.out, ring := v.ring, lastAt := v.lastAt, ports := v.ports, line := v.line }

/-- The flash with the golden image as it was (R388). [log 120 DESIGN CHOICE] -/
def keepGolden (old new : Table Byte) : Table Byte :=
  (old.filter fun e => decide (e.1 < goldenEnd)) ++ new.filter fun e => decide (goldenEnd ≤ e.1)

/-- An ordinary command: its effect on everything but the straps, the flash, the test port and the queue. R1 (the role stays fixed)
and R388 rest on what it keeps. [log 4 DESIGN CHOICE, 120 DESIGN CHOICE] -/
def ordinary (f : State → State) (s : State) : Host.Outcome State Fault Refusal :=
  let t := settle s (placed s (f s))
  .next { t with strap := s.strap, pending := s.pending, tap := s.tap, upd := { t.upd with flash := s.upd.flash } }

/-- A command that may write the flash, the golden image apart (R388). [log 120 DESIGN CHOICE] -/
def flashing (f : State → State) (s : State) : Host.Outcome State Fault Refusal :=
  let t := settle s (f s)
  .next { t with strap := s.strap, pending := s.pending, tap := s.tap, upd := { t.upd with flash := keepGolden s.upd.flash t.upd.flash } }

/-- The test port as PORST_N rises: an instruction that acts only while it is low acts as BYPASS from then on (R415). [log 116 PRESUMED] -/
def tapReleased (t : Tap) : Tap :=
  match t.ir with
  | .extest | .clamp | .highz => { t with ir := .bypass, dr := 0 }
  | _ => t

/-- A command of the PORST_N ball or its supply monitor: the straps may change. [log 120 DESIGN CHOICE] -/
def powering (f : State → State) (s : State) : Host.Outcome State Fault Refusal :=
  let t := settle s (f s)
  .next { t with pending := s.pending, tap := if t.sys.low = 1 then s.tap else tapReleased s.tap, upd := { t.upd with flash := s.upd.flash } }

/-- A command of the test port: it reaches no internal register, array or memory (R415). [log 120 DESIGN CHOICE] -/
def tapping (f : State → Tap) (s : State) : Host.Outcome State Fault Refusal := .next { s with tap := f s }

/-- Whether an access path reaches this device: BAR0 and descriptors where the host interface is on (R26), packets of the ring where
the device has a position on one. -/
def reaches (s : State) (p : Access) : Bool :=
  match p with
  | .packet => follows s
  | _ => blockOn s.strap.role 3

/-- A register write as a command. [log 10 DEDUCED] -/
def regWrite (s : State) (p : Access) (a w : Nat) : State :=
  if reaches s p then linkCheck (retryHeads (busWrite s (accessPath p) a w).1) else s

/-- A write of a register's word as it stands with one field changed. [log 10 DEDUCED] -/
def fieldWrite (s : State) (p : Access) (f : FRef) (v : Nat) : State := regWrite s p f.addr (setBits (s.reg f.addr) f.lo f.w v)

end Sys2Proof.Machine
end

