-- ==== Sys2Proof/Machine/CmdLane.lean ====
section
/-! DEFINITION. Machine/CmdLane.lean: lanes, bring-up, the TRAIN exchange and the by-pass switch (chapter *Coachline: lanes, blocks and
bring-up*). A command that names a moment of a state in which the port is not has no effect. -/
namespace Sys2Proof.Machine

/-- PORT_ENABLE (R43): a write of CL_PCFG with EN = 1. -/
def execPortEnable (path : Access) (p : Fin 12) (w : Word) (s : State) : Host.Outcome State Fault Refusal :=
  ordinary (fun s => regWrite s path (R.CL_PCFG p.val) (setBits w.toNat 0 1 1)) s

/-- Signal detect rises on every powered lane of a port (R43). [log 20 DESIGN CHOICE] -/
def signalDetect (s : State) (p : Nat) : State :=
  if s.pst p != 0 && lanesHave s p F.LANE_CTL_EN then
    let s1 := lanesWr s p F.LANE_STAT_SIGDET 1
    if s.pst p = 1 then s1.setPst p 2 else s1
  else s

/-- SIGNAL_DETECT (R43). -/
def execSignalDetect (p : Fin 12) (s : State) : Host.Outcome State Fault Refusal := ordinary (linked fun s => signalDetect s p.val) s

/-- CDR lock on every lane: the port moves to BLOCK, and the lane PLL may relock (R43, R54). [log 20 DESIGN CHOICE, 136 DEDUCED] -/
def cdrLock (s : State) (p : Nat) : State :=
  if s.pst p != 0 && lanesHave s p F.LANE_STAT_SIGDET then
    let s1 := lanesWr s p F.LANE_STAT_CDR_LOCK 1
    clkUpdate (if s.pst p = 2 then (let s2 := s1.setPst p 3; if hasBlock s2 p then blockSettled s2 p else s2) else s1)
  else s

/-- CDR_LOCK (R43). -/
def execCdrLock (p : Fin 12) (s : State) : Host.Outcome State Fault Refusal := ordinary (linked fun s => cdrLock s p.val) s

/-- Block lock on every lane, with the deskew of a bonded port where it is held (R43, R46). [log 20 DESIGN CHOICE] -/
def blockLock (s : State) (p : Nat) (deskew : Bool) : State :=
  if s.pst p != 0 && lanesHave s p F.LANE_STAT_CDR_LOCK then
    let s1 := lanesWr s p F.LANE_STAT_BLOCK_LOCK 1
    blockSettled (if deskew && s.on (F.CL_PCFG_WIDTH2 p) then lanesWr s1 p F.LANE_STAT_DESKEW_OK 1 else s1) p
  else s

/-- BLOCK_LOCK (R46, R59). -/
def execBlockLock (p : Fin 12) (deskew : Bool) (s : State) : Host.Outcome State Fault Refusal :=
  ordinary (linked fun s => blockLock s p.val deskew) s

/-- The 100 µs limit of CDR or BLOCK passes; a ring port with block lock waits in BLOCK while the switch is closed (R43, R59). -/
def stepTimeout (s : State) (p : Nat) : State :=
  if s.pst p = 2 then leaveTo s p 1
  else if s.pst p = 3 && !(blockReady s p) then leaveTo s p 2
  else s

/-- BRINGUP_STEP_TIMEOUT (R43). [log 3 DESIGN CHOICE] -/
def execBringupStepTimeout (p : Fin 12) (s : State) : Host.Outcome State Fault Refusal := ordinary (linked fun s => stepTimeout s p.val) s

/-- STABLE_TIME passed: the port enters TRAIN, its lanes are stable with LANE_UP (R43, R63). -/
def stableTime (s : State) (p : Nat) : State :=
  if s.pst p = 4 then
    let s1 := (lanesWr (s.setPst p 5) p F.LANE_STAT_STABLE 1).modPort p fun x => { x with samples := [], goodGroup := false }
    (portLanes s p).foldl (fun s n => raise s (laneSrc n 4) []) s1
  else s

/-- STABLE_TIME_EXPIRE (R43). [log 3 DESIGN CHOICE] -/
def execStableTimeExpire (p : Fin 12) (s : State) : Host.Outcome State Fault Refusal := ordinary (linked fun s => stableTime s p.val) s

/-- TRAIN_TIMEOUT passed: SEARCH, with the samples gathered reported (R43). -/
def trainTimeout (s : State) (p : Nat) : State :=
  if s.pst p = 5 then raise (leaveTo s p 1) 179 (d2 p (s.port p).samples.length) else s

/-- TRAIN_TIMEOUT (R43). [log 4 DESIGN CHOICE] -/
def execTrainTimeout (p : Fin 12) (s : State) : Host.Outcome State Fault Refusal := ordinary (linked fun s => trainTimeout s p.val) s

/-- A port in TRAIN sends a group, which may be the moment it enters UP (R48). -/
def trainSend (s : State) (p stamp turn : Nat) : State :=
  if s.pst p = 5 then tryUp { s with out := s.out ++ [.train p (trainGroup s p stamp turn)] } p else s

/-- TRAIN_GROUP_SEND (R48). -/
def execTrainGroupSend (p : Fin 12) (stamp turnaround : Word) (s : State) : Host.Outcome State Fault Refusal :=
  ordinary (linked fun s => trainSend s p.val stamp.toNat turnaround.toNat) s

/-- A group with a bad CRC or index is discarded and counted (R48); LANE_TRAIN_FAIL where the CRC fails (R63). [log 21 DEDUCED] -/
def trainDrop (s : State) (p : Nat) (crcBad : Bool) : State :=
  let s1 := s.bump (F.CL_PFAULT_INVALID p) 1
  if crcBad then raise s1 (laneSrc (s.rd (F.CL_PCFG_LANE0 p)) 7) [] else s1

/-- The mismatch of a valid group, by its code in CL_PARTNER_BAD: 1 rate, 2 width, 3 own UID (R48); of several the one first in that order. [log 22 DEDUCED, 133 DESIGN CHOICE] -/
def mismatch (s : State) (p : Nat) (g : List Byte) : Option Nat :=
  let flags := beAt g 20 1
  if bits flags 7 1 != portRate s p then some 1
  else if flags.testBit 6 != s.on (F.CL_PCFG_WIDTH2 p) then some 2
  else if beAt g 12 8 = s.strap.uid then some 3
  else none

/-- The direction a valid group reports (R49): kept unless the other ring port is UP with the same one, which raises
CL_DIR_CONFLICT once and keeps this port in TRAIN. [log 22 DEDUCED] -/
def trainDir (s : State) (p d : Nat) : State :=
  match dirRival s p d with
  | some q =>
    if (s.port p).dirRefused then s
    else raise (s.modPort p fun x => { x with dirRefused := true }) 182 (d2 q p)
  | none => (s.wr (F.CL_PSTAT_DIR_RX p) d).modPort p fun x => { x with dirRefused := false }

/-- One more round-trip sample; 32 that spread by more than 4 UI are discarded (R50). -/
def trainSample (s : State) (p : Nat) (r : Option Nat) : State :=
  match r with
  | none => s
  | some v => s.modPort p fun x =>
    if 32 ≤ x.samples.length then x
    else
      let l := x.samples ++ [v]
      { x with samples := if l.length = 32 && !(spreadOk l) then [] else l }

/-- A valid TRAIN group (R48 to R51). [log 22 DEDUCED] -/
def trainGood (s : State) (p : Nat) (g : List Byte) (t4 : Nat) : State :=
  let s0 := if s.isUp p then leaveTo s p 5 else s
  let flags := beAt g 20 1
  let first := (s0.port p).lastStamp.isNone
  let s1 := (s0.wr64 (F.CL_PUID_LO_PUID p) (F.CL_PUID_HI_PUID p) (beAt g 12 8)).wr (F.CL_PSTAT_PARTNER_ROLE p) (bits flags 2 2)
  let s2 := s1.modPort p fun x => { x with lastStamp := some (beAt g 0 4) }
  match mismatch s2 p g with
  | some m =>
    let s3 := neighbourPos (s2.wr (F.CL_PSTAT_PARTNER_BAD p) 1) p (beAt g 21 1 % 64)
    if first || !(s.on (F.CL_PSTAT_PARTNER_BAD p)) then raise s3 178 (d2 p m) else s3
  | none =>
    let s3 := trainDir (s2.wr (F.CL_PSTAT_PARTNER_BAD p) 0) p (flags % 4)
    let s4 := positionRules (neighbourPos s3 p (beAt g 21 1 % 64))
    let s5 := s4.modPort p fun x => { x with goodGroup := x.goodGroup || (flags.testBit 4 && flags.testBit 5) }
    let s6 := if flags.testBit 5 then trainSample s5 p (rttSample (beAt g 4 4) t4 (beAt g 8 4)) else s5
    tryUp (clkUpdate s6) p

/-- A TRAIN group arrives on a port in TRAIN or UP (R48, R51). [log 21 DEDUCED] -/
def trainRx (s : State) (p : Nat) (blocks : List (BitVec 64)) (t4 : Nat) : State :=
  if s.pst p = 5 || s.pst p = 6 then
    match trainOf blocks with
    | some g => if beAt g 22 2 = crc16 (g.take 22) then trainGood s p g t4 else trainDrop s p true
    | none => trainDrop s p false
  else s

/-- TRAIN_GROUP_RX (R48 to R51). -/
def execTrainGroupRx (p : Fin 12) (blocks : List (BitVec 64)) (t4 : Word) (s : State) : Host.Outcome State Fault Refusal :=
  ordinary (linked fun s => trainRx s p.val blocks t4.toNat) s

/-- LOSS_OF_SIGNAL (R46). -/
def execLossOfSignal (lane : Fin 16) (cut : Bool) (s : State) : Host.Outcome State Fault Refusal :=
  ordinary (linked fun s => laneLoss s lane.val 1 (some cut)) s

/-- LOSS_OF_LOCK (R46). -/
def execLossOfLock (lane : Fin 16) (cut : Bool) (s : State) : Host.Outcome State Fault Refusal :=
  ordinary (linked fun s => laneLoss s lane.val 2 (some cut)) s

/-- BLOCK_LOCK_LOST (R44, R46). -/
def execBlockLockLost (lane : Fin 16) (cut : Bool) (s : State) : Host.Outcome State Fault Refusal :=
  ordinary (linked fun s => laneLoss s lane.val 3 (some cut)) s

/-- The 1 ms window of a lane ends with `bad` invalid headers (R47): the count, and HIBER against BER_THR. -/
def hiberWindow (s : State) (n bad : Nat) : State :=
  let ovr := decide (s.rd1 (F.LANE_QUAL_BER_THR n) < bad)
  let s1 := count (s.bump (F.LANE_SHERR_SH_ERR n) bad) n bad
  let s2 := s1.wr (F.LANE_STAT_HIBER n) (b2n ovr)
  let s3 := if ovr && !(s.on (F.LANE_STAT_HIBER n)) then raise s2 (laneSrc n 3) [] else s2
  if !(s.on (F.LANE_QUAL_HIBER_DOWN n)) then s3
  else if ovr then (if s.on (F.LANE_STAT_HIBER n) then s3 else hiberDown s3 n)
  else match laneOwner s n with
    | some p => if hasBlock s3 p then blockSettled s3 p else s3
    | none => s3

/-- HIBER_WINDOW_END (R47). -/
def execHiberWindowEnd (lane : Fin 16) (invalid : Word) (s : State) : Host.Outcome State Fault Refusal :=
  ordinary (linked fun s => if (match laneOwner s lane.val with | some p => s.pst p != 0 | none => netLane s lane.val)
    then hiberWindow s lane.val invalid.toNat else s) s

/-- A bonded port that originates its stream inserts an ALIGN pair (R36): a ring end or mirror port, or a ring port that forwards nothing. -/
def alignSend (s : State) (p : Nat) : State :=
  let forwarding := match otherPort s p with | some q => (ringPorts s).contains p && forwardsTo s q == some p | none => false
  if s.pst p != 0 && s.on (F.CL_PCFG_WIDTH2 p) && !forwarding then
    let n := (s.port p).alignCount
    { (s.modPort p fun x => { x with alignCount := (n + 1) % 2 ^ 32 }) with out := s.out ++ [.align p n] }
  else s

/-- ALIGN_PAIR_SEND (R36). -/
def execAlignPairSend (p : Fin 12) (s : State) : Host.Outcome State Fault Refusal := ordinary (fun s => alignSend s p.val) s

/-- An ALIGN block or pair reaches a bonded port (R36, R37): a pair within reach gives the deskew and is forwarded; otherwise LANE_ALIGN_ERR,
and the port falls back as if block lock had been lost. [log 23 DEDUCED] -/
def alignRx (s : State) (p : Nat) (ok : Bool) (pairs : Nat) : State :=
  if judged s p && s.on (F.CL_PCFG_WIDTH2 p) && lanesHave s p F.LANE_STAT_BLOCK_LOCK then
    if ok then
      let s1 := lanesWr s p F.LANE_STAT_DESKEW_OK 1
      let s2 := match forwardsTo s p with | some q => { s1 with out := s1.out ++ [.align q pairs] } | none => s1
      if hasBlock s2 p then blockSettled s2 p else s2
    else
      let s1 := lanesWr (lanesWr s p F.LANE_STAT_DESKEW_OK 0) p F.LANE_STAT_BLOCK_LOCK 0
      fallBack (raise s1 (laneSrc (s.rd (F.CL_PCFG_LANE0 p)) 6) []) p 3
  else s

/-- ALIGN_PAIR_RX (R36, R37). -/
def execAlignPairRx (p : Fin 12) (paired inReach : Bool) (pairs : Word) (s : State) : Host.Outcome State Fault Refusal :=
  ordinary (linked fun s => alignRx s p.val (paired && inReach) pairs.toNat) s

/-- A block that a receiver finds invalid (R40): counted in every state but OFF and SETTLE, LANE_TYPE_ERR where only its type is wrong, and a
FAULT block of reason 01h in the forwarded stream. [log 137 DESIGN CHOICE] -/
def invalidBlock (s : State) (p lane : Nat) (badType : Bool) : State :=
  if judged s p then
    let s1 := s.bump (F.CL_PFAULT_INVALID p) 1
    let s2 := if badType then raise s1 (laneSrc lane 5) [] else s1
    match forwardsTo s p with
    | some q => { s2 with out := s2.out ++ [.faultBlock q 1 (ownPos s)] }
    | none => s2
  else s

/-- A block arrives on a lane of a port as its line bits, after the 58 payload bits `prev`: descrambled and decoded, it is invalid or it is
not (R38 to R40, R42). [log 130 DESIGN CHOICE] -/
def rawBlock (s : State) (p : Nat) (second : Bool) (header : BitVec 2) (line : BitVec 64) (prev : BitVec 58) : State :=
  let lane := (portLanes s p).getD (b2n second) (s.rd (F.CL_PCFG_LANE0 p))
  let b := rxBlock s lane header line prev
  if b.kind.isSome then s else invalidBlock s p lane (b.header == 2#2)

/-- INVALID_BLOCK_RX (R40). -/
def execInvalidBlockRx (p : Fin 12) (second : Bool) (header : BitVec 2) (line : BitVec 64) (prev : BitVec 58) (s : State) :
    Host.Outcome State Fault Refusal :=
  ordinary (fun s => rawBlock s p.val second header line prev) s

/-- A FAULT block (R40, R41): counted and reported, forwarded unchanged; reason 02h on a ring port begins a lost feed (CL_SINGLE_FEED). [log 24 DEDUCED] -/
def faultRx (s : State) (p reason pos : Nat) : State :=
  if s.isUp p then
    let code := if 1 ≤ reason && reason ≤ 3 then reason else 1
    let s1 := raise (s.bump (F.CL_PFAULT_FAULT_RX p) 1) 183 (d2 p code)
    let s2 := match forwardsTo s p with
      | some q => { s1 with out := s1.out ++ [.faultBlock q reason pos] }
      | none => s1
    if reason = 2 && (ringPorts s).contains p && !((s.port p).feedLost) then
      raise (s2.modPort p fun x => { x with feedLost := true }) 194 (d2 (s.rd (F.CL_PSTAT_DIR_RX p)) 0)
    else s2
  else s

/-- FAULT_BLOCK_RX (R40, R77). -/
def execFaultBlockRx (p : Fin 12) (reason : Byte) (pos : BitVec 6) (s : State) : Host.Outcome State Fault Refusal :=
  ordinary (fun s => faultRx s p.val reason.toNat pos.toNat) s

/-- The filler of a transmitter without upstream: a FAULT block of reason 02h, then a train (R56, R82). -/
def fillerSend (s : State) (p : Nat) : State :=
  if (s.port p).filler && (s.isUp p || s.pst p == 7) then
    let s1 := { s with out := s.out ++ [.faultBlock p 2 (ownPos s)] }
    match otherPort s p with
    | some q => useTrain s1 q false
    | none => s1
  else s

/-- FAULT_FILLER_SEND (R56, R82). [log 26 DEDUCED] -/
def execFaultFillerSend (p : Fin 12) (s : State) : Host.Outcome State Fault Refusal := ordinary (fun s => fillerSend s p.val) s

/-- BYP_LONE passed: the switch opens with one side silent (R59). -/
def bypLone (s : State) : State :=
  match ringPorts s with
  | [p, q] =>
    let silent (n : Nat) : Bool := (portLanes s n).all fun l => !(s.on (F.LANE_STAT_SIGDET l))
    if !(s.on F.CL_BYP_BYP_STATE) && !(closedCause s) && s.on F.CL_TIMERS_BYP_LONE &&
        ((hasBlock s p && silent q) || (hasBlock s q && silent p))
    then bypassRise s 1 else s
  | _ => s

/-- BYP_LONE_EXPIRE (R59). -/
def execBypLoneExpire (s : State) : Host.Outcome State Fault Refusal := ordinary (linked bypLone) s

/-- BYP_SETTLE passed: the ring ports run bring-up from SEARCH (R60). [log 136 DEDUCED] -/
def bypSettle (s : State) : State := (ringPorts s).foldl (fun s p => if s.pst p = 7 then s.setPst p 1 else s) s

/-- BYP_SETTLE_EXPIRE (R60). -/
def execBypSettleExpire (s : State) : Host.Outcome State Fault Refusal := ordinary (linked bypSettle) s

/-- FORCE_CLOSE_WRITE (R62): a write of CL_BYP. -/
def execForceCloseWrite (path : Access) (w : Word) (s : State) : Host.Outcome State Fault Refusal :=
  ordinary (fun s => regWrite s path R.CL_BYP w.toNat) s

/-- BYPASS_OPEN falls for a cause of R61 that holds (R62). -/
def openFall (s : State) (cut : Bool) : State :=
  if closedCause s then
    let s1 := (ringPorts s).foldl (fun t p => t.modPort p fun x => { x with inPacket := cut && s.isUp p }) s
    bypassFall s1 (if s.on F.CL_BYP_FORCE_CLOSE then 3 else 2)
  else s

/-- BYPASS_OPEN_FALL (R62). -/
def execBypassOpenFall (cut : Bool) (s : State) : Host.Outcome State Fault Refusal := ordinary (linked fun s => openFall s cut) s

end Sys2Proof.Machine
end

