-- ==== Sys2Proof/Machine/CmdTraffic.lean ====
section
/-! DEFINITION. Machine/CmdTraffic.lean: packets on the ring (chapter *Coachline: packets, slots and the two-way ring*). A command that
executes a packet takes it from the head of its queue; with another packet there it has no effect. -/
namespace Sys2Proof.Machine

/-- An address of a packet: within the 32 MiB space, on a word. [log 30 DEDUCED] -/
def pktAddr (c : Copy) : Nat := beAt c.data 0 4 % 2 ^ 25 / 4 * 4

/-- Control packets that a device executes (R75): REGWR, REGRD, TABLE, XA prepare and close, UPDATE 01h to 05h. [log 27 DEDUCED] -/
def executable (c : Copy) : Bool :=
  match c.type with
  | 2 | 3 | 6 => true
  | 7 =>
    let l := c.data.length
    (beAt c.data 0 1 == 1 && decide (24 ≤ l)) || (beAt c.data 0 1 == 4 && decide (16 ≤ l))
  | 8 => decide (1 ≤ beAt c.data 0 1) && decide (beAt c.data 0 1 ≤ 5)
  | _ => false

/-- Whether a REGWR or TABLE addresses PIX, CAL, DRV or a lamp-store window (R69, R205). -/
def addressesPicture (c : Copy) : Bool :=
  match c.type with
  | 2 => (List.range (beAt c.data 4 1)).any fun i => pictureAddr (pktAddr c + if (beAt c.data 5 1).testBit 1 then 4 * i else 0)
  | 6 => (List.range (2 * beAt c.data 4 2)).any fun i => pictureAddr (beAt c.data 0 4 % 2 ^ 25 / 8 * 8 + 4 * i)
  | _ => false

/-- Drops a packet by its route (R20). -/
def routeDrop (s : State) (h r : Nat) : State := raise (s.bump F.CL_DROP_ROUTE_ERR 1) 184 (d2 h r)

/-- An accepted downward packet goes where its route says (R19 to R21, R28, R75, R83). A device without a position takes broadcasts
only, and no REGRD. -/
def downAccept (s : State) (c : Copy) : State :=
  match readRoute s c.route.toNat with
  | .elsewhere => s
  | .error h r => routeDrop s h r
  | .here _ =>
    if c.type = 1 then { s with ring := { s.ring with pixels := s.ring.pixels ++ [c] } }
    else if executable c && !(c.type == 3 && !(s.on F.CL_MYPOS_VALID)) then acceptOrdered (if addressesPicture c then pixWake s 4 else s) c
    else s
  | .through r => if c.type = 7 then (if executable c then acceptOrdered s c else s) else relayDown s r c

/-- Counts which stream delivered an accepted copy first, and the packet on its port (CL_MERGE, R414). -/
def mergeCount (s : State) (east : Bool) (p : Nat) : State :=
  count (if east then s.bump F.CL_MERGE_FIRST_E 1 else s.bump F.CL_MERGE_FIRST_W 1) (16 + p) 1

/-- An intact downward copy meets the merge window (R73). -/
def downMerge (s : State) (p dir : Nat) (c : Copy) : State :=
  let v := s.ring.down.offer 16384 c.seq.toNat
  let gone := s.ring.down.marks.filter fun q => !(v.2.marks.contains q) && (match s.ring.last with | some l => seqAfter l q | none => false)
  let s1 := { s with ring := { s.ring with down := v.2, seenOut := s.ring.seenOut ++ gone } }
  match v.1 with
  | .accept => let t := downAccept (mergeCount s1 (dir == 1) p) c; orderRun t.ring.held.length t
  | .duplicate => s1
  | .stale => raise s1 189 (d2 dir c.type)

/-- Where an intact upward packet of the ring end goes: queued to be taken (R84, R126, R132, R313, R402). -/
def upKeeps (c : Copy) : Bool :=
  match c.type with
  | 4 | 5 => true
  | 7 => beAt c.data 0 1 == 2 || beAt c.data 0 1 == 3
  | 8 => beAt c.data 0 1 == 0x81
  | _ => false

/-- An intact upward copy meets the window of its position at ring `r` (R74): `east` the stream it came on; `p` the port, none for a
packet by UPFWD (R281). [log 29 DEDUCED] -/
def upMerge (s : State) (r : Nat) (east : Bool) (p : Option Nat) (c : Copy) : State :=
  let key := r * 64 + posOfRoute s c.route.toNat
  let v := (s.ring.ups.get Window.empty key).offer 256 c.seq.toNat
  let s1 := { s with ring := { s.ring with ups := s.ring.ups.set Window.empty key v.2 } }
  match v.1 with
  | .accept =>
    let s2 := match p with
      | some q => mergeCount s1 east q
      | none => if east then s1.bump F.CL_MERGE_FIRST_E 1 else s1.bump F.CL_MERGE_FIRST_W 1
    let s3 := if pairEn s2 && p.isSome && mirrorUp s2 then mirrorSend s2 true 6 0 (copyBody r c ++ [b2n east]) else s2
    if upKeeps c then { s3 with ring := { s3.ring with upReady := s3.ring.upReady ++ [⟨r, c⟩] } } else s3
  | .duplicate => s1
  | .stale => raise s1 189 (d2 (if east then 1 else 2) c.type)

/-- A returning PIXEL packet at the end of a member that does not hold the ring, while the mirror link is not UP (R293). -/
def silentCheck (s : State) (r : Nat) (c : Copy) : State :=
  if pairEn s && !(mirrorUp s) && !(holds s r) && c.type = 1 && Table.get 0 (s.lease r).pix c.seq.toNat != c.crc.toNat + 1
  then goSilent s r else s

/-- A packet copy arrives on a ring port (R66, R73): forwarding resumes with its SOP (R56), the feed is heard again, whatever packet it is and in
whatever train it came (R77), the copy goes on unchanged, and a downward one is merged.
ECHO stays on its link (R85). [log 143 DESIGN CHOICE] -/
def ringPortRx (s : State) (p : Nat) (c : Copy) : State :=
  let dir := s.rd (F.CL_PSTAT_DIR_RX p)
  let s0 := resume s p
  let s1 := if (s0.port p).feedLost then raise (s0.modPort p fun x => { x with feedLost := false }) 195 (d2 dir 0) else s0
  let s2 := match forwardsTo s1 p with
    | some q => { s1 with out := s1.out ++ [.packet q c] }
    | none => s1
  if !(intact c) then brokenCopy s2 dir c
  else if c.up then s2
  else downMerge s2 p dir c

/-- A packet copy arrives at a ring end (R27, R74, R293). A west end receives the eastbound stream. -/
def ringEndRx (s : State) (p : Nat) (c : Copy) : State :=
  let west := s.on (F.CL_PCFG_END p)
  let r := s.rd (F.CL_PCFG_RING p)
  if !(intact c) then brokenCopy s (if west then 1 else 2) c
  else if c.up then upMerge s r west (some p) c
  else silentCheck s r c

/-- A packet copy arrives on a port that is UP (R51). [log 19 DESIGN CHOICE] -/
def packetRx (s : State) (p : Nat) (c : Copy) : State :=
  if !(s.isUp p) || (c.type == 10 && intact c) then s
  else if (ringPorts s).contains p then ringPortRx s p c
  else if s.portIs p 1 then ringEndRx s p c
  else if intact c then s
  else brokenCopy s (s.rd (F.CL_PSTAT_DIR_RX p)) c

/-- DOWN_PACKET_RX (R73): a copy with UP = 0. [log 5 DESIGN CHOICE] -/
def execDownPacketRx (p : Fin 12) (c : Copy) (s : State) : Host.Outcome State Fault Refusal :=
  ordinary (fun s => if c.up then s else packetRx s p.val c) s

/-- UP_PACKET_RX (R74): a copy with UP = 1. [log 27 DEDUCED] -/
def execUpPacketRx (p : Fin 12) (c : Copy) (s : State) : Host.Outcome State Fault Refusal :=
  ordinary (fun s => if c.up then packetRx s p.val c else s) s

/-- ORDER_WAIT passed for the packet held longest (R75). -/
def orderWait (s : State) : State :=
  match s.ring.held with
  | [] => s
  | c :: _ => giveUp s.ring.held.length c.seq.toNat s

/-- ORDER_WAIT_EXPIRE (R75). -/
def execOrderWaitExpire (s : State) : Host.Outcome State Fault Refusal :=
  ordinary (fun s => let t := orderWait s; orderRun t.ring.held.length t) s

/-- Executes the packet at the head of the ready queue where it is the one asked for. -/
def takeReady (s : State) (ok : Copy → Bool) (f : State → Ready → State) : State :=
  match s.ring.ready with
  | [] => s
  | x :: l => if ok x.pkt then f { s with ring := { s.ring with ready := l } } x else s

/-- The REGRSP of an executed request (R70, R83): a device without a position never answers. -/
def respond (s : State) (addr cnt status tag : Nat) (words : List Nat) : State :=
  if s.on F.CL_MYPOS_VALID then answer s addr cnt status tag words else s

/-- STATUS of R70: a dropped Q change before a gap. -/
def rspStatus (rej gap : Bool) : Nat := if rej then 2 else if gap then 4 else 0

/-- REGWR executes (R70, R83). -/
def regwrRun (s : State) (x : Ready) : State :=
  let c := x.pkt
  let n := beAt c.data 4 1
  let flags := beAt c.data 5 1
  let ok := decide (1 ≤ n) && decide (n ≤ 64)
  let r := if ok then writeWords s .packet (pktAddr c) (if flags.testBit 1 then 4 else 0) (wordsBE n (c.data.drop 8)) else (s, false)
  let s1 := linkCheck (retryHeads r.1)
  if flags.testBit 0 then respond s1 (beAt c.data 0 4) n (if ok then rspStatus r.2 x.gap else 3) c.seq.toNat [] else s1

/-- REGWR (R83). -/
def execRegwr (s : State) : Host.Outcome State Fault Refusal := ordinary (linked fun s => takeReady s (fun c => c.type == 2) regwrRun) s

/-- REGRD executes (R70, R83). -/
def regrdRun (s : State) (x : Ready) : State :=
  let c := x.pkt
  let n := beAt c.data 4 1
  if 1 ≤ n && n ≤ 8 then
    let r := readWords s .packet (pktAddr c) (if (beAt c.data 5 1).testBit 1 then 4 else 0) n
    respond (retryHeads r.1) (beAt c.data 0 4) n (rspStatus false x.gap) c.seq.toNat r.2
  else respond s (beAt c.data 0 4) 0 3 c.seq.toNat []

/-- REGRD (R83). -/
def execRegrd (s : State) : Host.Outcome State Fault Refusal := ordinary (fun s => takeReady s (fun c => c.type == 3) regrdRun) s

/-- Whether a TABLE packet is a ring table (R86): 63 blocks to CL offset 0800h, by broadcast. [log 28 DEDUCED] -/
def isRingTable (s : State) (c : Copy) : Bool :=
  beAt c.data 0 4 == R.CL_FRTAB_PREFIX && beAt c.data 4 2 == 63 &&
  (match readRoute s c.route.toNat with | .here bc => bc | _ => false)

/-- TABLE executes (R70): its body to consecutive addresses. [log 28 DEDUCED] -/
def tableRun (s : State) (x : Ready) : State :=
  let c := x.pkt
  let n := beAt c.data 4 2
  let ok := decide (1 ≤ n) && decide (n ≤ 1023)
  let r := if ok then writeWords s .packet (beAt c.data 0 4 % 2 ^ 25 / 8 * 8) 4 (wordsBE (2 * n) (c.data.drop 8)) else (s, false)
  let s1 := linkCheck (retryHeads r.1)
  if (beAt c.data 6 1).testBit 0 then respond s1 (beAt c.data 0 4) 0 (if ok then rspStatus r.2 x.gap else 3) c.seq.toNat [] else s1

/-- TABLE (R69). -/
def execTable (s : State) : Host.Outcome State Fault Refusal :=
  ordinary (linked fun s => takeReady s (fun c => c.type == 6 && !(isRingTable s c)) tableRun) s

/-- A ring table arrives (R24, R86, R88): its words are held, CL_RTAB_RX is raised, and the position rules are applied. -/
def ringTableRun (s : State) (x : Ready) : State :=
  let c := x.pkt
  let old := s.rd F.CL_FRTAB_PREFIX_PREFIX
  let ws := wordsBE 126 (c.data.drop 8)
  let s1 := forIdx 126 s fun s i => s.setReg (R.CL_FRTAB_PREFIX + 4 * i) (if i = 1 then ws.getD i 0 % 4 else ws.getD i 0)
  let new := s1.rd F.CL_FRTAB_PREFIX_PREFIX
  let s2 := { (s1.wr F.CL_MYPOS_RHB (s1.rd F.CL_FRTAB_FLAGS_RHB)) with ring := { s1.ring with tableHeld := true } }
  let s3 := raise s2 196 (d2 (s2.rd F.CL_FRTAB_FLAGS_LOCK) (b2n (new != old)))
  let s4 := if s3.on F.CL_MYPOS_VALID then s3.wr F.CL_MYROUTE_ROUTE (fullRoute new (ownPos s3)) else s3
  let s5 := positionRules s4
  if (beAt c.data 6 1).testBit 0 then respond s5 (beAt c.data 0 4) 0 (rspStatus false x.gap) c.seq.toNat [] else s5

/-- RING_TABLE_RX (R86). -/
def execRingTableRx (s : State) : Host.Outcome State Fault Refusal :=
  ordinary (fun s => takeReady s (fun c => c.type == 6 && isRingTable s c) ringTableRun) s

/-- The ring table of a ring leaves as a TABLE packet to every device of the ring (R86). [log 28 DEDUCED] -/
def tableSend (s : State) (r : Nat) : State :=
  if drivesRing s r then
    let words := (List.range 126).map fun i => shows s (R.CL_RTAB_PREFIX r + 4 * i)
    let data := bytesBE 4 R.CL_FRTAB_PREFIX ++ bytesBE 2 63 ++ [0, 0] ++ words.flatMap (bytesBE 4)
    let s1 := { s with ring := { s.ring with tableDue := s.ring.tableDue.filter (· != r) } }
    (sendControl s1 r (downPacket 6 (ringRhb s r) (ringRoute s r) data)).1
  else s

/-- RING_TABLE_SEND (R86). -/
def execRingTableSend (ring : Fin 8) (s : State) : Host.Outcome State Fault Refusal := ordinary (fun s => tableSend s ring.val) s

/-- Takes the upward packet at the head of its queue where it is the one asked for. -/
def takeUp (s : State) (ok : Copy → Bool) (f : State → UpPkt → State) : State :=
  match s.ring.upReady with
  | [] => s
  | u :: l => if ok u.pkt then f { s with ring := { s.ring with upReady := l } } u else s

/-- Whether a REGRSP answers a request of this device (R313). [log 29 DEDUCED] -/
def answersUs (s : State) (u : UpPkt) : Bool :=
  s.hif.reqs.any fun q => q.ring == u.ring && q.tag == beAt u.pkt.data 6 2 && routeCovers q.route u.pkt.route.toNat

/-- A REGRSP at a ring end: relayed by a coach (R28), and matched by the member that holds the ring (R281, R313). -/
def regrspRun (s : State) (u : UpPkt) : State :=
  if !(holds s u.ring) then s
  else if s.isCoach then relayUp (if answersUs s u then regrspAccept s u.ring u.pkt else s) u.pkt
  else regrspAccept s u.ring u.pkt

/-- REGRSP_RX (R313). -/
def execRegrspRx (s : State) : Host.Outcome State Fault Refusal := ordinary (fun s => takeUp s (fun c => c.type == 4) regrspRun) s

/-- An EVENT at a ring end: a remote record, and relayed by a coach (R28, R335, R336). -/
def eventRun (s : State) (u : UpPkt) : State :=
  let s1 := eventAccept s u.pkt
  if holds s1 u.ring then relayUp s1 u.pkt else s1

/-- EVENT_PACKET_RX (R335). -/
def execEventPacketRx (s : State) : Host.Outcome State Fault Refusal := ordinary (fun s => takeUp s (fun c => c.type == 5) eventRun) s

/-- A port sends an ECHO (R85): through a train in a ring port, between packets in a ring end or mirror port. [log 33 DESIGN CHOICE] -/
def echoSend (s : State) (p stamp turn : Nat) : State :=
  if s.isUp p && s.on F.CL_ECHO_ECHO_INT then
    let ring := (ringPorts s).contains p
    let data := bytesBE 4 stamp ++ bytesBE 4 ((s.port p).lastStamp.getD 0) ++ bytesBE 4 turn ++
      bytesBE 1 (sentPos s p) ++ [0, 0, 0]
    let c := mkCopy 10 false 0 0 0 data
    if ring then
      let d := dirTx s p
      let r := outqPut s { cls := 4, prio := 0, pkt := c, owedE := d == 1, owedW := d == 2, src := none }
      raises r.1 r.2
    else { s with out := s.out ++ [.packet p c] }
  else s

/-- ECHO_SEND (R85). -/
def execEchoSend (p : Fin 12) (stamp turnaround : Word) (s : State) : Host.Outcome State Fault Refusal :=
  ordinary (fun s => echoSend s p.val stamp.toNat turnaround.toNat) s

/-- A new mean of 32 ECHO samples meets CL_PDELAY (R85). -/
def echoMean (s : State) (p : Nat) (d : Int) : State :=
  let cur := s.rdS (F.CL_PDELAY_DELAY p)
  let near (a b : Int) : Bool := decide ((a - b).natAbs ≤ 200)
  let set_ (s : State) : State := (s.wr (F.CL_PDELAY_DELAY p) (toBits d 32)).modPort p fun x => { x with candidate := none }
  if near d cur then set_ s
  else match (s.port p).candidate with
    | some m =>
      if near d (signed m 32) then raise (set_ s) 193 (d2 p 0 ++ bytesLE 4 (toBits (d - cur) 32))
      else s.modPort p fun x => { x with candidate := some (toBits d 32) }
    | none => s.modPort p fun x => { x with candidate := some (toBits d 32) }

/-- An ECHO arrives (R85): consumed by the port it came to. [log 33 DESIGN CHOICE] -/
def echoRx (s : State) (p : Nat) (c : Copy) (t4 : Nat) : State :=
  if s.isUp p && c.type == 10 then
    if !(intact c) then packetRx s p c
    else if !(s.on F.CL_ECHO_ECHO_INT) then resume s p
    else
      let s1 := neighbourPos ((resume s p).modPort p fun x => { x with lastStamp := some (beAt c.data 0 4) }) p (beAt c.data 12 1 % 64)
      match rttSample (beAt c.data 4 4) t4 (beAt c.data 8 4) with
      | none => s1
      | some v =>
        let l := (s1.port p).echo ++ [v]
        if l.length < 32 then s1.modPort p fun x => { x with echo := l }
        else
          let s2 := s1.modPort p fun x => { x with echo := [] }
          if spreadOk l then echoMean s2 p (delayPs (portRate s2 p) l (s2.rdS (F.CL_PASYM_ASYM p))) else s2
  else s

/-- ECHO_RX (R85). -/
def execEchoRx (p : Fin 12) (c : Copy) (t4 : Word) (s : State) : Host.Outcome State Fault Refusal :=
  ordinary (fun s => echoRx s p.val c t4.toNat) s

/-- The block, counted from the one at which the port entered UP, at which train `k` of a ring end falls due: k × 8 / SHARE rounded up to a whole
block, SHARE in units of 0.25 % (R78). [log 144 DEDUCED] -/
def trainDue (s : State) (k : Nat) : Nat := ceilDiv (k * 3200) (clamp 4 32 (s.rd F.CL_SLOT_SHARE))

/-- A train falls due; `free` is the first block from then on at which no packet, run or Whistle keeps it from starting, on the same count. It is sent
unless it would start before the train before it has ended, or directly after it (R78). [log 144 DEDUCED] -/
def slotTrain (s : State) (p free : Nat) : State :=
  if s.portIs p 1 && s.isUp p then
    let x := s.port p
    let start := max (trainDue s x.trainK) free
    let s1 := s.modPort p fun x => { x with trainK := x.trainK + 1 }
    if (match x.trainEnd with | some e => decide (start ≤ e) | none => false) then s1
    else { (s1.modPort p fun x => { x with trainEnd := some (start + 8) }) with out := s.out ++ [.idleTrain p true] }
  else s

/-- SLOT_TRAIN_DUE (R78): a ring end sends a train as soon as nothing blocks it. -/
def execSlotTrainDue (p : Fin 12) (free : Word) (s : State) : Host.Outcome State Fault Refusal :=
  ordinary (fun s => slotTrain s p.val free.toNat) s

/-- OPEN_TRAIN_RX (R79, R80): a free train passes a ring port. -/
def execOpenTrainRx (p : Fin 12) (cut : Bool) (s : State) : Host.Outcome State Fault Refusal :=
  ordinary (fun s => if (forwardsTo s p.val).isSome then useTrain s p.val cut else s) s

end Sys2Proof.Machine
end

