-- ==== Sys2Proof/Machine/CmdTime.lean ====
section
/-! DEFINITION. Machine/CmdTime.lean: the clock, marks, fences, and register accesses without a row of their own (chapters *Wall time,
Bugle marks and frame lock*, *The register bus and address map*). -/
namespace Sys2Proof.Machine

/-- WT_INC_WRITE (R89). -/
def execWtIncWrite (path : Access) (w : Word) (s : State) : Host.Outcome State Fault Refusal :=
  ordinary (fun s => regWrite s path R.WT_INC w.toNat) s

/-- SERVO_WD passed without a write of WT_INC (R90). -/
def servoWd (s : State) : State :=
  if ptpRuns s && s.on F.WT_SERVO_SERVO_WD && !s.wt.wdFree then setFreerun s 1 else s

/-- SERVO_WD_EXPIRE (R90). [log 3 DESIGN CHOICE] -/
def execServoWdExpire (s : State) : Host.Outcome State Fault Refusal := ordinary servoWd s

/-- FREERUN_SET (R90). -/
def execFreerunSet (path : Access) (s : State) : Host.Outcome State Fault Refusal :=
  ordinary (fun s => fieldWrite s path F.WT_CTL_FREERUN_SET 1) s

/-- FREERUN_CLR (R90). -/
def execFreerunClr (path : Access) (s : State) : Host.Outcome State Fault Refusal :=
  ordinary (fun s => fieldWrite s path F.WT_CTL_FREERUN_CLR 1) s

/-- WT_STEP (R91): WT_STEP_LO, then WT_STEP_HI. -/
def execWtStep (path : Access) (lo hi : Word) (s : State) : Host.Outcome State Fault Refusal :=
  ordinary (fun s => regWrite (regWrite s path R.WT_STEP_LO lo.toNat) path R.WT_STEP_HI hi.toNat) s

/-- An edge of EVT_IN pin `n` (R94): stamped less the filter time, held and queued; a full queue counts and reports it. [log 38 DEDUCED] -/
def evtIn (s : State) (n : Nat) (rising : Bool) : State :=
  let cfg := bits (s.reg R.WT_EVTIN_CFG) (8 * n) 8
  if !(bitAt cfg (if rising then 0 else 1)) then s
  else
    let ts := stampNs s - cfg / 4 * 10
    let s1 := s.wr64 (F.WT_EVTIN_TS_LO_TS n) (F.WT_EVTIN_TS_HI_TS n) ts
    let k := Table.get 0 s.wt.evtin n
    if 4 ≤ k then raise (s1.bump ⟨R.WT_EVTIN_CNT, 8 * n, 8⟩ 1) 218 (d2 n 0)
    else
      let t := Table.set 0 s1.wt.evtin n (k + 1)
      raise { s1 with wt := { s1.wt with evtin := t } } (220 + n) (bytesLE 8 ts ++ bytesLE 1 (if rising then 1 else 2))

/-- EVT_IN_EDGE (R94). -/
def execEvtInEdge (pin : Fin 4) (rising : Bool) (s : State) : Host.Outcome State Fault Refusal :=
  ordinary (fun s => evtIn s pin.val rising) s

/-- GENERATOR_ENABLE (R96): a write of WT_RCFG with EN = 1. [log 18 DEDUCED] -/
def execGeneratorEnable (path : Access) (n : Fin 8) (w : Word) (s : State) : Host.Outcome State Fault Refusal :=
  ordinary (fun s => regWrite s path (R.WT_RCFG n.val) (setBits w.toNat 0 1 1)) s

/-- The mark that gives a coach's ring its LEAD (R109): the first intact parent copy, with LEAD as the ring sends it. -/
def coachMark (s : State) (n : Nat) : Option Mark := (s.wt.coach.find? fun e => e.1 == n).map (·.2)

/-- The LEAD of a ring's marks in units of 50 µs (R98, R109). [log 35 DEDUCED] -/
def leadOf (s : State) (n : Nat) : Nat :=
  match (if follows s then coachMark s n else none) with
  | some m => m.lead
  | none => s.rd (F.WT_RCFG_LEAD n)

/-- FLAGS of a ring's marks (R98, R109, R110): HOLD, FLY, TIER. -/
def flagsOf (s : State) : Nat :=
  if follows s then s.rd F.WT_FSTAT_HOLD + 2 * b2n (decide (2 ≤ folState s)) + 4 * ((s.rd F.WT_FSTAT_TIER + 1) % 8)
  else b2n (s.on F.WT_STAT_FREERUN)

/-- A coach reports each HOLD it sends for a sub-transaction (R127). [log 37 DEDUCED] -/
def tellHolds (s : State) (commit rep : Nat) : State :=
  forIdx 16 s fun s y =>
    match (s.xid y).parent with
    | some x => if rep.testBit y && !(commit.testBit y) then raise s 229 (d2 y x) else s
    | none => s

/-- The generator before its next copy: frames whose fence has fallen have no mark any more; copy 0 fixes FLAGS, LEAD, COMMIT and REPEAT (R100). [log 34 DEDUCED] -/
def markNext (s : State) (n : Nat) : State :=
  let g0 := s.gen n
  let g := if g0.turned.isNone && g0.mark < g0.next then { g0 with mark := g0.next, copy := 0, markRate := g0.rate } else g0
  if g.copy = 0 then
    let b := commitBits s n g.mark
    tellHolds (s.setGen n { g with flags := flagsOf s, lead := leadOf s n, commit := b.1, rep := b.2 }) b.1 b.2
  else s.setGen n g

/-- The generator after a copy: copy 2 ends a mark, and a change of RATE takes its place in the marks (R100, R135). -/
def markSent (g : Gen) : Gen :=
  if g.copy < 2 then { g with copy := g.copy + 1 }
  else match g.newRate with
    | some (code, t) => if g.mark = t && g.turned.isNone then
        let m := rateChangeCount g.rate code t
        { g with mark := m, markRate := code, copy := 0, turned := some (t, m) }
      else { g with mark := g.mark + 1, copy := 0 }
    | none => { g with mark := g.mark + 1, copy := 0 }

/-- Where a ring's marks leave, each port with the wait of its own after the nominal departure: both ends, and for the lowest generator of
the active member the mirror link (R100, R111). -/
def markPorts (s : State) (n low high mirror : Nat) : List (Nat × Nat) :=
  ((ringEnds s n).zip [low, high]).filter (fun e => s.isUp e.1) ++
  (if pairEn s && isActive s && mirrorUp s && refGen s == some n then [(mport s, mirror)] else [])

/-- The next copy of generator `n`'s mark leaves after its nominal departure, by its wait at the lower-numbered end, at the other end and on
the mirror link in ps (R98 to R100). [log 34 DEDUCED] -/
def markSend (s : State) (n low high mirror : Nat) : State :=
  let s1 := markNext s n
  let g := s1.gen n
  if !(genRuns s n) || s.isStandalone || (rateFrac g.markRate).isNone then s
  else
    let flip := flipOf g.markRate g.mark
    let ports := markPorts s1 n low high mirror
    let run (late : Nat) : List Byte :=
      bugleBytes g.flags (g.mark % 2 ^ 48) flip (late + g.copy * 100000000) g.markRate g.lead g.commit g.rep
    let last := ports.foldl (fun m e => max m e.2) 0
    let t := (localAt s1 flip + s1.wt.slew - ((g.lead * 50000000 : Nat) : Int) + ((last + g.copy * 100000000 : Nat) : Int)).toNat
    let s2 := (advanceTo s1 t).setGen n (markSent g)
    let s3 := if g.copy = 0 then trace s2 2 (4 * bits g.flags 1 1 + 8 * bits g.flags 2 3) (bytesLE 6 g.mark) else s2
    { s3 with out := s3.out ++ ports.map fun e => Output.bugle e.1 (run e.2) }

/-- BUGLE_SEND (R100). -/
def execBugleSend (n : Fin 8) (low high mirror : Word) (s : State) : Host.Outcome State Fault Refusal :=
  ordinary (fun s => markSend s n.val low.toNat high.toNat mirror.toNat) s

/-- A coach takes LEAD for its rings from the first intact parent copy (R109, R110): those at a whole multiple of the parent's rate. -/
def regenerate (s : State) (d : Nat) (m : Mark) (remain : Nat) : State :=
  forIdx 8 s fun s n =>
    if drivesRing s n && (rateRatio (s.rd (F.WT_RCFG_RATE n)) m.rate).isSome then
      let lead := (remain - 10000000) / 50000000
      let s1 := { s with wt := { s.wt with coach := s.wt.coach.filter (fun e => e.1 != n) ++ [(n, { m with lead := max 10 lead })] } }
      if lead < 10 then raise s1 215 (d2 d 2) else s1
    else s

/-- The first intact copy of a frame's mark: the Drive Link timing (R245), a wake (R205), a coach's decisions and marks (R109, R129). -/
def firstCopy (s : State) (p d : Nat) (b : List Byte) : State :=
  let m := parseMark b
  if s.isCarriage then
    let s1 := adaptTiming s
    if s1.quiet && markDue s1 m then pixWake s1 2 else s1
  else if s.isCoach then
    let remain := ((m.lead * 50000000 : Nat) : Int) - bugleCorr b - s.rdS (F.CL_PDELAY_DELAY p)
    regenerate (subDecide s m) d m remain.toNat
  else s

/-- An intact run reaches the follower (R102 to R106). -/
def followRun (s : State) (p d : Nat) (b : List Byte) : State :=
  let x := followCopy s p d b (readyNow s)
  if x.2 then firstCopy x.1 p d b else x.1

/-- A Bugle run arrives on a port that is UP (R99, R101, R102, R111): a ring port forwards it, and an intact one is followed there and by
a standby on its mirror link; at a ring end it has come round. -/
def bugleRx (s : State) (p : Nat) (b : List Byte) : State :=
  if !(s.isUp p) then s
  else if (ringPorts s).contains p then
    let s0 := resume s p
    let s1 := match forwardsTo s0 p with
      | some q => { s0 with out := s0.out ++ [.bugle q (bugleForward s p b)] }
      | none => s0
    if bugleIntact b then followRun s1 p (s.rd (F.CL_PSTAT_DIR_RX p)) b else s1
  else if s.portIs p 3 && p == mport s && aligns s && bugleIntact b then followRun s p 3 b
  else s

/-- BUGLE_RX (R101, R102). -/
def execBugleRx (p : Fin 12) (blocks : List Byte) (s : State) : Host.Outcome State Fault Refusal :=
  ordinary (fun s => bugleRx s p.val blocks) s

/-- 50 µs before the predicted fence no intact copy of the timing direction has come: the earliest pending mark without one is taken from
the other direction (R103). -/
def otherDirection (s : State) : State :=
  let dir := s.rd F.WT_FSTAT_DIR
  let l := s.wt.fol.marks.filter fun m => (if dir = 2 then m.fenceW else m.fenceE).isNone
  match earliest l dir with
  | none => s
  | some (m, _) =>
    let ms := s.wt.fol.marks.map fun x => if x.frame == m.frame then { x with other := true } else x
    { s with wt := { s.wt with fol := { s.wt.fol with marks := ms } } }

/-- OTHER_DIRECTION_FALLBACK (R103). -/
def execOtherDirectionFallback (s : State) : Host.Outcome State Fault Refusal := ordinary otherDirection s

/-- FENCE (R97). -/
def execFence (src : Option (Fin 8)) (s : State) : Host.Outcome State Fault Refusal := ordinary (linked fun s => fenceRow s src) s

/-- SYS_COMMIT (R115): a write of SYS_COMMIT with COMMIT = 1. -/
def execSysCommit (path : Access) (w : Word) (s : State) : Host.Outcome State Fault Refusal :=
  ordinary (fun s => regWrite s path R.SYS_COMMIT (setBits w.toNat 0 1 1)) s

/-- REGISTER_WRITE (R10, R118). -/
def execRegisterWrite (path : Access) (addr : BitVec 25) (w : Word) (s : State) : Host.Outcome State Fault Refusal :=
  ordinary (fun s => regWrite s path addr.toNat w.toNat) s

/-- A register read as a command: the word is answered; it clears what a read clears where all four bytes are enabled (R7, R300). -/
def regRead (s : State) (p : Access) (a be : Nat) : State :=
  if reaches s p then
    let r := busRead s (accessPath p) a (be == 15)
    { r.1 with out := r.1.out ++ [.readData r.2] }
  else s

/-- REGISTER_READ (R7). -/
def execRegisterRead (path : Access) (addr : BitVec 25) (be : BitVec 4) (s : State) : Host.Outcome State Fault Refusal :=
  ordinary (fun s => regRead s path (addr.toNat / 4 * 4) be.toNat) s

end Sys2Proof.Machine
end

