-- ==== Sys2Proof/Machine/CmdXa.lean ====
section
/-! DEFINITION. Machine/CmdXa.lean: wall transactions (chapter *Wall transactions*). -/
namespace Sys2Proof.Machine

/-- XA_ABORT (R133): a write of the abort mask. -/
def execXaAbort (path : Access) (w : Word) (s : State) : Host.Outcome State Fault Refusal :=
  ordinary (fun s => regWrite s path R.XA_ABORT w.toNat) s

/-- XA_PREPARE_SEND (R120, R121). -/
def execXaPrepareSend (xid : Fin 16) (data : Option (List Byte)) (s : State) : Host.Outcome State Fault Refusal :=
  ordinary (fun s => retryHeads (prepareSend s xid.val data)) s

/-- A prepare part executes: staged here, or sent on into a ring of this coach (R122, R123). -/
def prepareRun (s : State) (x : Ready) : State :=
  match readRoute s x.pkt.route.toNat with
  | .here _ => prepareAccept s x.pkt none
  | .through r => prepareAccept s x.pkt (some r)
  | _ => s

/-- XA_PREPARE_RX (R122). -/
def execXaPrepareRx (s : State) : Host.Outcome State Fault Refusal :=
  ordinary (fun s => takeReady s (fun c => c.type == 7 && beAt c.data 0 1 == 1) prepareRun) s

/-- XA_PREPARE_CLOSE_RX (R124). -/
def execXaPrepareCloseRx (s : State) : Host.Outcome State Fault Refusal :=
  ordinary (fun s => takeReady s (fun c => c.type == 7 && beAt c.data 0 1 == 4) fun s x => closeAccept s x.pkt) s

/-- XA_VOTE_SEND (R124): the vote of a use, once its conditions hold. -/
def execXaVoteSend (xid : Fin 16) (s : State) : Host.Outcome State Fault Refusal := ordinary (fun s => tryVote s xid.val) s

/-- XA_VOTE_RX (R126). -/
def execXaVoteRx (s : State) : Host.Outcome State Fault Refusal :=
  ordinary (fun s => takeUp s (fun c => c.type == 7 && beAt c.data 0 1 == 2) fun s u => retryHeads (voteAccept s u.ring u.pkt)) s

/-- XA_DEADLINE (R128). [log 3 DESIGN CHOICE] -/
def execXaDeadline (xid : Fin 16) (s : State) : Host.Outcome State Fault Refusal :=
  ordinary (fun s => retryHeads (deadlinePass s xid.val)) s

/-- XA_ARMACK_RX (R132). -/
def execXaArmackRx (s : State) : Host.Outcome State Fault Refusal :=
  ordinary (fun s => takeUp s (fun c => c.type == 7 && beAt c.data 0 1 == 3) fun s u => armackAccept s u.ring u.pkt) s

end Sys2Proof.Machine
end

