-- ==== Sys2Proof/Machine/CmdNet.lean ====
section
/-! DEFINITION. Machine/CmdNet.lean: network ports, flows and the host rings of the network (chapter *Network ingest in the sender*). -/
namespace Sys2Proof.Machine

/-- NET_PORT_UP (R139). -/
def execNetPortUp (n : Fin 4) (fecLock : Bool) (s : State) : Host.Outcome State Fault Refusal :=
  ordinary (fun s => niPortUp s n.val fecLock) s

/-- NET_PORT_DOWN (R139). -/
def execNetPortDown (n : Fin 4) (cause : Fin 3) (s : State) : Host.Outcome State Fault Refusal :=
  ordinary (fun s => htxRun 4096 (niPortDown s n.val cause.val)) s

/-- NET_FRAME_RX (R140, R141). [log 5 DESIGN CHOICE] -/
def execNetFrameRx (n : Fin 4) (bytes : List Byte) (fcsOk drop : Bool) (fecCorr fecUncorr : BitVec 16) (s : State) :
    Host.Outcome State Fault Refusal :=
  ordinary (fun s => niFrame s n.val bytes fcsOk drop fecCorr.toNat fecUncorr.toNat) s

/-- FLOW_ENABLE (R144): a write of NI_FCFG with EN = 1. -/
def execFlowEnable (path : Access) (f : Fin 32) (w : Word) (s : State) : Host.Outcome State Fault Refusal :=
  ordinary (fun s => regWrite s path (R.NI_FCFG f.val) (setBits w.toNat 0 1 1)) s

/-- FLOW_DISABLE (R145): a write of NI_FCFG with EN = 0. -/
def execFlowDisable (path : Access) (f : Fin 32) (w : Word) (s : State) : Host.Outcome State Fault Refusal :=
  ordinary (fun s => regWrite s path (R.NI_FCFG f.val) (setBits w.toNat 0 1 0)) s

/-- LEG_LOSS_TIME (R145). -/
def execLegLossTime (f : Fin 32) (legB : Bool) (s : State) : Host.Outcome State Fault Refusal :=
  ordinary (fun s => legLoss s f.val legB) s

/-- CLOSE_WAIT passed: the oldest open frame closes where its marker packet or a newer frame has come (R149). -/
def closeWait (s : State) (f : Nat) : State :=
  match (s.flow f).opens with
  | [] => s
  | o :: l => if o.marker || !l.isEmpty then closeOldest s f else s

/-- CLOSE_WAIT_EXPIRE (R149). -/
def execCloseWaitExpire (f : Fin 32) (s : State) : Host.Outcome State Fault Refusal := ordinary (fun s => closeWait s f.val) s

/-- FRAME_LOSS_EXPIRE (R149). -/
def execFrameLossExpire (f : Fin 32) (s : State) : Host.Outcome State Fault Refusal := ordinary (fun s => closeOldest s f.val) s

/-- PAIR_WAIT_EXPIRE (R152). -/
def execPairWaitExpire (f : Fin 32) (s : State) : Host.Outcome State Fault Refusal := ordinary (fun s => pairAlone s f.val) s

/-- HRX_TAIL_WRITE (R155): the descriptors posted up to TAIL come with the command. -/
def execHrxTailWrite (path : Access) (w : Word) (descs : List (BitVec 64 × BitVec 16)) (s : State) : Host.Outcome State Fault Refusal :=
  ordinary (fun s =>
    if reaches s path then
      let l := descs.map fun e => (e.1.toNat, e.2.toNat)
      regWrite (s.modNi fun n => { n with hrx := n.hrx ++ l }) path R.NI_HRX_TAIL w.toNat
    else s) s

/-- HTX_TAIL_WRITE (R156). -/
def execHtxTailWrite (path : Access) (w : Word) (descs : List (List Byte)) (s : State) : Host.Outcome State Fault Refusal :=
  ordinary (fun s =>
    if reaches s path then
      let l := descs.map fun b => slice b 0 32
      regWrite (s.modNi fun n => { n with htx := n.htx ++ l }) path R.NI_HTX_TAIL w.toNat
    else s) s

/-- HTX_FRAME_DONE (R156). -/
def execHtxFrameDone (bytes : List Byte) (s : State) : Host.Outcome State Fault Refusal := ordinary (fun s => htxSent s bytes) s

end Sys2Proof.Machine
end

