-- ==== Sys2Proof/Machine/CmdCmp.lean ====
section
/-! DEFINITION. Machine/CmdCmp.lean: composition and the mapper (chapter *Composition, mapping and ring timing*). -/
namespace Sys2Proof.Machine

/-- SEND_WINDOW_CLOSE (R179). -/
def execSendWindowClose (ring : Fin 8) (s : State) : Host.Outcome State Fault Refusal := ordinary (fun s => windowClose s ring.val) s

/-- MAPPER_SEGMENT_SEND (R177, R180). -/
def execMapperSegmentSend (ring : Fin 8) (faults : List Nat) (mapErr : Bool) (s : State) : Host.Outcome State Fault Refusal :=
  ordinary (fun s => mapperSend s ring.val faults mapErr) s

/-- RECORD_READ_DONE (R160). -/
def execRecordReadDone (ring : Fin 8) (layer : Option (Fin 16)) (ue : Bool) (s : State) : Host.Outcome State Fault Refusal :=
  ordinary (fun s => recordRead s ring.val (layer.map (·.val)) ue) s

/-- SEAL_CHECK_DONE (R173). -/
def execSealCheckDone (ring : Fin 8) (layer : Fin 16) (s : State) : Host.Outcome State Fault Refusal :=
  ordinary (fun s => sealDone s ring.val layer.val) s

end Sys2Proof.Machine
end

