-- ==== Sys2Proof/Machine/CmdPix.lean ====
section
/-! DEFINITION. Machine/CmdPix.lean: the carriage pixel pipeline, the lamp store and RUN-quiet (chapters *Carriage pixel pipeline* and
*Picture integrity*). -/
namespace Sys2Proof.Machine

/-- Faults and uncorrectable entries as the operands of a readout name them. -/
def lampPairs (l : List (Fin 786432 × Fin 4)) : List (Nat × Nat) := l.map fun e => (e.1.val, e.2.val)
def arrayPairs (l : List (Fin 5 × Fin 4096)) : List (Nat × Nat) := l.map fun e => (e.1.val + 1, e.2.val)

/-- The oldest accepted PIXEL segment is taken by the pixel unit; `crcUe`: the entry of the segment-CRC table that it is compared with reads
as uncorrectable (R184, R201; for a coach with a drawbar layer R169). -/
def takeSegment (s : State) (crcUe : Bool) : State :=
  match s.ring.pixels with
  | [] => s
  | c :: rest =>
    let s1 := { s with ring := { s.ring with pixels := rest } }
    if !(blockOn s.strap.role 11) then dbSegment s1 c
    else pixSegment (if crcUe && !(bitAt (beAt c.data 15 1) 1) && s.pix.fillFrame == some (beAt c.data 0 6) then arrayUe s1 5 (beAt c.data 6 2 % 4096) else s1) c

/-- PIXEL_SEGMENT_RX (R184). -/
def execPixelSegmentRx (crcUe : Bool) (s : State) : Host.Outcome State Fault Refusal := ordinary (fun s => takeSegment s crcUe) s

/-- READOUT_END (R187, R265): the readout of a frame ends with every lamp sent. -/
def execReadoutEnd (lamps : List (Fin 786432 × Fin 4)) (arrays : List (Fin 5 × Fin 4096)) (s : State) : Host.Outcome State Fault Refusal :=
  ordinary (fun s => endReadout s (lampPairs lamps) (arrayPairs arrays) 0) s

/-- LOAD_DEADLINE (R243): the load deadline passes with `undelivered` lamps not sent. [log 85 DEDUCED] -/
def execLoadDeadline (undelivered : Fin 786433) (lamps : List (Fin 786432 × Fin 4)) (arrays : List (Fin 5 × Fin 4096)) (s : State) :
    Host.Outcome State Fault Refusal :=
  ordinary (fun s => endReadout s (lampPairs lamps) (arrayPairs arrays) undelivered.val) s

/-- READBACK_PASS_DONE (R263). -/
def execReadbackPassDone (s : State) : Host.Outcome State Fault Refusal := ordinary readbackDone s

/-- LS_WINDOW_READ (R197). -/
def execLsWindowRead (path : Access) (addr : BitVec 25) (s : State) : Host.Outcome State Fault Refusal :=
  ordinary (fun s => if isWindow addr.toNat then regRead s path (addr.toNat / 4 * 4) 15 else s) s

/-- LS_WINDOW_WRITE (R197, R198). [log 117 DEDUCED] -/
def execLsWindowWrite (path : Access) (addr : BitVec 25) (w : Word) (s : State) : Host.Outcome State Fault Refusal :=
  ordinary (fun s => if isWindow addr.toNat then regWrite s path (addr.toNat / 4 * 4) w.toNat else s) s

/-- PIX_BANK_COPY (R198). -/
def execPixBankCopy (path : Access) (s : State) : Host.Outcome State Fault Refusal := ordinary (fun s => fieldWrite s path F.PIX_BANK_COPY 1) s

/-- PIX_COPY_DONE (R198). -/
def execPixCopyDone (s : State) : Host.Outcome State Fault Refusal := ordinary copyDone s

/-- PIX_BANK_SWAP (R200). -/
def execPixBankSwap (path : Access) (s : State) : Host.Outcome State Fault Refusal := ordinary (fun s => fieldWrite s path F.PIX_BANK_SWAP 1) s

/-- PIX_ENABLE (R184): a write of PIX_CTL with EN = 1. -/
def execPixEnable (path : Access) (w : Word) (s : State) : Host.Outcome State Fault Refusal :=
  ordinary (fun s => regWrite s path R.PIX_CTL (setBits w.toNat F.PIX_CTL_EN.lo 1 1)) s

/-- LS_SCRUB (R199): the scrubber reads entry `idx` of a bank and finds it clean, corrected or uncorrectable. -/
def execLsScrub (bank : Bool) (idx : Fin 786432) (err : Fin 3) (s : State) : Host.Outcome State Fault Refusal :=
  ordinary (fun s => lsScrub s bank idx.val err.val) s

/-- QUIET_WAKE (R205): a cause of its table arises. -/
def execQuietWake (cause : Fin 16) (s : State) : Host.Outcome State Fault Refusal := 
  ordinary (fun s => if 1 ≤ cause.val && cause.val ≤ 8 then pixWake s cause.val else s) s

/-- QUIET_MAX_EXPIRE (R205). -/
def execQuietMaxExpire (s : State) : Host.Outcome State Fault Refusal :=
  ordinary (fun s => if s.rd F.PIX_QUIET_QUIET_MAX = 0 then s else pixWake s 7) s

/-- QUIET_WAKE_DONE (R206). -/
def execQuietWakeDone (s : State) : Host.Outcome State Fault Refusal := ordinary quietWakeDone s

end Sys2Proof.Machine
end

