-- ==== Sys2Proof/Machine/CmdCal.lean ====
section
/-! DEFINITION. Machine/CmdCal.lean: calibration, blend and colour loop (chapter *Calibration and colour loop*). -/
namespace Sys2Proof.Machine

/-- BLEND_PASS_START (R222). -/
def execBlendPassStart (s : State) : Host.Outcome State Fault Refusal := ordinary passStart s

/-- BLEND_PASS_DONE (R221, R223). -/
def execBlendPassDone (residue : List (Fin 786432)) (s : State) : Host.Outcome State Fault Refusal :=
  ordinary (fun s => passDone s (residue.map (·.val))) s

/-- CAL_KICK (R222). -/
def execCalKick (path : Access) (s : State) : Host.Outcome State Fault Refusal := ordinary (fun s => fieldWrite s path F.CAL_CTL_KICK 1) s

/-- BLEND_ENABLE (R225). -/
def execBlendEnable (path : Access) (s : State) : Host.Outcome State Fault Refusal :=
  ordinary (fun s => fieldWrite s path F.CAL_CTL_BLEND_EN 1) s

/-- BLEND_DISABLE (R226): a running pass ends having written its first `walked` entries, those of `residue` with a residue mismatch. -/
def execBlendDisable (path : Access) (walked : Fin 786433) (residue : List (Fin 786432)) (s : State) : Host.Outcome State Fault Refusal :=
  ordinary (fun s => if reaches s path && s.on F.CAL_CTL_BLEND_EN then fieldWrite (blendOff s walked.val (residue.map (·.val))) path F.CAL_CTL_BLEND_EN 0 else s) s

/-- BLEND_RETRY_EXPIRE (R223). -/
def execBlendRetryExpire (s : State) : Host.Outcome State Fault Refusal := ordinary (fun s => s.modCal fun c => { c with retry := false }) s

/-- LOOP_UPDATE (R229). -/
def execLoopUpdate (s : State) : Host.Outcome State Fault Refusal := ordinary loopUpdate s

/-- CAL_CAPTURE (R232). -/
def execCalCapture (path : Access) (s : State) : Host.Outcome State Fault Refusal := ordinary (fun s => fieldWrite s path F.CAL_CTL_CAPTURE 1) s

/-- CAPTURE_DONE (R232). -/
def execCaptureDone (s : State) : Host.Outcome State Fault Refusal := ordinary captureDone s

/-- CAL_RESET_G (R229). -/
def execCalResetG (path : Access) (s : State) : Host.Outcome State Fault Refusal := ordinary (fun s => fieldWrite s path F.CAL_CTL_RESET_G 1) s

/-- AMB_DISABLE (R233). -/
def execAmbDisable (path : Access) (s : State) : Host.Outcome State Fault Refusal := ordinary (fun s => fieldWrite s path F.CAL_CTL_AMB_EN 0) s

end Sys2Proof.Machine
end

