-- ==== Sys2Proof/Machine/CmdDrv.lean ====
section
/-! DEFINITION. Machine/CmdDrv.lean: lamp drive and the lamp rail (chapter *Lamp drive*). -/
namespace Sys2Proof.Machine

/-- DRV_ENABLE (R245). -/
def execDrvEnable (path : Access) (s : State) : Host.Outcome State Fault Refusal := ordinary (fun s => fieldWrite s path F.DRV_CTL_EN 1) s

/-- DRV_ENUM (R250). -/
def execDrvEnum (path : Access) (s : State) : Host.Outcome State Fault Refusal := ordinary (fun s => fieldWrite s path F.DRV_CTL_ENUM 1) s

/-- MASK_CLR (R249). -/
def execMaskClr (path : Access) (s : State) : Host.Outcome State Fault Refusal := ordinary (fun s => fieldWrite s path F.DRV_CTL_MASK_CLR 1) s

/-- LG_CLEAR (R258): a write of DRV_LGCLR. -/
def execLgClear (path : Access) (w : Word) (s : State) : Host.Outcome State Fault Refusal :=
  ordinary (fun s => regWrite s path R.DRV_LGCLR w.toNat) s

/-- LIGHT_INSTANT (R242), with the replies to an enumeration that is due. -/
def execLightInstant (replies : List EnumReply) (s : State) : Host.Outcome State Fault Refusal := ordinary (fun s => lightInstant s replies) s

/-- SCAN_SLOT_START (R244, R248). -/
def execScanSlotStart (s : State) : Host.Outcome State Fault Refusal := ordinary scanSlot s

/-- GAP_START (R244). -/
def execGapStart (s : State) : Host.Outcome State Fault Refusal := ordinary gapStart s

/-- PD_CAPTURE (R227, R379). -/
def execPdCapture (codes : List (BitVec 12)) (s : State) : Host.Outcome State Fault Refusal :=
  ordinary (fun s => pdCapture s (codes.map (·.toNat))) s

/-- STAT_REPLY_RX (R248). [log 4 DESIGN CHOICE] -/
def execStatReplyRx (p : Fin 16) (bits : BitVec 24) (crc : BitVec 6) (s : State) : Host.Outcome State Fault Refusal :=
  ordinary (fun s => statReply s p.val bits.toNat crc.toNat) s

/-- FREAD_REPLY_RX (R249). -/
def execFreadReplyRx (p : Fin 16) (bits : BitVec 24) (crc : BitVec 6) (s : State) : Host.Outcome State Fault Refusal :=
  ordinary (fun s => freadReply s p.val bits.toNat crc.toNat) s

/-- RET_REPLY_TIMEOUT (R241). -/
def execRetReplyTimeout (p : Fin 16) (s : State) : Host.Outcome State Fault Refusal := ordinary (fun s => noReply s p.val) s

/-- RAIL_PERIOD (R251, R254). -/
def execRailPeriod (v cur : BitVec 10) (s : State) : Host.Outcome State Fault Refusal := ordinary (fun s => railPeriod s v.toNat cur.toNat) s

/-- RAIL_UV_TIME (R253). [log 3 DESIGN CHOICE] -/
def execRailUvTime (v : BitVec 10) (s : State) : Host.Outcome State Fault Refusal := ordinary (fun s => railUv s v.toNat) s

/-- RAIL_RESTART (R253). -/
def execRailRestart (path : Access) (s : State) : Host.Outcome State Fault Refusal :=
  ordinary (fun s => fieldWrite s path F.DRV_RAIL_CTL_RESTART 1) s

end Sys2Proof.Machine
end

