-- ==== Sys2Proof/Machine/CmdPair.lean ====
section
/-! DEFINITION. Machine/CmdPair.lean: the sender pair and the lease that carriages follow (chapter *The sender pair*). -/
namespace Sys2Proof.Machine

/-- Whether an output is a MIRROR packet of a channel. -/
def isMirror (u : Bool) : Output → Bool
  | .mirror _ c _ _ _ _ => c == b2n (!u)
  | _ => false

/-- An arriving MIRROR packet: its ACK counts, `f` takes one that is in order, and a LINK packet acknowledges where nothing else left
on the channel (R273). -/
def mirrorRow (h : MHead) (f : State → State) (s : State) : State :=
  let u := !h.chS
  let r := mirrorAccept s h
  let t := if r.2 then f r.1 else r.1
  if !(mirrorUp t) || (t.out.drop s.out.length).any (isMirror u) then t
  else { t with out := t.out ++ [.mirror 15 (b2n (!u)) (t.chan u).next (((t.chan u).rx + 65535) % 65536) 0 []] }

/-- DIGEST_RX (R268). -/
def execDigestRx (h : MHead) (ring : Fin 8) (frame : BitVec 48) (digest : Word) (s : State) : Host.Outcome State Fault Refusal :=
  ordinary (mirrorRow h fun s => digestAccept s ring.val frame.toNat digest.toNat) s

/-- A mirrored register write reaches the partner; while a resync runs it is kept for the sync fence as well (R276, R295). -/
def mirrorWrite (s : State) (a w : Nat) : State :=
  if !(mirrored a) then s
  else if s.pair.syncSource == some 2 then s.modPair fun p => { p with syncWrites := p.syncWrites ++ [(a, w)] }
  else (busWrite s .mirror a w).1

/-- MIRROR_REGW (R276). -/
def execMirrorRegw (h : MHead) (writes : List (BitVec 25 × Word)) (s : State) : Host.Outcome State Fault Refusal :=
  ordinary (linked (mirrorRow h fun s => writes.foldl (fun s e => mirrorWrite s e.1.toNat e.2.toNat) s)) s

/-- The acknowledgement of a DESC or XADEC (R274). [log 63 DEDUCED] -/
def sendAckk (s : State) (kind mseq result : Nat) : State := mirrorSend s true 12 0 [kind, mseq, result]

/-- A mirrored descriptor: a flip or map load is checked, taken for its frame and acknowledged; an XA descriptor changes the state of its
XID only (R279). [log 63 DEDUCED] -/
def mirrorDesc (s : State) (mseq frame : Nat) (b data : List Byte) : State :=
  match leAt b 0 1 with
  | 6 =>
    let st := flipCheck s (leAt b 16 1) (leAt b 17 1) (leAt b 24 8) (sealOf b)
    let s1 := if st = 0 then flipStart s none true (leAt b 16 1) (leAt b 17 1) (leAt b 24 8) (leAt b 32 6) (sealOf b) (some frame) else s
    sendAckk s1 2 mseq st
  | 7 =>
    let r := leAt b 16 1 % 8
    let st := mapCheck s r (slice data 0 992)
    let s1 := if st = 0 then loadStart s none true r (leAt b 32 6) data (some frame) else s
    sendAckk s1 2 mseq st
  | 8 =>
    let x := leAt b 16 1 % 16
    if (s.xid x).st == .free then s.setXid x { Xid.init with st := .building } else s
  | 9 =>
    let x := leAt b 16 1 % 16
    let d := xaAddDest b (leAt b 4 4) (leAt b 1 1 % 2)
    if (s.xid x).st == .building then s.modXid x fun v => { v with dests := joinDest v.dests d } else s
  | 10 => shadowXid s (leAt b 16 1 % 16) frame
  | _ => s

/-- MIRROR_DESC (R279). -/
def execMirrorDesc (h : MHead) (ring : Fin 16) (_ : BitVec 12) (frame : BitVec 48) (desc data : List Byte) (s : State) :
    Host.Outcome State Fault Refusal :=
  ordinary (mirrorRow h fun s =>
    mirrorDesc (s.wr (F.RED_MIDX_IDX ring.val) ((s.rd (F.RED_MIDX_IDX ring.val) + 1) % 65536))
      h.mseq.toNat frame.toNat desc data) s

/-- MIRROR_DRAMW (R278); behind a resync's content it waits for the sync fence with it (R295). -/
def execMirrorDramw (h : MHead) (addr : BitVec 34) (data : List Byte) (s : State) : Host.Outcome State Fault Refusal :=
  ordinary (mirrorRow h fun s =>
    if s.pair.syncSource == some 2 then s.modPair fun p => { p with syncItems := p.syncItems ++ [.dram addr data] }
    else dramWrite s addr.toNat data) s

/-- A DOWN item: it waits for its SEQ's turn; after it, it is counted and not sent from this end (R280). -/
def downItem (s : State) (r : Nat) (c : Copy) : State :=
  let behind := (s.rd (F.RED_RSTAT_SEQ r) + 65536 - c.seq.toNat) % 65536
  if holds s r then s
  else
    let s1 := toldDown s c
    if 0 < behind && behind < 32768 then s1.bump F.RED_SEQCNT_LATE_DOWN 1
    else pump (s1.setLease r { s1.lease r with down := (s1.lease r).down ++ [c] }) r

/-- MIRROR_DOWN (R280). -/
def execMirrorDown (h : MHead) (ring : Fin 8) (c : Copy) (s : State) : Host.Outcome State Fault Refusal :=
  ordinary (mirrorRow h fun s => downItem s ring.val c) s

/-- While a resync runs its target keeps the source's counter up to date: it adopts the latest at the sync fence (R295). -/
def keepSeq (s : State) (r next : Nat) : State :=
  if s.pair.syncSource == some 2 then
    let other : SyncItem → Bool | .seq q _ => q.val != r % 8 | _ => true
    s.modPair fun p => { p with syncItems := p.syncItems.filter other ++ [.seq ⟨r % 8, Nat.mod_lt _ (by decide)⟩ (BitVec.ofNat 16 next)] }
  else s

/-- A SEQMARK: control SEQs and how far the stream may go; one that lists a SEQ used for a PIXEL packet is a slip (R280). [log 66 DEDUCED] -/
def seqmarkItem (s : State) (r next : Nat) (ctrl : List Nat) : State :=
  if holds s r then s
  else
    let cur := s.rd (F.RED_RSTAT_SEQ r)
    let passed (q : Nat) : Bool := decide (0 < (cur + 65536 - q) % 65536) && decide ((cur + 65536 - q) % 65536 < 32768)
    if ctrl.any fun q => passed q && Table.get 0 (s.lease r).pix q != 0 then
      startResync (goSilent (raise s 442 (d2 r 0)) r)
    else
      let x := s.lease r
      pump (keepSeq (s.setLease r { x with ctrl := x.ctrl ++ ctrl.filter (fun q => !(passed q)), mark := next }) r next) r

/-- MIRROR_SEQMARK (R280). -/
def execMirrorSeqmark (h : MHead) (ring : Fin 8) (next : BitVec 16) (ctrl : List (BitVec 16)) (s : State) : Host.Outcome State Fault Refusal :=
  ordinary (mirrorRow h fun s => seqmarkItem s ring.val next.toNat (ctrl.map (·.toNat))) s

/-- MIRROR_UPFWD (R281). -/
def execMirrorUpfwd (h : MHead) (ring : Fin 8) (east : Bool) (c : Copy) (s : State) : Host.Outcome State Fault Refusal :=
  ordinary (mirrorRow h fun s => if c.up then upMerge s ring.val east none c else s) s

/-- MIRROR_CLOSE (R152). -/
def execMirrorClose (h : MHead) (f : Fin 32) (media : BitVec 64) (missing : List (BitVec 16)) (s : State) : Host.Outcome State Fault Refusal :=
  ordinary (mirrorRow h fun s => closeReport s f.val media.toNat (missing.map (·.toNat))) s

/-- MIRROR_LINES (R152). -/
def execMirrorLines (h : MHead) (f : Fin 32) (media : BitVec 64) (row : BitVec 16) (data : List Byte) (s : State) :
    Host.Outcome State Fault Refusal :=
  ordinary (mirrorRow h fun s => pairLine s f.val media.toNat row.toNat data) s

/-- MIRROR_SAMPLE (R168). -/
def execMirrorSample (h : MHead) (ring : Fin 8) (layer : Fin 16) (frame : BitVec 48) (media : BitVec 64) (s : State) :
    Host.Outcome State Fault Refusal :=
  ordinary (mirrorRow h fun s => sampleAccept s ring.val layer.val frame.toNat media.toNat) s

/-- A decision of the holder (R128); of a sub-transaction of a coach pair that it is ready, so that this member votes for its own position (R296). [log 65 DEDUCED] -/
def xadecItem (s : State) (x : Nat) (fired : Bool) (target : Nat) : State :=
  let v := s.xid x
  if !fired then freeXid s x
  else match v.parent with
    | some p => if v.st == .preparing || v.st == .voting then tryVote (s.setXid x { v with ready := true }) p else s
    | none => shadowFire s x target

/-- MIRROR_XADEC (R128): the decision is taken and acknowledged. [log 65 DEDUCED] -/
def execMirrorXadec (h : MHead) (xid : Fin 16) (fired : Bool) (target : BitVec 48) (s : State) : Host.Outcome State Fault Refusal :=
  ordinary (mirrorRow h fun s => sendAckk (xadecItem s xid.val fired target.toNat) 11 h.mseq.toNat 0) s

/-- The standby's answer to a DESC or XADEC: an accepted decision fires, a refused one aborts; a flip or load stands or is refused
(R128, R279). [log 64 DEDUCED, 65 DEDUCED] -/
def ackkItem (s : State) (kind mseq result : Nat) : State :=
  match s.pair.owed.find? fun e => e.1 == kind && e.2.1 == mseq with
  | none => s
  | some e =>
    let s1 := s.modPair fun p => { p with owed := p.owed.erase e }
    if kind = 2 then cmpAck s1 e.2.2 result
    else if (s1.xid e.2.2).st != .voting then s1
    else if result = 0 then fire s1 e.2.2
    else abortXid s1 e.2.2 reasonPartition 0 0 0

/-- MIRROR_ACKK (R279, R128). [log 64 DEDUCED] -/
def execMirrorAckk (h : MHead) (kind : Byte) (mseq : BitVec 16) (result : Byte) (s : State) : Host.Outcome State Fault Refusal :=
  ordinary (fun s => retryHeads (mirrorRow h (fun s => ackkItem s kind.toNat mseq.toNat result.toNat) s)) s

/-- MIRROR_CLAIM (R289). -/
def execMirrorClaim (h : MHead) (mask : Byte) (frame : BitVec 48) (s : State) : Host.Outcome State Fault Refusal :=
  ordinary (mirrorRow h fun s => claimAccept s mask.toNat frame.toNat) s

/-- MIRROR_GRANT (R289). -/
def execMirrorGrant (h : MHead) (mask : Byte) (frame : BitVec 48) (s : State) : Host.Outcome State Fault Refusal :=
  ordinary (mirrorRow h fun s => grantAccept s mask.toNat frame.toNat) s

/-- MIRROR_LINK (R273): only the acknowledgement counts. -/
def execMirrorLink (h : MHead) (s : State) : Host.Outcome State Fault Refusal :=
  ordinary (fun s => if mirrorUp s then mirrorAck s (!h.chS) h.ack.toNat else s) s

/-- A SYNC item: the target keeps it for the sync fence, which the last one names (R295). [log 61 DEDUCED] -/
def syncRx (s : State) (i : SyncItem) : State :=
  if s.pair.syncSource == some 1 then s
  else
    let s1 := if s.pair.syncSource == some 2 then s else becomeTarget s
    match i with
    | .fence f => s1.modPair fun p => { p with syncFence := some f.toNat }
    | _ => s1.modPair fun p => { p with syncItems := p.syncItems ++ [i] }

/-- MIRROR_SYNC (R295). -/
def execMirrorSync (h : MHead) (item : SyncItem) (s : State) : Host.Outcome State Fault Refusal :=
  ordinary (mirrorRow h fun s => syncRx s item) s

/-- MIRROR_RESEND (R273): every packet of the channel that is not acknowledged is sent again. [log 67 DEDUCED] -/
def execMirrorResend (chS : Bool) (s : State) : Host.Outcome State Fault Refusal :=
  ordinary (fun s =>
    if mirrorUp s then (s.chan (!chS)).unacked.foldl (fun s i => mirrorOut (s.bump F.RED_MQ_RTX 1) (!chS) i) s else s) s

/-- WHISTLE_SEND (R283). [log 41 DEDUCED] -/
def execWhistleSend (ring : Fin 8) (s : State) : Host.Outcome State Fault Refusal :=
  ordinary (fun s => if ringEnabled s ring.val then sendWhistle s ring.val else s) s

/-- A Whistle arrives on a port that is UP: a ring port sends it on and follows it; a member judges it at its ring end or on the
mirror link (R282 to R285). -/
def whistleRx (s : State) (p : Nat) (b : List Byte) : State :=
  if !(s.isUp p) then s
  else if (ringPorts s).contains p then
    let s0 := resume s p
    let s1 := match forwardsTo s0 p with
      | some q => { s0 with out := s0.out ++ [.whistle q b] }
      | none => s0
    if whistleIntact b && follows s then followWhistle s1 (s.rd (F.CL_PSTAT_DIR_RX p)) b else s1
  else if !(whistleIntact b) || !(pairEn s) then s
  else if s.portIs p 3 && p == mport s then redRefresh (syncHear (memberWhistle s true b) (beAt b 6 1 % 8))
  else if s.portIs p 1 then redRefresh (memberWhistle s false b)
  else s

/-- WHISTLE_RX (R284, R285). -/
def execWhistleRx (p : Fin 12) (block : List Byte) (s : State) : Host.Outcome State Fault Refusal :=
  ordinary (fun s => retryHeads (whistleRx s p.val block)) s

/-- FOLLOW_LEASE_TIMEOUT (R285). -/
def execFollowLeaseTimeout (s : State) : Host.Outcome State Fault Refusal := ordinary followLost s

/-- LEASE_PROMOTION (R286): the partner's Whistles have been absent on the mirror link and at this end. -/
def execLeasePromotion (ring : Fin 8) (s : State) : Host.Outcome State Fault Refusal :=
  ordinary (fun s =>
    if pairEn s && ringEnabled s ring.val && !(holds s ring.val)
    then promote ((s.modPair fun p => { p with partnerHere := false }).setLease ring.val { s.lease ring.val with relayAt := none }) ring.val else s) s

/-- The standby assigns the SEQ its next PIXEL packet needs, although no SEQMARK covers it (R280). -/
def seqFree (s : State) (r : Nat) : State :=
  let x := s.lease r
  let q := s.rd (F.RED_RSTAT_SEQ r)
  match x.waitPix with
  | [] => s
  | c :: l =>
    if !(pairEn s) || !(mirrorUp s) || holds s r || q != x.mark then s
    else
      raiseLim ((sendWaited (s.setLease r { x with waitPix := l, mark := (q + 1) % 65536 }) r q c).bump F.RED_SEQCNT_FREE 1) 441 secPs (d2 r 0)

/-- SEQ_FREE_TIMEOUT (R280). -/
def execSeqFreeTimeout (ring : Fin 8) (s : State) : Host.Outcome State Fault Refusal := ordinary (fun s => seqFree s ring.val) s

/-- REVERT_CLAIM (R290). -/
def execRevertClaim (s : State) : Host.Outcome State Fault Refusal := ordinary revertClaim s

/-- SPLIT_REJOIN (R291). -/
def execSplitRejoin (s : State) : Host.Outcome State Fault Refusal := ordinary splitRejoin s

/-- RED_HANDOVER (R290). -/
def execRedHandover (path : Access) (s : State) : Host.Outcome State Fault Refusal := ordinary (fun s => fieldWrite s path F.RED_CTL_HANDOVER 1) s

/-- RINGS_GO (R284). -/
def execRingsGo (path : Access) (s : State) : Host.Outcome State Fault Refusal := ordinary (fun s => fieldWrite s path F.RED_CTL_RINGS_GO 1) s

/-- RESYNC (R295): by a write of RED_CTL.RESYNC, or as the mirror port reaches UP. -/
def execResync (path : Option Access) (s : State) : Host.Outcome State Fault Refusal :=
  ordinary (fun s => match path with
    | some p => fieldWrite s p F.RED_CTL_RESYNC 1
    | none => if pairEn s then startResync s else s) s

/-- MIRROR_TIMEOUT_EXPIRE (R283). -/
def execMirrorTimeoutExpire (s : State) : Host.Outcome State Fault Refusal := ordinary mirrorTimeout s

/-- SEQMARK_INTERVAL (R280): a SEQMARK of every ring held. -/
def execSeqmarkInterval (s : State) : Host.Outcome State Fault Refusal :=
  ordinary (fun s => if pairEn s && mirrorUp s then ((enabledRings s).filter (holds s)).foldl sendSeqmark s else s) s

end Sys2Proof.Machine
end

