-- ==== Sys2Proof/Machine/CmdHif.lean ====
section
/-! DEFINITION. Machine/CmdHif.lean: the host interface and its descriptors (chapter *Host interface and descriptor rings*). -/
namespace Sys2Proof.Machine

/-- HIF_DB (R304). -/
def execHifDb (path : Access) (ring : Fin 16) (w : Word) (s : State) : Host.Outcome State Fault Refusal :=
  ordinary (fun s => regWrite s path (R.HIF_DB ring.val) w.toNat) s

/-- DESCRIPTOR_CONSUME (R305). -/
def execDescriptorConsume (ring : Fin 16) (desc : Option (List Byte)) (s : State) : Host.Outcome State Fault Refusal :=
  ordinary (fun s => consume s ring.val desc) s

/-- NOP (R310). -/
def execNop (ring : Fin 16) (s : State) : Host.Outcome State Fault Refusal :=
  ordinary (fun s => runDesc s ring.val 1 fun s j => finish s j 0) s

/-- FENCE_DESC (R310). [log 49 DEDUCED] -/
def execFenceDesc (ring : Fin 16) (s : State) : Host.Outcome State Fault Refusal := ordinary (fun s => runDesc s ring.val 2 fenceDone) s

/-- REG_WRITE (R311). -/
def execRegWrite (ring : Fin 16) (data : Option (List Byte)) (s : State) : Host.Outcome State Fault Refusal :=
  ordinary (linked fun s => runDesc s ring.val 3 fun s j => runRegWrite s j data) s

/-- REG_READ (R311). -/
def execRegRead (ring : Fin 16) (s : State) : Host.Outcome State Fault Refusal := ordinary (fun s => runDesc s ring.val 4 runRegRead) s

/-- TABLE_LOAD (R315). -/
def execTableLoad (ring : Fin 16) (data : Option (List Byte)) (s : State) : Host.Outcome State Fault Refusal :=
  ordinary (linked fun s => runDesc s ring.val 5 fun s j => runTableLoad s j data) s

/-- LAYER_FLIP (R170). -/
def execLayerFlip (ring : Fin 16) (s : State) : Host.Outcome State Fault Refusal := ordinary (fun s => runDesc s ring.val 6 runFlip) s

/-- MAP_LOAD (R178). -/
def execMapLoad (ring : Fin 16) (data : Option (List Byte)) (s : State) : Host.Outcome State Fault Refusal :=
  ordinary (fun s => runDesc s ring.val 7 fun s j => runMap s j data) s

/-- XA_BEGIN (R119, R120). -/
def execXaBegin (ring : Fin 16) (s : State) : Host.Outcome State Fault Refusal := ordinary (fun s => runDesc s ring.val 8 beginDone) s

/-- XA_ADD (R120). -/
def execXaAdd (ring : Fin 16) (s : State) : Host.Outcome State Fault Refusal :=
  ordinary (fun s => runDesc s ring.val 9 runXaAdd) s

/-- XA_COMMIT (R120). -/
def execXaCommit (ring : Fin 16) (s : State) : Host.Outcome State Fault Refusal := ordinary (fun s => runDesc s ring.val 10 runXaCommit) s

/-- UPDATE_BLOCK (R318). -/
def execUpdateBlock (ring : Fin 16) (data : Option (List Byte)) (s : State) : Host.Outcome State Fault Refusal :=
  flashing (fun s => runDesc s ring.val 11 fun s j => runUpdate s j data) s

/-- REPLY_WAIT_EXPIRE (R313). -/
def execReplyWaitExpire (ring : Fin 8) (tag : BitVec 16) (s : State) : Host.Outcome State Fault Refusal :=
  ordinary (fun s => retryHeads (replyExpire s ring.val tag.toNat)) s

/-- HIF_CP_CONS (R307). -/
def execHifCpCons (path : Access) (ring : Fin 16) (w : Word) (s : State) : Host.Outcome State Fault Refusal :=
  ordinary (fun s => regWrite s path (R.HIF_CP_CONS ring.val) w.toNat) s

/-- COMMAND_RING_DISABLE (R319): a write of HIF_CR_CTL with EN = 0. -/
def execCommandRingDisable (path : Access) (ring : Fin 16) (w : Word) (s : State) : Host.Outcome State Fault Refusal :=
  ordinary (fun s => regWrite s path (R.HIF_CR_CTL ring.val) (setBits w.toNat 0 1 0)) s

/-- Whether the device has a PCI Express function (R26). -/
def hasHost (s : State) : Bool := blockOn s.strap.role 3

/-- BAR0_ACCESS_ERR (R300): a BAR0 write with a byte enable clear is dropped and counted. -/
def execBar0AccessErr (addr : BitVec 25) (s : State) : Host.Outcome State Fault Refusal :=
  ordinary (fun s => if hasHost s then raise (s.bump F.HIF_CNT_ACCESS_ERR 1) 453 (d2 0 0 ++ bytesLE 4 addr.toNat) else s) s

/-- Whether a DRAM address lies in an enabled mirrored region (R278). [log 59 DEDUCED] -/
def inRegion (s : State) (a : Nat) : Bool :=
  anyIdx 8 fun i => s.on (F.RED_MREG_SIZE_EN i) && decide ((region s i).1 ≤ a) && decide (a < (region s i).1 + (region s i).2)

/-- The bytes of a write that lie in a mirrored region (`true`), or those that do not. [log 59 DEDUCED] -/
def regionPart (s : State) (inside : Bool) : Nat → List (Option Byte) → List (Option Byte)
  | _, [] => []
  | a, b :: l => (if inRegion s a == inside then b else none) :: regionPart s inside (a + 1) l

/-- The runs of enabled bytes of a write: address and bytes. [log 59 DEDUCED] -/
def byteRuns : Nat → List (Option Byte) → List (Nat × List Byte)
  | _, [] => []
  | a, none :: l => byteRuns (a + 1) l
  | a, some b :: l =>
    match l.head?, byteRuns (a + 1) l with
    | some (some _), (_, bs) :: r => (a, b :: bs) :: r
    | _, r => (a, [b]) :: r

/-- The host's DRAM write through BAR2 (R277, R278, R301): in a pair, bytes of mirrored regions are dropped with
RED_WRITE_DROPPED, or are copied to the partner as DRAMW. [log 59 DEDUCED] -/
def bar2Write (s : State) (a : Nat) (l : List (Option Byte)) : State :=
  let mine := regionPart s true a l
  if !(pairEn s) || mine.all (·.isNone) then dramStore s a l
  else match hostDrop s with
    | some c => raise (dramStore s a (regionPart s false a l)) 439 (d2 c 0 ++ bytesLE 4 a)
    | none =>
      let s1 := dramStore s a l
      if mirrorUp s1 then (byteRuns a mine).foldl (fun s e => mirrorSend s false 3 0 (e.1 :: e.2.map BitVec.toNat)) s1 else s1

/-- A BAR2 access (R301): `write` gives the bytes with their enables, none for a read of `len` bytes. [log 58 DEDUCED] -/
def bar2 (s : State) (off : Nat) (write : Option (List (Option Byte))) (len : Nat) : State :=
  let a := s.rd F.HIF_BAR2_BASE * 2 ^ 28 + off
  let n := match write with | some l => l.length | none => len
  if !(hasHost s) then s
  else if !(installedRange s a n) then
    let s1 := raise (s.bump F.HIF_CNT2_WIN_ERR 1) 453 (d2 2 0 ++ bytesLE 4 off)
    match write with
    | some _ => s1
    | none => { s1 with out := s1.out ++ [.readBytes (List.replicate n 0#8)] }
  else match write with
    | some l => bar2Write s a l
    | none => let r := dramFetch s a n; { r.1 with out := r.1.out ++ [.readBytes r.2.1] }

/-- BAR2_ACCESS (R301). -/
def execBar2Access (off : BitVec 28) (write : Option (List (Option Byte))) (len : BitVec 12) (s : State) : Host.Outcome State Fault Refusal :=
  ordinary (fun s => bar2 s off.toNat write len.toNat) s

/-- The reset of the host function; HIF_FLR waits for the link (R302). [log 56 DEDUCED] -/
def hostReset (s : State) : State := if hasHost s then (functionReset s).modHif fun h => { h with flrDue := true } else s

/-- FUNCTION_LEVEL_RESET (R302). -/
def execFunctionLevelReset (s : State) : Host.Outcome State Fault Refusal := ordinary hostReset s

/-- HOT_RESET (R302). -/
def execHotReset (s : State) : Host.Outcome State Fault Refusal := ordinary hostReset s

/-- PCIE_LINK_DOWN (R302): the function is reset, and HIF_LINK tells that the link is down. -/
def execPcieLinkDown (s : State) : Host.Outcome State Fault Refusal :=
  ordinary (fun s => if hasHost s && s.on F.HIF_STAT_LINK_UP then raise (hostReset s) 452 (d2 2 0) else s) s

/-- The link came up (R302, R323). [log 56 DEDUCED] -/
def linkUp (s : State) (width speed : Nat) (bme : Bool) : State :=
  if !(hasHost s) then s
  else
    let s1 := (((s.wr F.HIF_STAT_LINK_UP 1).wr F.HIF_STAT_WIDTH width).wr F.HIF_STAT_SPEED speed).wr F.HIF_STAT_BME (b2n bme)
    let s2 := raise s1 452 (d2 1 width)
    if s2.hif.flrDue then raise (s2.modHif fun h => { h with flrDue := false }) 454 (d2 0 0) else s2

/-- PCIE_LINK_UP (R302). -/
def execPcieLinkUp (width speed : BitVec 2) (bme : Bool) (s : State) : Host.Outcome State Fault Refusal :=
  ordinary (fun s => linkUp s width.toNat speed.toNat bme) s

/-- PCIE_PERST_N (R302): a conventional reset of the host function. -/
def execPciePerstN (s : State) : Host.Outcome State Fault Refusal := ordinary hostReset s

end Sys2Proof.Machine
end

