-- ==== Sys2Proof/Machine/CmdEvc.lean ====
section
/-! DEFINITION. Machine/CmdEvc.lean: the event controller (chapter *Event controller*). -/
namespace Sys2Proof.Machine

/-- SOURCE_FIRING (R324, R328). -/
def execSourceFiring (src : Fin 512) (data : List Byte) (s : State) : Host.Outcome State Fault Refusal :=
  ordinary (fun s => if srcReserved src.val then s else raise s src.val data) s

/-- EVC_TCONS (R331). -/
def execEvcTcons (path : Access) (t : Fin 4) (w : Word) (s : State) : Host.Outcome State Fault Refusal :=
  ordinary (fun s => regWrite s path (R.EVC_TCONS t.val) w.toNat) s

/-- EVC_TEOI (R332). -/
def execEvcTeoi (path : Access) (t : Fin 4) (s : State) : Host.Outcome State Fault Refusal :=
  ordinary (fun s => regWrite s path (R.EVC_TEOI t.val) 1) s

/-- EVC_TARGET_ENABLE (R327): a write of EVC_TCTL with EN = 1. -/
def execEvcTargetEnable (path : Access) (t : Fin 4) (w : Word) (s : State) : Host.Outcome State Fault Refusal :=
  ordinary (fun s => regWrite s path (R.EVC_TCTL t.val) (setBits w.toNat 0 1 1)) s

/-- EVC_TARGET_DISABLE (R333): a write of EVC_TCTL with EN = 0. -/
def execEvcTargetDisable (path : Access) (t : Fin 4) (w : Word) (s : State) : Host.Outcome State Fault Refusal :=
  ordinary (fun s => regWrite s path (R.EVC_TCTL t.val) (setBits w.toNat 0 1 0)) s

/-- EVC_AWAKE (R329): a write of EVC_TCTL.AWAKE. -/
def execEvcAwake (path : Access) (t : Fin 4) (awake : Bool) (s : State) : Host.Outcome State Fault Refusal :=
  ordinary (fun s => fieldWrite s path (F.EVC_TCTL_AWAKE t.val) (b2n awake)) s

end Sys2Proof.Machine
end

