-- ==== Sys2Proof/Machine/CmdDram.lean ====
section
/-! DEFINITION. Machine/CmdDram.lean: the DDR4 controller (chapter *DDR4 memory controller*). -/
namespace Sys2Proof.Machine

/-- MC_ENABLE (R351): a write of MC_CTL with EN = 1. -/
def execMcEnable (path : Access) (c : Fin 2) (w : Word) (s : State) : Host.Outcome State Fault Refusal :=
  ordinary (fun s => regWrite s path (R.MC_CTL c.val) (setBits w.toNat 0 1 1)) s

/-- DRAM channel 0 entered STATE 5: in carriage and standalone role a device that displays goes to SAFE (R372). -/
def dramFailed (s : State) (c : Nat) : State := if c = 0 && !s.isSender && s.displays then safeEntry s 7 else s

/-- The training in hand ends (R351). That of a change of rate fills MC_TRAIN, and MC_FREQ_DONE then ends the change; a failure
ends both (R353). [log 158 DESIGN CHOICE] -/
def trainDone (s : State) (c : Nat) (t : Train) : State :=
  if mcState s c != 1 && mcState s c != 4 then s
  else match t with
    | .ok v r x w =>
      if mcState s c = 1 then trainOk s c v.toNat r.toNat x.toNat w.toNat
      else fillTrain s c v.toNat r.toNat x.toNat w.toNat
    | .fail st l => dramFailed (trainFail s c st.toNat l.toNat) c

/-- MC_TRAIN_DONE (R351). -/
def execMcTrainDone (c : Fin 2) (t : Train) (s : State) : Host.Outcome State Fault Refusal := ordinary (fun s => trainDone s c.val t) s

/-- MC_DISABLE (R350): a write of MC_CTL with EN = 0. -/
def execMcDisable (path : Access) (c : Fin 2) (w : Word) (s : State) : Host.Outcome State Fault Refusal :=
  ordinary (fun s => regWrite s path (R.MC_CTL c.val) (setBits w.toNat 0 1 0)) s

/-- REFRESH_DUE (R348). -/
def execRefreshDue (c : Fin 2) (rt : Bool) (s : State) : Host.Outcome State Fault Refusal := ordinary (fun s => refreshDue s c.val rt) s

/-- SR_IDLE_EXPIRE (R350). -/
def execSrIdleExpire (c : Fin 2) (s : State) : Host.Outcome State Fault Refusal :=
  ordinary (fun s => if s.rd (F.MC_PWR_SR_IDLE c.val) = 0 then s else enterSr s c.val) s

/-- SELF_REFRESH_EXIT (R350). -/
def execSelfRefreshExit (c : Fin 2) (s : State) : Host.Outcome State Fault Refusal := ordinary (fun s => touch s c.val) s

/-- RECENTRING_STEP (R352). -/
def execRecentringStep (c : Fin 2) (abandoned : Bool) (shift eye : Byte) (s : State) : Host.Outcome State Fault Refusal :=
  ordinary (fun s => recentre s c.val abandoned shift.toNat eye.toNat) s

/-- PATROL_SCRUB (R345). -/
def execPatrolScrub (c : Fin 2) (found : Fin 5) (pair : Fin 8) (s : State) : Host.Outcome State Fault Refusal :=
  ordinary (fun s => patrol s c.val found.val pair.val) s

/-- MC_FREQ_GO (R353): a write of MC_FREQ with GO = 1. -/
def execMcFreqGo (path : Access) (c : Fin 2) (w : Word) (s : State) : Host.Outcome State Fault Refusal :=
  ordinary (fun s => regWrite s path (R.MC_FREQ c.val) (setBits w.toNat 3 1 1)) s

/-- MC_FREQ_DONE (R353). -/
def execMcFreqDone (c : Fin 2) (s : State) : Host.Outcome State Fault Refusal := ordinary (fun s => freqDone s c.val) s

/-- CAPAR_ALERT (R354). -/
def execCaparAlert (c : Fin 2) (attempts : Fin 16) (read : Option (BitVec 33)) (s : State) : Host.Outcome State Fault Refusal :=
  ordinary (fun s => capar s c.val attempts.val (read.map (·.toNat))) s

end Sys2Proof.Machine
end

