-- ==== Sys2Proof/Machine/CmdHk.lean ====
section
/-! DEFINITION. Machine/CmdHk.lean: housekeeping (chapter *Housekeeping and thermal control*). -/
namespace Sys2Proof.Machine

/-- HK_ROUND (R377). -/
def execHkRound (s : State) : Host.Outcome State Fault Refusal := ordinary roundStart s

/-- HK_ROUND_END (R384). -/
def execHkRoundEnd (vals : List (BitVec 16)) (dieBad : BitVec 4) (s : State) : Host.Outcome State Fault Refusal :=
  ordinary (linked fun s => roundEnd s (vals.map (·.toNat)) dieBad.toNat) s

/-- RESTART_WAIT_EXPIRE (R385). -/
def execRestartWaitExpire (s : State) : Host.Outcome State Fault Refusal := ordinary (linked restartWait) s

end Sys2Proof.Machine
end

