-- ==== Sys2Proof/Machine/CmdMode.lean ====
section
/-! DEFINITION. Machine/CmdMode.lean: resets, clocks, gates, modes and the image load (chapters *Clocks, power and operating modes*,
*Images, start-up loading and field update*). -/
namespace Sys2Proof.Machine

/-- PORST_N_ASSERT (R61): the device is held in reset, every field at its reset value. -/
def execPorstNAssert (s : State) : Host.Outcome State Fault Refusal := powering porstLow s

/-- PORST_N_RELEASE (R374, R1): the straps are sampled and start-up begins. -/
def execPorstNRelease (role xoDly : BitVec 2) (s : State) : Host.Outcome State Fault Refusal :=
  powering (fun s => porstHigh s role.toNat xoDly.toNat) s

/-- WRST_N_ASSERT (R374). -/
def execWrstNAssert (s : State) : Host.Outcome State Fault Refusal := ordinary (linked wrstLow) s

/-- WRST_N_RELEASE (R374). -/
def execWrstNRelease (s : State) : Host.Outcome State Fault Refusal := ordinary (linked wrstHigh) s

/-- SUPPLY_MONITOR_LOW (R429): as a low on PORST_N. -/
def execSupplyMonitorLow (s : State) : Host.Outcome State Fault Refusal := powering porstLow s

/-- REED_READY (R363). -/
def execReedReady (s : State) : Host.Outcome State Fault Refusal := ordinary reedReady s

/-- CRYSTAL_CHECK_DONE (R357). -/
def execCrystalCheckDone (ok : Bool) (s : State) : Host.Outcome State Fault Refusal := ordinary (fun s => crystalDone s ok) s

/-- PLL_LOCK (R361). -/
def execPllLock (pll : Fin 4) (s : State) : Host.Outcome State Fault Refusal := ordinary (fun s => pllLock s pll.val) s

/-- PLL_UNLOCK (R376). -/
def execPllUnlock (pll : Fin 4) (s : State) : Host.Outcome State Fault Refusal := ordinary (fun s => pllUnlock s pll.val) s

/-- RAMP_STEP (R365). -/
def execRampStep (s : State) : Host.Outcome State Fault Refusal := ordinary rampStep s

/-- CLOCK_MONITOR_TRIP (R362). -/
def execClockMonitorTrip (src : Fin 3) (s : State) : Host.Outcome State Fault Refusal := ordinary (linked fun s => monTrip s src.val) s

/-- REED_FAIL (R364). -/
def execReedFail (s : State) : Host.Outcome State Fault Refusal := ordinary (linked reedFail) s

/-- REED_RESTART_TIMEOUT (R364). -/
def execReedRestartTimeout (s : State) : Host.Outcome State Fault Refusal := ordinary (linked reedTimeout) s

/-- RETURN_HOLD_EXPIRE (R361). -/
def execReturnHoldExpire (pll : Fin 4) (hitless : Bool) (s : State) : Host.Outcome State Fault Refusal :=
  ordinary (fun s => returnHold s pll.val hitless) s

/-- TRIM_MEASUREMENT (R360). -/
def execTrimMeasurement (src : Fin 4) (errPpm : BitVec 16) (code : BitVec 10) (lpoHz : BitVec 24) (s : State) : Host.Outcome State Fault Refusal :=
  ordinary (fun s => trim s src.val errPpm.toNat code.toNat lpoHz.toNat) s

/-- DROOP_DETECT (R366). -/
def execDroopDetect (s : State) : Host.Outcome State Fault Refusal := ordinary droop s

/-- DROOP_RECOVERY (R366). -/
def execDroopRecovery (s : State) : Host.Outcome State Fault Refusal := ordinary droopEnd s

/-- GATE_CLOSE_REQUEST (R369). -/
def execGateCloseRequest (unit : Fin 16) (inFlight : Bool) (s : State) : Host.Outcome State Fault Refusal :=
  ordinary (fun s => gateClose s unit.val inFlight) s

/-- GATE_TIMEOUT (R369). -/
def execGateTimeout (unit : Fin 16) (s : State) : Host.Outcome State Fault Refusal := ordinary (fun s => gateTimeout s unit.val) s

/-- MODE_REQUEST (R371): a write of SYS_MODE.REQ. -/
def execModeRequest (path : Access) (req : BitVec 3) (s : State) : Host.Outcome State Fault Refusal :=
  ordinary (fun s => fieldWrite s path F.SYS_MODE_REQ req.toNat) s

/-- MODE_TRANSITION_DONE (R372). [log 4 DESIGN CHOICE, 108 DEDUCED] -/
def execModeTransitionDone (replies : List EnumReply) (s : State) : Host.Outcome State Fault Refusal := ordinary (linked fun s => attnRelease (modeDone (judgeTaken (wakePreload putPreload s)) replies)) s

/-- SENTRY_ENTRY (R373). -/
def execSentryEntry (s : State) : Host.Outcome State Fault Refusal := ordinary (linked sentryEntry) s

/-- WAKE_SOURCE (R373). -/
def execWakeSource (src : Wake) (s : State) : Host.Outcome State Fault Refusal :=
  ordinary (fun s => match src with
    | .vodan => wakeBy s 1 (s.on F.PWR_WAKE_SVC)
    | .sigdet => wakeBy s 2 (s.on F.PWR_WAKE_SIGDET)
    | .evtin n => wakeBy s 3 ((s.rd F.PWR_WAKE_EVTIN).testBit n.val)) s

/-- WAKE_TIMER_EXPIRE (R373). -/
def execWakeTimerExpire (s : State) : Host.Outcome State Fault Refusal := ordinary (fun s => wakeBy s 4 (s.on F.PWR_WAKE_TIMER)) s

/-- IMAGE_LOAD (R394). -/
def execImageLoad (sfdp : Option (BitVec 16 × Byte)) (ms : BitVec 16) (t0 t1 : Train) (flashOk : Bool) (s : State) :
    Host.Outcome State Fault Refusal :=
  flashing (fun s => judgeTaken (imageLoad putPreload s (sfdp.map fun e => (e.1.toNat, e.2.toNat)) ms.toNat t0 t1 flashOk)) s

end Sys2Proof.Machine
end

