-- ==== Sys2Proof/Machine/CmdUpd.lean ====
section
/-! DEFINITION. Machine/CmdUpd.lean: field update by packets and by the Vodan port, activation (chapter *Images, start-up loading and
field update*). -/
namespace Sys2Proof.Machine

/-- The UPDATE packet of SUB `sub` at the head of the ready queue executes and is answered by one ACK (R401). -/
def updateRun (sub : Nat) (s : State) : State :=
  takeReady s (fun c => c.type == 8 && beAt c.data 0 1 == sub) fun s x =>
    let r := updStep s sub (beAt x.pkt.data 1 1) (beAt x.pkt.data 2 4) (x.pkt.data.drop 8)
    updAck r.1 (beAt x.pkt.data 1 1) sub r.2

/-- UPDATE_OPEN (R397). -/
def execUpdateOpen (s : State) : Host.Outcome State Fault Refusal := flashing (updateRun 1) s

/-- UPDATE_DATA (R398). -/
def execUpdateData (s : State) : Host.Outcome State Fault Refusal := ordinary (updateRun 2) s

/-- UPDATE_CLOSE (R399). -/
def execUpdateClose (s : State) : Host.Outcome State Fault Refusal := ordinary (updateRun 3) s

/-- UPDATE_ABORT (R396). -/
def execUpdateAbort (s : State) : Host.Outcome State Fault Refusal := ordinary (updateRun 4) s

/-- UPDATE_QUERY (R401). -/
def execUpdateQuery (s : State) : Host.Outcome State Fault Refusal := ordinary (updateRun 5) s

/-- UPDATE_ACK_RX (R402). -/
def execUpdateAckRx (s : State) : Host.Outcome State Fault Refusal :=
  ordinary (fun s => takeUp s (fun c => c.type == 8) fun s u => retryHeads (updAckAccept s u.ring u.pkt)) s

/-- SESS_TIMEOUT (R396). -/
def execSessTimeout (s : State) : Host.Outcome State Fault Refusal := ordinary sessTimeout s

/-- VERIFY_DONE (R399). -/
def execVerifyDone (ok : Bool) (s : State) : Host.Outcome State Fault Refusal := flashing (fun s => verifyDone s ok) s

/-- FLASH_WRITE_DONE (R398). -/
def execFlashWriteDone (ok : Bool) (s : State) : Host.Outcome State Fault Refusal := flashing (fun s => flashDone s ok) s

/-- ACT_ENTRY_PROGRAMMED (R404). -/
def execActEntryProgrammed (ok : Bool) (s : State) : Host.Outcome State Fault Refusal := flashing (fun s => entryProgrammed s ok) s

/-- UPD_ACT (R406): a write of UPD_ACT with GO = 1. -/
def execUpdAct (path : Access) (w : Word) (s : State) : Host.Outcome State Fault Refusal :=
  ordinary (fun s => regWrite s path R.UPD_ACT (setBits w.toNat 0 1 1)) s

/-- SVC_PRESENT_EDGE (R403). -/
def execSvcPresentEdge (low : Bool) (s : State) : Host.Outcome State Fault Refusal := ordinary (fun s => svcEdge s low) s

/-- VODAN_ID (R403). -/
def execVodanId (crcOk : Bool) (s : State) : Host.Outcome State Fault Refusal := ordinary (fun s => vodanId s crcOk) s

/-- The words of a Vodan READ (R403). [log 114 DEDUCED] -/
def vodanWords : Nat → State → Nat → State × List Byte
  | 0, s, _ => (s, [])
  | n + 1, s, a =>
    let r := busRead s .vodan a true
    let q := vodanWords n r.1 (a + 4)
    (q.1, bytesBE 4 r.2 ++ q.2)

/-- VODAN_READ (R403): 1 to 16 words; a count beyond 16 reads 16. -/
def execVodanRead (crcOk : Bool) (addr : BitVec 25) (count : Byte) (s : State) : Host.Outcome State Fault Refusal :=
  ordinary (fun s => vodanRequest s crcOk fun s => let r := vodanWords (min 16 count.toNat) s addr.toNat; vodanReply r.1 0 r.2) s

/-- VODAN_WRITE (R403). -/
def execVodanWrite (crcOk : Bool) (addr : BitVec 25) (w : Word) (s : State) : Host.Outcome State Fault Refusal :=
  ordinary (linked fun s => vodanRequest s crcOk fun s =>
    if vodanMayWrite addr.toNat then vodanReply (retryHeads (busWrite s .vodan addr.toNat w.toNat).1) 0 [] else vodanReply s 0x12 []) s

/-- VODAN_OPEN (R403). -/
def execVodanOpen (crcOk : Bool) (slot : Byte) (total : Word) (number : Byte) (s : State) : Host.Outcome State Fault Refusal :=
  flashing (fun s => vodanSession s crcOk (fun s => updOpen s true number.toNat slot.toNat total.toNat) fun _ => []) s

/-- VODAN_DATA (R403). -/
def execVodanData (crcOk : Bool) (off : Word) (data : List Byte) (s : State) : Host.Outcome State Fault Refusal :=
  ordinary (fun s => vodanSession s crcOk (fun s => updData s true 0 off.toNat data) fun r => bytesBE 4 r.next) s

/-- VODAN_CLOSE (R403). -/
def execVodanClose (crcOk : Bool) (s : State) : Host.Outcome State Fault Refusal :=
  ordinary (fun s => vodanSession s crcOk (fun s => updClose s true 0) fun _ => []) s

/-- VODAN_ABORT (R403). -/
def execVodanAbort (crcOk : Bool) (force : Bool) (s : State) : Host.Outcome State Fault Refusal :=
  ordinary (fun s => vodanSession s crcOk (fun s => updAbort s true force 0) fun _ => []) s

/-- The number of the session that a service QUERY asks about: the open one, else the one under verification, else the last verified. [log 115 DEDUCED] -/
def queryNumber (s : State) : Nat :=
  match s.upd.session <|> s.upd.verifying with
  | some x => x.number
  | none => match s.upd.result with
    | some r => r.1
    | none => 0

/-- VODAN_QUERY (R403). -/
def execVodanQuery (crcOk : Bool) (s : State) : Host.Outcome State Fault Refusal :=
  ordinary (fun s => vodanSession s crcOk (fun s => (s, updQuery s (queryNumber s)))
    fun _ => regBytes s R.UPD_STAT ++ regBytes s R.UPD_SLOTA ++ regBytes s R.UPD_SLOTB) s

/-- VODAN_RESPONSE (R403). -/
def execVodanResponse (s : State) : Host.Outcome State Fault Refusal := ordinary vodanResponse s

end Sys2Proof.Machine
end

