-- ==== Sys2Proof/Machine/CmdObs.lean ====
section
/-! DEFINITION. Machine/CmdObs.lean: trace, counters and the test access port (chapter *Observation and test*). -/
namespace Sys2Proof.Machine

/-- OBS_TRACE_CLEAR (R412). -/
def execObsTraceClear (path : Access) (s : State) : Host.Outcome State Fault Refusal := ordinary (fun s => fieldWrite s path F.OBS_TCTL_CLEAR 1) s

/-- OBS_COUNTER_CLEAR (R414). -/
def execObsCounterClear (path : Access) (s : State) : Host.Outcome State Fault Refusal := ordinary (fun s => fieldWrite s path F.OBS_CCTL_CLR 1) s

/-- Bits of a shift register as a number, the first shifted in lowest. -/
def bitsNat : List Bool → Nat
  | [] => 0
  | b :: l => b2n b + 2 * bitsNat l

/-- IDCODE: version 1h, part 9610h, the maker's number, and the 1 of IEEE 1149.1. [log 116 PRESUMED] -/
def idcode : Nat := 0x10000000 + 0x9610 * 4096 + Config.jtagMaker.toNat * 2 + 1

/-- The BYPASS register is selected and captures 0 (R415). -/
def tapOff (t : Tap) : Tap := { t with ir := .bypass, dr := 0 }

/-- An instruction that acts only while PORST_N is low (R415); otherwise it acts as BYPASS. [log 116 PRESUMED] -/
def tapDrive (s : State) (f : Tap → Tap) : Tap := if s.sys.low = 1 then f s.tap else tapOff s.tap

/-- TAP_BYPASS (R415). [log 116 PRESUMED] -/
def execTapBypass (s : State) : Host.Outcome State Fault Refusal := tapping (fun s => tapOff s.tap) s

/-- TAP_IDCODE (R415). -/
def execTapIdcode (s : State) : Host.Outcome State Fault Refusal := tapping (fun s => { s.tap with ir := .idcode, dr := idcode }) s

/-- TAP_SAMPLE_PRELOAD (R415): the boundary cells capture the balls, and what is shifted in is preloaded. -/
def execTapSamplePreload (shifted sampled : List Bool) (s : State) : Host.Outcome State Fault Refusal :=
  tapping (fun _ => { ir := .samplePreload, dr := bitsNat sampled, boundary := bitsNat shifted }) s

/-- TAP_EXTEST (R415). -/
def execTapExtest (shifted sampled : List Bool) (s : State) : Host.Outcome State Fault Refusal :=
  tapping (fun s => tapDrive s fun _ => { ir := .extest, dr := bitsNat sampled, boundary := bitsNat shifted }) s

/-- TAP_CLAMP (R415). -/
def execTapClamp (s : State) : Host.Outcome State Fault Refusal := tapping (fun s => tapDrive s fun t => { t with ir := .clamp, dr := 0 }) s

/-- TAP_HIGHZ (R415). -/
def execTapHighz (s : State) : Host.Outcome State Fault Refusal := tapping (fun s => tapDrive s fun t => { t with ir := .highz, dr := 0 }) s

end Sys2Proof.Machine
end

