-- ==== Sys2Proof/Machine/Dispatch.lean ====
section
/-! DEFINITION. Machine/Dispatch.lean: one arm per command, each one call of its meaning. -/
namespace Sys2Proof.Machine

def exec (i : Instr) (s : State) : Host.Outcome State Fault Refusal :=
  match i with
  | .porstNAssert => Sys2Proof.Machine.execPorstNAssert s
  | .porstNRelease role xoDly => Sys2Proof.Machine.execPorstNRelease role xoDly s
  | .wrstNAssert => Sys2Proof.Machine.execWrstNAssert s
  | .wrstNRelease => Sys2Proof.Machine.execWrstNRelease s
  | .supplyMonitorLow => Sys2Proof.Machine.execSupplyMonitorLow s
  | .reedReady => Sys2Proof.Machine.execReedReady s
  | .crystalCheckDone ok => Sys2Proof.Machine.execCrystalCheckDone ok s
  | .pllLock pll => Sys2Proof.Machine.execPllLock pll s
  | .rampStep => Sys2Proof.Machine.execRampStep s
  | .clockMonitorTrip src => Sys2Proof.Machine.execClockMonitorTrip src s
  | .reedFail => Sys2Proof.Machine.execReedFail s
  | .reedRestartTimeout => Sys2Proof.Machine.execReedRestartTimeout s
  | .returnHoldExpire pll hitless => Sys2Proof.Machine.execReturnHoldExpire pll hitless s
  | .trimMeasurement src errPpm code lpoHz => Sys2Proof.Machine.execTrimMeasurement src errPpm code lpoHz s
  | .droopDetect => Sys2Proof.Machine.execDroopDetect s
  | .droopRecovery => Sys2Proof.Machine.execDroopRecovery s
  | .gateCloseRequest unit inFlight => Sys2Proof.Machine.execGateCloseRequest unit inFlight s
  | .gateTimeout unit => Sys2Proof.Machine.execGateTimeout unit s
  | .modeRequest path req => Sys2Proof.Machine.execModeRequest path req s
  | .modeTransitionDone replies => Sys2Proof.Machine.execModeTransitionDone replies s
  | .sentryEntry => Sys2Proof.Machine.execSentryEntry s
  | .wakeSource src => Sys2Proof.Machine.execWakeSource src s
  | .wakeTimerExpire => Sys2Proof.Machine.execWakeTimerExpire s
  | .imageLoad sfdp ms t0 t1 flashOk => Sys2Proof.Machine.execImageLoad sfdp ms t0 t1 flashOk s
  | .portEnable path p w => Sys2Proof.Machine.execPortEnable path p w s
  | .signalDetect p => Sys2Proof.Machine.execSignalDetect p s
  | .cdrLock p => Sys2Proof.Machine.execCdrLock p s
  | .blockLock p deskew => Sys2Proof.Machine.execBlockLock p deskew s
  | .bringupStepTimeout p => Sys2Proof.Machine.execBringupStepTimeout p s
  | .stableTimeExpire p => Sys2Proof.Machine.execStableTimeExpire p s
  | .trainTimeout p => Sys2Proof.Machine.execTrainTimeout p s
  | .trainGroupSend p stamp turnaround => Sys2Proof.Machine.execTrainGroupSend p stamp turnaround s
  | .trainGroupRx p blocks t4 => Sys2Proof.Machine.execTrainGroupRx p blocks t4 s
  | .lossOfSignal lane cut => Sys2Proof.Machine.execLossOfSignal lane cut s
  | .lossOfLock lane cut => Sys2Proof.Machine.execLossOfLock lane cut s
  | .blockLockLost lane cut => Sys2Proof.Machine.execBlockLockLost lane cut s
  | .hiberWindowEnd lane invalid => Sys2Proof.Machine.execHiberWindowEnd lane invalid s
  | .alignPairSend p => Sys2Proof.Machine.execAlignPairSend p s
  | .alignPairRx p paired inReach pairs => Sys2Proof.Machine.execAlignPairRx p paired inReach pairs s
  | .invalidBlockRx p second header line prev => Sys2Proof.Machine.execInvalidBlockRx p second header line prev s
  | .faultBlockRx p reason pos => Sys2Proof.Machine.execFaultBlockRx p reason pos s
  | .faultFillerSend p => Sys2Proof.Machine.execFaultFillerSend p s
  | .bypLoneExpire => Sys2Proof.Machine.execBypLoneExpire s
  | .bypSettleExpire => Sys2Proof.Machine.execBypSettleExpire s
  | .forceCloseWrite path w => Sys2Proof.Machine.execForceCloseWrite path w s
  | .bypassOpenFall cut => Sys2Proof.Machine.execBypassOpenFall cut s
  | .downPacketRx p c => Sys2Proof.Machine.execDownPacketRx p c s
  | .upPacketRx p c => Sys2Proof.Machine.execUpPacketRx p c s
  | .orderWaitExpire => Sys2Proof.Machine.execOrderWaitExpire s
  | .regwr => Sys2Proof.Machine.execRegwr s
  | .regrd => Sys2Proof.Machine.execRegrd s
  | .table => Sys2Proof.Machine.execTable s
  | .regrspRx => Sys2Proof.Machine.execRegrspRx s
  | .eventPacketRx => Sys2Proof.Machine.execEventPacketRx s
  | .echoSend p stamp turnaround => Sys2Proof.Machine.execEchoSend p stamp turnaround s
  | .echoRx p c t4 => Sys2Proof.Machine.execEchoRx p c t4 s
  | .slotTrainDue p free => Sys2Proof.Machine.execSlotTrainDue p free s
  | .openTrainRx p cut => Sys2Proof.Machine.execOpenTrainRx p cut s
  | .ringTableSend ring => Sys2Proof.Machine.execRingTableSend ring s
  | .ringTableRx => Sys2Proof.Machine.execRingTableRx s
  | .pixelSegmentRx crcUe => Sys2Proof.Machine.execPixelSegmentRx crcUe s
  | .wtIncWrite path w => Sys2Proof.Machine.execWtIncWrite path w s
  | .servoWdExpire => Sys2Proof.Machine.execServoWdExpire s
  | .freerunSet path => Sys2Proof.Machine.execFreerunSet path s
  | .freerunClr path => Sys2Proof.Machine.execFreerunClr path s
  | .wtStep path lo hi => Sys2Proof.Machine.execWtStep path lo hi s
  | .evtInEdge pin rising => Sys2Proof.Machine.execEvtInEdge pin rising s
  | .generatorEnable path n w => Sys2Proof.Machine.execGeneratorEnable path n w s
  | .bugleSend n low high mirror => Sys2Proof.Machine.execBugleSend n low high mirror s
  | .bugleRx p blocks => Sys2Proof.Machine.execBugleRx p blocks s
  | .otherDirectionFallback => Sys2Proof.Machine.execOtherDirectionFallback s
  | .fence frame => Sys2Proof.Machine.execFence frame s
  | .sysCommit path w => Sys2Proof.Machine.execSysCommit path w s
  | .registerWrite path addr w => Sys2Proof.Machine.execRegisterWrite path addr w s
  | .xaAbort path w => Sys2Proof.Machine.execXaAbort path w s
  | .xaPrepareSend xid data => Sys2Proof.Machine.execXaPrepareSend xid data s
  | .xaPrepareRx => Sys2Proof.Machine.execXaPrepareRx s
  | .xaPrepareCloseRx => Sys2Proof.Machine.execXaPrepareCloseRx s
  | .xaVoteSend xid => Sys2Proof.Machine.execXaVoteSend xid s
  | .xaVoteRx => Sys2Proof.Machine.execXaVoteRx s
  | .xaDeadline xid => Sys2Proof.Machine.execXaDeadline xid s
  | .xaArmackRx => Sys2Proof.Machine.execXaArmackRx s
  | .netPortUp n fecLock => Sys2Proof.Machine.execNetPortUp n fecLock s
  | .netPortDown n cause => Sys2Proof.Machine.execNetPortDown n cause s
  | .netFrameRx n bytes fcsOk drop fecCorr fecUncorr => Sys2Proof.Machine.execNetFrameRx n bytes fcsOk drop fecCorr fecUncorr s
  | .flowEnable path f w => Sys2Proof.Machine.execFlowEnable path f w s
  | .flowDisable path f w => Sys2Proof.Machine.execFlowDisable path f w s
  | .legLossTime f legB => Sys2Proof.Machine.execLegLossTime f legB s
  | .closeWaitExpire f => Sys2Proof.Machine.execCloseWaitExpire f s
  | .frameLossExpire f => Sys2Proof.Machine.execFrameLossExpire f s
  | .pairWaitExpire f => Sys2Proof.Machine.execPairWaitExpire f s
  | .hrxTailWrite path w descs => Sys2Proof.Machine.execHrxTailWrite path w descs s
  | .htxTailWrite path w descs => Sys2Proof.Machine.execHtxTailWrite path w descs s
  | .htxFrameDone bytes => Sys2Proof.Machine.execHtxFrameDone bytes s
  | .sendWindowClose ring => Sys2Proof.Machine.execSendWindowClose ring s
  | .mapperSegmentSend ring faults mapErr => Sys2Proof.Machine.execMapperSegmentSend ring faults mapErr s
  | .recordReadDone ring layer ue => Sys2Proof.Machine.execRecordReadDone ring layer ue s
  | .sealCheckDone ring layer => Sys2Proof.Machine.execSealCheckDone ring layer s
  | .readoutEnd lamps arrays => Sys2Proof.Machine.execReadoutEnd lamps arrays s
  | .loadDeadline undelivered lamps arrays => Sys2Proof.Machine.execLoadDeadline undelivered lamps arrays s
  | .readbackPassDone => Sys2Proof.Machine.execReadbackPassDone s
  | .lsWindowRead path addr => Sys2Proof.Machine.execLsWindowRead path addr s
  | .lsWindowWrite path addr w => Sys2Proof.Machine.execLsWindowWrite path addr w s
  | .pixBankCopy path => Sys2Proof.Machine.execPixBankCopy path s
  | .pixCopyDone => Sys2Proof.Machine.execPixCopyDone s
  | .pixBankSwap path => Sys2Proof.Machine.execPixBankSwap path s
  | .pixEnable path w => Sys2Proof.Machine.execPixEnable path w s
  | .lsScrub bank idx err => Sys2Proof.Machine.execLsScrub bank idx err s
  | .quietWake cause => Sys2Proof.Machine.execQuietWake cause s
  | .quietMaxExpire => Sys2Proof.Machine.execQuietMaxExpire s
  | .quietWakeDone => Sys2Proof.Machine.execQuietWakeDone s
  | .blendPassStart => Sys2Proof.Machine.execBlendPassStart s
  | .blendPassDone residue => Sys2Proof.Machine.execBlendPassDone residue s
  | .calKick path => Sys2Proof.Machine.execCalKick path s
  | .blendEnable path => Sys2Proof.Machine.execBlendEnable path s
  | .blendDisable path walked residue => Sys2Proof.Machine.execBlendDisable path walked residue s
  | .blendRetryExpire => Sys2Proof.Machine.execBlendRetryExpire s
  | .loopUpdate => Sys2Proof.Machine.execLoopUpdate s
  | .calCapture path => Sys2Proof.Machine.execCalCapture path s
  | .captureDone => Sys2Proof.Machine.execCaptureDone s
  | .calResetG path => Sys2Proof.Machine.execCalResetG path s
  | .ambDisable path => Sys2Proof.Machine.execAmbDisable path s
  | .drvEnable path => Sys2Proof.Machine.execDrvEnable path s
  | .drvEnum path => Sys2Proof.Machine.execDrvEnum path s
  | .maskClr path => Sys2Proof.Machine.execMaskClr path s
  | .lgClear path w => Sys2Proof.Machine.execLgClear path w s
  | .lightInstant replies => Sys2Proof.Machine.execLightInstant replies s
  | .scanSlotStart => Sys2Proof.Machine.execScanSlotStart s
  | .gapStart => Sys2Proof.Machine.execGapStart s
  | .pdCapture codes => Sys2Proof.Machine.execPdCapture codes s
  | .statReplyRx p bits crc => Sys2Proof.Machine.execStatReplyRx p bits crc s
  | .freadReplyRx p bits crc => Sys2Proof.Machine.execFreadReplyRx p bits crc s
  | .retReplyTimeout p => Sys2Proof.Machine.execRetReplyTimeout p s
  | .railPeriod v cur => Sys2Proof.Machine.execRailPeriod v cur s
  | .railUvTime v => Sys2Proof.Machine.execRailUvTime v s
  | .railRestart path => Sys2Proof.Machine.execRailRestart path s
  | .digestRx h ring frame digest => Sys2Proof.Machine.execDigestRx h ring frame digest s
  | .mirrorRegw h writes => Sys2Proof.Machine.execMirrorRegw h writes s
  | .mirrorDesc h ring index frame desc data => Sys2Proof.Machine.execMirrorDesc h ring index frame desc data s
  | .mirrorDramw h addr data => Sys2Proof.Machine.execMirrorDramw h addr data s
  | .mirrorDown h ring c => Sys2Proof.Machine.execMirrorDown h ring c s
  | .mirrorSeqmark h ring next ctrl => Sys2Proof.Machine.execMirrorSeqmark h ring next ctrl s
  | .mirrorUpfwd h ring east c => Sys2Proof.Machine.execMirrorUpfwd h ring east c s
  | .mirrorClose h f media missing => Sys2Proof.Machine.execMirrorClose h f media missing s
  | .mirrorLines h f media row data => Sys2Proof.Machine.execMirrorLines h f media row data s
  | .mirrorSample h ring layer frame media => Sys2Proof.Machine.execMirrorSample h ring layer frame media s
  | .mirrorXadec h xid fired target => Sys2Proof.Machine.execMirrorXadec h xid fired target s
  | .mirrorAckk h kind mseq result => Sys2Proof.Machine.execMirrorAckk h kind mseq result s
  | .mirrorClaim h mask frame => Sys2Proof.Machine.execMirrorClaim h mask frame s
  | .mirrorGrant h mask frame => Sys2Proof.Machine.execMirrorGrant h mask frame s
  | .mirrorLink h => Sys2Proof.Machine.execMirrorLink h s
  | .mirrorSync h item => Sys2Proof.Machine.execMirrorSync h item s
  | .mirrorResend chS => Sys2Proof.Machine.execMirrorResend chS s
  | .whistleSend ring => Sys2Proof.Machine.execWhistleSend ring s
  | .whistleRx p block => Sys2Proof.Machine.execWhistleRx p block s
  | .followLeaseTimeout => Sys2Proof.Machine.execFollowLeaseTimeout s
  | .leasePromotion ring => Sys2Proof.Machine.execLeasePromotion ring s
  | .seqFreeTimeout ring => Sys2Proof.Machine.execSeqFreeTimeout ring s
  | .revertClaim => Sys2Proof.Machine.execRevertClaim s
  | .splitRejoin => Sys2Proof.Machine.execSplitRejoin s
  | .redHandover path => Sys2Proof.Machine.execRedHandover path s
  | .ringsGo path => Sys2Proof.Machine.execRingsGo path s
  | .resync path => Sys2Proof.Machine.execResync path s
  | .hifDb path ring w => Sys2Proof.Machine.execHifDb path ring w s
  | .descriptorConsume ring desc => Sys2Proof.Machine.execDescriptorConsume ring desc s
  | .nop ring => Sys2Proof.Machine.execNop ring s
  | .fenceDesc ring => Sys2Proof.Machine.execFenceDesc ring s
  | .regWrite ring data => Sys2Proof.Machine.execRegWrite ring data s
  | .regRead ring => Sys2Proof.Machine.execRegRead ring s
  | .tableLoad ring data => Sys2Proof.Machine.execTableLoad ring data s
  | .layerFlip ring => Sys2Proof.Machine.execLayerFlip ring s
  | .mapLoad ring data => Sys2Proof.Machine.execMapLoad ring data s
  | .xaBegin ring => Sys2Proof.Machine.execXaBegin ring s
  | .xaAdd ring => Sys2Proof.Machine.execXaAdd ring s
  | .xaCommit ring => Sys2Proof.Machine.execXaCommit ring s
  | .updateBlock ring data => Sys2Proof.Machine.execUpdateBlock ring data s
  | .replyWaitExpire ring tag => Sys2Proof.Machine.execReplyWaitExpire ring tag s
  | .hifCpCons path ring w => Sys2Proof.Machine.execHifCpCons path ring w s
  | .commandRingDisable path ring w => Sys2Proof.Machine.execCommandRingDisable path ring w s
  | .bar0AccessErr addr => Sys2Proof.Machine.execBar0AccessErr addr s
  | .bar2Access off write len => Sys2Proof.Machine.execBar2Access off write len s
  | .functionLevelReset => Sys2Proof.Machine.execFunctionLevelReset s
  | .hotReset => Sys2Proof.Machine.execHotReset s
  | .pcieLinkDown => Sys2Proof.Machine.execPcieLinkDown s
  | .pcieLinkUp width speed bme => Sys2Proof.Machine.execPcieLinkUp width speed bme s
  | .sourceFiring src data => Sys2Proof.Machine.execSourceFiring src data s
  | .evcTcons path t w => Sys2Proof.Machine.execEvcTcons path t w s
  | .evcTeoi path t => Sys2Proof.Machine.execEvcTeoi path t s
  | .evcTargetEnable path t w => Sys2Proof.Machine.execEvcTargetEnable path t w s
  | .evcTargetDisable path t w => Sys2Proof.Machine.execEvcTargetDisable path t w s
  | .evcAwake path t awake => Sys2Proof.Machine.execEvcAwake path t awake s
  | .mcEnable path c w => Sys2Proof.Machine.execMcEnable path c w s
  | .mcTrainDone c t => Sys2Proof.Machine.execMcTrainDone c t s
  | .mcDisable path c w => Sys2Proof.Machine.execMcDisable path c w s
  | .refreshDue c rt => Sys2Proof.Machine.execRefreshDue c rt s
  | .srIdleExpire c => Sys2Proof.Machine.execSrIdleExpire c s
  | .selfRefreshExit c => Sys2Proof.Machine.execSelfRefreshExit c s
  | .recentringStep c abandoned shift eye => Sys2Proof.Machine.execRecentringStep c abandoned shift eye s
  | .patrolScrub c found pair => Sys2Proof.Machine.execPatrolScrub c found pair s
  | .mcFreqGo path c w => Sys2Proof.Machine.execMcFreqGo path c w s
  | .mcFreqDone c => Sys2Proof.Machine.execMcFreqDone c s
  | .caparAlert c attempts read => Sys2Proof.Machine.execCaparAlert c attempts read s
  | .hkRound => Sys2Proof.Machine.execHkRound s
  | .hkRoundEnd vals dieBad => Sys2Proof.Machine.execHkRoundEnd vals dieBad s
  | .restartWaitExpire => Sys2Proof.Machine.execRestartWaitExpire s
  | .updateOpen => Sys2Proof.Machine.execUpdateOpen s
  | .updateData => Sys2Proof.Machine.execUpdateData s
  | .updateClose => Sys2Proof.Machine.execUpdateClose s
  | .updateAbort => Sys2Proof.Machine.execUpdateAbort s
  | .updateQuery => Sys2Proof.Machine.execUpdateQuery s
  | .updateAckRx => Sys2Proof.Machine.execUpdateAckRx s
  | .sessTimeout => Sys2Proof.Machine.execSessTimeout s
  | .verifyDone ok => Sys2Proof.Machine.execVerifyDone ok s
  | .actEntryProgrammed ok => Sys2Proof.Machine.execActEntryProgrammed ok s
  | .updAct path w => Sys2Proof.Machine.execUpdAct path w s
  | .svcPresentEdge low => Sys2Proof.Machine.execSvcPresentEdge low s
  | .vodanId crcOk => Sys2Proof.Machine.execVodanId crcOk s
  | .vodanRead crcOk addr count => Sys2Proof.Machine.execVodanRead crcOk addr count s
  | .vodanWrite crcOk addr w => Sys2Proof.Machine.execVodanWrite crcOk addr w s
  | .vodanOpen crcOk slot total number => Sys2Proof.Machine.execVodanOpen crcOk slot total number s
  | .vodanData crcOk off data => Sys2Proof.Machine.execVodanData crcOk off data s
  | .vodanClose crcOk => Sys2Proof.Machine.execVodanClose crcOk s
  | .vodanAbort crcOk force => Sys2Proof.Machine.execVodanAbort crcOk force s
  | .vodanQuery crcOk => Sys2Proof.Machine.execVodanQuery crcOk s
  | .vodanResponse => Sys2Proof.Machine.execVodanResponse s
  | .obsTraceClear path => Sys2Proof.Machine.execObsTraceClear path s
  | .obsCounterClear path => Sys2Proof.Machine.execObsCounterClear path s
  | .tapBypass => Sys2Proof.Machine.execTapBypass s
  | .tapIdcode => Sys2Proof.Machine.execTapIdcode s
  | .tapSamplePreload shifted sampled => Sys2Proof.Machine.execTapSamplePreload shifted sampled s
  | .tapExtest shifted sampled => Sys2Proof.Machine.execTapExtest shifted sampled s
  | .tapClamp => Sys2Proof.Machine.execTapClamp s
  | .tapHighz => Sys2Proof.Machine.execTapHighz s
  | .registerRead path addr be => Sys2Proof.Machine.execRegisterRead path addr be s
  | .mirrorTimeoutExpire => Sys2Proof.Machine.execMirrorTimeoutExpire s
  | .seqmarkInterval => Sys2Proof.Machine.execSeqmarkInterval s
  | .flashWriteDone ok => Sys2Proof.Machine.execFlashWriteDone ok s
  | .pciePerstN => Sys2Proof.Machine.execPciePerstN s
  | .pllUnlock pll => Sys2Proof.Machine.execPllUnlock pll s

end Sys2Proof.Machine
end

