-- ==== Sys2Proof/Machine/Idle.lean ====
section
/-! DEFINITION. Machine/Idle.lean: what happens while no command waits: one tick of the wall clock. -/
namespace Sys2Proof.Machine

/-- One wall tick (R92: 4 ns of local time): wall time advances, notices that a minimum interval held back go out, milliseconds are
counted. The step does this on an empty queue (DESIGN CHOICE, log 1). [log 1 DESIGN CHOICE, 38 DEDUCED] -/
def tick (s : State) : State :=
  let t := wallTicks { s with now := s.now + 4000 } 1
  countMs (niTell (cplTell t)) s.now

/-- The tick as an outcome; like an ordinary command it leaves the straps, the flash, the test port and the queue alone. [log 1 DESIGN CHOICE] -/
def idle (s : State) : Host.Outcome State Fault Refusal := ordinary tick s

end Sys2Proof.Machine
end

