-- ==== Sys2Proof/Machine/Step.lean ====
section
/-! DEFINITION. Machine/Step.lean: one step of the block: the command at the front of the queue, or a wall tick. -/
namespace Sys2Proof.Machine

/-- One step: the command at the front of the queue runs on the state with the rest of it; on an empty queue the wall clock ticks. [log 1 DESIGN CHOICE, 106 DESIGN CHOICE] -/
def step (s : State) : Host.Outcome State Fault Refusal :=
  match s.pending with
  | [] => idle s
  | c :: l => exec c { s with pending := l }

/-- The state with the command that a word spells put in front of its queue; unchanged where the word spells none. [log 11 DESIGN CHOICE] -/
def State.withFetchWord (s : State) (nbits w : Nat) : State :=
  match decodeTableWord nbits w with
  | some c => { s with pending := c :: s.pending }
  | none => s

end Sys2Proof.Machine
end

