-- ==== Sys2Proof/Safety.lean ====
section
/-! DEFINITION. Safety.lean: the words in which statements speak of a run of the block: what a command answers, what it leaves alone, what it
sends, and the promises the spec makes of every state. -/
namespace Sys2Proof

open Sys2Proof.Machine

/-- A step that answers a next state. -/
def Goes (o : Host.Outcome State Fault Refusal) : Prop := ∃ t, o = .next t

/-- The command answers a next state, and `P` holds of it. -/
def Runs (c : Instr) (s : State) (P : State → Prop) : Prop := ∃ t, exec c s = .next t ∧ P t

/-- No filler train waits to carry an outbound packet (R82): none does between commands. -/
def NoTrain (s : State) : Prop := ∀ p : Fin 12, (s.port p.val).trainOwed = false

/-- `t` is `s` but for what reports: the event controller, the trace and the counters, what was sent with the line side of the lanes, the times of
limited reports, and the outbound queue with what waits for it. -/
structure Reports (s t : State) : Prop where
  strap : t.strap = s.strap
  now : t.now = s.now
  regs : t.regs = s.regs
  latch : t.latch = s.latch
  commit : t.commit = s.commit
  ports : NoTrain s → t.ports = s.ports
  wt : t.wt = s.wt
  xa : t.xa = s.xa
  hif : t.hif = s.hif
  dram : t.dram = s.dram
  pair : t.pair = s.pair
  ni : t.ni = s.ni
  cmp : t.cmp = s.cmp
  pix : t.pix = s.pix
  chk : t.chk = s.chk
  drv : t.drv = s.drv
  cal : t.cal = s.cal
  hk : t.hk = s.hk
  sys : t.sys = s.sys
  upd : t.upd = s.upd
  tap : t.tap = s.tap
  free : t.free = s.free
  pending : t.pending = s.pending
  ring_down : t.ring.down = s.ring.down
  ring_held : t.ring.held = s.ring.held
  ring_last : t.ring.last = s.ring.last
  ring_ready : t.ring.ready = s.ring.ready
  ring_pixels : t.ring.pixels = s.ring.pixels
  ring_ups : t.ring.ups = s.ring.ups
  ring_upReady : t.ring.upReady = s.ring.upReady
  ring_upSeq : NoTrain s → t.ring.upSeq = s.ring.upSeq
  ring_posCase : t.ring.posCase = s.ring.posCase
  ring_tableDue : t.ring.tableDue = s.ring.tableDue
  ring_tableHeld : t.ring.tableHeld = s.ring.tableHeld

/-- What is sent goes on from what was: `l` comes first. -/
def Sends (s t : State) (l : List Output) : Prop := ∃ r, t.out = s.out ++ l ++ r

/-- Among what is sent after `s`, `l` goes out in order. -/
def Emits (s t : State) (l : List Output) : Prop := ∃ a b, t.out = s.out ++ a ++ l ++ b

/-- An upward packet is in the outbound queue, or waits for an entry of it. -/
def Queued (t : State) (c : Copy) : Prop := ∃ e ∈ t.ring.outq ++ t.ring.waiting, e.pkt = c

/-- Nothing waits for an XID or for its turn: no command ring has a head that waits (R305), and no rate change waits for a FREE XID (R135). -/
def NoHeadWaits (s : State) : Prop := (∀ n : Fin 16, s.on (F.HIF_CR_STAT_WAITING n.val) = false) ∧ s.xa.autoWait = []

/-- The device is not one of an enabled sender pair, and nothing waits for an XID or for its turn (`NoHeadWaits`): a register access brings nothing about there. -/
def Alone (s : State) : Prop := pairEn s = false ∧ NoHeadWaits s

/-- A MIRROR packet reaches a member whose mirror port is UP in the order of its channel (R273). -/
def InOrder (h : MHead) (s : State) : Prop := mirrorUp s = true ∧ h.mseq.toNat = (s.chan (!h.chS)).rx

/-- The head of the MIRROR packet that a command brings. -/
def mirrorHead : Instr → Option MHead
  | .digestRx h _ _ _ | .mirrorRegw h _ | .mirrorDesc h _ _ _ _ _ | .mirrorDramw h _ _ | .mirrorDown h _ _ | .mirrorSeqmark h _ _ _
  | .mirrorUpfwd h _ _ _ | .mirrorClose h _ _ _ | .mirrorLines h _ _ _ _ | .mirrorSample h _ _ _ _ | .mirrorXadec h _ _ _
  | .mirrorAckk h _ _ _ | .mirrorClaim h _ _ | .mirrorGrant h _ _ | .mirrorLink h | .mirrorSync h _ => some h
  | _ => none

/-- A descriptor of TYPE `t` that command ring `n` consumed is the next it runs: nothing holds it back or refuses it, and nothing waits for an XID or for its turn
(R306, R292). -/
structure InHand (s : State) (n t : Nat) (j : Job) : Prop where
  next : (s.hif.jobs.find? fun k => k.ring % 16 == n && !k.ran) = some j
  ring : j.ring = n
  type : j.type = t
  turn : behind s j = false
  link : linkRefuses s t = false
  heads : NoHeadWaits s

/-- The row of a descriptor: its command ring and its TYPE (R310). -/
def descRow : Instr → Option (Nat × Nat)
  | .nop n => some (n.val, 1) | .fenceDesc n => some (n.val, 2) | .regWrite n _ => some (n.val, 3) | .regRead n => some (n.val, 4)
  | .tableLoad n _ => some (n.val, 5) | .layerFlip n => some (n.val, 6) | .mapLoad n _ => some (n.val, 7) | .xaBegin n => some (n.val, 8)
  | .xaAdd n => some (n.val, 9) | .xaCommit n => some (n.val, 10) | .updateBlock n _ => some (n.val, 11)
  | _ => none

/-- A descriptor of ring `n` ends: its job is gone, and an enabled completion ring has its record at the slot PROD named (R305, R307, R308). -/
def Completes (s t : State) (n : Nat) (j : Job) (r : CplRec) : Prop :=
  (∀ k ∈ t.hif.jobs, k.id ≠ j.id) ∧
  (s.on (F.HIF_CP_CTL_EN n) = true →
    t.rd (F.HIF_CP_PROD_PROD n) = (s.rd (F.HIF_CP_PROD_PROD n) + 1) % cpSize s n ∧
    Output.hostWrite (s.rd64 (F.HIF_CP_BASE_LO_BASE n) (F.HIF_CP_BASE_HI_BASE n) + 64 * s.rd (F.HIF_CP_PROD_PROD n))
      (r.toBytes (s.on (F.HIF_CP_PROD_PHASE n))) ∈ t.out)

/-- The LOAD words of the lamps `sent`, port by port and device by device, each lamp's 18-bit value in load order (R239, R243). -/
def loadWords (s : State) (dither : Bool) (sent : List LampOut) : List Output :=
  (usedPorts s).flatMap fun p => (List.range (dcount s p)).flatMap fun d =>
    let l := sent.filter fun o => lampPort o.lamp == p && lampDev o.lamp == d
    if l.isEmpty then [] else [.dlWord p (cmdWord opLoad d :: (l.map fun o => stage9 dither o.f).map dataWord)]

/-- What no event on a Coachline lane or port reaches: the picture, the drive, calibration, clocks, modes, housekeeping, images, held commits, and the
registers of every block but HIF, MC, LANE, CL, WT, XA, NI, CMP, CHK and RED. The one exception: a core PLL that runs from the lane PLL's reference goes to
Reed with it (R358), which CKG_STAT.CORE_SRC, bits [9:8], shows. -/
structure LaneFrame (s t : State) : Prop where
  strap : t.strap = s.strap
  now : t.now = s.now
  pix : t.pix = s.pix
  chk : t.chk = s.chk
  drv : t.drv = s.drv
  cal : t.cal = s.cal
  hk : t.hk = s.hk
  sys : t.sys = { s.sys with pllSrc := t.sys.pllSrc }
  upd : t.upd = s.upd
  commit : t.commit = s.commit
  core : t.reg R.CKG_STAT = s.reg R.CKG_STAT ∨ t.reg R.CKG_STAT = setBits (s.reg R.CKG_STAT) 8 2 0 ∧ t.rd F.CL_CLKSRC_REF = 0
  reg : ∀ a, a ≠ R.CKG_STAT → a / 65536 < 3 ∨ 11 ≤ a / 65536 ∧ a / 65536 ≤ 13 ∨ 16 ≤ a / 65536 → t.reg a = s.reg a

/-- The commands of the chapter *Coachline: lanes, blocks and bring-up* that no register access brings. -/
def laneRow : Instr → Bool
  | .signalDetect _ | .cdrLock _ | .blockLock _ _ | .bringupStepTimeout _ | .stableTimeExpire _ | .trainTimeout _ | .trainGroupSend _ _ _
  | .trainGroupRx _ _ _ | .lossOfSignal _ _ | .lossOfLock _ _ | .blockLockLost _ _ | .hiberWindowEnd _ _ | .alignPairSend _
  | .alignPairRx _ _ _ _ | .invalidBlockRx _ _ _ _ _ | .faultBlockRx _ _ _ | .faultFillerSend _ | .bypLoneExpire | .bypSettleExpire
  | .bypassOpenFall _ => true
  | _ => false

/-- The bytes of the golden image (R388: no command writes them). -/
def goldenBytes (s : State) : List (Nat × Byte) := s.upd.flash.filter fun e => decide (e.1 < goldenEnd)

/-- DRAM, the flash and the register file are in their canonical form: indexes rise, and DRAM and the flash list nothing that an unlisted byte
reads as. -/
def Memory.wf (s : State) : Bool :=
  Table.rises s.regs && Table.wf (fun _ => 0#8) s.dram.mem && Table.wf (fun _ => 0xFF#8) s.upd.flash

end Sys2Proof
end

