-- ==== Sys2Proof/Certificates/Slice0/Obligations.lean ====
section
/-! DEFINITION. Certificates/Slice0/Obligations.lean: what is claimed of the MF9610 model, for the provers. A clause `Runs c s P` says that
the command answers a next state with `P`; `Reports u t` that `t` is `u` but for events, traces, counters, what was sent and the outbound
queue; `Sends s t l` that `l` is sent first. -/

open Sys2Proof Sys2Proof.Machine

/-- For every command c, list l and state s, step of s with c :: l waiting is exec c on s with l waiting. (00_scope.md) -/
def Obligations.StepRunsTheFrontCommand : Prop :=
  ∀ (c : Instr) (l : List Instr) (s : State), step { s with pending := c :: l } = exec c { s with pending := l }

/-- On an empty queue step answers a next state in which local time is 4,000 ps later and the queue is still empty (the model's choice, log 1). (R92) -/
def Obligations.IdleStepTicks : Prop :=
  ∀ s : State, s.pending = [] → ∃ t, step s = .next t ∧ t.now = s.now + 4000 ∧ t.pending = []

/-- For every state, step answers a next state: no command stops with a fault or a refusal. For every command and state, exec answers a next state whose queue is the queue before it. (R6, R8, R10) -/
def Obligations.EveryCommandCompletes : Prop :=
  (∀ s : State, Goes (step s)) ∧ ∀ (c : Instr) (s : State), Runs c s fun t => t.pending = s.pending

/-- For every state and every step it takes, the flash bytes below C0_0000h after the step are those before it: list entries and reads alike. (R388) -/
def Obligations.GoldenImageNeverWritten : Prop :=
  ∀ s t : State, step s = .next t → goldenBytes t = goldenBytes s ∧ ∀ a, a < goldenEnd → flashByte t a = flashByte s a

/-- For every state and every step it takes, the straps (role, crystal delay, identity, factory trim) are unchanged unless the command at the front of the queue is PORST_N_RELEASE; that one keeps the identity and the trim. (R1, R9) -/
def Obligations.RoleFixedUntilPorst : Prop :=
  ∀ s t : State, step s = .next t →
    (t.strap = s.strap ∨ ∃ r d l, s.pending = .porstNRelease r d :: l) ∧ t.strap.uid = s.strap.uid ∧ t.strap.trim = s.strap.trim

/-- For every state and step, the queue after the step is the tail of the queue before it: commands leave first in, first out, and no command adds one. (00_scope.md) -/
def Obligations.QueueOnlyShrinks : Prop :=
  ∀ s t : State, step s = .next t → t.pending = s.pending.tail

/-- For every state in canonical form (register, DRAM and flash indexes rise strictly; DRAM and flash list no byte equal to what an unlisted one reads as), the state after any step is in canonical form. (R301, R341, R387, R9) -/
def Obligations.MemoryStaysCanonical : Prop :=
  ∀ s t : State, Memory.wf s = true → step s = .next t → Memory.wf t = true

/-- State.reset is in canonical form; its queue and its record of what was sent are empty; its DRAM and its flash list nothing. (R9) -/
def Obligations.ResetIsCanonical : Prop :=
  Memory.wf State.reset = true ∧ State.reset.pending = [] ∧ State.reset.out = [] ∧ State.reset.dram.mem = [] ∧ State.reset.upd.flash = []

/-- State.reset holds every register at its reset word; SYS_ID reads device 9610h, step 2.1; the mode is BYPASS, no descriptor is consumed, and every port is OFF. (R9, R26, R370, R43) -/
def Obligations.ResetLeavesEveryRegisterAtItsReset : Prop :=
  (∀ a, State.reset.reg a = (resetWord State.reset.strap a).toNat) ∧
  State.reset.rd F.SYS_ID_DEVICE = 0x9610 ∧ State.reset.rd F.SYS_ID_STEP_MAJ = 2 ∧ State.reset.rd F.SYS_ID_STEP_MIN = 1 ∧
  State.reset.rd F.SYS_MSTAT_MODE = 0 ∧ State.reset.hif.jobs = [] ∧ ∀ p : Fin 12, State.reset.pst p.val = 0

/-- For every state, register field f of up to 32 bits and value v: after the write f reads as v modulo its width; every field of another register and every field of the same register that does not overlap reads as before. (R5, R7) -/
def Obligations.RegisterReadsWhatWasWritten : Prop :=
  ∀ (s : State) (f g : FRef) (v : Nat), f.lo + f.w ≤ 32 → g.lo + g.w ≤ 32 →
    (s.wr f v).rd f = v % 2 ^ f.w ∧
    (g.addr ≠ f.addr ∨ g.lo + g.w ≤ f.lo ∨ f.lo + f.w ≤ g.lo → (s.wr f v).rd g = s.rd g)

/-- PORST_N_ASSERT and SUPPLY_MONITOR_LOW complete in every state: every part is as at reset for the straps and flash the device has, but for local time, the queue, the test port, and that PORST_N is low; BYPASS_OPEN and RAIL_EN are driven low. (R61, R9, R429) -/
def Obligations.PorstHoldsTheDeviceInReset : Prop :=
  ∀ (c : Instr) (s : State), c = .porstNAssert ∨ c = .supplyMonitorLow →
    Runs c s fun t => Sends s t [.pin pinBypassOpen 0, .pin pinRailEn 0] ∧
      Reports { State.fresh s.strap s.upd.flash with
                now := s.now, pending := s.pending, tap := s.tap, free := s.free, sys := { (State.fresh s.strap s.upd.flash).sys with low := 1 } } t

/-- PORST_N_RELEASE completes in every state: the role and the crystal delay are those of the straps, the identity, trim and flash stay; the mode is BYPASS. With ROLE 11b SYS_MSTAT.CAUSE is 9 and nothing starts; with any other role start-up is under way with cause 0. Every register but SYS_MSTAT is at its reset word. A test-port instruction that acts only while PORST_N is low is BYPASS from now on. (R1, R374, R357, R415) -/
def Obligations.PorstReleaseSamplesTheStraps : Prop :=
  ∀ (role dly : BitVec 2) (s : State),
    Runs (.porstNRelease role dly) s fun t =>
      t.strap = { s.strap with role := Role.ofCode role.toNat, xoDly := dly.toNat } ∧ t.upd.flash = s.upd.flash ∧ t.tap = tapReleased s.tap ∧
      (role = 3#2 → t.rd F.SYS_MSTAT_CAUSE = 9 ∧ t.sys.low = 3 ∧ t.sys.starting = none) ∧
      (role ≠ 3#2 → t.rd F.SYS_MSTAT_CAUSE = 0 ∧ t.sys.low = 0 ∧ t.sys.starting = some 0) ∧
      t.rd F.SYS_MSTAT_MODE = 0 ∧ ∀ a, a ≠ R.SYS_MSTAT → t.reg a = (resetWord t.strap a).toNat

/-- WRST_N_ASSERT completes in every state: straps, flash, queue and test port stay, BYPASS_OPEN and RAIL_EN are driven low first, every part but the registers is as at reset with WRST_N low, the mode is BYPASS and every port is OFF. From a state in canonical form, every register but those that show the crystal, SVC_PRESENT and the mask count holds its retained fields as they were and its reset value in the others. WRST_N_RELEASE with WRST_N low, the pair registers up to date: in a defined role start-up is under way with cause 1, and SYS_STRAP.XO_OK stays only where the crystal monitor is healthy; in role 11b CAUSE is 9 and nothing starts; the straps, the mode and every port's state stay. With WRST_N not low a release changes nothing. (R374, R9, R61) -/
def Obligations.WarmResetHoldsAndReleases : Prop :=
  (∀ s : State, Runs .wrstNAssert s fun t =>
      Sends s t [.pin pinBypassOpen 0, .pin pinRailEn 0] ∧ t.strap = s.strap ∧ t.upd.flash = s.upd.flash ∧
      t.rd F.SYS_MSTAT_MODE = 0 ∧ t.sys.low = 2 ∧ t.sys.starting = none ∧ (∀ p : Fin 12, t.pst p.val = 0) ∧
      Reports { State.fresh s.strap s.upd.flash with
                regs := t.regs, now := s.now, pending := s.pending, tap := s.tap, free := s.free,
                sys := { (State.fresh s.strap s.upd.flash).sys with low := 2, reedTrimmed := s.sys.reedTrimmed } } t) ∧
  (∀ (a : Nat) (s : State), Memory.wf s = true → a ≠ R.SYS_STRAP → a ≠ R.CKG_STAT → a ≠ R.UPD_STAT → a ≠ R.DRV_MASKCNT →
      Runs .wrstNAssert s fun t => t.reg a = ((BitVec.ofNat 32 (s.reg a) &&& BitVec.ofNat 32 (keepMask a)) |||
        (resetWord s.strap a &&& ~~~(BitVec.ofNat 32 (keepMask a)))).toNat) ∧
  (∀ s : State, s.sys.low = 2 → s.strap.role ≠ .reserved → linkCheck s = s →
      Runs .wrstNRelease s (Reports { s.wr F.SYS_STRAP_XO_OK (b2n (s.on F.SYS_STRAP_XO_OK && s.on F.CKG_STAT_XO_OK)) with
                                      sys := { s.sys with starting := some 1, low := 0 } })) ∧
  (∀ s : State, s.sys.low = 2 → s.strap.role = .reserved → linkCheck s = s →
      Runs .wrstNRelease s (Reports { s.wr F.SYS_MSTAT_CAUSE 9 with sys := { s.sys with low := 3 } })) ∧
  (∀ s : State, s.sys.low ≠ 2 → linkCheck s = s → Runs .wrstNRelease s (Reports s))

/-- REED_READY with the resets high: REED_READY = 1, no restart pends and no domain is held stopped; in reset nothing changes. CRYSTAL_CHECK_DONE with the resets high and not both XO_OK bits set: a pass sets XO_OK in both registers, a failure counts XO_TRIES up to 15, and nothing else changes; in reset or with both set nothing changes. PLL_LOCK of a used PLL x that is not locked, resets high, out of SENTRY, the crystal not awaited, with a healthy source: its LOCK bit is set and it runs from the first healthy source of its list, the core PLL off the Reed path with CORE_SRC naming it; with no healthy source nothing changes. PLL_UNLOCK of a locked PLL clears its LOCK bit and changes nothing else, of an unlocked one nothing. RAMP_STEP of a locked core PLL off the Reed path: the divider steps down by one and CORE_DIV shows it, nothing else changes; otherwise nothing changes. (R357, R358, R361, R363, R365, R376) -/
def Obligations.SourcesLockAndRamp : Prop :=
  (∀ s : State,
      (s.sys.low = 0 → Runs .reedReady s fun t => t.on F.CKG_STAT_REED_READY = true ∧ t.sys = { s.sys with reedRestart := false, stopped := [] }) ∧
      (s.sys.low ≠ 0 → Runs .reedReady s (Reports s))) ∧
  (∀ s : State, s.sys.low = 0 → (s.on F.SYS_STRAP_XO_OK && s.on F.CKG_STAT_XO_OK) = false →
      Runs (.crystalCheckDone true) s (Reports ((s.wr F.SYS_STRAP_XO_OK 1).wr F.CKG_STAT_XO_OK 1)) ∧
      Runs (.crystalCheckDone false) s (Reports (s.wr F.SYS_STRAP_XO_TRIES (min 15 (s.rd F.SYS_STRAP_XO_TRIES + 1))))) ∧
  (∀ (ok : Bool) (s : State), s.sys.low ≠ 0 ∨ (s.on F.SYS_STRAP_XO_OK && s.on F.CKG_STAT_XO_OK) = true → Runs (.crystalCheckDone ok) s (Reports s)) ∧
  (∀ (p : Fin 4) (s : State), pllUsed s p.val = true → s.sys.low = 0 → pllLocked s p.val = false →
      (s.mode ≠ mSentry ∨ s.sys.going ≠ none) → (p = 2 ∨ s.isCarriage = true ∨ s.sys.starting = none ∨ s.on F.SYS_STRAP_XO_OK = true) →
      (∀ x, pickSrc s p.val = some x → Runs (.pllLock p) s fun t => pllLocked t p.val = true ∧ t.sys.pllSrc.get 3 p.val = x ∧
        (p = 0 → t.rd F.CKG_STAT_CORE_SRC = x ∧ t.on F.CKG_STAT_REED_PATH = false)) ∧
      (pickSrc s p.val = none → Runs (.pllLock p) s (Reports s))) ∧
  (∀ (p : Fin 4) (s : State),
      (pllLocked s p.val = true → Runs (.pllUnlock p) s (Reports (s.wr F.CKG_STAT_LOCK (s.rd F.CKG_STAT_LOCK - 2 ^ p.val)))) ∧
      (pllLocked s p.val = false → Runs (.pllUnlock p) s (Reports s))) ∧
  (∀ s : State,
      (pllLocked s 0 = true → s.on F.CKG_STAT_REED_PATH = false →
        Runs .rampStep s (Reports { s.wr F.CKG_STAT_CORE_DIV (max (s.sys.ramp - 1) (s.rd F.CKG_STAT_DROOP)) with
                                    sys := { s.sys with ramp := s.sys.ramp - 1 } })) ∧
      (pllLocked s 0 = false ∨ s.on F.CKG_STAT_REED_PATH = true → Runs .rampStep s (Reports s)))

/-- CLOCK_MONITOR_TRIP clears what shows its source healthy, counts in CKG_MON.TRIPS, and a PLL other than the lane PLL that ran from Reed or the crystal leaves lock if that tripped. REED_FAIL clears REED_READY and REED_PATH and starts the restart. REED_RESTART_TIMEOUT of a restart with Reed still out: BYPASS with cause 8, every port OFF and no PLL locked. RETURN_HOLD_EXPIRE for a used, locked PLL but the lane PLL, with a better source x (a crystal that passed its check counts as healthy again): hitless, it is on x and still locked; otherwise it is to be on x and leaves lock for the Reed path. TRIM_MEASUREMENT with Reed ready: CKG_LPO shows the LPO's count; with TRIM_EN and the measurement that of the source selected, ERR and TRIMMED (error at most 50 ppm) show it, otherwise nothing else changes; with Reed not ready nothing changes. (R360, R361, R362, R364) -/
def Obligations.ClockFaultsMoveOn : Prop :=
  (∀ (x : Fin 3) (s : State), Runs (.clockMonitorTrip x) s fun t =>
      t.on (if x = 0 then F.CKG_STAT_REED_READY else if x = 1 then F.CKG_STAT_XO_OK else F.CKG_STAT_REFCLK_OK) = false ∧
      t.rd F.CKG_MON_TRIPS = satAdd F.CKG_MON_TRIPS.w (s.rd F.CKG_MON_TRIPS) 1 ∧
      ∀ p : Fin 4, x ≠ 2 → p ≠ 1 → pllUsed s p.val = true → srcOf s p.val = x.val → pllLocked t p.val = false) ∧
  (∀ s : State, Runs .reedFail s fun t => t.on F.CKG_STAT_REED_READY = false ∧ t.on F.CKG_STAT_REED_PATH = false ∧ t.sys.reedRestart = true) ∧
  (∀ s : State, s.sys.reedRestart = true → s.on F.CKG_STAT_REED_READY = false →
      Runs .reedRestartTimeout s fun t => t.rd F.SYS_MSTAT_MODE = 0 ∧ t.rd F.SYS_MSTAT_CAUSE = 8 ∧ t.rd F.CKG_STAT_LOCK = 0 ∧ t.sys.low = 3 ∧
        ∀ p : Fin 12, t.pst p.val = 0) ∧
  (∀ (p : Fin 4) (hitless : Bool) (s s0 : State) (x : Nat), p ≠ 1 → pllUsed s p.val = true → pllLocked s p.val = true →
      s0 = (if (pllList s p.val).contains 1 && s.on F.SYS_STRAP_XO_OK then s.wr F.CKG_STAT_XO_OK 1 else s) →
      pickSrc s0 p.val = some x → x ≠ srcOf s p.val →
      Runs (.returnHoldExpire p hitless) s fun t => pllLocked t p.val = hitless ∧ t.sys.pllSrc.get 3 p.val = x) ∧
  (∀ (x : Fin 4) (err : BitVec 16) (code : BitVec 10) (lpo : BitVec 24) (s : State),
      (s.on F.CKG_STAT_REED_READY = true → s.on F.CKG_CTL_TRIM_EN = true → trimSource s x.val = some x.val →
        Runs (.trimMeasurement x err code lpo) s fun t => t.rd F.CKG_TRIM_ERR = err.toNat ∧
          (t.on F.CKG_TRIM_TRIMMED = decide (err.toInt.natAbs ≤ 50)) ∧ t.rd F.CKG_LPO_CORR = lpo.toNat) ∧
      (s.on F.CKG_STAT_REED_READY = true → s.on F.CKG_CTL_TRIM_EN = false ∨ trimSource s x.val ≠ some x.val →
        Runs (.trimMeasurement x err code lpo) s (Reports (s.wr F.CKG_LPO_CORR lpo.toNat))) ∧
      (s.on F.CKG_STAT_REED_READY = false → Runs (.trimMeasurement x err code lpo) s (Reports s)))

/-- DROOP_DETECT while enabled and not drooping: DROOP = 1, CORE_DIV is at least 1 and COUNT counts; otherwise nothing changes. DROOP_RECOVERY of a droop: DROOP = 0 and CORE_DIV is the ramp's again, nothing else changes; without a droop nothing changes. GATE_CLOSE_REQUEST for a unit that its enable does not clock: with no access in flight its gate closes and no register changes, with one the request waits and nothing else changes; for a unit that is clocked nothing changes. GATE_TIMEOUT of a waiting request: it is given up and ABANDONED counts, nothing else changes; with none waiting nothing changes. (R366, R367, R369) -/
def Obligations.DroopAndGates : Prop :=
  (∀ s : State,
      (s.on F.PWR_DROOP_DROOP_EN = true → s.on F.CKG_STAT_DROOP = false →
        Runs .droopDetect s fun t => t.on F.CKG_STAT_DROOP = true ∧ t.rd F.CKG_STAT_CORE_DIV = max s.sys.ramp 1 % 2 ^ F.CKG_STAT_CORE_DIV.w ∧
          t.rd F.PWR_DROOP_COUNT = satAdd F.PWR_DROOP_COUNT.w (s.rd F.PWR_DROOP_COUNT) 1) ∧
      (s.on F.PWR_DROOP_DROOP_EN = false ∨ s.on F.CKG_STAT_DROOP = true → Runs .droopDetect s (Reports s)) ∧
      (s.on F.CKG_STAT_DROOP = true → Runs .droopRecovery s (Reports ((s.wr F.CKG_STAT_DROOP 0).wr F.CKG_STAT_CORE_DIV s.sys.ramp))) ∧
      (s.on F.CKG_STAT_DROOP = false → Runs .droopRecovery s (Reports s))) ∧
  (∀ (u : Fin 16) (s : State),
      (unitEnabled s u.val = false →
        Runs (.gateCloseRequest u false) s (fun t => t.sys.closed.testBit u.val = true ∧ t.sys.gates.testBit u.val = false ∧ t.regs = s.regs) ∧
        Runs (.gateCloseRequest u true) s (Reports { s with sys := { s.sys with gates := setBits s.sys.gates u.val 1 1 } })) ∧
      (∀ busy : Bool, unitEnabled s u.val = true → Runs (.gateCloseRequest u busy) s (Reports s)) ∧
      (s.sys.gates.testBit u.val = true →
        Runs (.gateTimeout u) s (Reports { s.wr F.PWR_GATE_ABANDONED (satAdd F.PWR_GATE_ABANDONED.w (s.rd F.PWR_GATE_ABANDONED) 1) with
                                           sys := { s.sys with gates := setBits s.sys.gates u.val 1 0 } })) ∧
      (s.sys.gates.testBit u.val = false → Runs (.gateTimeout u) s (Reports s)))

/-- MODE_REQUEST on a path that reaches the device, out of reset, start-up, transitions and SENTRY. At the local time of a fault's entry, a REQ below 6 is refused with reason 2. Otherwise, with a reason to refuse, RESULT = 3, REASON is it and the mode stays; without one, a request of another mode sets BUSY and the target and heads for the next mode on the way, but that of a carriage without a position for a mode that displays waits (the model's choice, log 145); and one of the mode in force gives RESULT = 1. MODE_TRANSITION_DONE of a transition to another mode than SENTRY: the mode is entered with its cause; where that mode is the target and no request waits, BUSY is 0 and no transition or start-up is under way. With no such transition the mode and what is under way stay. (R371, R372) -/
def Obligations.ModesAreRequestedAndEntered : Prop :=
  (∀ (path : Access) (req : BitVec 3) (s : State), reaches s path = true → s.sys.low = 0 → s.mode ≠ mSentry → s.sys.starting = none → s.sys.going = none →
      (s.sys.faultAt = s.now + 1 → req.toNat < 6 → Runs (.modeRequest path req) s fun t =>
        t.rd F.SYS_MSTAT_RESULT = 3 ∧ t.rd F.SYS_MSTAT_REASON = 2 ∧ t.mode = s.mode ∧ t.sys = s.sys) ∧
      (s.sys.faultAt ≠ s.now + 1 → Runs (.modeRequest path req) s fun t =>
        (∀ r, refusal s req.toNat = some r → t.rd F.SYS_MSTAT_RESULT = 3 ∧ t.rd F.SYS_MSTAT_REASON = r ∧ t.mode = s.mode ∧
          t.sys = { s.sys with waiting := none, askedAt := s.now + 1 }) ∧
        (refusal s req.toNat = none → req.toNat ≠ s.mode → noPlace s req.toNat = false → t.on F.SYS_MSTAT_BUSY = true ∧ t.sys.after = some (req.toNat, 2) ∧
          t.sys.going = some (nextHop s.mode req.toNat, 2) ∧ t.mode = s.mode) ∧
        (refusal s req.toNat = none → req.toNat ≠ s.mode → noPlace s req.toNat = true → t.mode = s.mode ∧
          t.sys = { s.sys with waiting := some req.toNat, askedAt := s.now + 1 }) ∧
        (refusal s req.toNat = none → req.toNat = s.mode → t.rd F.SYS_MSTAT_RESULT = 1 ∧ t.mode = s.mode ∧
          t.sys = { s.sys with waiting := none, askedAt := s.now + 1 }))) ∧
  (∀ (replies : List EnumReply) (s : State) (m c : Nat), s.sys.going = some (m, c) → m ≠ mSentry → s.sys.off < 65536 →
      Runs (.modeTransitionDone replies) s fun t => t.mode = m % 8 ∧ t.rd F.SYS_MSTAT_CAUSE = c % 16 ∧
        (s.sys.waiting = none → s.sys.preloadReq = none → (s.sys.after = none ∨ ∃ k, s.sys.after = some (m, k)) →
          t.on F.SYS_MSTAT_BUSY = false ∧ t.sys.going = none ∧ t.sys.starting = none)) ∧
  (∀ (replies : List EnumReply) (s : State), s.sys.going = none ∨ (∃ c, s.sys.going = some (mSentry, c)) →
      Runs (.modeTransitionDone replies) s fun t => t.mode = s.mode ∧ t.sys = s.sys)

/-- SENTRY_ENTRY of a transition to SENTRY: with no wake latched the mode is SENTRY, RESULT = 1, every port is OFF and no PLL is locked; with wake w latched RESULT = 2, BUSY = 0, PWR_WAKE.LAST is w and the mode stays. With no such transition, with the pair registers up to date, nothing changes. WAKE_SOURCE and WAKE_TIMER_EXPIRE enabled in PWR_WAKE: in SENTRY BUSY = 1 and a transition to STANDBY with cause 3 remembers the source; from the acceptance of a request for SENTRY on, the first is latched; nothing else changes. A source that is not enabled changes nothing. (R373, R370) -/
def Obligations.SentryAndWake : Prop :=
  (∀ (s : State) (c : Nat), s.sys.going = some (mSentry, c) → s.sys.wake = none →
      Runs .sentryEntry s fun t => t.mode = mSentry ∧ t.rd F.SYS_MSTAT_RESULT = 1 ∧ t.rd F.CKG_STAT_LOCK = 0 ∧ t.sys.going = none ∧
        ∀ p : Fin 12, t.pst p.val = 0) ∧
  (∀ (s : State) (c w : Nat), s.sys.going = some (mSentry, c) → s.sys.wake = some w →
      Runs .sentryEntry s fun t => t.mode = s.mode ∧ t.rd F.SYS_MSTAT_RESULT = 2 ∧ t.on F.SYS_MSTAT_BUSY = false ∧
        t.rd F.PWR_WAKE_LAST = w % 2 ^ F.PWR_WAKE_LAST.w ∧ t.sys.going = none) ∧
  (∀ s : State, (s.sys.going = none ∨ ∃ m c, s.sys.going = some (m, c) ∧ m ≠ mSentry) → linkCheck s = s → Runs .sentryEntry s (Reports s)) ∧
  (∀ (s : State) (c : Instr) (w : Nat) (en : Bool),
      (c = .wakeSource .vodan ∧ w = 1 ∧ en = s.on F.PWR_WAKE_SVC) ∨ (c = .wakeSource .sigdet ∧ w = 2 ∧ en = s.on F.PWR_WAKE_SIGDET) ∨
        (∃ n : Fin 4, c = .wakeSource (.evtin n) ∧ w = 3 ∧ en = (s.rd F.PWR_WAKE_EVTIN).testBit n.val) ∨
        (c = .wakeTimerExpire ∧ w = 4 ∧ en = s.on F.PWR_WAKE_TIMER) →
      (en = false → Runs c s (Reports s)) ∧
      (en = true → sleeping s = true → Runs c s (Reports { s with sys := { s.sys with wake := some (s.sys.wake.getD w) } })) ∧
      (en = true → s.mode = mSentry → s.sys.going = none →
        Runs c s (Reports { s.wr F.SYS_MSTAT_BUSY 1 with
                            sys := { s.sys with going := some (mStandby, 3), after := some (mStandby, 3), wake := some w } })))

/-- IMAGE_LOAD in start-up, with no transition under way and the core clock running: without a usable SFDP table the device stays in BYPASS with cause 10 and SFDP_BAD; where the attempts on the slots all fail it stays there with cause 11; where one succeeds LOADED = 1, LOADT.TIME is the time taken, and a transition to STANDBY with start-up's cause is under way. Outside start-up, in a transition, or with the core stopped, from a state in canonical form with no taken-over layer to judge, nothing changes. (R394, R393, R387, R374) -/
def Obligations.ImageLoadStartsOrStays : Prop :=
  (∀ (sfdp : Option (BitVec 16 × Byte)) (ms : BitVec 16) (t0 t1 : Train) (flashOk : Bool) (s : State) (cause : Nat),
    s.sys.starting = some cause → s.sys.going = none → (pllLocked s 0 = true ∨ s.on F.CKG_STAT_REED_PATH = true) →
    Runs (.imageLoad sfdp ms t0 t1 flashOk) s fun t =>
      match sfdp with
      | none => t.rd F.SYS_MSTAT_CAUSE = 10 ∧ t.on F.UPD_FLASH_SFDP_BAD = true ∧ t.sys.low = 3 ∧ t.sys.starting = none
      | some f =>
        let s0 := showSlots ((s.wr F.UPD_FLASH_SIZE f.1.toNat).wr F.UPD_FLASH_MHZ f.2.toNat)
        if (attempts putPreload t0 t1 flashOk 127 s0 (chooseSlot s0)).2 = true
        then t.on F.UPD_STAT_LOADED = true ∧ t.rd F.UPD_LOADT_TIME = ms.toNat ∧ t.on F.SYS_MSTAT_BUSY = true ∧
          t.sys.going = some (mStandby, cause)
        else t.rd F.SYS_MSTAT_CAUSE = 11 ∧ t.sys.low = 3 ∧ t.sys.starting = none) ∧
  (∀ (sfdp : Option (BitVec 16 × Byte)) (ms : BitVec 16) (t0 t1 : Train) (flashOk : Bool) (s : State), Memory.wf s = true → s.cmp.taken = [] →
    s.sys.starting = none ∨ s.sys.going ≠ none ∨ (pllLocked s 0 = false ∧ s.on F.CKG_STAT_REED_PATH = false) →
    Runs (.imageLoad sfdp ms t0 t1 flashOk) s (Reports s))

/-- While no mode request waits, every command of the lanes chapter that no register access brings leaves the picture, the comparison's state, the drive, calibration, clocks and modes, housekeeping, images, held commits and local time alone, and every register outside HIF, MC, LANE, CL, WT, XA, NI, CMP, CHK and RED; EVC is reported to, not written. The one exception: a core PLL that runs from the lane PLL's reference goes to Reed with it, and CKG_STAT.CORE_SRC shows that. (R43, R44, R46, R47, R56, R62, R358) -/
def Obligations.LaneEventsKeepTheRest : Prop :=
  ∀ (c : Instr) (s t : State), laneRow c = true → s.sys.waiting = none → exec c s = .next t → LaneFrame s t

/-- PORT_ENABLE by a path that reaches the device in a mode that lets ports run, of a port in OFF with EN = 0 whose lanes no other enabled port uses, no enabled network port claiming a lane of an enabled port and no other enabled port held in OFF: SEARCH. SIGNAL_DETECT in SEARCH on enabled lanes: CDR, SIGDET set. CDR_LOCK in CDR, its lanes without block lock: BLOCK, CDR_LOCK set. BLOCK_LOCK in BLOCK, deskewed if bonded, with no lane held down by HIBER, off the by-pass ring or with the switch open: STABLE, BLOCK_LOCK set; on the ring with the switch closed and a cause that holds it closed: it stays in BLOCK, BLOCK_LOCK set. STABLE_TIME_EXPIRE in STABLE: TRAIN, lanes stable. Every other port keeps its state. In any other state each of these four leaves the port's state. (R43, R35, R46, R59, R139) -/
def Obligations.PortsComeUpStepByStep : Prop :=
  (∀ (path : Access) (p : Fin 12) (w : Word) (s : State), reaches s path = true → addrOn s.strap.role (R.CL_PCFG p.val) = true →
      s.on (F.CL_PCFG_EN p.val) = false → s.pst p.val = 0 → portsRun s = true → (∀ q : Fin 12, s.on (F.CL_PCFG_EN q.val) = true → s.pst q.val ≠ 0) →
      (∀ q : Fin 12, q ≠ p → s.on (F.CL_PCFG_EN q.val) = true → bits w.toNat (F.CL_PCFG_LANE0 0).lo (F.CL_PCFG_LANE0 0).w ∉ portLanes s q.val ∧
        bits w.toNat (F.CL_PCFG_LANE1 0).lo (F.CL_PCFG_LANE1 0).w ∉ portLanes s q.val) →
      (∀ k : Fin 4, s.on (F.NI_PCFG_EN k.val) = true → s.rd (F.NI_PCFG_LANE k.val) ≠ bits w.toNat (F.CL_PCFG_LANE0 0).lo (F.CL_PCFG_LANE0 0).w ∧
        s.rd (F.NI_PCFG_LANE k.val) ≠ bits w.toNat (F.CL_PCFG_LANE1 0).lo (F.CL_PCFG_LANE1 0).w ∧
        ∀ q : Fin 12, s.on (F.CL_PCFG_EN q.val) = true → s.rd (F.NI_PCFG_LANE k.val) ∉ portLanes s q.val) →
      Runs (.portEnable path p w) s fun t => t.pst p.val = 1 ∧ t.on (F.CL_PCFG_EN p.val) = true ∧ ∀ q : Fin 12, q ≠ p → t.pst q.val = s.pst q.val) ∧
  (∀ (p : Fin 12) (s : State),
      (s.pst p.val = 1 → lanesHave s p.val F.LANE_CTL_EN = true →
        Runs (.signalDetect p) s fun t => t.pst p.val = 2 ∧ (∀ n ∈ portLanes s p.val, t.on (F.LANE_STAT_SIGDET n) = true) ∧
          ∀ q : Fin 12, q ≠ p → t.pst q.val = s.pst q.val) ∧
      (s.pst p.val ≠ 1 → Runs (.signalDetect p) s fun t => ∀ q : Fin 12, t.pst q.val = s.pst q.val)) ∧
  (∀ (p : Fin 12) (s : State),
      (s.pst p.val = 2 → lanesHave s p.val F.LANE_STAT_SIGDET = true → hasBlock s p.val = false →
        Runs (.cdrLock p) s fun t => t.pst p.val = 3 ∧ (∀ n ∈ portLanes s p.val, t.on (F.LANE_STAT_CDR_LOCK n) = true) ∧
          ∀ q : Fin 12, q ≠ p → t.pst q.val = s.pst q.val) ∧
      (s.pst p.val ≠ 2 → Runs (.cdrLock p) s fun t => ∀ q : Fin 12, t.pst q.val = s.pst q.val)) ∧
  (∀ (p : Fin 12) (deskew : Bool) (s : State),
      (s.pst p.val = 3 → lanesHave s p.val F.LANE_STAT_CDR_LOCK = true → (s.on (F.CL_PCFG_WIDTH2 p.val) = true → deskew = true) →
        (∀ n ∈ portLanes s p.val, s.on (F.LANE_STAT_HIBER n) = false ∨ s.on (F.LANE_QUAL_HIBER_DOWN n) = false) →
        (p.val ∉ ringPorts s ∨ s.on F.CL_BYP_BYP_STATE = true) →
        Runs (.blockLock p deskew) s fun t => t.pst p.val = 4 ∧ (∀ n ∈ portLanes s p.val, t.on (F.LANE_STAT_BLOCK_LOCK n) = true) ∧
          ∀ q : Fin 12, q ≠ p → t.pst q.val = s.pst q.val) ∧
      (s.pst p.val = 3 → lanesHave s p.val F.LANE_STAT_CDR_LOCK = true → p.val ∈ ringPorts s → s.on F.CL_BYP_BYP_STATE = false → closedCause s = true →
        Runs (.blockLock p deskew) s fun t => (∀ n ∈ portLanes s p.val, t.on (F.LANE_STAT_BLOCK_LOCK n) = true) ∧
          ∀ q : Fin 12, t.pst q.val = s.pst q.val) ∧
      (s.pst p.val ≠ 3 → Runs (.blockLock p deskew) s fun t => ∀ q : Fin 12, t.pst q.val = s.pst q.val)) ∧
  (∀ (p : Fin 12) (s : State),
      (s.pst p.val = 4 →
        Runs (.stableTimeExpire p) s fun t => t.pst p.val = 5 ∧ (∀ n ∈ portLanes s p.val, t.on (F.LANE_STAT_STABLE n) = true) ∧
          ∀ q : Fin 12, q ≠ p → t.pst q.val = s.pst q.val) ∧
      (s.pst p.val ≠ 4 → Runs (.stableTimeExpire p) s fun t => ∀ q : Fin 12, t.pst q.val = s.pst q.val))

/-- BRINGUP_STEP_TIMEOUT in CDR: SEARCH; in BLOCK without what BLOCK waits for: CDR. TRAIN_TIMEOUT in TRAIN: SEARCH. Every other port keeps its state. In any other state, and in BLOCK with what it waits for, with the pair registers up to date, nothing changes. (R43) -/
def Obligations.PortsFallBackOnTimeouts : Prop :=
  (∀ (p : Fin 12) (s : State), s.pst p.val = 2 →
      Runs (.bringupStepTimeout p) s fun t => t.pst p.val = 1 ∧ ∀ q : Fin 12, q ≠ p → t.pst q.val = s.pst q.val) ∧
  (∀ (p : Fin 12) (s : State), s.pst p.val = 3 → blockReady s p.val = false →
      Runs (.bringupStepTimeout p) s fun t => t.pst p.val = 2 ∧ ∀ q : Fin 12, q ≠ p → t.pst q.val = s.pst q.val) ∧
  (∀ (p : Fin 12) (s : State), linkCheck s = s → s.pst p.val ≠ 2 → s.pst p.val ≠ 3 ∨ blockReady s p.val = true → Runs (.bringupStepTimeout p) s (Reports s)) ∧
  (∀ (p : Fin 12) (s : State), s.pst p.val = 5 →
      Runs (.trainTimeout p) s fun t => t.pst p.val = 1 ∧ ∀ q : Fin 12, q ≠ p → t.pst q.val = s.pst q.val) ∧
  (∀ (p : Fin 12) (s : State), linkCheck s = s → s.pst p.val ≠ 5 → Runs (.trainTimeout p) s (Reports s))

/-- TRAIN_GROUP_SEND in TRAIN: a group of 24 bytes leaves the port with its stamp, the stamp last heard, the turnaround, the UID, and the CRC-16 of its first 22 bytes. Four TRAIN blocks of indexes 0 to 3 carry a group of 24 bytes whole. TRAIN_GROUP_RX in TRAIN or UP: a group in order with a good CRC leaves its identity in CL_PUID and its role in PARTNER_ROLE, and takes a port in UP to TRAIN; in TRAIN, off the by-pass ring, with 31 samples held, a valid one that keeps the spread, STABLE and ECHO_VALID set, rate and width the port's own and another's UID, the port is UP and CL_PDELAY is the delay of R50. A group out of order or with a bad CRC counts in CL_PFAULT.INVALID and leaves the port's state and CL_PUID as they were. In any other state, with the pair registers up to date, neither command changes anything. (R48, R49, R50, R51) -/
def Obligations.TrainGroupsAreExchanged : Prop :=
  (∀ (p : Fin 12) (stamp turn : Word) (s : State), s.pst p.val = 5 →
      Runs (.trainGroupSend p stamp turn) s fun t => ∃ g, Sends s t [.train p.val g] ∧ g.length = 24 ∧ beAt g 0 4 = stamp.toNat ∧
        beAt g 4 4 = (s.port p.val).lastStamp.getD 0 % 2 ^ 32 ∧ beAt g 8 4 = turn.toNat ∧ beAt g 12 8 = s.strap.uid % 2 ^ 64 ∧
        beAt g 22 2 = crc16 (g.take 22)) ∧
  (∀ g : List Byte, g.length = 24 → trainOf ((trainBlocks g).map fun x => x.block.payload) = some g) ∧
  (∀ (p : Fin 12) (bs : List (BitVec 64)) (g : List Byte) (t4 : Word) (s : State), s.pst p.val = 5 ∨ s.pst p.val = 6 → trainOf bs = some g →
      beAt g 22 2 = crc16 (g.take 22) →
      Runs (.trainGroupRx p bs t4) s fun t => t.rd64 (F.CL_PUID_LO_PUID p.val) (F.CL_PUID_HI_PUID p.val) = beAt g 12 8 ∧
        t.rd (F.CL_PSTAT_PARTNER_ROLE p.val) = bits (beAt g 20 1) 2 2 ∧ (s.pst p.val = 6 → t.pst p.val = 5)) ∧
  (∀ (p : Fin 12) (bs : List (BitVec 64)) (g : List Byte) (t4 : Word) (v : Nat) (s : State), s.pst p.val = 5 → p.val ∉ ringPorts s → trainOf bs = some g →
      beAt g 22 2 = crc16 (g.take 22) → bits (beAt g 20 1) 4 2 = 3 → bits (beAt g 20 1) 7 1 = portRate s p.val →
      (beAt g 20 1).testBit 6 = s.on (F.CL_PCFG_WIDTH2 p.val) → beAt g 12 8 ≠ s.strap.uid → (s.port p.val).samples.length = 31 →
      rttSample (beAt g 4 4) t4.toNat (beAt g 8 4) = some v → spreadOk ((s.port p.val).samples ++ [v]) = true →
      Runs (.trainGroupRx p bs t4) s fun t => t.pst p.val = 6 ∧ t.rd (F.CL_PDELAY_DELAY p.val) =
        toBits (delayPs (portRate s p.val) ((s.port p.val).samples ++ [v]) (s.rdS (F.CL_PASYM_ASYM p.val))) 32) ∧
  (∀ (p : Fin 12) (bs : List (BitVec 64)) (t4 : Word) (s : State), s.pst p.val = 5 ∨ s.pst p.val = 6 →
      (∀ g, trainOf bs = some g → beAt g 22 2 ≠ crc16 (g.take 22)) →
      Runs (.trainGroupRx p bs t4) s fun t => t.rd (F.CL_PFAULT_INVALID p.val) = satAdd (F.CL_PFAULT_INVALID p.val).w (s.rd (F.CL_PFAULT_INVALID p.val)) 1 ∧
        t.pst p.val = s.pst p.val ∧
        t.rd64 (F.CL_PUID_LO_PUID p.val) (F.CL_PUID_HI_PUID p.val) = s.rd64 (F.CL_PUID_LO_PUID p.val) (F.CL_PUID_HI_PUID p.val)) ∧
  (∀ (p : Fin 12) (bs : List (BitVec 64)) (t4 stamp turn : Word) (s : State), linkCheck s = s → s.pst p.val ≠ 5 →
      Runs (.trainGroupSend p stamp turn) s (Reports s) ∧ (s.pst p.val ≠ 6 → Runs (.trainGroupRx p bs t4) s (Reports s)))

/-- LOSS_OF_SIGNAL, LOSS_OF_LOCK and BLOCK_LOCK_LOST on a lane of a port out of OFF: the condition and those above it read 0 on the lane, those below it stay. In SETTLE the port stays there; in any other state a port above the one that waits for the condition falls to it (SEARCH, CDR, BLOCK), unless the by-pass switch closes and its ring ports go to SETTLE. On a lane of a port in OFF, with the pair registers up to date, nothing changes. HIBER_WINDOW_END of a lane of a port out of OFF counts the invalid headers, HIBER says whether they passed the threshold, and the port keeps its state; but with HIBER_DOWN, HIBER just set, a port above BLOCK falls to it. (R44, R46, R47, R60, R62) -/
def Obligations.LaneLossesFallBack : Prop :=
  (∀ (n : Fin 16) (cut : Bool) (s : State) (p : Nat), laneOwner s n.val = some p → s.pst p ≠ 0 →
      (Runs (.lossOfSignal n cut) s fun t => t.on (F.LANE_STAT_SIGDET n.val) = false ∧ t.on (F.LANE_STAT_CDR_LOCK n.val) = false ∧
        t.on (F.LANE_STAT_BLOCK_LOCK n.val) = false ∧ (s.pst p = 7 → t.pst p = 7) ∧
        (s.pst p ≠ 7 → t.pst p = min (s.pst p) 1 ∨ p ∈ ringPorts s ∧ t.pst p = 7)) ∧
      (Runs (.lossOfLock n cut) s fun t => t.on (F.LANE_STAT_CDR_LOCK n.val) = false ∧ t.on (F.LANE_STAT_BLOCK_LOCK n.val) = false ∧
        t.on (F.LANE_STAT_SIGDET n.val) = s.on (F.LANE_STAT_SIGDET n.val) ∧ (s.pst p = 7 → t.pst p = 7) ∧
        (s.pst p ≠ 7 → t.pst p = min (s.pst p) 2 ∨ p ∈ ringPorts s ∧ t.pst p = 7)) ∧
      (Runs (.blockLockLost n cut) s fun t => t.on (F.LANE_STAT_BLOCK_LOCK n.val) = false ∧
        t.on (F.LANE_STAT_CDR_LOCK n.val) = s.on (F.LANE_STAT_CDR_LOCK n.val) ∧ (s.pst p = 7 → t.pst p = 7) ∧
        (s.pst p ≠ 7 → t.pst p = min (s.pst p) 3 ∨ p ∈ ringPorts s ∧ t.pst p = 7))) ∧
  (∀ (n : Fin 16) (cut : Bool) (c : Instr) (s : State) (p : Nat), laneOwner s n.val = some p → s.pst p = 0 → linkCheck s = s →
      c = .lossOfSignal n cut ∨ c = .lossOfLock n cut ∨ c = .blockLockLost n cut → Runs c s (Reports s)) ∧
  (∀ (n : Fin 16) (bad : Word) (s : State) (p : Nat), laneOwner s n.val = some p → s.pst p ≠ 0 →
      Runs (.hiberWindowEnd n bad) s fun t => t.on (F.LANE_STAT_HIBER n.val) = decide (s.rd1 (F.LANE_QUAL_BER_THR n.val) < bad.toNat) ∧
        t.rd (F.LANE_SHERR_SH_ERR n.val) = satAdd (F.LANE_SHERR_SH_ERR n.val).w (s.rd (F.LANE_SHERR_SH_ERR n.val)) bad.toNat ∧
        (s.on (F.LANE_QUAL_HIBER_DOWN n.val) = false → t.pst p = s.pst p) ∧
        (s.on (F.LANE_QUAL_HIBER_DOWN n.val) = true → s.on (F.LANE_STAT_HIBER n.val) = false → s.rd1 (F.LANE_QUAL_BER_THR n.val) < bad.toNat →
          t.pst p = if s.pst p = 7 then 7 else min (s.pst p) 3))

/-- What a transmitter scrambles a receiver that starts from the same 58 bits descrambles, and a receiver that starts from other bits agrees from the 59th bit on. ALIGN_PAIR_SEND on a bonded port out of OFF that forwards nothing sends the pair with its count, which goes up by one; otherwise nothing changes. ALIGN_PAIR_RX on a bonded port with block lock, out of OFF and SETTLE: a pair within reach deskews its lanes and goes on out of the port that forwards; otherwise the lanes read no deskew and no block lock, and a port above BLOCK falls to it. INVALID_BLOCK_RX of a block that is none of R39, out of OFF and SETTLE, counts in CL_PFAULT.INVALID, and a FAULT block of reason 01h with the own position leaves in its place where the port forwards; a valid block changes nothing. FAULT_BLOCK_RX on a port that is UP counts in FAULT_RX and goes on unchanged where the port forwards; of reason 02h on a ring port the feed is lost; on another port nothing changes. FAULT_FILLER_SEND of a filling transmitter sends a FAULT block of reason 02h with the own position; of one that does not fill nothing changes. (R36, R37, R38, R39, R40, R41, R42, R56, R77, R82) -/
def Obligations.AlignFaultAndFillerBlocks : Prop :=
  (∀ (k : BitVec 58) (l : List Bool), (descramble k (scramble k l).1).1 = l) ∧
  (∀ (j k : BitVec 58) (l : List Bool), ((descramble j l).1).drop 58 = ((descramble k l).1).drop 58) ∧
  (∀ (p : Fin 12) (s : State),
      (s.pst p.val ≠ 0 → s.on (F.CL_PCFG_WIDTH2 p.val) = true → (∀ q, otherPort s p.val = some q → p.val ∈ ringPorts s → forwardsTo s q ≠ some p.val) →
        Runs (.alignPairSend p) s fun t => Sends s t [.align p.val (s.port p.val).alignCount] ∧
          Reports (s.modPort p.val fun x => { x with alignCount := (x.alignCount + 1) % 2 ^ 32 }) t) ∧
      (s.pst p.val = 0 ∨ s.on (F.CL_PCFG_WIDTH2 p.val) = false ∨ (∃ q, otherPort s p.val = some q ∧ p.val ∈ ringPorts s ∧ forwardsTo s q = some p.val) →
        Runs (.alignPairSend p) s (Reports s))) ∧
  (∀ (p : Fin 12) (paired near : Bool) (pairs : Word) (s : State), judged s p.val = true → s.on (F.CL_PCFG_WIDTH2 p.val) = true →
      lanesHave s p.val F.LANE_STAT_BLOCK_LOCK = true →
      ((paired && near) = true → Runs (.alignPairRx p paired near pairs) s fun t => (∀ n ∈ portLanes s p.val, t.on (F.LANE_STAT_DESKEW_OK n) = true) ∧
        ∀ q, forwardsTo s p.val = some q → Output.align q pairs.toNat ∈ t.out) ∧
      ((paired && near) = false → Runs (.alignPairRx p paired near pairs) s fun t => t.pst p.val = min (s.pst p.val) 3 ∧
        ∀ n ∈ portLanes s p.val, t.on (F.LANE_STAT_DESKEW_OK n) = false ∧ t.on (F.LANE_STAT_BLOCK_LOCK n) = false)) ∧
  (∀ (p : Fin 12) (second : Bool) (h : BitVec 2) (l : BitVec 64) (prev : BitVec 58) (n : Nat) (s : State),
      n = (portLanes s p.val).getD (b2n second) (s.rd (F.CL_PCFG_LANE0 p.val)) →
      ((rxBlock s n h l prev).kind = none → judged s p.val = true → Runs (.invalidBlockRx p second h l prev) s fun t =>
        Reports (s.bump (F.CL_PFAULT_INVALID p.val) 1) t ∧ ∀ q, forwardsTo s p.val = some q → Output.faultBlock q 1 (ownPos s) ∈ t.out) ∧
      ((rxBlock s n h l prev).kind ≠ none ∨ judged s p.val = false → Runs (.invalidBlockRx p second h l prev) s (Reports s))) ∧
  (∀ (p : Fin 12) (reason : Byte) (pos : BitVec 6) (s : State),
      (s.isUp p.val = true → Runs (.faultBlockRx p reason pos) s fun t =>
        t.rd (F.CL_PFAULT_FAULT_RX p.val) = satAdd (F.CL_PFAULT_FAULT_RX p.val).w (s.rd (F.CL_PFAULT_FAULT_RX p.val)) 1 ∧
        (∀ q, forwardsTo s p.val = some q → Output.faultBlock q reason.toNat pos.toNat ∈ t.out) ∧
        (reason = 2#8 → p.val ∈ ringPorts s → (t.port p.val).feedLost = true) ∧
        ∀ q : Fin 12, t.pst q.val = s.pst q.val) ∧
      (s.isUp p.val = false → Runs (.faultBlockRx p reason pos) s (Reports s))) ∧
  (∀ (p : Fin 12) (s : State),
      ((s.port p.val).filler = true → (s.isUp p.val = true ∨ s.pst p.val = 7) →
        Runs (.faultFillerSend p) s fun t => Sends s t [.faultBlock p.val 2 (ownPos s)]) ∧
      ((s.port p.val).filler = false → Runs (.faultFillerSend p) s (Reports s)))

/-- BYP_LONE_EXPIRE with the switch closed, BYP_LONE on, no cause that holds it closed, and block lock on one ring port while the other is silent: it opens, BYPASS_OPEN is driven high, and the ring ports not OFF go to SETTLE; with BYP_LONE off or a cause, with the pair registers up to date, nothing changes. BYP_SETTLE_EXPIRE: ring ports in SETTLE go to SEARCH, all others stay. FORCE_CLOSE_WRITE by a path that reaches the device: with FORCE_CLOSE = 1 an open switch closes, BYPASS_OPEN is driven low, and the ring ports not OFF go to SETTLE; with FORCE_CLOSE = 0 where it was 1, no other cause, and both ring ports in BLOCK with block lock, the switch opens and they go to SETTLE. BYPASS_OPEN_FALL while a cause holds closes an open switch likewise; without a cause, with the pair registers up to date, nothing changes. (R59, R60, R61, R62) -/
def Obligations.BypassSwitch : Prop :=
  (∀ (s : State) (p q : Nat), (ringPorts s = [p, q] ∨ ringPorts s = [q, p]) → s.on F.CL_BYP_BYP_STATE = false → closedCause s = false →
      s.on F.CL_TIMERS_BYP_LONE = true → hasBlock s p = true → (∀ n ∈ portLanes s q, s.on (F.LANE_STAT_SIGDET n) = false) →
      Runs .bypLoneExpire s fun t => t.on F.CL_BYP_BYP_STATE = true ∧ Output.pin pinBypassOpen 1 ∈ t.out ∧
        ∀ r ∈ ringPorts s, s.pst r ≠ 0 → t.pst r = 7) ∧
  (∀ s : State, linkCheck s = s → s.on F.CL_TIMERS_BYP_LONE = false ∨ closedCause s = true → Runs .bypLoneExpire s (Reports s)) ∧
  (∀ s : State, Runs .bypSettleExpire s fun t =>
      (∀ p ∈ ringPorts s, s.pst p = 7 → t.pst p = 1) ∧ (∀ p : Fin 12, p.val ∉ ringPorts s ∨ s.pst p.val ≠ 7 → t.pst p.val = s.pst p.val) ∧
      t.on F.CL_BYP_BYP_STATE = s.on F.CL_BYP_BYP_STATE) ∧
  (∀ (path : Access) (w : Word) (s : State), reaches s path = true → addrOn s.strap.role R.CL_BYP = true →
      (s.on F.CL_BYP_BYP_STATE = true → w.toNat.testBit F.CL_BYP_FORCE_CLOSE.lo = true →
        Runs (.forceCloseWrite path w) s fun t => t.on F.CL_BYP_FORCE_CLOSE = true ∧ t.on F.CL_BYP_BYP_STATE = false ∧
          Output.pin pinBypassOpen 0 ∈ t.out ∧ ∀ r ∈ ringPorts s, s.pst r ≠ 0 → t.pst r = 7) ∧
      (∀ p q, ringPorts s = [p, q] → s.on F.CL_BYP_BYP_STATE = false → s.on F.CL_BYP_FORCE_CLOSE = true → w.toNat.testBit F.CL_BYP_FORCE_CLOSE.lo = false →
        closedCause (s.wr F.CL_BYP_FORCE_CLOSE 0) = false → (∀ r ∈ ringPorts s, s.pst r = 3 ∧ hasBlock s r = true) →
        Runs (.forceCloseWrite path w) s fun t => t.on F.CL_BYP_FORCE_CLOSE = false ∧ t.on F.CL_BYP_BYP_STATE = true ∧
          Output.pin pinBypassOpen 1 ∈ t.out ∧ ∀ r ∈ ringPorts s, t.pst r = 7)) ∧
  (∀ (cut : Bool) (s : State), s.on F.CL_BYP_BYP_STATE = true → closedCause s = true →
      Runs (.bypassOpenFall cut) s fun t => t.on F.CL_BYP_BYP_STATE = false ∧ Output.pin pinBypassOpen 0 ∈ t.out ∧
        ∀ r ∈ ringPorts s, s.pst r ≠ 0 → t.pst r = 7) ∧
  (∀ (cut : Bool) (s : State), closedCause s = false → linkCheck s = s → Runs (.bypassOpenFall cut) s (Reports s))

/-- DOWN_PACKET_RX of an intact copy but ECHO on a ring port that forwards to q: the copy goes on unchanged out of q, and the window of R73 moves as its SEQ says. A duplicate or stale SEQ brings nothing to the picture's queue, the packets held or those to execute. If the window accepts it, its route names this device and no packet is held: a PIXEL copy joins the picture's queue, an executable control packet but REGRD that is the first or next in order joins the packets to execute and is the last one executed. A broken copy goes on unchanged, and the window, the queues and the packets held stay. UP_PACKET_RX of an intact copy on such a port: it goes on unchanged and nothing is taken. On a port that is not UP neither changes anything. (R66, R73, R75, R19) -/
def Obligations.DownwardCopiesAreMergedAndForwarded : Prop :=
  (∀ (p : Fin 12) (q : Nat) (c : Copy) (s : State), c.type ≠ 10 → c.up = false → intact c = true → s.isUp p.val = true →
      (ringPorts s).contains p.val = true → forwardsTo s p.val = some q →
      Runs (.downPacketRx p c) s fun t => Emits s t [.packet q c] ∧ t.ring.down = (s.ring.down.offer 16384 c.seq.toNat).2 ∧
        ((s.ring.down.offer 16384 c.seq.toNat).1 ≠ .accept → t.ring.pixels = s.ring.pixels ∧ t.ring.held = s.ring.held ∧ t.ring.ready = s.ring.ready) ∧
        ∀ b, (s.ring.down.offer 16384 c.seq.toNat).1 = .accept → readRoute s c.route.toNat = .here b → s.ring.held = [] →
          (c.type = 1 → t.ring.pixels = s.ring.pixels ++ [c] ∧ t.ring.ready = s.ring.ready ∧ t.ring.held = []) ∧
          (c.type ≠ 1 → executable c = true → c.type ≠ 3 →
            (s.ring.last = none ∨ ∃ n, s.ring.last = some n ∧ c.seq.toNat = (n + 1) % 65536) →
            t.ring.ready = s.ring.ready ++ [⟨c, false⟩] ∧ t.ring.held = [] ∧ t.ring.last = some c.seq.toNat ∧ t.ring.pixels = s.ring.pixels)) ∧
  (∀ (p : Fin 12) (q : Nat) (c : Copy) (s : State), c.up = false → intact c = false → s.isUp p.val = true →
      (ringPorts s).contains p.val = true → forwardsTo s p.val = some q →
      Runs (.downPacketRx p c) s fun t => Emits s t [.packet q c] ∧ t.ring.down = s.ring.down ∧ t.ring.pixels = s.ring.pixels ∧
        t.ring.held = s.ring.held ∧ t.ring.ready = s.ring.ready) ∧
  (∀ (p : Fin 12) (q : Nat) (c : Copy) (s : State), c.type ≠ 10 → c.up = true → intact c = true → s.isUp p.val = true →
      (ringPorts s).contains p.val = true → forwardsTo s p.val = some q →
      Runs (.upPacketRx p c) s fun t => Emits s t [.packet q c] ∧ t.ring.ready = s.ring.ready ∧ t.ring.upReady = s.ring.upReady ∧
        t.ring.down = s.ring.down ∧ t.ring.pixels = s.ring.pixels) ∧
  (∀ (p : Fin 12) (c : Copy) (s : State), s.isUp p.val = false →
      Runs (.downPacketRx p c) s (Reports s) ∧ Runs (.upPacketRx p c) s (Reports s))

/-- UP_PACKET_RX of an intact copy but ECHO at a ring end that is UP: the window of its position moves as its SEQ says; an accepted REGRSP, EVENT, vote, arm-ack or UPDATE acknowledgement joins the upward queue with its ring, any other does not, and the packets to execute stay. ORDER_WAIT_EXPIRE: with nothing held nothing changes; otherwise a packet with the SEQ of the one held longest joins the packets to execute, behind those already there. (R74, R75) -/
def Obligations.UpwardCopiesAreMergedAtTheEnd : Prop :=
  (∀ (p : Fin 12) (c : Copy) (s : State), c.type ≠ 10 → c.up = true → intact c = true → s.isUp p.val = true → s.portIs p.val 1 = true →
      (ringPorts s).contains p.val = false →
      Runs (.upPacketRx p c) s fun t =>
        ((s.ring.ups.get Window.empty (s.rd (F.CL_PCFG_RING p.val) * 64 + posOfRoute s c.route.toNat)).offer 256 c.seq.toNat).2 =
          t.ring.ups.get Window.empty (s.rd (F.CL_PCFG_RING p.val) * 64 + posOfRoute s c.route.toNat) ∧
        t.ring.upReady = s.ring.upReady ++ (if ((s.ring.ups.get Window.empty (s.rd (F.CL_PCFG_RING p.val) * 64 + posOfRoute s c.route.toNat)).offer
          256 c.seq.toNat).1 = .accept ∧ upKeeps c = true then [⟨s.rd (F.CL_PCFG_RING p.val), c⟩] else []) ∧ t.ring.ready = s.ring.ready) ∧
  (∀ s : State, s.ring.held = [] → Runs .orderWaitExpire s (Reports s)) ∧
  (∀ (s : State) (c : Copy) (l : List Copy), s.ring.held = c :: l →
      Runs .orderWaitExpire s fun t => ∃ m, t.ring.ready = s.ring.ready ++ m ∧ ∃ x ∈ m, x.pkt.seq = c.seq)

/-- With a REGWR at the front and one word for a register of block LANE: the register holds what each field's access and apply class give, and the picture and the drive stay. With a TABLE of one block there: its first word likewise at its address. With a REGRD of one word of a register that the role has, no latch pending and no filler train owed: if the position is valid, a REGRSP with that word, ADDR, COUNT 1 and the SEQ as TAG is queued upward. A REGRD with COUNT 0 or over 8: one with COUNT 0 and STATUS 3, and no register changes. The packet leaves the front each time. With no packet ready, with the pair registers up to date, none of the three changes anything. (R70, R83, R10, R7) -/
def Obligations.ControlPacketsExecute : Prop :=
  (∀ (s : State) (x : Ready) (l : List Ready) (r : RegSpec), s.ring.ready = x :: l → x.pkt.type = 2 → beAt x.pkt.data 4 1 = 1 →
      addrOn s.strap.role (pktAddr x.pkt) = true → pktAddr x.pkt / 65536 = 5 → findReg (pktAddr x.pkt) = some r →
      Runs .regwr s fun t => t.reg (pktAddr x.pkt) =
        (wordEffect r (s.reg (pktAddr x.pkt)) (beAt x.pkt.data 8 4) (!(blockDisabled s (pktAddr x.pkt))) false).live % 2 ^ 32 ∧
        t.ring.ready = l ∧ t.pix = s.pix ∧ t.drv = s.drv) ∧
  (∀ (s : State) (x : Ready) (l : List Ready) (r : RegSpec), s.ring.ready = x :: l → x.pkt.type = 6 → isRingTable s x.pkt = false →
      beAt x.pkt.data 4 2 = 1 → x.pkt.data.length = 16 → addrOn s.strap.role (beAt x.pkt.data 0 4 % 2 ^ 25 / 8 * 8) = true →
      beAt x.pkt.data 0 4 % 2 ^ 25 / 8 * 8 / 65536 = 5 → findReg (beAt x.pkt.data 0 4 % 2 ^ 25 / 8 * 8) = some r →
      Runs .table s fun t => t.ring.ready = l ∧ t.reg (beAt x.pkt.data 0 4 % 2 ^ 25 / 8 * 8) =
        (wordEffect r (s.reg (beAt x.pkt.data 0 4 % 2 ^ 25 / 8 * 8)) (beAt x.pkt.data 8 4)
          (!(blockDisabled s (beAt x.pkt.data 0 4 % 2 ^ 25 / 8 * 8))) false).live % 2 ^ 32) ∧
  (∀ (s : State) (x : Ready) (l : List Ready), s.ring.ready = x :: l → x.pkt.type = 3 → beAt x.pkt.data 4 1 = 1 → s.on F.CL_MYPOS_VALID = true →
      addrOn s.strap.role (pktAddr x.pkt) = true → isWindow (pktAddr x.pkt) = false → Table.get 0 s.latch (0x2000000 + pktAddr x.pkt) = 0 →
      pktAddr x.pkt / 65536 = 5 → NoTrain s →
      Runs .regrd s fun t => t.ring.ready = l ∧ Queued t (upPacket s 4 (bytesBE 4 (beAt x.pkt.data 0 4) ++ bytesBE 1 1 ++ bytesBE 1 (rspStatus false x.gap) ++
        bytesBE 2 x.pkt.seq.toNat ++ bytesBE 4 (shows s (pktAddr x.pkt))))) ∧
  (∀ (s : State) (x : Ready) (l : List Ready), s.ring.ready = x :: l → x.pkt.type = 3 → (beAt x.pkt.data 4 1 = 0 ∨ 8 < beAt x.pkt.data 4 1) →
      s.on F.CL_MYPOS_VALID = true → NoTrain s →
      Runs .regrd s fun t => t.ring.ready = l ∧ t.regs = s.regs ∧ Queued t (upPacket s 4 (bytesBE 4 (beAt x.pkt.data 0 4) ++ bytesBE 1 0 ++
        bytesBE 1 3 ++ bytesBE 2 x.pkt.seq.toNat))) ∧
  (∀ (c : Instr) (s : State), s.ring.ready = [] → linkCheck s = s → c = .regwr ∨ c = .regrd ∨ c = .table → Runs c s (Reports s))

/-- With a ring table at the front: the device holds its 126 words, the prefix, the FLAGS and 62 roster entries, RHB of CL_MYPOS is that of FLAGS, and with a valid position the own route is the prefix with the position filled in; unlocked and without a position, a port that receives the eastbound stream from position a < 62 gives position a + 1. With no packet ready nothing changes. RING_TABLE_SEND on a ring that the device drives, holds and is not silent on, outside a pair: a TABLE packet with 63 blocks after its header and the SEQ of the ring leaves every end that is UP, SEQ moves on, and the table is due no more; on a ring it does not drive nothing happens. (R24, R86, R88, R23) -/
def Obligations.RingTablesGiveThePosition : Prop :=
  (∀ (s : State) (x : Ready) (l : List Ready), s.ring.ready = x :: l → x.pkt.type = 6 → isRingTable s x.pkt = true →
      Runs .ringTableRx s fun t => t.ring.tableHeld = true ∧ t.ring.ready = l ∧
        (∀ k : Fin 126, k ≠ 1 → t.reg (R.CL_FRTAB_PREFIX + 4 * k.val) = (wordsBE 126 (x.pkt.data.drop 8)).getD k.val 0 % 2 ^ 32) ∧
        t.reg R.CL_FRTAB_FLAGS = (wordsBE 126 (x.pkt.data.drop 8)).getD 1 0 % 4 ∧ t.rd F.CL_MYPOS_RHB = t.rd F.CL_FRTAB_FLAGS_RHB ∧
        (s.on F.CL_MYPOS_VALID = true → ownPos s ≠ 63 → ownPos t = ownPos s ∧ t.rd F.CL_MYROUTE_ROUTE = fullRoute (t.rd F.CL_FRTAB_PREFIX_PREFIX) (ownPos s)) ∧
        (ownPos s = 63 → t.on F.CL_FRTAB_FLAGS_LOCK = false → ∀ p, (ringPorts s).find? (fun p => s.rd (F.CL_PSTAT_DIR_RX p) == 1) = some p →
          s.rd (F.CL_PSTAT_PARTNER_POS p) < 62 → ownPos t = s.rd (F.CL_PSTAT_PARTNER_POS p) + 1 ∧ t.on F.CL_MYPOS_VALID = true)) ∧
  (∀ s : State, s.ring.ready = [] → Runs .ringTableRx s (Reports s)) ∧
  (∀ (r : Fin 8) (s : State), drivesRing s r.val = true → mayControl s r.val = true → pairEn s = false → s.on (F.RED_RSTAT_SILENT r.val) = false →
      Runs (.ringTableSend r) s fun t => r.val ∉ t.ring.tableDue ∧ t.rd (F.RED_RSTAT_SEQ r.val) = (s.rd (F.RED_RSTAT_SEQ r.val) + 1) % 65536 ∧
        ∀ p, s.portIs p 1 = true → p < 12 → s.rd (F.CL_PCFG_RING p) = r.val → s.isUp p = true → ∃ c, .packet p c ∈ t.out ∧ c.type = 6 ∧ c.data.length = 512 ∧
          c.seq.toNat = s.rd (F.RED_RSTAT_SEQ r.val)) ∧
  (∀ (r : Fin 8) (s : State), drivesRing s r.val = false → Runs (.ringTableSend r) s (Reports s))

/-- With an EVENT at the front of the upward queue whose source is enabled: if its target resolves to a queue with room, the 32 bytes of its record are written at the queue's producer index; if to none and the hold buffer has room, the buffer takes it. With a REGRSP at the front at a device that holds the ring. A sender that is no coach: if a request owes that position an answer and others still owe theirs, only that position leaves it; with no request at all it counts in HIF_CNT.LATE_RSP. A coach with no request that it answers: it is queued upward with its route and the RHB of the ring above (no filler train owed). With no upward packet ready neither command changes anything. (R335, R313, R326, R28, R22) -/
def Obligations.UpwardPacketsReachTheirTargets : Prop :=
  (∀ (s : State) (u : UpPkt) (l : List UpPkt) (q : Nat), s.ring.upReady = u :: l → u.pkt.type = 5 →
      s.on (F.EVC_RSRC_EN (eventRecord u.pkt).source) = true → resolve s (s.rd (F.EVC_RSRC_TGT (eventRecord u.pkt).source)) = some q → hasRoom s q = true →
      Runs .eventPacketRx s fun t => t.ring.upReady = l ∧
        Sends s t [.hostWrite (s.rd64 (F.EVC_TBASE_LO_BASE q) (F.EVC_TBASE_HI_BASE q) + 32 * (s.tgt q).prod) (recordBytes (eventRecord u.pkt) (s.tgt q).phase)]) ∧
  (∀ (s : State) (u : UpPkt) (l : List UpPkt), s.ring.upReady = u :: l → u.pkt.type = 5 →
      s.on (F.EVC_RSRC_EN (eventRecord u.pkt).source) = true → resolve s (s.rd (F.EVC_RSRC_TGT (eventRecord u.pkt).source)) = none → s.evc.hold.length < 256 →
      Runs .eventPacketRx s fun t => t.evc.hold = s.evc.hold ++ [eventRecord u.pkt]) ∧
  (∀ (s : State) (u : UpPkt) (l : List UpPkt) (q : Request) (j : Job) (o : List Nat), s.ring.upReady = u :: l → u.pkt.type = 4 → holds s u.ring = true →
      s.isCoach = false → s.hif.reqs = [q] → q.ring = u.ring → q.tag = beAt u.pkt.data 6 2 → routeCovers q.route u.pkt.route.toNat = true →
      q.owed = some o → posOfRoute s u.pkt.route.toNat ∈ o → o.erase (posOfRoute s u.pkt.route.toNat) ≠ [] → s.job q.job = some j → j.type ≠ 4 →
      Runs .regrspRx s fun t => t.hif.reqs = [{ q with owed := some (o.erase (posOfRoute s u.pkt.route.toNat)) }] ∧ t.ring.upReady = l) ∧
  (∀ (s : State) (u : UpPkt) (l : List UpPkt), s.ring.upReady = u :: l → u.pkt.type = 4 → holds s u.ring = true → s.isCoach = false → s.hif.reqs = [] →
      Runs .regrspRx s (Reports { s.bump F.HIF_CNT_LATE_RSP 1 with ring := { s.ring with upReady := l } })) ∧
  (∀ (s : State) (u : UpPkt) (l : List UpPkt), s.ring.upReady = u :: l → u.pkt.type = 4 → holds s u.ring = true → s.isCoach = true → answersUs s u = false →
      NoTrain s →
      Runs .regrspRx s fun t => t.ring.upReady = l ∧ Queued t (withRhb u.pkt (s.rd F.CL_MYPOS_RHB)) ∧
        (withRhb u.pkt (s.rd F.CL_MYPOS_RHB)).rhb = s.rd F.CL_MYPOS_RHB ∧ (withRhb u.pkt (s.rd F.CL_MYPOS_RHB)).route = u.pkt.route) ∧
  (∀ s : State, s.ring.upReady = [] → Runs .eventPacketRx s (Reports s) ∧ Runs .regrspRx s (Reports s))

/-- With no filler train owed. ECHO_SEND on an UP port with ECHO on: off the ring, the ECHO with the stamp, the last stamp heard, the turnaround and the position leaves the port; a ring port's is queued as class 4, owed on that port's direction alone. ECHO_RX, intact, on an UP port with ECHO on: its stamp is kept; a valid sample joins those held, and CL_PDELAY stays until there are 32, which with a spread over 4 UI are dropped; with it kept, a mean within 200 ps of CL_PDELAY, or of the mean before, replaces it, any other is kept for the next. With ECHO off CL_PDELAY and the samples stay; on a port not UP nothing changes. SLOT_TRAIN_DUE at an UP ring end: the grid moves on by one; the train leaves at the later of its due block and the first free one, unless that is not past the block after the train before, when none leaves; elsewhere nothing changes. OPEN_TRAIN_RX on a port that forwards to q: with SLOT_GAP trains still to pass, one fewer, or with nothing owed on the stream, it goes on free; else the next packet leaves there, a first copy with the next SEQ and the second with the same one, the rest of the train not open, and SLOT_GAP trains must pass; a cut one leaves cut short and stays owed. On a port that does not forward nothing changes. (R78, R79, R80, R81, R85, R71) -/
def Obligations.EchoAndSlots : Prop :=
  (∀ (p : Fin 12) (stamp turn : Word) (c : Copy) (s : State), c = mkCopy 10 false 0 0 0 (bytesBE 4 stamp.toNat ++
        bytesBE 4 ((s.port p.val).lastStamp.getD 0) ++ bytesBE 4 turn.toNat ++ bytesBE 1 (sentPos s p.val) ++ [0, 0, 0]) →
      (s.isUp p.val = true → s.on F.CL_ECHO_ECHO_INT = true → (ringPorts s).contains p.val = false →
        Runs (.echoSend p stamp turn) s fun t => Reports s t ∧ Sends s t [.packet p.val c]) ∧
      (s.isUp p.val = true → s.on F.CL_ECHO_ECHO_INT = true → (ringPorts s).contains p.val = true → NoTrain s → dirTx s p.val = 1 ∨ dirTx s p.val = 2 →
        outPortOf s (dirTx s p.val) = some p.val →
        Runs (.echoSend p stamp turn) s fun t => ∃ e ∈ t.ring.outq ++ t.ring.waiting, e.pkt = c ∧ e.cls = 4 ∧ e.owedE = decide (dirTx s p.val = 1) ∧
          e.owedW = decide (dirTx s p.val = 2)) ∧
      (s.isUp p.val = false ∨ s.on F.CL_ECHO_ECHO_INT = false → Runs (.echoSend p stamp turn) s (Reports s))) ∧
  (∀ (p : Fin 12) (c : Copy) (t4 : Word) (v : Nat) (s : State), s.isUp p.val = true → c.type = 10 → intact c = true → s.on F.CL_ECHO_ECHO_INT = true →
      rttSample (beAt c.data 4 4) t4.toNat (beAt c.data 8 4) = some v → (s.port p.val).echo.length < 31 →
      Runs (.echoRx p c t4) s fun t => (t.port p.val).lastStamp = some (beAt c.data 0 4) ∧ (t.port p.val).echo = (s.port p.val).echo ++ [v] ∧
        t.rd (F.CL_PDELAY_DELAY p.val) = s.rd (F.CL_PDELAY_DELAY p.val)) ∧
  (∀ (p : Fin 12) (c : Copy) (t4 : Word) (s : State), s.isUp p.val = true → c.type = 10 → intact c = true → s.on F.CL_ECHO_ECHO_INT = true →
      rttSample (beAt c.data 4 4) t4.toNat (beAt c.data 8 4) = none →
      Runs (.echoRx p c t4) s fun t => (t.port p.val).lastStamp = some (beAt c.data 0 4) ∧ (t.port p.val).echo = (s.port p.val).echo ∧
        t.rd (F.CL_PDELAY_DELAY p.val) = s.rd (F.CL_PDELAY_DELAY p.val)) ∧
  (∀ (p : Fin 12) (c : Copy) (t4 : Word) (v : Nat) (d : Int) (s : State), s.isUp p.val = true → c.type = 10 → intact c = true →
      s.on F.CL_ECHO_ECHO_INT = true → rttSample (beAt c.data 4 4) t4.toNat (beAt c.data 8 4) = some v → (s.port p.val).echo.length = 31 →
      d = delayPs (portRate s p.val) ((s.port p.val).echo ++ [v]) (s.rdS (F.CL_PASYM_ASYM p.val)) →
      Runs (.echoRx p c t4) s fun t => (t.port p.val).echo = [] ∧
        (spreadOk ((s.port p.val).echo ++ [v]) = false → t.rd (F.CL_PDELAY_DELAY p.val) = s.rd (F.CL_PDELAY_DELAY p.val)) ∧
        (spreadOk ((s.port p.val).echo ++ [v]) = true →
          ((d - s.rdS (F.CL_PDELAY_DELAY p.val)).natAbs ≤ 200 ∨ (∃ m, (s.port p.val).candidate = some m ∧ (d - signed m 32).natAbs ≤ 200) →
            t.rd (F.CL_PDELAY_DELAY p.val) = toBits d 32 ∧ (t.port p.val).candidate = none) ∧
          (200 < (d - s.rdS (F.CL_PDELAY_DELAY p.val)).natAbs → (∀ m, (s.port p.val).candidate = some m → 200 < (d - signed m 32).natAbs) →
            t.rd (F.CL_PDELAY_DELAY p.val) = s.rd (F.CL_PDELAY_DELAY p.val) ∧ (t.port p.val).candidate = some (toBits d 32)))) ∧
  (∀ (p : Fin 12) (c : Copy) (t4 : Word) (s : State),
      (s.isUp p.val = true → c.type = 10 → intact c = true → s.on F.CL_ECHO_ECHO_INT = false → Runs (.echoRx p c t4) s fun t =>
        (t.port p.val).echo = (s.port p.val).echo ∧ t.rd (F.CL_PDELAY_DELAY p.val) = s.rd (F.CL_PDELAY_DELAY p.val)) ∧
      (s.isUp p.val = false → Runs (.echoRx p c t4) s (Reports s))) ∧
  (∀ (p : Fin 12) (free : Word) (s : State) (b : Nat), NoTrain s → b = max (trainDue s (s.port p.val).trainK) free.toNat →
      (s.portIs p.val 1 = true → s.isUp p.val = true → (∀ e, (s.port p.val).trainEnd = some e → e < b) →
        Runs (.slotTrainDue p free) s fun t => Sends s t [.idleTrain p.val true] ∧
          Reports (s.modPort p.val fun x => { x with trainK := x.trainK + 1, trainEnd := some (b + 8) }) t) ∧
      (s.portIs p.val 1 = true → s.isUp p.val = true → (∃ e, (s.port p.val).trainEnd = some e ∧ b ≤ e) →
        Runs (.slotTrainDue p free) s fun t => (∀ o ∈ t.out.drop s.out.length, o ≠ .idleTrain p.val true) ∧
          Reports (s.modPort p.val fun x => { x with trainK := x.trainK + 1 }) t) ∧
      (s.portIs p.val 1 = false ∨ s.isUp p.val = false → Runs (.slotTrainDue p free) s (Reports s))) ∧
  (∀ (p : Fin 12) (q : Nat) (cut : Bool) (nx : Option OutPkt) (s : State), forwardsTo s p.val = some q → NoTrain s →
      nx = nextOut s.ring.outq (fun e => if dirTx s q = 1 then e.owedE else if dirTx s q = 2 then e.owedW else false) →
      (0 < (s.port p.val).gapLeft → Runs (.openTrainRx p cut) s fun t => Sends s t [.idleTrain q true] ∧ t.ring.upSeq = s.ring.upSeq ∧
        (t.port p.val).gapLeft = (s.port p.val).gapLeft - 1) ∧
      ((s.port p.val).gapLeft = 0 → nx = none → Runs (.openTrainRx p cut) s fun t => Sends s t [.idleTrain q true] ∧ t.ring.upSeq = s.ring.upSeq ∧
        (t.port p.val).gapLeft = 0) ∧
      (∀ (e : OutPkt) (c : Copy), (s.port p.val).gapLeft = 0 → nx = some e → c = (if e.owedE && e.owedW then reSeq e.pkt s.ring.upSeq else e.pkt) →
        (cut = false → Runs (.openTrainRx p cut) s fun t => Sends s t [.packet q c, .idleTrain q false] ∧
          t.ring.upSeq = (if e.owedE && e.owedW then (s.ring.upSeq + 1) % 65536 else s.ring.upSeq) ∧ (t.port p.val).gapLeft = s.rd F.CL_SLOT_SLOT_GAP) ∧
        (cut = true → Runs (.openTrainRx p cut) s fun t => Sends s t [.packet q { c with framed := false }] ∧ t.ring.upSeq = s.ring.upSeq ∧
          (t.port p.val).gapLeft = 0))) ∧
  (∀ (p : Fin 12) (cut : Bool) (s : State), forwardsTo s p.val = none → Runs (.openTrainRx p cut) s (Reports s))

/-- By a path that reaches the device. WT_INC_WRITE where the PTP clock runs leaves the written increment, clamped to LIM ppm of 4000_0000h, for the next wall tick, and after a watchdog expiry ends FREERUN; elsewhere WT_INC stays. WT_STEP where the clock runs, with every generator disabled, leaves the signed 64-bit step for the next wall tick; with one enabled it changes nothing of the clock. FREERUN_SET sets WT_STAT.FREERUN, FREERUN_CLR clears it with the watchdog's note. SERVO_WD_EXPIRE where the clock runs with the watchdog on, none expired before, sets FREERUN and notes that the next WT_INC ends it; otherwise it changes nothing. (R89, R90, R91) -/
def Obligations.WallClockIsSteered : Prop :=
  (∀ (path : Access) (w : Word) (s : State), reaches s path = true → addrOn s.strap.role R.WT_INC = true →
      (ptpRuns s = true → Runs (.wtIncWrite path w) s fun t => t.wt.incNext =
        some (clamp (0x40000000 - 0x40000000 * s.rd F.WT_INC_LIM_LIM / 1000000) (0x40000000 + 0x40000000 * s.rd F.WT_INC_LIM_LIM / 1000000) w.toNat) ∧
        t.wt.ptp = s.wt.ptp ∧ t.wt.inc = s.wt.inc ∧ t.wt.wdFree = false ∧
        t.on F.WT_STAT_FREERUN = (s.on F.WT_STAT_FREERUN && !s.wt.wdFree)) ∧
      (ptpRuns s = false → Runs (.wtIncWrite path w) s fun t => t.wt = s.wt ∧ t.reg R.WT_INC = s.reg R.WT_INC)) ∧
  (∀ (path : Access) (lo hi : Word) (s : State), reaches s path = true → addrOn s.strap.role R.WT_STEP_LO = true →
      (ptpRuns s = true → wtEnabled s = false →
        Runs (.wtStep path lo hi) s fun t => t.wt = { s.wt with stepLo := lo.toNat, stepNext := some (signed (lo.toNat + 2 ^ 32 * hi.toNat) 64) }) ∧
      (wtEnabled s = true → Runs (.wtStep path lo hi) s fun t => t.wt = s.wt)) ∧
  (∀ (path : Access) (s : State), reaches s path = true → addrOn s.strap.role R.WT_CTL = true →
      (s.on F.WT_CTL_FREERUN_CLR = false → Runs (.freerunSet path) s fun t => t.on F.WT_STAT_FREERUN = true ∧ t.wt = s.wt) ∧
      (s.on F.WT_CTL_FREERUN_SET = false → Runs (.freerunClr path) s fun t => t.on F.WT_STAT_FREERUN = false ∧ t.wt = { s.wt with wdFree := false })) ∧
  (∀ s : State,
      (ptpRuns s = true → s.on F.WT_SERVO_SERVO_WD = true → s.wt.wdFree = false →
        Runs .servoWdExpire s (Reports { s.wr F.WT_STAT_FREERUN 1 with wt := { s.wt with wdFree := true } })) ∧
      (ptpRuns s = false ∨ s.on F.WT_SERVO_SERVO_WD = false ∨ s.wt.wdFree = true → Runs .servoWdExpire s (Reports s)))

/-- EVT_IN_EDGE of a pin and edge that WT_EVTIN_CFG selects: WT_EVTIN_TS of the pin is wall time to 1.25 ns less the filter time; with four queued the edge counts, else it is queued. An edge not selected changes nothing. GENERATOR_ENABLE by a path that reaches the device, no pair rule dropping the write, EN = 0 before: with a defined RATE the generator runs from the first frame whose flip is at least LEAD x 50 us after now; with a reserved one it does not run. BUGLE_SEND of a running generator in a sender, no rate change on its way, its rates defined: a run of 32 bytes with the mark's frame count, and CORR the port's own wait plus 100 us for each copy before, leaves every UP end of its ring, and the next copy is due. Of one that does not run, or in a standalone device, nothing changes. (R94, R95, R96, R98, R100) -/
def Obligations.EventInputsAndGenerators : Prop :=
  (∀ (n : Fin 4) (rising : Bool) (s : State), bitAt (bits (s.reg R.WT_EVTIN_CFG) (8 * n.val) 8) (if rising then 0 else 1) = false →
      Runs (.evtInEdge n rising) s (Reports s)) ∧
  (∀ (n : Fin 4) (rising : Bool) (s : State), bitAt (bits (s.reg R.WT_EVTIN_CFG) (8 * n.val) 8) (if rising then 0 else 1) = true →
      Runs (.evtInEdge n rising) s fun t =>
        t.rd64 (F.WT_EVTIN_TS_LO_TS n.val) (F.WT_EVTIN_TS_HI_TS n.val) = (stampNs s - bits (s.reg R.WT_EVTIN_CFG) (8 * n.val) 8 / 4 * 10) % 2 ^ 64 ∧
        (if 4 ≤ Table.get 0 s.wt.evtin n.val then t.wt = s.wt ∧ t.rd ⟨R.WT_EVTIN_CNT, 8 * n.val, 8⟩ = satAdd 8 (s.rd ⟨R.WT_EVTIN_CNT, 8 * n.val, 8⟩) 1
         else Table.get 0 t.wt.evtin n.val = Table.get 0 s.wt.evtin n.val + 1 ∧ t.reg R.WT_EVTIN_CNT = s.reg R.WT_EVTIN_CNT)) ∧
  (∀ (path : Access) (n : Fin 8) (w : Word) (s : State), reaches s path = true → addrOn s.strap.role (R.WT_RCFG n.val) = true →
      (path = .packet ∨ hostDrop s = none) → s.on (F.WT_RCFG_EN n.val) = false →
      ((rateFrac (s.rd (F.WT_RCFG_RATE n.val))).isSome = true → Runs (.generatorEnable path n w) s fun t =>
        genRuns t n.val = true ∧ (t.gen n.val).rate = s.rd (F.WT_RCFG_RATE n.val) ∧
        (t.gen n.val).next = firstCount (s.rd (F.WT_RCFG_RATE n.val)) (wallNs s + t.rd (F.WT_RCFG_LEAD n.val) * 50000)) ∧
      (rateFrac (s.rd (F.WT_RCFG_RATE n.val)) = none → Runs (.generatorEnable path n w) s fun t => genRuns t n.val = false)) ∧
  (∀ (n : Fin 8) (low high mirror : Word) (s : State),
      (genRuns s n.val = true → s.isStandalone = false → (s.gen n.val).newRate = none → (s.gen n.val).turned = none →
        (rateFrac (s.gen n.val).rate).isSome = true → (rateFrac (s.gen n.val).markRate).isSome = true →
        Runs (.bugleSend n low high mirror) s fun t =>
          (∀ e ∈ (ringEnds s n.val).zip [low.toNat, high.toNat], s.isUp e.1 = true → ∃ b, .bugle e.1 b ∈ t.out ∧ b.length = 32 ∧
            beAt b 2 6 = max (s.gen n.val).mark (s.gen n.val).next % 2 ^ 48 ∧
            beAt b 20 4 = (e.2 + (if (s.gen n.val).mark < (s.gen n.val).next then 0 else (s.gen n.val).copy) * 100000000) % 2 ^ 32) ∧
          (t.gen n.val).copy = (if (s.gen n.val).mark < (s.gen n.val).next then 1 else if (s.gen n.val).copy < 2 then (s.gen n.val).copy + 1 else 0) ∧
          s.now ≤ t.now) ∧
      (genRuns s n.val = false ∨ s.isStandalone = true → Runs (.bugleSend n low high mirror) s (Reports s)))

/-- BUGLE_RX on a ring port that forwards to q: the run leaves q, an intact one with CORR raised by the port's delay and residence; a broken run goes on and changes nothing else. An intact run on an UP ring port, or on the mirror port of a standby that aligns, of a frame not seen before, with time left, fewer than three pending: its mark is pending, its RATE and LEAD show in WT_FMARK, and a follower in SEEK is LOCKED; with no time left no mark joins. On a port that is not UP nothing changes. OTHER_DIRECTION_FALLBACK: the earliest pending mark without a copy of the timing direction is taken from the other, and nothing else changes; with none such nothing does. (R101, R102, R103, R104, R106, R111) -/
def Obligations.MarksAreFollowed : Prop :=
  (∀ (p : Fin 12) (q : Nat) (b : List Byte) (s : State), (ringPorts s).contains p.val = true → forwardsTo s p.val = some q →
      Runs (.bugleRx p b) s fun t => Sends s t [.bugle q (bugleForward s p.val b)] ∧ (bugleIntact b = false → Reports s t)) ∧
  (∀ (p : Fin 12) (b : List Byte) (s : State), s.isUp p.val = true → bugleIntact b = true →
      ((ringPorts s).contains p.val = true ∨ (s.portIs p.val 3 = true ∧ p.val = mport s ∧ aligns s = true)) →
      (bugleCorr b + s.rdS (F.CL_PDELAY_DELAY p.val) < (((parseMark b).lead * 50000000 : Nat) : Int) → seenMark s (parseMark b).frame = none →
        (∀ m ∈ s.wt.fol.marks, m.frame ≠ (parseMark b).frame) → (∀ m, s.wt.fol.taken = some m → m.frame ≠ (parseMark b).frame) → s.wt.fol.marks.length < 3 →
        Runs (.bugleRx p b) s fun t => (∃ m, t.wt.fol.marks = s.wt.fol.marks ++ [m] ∧ m.frame = (parseMark b).frame ∧ m.flip = (parseMark b).flip) ∧
          t.rd F.WT_FMARK_RATE = (parseMark b).rate ∧ t.rd F.WT_FMARK_LEAD = (parseMark b).lead ∧
          t.rd F.WT_FSTAT_STATE = (if s.rd F.WT_FSTAT_STATE = 0 then 1 else s.rd F.WT_FSTAT_STATE)) ∧
      ((((parseMark b).lead * 50000000 : Nat) : Int) ≤ bugleCorr b + s.rdS (F.CL_PDELAY_DELAY p.val) → seenMark s (parseMark b).frame = none →
        Runs (.bugleRx p b) s fun t => t.wt.fol.marks = s.wt.fol.marks)) ∧
  (∀ (p : Fin 12) (b : List Byte) (s : State), s.isUp p.val = false → Runs (.bugleRx p b) s (Reports s)) ∧
  (∀ (s : State) (m : Mark) (f : Nat),
      earliest (s.wt.fol.marks.filter fun m => (if s.rd F.WT_FSTAT_DIR = 2 then m.fenceW else m.fenceE).isNone) (s.rd F.WT_FSTAT_DIR) = some (m, f) →
      Runs .otherDirectionFallback s (Reports { s with wt := { s.wt with fol := { s.wt.fol with
        marks := s.wt.fol.marks.map fun x => if x.frame == m.frame then { x with other := true } else x } } })) ∧
  (∀ s : State, (s.wt.fol.marks.all fun m => (if s.rd F.WT_FSTAT_DIR = 2 then m.fenceW else m.fenceE).isSome) = true →
      Runs .otherDirectionFallback s (Reports s))

/-- FENCE of a running generator other than 0 of a standalone device, no rate change on its way: the next frame is one later and WT_RFRAME shows it modulo 2^48. FENCE of a generator that does not run, nothing waiting for an XID, its turn or a notice, with the pair registers up to date, changes nothing. FENCE of a carriage's follower, or of a standby that aligns, out of SEEK, whose earliest pending mark falls no later than the predicted fence: the fence taken is that mark's, at its time, and its frame and flip are the last ones; a standby shows the frame in WT_FFRAME. FENCE of a follower in SEEK takes no fence, and leaves the picture, the drive, calibration and the held commits. (R97, R103, R106, R111) -/
def Obligations.FencesFall : Prop :=
  (∀ (n : Fin 8) (s : State), n ≠ 0 → s.isStandalone = true → genRuns s n.val = true → (s.gen n.val).newRate = none →
      Runs (.fence (some n)) s fun t => (t.gen n.val).next = (s.gen n.val).next + 1 ∧ (t.gen n.val).started = true ∧
        t.rd (F.WT_RFRAME_LO_FRAME n.val) = ((s.gen n.val).next + 1) % 2 ^ 32 ∧
        t.rd (F.WT_RFRAME_HI_FRAME n.val) = ((s.gen n.val).next + 1) % 2 ^ 48 / 2 ^ 32 ∧ s.now ≤ t.now) ∧
  (∀ (n : Fin 8) (s : State), genRuns s n.val = false → NoHeadWaits s → s.hif.dirty = 0 → linkCheck s = s → Runs (.fence (some n)) s (Reports s)) ∧
  (∀ (s : State) (m : Mark) (f : Nat), follows s = false → aligns s = true → folState s ≠ 0 → earliest s.wt.fol.marks (s.rd F.WT_FSTAT_DIR) = some (m, f) →
      (s.wt.fol.shown = false ∨ f ≤ s.wt.fol.lastFence + flyPs s) →
      Runs (.fence none) s fun t => t.wt.fol.lastFrame = m.frame ∧ t.wt.fol.lastFlip = m.flip ∧ t.wt.fol.lastFence = max f s.now ∧
        t.wt.fol.taken = some m ∧ t.rd F.WT_FFRAME_LO_FRAME = m.frame % 2 ^ 32) ∧
  (∀ (s : State) (m : Mark) (f : Nat), s.isCarriage = true → folState s ≠ 0 → earliest s.wt.fol.marks (s.rd F.WT_FSTAT_DIR) = some (m, f) →
      (s.wt.fol.shown = false ∨ f ≤ s.wt.fol.lastFence + flyPs s) →
      Runs (.fence none) s fun t => t.wt.fol.lastFrame = m.frame ∧ t.wt.fol.lastFlip = m.flip ∧ t.wt.fol.lastFence = max f s.now) ∧
  (∀ s : State, folState s = 0 → Runs (.fence none) s fun t => t.wt = s.wt ∧ t.pix = s.pix ∧ t.drv = s.drv ∧ t.cal = s.cal ∧ t.commit = s.commit)

/-- By a path that reaches the device, and no pair rule that drops the write: SYS_COMMIT while a set is closed sets SYS_CSTAT.REFUSED and leaves both sets; otherwise, where every held write has a fence to wait for, the open set is closed at this time. REGISTER_WRITE of a LANE or CHK register: S fields join the open set, and in a LANE register every other field takes the word by its access and apply class. REGISTER_READ of an implemented register: the latched word if one is held, else the word the register shows; with not all bytes enabled no register changes. By a path that does not reach the device, none of the three changes anything. (R7, R10, R115, R116, R118) -/
def Obligations.CommitsAndRegisterAccesses : Prop :=
  (∀ (path : Access) (w : Word) (s : State), reaches s path = true → (path = .packet ∨ hostDrop s = none) → s.commit.closed ≠ [] →
      Runs (.sysCommit path w) s fun t => t.commit = s.commit ∧ t.on F.SYS_CSTAT_REFUSED = true) ∧
  (∀ (path : Access) (w : Word) (s : State), reaches s path = true → (path = .packet ∨ hostDrop s = none) → s.commit.closed = [] → s.xa.autoWait = [] →
      (s.isCarriage = true ∧ folState s ≠ 0 ∨ follows s = false ∧ (refGen s).isSome = true ∧ ∀ x ∈ s.commit.opened, tiedRing x.addr = none) →
      Runs (.sysCommit path w) s fun t => t.commit = { opened := [], closed := s.commit.opened, closedAt := s.now }) ∧
  (∀ (path : Access) (addr : BitVec 25) (w : Word) (r : RegSpec) (s : State), reaches s path = true → addrOn s.strap.role addr.toNat = true →
      addr.toNat % 4 = 0 → (path = .packet ∨ mirrored addr.toNat = false ∨ hostDrop s = none) → findReg addr.toNat = some r →
      (addr.toNat / 65536 = 5 ∨ addr.toNat / 65536 = 14) →
      Runs (.registerWrite path addr w) s fun t =>
        t.commit = (openWrite s addr.toNat (wordEffect r (s.reg addr.toNat) w.toNat (!(blockDisabled s addr.toNat)) false).smask
          (wordEffect r (s.reg addr.toNat) w.toNat (!(blockDisabled s addr.toNat)) false).sval).commit ∧
        (addr.toNat / 65536 = 5 → t.reg addr.toNat = (wordEffect r (s.reg addr.toNat) w.toNat (!(blockDisabled s addr.toNat)) false).live % 2 ^ 32)) ∧
  (∀ (path : Access) (addr : BitVec 25) (be : BitVec 4) (s : State), reaches s path = true → addrOn s.strap.role (addr.toNat / 4 * 4) = true →
      isWindow (addr.toNat / 4 * 4) = false →
      Runs (.registerRead path addr be) s fun t => (be ≠ 15#4 → t.regs = s.regs) ∧
        Sends s t [.readData (if Table.get 0 s.latch (pathIdx (accessPath path) * 0x2000000 + addr.toNat / 4 * 4) = 0 then shows s (addr.toNat / 4 * 4)
          else Table.get 0 s.latch (pathIdx (accessPath path) * 0x2000000 + addr.toNat / 4 * 4) - 1)]) ∧
  (∀ (path : Access) (addr : BitVec 25) (w : Word) (be : BitVec 4) (s : State), reaches s path = false →
      Runs (.sysCommit path w) s (Reports s) ∧ Runs (.registerWrite path addr w) s (Reports s) ∧ Runs (.registerRead path addr be) s (Reports s))

/-- No head, rate change or completion notice waiting. XA_ABORT, outside a pair: an XID in the mask that is BUILDING is ABORTED with reason 6, one PREPARING or VOTING has reason 6 and is ABORTED, or FREE where nothing was sent or its generator stands; the others stay. XA_PREPARE_SEND of a PREPARING XID outside a pair, whose rings it holds with an end UP and whose entry lists are read: every part of every destination, then a prepare close with the ring's target, leaves every UP end; with a vote outstanding the XID is VOTING, with none FIRED. With no end UP it is FREE with reason 7; with lists that cannot be read its XA_COMMIT ends 81h and it is FREE; of an XID not PREPARING nothing changes. XA_DEADLINE of a VOTING XID outside a pair whose votes are incomplete: ABORTED with reason 1; of one decided, or of a sub-transaction with every vote READY, nothing changes. (R119, R120, R121, R128, R133, R309) -/
def Obligations.TransactionsArePreparedAndAborted : Prop :=
  (∀ (path : Access) (w : Word) (s : State), reaches s path = true → addrOn s.strap.role R.XA_ABORT = true → pairEn s = false → NoHeadWaits s →
      Runs (.xaAbort path w) s fun t => ∀ x : Fin 16,
        (w.toNat.testBit x.val = false → t.xid x.val = s.xid x.val) ∧
        (w.toNat.testBit x.val = true → (s.xid x.val).st = .building → (s.xid x.val).completion = none →
          (t.xid x.val).st = .aborted ∧ (t.xid x.val).reason = 6) ∧
        (w.toNat.testBit x.val = true → (s.xid x.val).st = .preparing ∨ (s.xid x.val).st = .voting → (s.xid x.val).asked = false →
          (t.xid x.val).reason = 6 ∧
          (t.xid x.val).st = if (s.xid x.val).sent = true ∧ genRuns s (s.xid x.val).refRing = true then .aborted else .free)) ∧
  (∀ (x : Fin 16) (data : Option (List Byte)) (s : State), (s.xid x.val).st = .preparing → (s.xid x.val).parent = none → pairEn s = false → NoHeadWaits s →
      (listBytes (s.xid x.val).dests = 0 ∨ data.isSome = true) →
      (∀ e ∈ (s.xid x.val).rings, mayControl s e.1 = true ∧ s.on (F.RED_RSTAT_SILENT e.1) = false ∧ ((ringEnds s e.1).any s.isUp) = true) →
      Runs (.xaPrepareSend x data) s fun t =>
        (∀ e ∈ (s.xid x.val).rings, ∀ p ∈ ringEnds s e.1, s.isUp p = true →
          (∀ d ∈ readLists (s.xid x.val).dests (data.getD []), destRing s d = e.1 →
            ∀ b ∈ partBodies x.val (epochOf s e.1) e.2 (dleadOf s e.1) (partRate s (s.xid x.val) e.1 e.2 d.ops) d,
            ∃ q, .packet p (downPacket 7 d.rhb d.route b q) ∈ t.out) ∧
          ∃ c, .packet p c ∈ t.out ∧ c.type = 7 ∧ beAt c.data 0 1 = 4 ∧ beAt c.data 1 1 = x.val ∧ beAt c.data 8 6 = e.2 % 2 ^ 48) ∧
        ((∃ w ∈ (s.xid x.val).voters, w.vote ≠ some true) → (t.xid x.val).st = .voting ∧ (t.xid x.val).sent = true) ∧
        ((∀ w ∈ (s.xid x.val).voters, w.vote = some true) → genRuns s (s.xid x.val).refRing = true → (t.xid x.val).st = .fired)) ∧
  (∀ (x : Fin 16) (data : Option (List Byte)) (s : State), (s.xid x.val).st = .preparing → (s.xid x.val).parent = none → (s.xid x.val).sent = false →
      NoHeadWaits s → (∀ e ∈ (s.xid x.val).rings, holds s e.1 = true) → (∃ e ∈ (s.xid x.val).rings, ((ringEnds s e.1).any s.isUp) = false) →
      Runs (.xaPrepareSend x data) s fun t => (t.xid x.val).st = .free ∧ (t.xid x.val).reason = 7) ∧
  (∀ (x n : Fin 16) (j : Job) (s : State), (s.xid x.val).st = .preparing → (s.xid x.val).parent = none → NoHeadWaits s → pairEn s = false →
      (∀ e ∈ (s.xid x.val).rings, holds s e.1 = true ∧ ((ringEnds s e.1).any s.isUp) = true) → listBytes (s.xid x.val).dests ≠ 0 →
      (s.xid x.val).completion.bind s.job = some j → j.ring = n.val →
      Runs (.xaPrepareSend x none) s fun t => (t.xid x.val).st = .free ∧ Completes s t n.val j (j.record 0x81)) ∧
  (∀ (x : Fin 16) (data : Option (List Byte)) (s : State), (s.xid x.val).st ≠ .preparing → NoHeadWaits s → s.hif.dirty = 0 →
      Runs (.xaPrepareSend x data) s (Reports s)) ∧
  (∀ (x : Fin 16) (s : State), (s.xid x.val).st = .voting → (s.xid x.val).parent = none → (∀ e ∈ (s.xid x.val).rings, holds s e.1 = true) →
      pairEn s = false → (s.xid x.val).otherEpoch = false → (s.xid x.val).sent = true → genRuns s (s.xid x.val).refRing = true → NoHeadWaits s →
      Runs (.xaDeadline x) s fun t => (t.xid x.val).st = .aborted ∧ (t.xid x.val).reason = 1) ∧
  (∀ (x : Fin 16) (s : State), NoHeadWaits s → s.hif.dirty = 0 →
      ((s.xid x.val).st ≠ .voting ∧ (s.xid x.val).st ≠ .preparing ∨
        (s.xid x.val).st = .voting ∧ (s.xid x.val).parent.isSome = true ∧ allReady (s.xid x.val) = true) →
      Runs (.xaDeadline x) s (Reports s))

/-- With a vote at the front, in a sender alone that holds the ring, nothing waiting for an XID or its turn: for a VOTING XID of this epoch, from a voter w that has not voted, READY with the count sent to it is recorded; if every other voter was ready and the reference ring runs, an XID without a parent is FIRED and a sub-transaction is ready and goes on VOTING; a refusal of code c other than 5 aborts it with reason 2 and names the voter. A vote of no such voter, or for an XID neither PREPARING nor VOTING, leaves the front and changes nothing else. With an arm-ack at the front of a FIRED XID from a voter without a result: with another outstanding the result is recorded and the first that is not ON_TIME names its voter; the last one of an XID without a parent, all ON_TIME, ends its XA_COMMIT with their number. Of an XID not FIRED it changes nothing else. With another packet at the front, or none, neither changes anything. (R126, R128, R132, R133, R317) -/
def Obligations.VotesAndArmAcks : Prop :=
  (∀ (s : State) (u : UpPkt) (l : List UpPkt) (x : Nat) (w : Voter), s.ring.upReady = u :: l → u.pkt.type = 7 → beAt u.pkt.data 0 1 = 2 →
      x = beAt u.pkt.data 1 1 % 16 → holds s u.ring = true → pairEn s = false → NoHeadWaits s → (s.xid x).st = .voting →
      beAt u.pkt.data 2 4 = epochOf s u.ring →
      (s.xid x).voters.find? (fun w => w.ring == u.ring && w.pos == posOfRoute s u.pkt.route.toNat && w.vote.isNone) = some w →
      Runs .xaVoteRx s fun t => t.ring.upReady = l ∧
        (beAt u.pkt.data 8 1 = 1 → beAt u.pkt.data 10 2 = w.entries → { w with vote := some true } ∈ (t.xid x).voters) ∧
        (beAt u.pkt.data 8 1 = 1 → beAt u.pkt.data 10 2 = w.entries → (∀ v ∈ (s.xid x).voters, v ≠ w → v.vote = some true) →
          genRuns s (s.xid x).refRing = true → if (s.xid x).parent = none then (t.xid x).st = .fired else (t.xid x).st = .voting ∧ (t.xid x).ready = true) ∧
        (beAt u.pkt.data 8 1 = 1 → beAt u.pkt.data 10 2 = w.entries → (∃ v ∈ (s.xid x).voters, v ≠ w ∧ v.vote ≠ some true) →
          (t.xid x).st = .voting ∧ { w with vote := some true } ∈ (t.xid x).voters) ∧
        (beAt u.pkt.data 8 1 ≠ 1 → beAt u.pkt.data 9 1 ≠ 5 → (s.xid x).asked = false → (s.xid x).sent = true → genRuns s (s.xid x).refRing = true →
          (t.xid x).st = .aborted ∧ (t.xid x).reason = 2 ∧ (t.xid x).offender = u.pkt.route.toNat)) ∧
  (∀ (s : State) (u : UpPkt) (l : List UpPkt) (x : Nat), s.ring.upReady = u :: l → u.pkt.type = 7 → beAt u.pkt.data 0 1 = 2 →
      x = beAt u.pkt.data 1 1 % 16 → NoHeadWaits s → s.hif.dirty = 0 →
      ((s.xid x).st ≠ .voting ∧ (s.xid x).st ≠ .preparing ∨
        (s.xid x).voters.find? (fun w => w.ring == u.ring && w.pos == posOfRoute s u.pkt.route.toNat && w.vote.isNone) = none) →
      Runs .xaVoteRx s (Reports { s with ring := { s.ring with upReady := l } })) ∧
  (∀ (s : State) (u : UpPkt) (l : List UpPkt) (x : Nat) (w : Voter), s.ring.upReady = u :: l → u.pkt.type = 7 → beAt u.pkt.data 0 1 = 3 →
      x = beAt u.pkt.data 1 1 % 16 → (s.xid x).st = .fired →
      (s.xid x).voters.find? (fun w => w.ring == u.ring && w.pos == posOfRoute s u.pkt.route.toNat && w.result.isNone) = some w →
      ((∃ v ∈ (s.xid x).voters, v ≠ w ∧ v.result = none) →
        Runs .xaArmackRx s fun t => t.ring.upReady = l ∧ { w with result := some (beAt u.pkt.data 8 1) } ∈ (t.xid x).voters ∧ (t.xid x).st = .fired ∧
          (beAt u.pkt.data 8 1 ≠ 1 → (s.xid x).offender = 0 → (t.xid x).offender = u.pkt.route.toNat)) ∧
      (∀ (n : Fin 16) (j : Job), beAt u.pkt.data 8 1 = 1 → (∀ v ∈ (s.xid x).voters, v ≠ w → v.result = some 1) → (s.xid x).parent = none →
        (s.xid x).completion.bind s.job = some j → j.ring = n.val →
        Runs .xaArmackRx s fun t => t.ring.upReady = l ∧ (t.xid x).completion = none ∧ Completes s t n.val j
          { j.record 0 with frame := (s.xid x).target, route := (s.xid x).offender, rhb := (s.xid x).offRhb,
                            result := bytesLE 2 (s.xid x).voters.length ++ bytesLE 4 0 ++ bytesLE 1 (s.xid x).offCode ++ bytesLE 3 0 })) ∧
  (∀ (s : State) (u : UpPkt) (l : List UpPkt), s.ring.upReady = u :: l → u.pkt.type = 7 → beAt u.pkt.data 0 1 = 3 →
      (s.xid (beAt u.pkt.data 1 1 % 16)).st ≠ .fired → Runs .xaArmackRx s (Reports { s with ring := { s.ring with upReady := l } })) ∧
  (∀ s : State, (∀ u l, s.ring.upReady = u :: l → u.pkt.type ≠ 7) → Runs .xaVoteRx s (Reports s) ∧ Runs .xaArmackRx s (Reports s))

/-- With a prepare part at the front, of an XID with no use held: addressed here, with room for its entries, a use holds its EPOCH, TARGET, OPS and entries, not closed; passing through a coach into its ring r, held, running at a multiple of the parent's rate, with a FREE XID y: y is the sub-transaction of the ring's target, and the part leaves every UP end of r with XID y and that target. With a prepare close of a use's EPOCH and TARGET at the front, a part still missing: the use is closed and has not voted, and its sub-transaction, if any, sends its closes and is VOTING; another close changes nothing. XA_VOTE_SEND of a closed use, complete or of parts that disagree, not voted, its sub-transaction if any ready, with a position and no filler train owed: READY with the number of entries is queued upward if no check of R125 fails, else REFUSED with the first failed code, and the entries are dropped; the use has voted. With no use, or one that may not vote yet, nothing changes. (R15, R122, R123, R124, R125) -/
def Obligations.FollowersStageAndVote : Prop :=
  (∀ (s : State) (r : Ready) (l : List Ready) (b : Bool), s.ring.ready = r :: l → r.pkt.type = 7 → beAt r.pkt.data 0 1 = 1 →
      readRoute s r.pkt.route.toNat = .here b → s.use (beAt r.pkt.data 1 1 % 16) = none → stagedAll s + (partEntries r.pkt).length ≤ 512 →
      Runs .xaPrepareRx s fun t => t.ring.ready = l ∧ ∃ u, t.use (beAt r.pkt.data 1 1 % 16) = some u ∧ u.entries = partEntries r.pkt ∧
        u.epoch = beAt r.pkt.data 2 4 ∧ u.target = beAt r.pkt.data 8 6 ∧ u.ops = beAt r.pkt.data 16 1 ∧ u.closed = false ∧ u.voted = false) ∧
  (∀ (s : State) (r : Ready) (l : List Ready) (n y k : Nat), s.ring.ready = r :: l → r.pkt.type = 7 → beAt r.pkt.data 0 1 = 1 →
      readRoute s r.pkt.route.toNat = .through n → s.use (beAt r.pkt.data 1 1 % 16) = none → mayControl s n = true → s.on (F.RED_RSTAT_SILENT n) = false →
      pairEn s = false → rateRatio (s.rd (F.WT_RCFG_RATE n)) (s.rd F.WT_FMARK_RATE) = some k → genRuns s n = true →
      (posOfRoute s r.pkt.route.toNat = 63 → s.on (F.CL_RTAB_FLAGS_LOCK n) = true) →
      freeXidBelow s (if s.on F.XA_AUTO_SWAP_SYNC then 15 else 16) = some y →
      Runs .xaPrepareRx s fun t => t.ring.ready = l ∧ (t.xid y).st = .preparing ∧ (t.xid y).parent = some (beAt r.pkt.data 1 1 % 16) ∧
        (t.xid y).rings = [(n, k * beAt r.pkt.data 8 6)] ∧ (∃ u, t.use (beAt r.pkt.data 1 1 % 16) = some u ∧ u.sub = some y ∧ u.entries = []) ∧
        ∀ p ∈ ringEnds s n, s.isUp p = true → ∃ c, .packet p c ∈ t.out ∧ c.type = 7 ∧ c.route = r.pkt.route ∧ beAt c.data 0 1 = 1 ∧ beAt c.data 1 1 = y ∧
          beAt c.data 8 6 = k * beAt r.pkt.data 8 6 % 2 ^ 48) ∧
  (∀ (s : State) (r : Ready) (l : List Ready) (u : Use), s.ring.ready = r :: l → r.pkt.type = 7 → beAt r.pkt.data 0 1 = 4 →
      s.use (beAt r.pkt.data 1 1 % 16) = some u → u.epoch = beAt r.pkt.data 2 4 → u.target = beAt r.pkt.data 8 6 → u.closed = false →
      partsWhole u = false → u.badParts = false →
      Runs .xaPrepareCloseRx s fun t => t.ring.ready = l ∧ t.use (beAt r.pkt.data 1 1 % 16) = some { u with closed := true } ∧
        ∀ y, u.sub = some y → (s.xid y).st = .preparing → (t.xid y).st = .voting ∧
          (pairEn s = false → ∀ e ∈ (s.xid y).rings, mayControl s e.1 = true → s.on (F.RED_RSTAT_SILENT e.1) = false → ∀ p ∈ ringEnds s e.1, s.isUp p = true →
            ∃ c, .packet p c ∈ t.out ∧ c.type = 7 ∧ beAt c.data 0 1 = 4 ∧ beAt c.data 1 1 = y % 256 ∧ beAt c.data 8 6 = e.2 % 2 ^ 48)) ∧
  (∀ (s : State) (r : Ready) (l : List Ready), s.ring.ready = r :: l → r.pkt.type = 7 → beAt r.pkt.data 0 1 = 4 →
      (∀ u, s.use (beAt r.pkt.data 1 1 % 16) = some u → u.epoch ≠ beAt r.pkt.data 2 4 ∨ u.target ≠ beAt r.pkt.data 8 6 ∨ u.closed = true) →
      Runs .xaPrepareCloseRx s (Reports { s with ring := { s.ring with ready := l } })) ∧
  (∀ (x : Fin 16) (s : State) (u : Use), s.use x.val = some u → u.voted = false → u.mute = false → u.closed = true →
      (partsWhole u = true ∨ u.badParts = true) → (∀ y, u.sub = some y → subReady s y x.val = true) → s.on F.CL_MYPOS_VALID = true → NoTrain s →
      Runs (.xaVoteSend x) s fun t =>
        (refuseCode s u = none → t.use x.val = some { u with voted := true } ∧
          Queued t (upPacket s 7 (xaHead 2 x.val ((followedEpoch s).getD 0) 0 ++ ([1#8] ++ bytesBE 1 0 ++ bytesBE 2 (u.entries.length + u.down) ++ bytesBE 4 0)))) ∧
        (∀ c, refuseCode s u = some c → t.use x.val = some { u with voted := true, refused := true, entries := [] } ∧
          Queued t (upPacket s 7 (xaHead 2 x.val ((followedEpoch s).getD 0) 0 ++ ([2#8] ++ bytesBE 1 c ++ bytesBE 2 (u.entries.length + u.down) ++ bytesBE 4 0))))) ∧
  (∀ (x : Fin 16) (s : State), (∀ u, s.use x.val = some u → u.voted = true ∨ u.mute = true ∨ u.closed = false ∨ partsWhole u = false ∧ u.badParts = false) →
      Runs (.xaVoteSend x) s (Reports s)) ∧
  (∀ s : State, s.ring.ready = [] → Runs .xaPrepareRx s (Reports s) ∧ Runs .xaPrepareCloseRx s (Reports s))

/-- NET_PORT_UP of an enabled port, down, without conflict and in a combination of R138, FEC locked where it is on: LINK = 1, HIBER = 0, FEC_LOCK shows the FEC, and its lane shows stable lock; otherwise nothing changes. NET_PORT_DOWN of a port that is up: LINK = 0, HIBER tells hi_ber, FEC lock is gone with its loss, and a well-formed transmit head of that port leaves the ring. On a port that is down, nothing at the head of the transmit ring, NET_PORT_DOWN changes nothing, nor does NET_FRAME_RX. NET_FRAME_RX on a port that is up counts the FEC symbols, and: a bad or misfit frame in FCS_ERR; a good one without room, or MAC Control, in DROP; any other in RX_OK, and then one with a bad checksum in DROP, a PTP event frame takes the next host descriptor, its bytes go to that buffer and HEAD moves on, and a packet of a flow that fails a check of R146 counts in that flow's BAD, while one that passes brings the leg up and, with one leg on, counts as first on it. (R138, R139, R140, R141, R145, R146, R148, R155, R156) -/
def Obligations.NetworkPortsAndFrames : Prop :=
  (∀ (n : Fin 4) (fl : Bool) (s : State),
      (s.on (F.NI_PCFG_EN n.val) = true → s.on (F.NI_PSTAT_CONFLICT n.val) = false → niConfigOk s n.val = true →
        s.on (F.NI_PSTAT_LINK n.val) = false → (s.rd (F.NI_PCFG_FEC n.val) = 0 ∨ fl = true) →
        Runs (.netPortUp n fl) s (Reports (([F.LANE_STAT_SIGDET (s.rd (F.NI_PCFG_LANE n.val)), F.LANE_STAT_CDR_LOCK (s.rd (F.NI_PCFG_LANE n.val)),
          F.LANE_STAT_BLOCK_LOCK (s.rd (F.NI_PCFG_LANE n.val)), F.LANE_STAT_STABLE (s.rd (F.NI_PCFG_LANE n.val))]).foldl (fun s f => s.wr f 1)
          (((s.wr (F.NI_PSTAT_LINK n.val) 1).wr (F.NI_PSTAT_HIBER n.val) 0).wr (F.NI_PSTAT_FEC_LOCK n.val) (b2n (s.rd (F.NI_PCFG_FEC n.val) != 0)))))) ∧
      (s.on (F.NI_PCFG_EN n.val) = false ∨ s.on (F.NI_PSTAT_CONFLICT n.val) = true ∨ niConfigOk s n.val = false ∨
        s.on (F.NI_PSTAT_LINK n.val) = true ∨ (s.rd (F.NI_PCFG_FEC n.val) ≠ 0 ∧ fl = false) → Runs (.netPortUp n fl) s (Reports s))) ∧
  (∀ (n : Fin 4) (c : Fin 3) (s : State), s.on (F.NI_PSTAT_LINK n.val) = true →
      Runs (.netPortDown n c) s fun t => t.on (F.NI_PSTAT_LINK n.val) = false ∧ t.on (F.NI_PSTAT_HIBER n.val) = (c == 1) ∧
        (c = 2 → t.on (F.NI_PSTAT_FEC_LOCK n.val) = false) ∧ (∀ a, a ≠ R.NI_PSTAT n.val → a ≠ R.NI_HTX_HEAD → t.reg a = s.reg a) ∧
        ∀ d l, s.ni.htx = d :: l → s.on F.NI_HTX_CTL_EN = true → leAt d 10 1 = n.val → ∃ k, t.ni.htx = l.drop k) ∧
  (∀ (n : Fin 4) (c : Fin 3) (b : List Byte) (ok dr : Bool) (x y : BitVec 16) (s : State), s.on (F.NI_PSTAT_LINK n.val) = false →
      (s.ni.htx = [] ∨ s.on F.NI_HTX_CTL_EN = false → Runs (.netPortDown n c) s (Reports s)) ∧ Runs (.netFrameRx n b ok dr x y) s (Reports s)) ∧
  (∀ (n : Fin 4) (b : List Byte) (ok dr : Bool) (x y : BitVec 16) (s u : State), s.on (F.NI_PSTAT_LINK n.val) = true →
      u = (s.bump (F.NI_PFEC_CORR n.val) x.toNat).bump (F.NI_PFEC_UNCORR n.val) y.toNat →
      ((ok = false ∨ b.length < 64 ∨ 9216 < b.length) → Runs (.netFrameRx n b ok dr x y) s (Reports (u.bump (F.NI_PERR_FCS_ERR n.val) 1))) ∧
      (ok = true → 64 ≤ b.length → b.length ≤ 9216 → (dr = true ∨ beAt (b.take (b.length - 4)) 12 2 = 0x8808) →
        Runs (.netFrameRx n b ok dr x y) s (Reports (u.bump (F.NI_PERR_DROP n.val) 1))) ∧
      (ok = true → 64 ≤ b.length → b.length ≤ 9216 → dr = false → beAt (b.take (b.length - 4)) 12 2 ≠ 0x8808 →
        (classify s n.val (b.take (b.length - 4)) = .bad →
          Runs (.netFrameRx n b ok dr x y) s (Reports ((u.bump (F.NI_PRX_RX_OK n.val) 1).bump (F.NI_PERR_DROP n.val) 1))) ∧
        (classify s n.val (b.take (b.length - 4)) = .gone → Runs (.netFrameRx n b ok dr x y) s (Reports (u.bump (F.NI_PRX_RX_OK n.val) 1))) ∧
        (∀ (e : Nat × Nat) (l : List (Nat × Nat)), classify s n.val (b.take (b.length - 4)) = .host true → s.on F.NI_HRX_CTL_EN = true → s.ni.hrx = e :: l →
          Runs (.netFrameRx n b ok dr x y) s fun t => .hostWrite e.1 ((b.take (b.length - 4)).take e.2) ∈ t.out ∧ t.ni.hrx = l ∧
            t.rd F.NI_HRX_HEAD_HEAD = (s.rd F.NI_HRX_HEAD_HEAD + 1) % hrSize s false ∧
            t.rd (F.NI_PRX_RX_OK n.val) = satAdd (F.NI_PRX_RX_OK n.val).w (s.rd (F.NI_PRX_RX_OK n.val)) 1) ∧
        (∀ (f : Nat) (legB : Bool) (p : List Byte), classify s n.val (b.take (b.length - 4)) = .flow f legB p →
          (∀ k, parseRtp s f p = .inr k →
            Runs (.netFrameRx n b ok dr x y) s (Reports ((u.bump (F.NI_PRX_RX_OK n.val) 1).bump (F.NI_FERR_BAD f) 1))) ∧
          (∀ r, parseRtp s f p = .inl r → legOn s f (!legB) = false →
            Runs (.netFrameRx n b ok dr x y) s fun t => t.on (if legB then F.NI_FSTAT_LEGB_UP f else F.NI_FSTAT_LEGA_UP f) = true ∧
              t.rd (if legB then F.NI_FMERGE_FIRST_B f else F.NI_FMERGE_FIRST_A f) =
                satAdd (F.NI_FMERGE_FIRST_A f).w (s.rd (if legB then F.NI_FMERGE_FIRST_B f else F.NI_FMERGE_FIRST_A f)) 1))))

/-- In a sender alone, nothing waiting for an XID or its turn, by a path that reaches it: FLOW_ENABLE of a disabled flow that passes R144: EN = 1 and WAIT; one that fails: EN = 0, REFUSE is the first failed check, the state stays. FLOW_DISABLE of an enabled flow: EN = 0, OFF, its open frames gone. LEG_LOSS_TIME of a leg that is up: it is down and nothing else changes; of one that is down it notes LOSS_TIME, and stalls a running flow once every enabled leg has been down for it. CLOSE_WAIT_EXPIRE with a marked oldest frame or a newer one, and FRAME_LOSS_EXPIRE, ungrouped, no frame behind it complete: the oldest frame is open no more; with the mirror link down one with a buffer and no more than CONCEAL_MAX lines missing is published and those are counted, any other is counted as dropped; with the link up it waits for the partner's report. With nothing open, or one unmarked frame, nothing changes. PAIR_WAIT_EXPIRE: the oldest closing frame whose report is missing is decided alone, by the same rule; with none nothing changes. (R144, R145, R149, R150, R151, R152) -/
def Obligations.FlowsRunAndPublish : Prop :=
  (∀ (path : Access) (f : Fin 32) (w : Word) (r : RegSpec) (v : Nat) (s : State), reaches s path = true → addrOn s.strap.role (R.NI_FCFG f.val) = true → Alone s →
      s.on (F.NI_FCFG_EN f.val) = false → findReg (R.NI_FCFG f.val) = some r →
      v = (wordEffect r (s.reg (R.NI_FCFG f.val)) (setBits w.toNat 0 1 1) false false).live →
      Runs (.flowEnable path f w) s fun t =>
        (enableCheck ((s.setReg (R.NI_FCFG f.val) v).wr (F.NI_FCFG_EN f.val) 0) f.val = none → t.on (F.NI_FCFG_EN f.val) = true ∧
          t.rd (F.NI_FSTAT_STATE f.val) = 1 ∧ t.flow f.val = Flow.init) ∧
        (∀ c, enableCheck ((s.setReg (R.NI_FCFG f.val) v).wr (F.NI_FCFG_EN f.val) 0) f.val = some c → t.on (F.NI_FCFG_EN f.val) = false ∧
          t.rd (F.NI_FSTAT_REFUSE f.val) = c ∧ t.rd (F.NI_FSTAT_STATE f.val) = s.rd (F.NI_FSTAT_STATE f.val))) ∧
  (∀ (path : Access) (f : Fin 32) (w : Word) (s : State), reaches s path = true → addrOn s.strap.role (R.NI_FCFG f.val) = true → Alone s →
      s.on (F.NI_FCFG_EN f.val) = true →
      Runs (.flowDisable path f w) s fun t => t.on (F.NI_FCFG_EN f.val) = false ∧ t.rd (F.NI_FSTAT_STATE f.val) = 0 ∧ (t.flow f.val).opens = []) ∧
  (∀ (f : Fin 32) (b : Bool) (s u : State), u = s.modFlow f.val (fun x => if b then { x with longB := true } else { x with longA := true }) →
      (s.on (if b then F.NI_FSTAT_LEGB_UP f.val else F.NI_FSTAT_LEGA_UP f.val) = true →
        Runs (.legLossTime f b) s (Reports (s.wr (if b then F.NI_FSTAT_LEGB_UP f.val else F.NI_FSTAT_LEGA_UP f.val) 0))) ∧
      (s.on (if b then F.NI_FSTAT_LEGB_UP f.val else F.NI_FSTAT_LEGA_UP f.val) = false →
        (legOn s f.val b = true → s.rd (F.NI_FSTAT_STATE f.val) = 2 →
          (legOn s f.val (!b) = false ∨ (if b then (s.flow f.val).longA else (s.flow f.val).longB) = true) →
          Runs (.legLossTime f b) s (Reports (u.wr (F.NI_FSTAT_STATE f.val) 3))) ∧
        (legOn s f.val b = false ∨ s.rd (F.NI_FSTAT_STATE f.val) ≠ 2 ∨
          (legOn s f.val (!b) = true ∧ (if b then (s.flow f.val).longA else (s.flow f.val).longB) = false) →
          Runs (.legLossTime f b) s (Reports u)))) ∧
  (∀ (c : Instr) (f : Fin 32) (s : State) (o : OpenFrame) (l : List OpenFrame), (c = .frameLossExpire f ∨ c = .closeWaitExpire f ∧ (o.marker = true ∨ l ≠ [])) →
      (s.flow f.val).opens = o :: l → grouped s f.val = false → (∀ q ∈ l, q.buf = none ∨ incomplete s f.val q ≠ []) →
      Runs c s fun t => (∀ p ∈ (t.flow f.val).opens, p.media ≠ o.media) ∧ (t.flow f.val).lastClosed ≠ none ∧
        (mirrorUp s = false →
          (∀ k, o.buf = some k → (incomplete s f.val o).length ≤ s.rd F.NI_CTL_CONCEAL_MAX →
            t.rd (F.NI_FSTAT_PUB f.val) = k % 8 ∧ t.on (F.NI_FSTAT_PUB_VALID f.val) = true ∧
            t.rd64 (F.NI_FMEDIA_LO_MEDIA f.val) (F.NI_FMEDIA_HI_MEDIA f.val) = o.media % 2 ^ 64 ∧
            t.rd (F.NI_FLOSS_CONCEALED f.val) = satAdd (F.NI_FLOSS_CONCEALED f.val).w (s.rd (F.NI_FLOSS_CONCEALED f.val)) (incomplete s f.val o).length) ∧
          (o.buf = none ∨ s.rd F.NI_CTL_CONCEAL_MAX < (incomplete s f.val o).length → t.rd (F.NI_FSTAT_PUB f.val) = s.rd (F.NI_FSTAT_PUB f.val) ∧
            t.rd (F.NI_FERR_DROPPED f.val) = satAdd (F.NI_FERR_DROPPED f.val).w (s.rd (F.NI_FERR_DROPPED f.val)) 1)) ∧
        (mirrorUp s = true → (∀ e ∈ (s.flow f.val).early, e.1 ≠ o.media) →
          (t.flow f.val).closing = (s.flow f.val).closing ++ [⟨o.media, o.buf, incomplete s f.val o, none, false, []⟩])) ∧
  (∀ (f : Fin 32) (s : State), ((s.flow f.val).opens = [] → Runs (.frameLossExpire f) s (Reports s)) ∧
      ((∀ o l, (s.flow f.val).opens = o :: l → o.marker = false ∧ l = []) → Runs (.closeWaitExpire f) s (Reports s))) ∧
  (∀ (f : Fin 32) (s : State) (c : PairFrame) (l : List PairFrame), (s.flow f.val).closing = c :: l → c.theirs = none → c.alone = false →
      (∀ d ∈ l, d.media ≠ c.media ∧ d.alone = false ∧ d.theirs = none) → grouped s f.val = false →
      Runs (.pairWaitExpire f) s fun t => (t.flow f.val).closing = l ∧
        (∀ k, c.buf = some k → c.missing.length ≤ s.rd F.NI_CTL_CONCEAL_MAX → t.rd (F.NI_FSTAT_PUB f.val) = k % 8 ∧ t.on (F.NI_FSTAT_PUB_VALID f.val) = true) ∧
        (c.buf = none ∨ s.rd F.NI_CTL_CONCEAL_MAX < c.missing.length → t.rd (F.NI_FSTAT_PUB f.val) = s.rd (F.NI_FSTAT_PUB f.val) ∧
          t.rd (F.NI_FERR_DROPPED f.val) = satAdd (F.NI_FERR_DROPPED f.val).w (s.rd (F.NI_FERR_DROPPED f.val)) 1)) ∧
  (∀ (f : Fin 32) (s : State), (∀ c ∈ (s.flow f.val).closing, c.theirs.isSome = true ∨ c.alone = true) → Runs (.pairWaitExpire f) s (Reports s))

/-- In a device alone, nothing waiting for an XID or its turn, by a path that reaches it, the descriptors of the write enough for TAIL: HRX_TAIL_WRITE leaves as many receive descriptors as lie between HEAD and TAIL, in order; HTX_TAIL_WRITE likewise for transmit while the ring is off or its head can be sent. HTX_FRAME_DONE with the ring on and a well-formed descriptor of a port that is up at its head: the frame leaves the port with its FCS, and its descriptor is taken off; with no descriptor, or the ring off, nothing changes. (R155, R156) -/
def Obligations.NetworkHostRings : Prop :=
  (∀ (path : Access) (w : Word) (ds : List (BitVec 64 × BitVec 16)) (n : Nat) (s : State), reaches s path = true → addrOn s.strap.role R.NI_HRX_TAIL = true →
      Alone s → n = (w.toNat % 4096 + hrSize s false - s.rd F.NI_HRX_HEAD_HEAD % hrSize s false) % hrSize s false → n ≤ s.ni.hrx.length + ds.length →
      Runs (.hrxTailWrite path w ds) s fun t => t.ni.hrx = (s.ni.hrx ++ ds.map fun e => (e.1.toNat, e.2.toNat)).take n ∧
        t.rd F.NI_HRX_TAIL_TAIL = w.toNat % 4096 ∧ t.free = s.free) ∧
  (∀ (path : Access) (w : Word) (ds : List (List Byte)) (n : Nat) (s : State), reaches s path = true → addrOn s.strap.role R.NI_HTX_TAIL = true →
      Alone s → n = (w.toNat % 4096 + hrSize s true - s.rd F.NI_HTX_HEAD_HEAD % hrSize s true) % hrSize s true → n ≤ s.ni.htx.length + ds.length →
      (s.on F.NI_HTX_CTL_EN = false ∨ ∃ d l, s.ni.htx ++ ds.map (fun b => slice b 0 32) = d :: l ∧ 60 ≤ leAt d 8 2 ∧ leAt d 8 2 ≤ 9212 ∧ leAt d 10 1 ≤ 3 ∧
        s.on (F.NI_PSTAT_LINK (leAt d 10 1)) = true) →
      Runs (.htxTailWrite path w ds) s fun t => t.ni.htx = (s.ni.htx ++ ds.map fun b => slice b 0 32).take n ∧ t.rd F.NI_HTX_TAIL_TAIL = w.toNat % 4096) ∧
  (∀ (b d : List Byte) (l : List (List Byte)) (s : State), s.ni.htx = d :: l → s.on F.NI_HTX_CTL_EN = true → 60 ≤ leAt d 8 2 → leAt d 8 2 ≤ 9212 →
      leAt d 10 1 ≤ 3 → s.on (F.NI_PSTAT_LINK (leAt d 10 1)) = true →
      Runs (.htxFrameDone b) s fun t => Sends s t [.ethFrame (leAt d 10 1) (slice b 0 (leAt d 8 2) ++ ethFcs (slice b 0 (leAt d 8 2)))] ∧
        (∃ k, t.ni.htx = l.drop k)) ∧
  (∀ (b : List Byte) (s : State), (s.ni.htx = [] ∨ s.on F.NI_HTX_CTL_EN = false) → Runs (.htxFrameDone b) s (Reports s))

/-- SEND_WINDOW_CLOSE of an open window: it is closed, and segments not sent count one underrun; of a closed one nothing changes. MAPPER_SEGMENT_SEND of an open window whose next packet ends in time: a double-bit error in the map entry takes that position out of the window; a segment at pixel x of line y whose layers have their records and choices, outside a pair, leaves every UP end of the ring as a PIXEL packet with the frame, line, pixel and count of it, and the window goes on behind it; a check-value packet likewise with its flag. With no packet left, one that would end late, or one that waits, nothing changes. RECORD_READ_DONE of a record due: it is no longer due and is what DRAM holds, and with an error it is read again; of one not due, without error, nothing changes. SEAL_CHECK_DONE of a registered check: it ends, and a different CRC counts in SEAL_FAIL; without one nothing changes. (R160, R166, R173, R176, R177, R179, R180) -/
def Obligations.CompositionWindows : Prop :=
  (∀ (r : Fin 8) (s : State), (s.win r.val).isOpen = true →
      Runs (.sendWindowClose r) s fun t => t.win r.val = { s.win r.val with isOpen := false } ∧
        t.rd (F.CMP_RSTAT_UNDERRUNS r.val) = (if mapSegs (s.map r.val) (ringFmt s r.val) ≤ (s.win r.val).seq.foldl (fun n e => n + e.2) 0
          then s.rd (F.CMP_RSTAT_UNDERRUNS r.val) else satAdd (F.CMP_RSTAT_UNDERRUNS r.val).w (s.rd (F.CMP_RSTAT_UNDERRUNS r.val)) 1)) ∧
  (∀ (r : Fin 8) (s : State), (s.win r.val).isOpen = false →
      Runs (.sendWindowClose r) s (Reports s) ∧ ∀ fs e, Runs (.mapperSegmentSend r fs e) s (Reports s)) ∧
  (∀ (r : Fin 8) (fs : List Nat) (s : State), (s.win r.val).isOpen = true → seekSeg (s.map r.val) (ringFmt s r.val) 4300 (s.win r.val) = none →
      Runs (.mapperSegmentSend r fs false) s (Reports s)) ∧
  (∀ (r : Fin 8) (fs : List Nat) (w : SendWin) (e : MapEntry) (n : Nat) (s : State), (s.win r.val).isOpen = true →
      seekSeg (s.map r.val) (ringFmt s r.val) 4300 (s.win r.val) = some w → e = mapEntry (s.map r.val) (w.pos + 1) →
      n = min (segMax (ringFmt s r.val)) (e.width - w.x) →
      Runs (.mapperSegmentSend r fs true) s (Reports (s.setWin r.val { w with dead := (w.pos + 1) :: w.dead })) ∧
      (w.checks = false → fetchWaits s r.val ((List.range n).map fun i => e.wall (w.x + i) w.round) = true ∨
          endsInWindow s r.val w.frame (segBlocks (ringFmt s r.val) n) = false → Runs (.mapperSegmentSend r fs false) s (Reports s)) ∧
      (w.checks = true → endsInWindow s r.val w.frame 4 = false → Runs (.mapperSegmentSend r fs false) s (Reports s)) ∧
      (w.checks = false → fetchWaits s r.val ((List.range n).map fun i => e.wall (w.x + i) w.round) = false →
        endsInWindow s r.val w.frame (segBlocks (ringFmt s r.val) n) = true → pairEn s = false → s.on (F.RED_RSTAT_SILENT r.val) = false →
        Runs (.mapperSegmentSend r fs false) s fun t => (t.win r.val).x = w.x + n ∧ (t.win r.val).round = w.round ∧ (t.win r.val).pos = w.pos ∧
          ∀ p ∈ ringEnds s r.val, s.isUp p = true → ∃ c, .packet p c ∈ t.out ∧ c.type = 1 ∧ beAt c.data 0 6 = w.frame % 2 ^ 48 ∧
            beAt c.data 8 2 = w.round % 2 ^ 16 ∧ beAt c.data 10 2 = w.x % 2 ^ 16 ∧ beAt c.data 12 2 = n % 2 ^ 16 ∧ bitAt (beAt c.data 15 1) 1 = false ∧
            c.seq.toNat = s.rd (F.RED_RSTAT_SEQ r.val)) ∧
      (w.checks = true → endsInWindow s r.val w.frame 4 = true → pairEn s = false → s.on (F.RED_RSTAT_SILENT r.val) = false →
        Runs (.mapperSegmentSend r fs false) s fun t => (t.win r.val).pos = w.pos + 1 ∧
          ∀ p ∈ ringEnds s r.val, s.isUp p = true → ∃ c, .packet p c ∈ t.out ∧ c.type = 1 ∧ beAt c.data 0 6 = w.frame % 2 ^ 48 ∧
            bitAt (beAt c.data 15 1) 1 = true)) ∧
  (∀ (r : Fin 8) (ue : Bool) (s : State),
      (s.cmp.ringDue.testBit r.val = true →
        Runs (.recordReadDone r none ue) s fun t => t.cmp.ringDue.testBit r.val = false ∧
          Table.get [] t.cmp.ringRec r.val = (dramFetch s (rrec s r.val) 36864).2.1 ∧ (ue = true → t.cmp.ringRetry.testBit r.val = true)) ∧
      (s.cmp.ringDue.testBit r.val = false → Runs (.recordReadDone r none false) s (Reports s))) ∧
  (∀ (r : Fin 8) (l : Fin 16) (ue : Bool) (s : State),
      ((s.layer r.val l.val).due = true →
        Runs (.recordReadDone r (some l) ue) s fun t => (t.layer r.val l.val).due = false ∧
          (t.layer r.val l.val).copy = (dramFetch s (lrec s r.val l.val) 12288).2.1 ∧ (ue = true → (t.layer r.val l.val).retry = true)) ∧
      ((s.layer r.val l.val).due = false → Runs (.recordReadDone r (some l) false) s (Reports s))) ∧
  (∀ (r : Fin 8) (l : Fin 16) (s : State),
      (∀ q : SealRun, s.cmp.seals.find? (fun q => q.ring == r.val && q.layer == l.val) = some q →
        Runs (.sealCheckDone r l) s fun t => t.cmp.seals = s.cmp.seals.erase q ∧
          t.rd (F.CMP_LCNT_SEAL_FAIL r.val l.val) = (if crc32 ((List.range q.rows).flatMap fun i => dramRead s (q.start + i * q.pitch) q.bytes) = q.crc
            then s.rd (F.CMP_LCNT_SEAL_FAIL r.val l.val) else satAdd (F.CMP_LCNT_SEAL_FAIL r.val l.val).w (s.rd (F.CMP_LCNT_SEAL_FAIL r.val l.val)) 1)) ∧
      (s.cmp.seals.find? (fun q => q.ring == r.val && q.layer == l.val) = none → Runs (.sealCheckDone r l) s (Reports s)))

/-- By a path that reaches the device: LS_WINDOW_READ of a good entry answers its low word, at +4 its high bits. LS_WINDOW_WRITE at +0 holds the word for the path; at +4, on a bank that accepts it, the entry is the held word and the low byte, its reserved bits 0; refused, no entry changes. PIX_BANK_COPY with the host as owner and no copy running starts one, else the banks stay; PIX_COPY_DONE makes the shadow equal to the live bank and ends it, and without a copy changes nothing. PIX_BANK_SWAP joins the open set. LS_SCRUB outside RUN-quiet counts a corrected entry and marks an uncorrectable one; of a clean entry, or in RUN-quiet, nothing changes. (R196, R197, R198, R199, R200, R419) -/
def Obligations.LampStoreAndBanks : Prop :=
  (∀ (path : Access) (addr : BitVec 25) (b hi : Bool) (i : Nat) (s : State), reaches s path = true → addrOn s.strap.role (addr.toNat / 4 * 4) = true →
      isWindow addr.toNat = true → lsAddr (addr.toNat / 4 * 4) = some (b, i, hi) → Table.get 0 (bankOf s b).bad i = 0 →
      Table.get 0 s.latch (pathIdx (accessPath path) * 0x2000000 + addr.toNat / 4 * 4) = 0 →
      Runs (.lsWindowRead path addr) s fun t => t.regs = s.regs ∧ t.pix = s.pix ∧
        Sends s t [.readData (if hi then entryOf s b i / 2 ^ 32 else entryOf s b i % 2 ^ 32)]) ∧
  (∀ (path : Access) (addr : BitVec 25) (w : Word) (b hi : Bool) (i : Nat) (s : State), reaches s path = true → addrOn s.strap.role (addr.toNat / 4 * 4) = true →
      isWindow addr.toNat = true → lsAddr (addr.toNat / 4 * 4) = some (b, i, hi) →
      Runs (.lsWindowWrite path addr w) s fun t =>
        (hi = false → Table.get (0, 0) t.pix.held (pathIdx (accessPath path)) = (addr.toNat / 4 * 4, w.toNat) ∧ entryOf t b i = entryOf s b i) ∧
        (hi = true → lsRefusal s b = none → (Table.get (0, 0) s.pix.held (pathIdx (accessPath path))).1 + 4 = addr.toNat / 4 * 4 →
          (Table.get (0, 0) s.pix.held (pathIdx (accessPath path))).1 ≠ 0 →
          entryOf t b i = ((Table.get (0, 0) s.pix.held (pathIdx (accessPath path))).2 + 2 ^ 32 * (w.toNat % 256)) % 2 ^ 37) ∧
        (hi = true → (∃ c, lsRefusal s b = some c) → ∀ d j, entryOf t d j = entryOf s d j)) ∧
  (∀ (path : Access) (s : State), reaches s path = true → addrOn s.strap.role R.PIX_BANK = true →
      Runs (.pixBankCopy path) s fun t => (∀ b, bankOf t b = bankOf s b) ∧
        (s.on F.PIX_BANK_OWNER = false → s.on F.PIX_BANK_COPY_BUSY = false → t.on F.PIX_BANK_COPY_BUSY = true ∧ t.pix.changed = true)) ∧
  (∀ s : State, s.on F.PIX_BANK_COPY_BUSY = true →
      Runs .pixCopyDone s fun t => t.on F.PIX_BANK_COPY_BUSY = false ∧ bankOf t (!(liveBank s)) = bankOf s (liveBank s) ∧
        bankOf t (liveBank s) = bankOf s (liveBank s) ∧ liveBank t = liveBank s) ∧
  (∀ s : State, s.on F.PIX_BANK_COPY_BUSY = false → Runs .pixCopyDone s (Reports s)) ∧
  (∀ (path : Access) (s : State), reaches s path = true → addrOn s.strap.role R.PIX_BANK = true →
      Runs (.pixBankSwap path) s fun t => heldOpen t R.PIX_BANK 8 = true ∧ t.commit.closed = s.commit.closed) ∧
  (∀ (b : Bool) (i : Fin 786432) (s : State),
      (s.quiet = false → Runs (.lsScrub b i 0) s (Reports s) ∧
        Runs (.lsScrub b i 1) s (fun t => t.rd F.PIX_LSERR_CE = satAdd F.PIX_LSERR_CE.w (s.rd F.PIX_LSERR_CE) 1 ∧ bankOf t b = bankOf s b) ∧
        Runs (.lsScrub b i 2) s (fun t => Table.get 0 (bankOf t b).bad i.val ≠ 0 ∧ (bankOf t b).ent = (bankOf s b).ent)) ∧
      (s.quiet = true → ∀ e, Runs (.lsScrub b i e) s (Reports s)))

/-- PIXEL_SEGMENT_RX in a carriage or standalone device that displays, out of RUN-quiet, of a well-placed segment: of the fill frame, its place and content CRC are recorded; of an earlier frame, SEG_LATE counts and nothing is stored. In a coach with an enabled drawbar layer a segment of its fill frame that fits is recorded. With none ready nothing changes. PIX_ENABLE by a path that reaches the device turns the pipeline on, or with a geometry that R183 refuses leaves it off. READOUT_END and LOAD_DEADLINE, no array error met, the Drive Link running: every lamp that answers but the u undelivered is loaded by LOAD words, device by device, the substituted ones are counted, and u > 0 with a lamp due counts one underrun. An array error is recorded. With no readout nothing changes. READBACK_PASS_DONE after the readout: every band judged shows its CRC and the expected one; during it, or with no pass, nothing changes. (R169, R183, R184, R186, R187, R195, R201, R239, R243, R263) -/
def Obligations.SegmentsAndReadout : Prop :=
  (∀ (c : Copy) (l : List Copy) (f : Nat) (u : Bool) (s : State), s.ring.pixels = c :: l → blockOn s.strap.role 11 = true → s.displays = true → s.pix.fillFrame = some f →
      bitAt (beAt c.data 15 1) 1 = false → beAt c.data 14 1 ≤ 2 → beAt c.data 8 2 < pixL s → beAt c.data 10 2 + beAt c.data 12 2 ≤ pixW s →
      Runs (.pixelSegmentRx u) s fun t => t.ring.pixels = l ∧
        (beAt c.data 0 6 = f → s.rd F.PIX_QSTAT_STATE = 0 →
          (⟨beAt c.data 6 2, beAt c.data 8 2, beAt c.data 10 2, beAt c.data 12 2, false⟩ : Seg) ∈ t.pix.segs ∧
          Table.get 0 t.pix.crcs (beAt c.data 6 2) = contentCrc c + 1 ∧ t.pix.fmt = some (beAt c.data 14 1)) ∧
        (frameLt (beAt c.data 0 6) f = true → beAt c.data 0 6 ≠ f →
          Reports { s.bump F.CL_SEGSTAT_SEG_LATE 1 with ring := { s.ring with pixels := l } } t)) ∧
  (∀ (c : Copy) (l : List Copy) (u : Bool) (s : State), s.ring.pixels = c :: l → blockOn s.strap.role 11 = false → s.on F.CMP_DBCFG_EN = true →
      bitAt (beAt c.data 15 1) 1 = false → beAt c.data 14 1 ≤ 2 → beAt c.data 0 6 = s.cmp.db.frame →
      beAt c.data 10 2 + beAt c.data 12 2 ≤ s.rd F.CMP_DBCFG_DB_W → beAt c.data 8 2 < s.rd F.CMP_DBCFG_DB_H →
      Runs (.pixelSegmentRx u) s fun t => t.ring.pixels = l ∧ (beAt c.data 6 2, beAt c.data 8 2, beAt c.data 10 2, beAt c.data 12 2) ∈ t.cmp.db.segs ∧
        t.cmp.db.fmt = beAt c.data 14 1) ∧
  (∀ (u : Bool) (s : State), s.ring.pixels = [] → Runs (.pixelSegmentRx u) s (Reports s)) ∧
  (∀ (path : Access) (w : Word) (s : State), reaches s path = true → addrOn s.strap.role R.PIX_CTL = true → s.on F.PIX_CTL_EN = false →
      Runs (.pixEnable path w) s fun t => t.on F.PIX_CTL_EN = (pixW s != 0 && pixL s != 0 && decide (pixW s * pixL s ≤ 262144))) ∧
  (∀ (c : Instr) (u : Nat) (v : Fin 786433) (fs : List (Fin 786432 × Fin 4)) (r : Readout) (all due : List LampOut) (s : State),
      (c = .readoutEnd fs [] ∧ u = 0 ∨ c = .loadDeadline v fs [] ∧ u = v.val) → s.pix.reading = some r →
      all = (outputs (s.modPix fun p => { p with reading := none }) r (lampPairs fs)).1 →
      due = (if drvRuns s then all.filter fun o => answers s o.lamp else []) →
      Runs c s fun t => t.pix.reading = none ∧ Sends s t (loadWords s (s.on F.PIX_CTL_DITHER) (due.take (due.length - u))) ∧
        t.rd F.PIX_RESCNT_LAMPS = satAdd F.PIX_RESCNT_LAMPS.w (s.rd F.PIX_RESCNT_LAMPS) (all.filter (·.subst)).length ∧
        t.rd F.DRV_STAT_UNDERRUNS = if u ≠ 0 ∧ due ≠ [] then satAdd F.DRV_STAT_UNDERRUNS.w (s.rd F.DRV_STAT_UNDERRUNS) 1 else s.rd F.DRV_STAT_UNDERRUNS) ∧
  (∀ (c : Instr) (v : Fin 786433) (fs : List (Fin 786432 × Fin 4)) (arr : List (Fin 5 × Fin 4096)) (s : State),
      (c = .readoutEnd fs arr ∨ c = .loadDeadline v fs arr) →
      (∀ r, s.pix.reading = some r → Runs c s fun t => t.pix.reading = none ∧ ∀ e ∈ arr,
        (e.1.val < 3 → Table.get 0 t.pix.lutBad (e.1.val * 4096 + e.2.val) ≠ 0) ∧ (e.1 = 3 → t.pix.tmatBad.testBit e.2.val = true) ∧
        (e.1 = 4 → Table.get 0 t.pix.crcBad e.2.val ≠ 0)) ∧
      (s.pix.reading = none → Runs c s (Reports s))) ∧
  (∀ (n missing : Nat) (want : List Nat) (s : State), s.chk.pass = some (n, some want, missing) → s.pix.reading = none → s.on F.CHK_CTL_IN_EN = true →
      Runs .readbackPassDone s fun t => t.chk.pass = none ∧ ∀ b, b < 8 → missing.testBit b = false →
        t.rd (F.CHK_ILAST_CRC b) = bandCrc s b ∧ t.rd (F.CHK_IEXP_CRC b) = want.getD b 0 % 2 ^ 32) ∧
  (∀ s : State, (s.chk.pass = none ∨ s.pix.reading.isSome = true) → Runs .readbackPassDone s (Reports s))

/-- QUIET_WAKE with a cause of R205 in RUN-quiet: the wake is under way with that cause, SYS_MSTAT.QUIET is clear, and the frame is noted as one that woke; outside RUN-quiet, or with a code that R205 does not list, nothing changes. QUIET_MAX_EXPIRE with a limit in RUN-quiet wakes with cause 7; without a limit, or outside it, nothing changes. QUIET_WAKE_DONE during a wake: the pipeline runs, no segment is held, and a Drive Link that was quiet runs again; with none held the pipeline's state is otherwise as before; outside a wake nothing changes. (R204, R205, R206) -/
def Obligations.RunQuietIsLeft : Prop :=
  (∀ (c : Fin 16) (s : State), s.quiet = true → 1 ≤ c.val → c.val ≤ 8 →
      Runs (.quietWake c) s fun t => t.rd F.PIX_QSTAT_STATE = 2 ∧ t.rd F.PIX_QSTAT_CAUSE = c.val ∧ t.on F.SYS_MSTAT_QUIET = false ∧
        t.pix = { s.pix with woke := true } ∧ t.drv = s.drv) ∧
  (∀ (c : Fin 16) (s : State), (s.quiet = false ∨ c = 0 ∨ 8 < c.val) → Runs (.quietWake c) s (Reports s)) ∧
  (∀ s : State, s.quiet = true → s.on F.PIX_QUIET_QUIET_MAX = true →
      Runs .quietMaxExpire s fun t => t.rd F.PIX_QSTAT_STATE = 2 ∧ t.rd F.PIX_QSTAT_CAUSE = 7 ∧ t.on F.SYS_MSTAT_QUIET = false) ∧
  (∀ s : State, (s.on F.PIX_QUIET_QUIET_MAX = false ∨ s.quiet = false) → Runs .quietMaxExpire s (Reports s)) ∧
  (∀ s : State, s.rd F.PIX_QSTAT_STATE = 2 →
      Runs .quietWakeDone s fun t => t.rd F.PIX_QSTAT_STATE = 0 ∧ t.rd F.DRV_STAT_STATE = (if s.rd F.DRV_STAT_STATE = 3 then 2 else s.rd F.DRV_STAT_STATE) ∧
        t.pix.wakeBuf = [] ∧ (s.pix.wakeBuf = [] → t.pix = s.pix)) ∧
  (∀ s : State, s.rd F.PIX_QSTAT_STATE ≠ 2 → Runs .quietWakeDone s (Reports s))

/-- BLEND_PASS_START where a pass may start: ENG is 1, INIT shows whether it is one, and an INIT pass takes each zone's value that is no substitute; else nothing changes. BLEND_PASS_DONE of a running pass: with more entries kept than PLAUS_MAX it is rejected, counted, and waits for its retry; else with a changed entry the shadow of a displaying tile is READY, an INIT pass of a tile that does not display swaps at once, and with none changed ENG is 0; with no pass nothing changes. By a path that reaches the device CAL_KICK in slow mode makes a pass due, BLEND_ENABLE gives the engine the banks, BLEND_DISABLE takes them back, CAL_CAPTURE in SERVICE with sensors enough asks for a capture, else none, CAL_RESET_G for gains of one, and AMB_DISABLE ends the ambient scale. BLEND_RETRY_EXPIRE ends the wait. LOOP_UPDATE with enough sensors makes the three new gains, with fewer it gathers anew; where none is due nothing changes. CAPTURE_DONE of a full capture writes the references; else nothing changes. (R218, R219, R221, R222, R223, R224, R225, R226, R229, R231, R232, R233) -/
def Obligations.BlendPassesAndCaptures : Prop :=
  (∀ s : State, (passMayStart s = true →
        Runs .blendPassStart s fun t => t.rd F.CAL_STAT_ENG = 1 ∧ t.on F.CAL_STAT_INIT = s.cal.init ∧ t.cal.init = false ∧ t.cal.due = false ∧
          ∀ z : Fin 8, s.cal.init = true → s.on (F.HK_VAL_SUBST (4 + z.val)) = false → t.rd (ztemp z.val) = s.rd (F.HK_VAL_VALUE (4 + z.val))) ∧
      (passMayStart s = false → Runs .blendPassStart s (Reports s))) ∧
  (∀ (res : List (Fin 786432)) (w : PassSum) (s : State), s.rd F.CAL_STAT_ENG = 1 → w = (passWalk s (res.map fun r => r.val) 786432).2 →
      (s.rd F.CAL_LIM0_PLAUS_MAX < w.kept →
        Runs (.blendPassDone res) s fun t => t.rd F.CAL_STAT_ENG = 0 ∧ t.cal.retry = true ∧ t.cal.due = true ∧ t.on F.PIX_BANK_READY = s.on F.PIX_BANK_READY ∧
          t.rd F.CAL_BCNT_REJECTS = satAdd F.CAL_BCNT_REJECTS.w (s.rd F.CAL_BCNT_REJECTS) 1 ∧
          t.rd F.CAL_STAT_PASSES = satAdd F.CAL_STAT_PASSES.w (s.rd F.CAL_STAT_PASSES) 1) ∧
      (w.kept ≤ s.rd F.CAL_LIM0_PLAUS_MAX →
        Runs (.blendPassDone res) s fun t => t.cal.everDone = true ∧ t.cal.done = s.cal.theta ∧
          t.rd F.CAL_BCNT_KEPT = satAdd F.CAL_BCNT_KEPT.w (s.rd F.CAL_BCNT_KEPT) w.kept ∧
          t.rd F.CAL_STAT_PASSES = satAdd F.CAL_STAT_PASSES.w (s.rd F.CAL_STAT_PASSES) 1 ∧
          (w.changed = true → s.displays = true → t.rd F.CAL_STAT_ENG = 2 ∧ t.on F.PIX_BANK_READY = true ∧ liveBank t = liveBank s) ∧
          (w.changed = true → s.displays = false → s.on F.CAL_STAT_INIT = true →
            t.rd F.CAL_STAT_ENG = 0 ∧ t.on F.PIX_BANK_READY = false ∧ liveBank t = !(liveBank s)) ∧
          (w.changed = false → t.rd F.CAL_STAT_ENG = 0 ∧ t.on F.PIX_BANK_READY = s.on F.PIX_BANK_READY ∧ liveBank t = liveBank s))) ∧
  (∀ (res : List (Fin 786432)) (s : State), s.rd F.CAL_STAT_ENG ≠ 1 → Runs (.blendPassDone res) s (Reports s)) ∧
  (∀ (path : Access) (s : State), reaches s path = true → addrOn s.strap.role R.CAL_CTL = true →
      (Runs (.calKick path) s fun t => t.cal.due = (s.cal.due || !(s.on F.CAL_MODE_MODE))) ∧
      (s.on F.CAL_CTL_BLEND_EN = false → Runs (.blendEnable path) s fun t =>
        t.on F.CAL_CTL_BLEND_EN = true ∧ t.on F.PIX_BANK_OWNER = true ∧ t.cal.init = true) ∧
      (∀ (k : Fin 786433) (res : List (Fin 786432)), s.on F.CAL_CTL_BLEND_EN = true → Runs (.blendDisable path k res) s fun t =>
        t.on F.CAL_CTL_BLEND_EN = false ∧ t.on F.PIX_BANK_OWNER = false ∧ t.on F.PIX_BANK_READY = false ∧ t.rd F.CAL_STAT_ENG = 0 ∧
        t.rd F.CAL_BCNT_KEPT = if s.rd F.CAL_STAT_ENG = 1 then satAdd F.CAL_BCNT_KEPT.w (s.rd F.CAL_BCNT_KEPT) (passWalk s (res.map fun r => r.val) k.val).2.kept
          else s.rd F.CAL_BCNT_KEPT) ∧
      (∀ (k : Fin 786433) (res : List (Fin 786432)), s.on F.CAL_CTL_BLEND_EN = false → Runs (.blendDisable path k res) s (Reports s)) ∧
      (Runs (.calCapture path) s fun t => if s.mode = mService ∧ sensMin s ≤ (sensors s).length then t.cal.capture = 1 ∧ t.cal.newG = none
        else t.cal.capture = s.cal.capture) ∧
      Runs (.calResetG path) s (fun t => t.cal.resetG = true) ∧
      (s.on F.CAL_CTL_AMB_EN = true → Runs (.ambDisable path) s fun t => t.on F.CAL_CTL_AMB_EN = false ∧ t.cal.ambOff = true)) ∧
  (∀ s : State, Runs .blendRetryExpire s (Reports { s with cal := { s.cal with retry := false } })) ∧
  (∀ s : State, s.on F.CAL_CTL_LOOP_EN = true → s.cal.capture = 0 → holdCause s = 0 → loopN s ≤ s.cal.seqs → s.cal.newG = none →
      Runs .loopUpdate s fun t =>
        ((∀ k, k < 3 → sensMin s ≤ (accepted s k).length) → t.cal.newG = some ((List.range 3).map (newGain s)) ∧ t.cal.seqs = s.cal.seqs) ∧
        ((∃ k, k < 3 ∧ (accepted s k).length < sensMin s) → t.cal.newG = none ∧ t.cal.seqs = 0 ∧ t.rd F.CAL_LSTAT_SEQ = 0)) ∧
  (∀ s : State, (s.on F.CAL_CTL_LOOP_EN = false ∨ s.cal.capture ≠ 0 ∨ holdCause s ≠ 0 ∨ s.cal.seqs < loopN s ∨ s.cal.newG.isSome = true) →
      Runs .loopUpdate s (Reports s)) ∧
  (∀ s : State, (s.cal.capture = 2 → loopN s ≤ s.cal.seqs →
        Runs .captureDone s fun t => t.cal.capture = 0 ∧ t.on F.CAL_REFSTAT_TRACED = s.on F.CAL_STAT_TRACED ∧
          ∀ (n : Fin 4) (k : Fin 3), t.rd (F.CAL_REF_REF n.val k.val) =
            if s.on (F.CAL_WIT_EN n.val) = true ∧ ((16 * loopN s : Nat) : Int) ≤ Table.get 0 s.cal.sums (3 * n.val + k.val)
            then (Table.get 0 s.cal.sums (3 * n.val + k.val) * 256 / (loopN s : Int)).toNat % 2 ^ (F.CAL_REF_REF n.val k.val).w else 0) ∧
      (s.cal.capture ≠ 2 ∨ s.cal.seqs < loopN s → Runs .captureDone s (Reports s)))

/-- By a path that reaches the device: DRV_ENABLE of a link that is off shows the first failing check and stays off, or comes on; DRV_ENUM makes an enumeration due; MASK_CLR empties the mask list; LG_CLEAR clears the latches named that no standing cause holds. LIGHT_INSTANT of a running link starts subframe 0 with the frame's THR; in a due enumeration a position answers if its reply is valid. SCAN_SLOT_START sends SCAN on every used port, GAP_START sends GAP, lit where the gap is one to light and every WLOAD went out, the subframe is over and a gap long enough is a sample; of a link that does not run, or past the last slot, nothing changes. PD_CAPTURE shows the codes of a gap, dark or lit. A STAT or FREAD reply with a good CRC of the device asked ends the request and records whether entries wait; with a bad one it counts as none; of no such request nothing changes. RET_REPLY_TIMEOUT counts a miss of the device asked. (R227, R240, R241, R242, R244, R245, R248, R249, R250, R258, R379) -/
def Obligations.DriveLinkRuns : Prop :=
  (∀ (path : Access) (s : State), reaches s path = true → addrOn s.strap.role R.DRV_CTL = true →
      (∀ c, s.on F.DRV_CTL_EN = false → topoCheck s = some c → Runs (.drvEnable path) s fun t => t.on F.DRV_CTL_EN = false ∧ t.rd F.DRV_STAT_TOPO_ERR = c) ∧
      (s.on F.DRV_CTL_EN = false → topoCheck s = none → Runs (.drvEnable path) s fun t => t.on F.DRV_CTL_EN = true ∧
        (s.displays = true → drvRuns s = false → t.rd F.DRV_STAT_STATE = 2 ∧ t.drv.enumDue = true)) ∧
      Runs (.drvEnum path) s (fun t => t.drv.enumDue = true) ∧
      Runs (.maskClr path) s (fun t => maskedLamps t = [] ∧ t.rd F.DRV_MASKCNT_USED = 0)) ∧
  (∀ (path : Access) (w : Word) (s : State), reaches s path = true → addrOn s.strap.role R.DRV_LGCLR = true →
      Runs (.lgClear path w) s fun t => ∀ g, g < 32 → (t.rd F.DRV_LGLATCH_LATCHED).testBit g =
        ((s.rd F.DRV_LGLATCH_LATCHED).testBit g && !(w.toNat.testBit g && (groupCause s (maskedLamps s) g).isNone))) ∧
  (∀ (l : List EnumReply) (s : State), drvRuns s = true →
      Runs (.lightInstant l) s fun t => t.drv.sub = 0 ∧ t.drv.sc = 0 ∧ t.drv.enumDue = false ∧ t.drv.thr = s.drv.thrNext ∧
        (s.drv.adaptTold = true → t.drv.adapt = none) ∧
        (s.drv.enumDue = true → ∀ p ∈ usedPorts s, ∀ d, d < dcount s p → (Table.get 0 t.drv.answered p).testBit d =
          (l.find? fun r => r.port.val == p && r.pos.val == d).any fun r => replyOk r.bits.toNat r.crc.toNat d)) ∧
  (∀ s : State, drvRuns s = true → s.drv.sc < scanLines s →
      Runs .scanSlotStart s fun t => t.drv.sc = s.drv.sc + 1 ∧ t.drv.sub = s.drv.sub ∧
        ∀ p ∈ usedPorts s, Output.dlWord p [cmdWord opScan (s.drv.sc + 32 * (subNumber s % 4) + 128 * b2n (s.drv.sc == 0))] ∈ t.out) ∧
  (∀ s : State, drvRuns s = true →
      Runs .gapStart s fun t => t.drv.sc = 0 ∧ t.drv.sub = (s.drv.sub + 1) % subframes s ∧
        t.drv.gapSample = (if gapShort s then none else some (subNumber s % 6, gapLit s && s.drv.wloaded)) ∧
        ∀ p ∈ usedPorts s, Output.dlWord p [cmdWord opGap (b2n (gapLit s && s.drv.wloaded))] ∈ t.out) ∧
  (∀ (l : List EnumReply) (s : State), drvRuns s = false →
      Runs (.lightInstant l) s (Reports s) ∧ Runs .scanSlotStart s (Reports s) ∧ Runs .gapStart s (Reports s)) ∧
  (∀ s : State, scanLines s ≤ s.drv.sc → Runs .scanSlotStart s (Reports s)) ∧
  (∀ (codes : List (BitVec 12)) (k : Nat) (lit : Bool) (s : State), s.drv.gapSample = some (k, lit) →
      Runs (.pdCapture codes) s fun t => t.drv.gapSample = none ∧ ∀ i, i < 12 →
        (lit = false → t.rd (F.HK_PD_DARK i) = (codes.getD i 0).toNat ∧ Table.get 0 t.cal.dark i = (codes.getD i 0).toNat) ∧
        (lit = true → t.rd (F.HK_PD_LIT i) = (codes.getD i 0).toNat ∧ t.cal.dark = s.cal.dark)) ∧
  (∀ (codes : List (BitVec 12)) (s : State), s.drv.gapSample = none → Runs (.pdCapture codes) s (Reports s)) ∧
  (∀ (p : Fin 16) (b : BitVec 24) (crc : BitVec 6) (q d : Nat) (s : State), q = Table.get 0 s.drv.request p.val → d = (q - 1) / 2 →
      (q % 2 = 1 → replyOk b.toNat crc.toNat d = true →
        Runs (.statReplyRx p b crc) s fun t => Table.get 0 t.drv.request p.val = 0 ∧ Table.get 0 t.drv.misses (p.val * 32 + d) = 0 ∧
          Table.get 0 t.drv.pend (p.val * 32 + d) = b2n (bitAt b.toNat 12)) ∧
      (q ≠ 0 → q % 2 = 0 → replyOk b.toNat crc.toNat d = true →
        Runs (.freadReplyRx p b crc) s fun t => Table.get 0 t.drv.request p.val = 0 ∧
          Table.get 0 t.drv.pend (p.val * 32 + d) = b2n (bitAt b.toNat 17) ∧
          t.rd F.DRV_MASKCNT_FAULTS = (if bitAt b.toNat 18 then satAdd F.DRV_MASKCNT_FAULTS.w (s.rd F.DRV_MASKCNT_FAULTS) 1 else s.rd F.DRV_MASKCNT_FAULTS)) ∧
      (∀ c : Instr, q ≠ 0 → (c = .retReplyTimeout p ∨ replyOk b.toNat crc.toNat d = false ∧ (c = .statReplyRx p b crc ∧ q % 2 = 1 ∨ c = .freadReplyRx p b crc ∧ q % 2 = 0)) →
        Runs c s fun t => Table.get 0 t.drv.request p.val = 0 ∧ Table.get 0 t.drv.misses (p.val * 32 + d) = Table.get 0 s.drv.misses (p.val * 32 + d) + 1 ∧
          t.rd (F.DRV_PSTAT_RETERR p.val) = satAdd (F.DRV_PSTAT_RETERR p.val).w (s.rd (F.DRV_PSTAT_RETERR p.val)) 1) ∧
      (q = 0 → Runs (.retReplyTimeout p) s (Reports s)) ∧ (q = 0 ∨ q % 2 = 0 → Runs (.statReplyRx p b crc) s (Reports s)) ∧
      (q = 0 ∨ q % 2 = 1 → Runs (.freadReplyRx p b crc) s (Reports s)))

/-- RAIL_PERIOD of a rail that is off or failed changes nothing; of a running rail without overvoltage: the reference moves towards its set point by the slew, the duty and accumulator are those of the law, and STATE is limited above the effective limit, else regulating; after a start it regulates once the reference is there and the rail within 50 mV of it. A first overvoltage counts one; a second in a row makes STATE failed and takes RAIL_EN low. RAIL_UV_TIME of a rail at full duty or limited, below its margin, tells it once; else nothing changes. RAIL_RESTART of a failed rail that is enabled starts it, by a path that reaches the device; of one not failed STATE stays. (R251, R253, R254) -/
def Obligations.LampRailIsRegulated : Prop :=
  (∀ (v c : BitVec 10) (s : State), railState s = 0 ∨ railState s = 4 → Runs (.railPeriod v c) s (Reports s)) ∧
  (∀ (v c : BitVec 10) (ref : Nat) (s u : State), railState s = 1 ∨ railState s = 2 ∨ railState s = 3 →
      6250 * v.toNat ≤ min 5300000 (vSet s + 25000 * s.rd F.DRV_RAIL_PROT_OV_MARGIN) →
      ref = (if s.drv.rail.vref ≤ vSet s then min (vSet s) (s.drv.rail.vref + 250000 / clamp 25 200 (s.rd F.DRV_RAIL_CTL_FSW))
        else max (vSet s) (s.drv.rail.vref - 250000 / clamp 25 200 (s.rd F.DRV_RAIL_CTL_FSW))) →
      u = s.modRail (fun r => { r with vref := ref }) →
      Runs (.railPeriod v c) s fun t => t.drv.rail.vref = ref ∧ t.drv.rail.ovr = 0 ∧
        t.drv.rail.acc = (railLaw u v.toNat c.toNat).2.1 ∧ t.drv.rail.duty = (railLaw u v.toNat c.toNat).2.2 ∧
        t.drv.rail.e1 = (railLaw u v.toNat c.toNat).1 ∧ t.drv.rail.e2 = s.drv.rail.e1 ∧
        railState t = (if railState s = 1 then (if vSet s ≤ 6250 * v.toNat + 50000 ∧ 6250 * v.toNat ≤ vSet s + 50000 ∧ ref = vSet s then 2 else 1)
          else if (s.rd F.DRV_RAIL_ILIM_ILIM * s.drv.thr + 8) / 16 < c.toNat then 3 else 2)) ∧
  (∀ (v c : BitVec 10) (s : State), railState s = 1 ∨ railState s = 2 ∨ railState s = 3 →
      min 5300000 (vSet s + 25000 * s.rd F.DRV_RAIL_PROT_OV_MARGIN) < 6250 * v.toNat →
      (s.drv.rail.ovr = 0 → Runs (.railPeriod v c) s fun t => t.drv.rail.ovr = 1 ∧ railState t ≠ 4) ∧
      (1 ≤ s.drv.rail.ovr → Runs (.railPeriod v c) s fun t => railState t = 4 ∧ Output.pin pinRailEn 0 ∈ t.out)) ∧
  (∀ (v : BitVec 10) (s : State),
      ((railState s = 3 ∨ railState s = 2 ∧ s.drv.rail.duty = s.rd F.DRV_RAIL_CTL_DMAX) →
        6250 * v.toNat + 25000 * s.rd F.DRV_RAIL_PROT_UV_MARGIN < vSet s → s.drv.rail.uvTold = false →
        Runs (.railUvTime v) s (Reports (s.modRail fun r => { r with uvTold := true }))) ∧
      (s.drv.rail.uvTold = true ∨ (railState s ≠ 2 ∧ railState s ≠ 3) ∨ (railState s = 2 ∧ s.drv.rail.duty ≠ s.rd F.DRV_RAIL_CTL_DMAX) ∨
        vSet s ≤ 6250 * v.toNat + 25000 * s.rd F.DRV_RAIL_PROT_UV_MARGIN → Runs (.railUvTime v) s (Reports s))) ∧
  (∀ (path : Access) (s : State), reaches s path = true → addrOn s.strap.role R.DRV_RAIL_CTL = true →
      Runs (.railRestart path) s fun t =>
        (railState s = 4 → s.on F.DRV_RAIL_CTL_EN = true →
          railState t = 1 ∧ t.drv.rail.vref = s.rd F.DRV_RAIL_MEAS_V * 6250 ∧ t.drv.rail.duty = 0 ∧ Output.pin pinRailEn 1 ∈ t.out) ∧
        (railState s ≠ 4 → railState t = railState s ∧ t.drv = s.drv))

/-- Of packets in order: DIGEST is kept for the comparison. REGW outside a resync puts the word down as a register write does (the follower's WT_FCFG), during one it is kept for the sync fence. DESC of XA_BEGIN or XA_ADD acts on that XID, a flip or map load that passes its checks is pending for the frame named and each is answered by ACKK, and the ring's mirrored index moves on. DRAMW stores its bytes, during a resync it is kept. DOWN ahead of the stream waits, behind it counts late; SEQMARK says how far it may go, and one that lists a SEQ used for a PIXEL packet silences the ring; UPFWD moves its position's window and joins the upward queue. CLOSE of a frame still open here is kept, of one closed here that the partner has whole it awaits the partner's lines; LINES are written and no longer awaited. SAMPLE settles the layer that waits for it, or is kept. LINK acknowledges. A packet out of order, or while the link is down, brings nothing to composition, DRAM, transactions, network or the resync. (R152, R168, R268, R273, R274, R276, R278, R279, R280, R281, R295) -/
def Obligations.MirrorItemsAreTaken : Prop :=
  (∀ (h : MHead) (r : Fin 8) (f : BitVec 48) (d : Word) (s : State), InOrder h s →
      Runs (.digestRx h r f d) s fun t => t.cmp = { s.cmp with theirs := s.cmp.theirs ++ [(r.val, f.toNat, d.toNat)] } ∧
        (t.chan (!h.chS)).rx = ((s.chan (!h.chS)).rx + 1) % 65536) ∧
  (∀ (c : Instr) (h : MHead) (s : State), mirrorHead c = some h → NoHeadWaits s →
      (mirrorUp s = true → s.pair.wasUp = true → h.mseq.toNat ≠ (s.chan (!h.chS)).rx → Runs c s fun t => t.cmp = s.cmp ∧ t.dram = s.dram ∧ t.xa = s.xa ∧
        t.ni = s.ni ∧ t.ring.upReady = s.ring.upReady ∧ (t.chan (!h.chS)).rx = (s.chan (!h.chS)).rx ∧ t.pair.syncItems = s.pair.syncItems) ∧
      (mirrorUp s = false → linkCheck s = s → s.hif.dirty = 0 → Runs c s (Reports s))) ∧
  (∀ (h : MHead) (w : Word) (r : RegSpec) (s : State), InOrder h s → s.pair.syncSource ≠ some 2 → findReg R.WT_FCFG = some r →
      Runs (.mirrorRegw h [(BitVec.ofNat 25 R.WT_FCFG, w)]) s fun t =>
        t.reg R.WT_FCFG = (wordEffect r (s.reg R.WT_FCFG) w.toNat (!(blockDisabled s R.WT_FCFG)) false).live % 2 ^ 32) ∧
  (∀ (h : MHead) (l : List (BitVec 25 × Word)) (s : State), InOrder h s → s.pair.wasUp = true → s.pair.syncSource = some 2 →
      Runs (.mirrorRegw h l) s fun t => t.pair.syncWrites = s.pair.syncWrites ++ (l.filter fun e => mirrored e.1.toNat).map (fun e => (e.1.toNat, e.2.toNat))) ∧
  (∀ (h : MHead) (n : Fin 16) (i : BitVec 12) (f : BitVec 48) (b data : List Byte) (s : State), InOrder h s →
      Runs (.mirrorDesc h n i f b data) s fun t => t.rd (F.RED_MIDX_IDX n.val) = (s.rd (F.RED_MIDX_IDX n.val) + 1) % 65536 ∧
        (leAt b 0 1 = 8 → (s.xid (leAt b 16 1 % 16)).st = .free → t.xid (leAt b 16 1 % 16) = { Xid.init with st := .building }) ∧
        (leAt b 0 1 = 9 → (s.xid (leAt b 16 1 % 16)).st = .building → t.xid (leAt b 16 1 % 16) = { s.xid (leAt b 16 1 % 16) with
          dests := joinDest (s.xid (leAt b 16 1 % 16)).dests (xaAddDest b (leAt b 4 4) (leAt b 1 1 % 2)) }) ∧
        (leAt b 0 1 = 6 → (∃ i ∈ (t.chan true).unacked ++ (t.chan true).waiting, i.kind = 12 ∧
            i.body = [2, h.mseq.toNat, flipCheck s (leAt b 16 1) (leAt b 17 1) (leAt b 24 8) (sealOf b)]) ∧
          (flipCheck s (leAt b 16 1) (leAt b 17 1) (leAt b 24 8) (sealOf b) = 0 → leAt b 16 1 ≠ 0 →
            ∃ g ∈ t.cmp.flips, g.job = none ∧ g.layer = leAt b 17 1 ∧ g.buf = leAt b 24 8 ∧ g.frame = f.toNat)) ∧
        (leAt b 0 1 = 7 → (∃ i ∈ (t.chan true).unacked ++ (t.chan true).waiting, i.kind = 12 ∧
            i.body = [2, h.mseq.toNat, mapCheck s (leAt b 16 1 % 8) (slice data 0 992)]) ∧
          (mapCheck s (leAt b 16 1 % 8) (slice data 0 992) = 0 → ∃ m, t.cmp.loads = s.cmp.loads ++ [m] ∧ m.ring = leAt b 16 1 % 8 ∧ m.job = none ∧
            m.table = slice data 0 992 ∧ m.frame = f.toNat))) ∧
  (∀ (h : MHead) (a : BitVec 34) (data : List Byte) (s : State), InOrder h s →
      Runs (.mirrorDramw h a data) s fun t =>
        (s.pair.syncSource = some 2 → t.pair.syncItems = s.pair.syncItems ++ [.dram a data] ∧ t.dram = s.dram) ∧
        (s.pair.syncSource ≠ some 2 → t.dram.mem = (dramWrite s a.toNat data).dram.mem)) ∧
  (∀ (h : MHead) (r : Fin 8) (c : Copy) (s : State), InOrder h s →
      Runs (.mirrorDown h r c) s fun t =>
        let behind := (s.rd (F.RED_RSTAT_SEQ r.val) + 65536 - c.seq.toNat) % 65536
        (holds s r.val = true → t.lease r.val = s.lease r.val) ∧
        (holds s r.val = false → 0 < behind → behind < 32768 →
          t.rd F.RED_SEQCNT_LATE_DOWN = satAdd F.RED_SEQCNT_LATE_DOWN.w (s.rd F.RED_SEQCNT_LATE_DOWN) 1 ∧ t.lease r.val = s.lease r.val) ∧
        (holds s r.val = false → (behind = 0 ∨ 32768 ≤ behind) → s.rd (F.RED_RSTAT_SEQ r.val) = (s.lease r.val).mark →
          t.lease r.val = { s.lease r.val with down := (s.lease r.val).down ++ [c] })) ∧
  (∀ (h : MHead) (r : Fin 8) (next : BitVec 16) (ctrl : List (BitVec 16)) (s : State), InOrder h s → holds s r.val = false →
      ((∀ q ∈ ctrl, Table.get 0 (s.lease r.val).pix q.toNat = 0) → (s.lease r.val).waitPix = [] → (s.lease r.val).down = [] →
        Runs (.mirrorSeqmark h r next ctrl) s fun t => (t.lease r.val).mark = next.toNat ∧ t.rd (F.RED_RSTAT_SEQ r.val) = s.rd (F.RED_RSTAT_SEQ r.val) ∧
          ∀ q ∈ ctrl, ((s.rd (F.RED_RSTAT_SEQ r.val) + 65536 - q.toNat) % 65536 = 0 ∨ 32768 ≤ (s.rd (F.RED_RSTAT_SEQ r.val) + 65536 - q.toNat) % 65536) →
            q.toNat ∈ (t.lease r.val).ctrl) ∧
      (∀ q ∈ ctrl, 0 < (s.rd (F.RED_RSTAT_SEQ r.val) + 65536 - q.toNat) % 65536 → (s.rd (F.RED_RSTAT_SEQ r.val) + 65536 - q.toNat) % 65536 < 32768 →
        Table.get 0 (s.lease r.val).pix q.toNat ≠ 0 → Runs (.mirrorSeqmark h r next ctrl) s fun t => t.on (F.RED_RSTAT_SILENT r.val) = true)) ∧
  (∀ (h : MHead) (r : Fin 8) (east : Bool) (c : Copy) (s : State), InOrder h s → c.up = true →
      Runs (.mirrorUpfwd h r east c) s fun t =>
        t.ring.ups.get Window.empty (r.val * 64 + posOfRoute s c.route.toNat) =
          ((s.ring.ups.get Window.empty (r.val * 64 + posOfRoute s c.route.toNat)).offer 256 c.seq.toNat).2 ∧
        t.ring.upReady = s.ring.upReady ++ (if ((s.ring.ups.get Window.empty (r.val * 64 + posOfRoute s c.route.toNat)).offer 256 c.seq.toNat).1 = .accept ∧
          upKeeps c = true then [⟨r.val, c⟩] else [])) ∧
  (∀ (h : MHead) (f : Fin 32) (m : BitVec 64) (miss : List (BitVec 16)) (s : State), InOrder h s → flowEn s f.val = true →
      (((s.flow f.val).closing.any fun c => c.media == m.toNat) = false →
        ((∃ o ∈ (s.flow f.val).opens, m.toNat ≤ o.media) ∨ ∃ c, (s.flow f.val).lastClosed = some c ∧ m.toNat ≤ c) →
        Runs (.mirrorClose h f m miss) s fun t => t.flow f.val = { s.flow f.val with early := (s.flow f.val).early ++ [(m.toNat, miss.map fun r => r.toNat)] }) ∧
      (∀ c : PairFrame, (s.flow f.val).closing = [c] → c.media = m.toNat → c.theirs = none → c.alone = false → c.buf.isSome = true → c.missing ≠ [] →
        c.missing.length ≤ s.rd F.NI_CTL_CONCEAL_MAX →
        Runs (.mirrorClose h f m []) s fun t => t.flow f.val = { s.flow f.val with closing := [{ c with theirs := some [], wait := c.missing }] })) ∧
  (∀ (h : MHead) (f : Fin 32) (m : BitVec 64) (row : BitVec 16) (data : List Byte) (c : PairFrame) (k : Nat) (s : State), InOrder h s →
      (s.flow f.val).closing = [c] → c.media = m.toNat → c.alone = false → c.buf = some k → row.toNat ∈ c.wait → (∃ x ∈ c.wait, x ≠ row.toNat) →
      Runs (.mirrorLines h f m row data) s fun t => t.dram.mem = (dramWrite s (lineAddr s f.val k row.toNat) (slice data 0 (lineBytes s f.val))).dram.mem ∧
        (t.flow f.val).closing = [{ c with wait := c.wait.filter fun x => x != row.toNat }]) ∧
  (∀ (h : MHead) (r : Fin 8) (l : Fin 16) (f : BitVec 48) (m : BitVec 64) (s : State), InOrder h s → (layerFlow s r.val l.val).isSome = true →
      Runs (.mirrorSample h r l f m) s fun t =>
        if (s.layer r.val l.val).waits = true ∧ (s.win r.val).isOpen = true ∧ (s.win r.val).frame = f.toNat then (t.layer r.val l.val).waits = false
        else t.cmp = { s.cmp with samples := s.cmp.samples ++ [(r.val, l.val, f.toNat, m.toNat)] }) ∧
  (∀ (h : MHead) (s : State), mirrorUp s = true → (s.chan (!h.chS)).waiting = [] →
      Runs (.mirrorLink h) s fun t => (t.chan (!h.chS)).unacked = (s.chan (!h.chS)).unacked.filter fun i =>
        decide (0 < (i.mseq + 65536 - h.ack.toNat) % 65536) && decide ((i.mseq + 65536 - h.ack.toNat) % 65536 < 32768))

/-- XADEC in order is acknowledged: fired gives the XID its target, or makes a sub-transaction ready; aborted frees it. ACKK of a decision asked for, XID voting, nothing waiting for an XID or its turn: accepted it fires where its reference ring runs, refused it is aborted with reason 3 or free. CLAIM of rings held: with no transaction running it is granted at its fence, else it waits; of none held nothing is granted. GRANT: this member takes those rings at that fence. SYNC items are kept, the fence named; RESYNC makes this member source or target by R295. MIRROR_RESEND sends every unacknowledged packet of the channel again. MIRROR_TIMEOUT_EXPIRE: rings not held are no longer heard. SEQMARK_INTERVAL: each ring held has no control SEQ unmarked. Outside a pair, or with the link down where they need it, these change nothing. (R128, R273, R279, R280, R283, R289, R290, R295, R296) -/
def Obligations.DecisionsClaimsAndResyncsCross : Prop :=
  (∀ (h : MHead) (x : Fin 16) (fired : Bool) (f : BitVec 48) (s : State), InOrder h s →
      Runs (.mirrorXadec h x fired f) s fun t =>
        (∃ i ∈ (t.chan true).unacked ++ (t.chan true).waiting, i.kind = 12 ∧ i.body = [11, h.mseq.toNat, 0]) ∧
        (fired = true → (s.xid x.val).parent = none → t.xid x.val = { s.xid x.val with st := .fired, target := f.toNat }) ∧
        (fired = true → (s.xid x.val).parent.isSome = true → (s.xid x.val).st = .preparing ∨ (s.xid x.val).st = .voting →
          t.xid x.val = { s.xid x.val with ready := true }) ∧
        (fired = false → (t.xid x.val).st = .free ∧ (t.xid x.val).reason = (s.xid x.val).reason ∧ (t.xid x.val).dests = [])) ∧
  (∀ (h : MHead) (q : BitVec 16) (res : Byte) (e : Nat × Nat × Nat) (s : State), InOrder h s → NoHeadWaits s →
      (s.pair.owed.find? fun e => e.1 == 11 && e.2.1 == q.toNat) = some e → (s.xid e.2.2).st = .voting →
      Runs (.mirrorAckk h 11#8 q res) s fun t =>
        (res = 0#8 → genRuns s (s.xid e.2.2).refRing = true → (t.xid e.2.2).st = .fired) ∧
        (res ≠ 0#8 → (t.xid e.2.2).reason = 3 ∧ ((t.xid e.2.2).st = .aborted ∨ (t.xid e.2.2).st = .free)) ∧ t.pair.owed = s.pair.owed.erase e) ∧
  (∀ (h : MHead) (m : Byte) (f : BitVec 48) (s : State), InOrder h s →
      Runs (.mirrorClaim h m f) s fun t =>
        let mine := ringMask ((enabledRings s).filter fun r => m.toNat.testBit r && holds s r)
        (mine = 0 → t.pair.grant = s.pair.grant ∧ t.pair.claimHeld = s.pair.claimHeld) ∧
        (mine ≠ 0 → runningXid s = none → t.pair.grant = some ⟨mine, f.toNat, false⟩) ∧
        (mine ≠ 0 → runningXid s ≠ none → t.pair.grant = s.pair.grant ∧ t.pair.claimHeld = some (mine, f.toNat))) ∧
  (∀ (h : MHead) (m : Byte) (f : BitVec 48) (s : State), InOrder h s →
      Runs (.mirrorGrant h m f) s fun t => t.pair.grant = some ⟨m.toNat, f.toNat, true⟩ ∧ t.pair.claimSent = none) ∧
  (∀ (h : MHead) (i : SyncItem) (s : State), InOrder h s → s.pair.syncSource ≠ some 1 →
      Runs (.mirrorSync h i) s fun t => t.pair.syncSource = some 2 ∧
        (∀ f, i = .fence f → t.pair.syncFence = some f.toNat) ∧
        ((∀ f, i ≠ .fence f) → t.pair.syncItems = (if s.pair.syncSource = some 2 then s.pair.syncItems else []) ++ [i])) ∧
  (∀ (u : Bool) (s : State),
      (mirrorUp s = true → Runs (.mirrorResend u) s fun t => Sends s t ((s.chan (!u)).unacked.map fun i =>
        Output.mirror i.kind (b2n u) i.mseq (((s.chan (!u)).rx + 65535) % 65536) i.arg i.body) ∧
        t.rd F.RED_MQ_RTX = satAdd F.RED_MQ_RTX.w (s.rd F.RED_MQ_RTX) (s.chan (!u)).unacked.length) ∧
      (mirrorUp s = false → Runs (.mirrorResend u) s (Reports s))) ∧
  (∀ s : State,
      (mirrorUp s = true → isSyncSource s = true → Runs (.resync none) s fun t => t.pair.syncSource = some 1 ∧
        t.pair.syncFence = some (((s.gen ((enabledRings s).headD 0)).next + 2) % 2 ^ 48) ∧ t.pair.everSynced = true) ∧
      (mirrorUp s = true → isSyncSource s = false → Runs (.resync none) s fun t => t.pair.syncSource = some 2 ∧ t.pair.syncFence = none ∧
        t.on F.RED_STAT_SYNCED = false) ∧
      (mirrorUp s = false → Runs (.resync none) s (Reports s))) ∧
  (∀ (path : Access) (s : State), reaches s path = true → mirrorUp s = true → s.pair.wasUp = true → NoHeadWaits s → isSyncSource s = true →
      Runs (.resync (some path)) s fun t => t.pair.syncSource = some 1) ∧
  (∀ s : State, (pairEn s = true →
        Runs .mirrorTimeoutExpire s fun t => t.pair.partnerHere = false ∧ ∀ r ∈ enabledRings s, holds s r = false → (t.lease r).heard = false) ∧
      (pairEn s = false → Runs .mirrorTimeoutExpire s (Reports s))) ∧
  (∀ s : State, (mirrorUp s = true → Runs .seqmarkInterval s fun t => ∀ r ∈ enabledRings s, holds s r = true → (t.lease r).unmarked = []) ∧
      (mirrorUp s = false → Runs .seqmarkInterval s (Reports s)))

/-- WHISTLE_SEND of an enabled ring: its Whistle leaves every UP end. WHISTLE_RX: a ring port sends the block on, an intact held one is followed; a member that hears a higher epoch for a ring it holds, on the mirror link or at its end, steps down to it; on a port not UP nothing changes. FOLLOW_LEASE_TIMEOUT ends the followed lease. LEASE_PROMOTION: the ring is held at the next epoch, with the link down and nothing waiting SEQ 24,576 on if it never originated. SEQ_FREE_TIMEOUT at the mark: the next PIXEL packet takes the SEQ, counted FREE. REVERT_CLAIM after the hold-off and SPLIT_REJOIN claim as R290 and R291 say. By a path that reaches the member, nothing waiting for an XID or its turn, RED_HANDOVER grants every ring held to a healthy partner, RINGS_GO ends RINGS_STOPPED of the active. Where their conditions do not hold these change nothing. (R280, R282, R283, R284, R285, R286, R288, R289, R290, R291, R294) -/
def Obligations.LeasesAreHeardAndMoved : Prop :=
  (∀ (r : Fin 8) (s : State), (ringEnabled s r.val = true →
        Runs (.whistleSend r) s fun t => (∀ p ∈ ringEnds s r.val, s.isUp p = true →
          Output.whistle p (whistleBytes (whistleFlags s r.val) (whistleEpoch s r.val) r.val) ∈ t.out) ∧ t.regs = s.regs) ∧
      (ringEnabled s r.val = false → Runs (.whistleSend r) s (Reports s))) ∧
  (∀ (p : Fin 12) (q : Nat) (b : List Byte) (s : State), (ringPorts s).contains p.val = true → forwardsTo s p.val = some q → s.isUp p.val = true → NoHeadWaits s →
      Runs (.whistleRx p b) s fun t => Output.whistle q b ∈ t.out ∧
        (whistleIntact b = true → follows s = true → beAt b 1 1 % 2 = 1 → s.pair.heardE = none → s.pair.heardW = none →
          t.on F.RED_FSTAT_VALID = true ∧ t.rd F.RED_FOLLOW_EPOCH = beAt b 2 4)) ∧
  (∀ (p : Fin 12) (b : List Byte) (s : State), NoHeadWaits s → pairEn s = true → s.isUp p.val = true →
      (p.val = mport s ∧ s.portIs p.val 3 = true ∨ s.portIs p.val 1 = true) →
      (ringPorts s).contains p.val = false → whistleIntact b = true → beAt b 1 1 % 2 = 1 → holds s (beAt b 6 1 % 8) = true →
      s.rd (F.RED_REPOCH_EPOCH (beAt b 6 1 % 8)) < beAt b 2 4 →
      Runs (.whistleRx p b) s fun t => t.on (F.RED_RSTAT_HELD (beAt b 6 1 % 8)) = false ∧ t.rd (F.RED_REPOCH_EPOCH (beAt b 6 1 % 8)) = beAt b 2 4) ∧
  (∀ (p : Fin 12) (b : List Byte) (s : State), s.isUp p.val = false → NoHeadWaits s → s.hif.dirty = 0 → Runs (.whistleRx p b) s (Reports s)) ∧
  (∀ s : State, (s.on F.RED_FSTAT_VALID = true →
        Runs .followLeaseTimeout s fun t => t.on F.RED_FSTAT_VALID = false ∧ t.pair = { s.pair with heardE := none, heardW := none }) ∧
      (s.on F.RED_FSTAT_VALID = false → Runs .followLeaseTimeout s (Reports s))) ∧
  (∀ (r : Fin 8) (s : State),
      (pairEn s = true → ringEnabled s r.val = true → holds s r.val = false →
        Runs (.leasePromotion r) s fun t => t.on (F.RED_RSTAT_HELD r.val) = true ∧
          t.rd (F.RED_REPOCH_EPOCH r.val) = (s.rd (F.RED_REPOCH_EPOCH r.val) + 1) % 2 ^ 32 ∧
          (mirrorUp s = false → (s.lease r.val).waitPix = [] → (s.lease r.val).ctrl = [] →
            t.rd (F.RED_RSTAT_SEQ r.val) = (if (s.lease r.val).originated || (s.lease r.val).jumped then s.rd (F.RED_RSTAT_SEQ r.val)
              else (s.rd (F.RED_RSTAT_SEQ r.val) + 24576) % 65536))) ∧
      (pairEn s = false ∨ ringEnabled s r.val = false ∨ holds s r.val = true → Runs (.leasePromotion r) s (Reports s))) ∧
  (∀ (r : Fin 8) (s : State),
      (∀ c l, (s.lease r.val).waitPix = c :: l → mirrorUp s = true → holds s r.val = false → s.rd (F.RED_RSTAT_SEQ r.val) = (s.lease r.val).mark →
        Runs (.seqFreeTimeout r) s fun t => (t.lease r.val).waitPix = l ∧ t.rd (F.RED_RSTAT_SEQ r.val) = (s.rd (F.RED_RSTAT_SEQ r.val) + 1) % 65536 ∧
          t.rd F.RED_SEQCNT_FREE = satAdd F.RED_SEQCNT_FREE.w (s.rd F.RED_SEQCNT_FREE) 1) ∧
      ((s.lease r.val).waitPix = [] ∨ mirrorUp s = false ∨ holds s r.val = true ∨ s.rd (F.RED_RSTAT_SEQ r.val) ≠ (s.lease r.val).mark →
        Runs (.seqFreeTimeout r) s (Reports s))) ∧
  (∀ s : State,
      (mirrorUp s = true → s.on F.RED_CFG_REVERT_EN = true → s.on F.RED_CFG_HOME = true → s.pair.partnerHome ≠ some true → redRole s = 2 →
        holdoffLeft s = 0 → s.on F.RED_STAT_HEALTHY = true → s.pair.partnerUp = true → s.pair.claimSent = none → s.pair.grant = none → enabledRings s ≠ [] →
        Runs .revertClaim s fun t => t.pair.claimSent = some (ringMask (enabledRings s), (s.gen (lowRing (ringMask (enabledRings s)))).next + 3)) ∧
      (mirrorUp s = false ∨ s.on F.RED_CFG_REVERT_EN = false ∨ s.on F.RED_CFG_HOME = false ∨ s.pair.partnerHome = some true ∨ redRole s ≠ 2 ∨
        holdoffLeft s ≠ 0 ∨ s.on F.RED_STAT_HEALTHY = false ∨ s.pair.partnerUp = false ∨ s.pair.claimSent.isSome = true ∨ s.pair.grant.isSome = true →
        Runs .revertClaim s (Reports s))) ∧
  (∀ s : State,
      (mirrorUp s = true → countsHome s = false → redRole s = 3 → s.pair.claimSent = none → s.pair.grant = none → ringMask (partnerRings s) ≠ 0 →
        Runs .splitRejoin s fun t => t.pair.claimSent = some (ringMask (partnerRings s), (s.gen (lowRing (ringMask (partnerRings s)))).next + 3)) ∧
      (mirrorUp s = false ∨ countsHome s = true ∨ redRole s ≠ 3 ∨ s.pair.claimSent.isSome = true ∨ s.pair.grant.isSome = true →
        Runs .splitRejoin s (Reports s))) ∧
  (∀ (path : Access) (s : State), reaches s path = true → mirrorUp s = true → NoHeadWaits s →
      (Runs (.redHandover path) s fun t =>
        (s.pair.partnerHealthy = true → runningXid s = none → ringMask ((enabledRings s).filter (holds s)) ≠ 0 →
          t.pair.grant = some ⟨ringMask ((enabledRings s).filter (holds s)), (s.gen (lowRing (ringMask ((enabledRings s).filter (holds s))))).next + 3, false⟩) ∧
        (s.pair.partnerHealthy = false ∨ ringMask ((enabledRings s).filter (holds s)) = 0 → t.pair.grant = s.pair.grant)) ∧
      (redRole s = 1 → Runs (.ringsGo path) s fun t => t.on F.RED_STAT_RINGS_STOPPED = false))

/-- HIF_DB by a path that reaches a device that is not in a pair, no head or rate change waiting: with the new PROD below 2^LOG2SIZE and (PROD - CONS) mod 2^LOG2SIZE at least that of the last accepted PROD, HIF_DB is the new PROD; written equal to it, it stays. Otherwise HIF_DB keeps the last accepted PROD and HIF_DB_ERR fires with the ring and the value written: where its source is delivered to the host and is not idle, or idle with no target to take it, and has nothing counted, it counts one firing with those data. In every case CONS and the descriptors consumed stand as they were, and every other HIF register keeps its value. (R304) -/
def Obligations.DoorbellsNeverMoveBack : Prop :=
  ∀ (path : Access) (n : Fin 16) (w : Word) (s : State), reaches s path = true → addrOn s.strap.role (R.HIF_DB n.val) = true → Alone s →
    Runs (.hifDb path n w) s fun t =>
      (w.toNat % 4096 < crSize s n.val → postedFrom s n.val (s.rd (F.HIF_CR_CONS_CONS n.val)) (s.rd (F.HIF_DB_PROD n.val)) ≤
          postedFrom s n.val (s.rd (F.HIF_CR_CONS_CONS n.val)) (w.toNat % 4096) → t.rd (F.HIF_DB_PROD n.val) = w.toNat % 4096) ∧
      (w.toNat % 4096 = s.rd (F.HIF_DB_PROD n.val) → t.rd (F.HIF_DB_PROD n.val) = s.rd (F.HIF_DB_PROD n.val)) ∧
      ((crSize s n.val ≤ w.toNat % 4096 ∨ postedFrom s n.val (s.rd (F.HIF_CR_CONS_CONS n.val)) (w.toNat % 4096) <
          postedFrom s n.val (s.rd (F.HIF_CR_CONS_CONS n.val)) (s.rd (F.HIF_DB_PROD n.val))) →
        t.rd (F.HIF_DB_PROD n.val) = s.rd (F.HIF_DB_PROD n.val) ∧
        (s.isCarriage = false → s.on (F.EVC_SRC_EN 456) = true → (s.hsrc 456).cnt = 0 →
          (s.hsrc 456).st ≠ .idle ∨ resolve s (s.rd (F.EVC_SRC_TGT 456)) = none →
          (t.hsrc 456).cnt = 1 ∧ (t.hsrc 456).data = pad16 (d2 n.val 0 ++ bytesLE 2 (w.toNat % 4096)))) ∧
      t.hif = { s.hif with dirty := t.hif.dirty } ∧ ∀ a, a / 65536 = 3 → a ≠ R.HIF_DB n.val → t.reg a = s.reg a

/-- DESCRIPTOR_CONSUME where ring n may consume and its head does not wait: a good descriptor that need not wait becomes a job and CONS moves on (an XA_BEGIN then puts its XID into BUILDING), one that must wait waits with CONS unmoved, a bad one ends with its status, an unreadable one with 81h and the ring halts; where the ring may not consume or its head waits, nothing changes. NOP ends done, FENCE_DESC with the frame of the last fence. The row of a TYPE that no descriptor in hand of its ring has, or behind one with packets to send, changes nothing; where the link rules refuse the TYPE it ends 83h. REPLY_WAIT_EXPIRE of an UPDATE ends it 0Ah, of a REG_WRITE with its missing replies, of no request nothing. HIF_CP_CONS releases records; COMMAND_RING_DISABLE ends a waiting head 82h and a halt. BAR0_ACCESS_ERR counts; BAR2_ACCESS reads and writes installed DRAM (but for the mirrored bytes that a member drops) and counts what lies outside. FUNCTION_LEVEL_RESET, HOT_RESET, PCIE_PERST_N and PCIE_LINK_DOWN of an up link return every HIF register to reset and keep the jobs; PCIE_LINK_UP shows the link; a device without a host interface ignores all of them. (R119, R292, R300, R301, R302, R305, R306, R307, R309, R310, R313, R319) -/
def Obligations.RingsConsumeAndReset : Prop :=
  (∀ (n : Fin 16) (d : List Byte) (s : State), mayConsume s n.val = true → s.on (F.HIF_CR_STAT_WAITING n.val) = false →
      (descStatus s (slice d 0 64) = none → headWaits s n.val (slice d 0 64) = false → Runs (.descriptorConsume n (some d)) s fun t =>
        (∃ j, t.hif.jobs = s.hif.jobs ++ [j] ∧ j.id = s.hif.nextId ∧ j.ring = n.val ∧ j.ran = false ∧ j.bytes = slice d 0 64 ∧
          j.index = s.rd (F.HIF_CR_CONS_CONS n.val)) ∧
        t.rd (F.HIF_CR_CONS_CONS n.val) = (s.rd (F.HIF_CR_CONS_CONS n.val) + 1) % crSize s n.val ∧
        (leAt d 0 1 = 8 → t.xid (leAt d 16 1) = { Xid.init with st := .building }) ∧ (leAt d 0 1 ≠ 8 → t.xa = s.xa)) ∧
      (descStatus s (slice d 0 64) = none → headWaits s n.val (slice d 0 64) = true → Runs (.descriptorConsume n (some d)) s fun t =>
        t.on (F.HIF_CR_STAT_WAITING n.val) = true ∧ t.hif.jobs = s.hif.jobs ∧ Table.get [] t.hif.heads n.val = slice d 0 64 ∧
        t.rd (F.HIF_CR_CONS_CONS n.val) = s.rd (F.HIF_CR_CONS_CONS n.val)) ∧
      (∀ st, descStatus s (slice d 0 64) = some st → Runs (.descriptorConsume n (some d)) s fun t =>
        t.rd (F.HIF_CR_CONS_CONS n.val) = (s.rd (F.HIF_CR_CONS_CONS n.val) + 1) % crSize s n.val ∧
        ∃ j, j.bytes = slice d 0 64 ∧ j.index = s.rd (F.HIF_CR_CONS_CONS n.val) ∧ Completes s t n.val j (j.record st)) ∧
      Runs (.descriptorConsume n none) s fun t => t.on (F.HIF_CR_STAT_HALT n.val) = true ∧
        ∃ j, j.bytes = [] ∧ j.index = s.rd (F.HIF_CR_CONS_CONS n.val) ∧ Completes s t n.val j (j.record 0x81)) ∧
  (∀ (n : Fin 16) (d : Option (List Byte)) (s : State), mayConsume s n.val = false ∨ s.on (F.HIF_CR_STAT_WAITING n.val) = true →
      Runs (.descriptorConsume n d) s (Reports s)) ∧
  (∀ (c : Instr) (n k : Nat) (s : State), descRow c = some (n, k) →
      (((s.hif.jobs.find? fun j => j.ring % 16 == n && !j.ran) = none ∧ s.on (F.HIF_CR_STAT_WAITING n) = false ∨
        ∃ j, (s.hif.jobs.find? fun j => j.ring % 16 == n && !j.ran) = some j ∧ (j.type ≠ k ∨ behind s j = true)) → linkCheck s = s → Runs c s (Reports s)) ∧
      (∀ j, (s.hif.jobs.find? fun j => j.ring % 16 == n && !j.ran) = some j → j.ring = n → j.type = k → behind s j = false → linkRefuses s k = true → NoHeadWaits s →
        Runs c s fun t => Completes s t n j (j.record 0x83) ∧
          (k = 10 → (s.xid (leAt j.bytes 16 1)).st = .building → (t.xid (leAt j.bytes 16 1)).st = .free ∧ (t.xid (leAt j.bytes 16 1)).reason = reasonPartition))) ∧
  (∀ (n : Fin 16) (j : Job) (s : State), InHand s n.val 1 j → Runs (.nop n) s fun t => Completes s t n.val j (j.record 0)) ∧
  (∀ (n : Fin 16) (j : Job) (s : State), InHand s n.val 2 j → Runs (.fenceDesc n) s fun t => Completes s t n.val j
      { j.record (if s.on (F.WT_RCFG_EN (leAt j.bytes 17 1)) then 0 else 1) with frame := (lastPassed s (leAt j.bytes 17 1)).getD 0 }) ∧
  (∀ (r : Fin 8) (tag : BitVec 16) (q : Request) (j : Job) (s : State), NoHeadWaits s → (s.hif.reqs.find? fun q => q.ring == r.val && q.tag == tag.toNat) = some q →
      s.job q.job = some j → j.ring < 16 →
      (j.type = 11 → Runs (.replyWaitExpire r tag) s fun t => Completes s t j.ring j (j.record 0x0A)) ∧
      (∀ l, j.type = 3 → q.owed = some l → l ≠ [] → Runs (.replyWaitExpire r tag) s fun t => Completes s t j.ring j
        { j.record 2 with rsp := j.rsp, count := j.count, route := j.rspRoute, rhb := j.rspRhb })) ∧
  (∀ (r : Fin 8) (tag : BitVec 16) (s : State), NoHeadWaits s → s.hif.dirty = 0 → (s.hif.reqs.find? fun q => q.ring == r.val && q.tag == tag.toNat) = none →
      Runs (.replyWaitExpire r tag) s (Reports s)) ∧
  (∀ (path : Access) (n : Fin 16) (w : Word) (s : State), reaches s path = true → addrOn s.strap.role (R.HIF_CP_CONS n.val) = true → Alone s →
      Runs (.hifCpCons path n w) s fun t => t.rd (F.HIF_CP_CONS_CONS n.val) = w.toNat % 4096 ∧ Table.get 0 t.hif.unreleased n.val =
        min ((s.rd (F.HIF_CP_PROD_PROD n.val) + cpSize s n.val - w.toNat % 4096 % cpSize s n.val) % cpSize s n.val) (Table.get 0 s.hif.unreleased n.val)) ∧
  (∀ (path : Access) (n : Fin 16) (w : Word) (s : State), reaches s path = true → addrOn s.strap.role (R.HIF_CR_CTL n.val) = true → pairEn s = false →
      s.on (F.HIF_CR_CTL_EN n.val) = true →
      Runs (.commandRingDisable path n w) s fun t => t.on (F.HIF_CR_CTL_EN n.val) = false ∧ t.on (F.HIF_CR_STAT_WAITING n.val) = false ∧
        t.on (F.HIF_CR_STAT_HALT n.val) = false ∧
        (s.on (F.HIF_CR_STAT_WAITING n.val) = true → ∃ j, j.bytes = Table.get [] s.hif.heads n.val ∧ j.index = s.rd (F.HIF_CR_CONS_CONS n.val) ∧
          Completes s t n.val j (j.record 0x82))) ∧
  (∀ (c : Instr) (s : State), hasHost s = false → (∃ a, c = .bar0AccessErr a) ∨ (∃ o l n, c = .bar2Access o l n) ∨ c = .functionLevelReset ∨ c = .hotReset ∨
      c = .pciePerstN ∨ c = .pcieLinkDown ∨ (∃ w p b, c = .pcieLinkUp w p b) → Runs c s (Reports s)) ∧
  (∀ s : State, s.on F.HIF_STAT_LINK_UP = false → Runs .pcieLinkDown s (Reports s)) ∧
  (∀ (a : BitVec 25) (s : State), hasHost s = true → Runs (.bar0AccessErr a) s (Reports (s.bump F.HIF_CNT_ACCESS_ERR 1))) ∧
  (∀ (off : BitVec 28) (len : BitVec 12) (l : List (Option Byte)) (s : State), hasHost s = true →
      (installedRange s (s.rd F.HIF_BAR2_BASE * 2 ^ 28 + off.toNat) len.toNat = true → Runs (.bar2Access off none len) s fun t =>
        Output.readBytes (dramFetch s (s.rd F.HIF_BAR2_BASE * 2 ^ 28 + off.toNat) len.toNat).2.1 ∈ t.out ∧ t.dram.mem = s.dram.mem) ∧
      (installedRange s (s.rd F.HIF_BAR2_BASE * 2 ^ 28 + off.toNat) len.toNat = false → Runs (.bar2Access off none len) s fun t =>
        Output.readBytes (List.replicate len.toNat 0#8) ∈ t.out ∧ t.rd F.HIF_CNT2_WIN_ERR = satAdd F.HIF_CNT2_WIN_ERR.w (s.rd F.HIF_CNT2_WIN_ERR) 1) ∧
      (installedRange s (s.rd F.HIF_BAR2_BASE * 2 ^ 28 + off.toNat) l.length = true → Runs (.bar2Access off (some l) len) s fun t =>
        t.dram.mem = (dramStore s (s.rd F.HIF_BAR2_BASE * 2 ^ 28 + off.toNat) (if pairEn s = true ∧ (hostDrop s).isSome = true
          then regionPart s false (s.rd F.HIF_BAR2_BASE * 2 ^ 28 + off.toNat) l else l)).dram.mem) ∧
      (installedRange s (s.rd F.HIF_BAR2_BASE * 2 ^ 28 + off.toNat) l.length = false → Runs (.bar2Access off (some l) len) s fun t => t.dram = s.dram)) ∧
  (∀ (c : Instr) (s : State), hasHost s = true → c = .functionLevelReset ∨ c = .hotReset ∨ c = .pciePerstN ∨ c = .pcieLinkDown ∧ s.on F.HIF_STAT_LINK_UP = true →
      Runs c s fun t => t.hif.flrDue = true ∧ t.hif.reqs = s.hif.reqs ∧ t.hif.jobs = s.hif.jobs.map (fun j => { j with ring := 16 + j.ring % 16 }) ∧
        (∀ a, a / 65536 = 3 → t.reg a = (resetWord s.strap a).toNat) ∧ (∀ a, a / 65536 ≠ 3 → t.reg a = s.reg a)) ∧
  (∀ (wd sp : BitVec 2) (bme : Bool) (s : State), hasHost s = true →
      Runs (.pcieLinkUp wd sp bme) s fun t => t.on F.HIF_STAT_LINK_UP = true ∧ t.rd F.HIF_STAT_WIDTH = wd.toNat ∧ t.rd F.HIF_STAT_SPEED = sp.toNat ∧
        t.on F.HIF_STAT_BME = bme ∧ t.hif.flrDue = false)

/-- A descriptor in hand of ring n. Addressed to this device, which is in no pair, with one word for a LANE register: REG_WRITE puts it down and ends; REG_READ ends with the word; TABLE_LOAD of 8 bytes puts its first word down. A REG_READ or acknowledged REG_WRITE of a route that leaves this device notes its request with the SEQ it left with; a route that is not well formed ends it 3. LAYER_FLIP that passes its checks is pending for its frame, else it ends with the check's code; a standalone device takes the fill buffer alone. MAP_LOAD likewise. XA_BEGIN, whose XID began as it was consumed, ends; XA_ADD adds its destination and where its entries lie; XA_COMMIT starts the transaction or aborts it, ends an empty one, ends one that was aborted before with that reason and frees it, and refuses a stranger 10h. UPDATE_BLOCK for this device ends with the session's answer. (R119, R120, R170, R178, R310, R311, R312, R314, R315, R317, R318, R321) -/
def Obligations.DescriptorsActOnTheDevice : Prop :=
  (∀ (n : Fin 16) (j : Job) (data : Option (List Byte)) (r : RegSpec) (s : State), InHand s n.val 3 j → pairEn s = false → isLocal j = true →
      leAt j.bytes 20 1 = 1 → leAt j.bytes 16 4 % 4 = 0 → addrOn s.strap.role (leAt j.bytes 16 4) = true → leAt j.bytes 16 4 / 65536 = 5 →
      findReg (leAt j.bytes 16 4) = some r →
      Runs (.regWrite n data) s fun t => (∀ k ∈ t.hif.jobs, k.id ≠ j.id) ∧ t.reg (leAt j.bytes 16 4) =
        (wordEffect r (s.reg (leAt j.bytes 16 4)) (leAt j.bytes 32 4) (!(blockDisabled s (leAt j.bytes 16 4))) false).live % 2 ^ 32) ∧
  (∀ (n : Fin 16) (j : Job) (s : State), InHand s n.val 4 j → isLocal j = true → leAt j.bytes 20 1 = 1 → j.missing = 0 → leAt j.bytes 16 4 % 4 = 0 →
      addrOn s.strap.role (leAt j.bytes 16 4) = true → leAt j.bytes 16 4 / 65536 = 5 →
      Table.get 0 s.latch (pathIdx .local * 0x2000000 + leAt j.bytes 16 4) = 0 →
      Runs (.regRead n) s fun t => Completes s t n.val j
        { j.record 0 with count := 1, route := j.rspRoute, rhb := j.rspRhb, result := bytesLE 4 (shows s (leAt j.bytes 16 4)) }) ∧
  (∀ (n : Fin 16) (j : Job) (data : Option (List Byte)) (s : State), isLocal j = false → leAt j.bytes 20 1 ≤ 8 →
      (InHand s n.val 4 j → (routeOk s j.route j.rhb = false → Runs (.regRead n) s fun t => Completes s t n.val j (j.record 3)) ∧
        (∀ p q, routeOk s j.route j.rhb = true → p = bytesBE 4 (leAt j.bytes 16 4) ++ bytesBE 1 (leAt j.bytes 20 1) ++ bytesBE 1 (leAt j.bytes 21 1) ++ bytesBE 2 0 →
          (sendControl s (ringOfRoute s j.route j.rhb) (downPacket 3 j.rhb j.route p)).2 = some q → Runs (.regRead n) s fun t => t.hif.reqs = s.hif.reqs ++
            [⟨j.id, ringOfRoute s j.route j.rhb, q, j.route, j.rhb, owedBy s (ringOfRoute s j.route j.rhb) j.route⟩])) ∧
      (InHand s n.val 3 j → bitAt (leAt j.bytes 21 1) 0 = true → linkCheck s = s →
        (routeOk s j.route j.rhb = false → Runs (.regWrite n data) s fun t => Completes s t n.val j (j.record 3)) ∧
        (∀ p q, routeOk s j.route j.rhb = true → p = bytesBE 4 (leAt j.bytes 16 4) ++ bytesBE 1 (leAt j.bytes 20 1) ++ bytesBE 1 (leAt j.bytes 21 1) ++ bytesBE 2 0 ++
            (wordsLE (leAt j.bytes 20 1) (slice j.bytes 32 (4 * leAt j.bytes 20 1))).flatMap (bytesBE 4) →
          (sendControl s (ringOfRoute s j.route j.rhb) (downPacket 2 j.rhb j.route p)).2 = some q → Runs (.regWrite n data) s fun t => t.hif.reqs = s.hif.reqs ++
            [⟨j.id, ringOfRoute s j.route j.rhb, q, j.route, j.rhb, owedBy s (ringOfRoute s j.route j.rhb) j.route⟩]))) ∧
  (∀ (n : Fin 16) (j : Job) (d : List Byte) (r : RegSpec) (s : State), InHand s n.val 5 j → pairEn s = false → isLocal j = true → leAt j.bytes 20 4 = 8 →
      leAt j.bytes 16 4 % 8 = 0 → addrOn s.strap.role (leAt j.bytes 16 4) = true → leAt j.bytes 16 4 / 65536 = 5 → findReg (leAt j.bytes 16 4) = some r →
      Runs (.tableLoad n (some d)) s fun t => (∀ k ∈ t.hif.jobs, k.id ≠ j.id) ∧ t.reg (leAt j.bytes 16 4) =
        (wordEffect r (s.reg (leAt j.bytes 16 4)) (leAt d 0 4) (!(blockDisabled s (leAt j.bytes 16 4))) false).live % 2 ^ 32) ∧
  (∀ (n : Fin 16) (j : Job) (s : State), InHand s n.val 6 j → s.isStandalone = false →
      (flipCheck s (leAt j.bytes 16 1) (leAt j.bytes 17 1) (leAt j.bytes 24 8) (sealOf j.bytes) ≠ 0 →
        Runs (.layerFlip n) s fun t => Completes s t n.val j
          (j.record (flipCheck s (leAt j.bytes 16 1) (leAt j.bytes 17 1) (leAt j.bytes 24 8) (sealOf j.bytes)))) ∧
      (flipCheck s (leAt j.bytes 16 1) (leAt j.bytes 17 1) (leAt j.bytes 24 8) (sealOf j.bytes) = 0 → leAt j.bytes 16 1 ≠ 0 →
        Runs (.layerFlip n) s fun t => ∃ f ∈ t.cmp.flips, f.job = some j.id ∧ f.layer = leAt j.bytes 17 1 ∧ f.buf = leAt j.bytes 24 8 ∧ f.frame =
          max (leAt j.bytes 32 6) (firstWindow s (((List.range 8).filter (leAt j.bytes 16 1).testBit).headD 0) (if tellsPartner s then 100 else 50)))) ∧
  (∀ (n : Fin 16) (j : Job) (s : State), InHand s n.val 6 j → s.isStandalone = true → leAt j.bytes 16 1 = 1 → leAt j.bytes 17 1 = 0 →
      leAt j.bytes 24 8 = fbAddr s (fbFill s) 0 0 → bitAt (leAt j.bytes 18 1) 0 = false →
      Runs (.layerFlip n) s fun t => ∃ f ∈ t.cmp.flips, f.job = some j.id ∧ f.buf = leAt j.bytes 24 8 ∧
        f.frame = max (leAt j.bytes 32 6) (firstCount (s.gen 0).rate (wallNs s + 50000))) ∧
  (∀ (n : Fin 16) (j : Job) (d : List Byte) (s : State), InHand s n.val 7 j →
      (mapCheck s (leAt j.bytes 16 1) (slice d 0 992) ≠ 0 →
        Runs (.mapLoad n (some d)) s fun t => Completes s t n.val j (j.record (mapCheck s (leAt j.bytes 16 1) (slice d 0 992)))) ∧
      (mapCheck s (leAt j.bytes 16 1) (slice d 0 992) = 0 →
        Runs (.mapLoad n (some d)) s fun t => ∃ m, t.cmp.loads = s.cmp.loads ++ [m] ∧ m.ring = leAt j.bytes 16 1 ∧ m.job = some j.id ∧
          m.table = slice d 0 992 ∧ m.frame = max (leAt j.bytes 32 6) (firstWindow s (leAt j.bytes 16 1) (if tellsPartner s then 100 else 50)))) ∧
  (∀ (n : Fin 16) (j : Job) (s : State), InHand s n.val 8 j →
      Runs (.xaBegin n) s fun t => t.xid (leAt j.bytes 16 1) = s.xid (leAt j.bytes 16 1) ∧ Completes s t n.val j (j.record 0)) ∧
  (∀ (n : Fin 16) (j : Job) (s : State), InHand s n.val 9 j →
      ((s.xid (leAt j.bytes 16 1)).st ≠ .building → Runs (.xaAdd n) s fun t => Completes s t n.val j (j.record 1)) ∧
      ((s.xid (leAt j.bytes 16 1)).st = .building → Runs (.xaAdd n) s fun t => Completes s t n.val j (j.record 0) ∧
        t.xid (leAt j.bytes 16 1) = { s.xid (leAt j.bytes 16 1) with
          dests := joinDest (s.xid (leAt j.bytes 16 1)).dests (xaAddDest j.bytes j.route j.rhb) })) ∧
  (∀ (n : Fin 16) (j : Job) (s : State), InHand s n.val 10 j →
      ((s.xid (leAt j.bytes 16 1)).st ≠ .building → (s.xid (leAt j.bytes 16 1)).st ≠ .aborted ∨ (s.xid (leAt j.bytes 16 1)).early = false →
        Runs (.xaCommit n) s fun t => Completes s t n.val j (j.record 0x10)) ∧
      ((s.xid (leAt j.bytes 16 1)).st = .aborted → (s.xid (leAt j.bytes 16 1)).early = true →
        Runs (.xaCommit n) s fun t => (t.xid (leAt j.bytes 16 1)).st = .free ∧ Completes s t n.val j { j.record reasonHost with
          frame := (s.xid (leAt j.bytes 16 1)).target, route := (s.xid (leAt j.bytes 16 1)).offender, rhb := (s.xid (leAt j.bytes 16 1)).offRhb }) ∧
      ((s.xid (leAt j.bytes 16 1)).st = .building → (s.xid (leAt j.bytes 16 1)).dests = [] →
        Runs (.xaCommit n) s fun t => (t.xid (leAt j.bytes 16 1)).st = .free ∧ Completes s t n.val j (j.record 0)) ∧
      (∀ f : Nat, (s.xid (leAt j.bytes 16 1)).st = .building → (s.xid (leAt j.bytes 16 1)).dests ≠ [] →
        f = commitFrame s (leAt j.bytes 16 1) (if bitAt (leAt j.bytes 17 1) 0 then some (leAt j.bytes 24 6) else none) (leAt j.bytes 18 1) →
        Runs (.xaCommit n) s fun t =>
          if (planXid s (leAt j.bytes 16 1) f).2 = none
          then (t.xid (leAt j.bytes 16 1)).st = .preparing ∧ (t.xid (leAt j.bytes 16 1)).target = f ∧ (t.xid (leAt j.bytes 16 1)).completion = some j.id
          else (t.xid (leAt j.bytes 16 1)).st = .aborted ∨ (t.xid (leAt j.bytes 16 1)).st = .free)) ∧
  (∀ (n : Fin 16) (j : Job) (d : List Byte) (s : State), InHand s n.val 11 j → isLocal j = true →
      Runs (.updateBlock n (some d)) s fun t =>
        let r := updStep (s.setJob { j with ran := true }) (leAt j.bytes 16 1) (leAt j.bytes 17 1) (leAt j.bytes 20 4) (slice d 0 (leAt j.bytes 32 4))
        t.upd.session = r.1.upd.session ∧ Completes s t n.val j (j.record r.2.status))

/-- EVC_TEOI of target n by a path that reaches a device that is not in a pair and whose follower alignment is off, no head or rate change waiting. The stack c :: r becomes r: the top entry alone is popped. Where c is local, its source, with nothing pending, is IDLE; with a pending counter it is QUEUED again if a queue has room for its record, else COUNTING. Where c is remote, no source of the block below the trace's changes. On an empty stack the stack stays empty and no source below the trace's but EVC_EOI_ERR changes; where that source is enabled, delivered to the host, not idle, and has nothing counted, it counts one firing with the target's number. (R332) -/
def Obligations.EndOfInterruptPopsTheStack : Prop :=
  ∀ (path : Access) (n : Fin 4) (s : State), reaches s path = true → addrOn s.strap.role (R.EVC_TEOI n.val) = true → Alone s → s.on F.WT_PAIR_ALIGNED = false →
    Runs (.evcTeoi path n) s fun t =>
      (∀ c r, (s.tgt n.val).stack = c :: r → (t.tgt n.val).stack = r ∧
        (c.remote = false → c.source < 504 →
          ((s.hsrc c.source).cnt = 0 → t.hsrc c.source = Source.init) ∧
          ((s.hsrc c.source).cnt ≠ 0 → (t.hsrc c.source).st = (if (roomFor s (s.rd (F.EVC_SRC_TGT c.source))).isSome then .queued else .counting))) ∧
        (c.remote = true → ∀ m, m < 504 → t.hsrc m = s.hsrc m)) ∧
      ((s.tgt n.val).stack = [] → (t.tgt n.val).stack = [] ∧
        (s.isCarriage = false → s.on (F.EVC_SRC_EN 42) = true → (s.hsrc 42).cnt = 0 → (s.hsrc 42).st ≠ .idle →
          (t.hsrc 42).cnt = 1 ∧ (t.hsrc 42).data = pad16 (d2 n.val 0)))

/-- SOURCE_FIRING of an enabled source: outside a carriage, idle with room at its target a record is queued, else it counts; of a carriage with a position, idle with an entry free an EVENT packet is queued upward, else it counts. A reserved or absent source does not fire. EVC_TCONS of an enabled target releases the records before it, with CLAIM the last joins the stack; outside the records, or of a disabled target, it moves nothing. EVC_TARGET_ENABLE starts an empty queue, EVC_TARGET_DISABLE empties queue and stack, EVC_AWAKE sets the bit. MC_ENABLE trains or is refused; MC_TRAIN_DONE makes the channel ready, zero-filled the first time, or failed; MC_DISABLE, SR_IDLE_EXPIRE and SELF_REFRESH_EXIT enter and leave self-refresh. REFRESH_DUE refreshes, or postpones up to eight. RECENTRING_STEP moves on. PATROL_SCRUB goes one block on and marks and counts a new error. MC_FREQ_GO is refused in RUN and for a reserved RATE, else starts; MC_FREQ_DONE ends it. CAPAR_ALERT counts and, until the attempts are used up, reissues. Where a channel is not in the state its row needs, nothing changes. (R327, R328, R329, R331, R333, R345, R348, R350, R351, R352, R353, R354) -/
def Obligations.TargetsAndDramChannels : Prop :=
  (∀ (n : Fin 512) (d : List Byte) (s : State), blockOn s.strap.role (srcBlock n.val) = true → s.on (F.EVC_SRC_EN n.val) = true → s.isCarriage = false →
      n.val < 504 → srcReserved n.val = false →
      (∀ q, (s.hsrc n.val).st = .idle → roomFor s (s.rd (F.EVC_SRC_TGT n.val)) = some q → Runs (.sourceFiring n d) s fun t =>
        (t.hsrc n.val).st = .queued ∧ ∃ r ∈ (t.tgt q).queue, r.source = n.val ∧ r.remote = false ∧ r.count = 1 ∧ r.data = pad16 d) ∧
      ((s.hsrc n.val).st ≠ .idle → Runs (.sourceFiring n d) s fun t => (t.hsrc n.val).st = (s.hsrc n.val).st ∧
        (0 < (s.hsrc n.val).cnt → (s.hsrc n.val).cnt ≤ 255 → (t.hsrc n.val).cnt = min 255 ((s.hsrc n.val).cnt + 1)))) ∧
  (∀ (n : Fin 512) (d : List Byte) (s : State), srcReserved n.val = true ∨ blockOn s.strap.role (srcBlock n.val) = false →
      Runs (.sourceFiring n d) s fun t => Reports s t ∧ t.hsrc n.val = s.hsrc n.val ∧ t.usrc n.val = s.usrc n.val) ∧
  (∀ (n : Fin 512) (d : List Byte) (s : State), blockOn s.strap.role (srcBlock n.val) = true → s.on (F.EVC_SRC_EN n.val) = true → s.isCarriage = true →
      n.val < 504 → srcReserved n.val = false → n.val ≠ 191 → NoTrain s → s.on F.CL_MYPOS_VALID = true → s.obs.entering = [] →
      ((s.usrc n.val).st = .idle → outqFree s 5 = true → Runs (.sourceFiring n d) s fun t => Queued t
        (eventPacket s n.val { st := .idle, cnt := 1, sat := false, time := wallNs s, data := pad16 d }).pkt) ∧
      ((s.usrc n.val).st ≠ .idle → 0 < (s.usrc n.val).cnt → (s.usrc n.val).cnt ≤ 255 → Runs (.sourceFiring n d) s fun t =>
        (t.usrc n.val).cnt = min 255 ((s.usrc n.val).cnt + 1))) ∧
  (∀ (path : Access) (n : Fin 4) (w : Word) (k : Nat) (r : Record) (s : State), reaches s path = true → addrOn s.strap.role (R.EVC_TCONS n.val) = true → Alone s →
      tgtEn s n.val = true → releaseCount s n.val (w.toNat % 4096) = some (k + 1) → ((s.tgt n.val).queue.take (k + 1)).getLast? = some r →
      (s.tgt n.val).stack.length < 8 →
      Runs (.evcTcons path n w) s fun t => (t.tgt n.val).cons = w.toNat % 4096 ∧ (∃ m, (t.tgt n.val).queue = (s.tgt n.val).queue.drop (k + 1) ++ m) ∧
        (t.tgt n.val).stack = (if w.toNat.testBit 12 then ⟨r.source, r.prio, r.remote⟩ :: (s.tgt n.val).stack else (s.tgt n.val).stack)) ∧
  (∀ (path : Access) (n : Fin 4) (w : Word) (s : State), reaches s path = true → addrOn s.strap.role (R.EVC_TCONS n.val) = true → Alone s →
      tgtEn s n.val = false ∨ releaseCount s n.val (w.toNat % 4096) = none →
      Runs (.evcTcons path n w) s fun t => (t.tgt n.val).cons = (s.tgt n.val).cons ∧ (t.tgt n.val).stack = (s.tgt n.val).stack ∧
        ∃ m, (t.tgt n.val).queue = (s.tgt n.val).queue ++ m) ∧
  (∀ (path : Access) (n : Fin 4) (w : Word) (s : State), reaches s path = true → addrOn s.strap.role (R.EVC_TCTL n.val) = true → Alone s →
      (tgtEn s n.val = false → Runs (.evcTargetEnable path n w) s fun t => tgtEn t n.val = true ∧ (t.tgt n.val).cons = 0 ∧ (t.tgt n.val).stack = []) ∧
      (tgtEn s n.val = true → Runs (.evcTargetDisable path n w) s fun t => tgtEn t n.val = false ∧ (t.tgt n.val).queue = [] ∧ (t.tgt n.val).stack = []) ∧
      ∀ a : Bool, Runs (.evcAwake path n a) s fun t => t.on (F.EVC_TCTL_AWAKE n.val) = a ∧ tgtEn t n.val = tgtEn s n.val) ∧
  (∀ (path : Access) (c : Fin 2) (w : Word) (s : State), reaches s path = true → addrOn s.strap.role (R.MC_CTL c.val) = true → Alone s →
      (s.on (F.MC_CTL_EN c.val) = true → Runs (.mcEnable path c w) s fun t => t.on (F.MC_CTL_EN c.val) = true ∧ mcState t c.val = mcState s c.val) ∧
      (s.on (F.MC_CTL_EN c.val) = false → s.rd (F.MC_DEV_RATE c.val) = 7 → Runs (.mcEnable path c w) s fun t =>
        s.on (F.MC_CTL_EN c.val) = t.on (F.MC_CTL_EN c.val) ∧ mcState t c.val = mcState s c.val) ∧
      (s.on (F.MC_CTL_EN c.val) = false → s.rd (F.MC_DEV_RATE c.val) ≠ 7 → c ≠ 0 ∨ s.isSender = false ∨ s.reg (R.MC_DEV 0) = s.reg (R.MC_DEV 1) →
        Runs (.mcEnable path c w) s fun t => t.on (F.MC_CTL_EN c.val) = true ∧ mcState t c.val = 1 ∧
          t.rd (F.MC_STAT_TSTEP c.val) = (if (s.dch c.val).trained then 2 else 1)) ∧
      (s.on (F.MC_CTL_EN c.val) = true → mcState s c.val = 2 → Runs (.mcDisable path c w) s fun t =>
        t.on (F.MC_CTL_EN c.val) = false ∧ mcState t c.val = 3 ∧ t.rd (F.MC_REF_OWED c.val) = 0) ∧
      (mcState s c.val ≠ 2 → Runs (.mcDisable path c w) s fun t => t.on (F.MC_CTL_EN c.val) = false ∧ mcState t c.val = mcState s c.val)) ∧
  (∀ (c : Fin 2) (a b e f : Byte) (s : State), mcState s c.val = 1 →
      Runs (.mcTrainDone c (.ok a b e f)) s (fun t => mcState t c.val = (if srWanted s c.val then 3 else 2) ∧ t.rd (F.MC_STAT_TSTEP c.val) = 0 ∧
        t.rd (F.MC_TRAIN_VREFDQ c.val) = a.toNat % 64 ∧ t.rd (F.MC_TRAIN_EYE_R c.val) = e.toNat ∧ t.rd (F.MC_TRAIN_EYE_W c.val) = f.toNat ∧
        (t.dch c.val).trained = true ∧ ((s.dch c.val).trained = true → t.dram.mem = s.dram.mem) ∧
        ((s.dch c.val).trained = false → ∀ x, (chanOf s x).1 = c.val → Table.get 0#8 t.dram.mem x = 0#8)) ∧
      Runs (.mcTrainDone c (.fail a b)) s fun t => mcState t c.val = 5 ∧ t.dram.mem = s.dram.mem) ∧
  (∀ (c : Fin 2) (a b e f : Byte) (s : State), mcState s c.val = 4 →
      Runs (.mcTrainDone c (.ok a b e f)) s (fun t => mcState t c.val = 4 ∧ t.dram = s.dram ∧ t.rd (F.MC_TRAIN_VREFDQ c.val) = a.toNat % 64 ∧
        t.rd (F.MC_TRAIN_EYE_R c.val) = e.toNat ∧ t.rd (F.MC_TRAIN_EYE_W c.val) = f.toNat) ∧
      Runs (.mcTrainDone c (.fail a b)) s fun t => mcState t c.val = 5 ∧ t.on (F.MC_FREQ_BUSY c.val) = false ∧ t.dram.mem = s.dram.mem) ∧
  (∀ (c : Fin 2) (x : Train) (s : State), mcState s c.val ≠ 1 → mcState s c.val ≠ 4 → Runs (.mcTrainDone c x) s (Reports s)) ∧
  (∀ (c : Fin 2) (rt : Bool) (s : State), mcState s c.val ≠ 2 → Runs (.refreshDue c rt) s (Reports s)) ∧
  (∀ (c : Fin 2) (rt : Bool) (s : State), mcState s c.val = 2 →
      (s.on (F.MC_CTL_COMPAT_REF c.val) = false → Runs (.refreshDue c rt) s fun t => Output.dram c.val 1 0 ∈ t.out ∧
        (t.dch c.val).refs = ((s.dch c.val).refs + 1) % 128) ∧
      (s.on (F.MC_CTL_COMPAT_REF c.val) = true → s.rd (F.MC_REF_OWED c.val) < 8 → Runs (.refreshDue c rt) s fun t =>
        t.rd (F.MC_REF_OWED c.val) = (if rt then s.rd (F.MC_REF_OWED c.val) + 1 else 0) ∧
        (t.dch c.val).refs = (if rt then (s.dch c.val).refs else ((s.dch c.val).refs + s.rd (F.MC_REF_OWED c.val) + 1) % 128)) ∧
      (s.on (F.MC_CTL_COMPAT_REF c.val) = true → s.rd (F.MC_REF_OWED c.val) = 8 → Runs (.refreshDue c true) s fun t =>
        Output.dram c.val 1 0 ∈ t.out ∧ t.rd (F.MC_REF_OWED c.val) = 8)) ∧
  (∀ (c : Fin 2) (s : State), s.rd (F.MC_PWR_SR_IDLE c.val) = 0 ∨ mcState s c.val ≠ 2 → Runs (.srIdleExpire c) s (Reports s)) ∧
  (∀ (c : Fin 2) (s : State), s.rd (F.MC_PWR_SR_IDLE c.val) ≠ 0 → mcState s c.val = 2 →
      Runs (.srIdleExpire c) s fun t => mcState t c.val = 3 ∧ t.rd (F.MC_REF_OWED c.val) = 0 ∧ t.dram.mem = s.dram.mem) ∧
  (∀ (c : Fin 2) (s : State), mcState s c.val = 3 →
      Runs (.selfRefreshExit c) s fun t => mcState t c.val = (if srWanted s c.val then 3 else 2) ∧ Output.dram c.val 4 0 ∈ t.out ∧ t.dram.mem = s.dram.mem) ∧
  (∀ (c : Fin 2) (s : State), mcState s c.val ≠ 3 → Runs (.selfRefreshExit c) s (Reports s)) ∧
  (∀ (c : Fin 2) (sh e : Byte) (s : State), mcState s c.val = 2 → s.rd (F.MC_RECAL_RECAL_INT c.val) ≠ 0 →
      Runs (.recentringStep c false sh e) s (fun t => (t.dch c.val).recal = ((s.dch c.val).recal + 1) % 10 ∧ t.rd (F.MC_TRAIN_RECALS c.val) =
        (if sh.toNat ≤ s.rd1 (F.MC_RECAL_STEP_MAX c.val) ∧ s.rd1 (F.MC_RECAL_EYE_MIN c.val) ≤ e.toNat
         then satAdd (F.MC_TRAIN_RECALS c.val).w (s.rd (F.MC_TRAIN_RECALS c.val)) 1 else s.rd (F.MC_TRAIN_RECALS c.val))) ∧
      Runs (.recentringStep c true sh e) s (Reports s)) ∧
  (∀ (c : Fin 2) (b : Bool) (sh e : Byte) (s : State), mcState s c.val ≠ 2 ∨ s.rd (F.MC_RECAL_RECAL_INT c.val) = 0 →
      Runs (.recentringStep c b sh e) s (Reports s)) ∧
  (∀ (c : Fin 2) (f : Fin 5) (p : Fin 8) (s : State), s.on (F.MC_CTL_SCRUB_EN c.val) = false ∨ mcState s c.val ≠ 2 →
      Runs (.patrolScrub c f p) s (Reports s)) ∧
  (∀ (c : Fin 2) (f : Fin 5) (p : Fin 8) (s : State), s.on (F.MC_CTL_SCRUB_EN c.val) = true → mcState s c.val = 2 →
      Runs (.patrolScrub c f p) s fun t =>
        (t.dch c.val).patrol = (if (s.dch c.val).patrol + 64 + 4096 < chanBytes s c.val then (s.dch c.val).patrol + 64 else 0) ∧ t.dram.mem = s.dram.mem ∧
        (2 ≤ f.val → Table.get 0 t.dram.bad (deviceOf s c.val (s.dch c.val).patrol / 8 + p.val) = f.val - 1 ∧
          t.rd (F.MC_ECC_UE c.val) = satAdd (F.MC_ECC_UE c.val).w (s.rd (F.MC_ECC_UE c.val)) 1)) ∧
  (∀ (path : Access) (c : Fin 2) (w : Word) (s : State), reaches s path = true → addrOn s.strap.role (R.MC_FREQ c.val) = true → Alone s →
      Runs (.mcFreqGo path c w) s fun t =>
        (s.rd F.SYS_MSTAT_MODE = 3 ∨ w.toNat % 8 = 7 → t.on (F.MC_FREQ_REFUSED c.val) = true ∧ mcState t c.val = mcState s c.val) ∧
        (s.rd F.SYS_MSTAT_MODE ≠ 3 → w.toNat % 8 ≠ 7 → t.on (F.MC_FREQ_REFUSED c.val) = false ∧ t.on (F.MC_FREQ_BUSY c.val) = true ∧ mcState t c.val = 4 ∧
          (mcState s c.val = 2 → t.rd (F.MC_REF_OWED c.val) = 0) ∧ (t.dch c.val).newRate = w.toNat % 8)) ∧
  (∀ (c : Fin 2) (s : State), s.on (F.MC_FREQ_BUSY c.val) = true →
      Runs (.mcFreqDone c) s fun t => t.on (F.MC_FREQ_BUSY c.val) = false ∧ mcState t c.val = (if srWanted s c.val then 3 else 2) ∧
        t.rd (F.MC_STAT_RATE c.val) = (s.dch c.val).newRate % 8 ∧ (t.dch c.val).trained = true ∧
        ((s.dch c.val).trained = true → t.dram.mem = s.dram.mem)) ∧
  (∀ (c : Fin 2) (s : State), s.on (F.MC_FREQ_BUSY c.val) = false → Runs (.mcFreqDone c) s (Reports s)) ∧
  (∀ (c : Fin 2) (k : Fin 16) (a : Option (BitVec 33)) (s : State), s.on (F.MC_CTL_CAPAR_EN c.val) = false → Runs (.caparAlert c k a) s (Reports s)) ∧
  (∀ (c : Fin 2) (k : Fin 16) (a : Option (BitVec 33)) (s : State), s.on (F.MC_CTL_CAPAR_EN c.val) = true →
      Runs (.caparAlert c k a) s fun t => t.rd (F.MC_CAPAR_ERR c.val) = satAdd (F.MC_CAPAR_ERR c.val).w (s.rd (F.MC_CAPAR_ERR c.val)) 1 ∧
        Output.dram c.val 5 0 ∈ t.out ∧ (k.val < s.rd1 (F.MC_CAPAR_RETRY_MAX c.val) → Output.dram c.val 9 (k.val + 1) ∈ t.out) ∧
        t.rd (F.MC_ECC_UE c.val) = (if s.rd1 (F.MC_CAPAR_RETRY_MAX c.val) ≤ k.val ∧ a.isSome = true
          then satAdd (F.MC_ECC_UE c.val).w (s.rd (F.MC_ECC_UE c.val)) 1 else s.rd (F.MC_ECC_UE c.val)))

/-- HK_ROUND starts a round outside reset and SENTRY; HK_ROUND_END of one counts it, fails a sensor bad twice in a row, and shows the value of every plain channel in use. RESTART_WAIT_EXPIRE after a die shutdown starts up with cause 6. At the front of the queue each UPDATE packet leaves it and is answered by the ACK of its session step: UPDATE_OPEN of a slot that may be written opens the session with its header sector erased; UPDATE_DATA at the next offset buffers it; UPDATE_CLOSE at the end hands it to verification; UPDATE_ABORT ends it; UPDATE_QUERY changes nothing. UPDATE_ACK_RX completes the request it answers. SESS_TIMEOUT ends a session. FLASH_WRITE_DONE applies the operation, of the open session or of the one under verification, or fails it. VERIFY_DONE keeps the result, a good image is staged. ACT_ENTRY_PROGRAMMED takes the oldest entry due. UPD_ACT joins the open set. SVC_PRESENT_EDGE shows the ball, may wake the device, and ends a service session. Each row without its occasion (no round, no shutdown, another packet at the head, no session, no entry) changes nothing. (R377, R385, R396, R397, R398, R399, R401, R402, R403, R404, R406) -/
def Obligations.RoundsAndUpdateSessions : Prop :=
  (∀ s : State, (s.sys.low = 0 → s.mode ≠ mSentry → Runs .hkRound s (Reports { s with hk := { s.hk with running := true } })) ∧
      (s.sys.low ≠ 0 ∨ s.mode = mSentry → Runs .hkRound s (Reports s)) ∧
      (s.hk.restart = false → linkCheck s = s → Runs .restartWaitExpire s (Reports s)) ∧
      (s.upd.verifying = none → Runs (.verifyDone true) s (Reports s) ∧ Runs (.verifyDone false) s (Reports s)) ∧
      (s.upd.entries = [] → Runs (.actEntryProgrammed true) s (Reports s) ∧ Runs (.actEntryProgrammed false) s (Reports s)) ∧
      ((s.upd.session <|> s.upd.verifying).bind nextFlashOp = none → Runs (.flashWriteDone true) s (Reports s) ∧ Runs (.flashWriteDone false) s (Reports s))) ∧
  (∀ (vals : List (BitVec 16)) (bad : BitVec 4) (s : State), s.hk.running = false → linkCheck s = s → Runs (.hkRoundEnd vals bad) s (Reports s)) ∧
  (∀ (c : Instr) (k : Nat) (s : State), (c, k) ∈ [(Instr.updateOpen, 1), (.updateData, 2), (.updateClose, 3), (.updateAbort, 4), (.updateQuery, 5)] →
      ((s.ring.ready = [] ∨ ∃ x l, s.ring.ready = x :: l ∧ (x.pkt.type ≠ 8 ∨ beAt x.pkt.data 0 1 ≠ k)) → Runs c s (Reports s)) ∧
      (∀ x l, s.ring.ready = x :: l → x.pkt.type = 8 → beAt x.pkt.data 0 1 = k → s.on F.CL_MYPOS_VALID = true → NoTrain s →
        Runs c s fun t =>
          let r := updStep s k (beAt x.pkt.data 1 1) (beAt x.pkt.data 2 4) (x.pkt.data.drop 8)
          t.ring.ready = l ∧ t.upd.session = r.1.upd.session ∧ Queued t (upPacket s 8 (bytesBE 1 0x81 ++ bytesBE 1 (beAt x.pkt.data 1 1) ++ bytesBE 4 0 ++
            bytesBE 2 1 ++ bytesBE 1 r.2.status ++ bytesBE 1 k ++ bytesBE 1 r.2.detail ++ bytesBE 1 r.2.slot ++ bytesBE 4 r.2.next)))) ∧
  (∀ (vals : List (BitVec 16)) (bad : BitVec 4) (s : State), s.hk.running = true →
      Runs (.hkRoundEnd vals bad) s fun t => t.hk.running = false ∧ t.rd F.HK_STAT_ROUNDS = satAdd F.HK_STAT_ROUNDS.w (s.rd F.HK_STAT_ROUNDS) 1 ∧
        (∀ c, c < 13 → hkOn s c = true → (sensorBad s (vals.map fun v => v.toNat) bad.toNat c).isSome = true → (s.hk.bad.get 0 c) = 1 → (c < 4 → s.rd F.HK_FAILED_FAILED = 0) →
          (t.rd F.HK_FAILED_FAILED).testBit c = true) ∧
        ∀ c, 13 ≤ c → c < 32 → hkOn s c = true →
          t.rd (F.HK_VAL_VALUE c) = toBits (hkValue s c ((vals.map fun v => v.toNat).getD c 0)) 16 ∧ t.on (F.HK_VAL_VALID c) = true) ∧
  (∀ s : State, s.hk.restart = true → Runs .restartWaitExpire s fun t => t.sys.starting = some 6 ∧ t.sys.low = 0 ∧ t.hk.restart = false ∧ t.upd.flash = s.upd.flash) ∧
  (∀ (x : Ready) (l : List Ready) (s : State), s.ring.ready = x :: l → x.pkt.type = 8 →
      (beAt x.pkt.data 0 1 = 1 → s.upd.session = none → s.upd.verifying = none → beAt x.pkt.data 8 1 ≤ 1 → beAt x.pkt.data 12 4 ≠ 0 →
        beAt x.pkt.data 12 4 % 8 = 0 → beAt x.pkt.data 12 4 ≤ 0x3000000 → beAt x.pkt.data 8 1 ≠ s.rd F.UPD_STAT_RUNNING →
        stagedActivate s (beAt x.pkt.data 8 1) = false →
        Runs .updateOpen s fun t => t.ring.ready = l ∧ t.rd F.UPD_STAT_SESS = 1 ∧
          (∃ y, t.upd.session = some y ∧ y.vodan = false ∧ y.number = beAt x.pkt.data 1 1 ∧ y.slot = beAt x.pkt.data 8 1 ∧
            y.total = beAt x.pkt.data 12 4 ∧ y.next = 0 ∧ y.buffer = []) ∧
          ∀ a, slotBase (beAt x.pkt.data 8 1) ≤ a → a < slotBase (beAt x.pkt.data 8 1) + 65536 → flashByte t a = 0xFF#8) ∧
      (∀ y, beAt x.pkt.data 0 1 = 2 → s.upd.session = some y → y.vodan = false → y.number = beAt x.pkt.data 1 1 → y.fail = none →
        y.last ≠ some (beAt x.pkt.data 2 4, (x.pkt.data.drop 8).length) → beAt x.pkt.data 2 4 = y.next → 8 ≤ (x.pkt.data.drop 8).length →
        (x.pkt.data.drop 8).length ≤ 8184 → y.next + (x.pkt.data.drop 8).length ≤ y.total → y.buffer.length + (x.pkt.data.drop 8).length ≤ 65536 →
        Runs .updateData s fun t => t.upd.flash = s.upd.flash ∧ t.upd.session = some
          { y with next := y.next + (x.pkt.data.drop 8).length, last := some (y.next, (x.pkt.data.drop 8).length), buffer := y.buffer ++ x.pkt.data.drop 8 }) ∧
      (∀ y, beAt x.pkt.data 0 1 = 3 → s.upd.session = some y → y.vodan = false → y.number = beAt x.pkt.data 1 1 → y.fail = none → y.next = y.total →
        Runs .updateClose s fun t => t.upd.session = none ∧ t.upd.verifying = some y ∧ t.rd F.UPD_STAT_SESS = 3) ∧
      (∀ y, beAt x.pkt.data 0 1 = 4 → s.upd.session = some y → y.vodan = false → y.number = beAt x.pkt.data 1 1 →
        Runs .updateAbort s fun t => t.upd.session = none ∧ t.upd.flash = s.upd.flash) ∧
      (beAt x.pkt.data 0 1 = 5 → Runs .updateQuery s fun t => t.upd = s.upd ∧ t.ring.ready = l ∧ t.regs = s.regs)) ∧
  (∀ (u : UpPkt) (l : List UpPkt) (q : Request) (j : Job) (s : State), NoHeadWaits s → s.ring.upReady = u :: l → u.pkt.type = 8 → s.hif.reqs = [q] →
      q.ring = u.ring → q.route = u.pkt.route.toNat → s.job q.job = some j → j.ring < 16 → j.type = 11 → leAt j.bytes 16 1 = beAt u.pkt.data 9 1 →
      leAt j.bytes 17 1 = beAt u.pkt.data 1 1 →
      Runs .updateAckRx s fun t => t.ring.upReady = l ∧
        Completes s t j.ring j { j.record (beAt u.pkt.data 8 1) with route := u.pkt.route.toNat, rhb := u.pkt.rhb }) ∧
  (∀ (y : Session) (s : State), s.upd.session = some y → Runs .sessTimeout s fun t => t.upd.session = none ∧ t.upd.flash = s.upd.flash) ∧
  (∀ s : State, s.upd.session = none → Runs .sessTimeout s (Reports s)) ∧
  (∀ (y : Session) (er : Bool) (a n : Nat) (s : State), s.upd.session = some y → y.slot ≤ 1 → nextFlashOp y = some (er, a, n) →
      Runs (.flashWriteDone true) s (fun t => t.upd.session = some (doFlashOp s y).2 ∧
        (er = true → ∀ b, a ≤ b → b < a + n → flashByte t b = 0xFF#8) ∧ ∀ b, b < a ∨ a + n ≤ b → flashByte t b = flashByte s b) ∧
      Runs (.flashWriteDone false) s fun t => ∃ z, t.upd.session = some z ∧ z.fail = some (if er then 1 else 2) ∧ ∀ b, flashByte t b = flashByte s b) ∧
  (∀ (y : Session) (s : State), s.upd.session = none → s.upd.verifying = some y → (nextFlashOp y).isSome = true →
      Runs (.flashWriteDone true) s fun t => t.upd.verifying = some (doFlashOp s y).2 ∧ t.upd.session = none) ∧
  (∀ (ok : Bool) (y : Session) (s : State), s.upd.verifying = some y →
      Runs (.verifyDone ok) s fun t =>
        let f := verifyFault (drain 66000 (s, y)).1 y.slot
        t.upd.verifying = none ∧ t.upd.result = some (y.number, y.slot, if f ≠ 0 then 9 else if ok then 0 else 8, if f ≠ 0 then f else if ok then 0 else 2) ∧
        (f = 0 → y.slot ≤ 1 → t.rd F.UPD_STAT_STAGED = y.slot + 1)) ∧
  (∀ (ok : Bool) (k m : Nat) (l : List (Nat × Nat)) (s : State), s.upd.entries = (k, m) :: l →
      Runs (.actEntryProgrammed ok) s fun t => t.upd.entries = l ∧
        (ok = false ∨ k = 2 ∨ entryFree s (slotBase k) = none → t.on F.UPD_STAT_ACT_UNSAVED = true) ∧
        (ok = true → k ≠ 2 → entryFree s (slotBase k) ≠ none → s.rd F.UPD_STAT_RUNNING = k → t.rd F.UPD_GEN_GEN = (topGen s + 1) % 2 ^ 32)) ∧
  (∀ (path : Access) (w : Word) (s : State), reaches s path = true → addrOn s.strap.role R.UPD_ACT = true →
      Runs (.updAct path w) s fun t => heldOpen t R.UPD_ACT 1 = true ∧ t.commit.closed = s.commit.closed) ∧
  (∀ (low : Bool) (s : State), Runs (.svcPresentEdge low) s fun t => t.on F.UPD_STAT_SVC_PRESENT = low ∧
      (low = false → ∀ y, s.upd.session = some y → t.upd.session = (if y.vodan then none else some y)) ∧
      (low = true → t.upd.session = s.upd.session ∧ (s.on F.PWR_WAKE_SVC = true → sleeping s = false → s.sys.going = none → s.mode = mSentry →
        t.sys.going = some (mStandby, 3))))

/-- A request with a bad CRC is answered 11h, one other than ID while the core does not run 10h. VODAN_ID outside reset answers the identity registers. VODAN_READ answers the words read; VODAN_WRITE of a UPD register puts it down, of any other but the two named ones 12h and nothing written. With SVC_PRESENT_N low VODAN_OPEN, DATA, CLOSE and ABORT run the service session and answer its status, VODAN_QUERY leaves it; with the ball high all five are answered 12h. VODAN_RESPONSE sends the frame and releases the ball, with none ready it changes nothing. OBS_TRACE_CLEAR and OBS_COUNTER_CLEAR, where nothing is reported meanwhile, start the buffer and the counters at zero. BYPASS, IDCODE and SAMPLE_PRELOAD, and EXTEST, CLAMP and HIGHZ as such only while PORST_N is low, change the test port alone. (R396, R397, R398, R399, R403, R412, R414, R415) -/
def Obligations.ToolsTraceAndTestPort : Prop :=
  (∀ (a : BitVec 25) (w : Word) (n : Byte) (d : List Byte) (b : Bool) (c : Bool → Instr) (s : State),
      c = (fun k => .vodanRead k a n) ∨ c = (fun k => .vodanWrite k a w) ∨ c = (fun k => .vodanOpen k n w n) ∨ c = (fun k => .vodanData k w d) ∨
      c = (fun k => .vodanClose k) ∨ c = (fun k => .vodanAbort k b) ∨ c = (fun k => .vodanQuery k) →
      Runs (c false) s (fun t => t.upd.reply = (vodanReply s 0x11 []).upd.reply ∧ t.upd.session = s.upd.session) ∧
      (coreRuns s = false → Runs (c true) s fun t => t.upd.reply = (vodanReply s 0x10 []).upd.reply ∧ t.upd.session = s.upd.session)) ∧
  (∀ s : State, s.sys.low ≠ 1 → s.mode ≠ mSentry ∨ s.on F.PWR_WAKE_SVC = false →
      Runs (.vodanId true) s fun t => t.regs = s.regs ∧ t.upd.reply = (vodanReply s 0 (regBytes s R.SYS_ID ++ regBytes s R.SYS_UID_HI ++ regBytes s R.SYS_UID_LO ++
        regBytes s R.SYS_STRAP ++ regBytes s R.SYS_MSTAT ++ regBytes s R.UPD_STAT)).upd.reply) ∧
  (∀ (a : BitVec 25) (s : State), coreRuns s = true → a.toNat / 65536 = 17 → a.toNat % 4 = 0 →
      Table.get 0 s.latch (pathIdx .vodan * 0x2000000 + a.toNat) = 0 →
      Runs (.vodanRead true a 1#8) s fun t => t.upd.reply = (vodanReply s 0 (bytesBE 4 (shows s a.toNat))).upd.reply) ∧
  (∀ (a : BitVec 25) (n : Byte) (s : State), coreRuns s = true → Runs (.vodanRead true a n) s fun t =>
      t.upd.reply = (vodanReply s 0 (vodanWords (min 16 n.toNat) s a.toNat).2).upd.reply) ∧
  (∀ (k n : Byte) (w : Word) (d : List Byte) (b : Bool) (s : State), coreRuns s = true →
      (s.on F.UPD_STAT_SVC_PRESENT = false → ∀ c ∈ [Instr.vodanOpen true k w n, .vodanData true w d, .vodanClose true, .vodanAbort true b, .vodanQuery true],
        Runs c s fun t => t.upd.reply = (vodanReply s 0x12 []).upd.reply ∧ t.upd.session = s.upd.session) ∧
      (s.on F.UPD_STAT_SVC_PRESENT = true →
        Runs (.vodanOpen true k w n) s (fun t => t.upd.reply = (vodanReply s (updOpen s true n.toNat k.toNat w.toNat).2.status []).upd.reply) ∧
        Runs (.vodanData true w d) s (fun t => t.upd.reply = (vodanReply s (updData s true 0 w.toNat d).2.status
          (bytesBE 4 (updData s true 0 w.toNat d).2.next)).upd.reply) ∧
        Runs (.vodanClose true) s (fun t => t.upd.reply = (vodanReply s (updClose s true 0).2.status []).upd.reply) ∧
        Runs (.vodanAbort true b) s fun t => t.upd.reply = (vodanReply s (updAbort s true b 0).2.status []).upd.reply)) ∧
  (∀ (a : BitVec 25) (w : Word) (r : RegSpec) (s : State), coreRuns s = true → a.toNat / 65536 = 17 → a.toNat % 4 = 0 → findReg a.toNat = some r →
      Runs (.vodanWrite true a w) s fun t => t.upd.reply = (vodanReply s 0 []).upd.reply ∧
        t.reg a.toNat = (wordEffect r (s.reg a.toNat) w.toNat (!(blockDisabled s a.toNat)) false).live % 2 ^ 32) ∧
  (∀ (a : BitVec 25) (w : Word) (s : State), coreRuns s = true → vodanMayWrite a.toNat = false →
      Runs (.vodanWrite true a w) s fun t => t.upd.reply = (vodanReply s 0x12 []).upd.reply ∧ t.commit = s.commit ∧
        ∀ x, x / 65536 < 3 ∨ 11 ≤ x / 65536 ∧ x / 65536 ≤ 13 ∨ 16 ≤ x / 65536 → t.reg x = s.reg x) ∧
  (∀ s : State, coreRuns s = true → s.on F.UPD_STAT_SVC_PRESENT = true →
      (∀ (k n : Byte) (w : Word), s.upd.session = none → s.upd.verifying = none → k.toNat ≤ 1 → w.toNat ≠ 0 → w.toNat % 8 = 0 → w.toNat ≤ 0x3000000 →
        k.toNat ≠ s.rd F.UPD_STAT_RUNNING → stagedActivate s k.toNat = false →
        Runs (.vodanOpen true k w n) s fun t => t.rd F.UPD_STAT_SESS = 2 ∧
          ∃ y, t.upd.session = some y ∧ y.vodan = true ∧ y.slot = k.toNat ∧ y.total = w.toNat ∧ y.next = 0) ∧
      (∀ y, s.upd.session = some y → y.vodan = true →
        (∀ d : List Byte, y.fail = none → y.last ≠ some (y.next, d.length) → 8 ≤ d.length → d.length ≤ 8184 → y.next + d.length ≤ y.total →
          y.buffer.length + d.length ≤ 65536 → y.next < 2 ^ 32 →
          Runs (.vodanData true (BitVec.ofNat 32 y.next) d) s fun t =>
            t.upd.session = some { y with next := y.next + d.length, last := some (y.next, d.length), buffer := y.buffer ++ d }) ∧
        (y.fail = none → y.next = y.total → Runs (.vodanClose true) s fun t => t.upd.session = none ∧ t.upd.verifying = some y) ∧
        ∀ b : Bool, Runs (.vodanAbort true b) s fun t => t.upd.session = none) ∧
      (∀ y, s.upd.session = some y → y.vodan = false → Runs (.vodanAbort true true) s (fun t => t.upd.session = none) ∧
        Runs (.vodanAbort true false) s fun t => t.upd.session = some y ∧ t.upd.reply = (vodanReply s 1 []).upd.reply) ∧
      Runs (.vodanQuery true) s fun t => t.upd.session = s.upd.session ∧ t.regs = s.regs ∧ t.upd.reply =
        (vodanReply s (updQuery s (queryNumber s)).status (regBytes s R.UPD_STAT ++ regBytes s R.UPD_SLOTA ++ regBytes s R.UPD_SLOTB)).upd.reply) ∧
  (∀ s : State, s.upd.reply = [] → Runs .vodanResponse s (Reports s)) ∧
  (∀ s : State, s.upd.reply ≠ [] → Runs .vodanResponse s fun t => t.upd.reply = [] ∧ Sends s t [.pin pinAttn 1, .vodan s.upd.reply]) ∧
  (∀ (path : Access) (s : State), reaches s path = true → addrOn s.strap.role R.OBS_TCTL = true → Alone s → s.on F.WT_PAIR_ALIGNED = false →
      s.obs.entering = [] →
      Runs (.obsTraceClear path) s (fun t => t.obs.wptr = 0 ∧ t.obs.wrapped = false ∧ t.obs.full = false ∧ t.obs.cnt = s.obs.cnt) ∧
      Runs (.obsCounterClear path) s fun t => (∀ n, Table.get 0 t.obs.cnt n = 0) ∧ t.obs.wptr = s.obs.wptr) ∧
  (∀ s : State, Runs .tapBypass s (fun t => t = { s with tap := { s.tap with ir := .bypass, dr := 0 } }) ∧
      Runs .tapIdcode s (fun t => t = { s with tap := { s.tap with ir := .idcode, dr := idcode } })) ∧
  (∀ (a b : List Bool) (s : State), Runs (.tapSamplePreload a b) s (fun t => t = { s with tap := ⟨.samplePreload, bitsNat b, bitsNat a⟩ }) ∧
      Runs (.tapExtest a b) s fun t => t = { s with tap := if s.sys.low = 1 then ⟨.extest, bitsNat b, bitsNat a⟩ else { s.tap with ir := .bypass, dr := 0 } }) ∧
  (∀ s : State, Runs .tapClamp s (fun t => t = { s with tap := { s.tap with ir := if s.sys.low = 1 then .clamp else .bypass, dr := 0 } }) ∧
      Runs .tapHighz s fun t => t = { s with tap := { s.tap with ir := if s.sys.low = 1 then .highz else .bypass, dr := 0 } })
end

