-- ==== Sys2Proof/Laws/Blocks.lean ====
section
/-! SUPPORT. Laws/Blocks.lean: the block of R417 that each register lies in, whatever its index. -/
namespace Sys2Proof.Machine

@[simp] theorem R.SYS_ID_block : R.SYS_ID / 65536 = 0 := rfl
@[simp] theorem R.SYS_UID_LO_block : R.SYS_UID_LO / 65536 = 0 := rfl
@[simp] theorem R.SYS_UID_HI_block : R.SYS_UID_HI / 65536 = 0 := rfl
@[simp] theorem R.SYS_STRAP_block : R.SYS_STRAP / 65536 = 0 := rfl
@[simp] theorem R.SYS_MODE_block : R.SYS_MODE / 65536 = 0 := rfl
@[simp] theorem R.SYS_MSTAT_block : R.SYS_MSTAT / 65536 = 0 := rfl
@[simp] theorem R.SYS_COMMIT_block : R.SYS_COMMIT / 65536 = 0 := rfl
@[simp] theorem R.SYS_CSTAT_block : R.SYS_CSTAT / 65536 = 0 := rfl
@[simp] theorem R.CKG_CTL_block : R.CKG_CTL / 65536 = 1 := rfl
@[simp] theorem R.CKG_STAT_block : R.CKG_STAT / 65536 = 1 := rfl
@[simp] theorem R.CKG_TRIM_block : R.CKG_TRIM / 65536 = 1 := rfl
@[simp] theorem R.CKG_LPO_block : R.CKG_LPO / 65536 = 1 := rfl
@[simp] theorem R.CKG_MON_block : R.CKG_MON / 65536 = 1 := rfl
@[simp] theorem R.PWR_RUN_EN_block : R.PWR_RUN_EN / 65536 = 1 := rfl
@[simp] theorem R.PWR_SLP_EN_block : R.PWR_SLP_EN / 65536 = 1 := rfl
@[simp] theorem R.PWR_DSLP_EN_block : R.PWR_DSLP_EN / 65536 = 1 := rfl
@[simp] theorem R.PWR_GATE_block : R.PWR_GATE / 65536 = 1 := rfl
@[simp] theorem R.PWR_DROOP_block : R.PWR_DROOP / 65536 = 1 := rfl
@[simp] theorem R.PWR_WAKE_block : R.PWR_WAKE / 65536 = 1 := rfl
@[simp] theorem R.PWR_TIMER_block : R.PWR_TIMER / 65536 = 1 := rfl
@[simp] theorem R.EVC_CTL_block : R.EVC_CTL / 65536 = 2 := rfl
@[simp] theorem R.EVC_STAT_block : R.EVC_STAT / 65536 = 2 := rfl
@[simp] theorem R.EVC_TBASE_LO_block (i : Nat) : R.EVC_TBASE_LO i / 65536 = 2 := by unfold R.EVC_TBASE_LO; omega
@[simp] theorem R.EVC_TBASE_HI_block (i : Nat) : R.EVC_TBASE_HI i / 65536 = 2 := by unfold R.EVC_TBASE_HI; omega
@[simp] theorem R.EVC_TCTL_block (i : Nat) : R.EVC_TCTL i / 65536 = 2 := by unfold R.EVC_TCTL; omega
@[simp] theorem R.EVC_TPROD_block (i : Nat) : R.EVC_TPROD i / 65536 = 2 := by unfold R.EVC_TPROD; omega
@[simp] theorem R.EVC_TCONS_block (i : Nat) : R.EVC_TCONS i / 65536 = 2 := by unfold R.EVC_TCONS; omega
@[simp] theorem R.EVC_TEOI_block (i : Nat) : R.EVC_TEOI i / 65536 = 2 := by unfold R.EVC_TEOI; omega
@[simp] theorem R.EVC_TRP_block (i : Nat) : R.EVC_TRP i / 65536 = 2 := by unfold R.EVC_TRP; omega
@[simp] theorem R.EVC_TSTK_block (i j : Nat) : R.EVC_TSTK i j / 65536 = 2 := by unfold R.EVC_TSTK; omega
@[simp] theorem R.EVC_SRC_block (i : Nat) : R.EVC_SRC i / 65536 = 2 := by unfold R.EVC_SRC; omega
@[simp] theorem R.EVC_RSRC_block (i : Nat) : R.EVC_RSRC i / 65536 = 2 := by unfold R.EVC_RSRC; omega
@[simp] theorem R.HIF_CTL_block : R.HIF_CTL / 65536 = 3 := rfl
@[simp] theorem R.HIF_STAT_block : R.HIF_STAT / 65536 = 3 := rfl
@[simp] theorem R.HIF_BAR2_block : R.HIF_BAR2 / 65536 = 3 := rfl
@[simp] theorem R.HIF_CNT_block : R.HIF_CNT / 65536 = 3 := rfl
@[simp] theorem R.HIF_CNT2_block : R.HIF_CNT2 / 65536 = 3 := rfl
@[simp] theorem R.HIF_CR_BASE_LO_block (i : Nat) : R.HIF_CR_BASE_LO i / 65536 = 3 := by unfold R.HIF_CR_BASE_LO; omega
@[simp] theorem R.HIF_CR_BASE_HI_block (i : Nat) : R.HIF_CR_BASE_HI i / 65536 = 3 := by unfold R.HIF_CR_BASE_HI; omega
@[simp] theorem R.HIF_CR_CTL_block (i : Nat) : R.HIF_CR_CTL i / 65536 = 3 := by unfold R.HIF_CR_CTL; omega
@[simp] theorem R.HIF_DB_block (i : Nat) : R.HIF_DB i / 65536 = 3 := by unfold R.HIF_DB; omega
@[simp] theorem R.HIF_CR_CONS_block (i : Nat) : R.HIF_CR_CONS i / 65536 = 3 := by unfold R.HIF_CR_CONS; omega
@[simp] theorem R.HIF_CR_STAT_block (i : Nat) : R.HIF_CR_STAT i / 65536 = 3 := by unfold R.HIF_CR_STAT; omega
@[simp] theorem R.HIF_CP_BASE_LO_block (i : Nat) : R.HIF_CP_BASE_LO i / 65536 = 3 := by unfold R.HIF_CP_BASE_LO; omega
@[simp] theorem R.HIF_CP_BASE_HI_block (i : Nat) : R.HIF_CP_BASE_HI i / 65536 = 3 := by unfold R.HIF_CP_BASE_HI; omega
@[simp] theorem R.HIF_CP_CTL_block (i : Nat) : R.HIF_CP_CTL i / 65536 = 3 := by unfold R.HIF_CP_CTL; omega
@[simp] theorem R.HIF_CP_PROD_block (i : Nat) : R.HIF_CP_PROD i / 65536 = 3 := by unfold R.HIF_CP_PROD; omega
@[simp] theorem R.HIF_CP_CONS_block (i : Nat) : R.HIF_CP_CONS i / 65536 = 3 := by unfold R.HIF_CP_CONS; omega
@[simp] theorem R.MC_CTL_block (i : Nat) : R.MC_CTL i / 65536 = 4 := by unfold R.MC_CTL; omega
@[simp] theorem R.MC_DEV_block (i : Nat) : R.MC_DEV i / 65536 = 4 := by unfold R.MC_DEV; omega
@[simp] theorem R.MC_TADJ_block (i : Nat) : R.MC_TADJ i / 65536 = 4 := by unfold R.MC_TADJ; omega
@[simp] theorem R.MC_TIM0_block (i : Nat) : R.MC_TIM0 i / 65536 = 4 := by unfold R.MC_TIM0; omega
@[simp] theorem R.MC_TIM1_block (i : Nat) : R.MC_TIM1 i / 65536 = 4 := by unfold R.MC_TIM1; omega
@[simp] theorem R.MC_QOS_block (i : Nat) : R.MC_QOS i / 65536 = 4 := by unfold R.MC_QOS; omega
@[simp] theorem R.MC_PWR_block (i : Nat) : R.MC_PWR i / 65536 = 4 := by unfold R.MC_PWR; omega
@[simp] theorem R.MC_REF_block (i : Nat) : R.MC_REF i / 65536 = 4 := by unfold R.MC_REF; omega
@[simp] theorem R.MC_RECAL_block (i : Nat) : R.MC_RECAL i / 65536 = 4 := by unfold R.MC_RECAL; omega
@[simp] theorem R.MC_FREQ_block (i : Nat) : R.MC_FREQ i / 65536 = 4 := by unfold R.MC_FREQ; omega
@[simp] theorem R.MC_STAT_block (i : Nat) : R.MC_STAT i / 65536 = 4 := by unfold R.MC_STAT; omega
@[simp] theorem R.MC_ECC_block (i : Nat) : R.MC_ECC i / 65536 = 4 := by unfold R.MC_ECC; omega
@[simp] theorem R.MC_UEADDR_block (i : Nat) : R.MC_UEADDR i / 65536 = 4 := by unfold R.MC_UEADDR; omega
@[simp] theorem R.MC_CAPAR_block (i : Nat) : R.MC_CAPAR i / 65536 = 4 := by unfold R.MC_CAPAR; omega
@[simp] theorem R.MC_TRAIN_block (i : Nat) : R.MC_TRAIN i / 65536 = 4 := by unfold R.MC_TRAIN; omega
@[simp] theorem R.LANE_CTL_block (i : Nat) : R.LANE_CTL i / 65536 = 5 := by unfold R.LANE_CTL; omega
@[simp] theorem R.LANE_STAT_block (i : Nat) : R.LANE_STAT i / 65536 = 5 := by unfold R.LANE_STAT; omega
@[simp] theorem R.LANE_SHERR_block (i : Nat) : R.LANE_SHERR i / 65536 = 5 := by unfold R.LANE_SHERR; omega
@[simp] theorem R.LANE_QUAL_block (i : Nat) : R.LANE_QUAL i / 65536 = 5 := by unfold R.LANE_QUAL; omega
@[simp] theorem R.LANE_TXEQ_block (i : Nat) : R.LANE_TXEQ i / 65536 = 5 := by unfold R.LANE_TXEQ; omega
@[simp] theorem R.CL_TIMERS_block : R.CL_TIMERS / 65536 = 6 := rfl
@[simp] theorem R.CL_BYP_block : R.CL_BYP / 65536 = 6 := rfl
@[simp] theorem R.CL_CLKSRC_block : R.CL_CLKSRC / 65536 = 6 := rfl
@[simp] theorem R.CL_PCFG_block (i : Nat) : R.CL_PCFG i / 65536 = 6 := by unfold R.CL_PCFG; omega
@[simp] theorem R.CL_PSTAT_block (i : Nat) : R.CL_PSTAT i / 65536 = 6 := by unfold R.CL_PSTAT; omega
@[simp] theorem R.CL_PUID_LO_block (i : Nat) : R.CL_PUID_LO i / 65536 = 6 := by unfold R.CL_PUID_LO; omega
@[simp] theorem R.CL_PUID_HI_block (i : Nat) : R.CL_PUID_HI i / 65536 = 6 := by unfold R.CL_PUID_HI; omega
@[simp] theorem R.CL_PDELAY_block (i : Nat) : R.CL_PDELAY i / 65536 = 6 := by unfold R.CL_PDELAY; omega
@[simp] theorem R.CL_PASYM_block (i : Nat) : R.CL_PASYM i / 65536 = 6 := by unfold R.CL_PASYM; omega
@[simp] theorem R.CL_PRES_block (i : Nat) : R.CL_PRES i / 65536 = 6 := by unfold R.CL_PRES; omega
@[simp] theorem R.CL_PFAULT_block (i : Nat) : R.CL_PFAULT i / 65536 = 6 := by unfold R.CL_PFAULT; omega
@[simp] theorem R.CL_PDOWN_block (i : Nat) : R.CL_PDOWN i / 65536 = 6 := by unfold R.CL_PDOWN; omega
@[simp] theorem R.CL_SLOT_block : R.CL_SLOT / 65536 = 6 := rfl
@[simp] theorem R.CL_ORDER_block : R.CL_ORDER / 65536 = 6 := rfl
@[simp] theorem R.CL_ECHO_block : R.CL_ECHO / 65536 = 6 := rfl
@[simp] theorem R.CL_OUTQ_block : R.CL_OUTQ / 65536 = 6 := rfl
@[simp] theorem R.CL_MYPOS_block : R.CL_MYPOS / 65536 = 6 := rfl
@[simp] theorem R.CL_MYROUTE_block : R.CL_MYROUTE / 65536 = 6 := rfl
@[simp] theorem R.CL_MERGE_block : R.CL_MERGE / 65536 = 6 := rfl
@[simp] theorem R.CL_PKTERR_block : R.CL_PKTERR / 65536 = 6 := rfl
@[simp] theorem R.CL_SEGSTAT_block : R.CL_SEGSTAT / 65536 = 6 := rfl
@[simp] theorem R.CL_DROP_block : R.CL_DROP / 65536 = 6 := rfl
@[simp] theorem R.CL_FRTAB_PREFIX_block : R.CL_FRTAB_PREFIX / 65536 = 6 := rfl
@[simp] theorem R.CL_FRTAB_FLAGS_block : R.CL_FRTAB_FLAGS / 65536 = 6 := rfl
@[simp] theorem R.CL_FRTAB_UID_LO_block (i : Nat) : R.CL_FRTAB_UID_LO i / 65536 = 6 := by unfold R.CL_FRTAB_UID_LO; omega
@[simp] theorem R.CL_FRTAB_UID_HI_block (i : Nat) : R.CL_FRTAB_UID_HI i / 65536 = 6 := by unfold R.CL_FRTAB_UID_HI; omega
@[simp] theorem R.CL_RTAB_PREFIX_block (i : Nat) : R.CL_RTAB_PREFIX i / 65536 = 6 := by unfold R.CL_RTAB_PREFIX; omega
@[simp] theorem R.CL_RTAB_FLAGS_block (i : Nat) : R.CL_RTAB_FLAGS i / 65536 = 6 := by unfold R.CL_RTAB_FLAGS; omega
@[simp] theorem R.CL_RTAB_UID_LO_block (i j : Nat) : R.CL_RTAB_UID_LO i j / 65536 = 6 := by unfold R.CL_RTAB_UID_LO; omega
@[simp] theorem R.CL_RTAB_UID_HI_block (i j : Nat) : R.CL_RTAB_UID_HI i j / 65536 = 6 := by unfold R.CL_RTAB_UID_HI; omega
@[simp] theorem R.WT_CTL_block : R.WT_CTL / 65536 = 7 := rfl
@[simp] theorem R.WT_INC_block : R.WT_INC / 65536 = 7 := rfl
@[simp] theorem R.WT_INC_LIM_block : R.WT_INC_LIM / 65536 = 7 := rfl
@[simp] theorem R.WT_SERVO_block : R.WT_SERVO / 65536 = 7 := rfl
@[simp] theorem R.WT_STEP_LO_block : R.WT_STEP_LO / 65536 = 7 := rfl
@[simp] theorem R.WT_STEP_HI_block : R.WT_STEP_HI / 65536 = 7 := rfl
@[simp] theorem R.WT_TIME_LO_block : R.WT_TIME_LO / 65536 = 7 := rfl
@[simp] theorem R.WT_TIME_HI_block : R.WT_TIME_HI / 65536 = 7 := rfl
@[simp] theorem R.WT_STAT_block : R.WT_STAT / 65536 = 7 := rfl
@[simp] theorem R.WT_PORT_ADJ_block (i : Nat) : R.WT_PORT_ADJ i / 65536 = 7 := by unfold R.WT_PORT_ADJ; omega
@[simp] theorem R.WT_EVTIN_CFG_block : R.WT_EVTIN_CFG / 65536 = 7 := rfl
@[simp] theorem R.WT_EVTIN_TS_LO_block (i : Nat) : R.WT_EVTIN_TS_LO i / 65536 = 7 := by unfold R.WT_EVTIN_TS_LO; omega
@[simp] theorem R.WT_EVTIN_TS_HI_block (i : Nat) : R.WT_EVTIN_TS_HI i / 65536 = 7 := by unfold R.WT_EVTIN_TS_HI; omega
@[simp] theorem R.WT_EVTIN_CNT_block : R.WT_EVTIN_CNT / 65536 = 7 := rfl
@[simp] theorem R.WT_RCFG_block (i : Nat) : R.WT_RCFG i / 65536 = 7 := by unfold R.WT_RCFG; omega
@[simp] theorem R.WT_RFRAME_LO_block (i : Nat) : R.WT_RFRAME_LO i / 65536 = 7 := by unfold R.WT_RFRAME_LO; omega
@[simp] theorem R.WT_RFRAME_HI_block (i : Nat) : R.WT_RFRAME_HI i / 65536 = 7 := by unfold R.WT_RFRAME_HI; omega
@[simp] theorem R.WT_RFLIP_LO_block (i : Nat) : R.WT_RFLIP_LO i / 65536 = 7 := by unfold R.WT_RFLIP_LO; omega
@[simp] theorem R.WT_RFLIP_HI_block (i : Nat) : R.WT_RFLIP_HI i / 65536 = 7 := by unfold R.WT_RFLIP_HI; omega
@[simp] theorem R.WT_FCFG_block : R.WT_FCFG / 65536 = 7 := rfl
@[simp] theorem R.WT_FSTAT_block : R.WT_FSTAT / 65536 = 7 := rfl
@[simp] theorem R.WT_FMARK_block : R.WT_FMARK / 65536 = 7 := rfl
@[simp] theorem R.WT_FFRAME_LO_block : R.WT_FFRAME_LO / 65536 = 7 := rfl
@[simp] theorem R.WT_FFRAME_HI_block : R.WT_FFRAME_HI / 65536 = 7 := rfl
@[simp] theorem R.WT_FDEV_block : R.WT_FDEV / 65536 = 7 := rfl
@[simp] theorem R.WT_FTIME_LO_block : R.WT_FTIME_LO / 65536 = 7 := rfl
@[simp] theorem R.WT_FTIME_HI_block : R.WT_FTIME_HI / 65536 = 7 := rfl
@[simp] theorem R.WT_PAIR_block : R.WT_PAIR / 65536 = 7 := rfl
@[simp] theorem R.WT_PAIR_OFS_block : R.WT_PAIR_OFS / 65536 = 7 := rfl
@[simp] theorem R.XA_CTL_block : R.XA_CTL / 65536 = 8 := rfl
@[simp] theorem R.XA_AUTO_block : R.XA_AUTO / 65536 = 8 := rfl
@[simp] theorem R.XA_STAGE_block : R.XA_STAGE / 65536 = 8 := rfl
@[simp] theorem R.XA_CNT_block : R.XA_CNT / 65536 = 8 := rfl
@[simp] theorem R.XA_ABORT_block : R.XA_ABORT / 65536 = 8 := rfl
@[simp] theorem R.XA_XSTAT_block (i : Nat) : R.XA_XSTAT i / 65536 = 8 := by unfold R.XA_XSTAT; omega
@[simp] theorem R.XA_XTGT_LO_block (i : Nat) : R.XA_XTGT_LO i / 65536 = 8 := by unfold R.XA_XTGT_LO; omega
@[simp] theorem R.XA_XTGT_HI_block (i : Nat) : R.XA_XTGT_HI i / 65536 = 8 := by unfold R.XA_XTGT_HI; omega
@[simp] theorem R.XA_XVOTE_block (i : Nat) : R.XA_XVOTE i / 65536 = 8 := by unfold R.XA_XVOTE; omega
@[simp] theorem R.XA_EXCL_LO_block (i : Nat) : R.XA_EXCL_LO i / 65536 = 8 := by unfold R.XA_EXCL_LO; omega
@[simp] theorem R.XA_EXCL_HI_block (i : Nat) : R.XA_EXCL_HI i / 65536 = 8 := by unfold R.XA_EXCL_HI; omega
@[simp] theorem R.NI_CTL_block : R.NI_CTL / 65536 = 9 := rfl
@[simp] theorem R.NI_TIMERS_block : R.NI_TIMERS / 65536 = 9 := rfl
@[simp] theorem R.NI_BUDGET_block : R.NI_BUDGET / 65536 = 9 := rfl
@[simp] theorem R.NI_PCFG_block (i : Nat) : R.NI_PCFG i / 65536 = 9 := by unfold R.NI_PCFG; omega
@[simp] theorem R.NI_PSTAT_block (i : Nat) : R.NI_PSTAT i / 65536 = 9 := by unfold R.NI_PSTAT; omega
@[simp] theorem R.NI_PMAC_LO_block (i : Nat) : R.NI_PMAC_LO i / 65536 = 9 := by unfold R.NI_PMAC_LO; omega
@[simp] theorem R.NI_PMAC_HI_block (i : Nat) : R.NI_PMAC_HI i / 65536 = 9 := by unfold R.NI_PMAC_HI; omega
@[simp] theorem R.NI_PRX_block (i : Nat) : R.NI_PRX i / 65536 = 9 := by unfold R.NI_PRX; omega
@[simp] theorem R.NI_PERR_block (i : Nat) : R.NI_PERR i / 65536 = 9 := by unfold R.NI_PERR; omega
@[simp] theorem R.NI_PFEC_block (i : Nat) : R.NI_PFEC i / 65536 = 9 := by unfold R.NI_PFEC; omega
@[simp] theorem R.NI_HRX_BASE_LO_block : R.NI_HRX_BASE_LO / 65536 = 9 := rfl
@[simp] theorem R.NI_HRX_BASE_HI_block : R.NI_HRX_BASE_HI / 65536 = 9 := rfl
@[simp] theorem R.NI_HRX_CTL_block : R.NI_HRX_CTL / 65536 = 9 := rfl
@[simp] theorem R.NI_HRX_TAIL_block : R.NI_HRX_TAIL / 65536 = 9 := rfl
@[simp] theorem R.NI_HRX_HEAD_block : R.NI_HRX_HEAD / 65536 = 9 := rfl
@[simp] theorem R.NI_HTX_BASE_LO_block : R.NI_HTX_BASE_LO / 65536 = 9 := rfl
@[simp] theorem R.NI_HTX_BASE_HI_block : R.NI_HTX_BASE_HI / 65536 = 9 := rfl
@[simp] theorem R.NI_HTX_CTL_block : R.NI_HTX_CTL / 65536 = 9 := rfl
@[simp] theorem R.NI_HTX_TAIL_block : R.NI_HTX_TAIL / 65536 = 9 := rfl
@[simp] theorem R.NI_HTX_HEAD_block : R.NI_HTX_HEAD / 65536 = 9 := rfl
@[simp] theorem R.NI_FCFG_block (i : Nat) : R.NI_FCFG i / 65536 = 9 := by unfold R.NI_FCFG; omega
@[simp] theorem R.NI_FFMT_block (i : Nat) : R.NI_FFMT i / 65536 = 9 := by unfold R.NI_FFMT; omega
@[simp] theorem R.NI_FSIZE_block (i : Nat) : R.NI_FSIZE i / 65536 = 9 := by unfold R.NI_FSIZE; omega
@[simp] theorem R.NI_FRATE_block (i : Nat) : R.NI_FRATE i / 65536 = 9 := by unfold R.NI_FRATE; omega
@[simp] theorem R.NI_FKEY_block (i : Nat) : R.NI_FKEY i / 65536 = 9 := by unfold R.NI_FKEY; omega
@[simp] theorem R.NI_FVLAN_block (i : Nat) : R.NI_FVLAN i / 65536 = 9 := by unfold R.NI_FVLAN; omega
@[simp] theorem R.NI_FADDR_A_block (i j : Nat) : R.NI_FADDR_A i j / 65536 = 9 := by unfold R.NI_FADDR_A; omega
@[simp] theorem R.NI_FADDR_B_block (i j : Nat) : R.NI_FADDR_B i j / 65536 = 9 := by unfold R.NI_FADDR_B; omega
@[simp] theorem R.NI_FBUF_LO_block (i : Nat) : R.NI_FBUF_LO i / 65536 = 9 := by unfold R.NI_FBUF_LO; omega
@[simp] theorem R.NI_FBUF_HI_block (i : Nat) : R.NI_FBUF_HI i / 65536 = 9 := by unfold R.NI_FBUF_HI; omega
@[simp] theorem R.NI_FLINE_block (i : Nat) : R.NI_FLINE i / 65536 = 9 := by unfold R.NI_FLINE; omega
@[simp] theorem R.NI_FSTAT_block (i : Nat) : R.NI_FSTAT i / 65536 = 9 := by unfold R.NI_FSTAT; omega
@[simp] theorem R.NI_FMEDIA_LO_block (i : Nat) : R.NI_FMEDIA_LO i / 65536 = 9 := by unfold R.NI_FMEDIA_LO; omega
@[simp] theorem R.NI_FMEDIA_HI_block (i : Nat) : R.NI_FMEDIA_HI i / 65536 = 9 := by unfold R.NI_FMEDIA_HI; omega
@[simp] theorem R.NI_FLOSS_block (i : Nat) : R.NI_FLOSS i / 65536 = 9 := by unfold R.NI_FLOSS; omega
@[simp] theorem R.NI_FMERGE_block (i : Nat) : R.NI_FMERGE i / 65536 = 9 := by unfold R.NI_FMERGE; omega
@[simp] theorem R.NI_FERR_block (i : Nat) : R.NI_FERR i / 65536 = 9 := by unfold R.NI_FERR; omega
@[simp] theorem R.CMP_CTL_block : R.CMP_CTL / 65536 = 10 := rfl
@[simp] theorem R.CMP_STAT_block : R.CMP_STAT / 65536 = 10 := rfl
@[simp] theorem R.CMP_RCFG_block (i : Nat) : R.CMP_RCFG i / 65536 = 10 := by unfold R.CMP_RCFG; omega
@[simp] theorem R.CMP_RBG_block (i : Nat) : R.CMP_RBG i / 65536 = 10 := by unfold R.CMP_RBG; omega
@[simp] theorem R.CMP_RREC_LO_block (i : Nat) : R.CMP_RREC_LO i / 65536 = 10 := by unfold R.CMP_RREC_LO; omega
@[simp] theorem R.CMP_RREC_HI_block (i : Nat) : R.CMP_RREC_HI i / 65536 = 10 := by unfold R.CMP_RREC_HI; omega
@[simp] theorem R.CMP_RSTAT_block (i : Nat) : R.CMP_RSTAT i / 65536 = 10 := by unfold R.CMP_RSTAT; omega
@[simp] theorem R.CMP_DBCFG_block : R.CMP_DBCFG / 65536 = 10 := rfl
@[simp] theorem R.CMP_DBBASE_LO_block : R.CMP_DBBASE_LO / 65536 = 10 := rfl
@[simp] theorem R.CMP_DBBASE_HI_block : R.CMP_DBBASE_HI / 65536 = 10 := rfl
@[simp] theorem R.CMP_LCFG_block (i j : Nat) : R.CMP_LCFG i j / 65536 = 10 := by unfold R.CMP_LCFG; omega
@[simp] theorem R.CMP_LDST_block (i j : Nat) : R.CMP_LDST i j / 65536 = 10 := by unfold R.CMP_LDST; omega
@[simp] theorem R.CMP_LDSZ_block (i j : Nat) : R.CMP_LDSZ i j / 65536 = 10 := by unfold R.CMP_LDSZ; omega
@[simp] theorem R.CMP_LCROP_block (i j : Nat) : R.CMP_LCROP i j / 65536 = 10 := by unfold R.CMP_LCROP; omega
@[simp] theorem R.CMP_LCSZ_block (i j : Nat) : R.CMP_LCSZ i j / 65536 = 10 := by unfold R.CMP_LCSZ; omega
@[simp] theorem R.CMP_LREC_LO_block (i j : Nat) : R.CMP_LREC_LO i j / 65536 = 10 := by unfold R.CMP_LREC_LO; omega
@[simp] theorem R.CMP_LREC_HI_block (i j : Nat) : R.CMP_LREC_HI i j / 65536 = 10 := by unfold R.CMP_LREC_HI; omega
@[simp] theorem R.CMP_LPITCH_block (i j : Nat) : R.CMP_LPITCH i j / 65536 = 10 := by unfold R.CMP_LPITCH; omega
@[simp] theorem R.CMP_LBUF_LO_block (i j : Nat) : R.CMP_LBUF_LO i j / 65536 = 10 := by unfold R.CMP_LBUF_LO; omega
@[simp] theorem R.CMP_LBUF_HI_block (i j : Nat) : R.CMP_LBUF_HI i j / 65536 = 10 := by unfold R.CMP_LBUF_HI; omega
@[simp] theorem R.CMP_LSTAT_block (i j : Nat) : R.CMP_LSTAT i j / 65536 = 10 := by unfold R.CMP_LSTAT; omega
@[simp] theorem R.CMP_LMEDIA_LO_block (i j : Nat) : R.CMP_LMEDIA_LO i j / 65536 = 10 := by unfold R.CMP_LMEDIA_LO; omega
@[simp] theorem R.CMP_LMEDIA_HI_block (i j : Nat) : R.CMP_LMEDIA_HI i j / 65536 = 10 := by unfold R.CMP_LMEDIA_HI; omega
@[simp] theorem R.CMP_LCNT_block (i j : Nat) : R.CMP_LCNT i j / 65536 = 10 := by unfold R.CMP_LCNT; omega
@[simp] theorem R.PIX_CTL_block : R.PIX_CTL / 65536 = 11 := rfl
@[simp] theorem R.PIX_GEOM_block : R.PIX_GEOM / 65536 = 11 := rfl
@[simp] theorem R.PIX_FBBASE_block : R.PIX_FBBASE / 65536 = 11 := rfl
@[simp] theorem R.PIX_SCALE_block : R.PIX_SCALE / 65536 = 11 := rfl
@[simp] theorem R.PIX_AMB_block : R.PIX_AMB / 65536 = 11 := rfl
@[simp] theorem R.PIX_FBGAIN0_block : R.PIX_FBGAIN0 / 65536 = 11 := rfl
@[simp] theorem R.PIX_FBGAIN1_block : R.PIX_FBGAIN1 / 65536 = 11 := rfl
@[simp] theorem R.PIX_TMAT_block (i : Nat) : R.PIX_TMAT i / 65536 = 11 := by unfold R.PIX_TMAT; omega
@[simp] theorem R.PIX_BANK_block : R.PIX_BANK / 65536 = 11 := rfl
@[simp] theorem R.PIX_QUIET_block : R.PIX_QUIET / 65536 = 11 := rfl
@[simp] theorem R.PIX_QSTAT_block : R.PIX_QSTAT / 65536 = 11 := rfl
@[simp] theorem R.PIX_FBSTAT_block : R.PIX_FBSTAT / 65536 = 11 := rfl
@[simp] theorem R.PIX_RESCNT_block : R.PIX_RESCNT / 65536 = 11 := rfl
@[simp] theorem R.PIX_LSERR_block : R.PIX_LSERR / 65536 = 11 := rfl
@[simp] theorem R.PIX_LSUE_block : R.PIX_LSUE / 65536 = 11 := rfl
@[simp] theorem R.PIX_ILUT_block (i j : Nat) : R.PIX_ILUT i j / 65536 = 11 := by unfold R.PIX_ILUT; omega
@[simp] theorem R.CAL_CTL_block : R.CAL_CTL / 65536 = 12 := rfl
@[simp] theorem R.CAL_MODE_block : R.CAL_MODE / 65536 = 12 := rfl
@[simp] theorem R.CAL_STAT_block : R.CAL_STAT / 65536 = 12 := rfl
@[simp] theorem R.CAL_LAMPS_block : R.CAL_LAMPS / 65536 = 12 := rfl
@[simp] theorem R.CAL_SETBASE_block : R.CAL_SETBASE / 65536 = 12 := rfl
@[simp] theorem R.CAL_LIM0_block : R.CAL_LIM0 / 65536 = 12 := rfl
@[simp] theorem R.CAL_LIM1_block : R.CAL_LIM1 / 65536 = 12 := rfl
@[simp] theorem R.CAL_BCNT_block : R.CAL_BCNT / 65536 = 12 := rfl
@[simp] theorem R.CAL_POINT_block (i : Nat) : R.CAL_POINT i / 65536 = 12 := by unfold R.CAL_POINT; omega
@[simp] theorem R.CAL_ZTEMP_block (i : Nat) : R.CAL_ZTEMP i / 65536 = 12 := by unfold R.CAL_ZTEMP; omega
@[simp] theorem R.CAL_ZSUB_block : R.CAL_ZSUB / 65536 = 12 := rfl
@[simp] theorem R.CAL_LOOP_block : R.CAL_LOOP / 65536 = 12 := rfl
@[simp] theorem R.CAL_LOOPLIM_block : R.CAL_LOOPLIM / 65536 = 12 := rfl
@[simp] theorem R.CAL_LOOPHOLD_block : R.CAL_LOOPHOLD / 65536 = 12 := rfl
@[simp] theorem R.CAL_WITLVL_block : R.CAL_WITLVL / 65536 = 12 := rfl
@[simp] theorem R.CAL_WIT_block (i : Nat) : R.CAL_WIT i / 65536 = 12 := by unfold R.CAL_WIT; omega
@[simp] theorem R.CAL_LGAIN0_block : R.CAL_LGAIN0 / 65536 = 12 := rfl
@[simp] theorem R.CAL_LGAIN1_block : R.CAL_LGAIN1 / 65536 = 12 := rfl
@[simp] theorem R.CAL_LSTAT_block : R.CAL_LSTAT / 65536 = 12 := rfl
@[simp] theorem R.CAL_TBASE_block (i : Nat) : R.CAL_TBASE i / 65536 = 12 := by unfold R.CAL_TBASE; omega
@[simp] theorem R.CAL_REFSTAT_block : R.CAL_REFSTAT / 65536 = 12 := rfl
@[simp] theorem R.CAL_REF_block (i j : Nat) : R.CAL_REF i j / 65536 = 12 := by unfold R.CAL_REF; omega
@[simp] theorem R.CAL_TARGET_XY_block (i : Nat) : R.CAL_TARGET_XY i / 65536 = 12 := by unfold R.CAL_TARGET_XY; omega
@[simp] theorem R.CAL_TARGET_Y_block (i : Nat) : R.CAL_TARGET_Y i / 65536 = 12 := by unfold R.CAL_TARGET_Y; omega
@[simp] theorem R.CAL_LUM_block (i : Nat) : R.CAL_LUM i / 65536 = 12 := by unfold R.CAL_LUM; omega
@[simp] theorem R.CAL_AMB_block : R.CAL_AMB / 65536 = 12 := rfl
@[simp] theorem R.CAL_AMBK_block : R.CAL_AMBK / 65536 = 12 := rfl
@[simp] theorem R.CAL_AMBW_block : R.CAL_AMBW / 65536 = 12 := rfl
@[simp] theorem R.CAL_AMBRD_block : R.CAL_AMBRD / 65536 = 12 := rfl
@[simp] theorem R.CAL_ZMAP_block (i : Nat) : R.CAL_ZMAP i / 65536 = 12 := by unfold R.CAL_ZMAP; omega
@[simp] theorem R.DRV_CTL_block : R.DRV_CTL / 65536 = 13 := rfl
@[simp] theorem R.DRV_TOPO_block : R.DRV_TOPO / 65536 = 13 := rfl
@[simp] theorem R.DRV_LINE_block : R.DRV_LINE / 65536 = 13 := rfl
@[simp] theorem R.DRV_TIME_block : R.DRV_TIME / 65536 = 13 := rfl
@[simp] theorem R.DRV_POLL_block : R.DRV_POLL / 65536 = 13 := rfl
@[simp] theorem R.DRV_STAT_block : R.DRV_STAT / 65536 = 13 := rfl
@[simp] theorem R.DRV_LGFORCE_block : R.DRV_LGFORCE / 65536 = 13 := rfl
@[simp] theorem R.DRV_LGLATCH_block : R.DRV_LGLATCH / 65536 = 13 := rfl
@[simp] theorem R.DRV_LGCLR_block : R.DRV_LGCLR / 65536 = 13 := rfl
@[simp] theorem R.DRV_LGVALID_block : R.DRV_LGVALID / 65536 = 13 := rfl
@[simp] theorem R.DRV_MASKCNT_block : R.DRV_MASKCNT / 65536 = 13 := rfl
@[simp] theorem R.DRV_LGLVL_block (i : Nat) : R.DRV_LGLVL i / 65536 = 13 := by unfold R.DRV_LGLVL; omega
@[simp] theorem R.DRV_LGCAUSE_block (i : Nat) : R.DRV_LGCAUSE i / 65536 = 13 := by unfold R.DRV_LGCAUSE; omega
@[simp] theorem R.DRV_PSTAT_block (i : Nat) : R.DRV_PSTAT i / 65536 = 13 := by unfold R.DRV_PSTAT; omega
@[simp] theorem R.DRV_PCFG_block (i : Nat) : R.DRV_PCFG i / 65536 = 13 := by unfold R.DRV_PCFG; omega
@[simp] theorem R.DRV_PLOST_block (i : Nat) : R.DRV_PLOST i / 65536 = 13 := by unfold R.DRV_PLOST; omega
@[simp] theorem R.DRV_RAIL_CTL_block : R.DRV_RAIL_CTL / 65536 = 13 := rfl
@[simp] theorem R.DRV_RAIL_V_block : R.DRV_RAIL_V / 65536 = 13 := rfl
@[simp] theorem R.DRV_RAIL_TRK_block : R.DRV_RAIL_TRK / 65536 = 13 := rfl
@[simp] theorem R.DRV_RAIL_PID_block : R.DRV_RAIL_PID / 65536 = 13 := rfl
@[simp] theorem R.DRV_RAIL_ILIM_block : R.DRV_RAIL_ILIM / 65536 = 13 := rfl
@[simp] theorem R.DRV_RAIL_PROT_block : R.DRV_RAIL_PROT / 65536 = 13 := rfl
@[simp] theorem R.DRV_RAIL_STAT_block : R.DRV_RAIL_STAT / 65536 = 13 := rfl
@[simp] theorem R.DRV_RAIL_MEAS_block : R.DRV_RAIL_MEAS / 65536 = 13 := rfl
@[simp] theorem R.DRV_DMAP_block (i : Nat) : R.DRV_DMAP i / 65536 = 13 := by unfold R.DRV_DMAP; omega
@[simp] theorem R.DRV_MASK_block (i : Nat) : R.DRV_MASK i / 65536 = 13 := by unfold R.DRV_MASK; omega
@[simp] theorem R.DRV_SCANMAP_block (i : Nat) : R.DRV_SCANMAP i / 65536 = 13 := by unfold R.DRV_SCANMAP; omega
@[simp] theorem R.DRV_LGRANGE0_block (i j : Nat) : R.DRV_LGRANGE0 i j / 65536 = 13 := by unfold R.DRV_LGRANGE0; omega
@[simp] theorem R.DRV_LGRANGE1_block (i j : Nat) : R.DRV_LGRANGE1 i j / 65536 = 13 := by unfold R.DRV_LGRANGE1; omega
@[simp] theorem R.DRV_LGBMP_block (i : Nat) : R.DRV_LGBMP i / 65536 = 13 := by unfold R.DRV_LGBMP; omega
@[simp] theorem R.CHK_CTL_block : R.CHK_CTL / 65536 = 14 := rfl
@[simp] theorem R.CHK_CNT_block : R.CHK_CNT / 65536 = 14 := rfl
@[simp] theorem R.CHK_SKIP_block : R.CHK_SKIP / 65536 = 14 := rfl
@[simp] theorem R.CHK_ILAST_block (i : Nat) : R.CHK_ILAST i / 65536 = 14 := by unfold R.CHK_ILAST; omega
@[simp] theorem R.CHK_IEXP_block (i : Nat) : R.CHK_IEXP i / 65536 = 14 := by unfold R.CHK_IEXP; omega
@[simp] theorem R.CHK_OPOS_block (i : Nat) : R.CHK_OPOS i / 65536 = 14 := by unfold R.CHK_OPOS; omega
@[simp] theorem R.CHK_OSIZE_block (i : Nat) : R.CHK_OSIZE i / 65536 = 14 := by unfold R.CHK_OSIZE; omega
@[simp] theorem R.CHK_OCFG_block (i : Nat) : R.CHK_OCFG i / 65536 = 14 := by unfold R.CHK_OCFG; omega
@[simp] theorem R.CHK_OEXP_block (i : Nat) : R.CHK_OEXP i / 65536 = 14 := by unfold R.CHK_OEXP; omega
@[simp] theorem R.CHK_OLAST_block (i : Nat) : R.CHK_OLAST i / 65536 = 14 := by unfold R.CHK_OLAST; omega
@[simp] theorem R.CHK_PSTAT_block : R.CHK_PSTAT / 65536 = 14 := rfl
@[simp] theorem R.CHK_PDIG_block (i : Nat) : R.CHK_PDIG i / 65536 = 14 := by unfold R.CHK_PDIG; omega
@[simp] theorem R.CHK_PPDIG_block (i : Nat) : R.CHK_PPDIG i / 65536 = 14 := by unfold R.CHK_PPDIG; omega
@[simp] theorem R.RED_CFG_block : R.RED_CFG / 65536 = 15 := rfl
@[simp] theorem R.RED_TIMERS_block : R.RED_TIMERS / 65536 = 15 := rfl
@[simp] theorem R.RED_REVERT_block : R.RED_REVERT / 65536 = 15 := rfl
@[simp] theorem R.RED_CTL_block : R.RED_CTL / 65536 = 15 := rfl
@[simp] theorem R.RED_STAT_block : R.RED_STAT / 65536 = 15 := rfl
@[simp] theorem R.RED_MQ_block : R.RED_MQ / 65536 = 15 := rfl
@[simp] theorem R.RED_SEQCNT_block : R.RED_SEQCNT / 65536 = 15 := rfl
@[simp] theorem R.RED_REPOCH_block (i : Nat) : R.RED_REPOCH i / 65536 = 15 := by unfold R.RED_REPOCH; omega
@[simp] theorem R.RED_RSTAT_block (i : Nat) : R.RED_RSTAT i / 65536 = 15 := by unfold R.RED_RSTAT; omega
@[simp] theorem R.RED_MREG_LO_block (i : Nat) : R.RED_MREG_LO i / 65536 = 15 := by unfold R.RED_MREG_LO; omega
@[simp] theorem R.RED_MREG_HI_block (i : Nat) : R.RED_MREG_HI i / 65536 = 15 := by unfold R.RED_MREG_HI; omega
@[simp] theorem R.RED_MREG_SIZE_block (i : Nat) : R.RED_MREG_SIZE i / 65536 = 15 := by unfold R.RED_MREG_SIZE; omega
@[simp] theorem R.RED_MIDX_block (i : Nat) : R.RED_MIDX i / 65536 = 15 := by unfold R.RED_MIDX; omega
@[simp] theorem R.RED_FOLLOW_block : R.RED_FOLLOW / 65536 = 15 := rfl
@[simp] theorem R.RED_FSTAT_block : R.RED_FSTAT / 65536 = 15 := rfl
@[simp] theorem R.HK_CTL_block : R.HK_CTL / 65536 = 16 := rfl
@[simp] theorem R.HK_CHEN_block : R.HK_CHEN / 65536 = 16 := rfl
@[simp] theorem R.HK_STAT_block : R.HK_STAT / 65536 = 16 := rfl
@[simp] theorem R.HK_FAILED_block : R.HK_FAILED / 65536 = 16 := rfl
@[simp] theorem R.HK_LIM_DIE_block : R.HK_LIM_DIE / 65536 = 16 := rfl
@[simp] theorem R.HK_LIM_ZONE_block : R.HK_LIM_ZONE / 65536 = 16 := rfl
@[simp] theorem R.HK_FAIL_block : R.HK_FAIL / 65536 = 16 := rfl
@[simp] theorem R.HK_SDCNT_block : R.HK_SDCNT / 65536 = 16 := rfl
@[simp] theorem R.HK_NTC_block (i : Nat) : R.HK_NTC i / 65536 = 16 := by unfold R.HK_NTC; omega
@[simp] theorem R.HK_VAL_block (i : Nat) : R.HK_VAL i / 65536 = 16 := by unfold R.HK_VAL; omega
@[simp] theorem R.HK_PD_block (i : Nat) : R.HK_PD i / 65536 = 16 := by unfold R.HK_PD; omega
@[simp] theorem R.UPD_CTL_block : R.UPD_CTL / 65536 = 17 := rfl
@[simp] theorem R.UPD_STAT_block : R.UPD_STAT / 65536 = 17 := rfl
@[simp] theorem R.UPD_GEN_block : R.UPD_GEN / 65536 = 17 := rfl
@[simp] theorem R.UPD_MFID_block : R.UPD_MFID / 65536 = 17 := rfl
@[simp] theorem R.UPD_MFID_PREV_block : R.UPD_MFID_PREV / 65536 = 17 := rfl
@[simp] theorem R.UPD_SLOTA_block : R.UPD_SLOTA / 65536 = 17 := rfl
@[simp] theorem R.UPD_SLOTB_block : R.UPD_SLOTB / 65536 = 17 := rfl
@[simp] theorem R.UPD_VERA_block : R.UPD_VERA / 65536 = 17 := rfl
@[simp] theorem R.UPD_VERB_block : R.UPD_VERB / 65536 = 17 := rfl
@[simp] theorem R.UPD_ACT_block : R.UPD_ACT / 65536 = 17 := rfl
@[simp] theorem R.UPD_AREA0_block : R.UPD_AREA0 / 65536 = 17 := rfl
@[simp] theorem R.UPD_AREA1_block : R.UPD_AREA1 / 65536 = 17 := rfl
@[simp] theorem R.UPD_FLASH_block : R.UPD_FLASH / 65536 = 17 := rfl
@[simp] theorem R.UPD_LOADT_block : R.UPD_LOADT / 65536 = 17 := rfl
@[simp] theorem R.OBS_TCTL_block : R.OBS_TCTL / 65536 = 18 := rfl
@[simp] theorem R.OBS_TEVT_block : R.OBS_TEVT / 65536 = 18 := rfl
@[simp] theorem R.OBS_TSTAT_block : R.OBS_TSTAT / 65536 = 18 := rfl
@[simp] theorem R.OBS_TPAGE_block : R.OBS_TPAGE / 65536 = 18 := rfl
@[simp] theorem R.OBS_CCTL_block : R.OBS_CCTL / 65536 = 18 := rfl
@[simp] theorem R.OBS_CSEL_block (i : Nat) : R.OBS_CSEL i / 65536 = 18 := by unfold R.OBS_CSEL; omega
@[simp] theorem R.OBS_CNT_LO_block (i : Nat) : R.OBS_CNT_LO i / 65536 = 18 := by unfold R.OBS_CNT_LO; omega
@[simp] theorem R.OBS_CNT_HI_block (i : Nat) : R.OBS_CNT_HI i / 65536 = 18 := by unfold R.OBS_CNT_HI; omega

end Sys2Proof.Machine
end

