-- ==== Sys2Proof/Laws/Cal.lean ====
section
/-! SUPPORT. Laws/Cal.lean: what a blend pass counts, told by its first lamp and the number of lamps. -/
namespace Sys2Proof.Machine

/-- One lamp of a pass adds at most one kept entry, and a change already seen stays. -/
theorem passLamp_kept (r : List Nat) (x : State × PassSum) (i : Nat) :
    x.2.kept ≤ (passLamp r x i).2.kept ∧ (passLamp r x i).2.kept ≤ x.2.kept + 1 ∧ (x.2.changed = true → (passLamp r x i).2.changed = true) := by
  unfold passLamp
  dsimp only
  split <;> simp_all

/-- Lamps of a pass together add at most one kept entry each. -/
theorem passFold_kept (r : List Nat) (l : List Nat) : ∀ x : State × PassSum,
    x.2.kept ≤ (l.foldl (passLamp r) x).2.kept ∧ (l.foldl (passLamp r) x).2.kept ≤ x.2.kept + l.length ∧
      (x.2.changed = true → (l.foldl (passLamp r) x).2.changed = true) := by
  induction l with
  | nil => intro x; simp
  | cons a l ih =>
    intro x
    have h := passLamp_kept r x a
    have g := ih (passLamp r x a)
    simp only [List.foldl_cons, List.length_cons]
    exact ⟨by omega, by omega, fun h1 => g.2.2 (h.2.2 h1)⟩

/-- What a pass does to its count and its change, told by the first lamp and the number of lamps. -/
theorem passWalk_first (s : State) (r : List Nat) (n i : Nat) (l : List Nat) (h : (presentLamps s).take n = i :: l) :
    (passLamp r (s, ⟨0, none, false⟩) i).2.kept ≤ (passWalk s r n).2.kept ∧ (passWalk s r n).2.kept ≤ l.length + 1 ∧
      ((passLamp r (s, ⟨0, none, false⟩) i).2.changed = true → (passWalk s r n).2.changed = true) := by
  unfold passWalk
  rw [h]
  have h1 := passLamp_kept r (s, ⟨0, none, false⟩) i
  have g := passFold_kept r l (passLamp r (s, ⟨0, none, false⟩) i)
  simp only [List.foldl_cons]
  simp only at h1
  exact ⟨g.1, by omega, g.2.2⟩

end Sys2Proof.Machine
end

