-- ==== Sys2Proof/Laws/Drv.lean ====
section
/-! SUPPORT. Laws/Drv.lean: the topology of a device whose registers are those of reset is legal (R239, R249). -/
namespace Sys2Proof.Machine

/-- The row of the register table that holds a legend range. -/
theorem legendRange_row (i j : Nat) : ∃ r, findReg (R.DRV_LGRANGE1 i j) = some r ∧ r.resetWord = 0 := by
  have hb : R.DRV_LGRANGE1 i j / 65536 = 13 := by unfold R.DRV_LGRANGE1; omega
  have hl : 0xd4004 ≤ R.DRV_LGRANGE1 i j := by unfold R.DRV_LGRANGE1; omega
  have hu : R.DRV_LGRANGE1 i j ≤ 0xd4004 + 31 * 0x200 + 63 * 8 := by unfold R.DRV_LGRANGE1; omega
  have hm : (R.DRV_LGRANGE1 i j - 0xd4004) % 8 = 0 := by unfold R.DRV_LGRANGE1; omega
  revert hb hl hu hm
  generalize R.DRV_LGRANGE1 i j = a
  intro hb hl hu hm
  have h : ∀ (x : RegSpec) (l : List RegSpec), x.hit a = false → (x :: l).find? (fun r => r.hit a) = l.find? (fun r => r.hit a) := by
    intro x l hx
    simp [hx]
  have hd : findReg a = drvRegs.find? fun r => r.hit a := by unfold findReg blockRegs; rw [hb]; rfl
  rw [hd]
  dsimp only [drvRegs, drvRegs0, drvRegs1, drvRegs2, List.cons_append, List.nil_append]
  iterate 28 rw [h _ _ (by simp [RegSpec.hit, RegSpec.hitDims]; omega)]
  refine ⟨_, List.find?_cons_of_pos (by simp [RegSpec.hit, RegSpec.hitDims]; omega), rfl⟩

/-- A legend range holds 0 at reset. -/
theorem legendRange_reset (st : Strap) (i j : Nat) : resetWord st (R.DRV_LGRANGE1 i j) = 0#32 := by
  obtain ⟨r, h, hr⟩ := legendRange_row i j
  have hb : R.DRV_LGRANGE1 i j / 65536 = 13 := by unfold R.DRV_LGRANGE1; omega
  have hl : 0xd4004 ≤ R.DRV_LGRANGE1 i j ∧ R.DRV_LGRANGE1 i j < 0xe0000 := by unfold R.DRV_LGRANGE1; omega
  have hs : resetSpecial st (R.DRV_LGRANGE1 i j) = none := by
    revert hb hl
    generalize R.DRV_LGRANGE1 i j = a
    intro hb hl
    unfold resetSpecial
    simp only [hb]
    have ne : ∀ v, v < 0xd4004 → ¬a = v := fun v hv e => by omega
    have ng : ∀ v, 0xe0000 ≤ v → ¬a = v := fun v hv e => by omega
    simp (disch := decide) only [ne, ng, if_false, Bool.or_eq_true, decide_eq_true_eq, or_self, Bool.and_eq_true]
    repeat rw [if_neg (by omega)]
  unfold resetWord
  rw [h, hs]
  simp [hr]

/-- A device with no register set has no legend range. -/
theorem badRange_fresh (st : Strap) (fl : Table Byte) (g : Nat) : badRange (State.fresh st fl) g = none := by
  unfold badRange firstIdx
  rw [List.find?_eq_none]
  intro r _
  have h : (State.fresh st fl).rd (F.DRV_LGRANGE1_COUNT g r) = 0 := by
    show bits (resetWord st (R.DRV_LGRANGE1 g r)).toNat 0 14 = 0
    rw [legendRange_reset]
    rfl
  simp [h]

/-- The topology a standalone device has at reset is legal. -/
theorem topoCheck_fresh : topoCheck (State.fresh ⟨.standalone, 0, 1, 0x200⟩ []) = none := by
  unfold topoCheck
  dsimp only
  rw [if_neg (by decide +kernel), if_neg (by decide +kernel), if_neg (by decide +kernel), if_neg (by unfold anyIdx; simp [badRange_fresh]),
    if_neg (by decide +kernel)]

end Sys2Proof.Machine
end

