-- ==== Sys2Proof/Laws/Table.lean ====
section
/-! SUPPORT. Laws/Table.lean: the laws of the sparse table: a read after a write, writes of other indexes, and the canonical form that
every operation keeps. -/
namespace Sys2Proof.Machine

set_option linter.unusedSectionVars false
variable {α : Type} [DecidableEq α]

theorem Table.get_filter_keep (d : α) (t : Table α) (k : Nat) (p : Nat → Bool) (h : p k = true) :
    Table.get d (t.filter fun e => p e.1) k = Table.get d t k := by
  induction t with
  | nil => rfl
  | cons x r ih =>
    obtain ⟨i, w⟩ := x
    simp only [List.filter]
    split
    · simp only [Table.get, ih]
    · rename_i hp
      have : i ≠ k := by rintro rfl; simp_all
      simp only [Table.get, this, if_false, ih]

theorem Table.get_filter_drop (d : α) (t : Table α) (k : Nat) (p : Nat → Bool) (h : p k = false) :
    Table.get d (t.filter fun e => p e.1) k = d := by
  induction t with
  | nil => rfl
  | cons x r ih =>
    obtain ⟨i, w⟩ := x
    simp only [List.filter]
    split
    · rename_i hp
      have : i ≠ k := by rintro rfl; simp_all
      simp only [Table.get, this, if_false, ih]
    · exact ih

theorem Table.get_insert_ne (d : α) (t : Table α) (k j : Nat) (v : α) (h : j ≠ k) : Table.get d (Table.insert t k v) j = Table.get d t j := by
  induction t with
  | nil => simp [Table.insert, Table.get, Ne.symm h]
  | cons x r ih =>
    simp only [Table.insert]
    split
    · simp only [Table.get, ih]
    · simp only [Table.get, Ne.symm h, if_false]

theorem Table.get_insert_same (d : α) (t : Table α) (k : Nat) (v : α) : Table.get d (Table.insert t k v) k = v := by
  induction t with
  | nil => simp [Table.insert, Table.get]
  | cons x r ih =>
    simp only [Table.insert]
    split
    · rename_i hlt
      have : x.1 ≠ k := by omega
      simp only [Table.get, this, if_false, ih]
    · simp [Table.get]

/-- A write leaves every other index alone. -/
theorem Table.get_set_ne (d e : α) (t : Table α) (k j : Nat) (v : α) (h : j ≠ k) : Table.get e (Table.set d t k v) j = Table.get e t j := by
  have hf := Table.get_filter_keep e t j (fun i => i != k) (by simpa using h)
  simp only [Table.set]
  split
  · exact hf
  · rw [Table.get_insert_ne e _ k j v h]; exact hf

/-- A read after a write of the same index. -/
theorem Table.get_set_same (d : α) (t : Table α) (k : Nat) (v : α) : Table.get d (Table.set d t k v) k = v := by
  simp only [Table.set]
  split
  · rename_i h
    rw [h]
    exact Table.get_filter_drop d t k (fun i => i != k) (by simp)
  · exact Table.get_insert_same _ _ _ _

theorem Table.risesAbove_mono {k j : Nat} {t : Table α} (h : j ≤ k) (hr : Table.risesAbove k t = true) : Table.risesAbove j t = true := by
  cases t with
  | nil => rfl
  | cons x r =>
    simp only [Table.risesAbove, Bool.and_eq_true, decide_eq_true_eq] at hr ⊢
    exact ⟨by omega, hr.2⟩

theorem Table.rises_of_above {k : Nat} {t : Table α} (hr : Table.risesAbove k t = true) : Table.rises t = true := by
  cases t with
  | nil => rfl
  | cons x r => simp only [Table.risesAbove, Bool.and_eq_true] at hr; exact hr.2

theorem Table.risesAbove_filter {k : Nat} {t : Table α} (p : Nat × α → Bool) (hr : Table.risesAbove k t = true) :
    Table.risesAbove k (t.filter p) = true := by
  induction t generalizing k with
  | nil => rfl
  | cons x r ih =>
    simp only [Table.risesAbove, Bool.and_eq_true, decide_eq_true_eq] at hr
    simp only [List.filter]
    split
    · simp only [Table.risesAbove, Bool.and_eq_true, decide_eq_true_eq]
      exact ⟨hr.1, ih hr.2⟩
    · exact Table.risesAbove_mono (Nat.le_of_lt hr.1) (ih hr.2)

/-- Dropping entries keeps the order of the indexes. -/
theorem Table.rises_filter {t : Table α} (p : Nat × α → Bool) (hr : Table.rises t = true) : Table.rises (t.filter p) = true := by
  cases t with
  | nil => rfl
  | cons x r =>
    simp only [Table.rises] at hr
    simp only [List.filter]
    split
    · exact Table.risesAbove_filter p hr
    · exact Table.rises_of_above (Table.risesAbove_filter p hr)

theorem Table.risesAbove_insert {k j : Nat} {t : Table α} (v : α) (hr : Table.risesAbove j t = true) (h : j < k) (hk : ∀ x ∈ t, x.1 ≠ k) :
    Table.risesAbove j (Table.insert t k v) = true := by
  induction t generalizing j with
  | nil => simp [Table.insert, Table.risesAbove, h]
  | cons x r ih =>
    simp only [Table.risesAbove, Bool.and_eq_true, decide_eq_true_eq] at hr
    simp only [Table.insert]
    split
    · rename_i hlt
      simp only [Table.risesAbove, Bool.and_eq_true, decide_eq_true_eq]
      exact ⟨hr.1, ih hr.2 hlt fun y hy => hk y (List.mem_cons_of_mem _ hy)⟩
    · have : x.1 ≠ k := hk x List.mem_cons_self
      simp only [Table.risesAbove, Bool.and_eq_true, decide_eq_true_eq]
      exact ⟨h, by omega, hr.2⟩

/-- A write keeps the order of the indexes. -/
theorem Table.rises_set (d : α) {t : Table α} (k : Nat) (v : α) (hr : Table.rises t = true) : Table.rises (Table.set d t k v) = true := by
  have hf := Table.rises_filter (fun e => e.1 != k) hr
  have hk : ∀ x ∈ t.filter (fun e => e.1 != k), x.1 ≠ k := fun x hx => by simpa using (List.mem_filter.1 hx).2
  simp only [Table.set]
  split
  · exact hf
  · revert hf hk
    generalize t.filter (fun e => e.1 != k) = u
    intro hf hk
    cases u with
    | nil => rfl
    | cons x r =>
      simp only [Table.rises] at hf
      simp only [Table.insert]
      split
      · rename_i hlt
        exact Table.risesAbove_insert v hf hlt fun y hy => hk y (List.mem_cons_of_mem _ hy)
      · have : x.1 ≠ k := hk x List.mem_cons_self
        simp only [Table.rises, Table.risesAbove, Bool.and_eq_true, decide_eq_true_eq]
        exact ⟨by omega, hf⟩

theorem Table.mem_insert {t : Table α} {k : Nat} {v : α} {x : Nat × α} (h : x ∈ Table.insert t k v) : x ∈ t ∨ x = (k, v) := by
  induction t with
  | nil => simpa [Table.insert] using h
  | cons y r ih =>
    simp only [Table.insert] at h
    split at h
    · rcases List.mem_cons.1 h with h | h
      · exact .inl (h ▸ List.mem_cons_self)
      · rcases ih h with h | h
        · exact .inl (List.mem_cons_of_mem _ h)
        · exact .inr h
    · rcases List.mem_cons.1 h with h | h
      · exact .inr h
      · exact .inl h

theorem Table.mem_set (d : α) {t : Table α} {k : Nat} {v : α} {x : Nat × α} (h : x ∈ Table.set d t k v) : x ∈ t ∨ (x = (k, v) ∧ v ≠ d) := by
  simp only [Table.set] at h
  split at h
  · exact .inl (List.mem_filter.1 h).1
  · rename_i hv
    rcases Table.mem_insert h with h | h
    · exact .inl (List.mem_filter.1 h).1
    · exact .inr ⟨h, hv⟩

/-- A write keeps the canonical form. -/
theorem Table.wf_set {d : Nat → α} {t : Table α} (k : Nat) (v : α) (h : Table.wf d t = true) : Table.wf d (Table.set (d k) t k v) = true := by
  simp only [Table.wf, Bool.and_eq_true, List.all_eq_true, bne_iff_ne] at h ⊢
  refine ⟨Table.rises_set _ k v h.1, fun x hx => ?_⟩
  rcases Table.mem_set (d k) hx with hx | ⟨rfl, hv⟩
  · exact h.2 x hx
  · exact hv

/-- Dropping entries keeps the canonical form. -/
theorem Table.wf_filter {d : Nat → α} {t : Table α} (p : Nat × α → Bool) (h : Table.wf d t = true) : Table.wf d (t.filter p) = true := by
  simp only [Table.wf, Bool.and_eq_true, List.all_eq_true, bne_iff_ne] at h ⊢
  exact ⟨Table.rises_filter p h.1, fun x hx => h.2 x ((List.mem_filter.1 hx).1)⟩

theorem Table.wf_clear {d : Nat → α} {t : Table α} (lo n : Nat) (h : Table.wf d t = true) : Table.wf d (Table.clear t lo n) = true :=
  Table.wf_filter _ h

/-- Writes of consecutive indexes keep the canonical form. -/
theorem Table.wf_setMany {d : α} {t : Table α} (k : Nat) (l : List α) (h : Table.wf (fun _ => d) t = true) :
    Table.wf (fun _ => d) (Table.setMany d t k l) = true := by
  induction l generalizing t k with
  | nil => exact h
  | cons v vs ih => exact ih (k + 1) (Table.wf_set k v h)

end Sys2Proof.Machine
end

