-- ==== Sys2Proof/Laws/Regs.lean ====
section
/-! SUPPORT. Laws/Regs.lean: the laws of the register file: what a register and a field read after a write. -/
namespace Sys2Proof.Machine

/-- A register's word is a word of 32 bits. -/
theorem State.reg_lt (s : State) (a : Nat) : s.reg a < 2 ^ 32 := (s.regs.get (resetWord s.strap a) a).isLt

/-- A write leaves every other register alone. -/
theorem State.reg_setReg_ne (s : State) {a b : Nat} (v : Nat) (h : b ≠ a) : (s.setReg a v).reg b = s.reg b := by
  simp only [State.reg, State.setReg]
  rw [Table.get_set_ne _ _ _ _ _ _ h]

/-- A register reads as what was written. -/
theorem State.reg_setReg_same (s : State) (a v : Nat) : (s.setReg a v).reg a = v % 2 ^ 32 := by
  simp only [State.reg, State.setReg]
  rw [Table.get_set_same, BitVec.toNat_ofNat]

/-- A write keeps the order of the register file. -/
theorem State.rises_setReg (s : State) (a v : Nat) (h : Table.rises s.regs = true) : Table.rises (s.setReg a v).regs = true :=
  Table.rises_set _ _ _ h

theorem State.rises_wr (s : State) (f : FRef) (v : Nat) (h : Table.rises s.regs = true) : Table.rises (s.wr f v).regs = true :=
  Table.rises_set _ _ _ h

/-- A field write leaves every other register alone. -/
theorem State.reg_wr_ne (s : State) (f : FRef) (v : Nat) {b : Nat} (h : b ≠ f.addr) : (s.wr f v).reg b = s.reg b := s.reg_setReg_ne _ h

/-- A field of another register. -/
theorem State.rd_wr_ne (s : State) (f g : FRef) (v : Nat) (h : g.addr ≠ f.addr) : (s.wr f v).rd g = s.rd g := by
  simp only [State.rd, s.reg_wr_ne f v h]

/-- A field of the same register. -/
theorem State.rd_wr_other (s : State) (f g : FRef) (v : Nat) (ha : g.addr = f.addr)
    (hw : f.lo + f.w ≤ 32) (h : g.lo + g.w ≤ f.lo ∨ f.lo + f.w ≤ g.lo) : (s.wr f v).rd g = s.rd g := by
  simp only [State.rd, State.wr, ha]
  rw [s.reg_setReg_same, Nat.mod_eq_of_lt (setBits_lt (s.reg_lt _) hw), bits_setBits_ne _ _ _ _ _ _ h]

/-- A field reads as what was written. -/
theorem State.rd_wr_same (s : State) (f : FRef) (v : Nat) (hw : f.lo + f.w ≤ 32) :
    (s.wr f v).rd f = v % 2 ^ f.w := by
  simp only [State.rd, State.wr]
  rw [s.reg_setReg_same, Nat.mod_eq_of_lt (setBits_lt (s.reg_lt _) hw), bits_setBits]

end Sys2Proof.Machine
end

