-- ==== Sys2Proof/Laws/State.lean ====
section
/-! SUPPORT. Laws/State.lean: what each update of the state leaves alone, field by field, and what it puts where it writes. -/
namespace Sys2Proof.Machine

@[simp] theorem State.setReg_strap (s : State) (a v : Nat) : (s.setReg a v).strap = s.strap := rfl
@[simp] theorem State.setReg_now (s : State) (a v : Nat) : (s.setReg a v).now = s.now := rfl
@[simp] theorem State.setReg_latch (s : State) (a v : Nat) : (s.setReg a v).latch = s.latch := rfl
@[simp] theorem State.setReg_lastAt (s : State) (a v : Nat) : (s.setReg a v).lastAt = s.lastAt := rfl
@[simp] theorem State.setReg_commit (s : State) (a v : Nat) : (s.setReg a v).commit = s.commit := rfl
@[simp] theorem State.setReg_evc (s : State) (a v : Nat) : (s.setReg a v).evc = s.evc := rfl
@[simp] theorem State.setReg_obs (s : State) (a v : Nat) : (s.setReg a v).obs = s.obs := rfl
@[simp] theorem State.setReg_ports (s : State) (a v : Nat) : (s.setReg a v).ports = s.ports := rfl
@[simp] theorem State.setReg_line (s : State) (a v : Nat) : (s.setReg a v).line = s.line := rfl
@[simp] theorem State.setReg_ring (s : State) (a v : Nat) : (s.setReg a v).ring = s.ring := rfl
@[simp] theorem State.setReg_wt (s : State) (a v : Nat) : (s.setReg a v).wt = s.wt := rfl
@[simp] theorem State.setReg_xa (s : State) (a v : Nat) : (s.setReg a v).xa = s.xa := rfl
@[simp] theorem State.setReg_hif (s : State) (a v : Nat) : (s.setReg a v).hif = s.hif := rfl
@[simp] theorem State.setReg_dram (s : State) (a v : Nat) : (s.setReg a v).dram = s.dram := rfl
@[simp] theorem State.setReg_pair (s : State) (a v : Nat) : (s.setReg a v).pair = s.pair := rfl
@[simp] theorem State.setReg_ni (s : State) (a v : Nat) : (s.setReg a v).ni = s.ni := rfl
@[simp] theorem State.setReg_cmp (s : State) (a v : Nat) : (s.setReg a v).cmp = s.cmp := rfl
@[simp] theorem State.setReg_pix (s : State) (a v : Nat) : (s.setReg a v).pix = s.pix := rfl
@[simp] theorem State.setReg_chk (s : State) (a v : Nat) : (s.setReg a v).chk = s.chk := rfl
@[simp] theorem State.setReg_drv (s : State) (a v : Nat) : (s.setReg a v).drv = s.drv := rfl
@[simp] theorem State.setReg_cal (s : State) (a v : Nat) : (s.setReg a v).cal = s.cal := rfl
@[simp] theorem State.setReg_hk (s : State) (a v : Nat) : (s.setReg a v).hk = s.hk := rfl
@[simp] theorem State.setReg_sys (s : State) (a v : Nat) : (s.setReg a v).sys = s.sys := rfl
@[simp] theorem State.setReg_upd (s : State) (a v : Nat) : (s.setReg a v).upd = s.upd := rfl
@[simp] theorem State.setReg_tap (s : State) (a v : Nat) : (s.setReg a v).tap = s.tap := rfl
@[simp] theorem State.setReg_free (s : State) (a v : Nat) : (s.setReg a v).free = s.free := rfl
@[simp] theorem State.setReg_out (s : State) (a v : Nat) : (s.setReg a v).out = s.out := rfl
@[simp] theorem State.setReg_pending (s : State) (a v : Nat) : (s.setReg a v).pending = s.pending := rfl

@[simp] theorem State.wr_strap (s : State) (f : FRef) (v : Nat) : (s.wr f v).strap = s.strap := rfl
@[simp] theorem State.wr_now (s : State) (f : FRef) (v : Nat) : (s.wr f v).now = s.now := rfl
@[simp] theorem State.wr_latch (s : State) (f : FRef) (v : Nat) : (s.wr f v).latch = s.latch := rfl
@[simp] theorem State.wr_lastAt (s : State) (f : FRef) (v : Nat) : (s.wr f v).lastAt = s.lastAt := rfl
@[simp] theorem State.wr_commit (s : State) (f : FRef) (v : Nat) : (s.wr f v).commit = s.commit := rfl
@[simp] theorem State.wr_evc (s : State) (f : FRef) (v : Nat) : (s.wr f v).evc = s.evc := rfl
@[simp] theorem State.wr_obs (s : State) (f : FRef) (v : Nat) : (s.wr f v).obs = s.obs := rfl
@[simp] theorem State.wr_ports (s : State) (f : FRef) (v : Nat) : (s.wr f v).ports = s.ports := rfl
@[simp] theorem State.wr_line (s : State) (f : FRef) (v : Nat) : (s.wr f v).line = s.line := rfl
@[simp] theorem State.wr_ring (s : State) (f : FRef) (v : Nat) : (s.wr f v).ring = s.ring := rfl
@[simp] theorem State.wr_wt (s : State) (f : FRef) (v : Nat) : (s.wr f v).wt = s.wt := rfl
@[simp] theorem State.wr_xa (s : State) (f : FRef) (v : Nat) : (s.wr f v).xa = s.xa := rfl
@[simp] theorem State.wr_hif (s : State) (f : FRef) (v : Nat) : (s.wr f v).hif = s.hif := rfl
@[simp] theorem State.wr_dram (s : State) (f : FRef) (v : Nat) : (s.wr f v).dram = s.dram := rfl
@[simp] theorem State.wr_pair (s : State) (f : FRef) (v : Nat) : (s.wr f v).pair = s.pair := rfl
@[simp] theorem State.wr_ni (s : State) (f : FRef) (v : Nat) : (s.wr f v).ni = s.ni := rfl
@[simp] theorem State.wr_cmp (s : State) (f : FRef) (v : Nat) : (s.wr f v).cmp = s.cmp := rfl
@[simp] theorem State.wr_pix (s : State) (f : FRef) (v : Nat) : (s.wr f v).pix = s.pix := rfl
@[simp] theorem State.wr_chk (s : State) (f : FRef) (v : Nat) : (s.wr f v).chk = s.chk := rfl
@[simp] theorem State.wr_drv (s : State) (f : FRef) (v : Nat) : (s.wr f v).drv = s.drv := rfl
@[simp] theorem State.wr_cal (s : State) (f : FRef) (v : Nat) : (s.wr f v).cal = s.cal := rfl
@[simp] theorem State.wr_hk (s : State) (f : FRef) (v : Nat) : (s.wr f v).hk = s.hk := rfl
@[simp] theorem State.wr_sys (s : State) (f : FRef) (v : Nat) : (s.wr f v).sys = s.sys := rfl
@[simp] theorem State.wr_upd (s : State) (f : FRef) (v : Nat) : (s.wr f v).upd = s.upd := rfl
@[simp] theorem State.wr_tap (s : State) (f : FRef) (v : Nat) : (s.wr f v).tap = s.tap := rfl
@[simp] theorem State.wr_free (s : State) (f : FRef) (v : Nat) : (s.wr f v).free = s.free := rfl
@[simp] theorem State.wr_out (s : State) (f : FRef) (v : Nat) : (s.wr f v).out = s.out := rfl
@[simp] theorem State.wr_pending (s : State) (f : FRef) (v : Nat) : (s.wr f v).pending = s.pending := rfl

@[simp] theorem State.bump_strap (s : State) (f : FRef) (k : Nat) : (s.bump f k).strap = s.strap := rfl
@[simp] theorem State.bump_now (s : State) (f : FRef) (k : Nat) : (s.bump f k).now = s.now := rfl
@[simp] theorem State.bump_latch (s : State) (f : FRef) (k : Nat) : (s.bump f k).latch = s.latch := rfl
@[simp] theorem State.bump_lastAt (s : State) (f : FRef) (k : Nat) : (s.bump f k).lastAt = s.lastAt := rfl
@[simp] theorem State.bump_commit (s : State) (f : FRef) (k : Nat) : (s.bump f k).commit = s.commit := rfl
@[simp] theorem State.bump_evc (s : State) (f : FRef) (k : Nat) : (s.bump f k).evc = s.evc := rfl
@[simp] theorem State.bump_obs (s : State) (f : FRef) (k : Nat) : (s.bump f k).obs = s.obs := rfl
@[simp] theorem State.bump_ports (s : State) (f : FRef) (k : Nat) : (s.bump f k).ports = s.ports := rfl
@[simp] theorem State.bump_line (s : State) (f : FRef) (k : Nat) : (s.bump f k).line = s.line := rfl
@[simp] theorem State.bump_ring (s : State) (f : FRef) (k : Nat) : (s.bump f k).ring = s.ring := rfl
@[simp] theorem State.bump_wt (s : State) (f : FRef) (k : Nat) : (s.bump f k).wt = s.wt := rfl
@[simp] theorem State.bump_xa (s : State) (f : FRef) (k : Nat) : (s.bump f k).xa = s.xa := rfl
@[simp] theorem State.bump_hif (s : State) (f : FRef) (k : Nat) : (s.bump f k).hif = s.hif := rfl
@[simp] theorem State.bump_dram (s : State) (f : FRef) (k : Nat) : (s.bump f k).dram = s.dram := rfl
@[simp] theorem State.bump_pair (s : State) (f : FRef) (k : Nat) : (s.bump f k).pair = s.pair := rfl
@[simp] theorem State.bump_ni (s : State) (f : FRef) (k : Nat) : (s.bump f k).ni = s.ni := rfl
@[simp] theorem State.bump_cmp (s : State) (f : FRef) (k : Nat) : (s.bump f k).cmp = s.cmp := rfl
@[simp] theorem State.bump_pix (s : State) (f : FRef) (k : Nat) : (s.bump f k).pix = s.pix := rfl
@[simp] theorem State.bump_chk (s : State) (f : FRef) (k : Nat) : (s.bump f k).chk = s.chk := rfl
@[simp] theorem State.bump_drv (s : State) (f : FRef) (k : Nat) : (s.bump f k).drv = s.drv := rfl
@[simp] theorem State.bump_cal (s : State) (f : FRef) (k : Nat) : (s.bump f k).cal = s.cal := rfl
@[simp] theorem State.bump_hk (s : State) (f : FRef) (k : Nat) : (s.bump f k).hk = s.hk := rfl
@[simp] theorem State.bump_sys (s : State) (f : FRef) (k : Nat) : (s.bump f k).sys = s.sys := rfl
@[simp] theorem State.bump_upd (s : State) (f : FRef) (k : Nat) : (s.bump f k).upd = s.upd := rfl
@[simp] theorem State.bump_tap (s : State) (f : FRef) (k : Nat) : (s.bump f k).tap = s.tap := rfl
@[simp] theorem State.bump_free (s : State) (f : FRef) (k : Nat) : (s.bump f k).free = s.free := rfl
@[simp] theorem State.bump_out (s : State) (f : FRef) (k : Nat) : (s.bump f k).out = s.out := rfl
@[simp] theorem State.bump_pending (s : State) (f : FRef) (k : Nat) : (s.bump f k).pending = s.pending := rfl

@[simp] theorem State.wr64_strap (s : State) (f g : FRef) (v : Nat) : (s.wr64 f g v).strap = s.strap := rfl
@[simp] theorem State.wr64_now (s : State) (f g : FRef) (v : Nat) : (s.wr64 f g v).now = s.now := rfl
@[simp] theorem State.wr64_latch (s : State) (f g : FRef) (v : Nat) : (s.wr64 f g v).latch = s.latch := rfl
@[simp] theorem State.wr64_lastAt (s : State) (f g : FRef) (v : Nat) : (s.wr64 f g v).lastAt = s.lastAt := rfl
@[simp] theorem State.wr64_commit (s : State) (f g : FRef) (v : Nat) : (s.wr64 f g v).commit = s.commit := rfl
@[simp] theorem State.wr64_evc (s : State) (f g : FRef) (v : Nat) : (s.wr64 f g v).evc = s.evc := rfl
@[simp] theorem State.wr64_obs (s : State) (f g : FRef) (v : Nat) : (s.wr64 f g v).obs = s.obs := rfl
@[simp] theorem State.wr64_ports (s : State) (f g : FRef) (v : Nat) : (s.wr64 f g v).ports = s.ports := rfl
@[simp] theorem State.wr64_line (s : State) (f g : FRef) (v : Nat) : (s.wr64 f g v).line = s.line := rfl
@[simp] theorem State.wr64_ring (s : State) (f g : FRef) (v : Nat) : (s.wr64 f g v).ring = s.ring := rfl
@[simp] theorem State.wr64_wt (s : State) (f g : FRef) (v : Nat) : (s.wr64 f g v).wt = s.wt := rfl
@[simp] theorem State.wr64_xa (s : State) (f g : FRef) (v : Nat) : (s.wr64 f g v).xa = s.xa := rfl
@[simp] theorem State.wr64_hif (s : State) (f g : FRef) (v : Nat) : (s.wr64 f g v).hif = s.hif := rfl
@[simp] theorem State.wr64_dram (s : State) (f g : FRef) (v : Nat) : (s.wr64 f g v).dram = s.dram := rfl
@[simp] theorem State.wr64_pair (s : State) (f g : FRef) (v : Nat) : (s.wr64 f g v).pair = s.pair := rfl
@[simp] theorem State.wr64_ni (s : State) (f g : FRef) (v : Nat) : (s.wr64 f g v).ni = s.ni := rfl
@[simp] theorem State.wr64_cmp (s : State) (f g : FRef) (v : Nat) : (s.wr64 f g v).cmp = s.cmp := rfl
@[simp] theorem State.wr64_pix (s : State) (f g : FRef) (v : Nat) : (s.wr64 f g v).pix = s.pix := rfl
@[simp] theorem State.wr64_chk (s : State) (f g : FRef) (v : Nat) : (s.wr64 f g v).chk = s.chk := rfl
@[simp] theorem State.wr64_drv (s : State) (f g : FRef) (v : Nat) : (s.wr64 f g v).drv = s.drv := rfl
@[simp] theorem State.wr64_cal (s : State) (f g : FRef) (v : Nat) : (s.wr64 f g v).cal = s.cal := rfl
@[simp] theorem State.wr64_hk (s : State) (f g : FRef) (v : Nat) : (s.wr64 f g v).hk = s.hk := rfl
@[simp] theorem State.wr64_sys (s : State) (f g : FRef) (v : Nat) : (s.wr64 f g v).sys = s.sys := rfl
@[simp] theorem State.wr64_upd (s : State) (f g : FRef) (v : Nat) : (s.wr64 f g v).upd = s.upd := rfl
@[simp] theorem State.wr64_tap (s : State) (f g : FRef) (v : Nat) : (s.wr64 f g v).tap = s.tap := rfl
@[simp] theorem State.wr64_free (s : State) (f g : FRef) (v : Nat) : (s.wr64 f g v).free = s.free := rfl
@[simp] theorem State.wr64_out (s : State) (f g : FRef) (v : Nat) : (s.wr64 f g v).out = s.out := rfl
@[simp] theorem State.wr64_pending (s : State) (f g : FRef) (v : Nat) : (s.wr64 f g v).pending = s.pending := rfl

@[simp] theorem State.reported_strap (s : State) (k : Nat) : (s.reported k).strap = s.strap := rfl
@[simp] theorem State.reported_now (s : State) (k : Nat) : (s.reported k).now = s.now := rfl
@[simp] theorem State.reported_regs (s : State) (k : Nat) : (s.reported k).regs = s.regs := rfl
@[simp] theorem State.reported_latch (s : State) (k : Nat) : (s.reported k).latch = s.latch := rfl
@[simp] theorem State.reported_commit (s : State) (k : Nat) : (s.reported k).commit = s.commit := rfl
@[simp] theorem State.reported_evc (s : State) (k : Nat) : (s.reported k).evc = s.evc := rfl
@[simp] theorem State.reported_obs (s : State) (k : Nat) : (s.reported k).obs = s.obs := rfl
@[simp] theorem State.reported_ports (s : State) (k : Nat) : (s.reported k).ports = s.ports := rfl
@[simp] theorem State.reported_line (s : State) (k : Nat) : (s.reported k).line = s.line := rfl
@[simp] theorem State.reported_ring (s : State) (k : Nat) : (s.reported k).ring = s.ring := rfl
@[simp] theorem State.reported_wt (s : State) (k : Nat) : (s.reported k).wt = s.wt := rfl
@[simp] theorem State.reported_xa (s : State) (k : Nat) : (s.reported k).xa = s.xa := rfl
@[simp] theorem State.reported_hif (s : State) (k : Nat) : (s.reported k).hif = s.hif := rfl
@[simp] theorem State.reported_dram (s : State) (k : Nat) : (s.reported k).dram = s.dram := rfl
@[simp] theorem State.reported_pair (s : State) (k : Nat) : (s.reported k).pair = s.pair := rfl
@[simp] theorem State.reported_ni (s : State) (k : Nat) : (s.reported k).ni = s.ni := rfl
@[simp] theorem State.reported_cmp (s : State) (k : Nat) : (s.reported k).cmp = s.cmp := rfl
@[simp] theorem State.reported_pix (s : State) (k : Nat) : (s.reported k).pix = s.pix := rfl
@[simp] theorem State.reported_chk (s : State) (k : Nat) : (s.reported k).chk = s.chk := rfl
@[simp] theorem State.reported_drv (s : State) (k : Nat) : (s.reported k).drv = s.drv := rfl
@[simp] theorem State.reported_cal (s : State) (k : Nat) : (s.reported k).cal = s.cal := rfl
@[simp] theorem State.reported_hk (s : State) (k : Nat) : (s.reported k).hk = s.hk := rfl
@[simp] theorem State.reported_sys (s : State) (k : Nat) : (s.reported k).sys = s.sys := rfl
@[simp] theorem State.reported_upd (s : State) (k : Nat) : (s.reported k).upd = s.upd := rfl
@[simp] theorem State.reported_tap (s : State) (k : Nat) : (s.reported k).tap = s.tap := rfl
@[simp] theorem State.reported_free (s : State) (k : Nat) : (s.reported k).free = s.free := rfl
@[simp] theorem State.reported_out (s : State) (k : Nat) : (s.reported k).out = s.out := rfl
@[simp] theorem State.reported_pending (s : State) (k : Nat) : (s.reported k).pending = s.pending := rfl

@[simp] theorem State.setTgt_strap (s : State) (t : Nat) (x : Target) : (s.setTgt t x).strap = s.strap := rfl
@[simp] theorem State.setTgt_now (s : State) (t : Nat) (x : Target) : (s.setTgt t x).now = s.now := rfl
@[simp] theorem State.setTgt_regs (s : State) (t : Nat) (x : Target) : (s.setTgt t x).regs = s.regs := rfl
@[simp] theorem State.setTgt_latch (s : State) (t : Nat) (x : Target) : (s.setTgt t x).latch = s.latch := rfl
@[simp] theorem State.setTgt_lastAt (s : State) (t : Nat) (x : Target) : (s.setTgt t x).lastAt = s.lastAt := rfl
@[simp] theorem State.setTgt_commit (s : State) (t : Nat) (x : Target) : (s.setTgt t x).commit = s.commit := rfl
@[simp] theorem State.setTgt_obs (s : State) (t : Nat) (x : Target) : (s.setTgt t x).obs = s.obs := rfl
@[simp] theorem State.setTgt_ports (s : State) (t : Nat) (x : Target) : (s.setTgt t x).ports = s.ports := rfl
@[simp] theorem State.setTgt_line (s : State) (t : Nat) (x : Target) : (s.setTgt t x).line = s.line := rfl
@[simp] theorem State.setTgt_ring (s : State) (t : Nat) (x : Target) : (s.setTgt t x).ring = s.ring := rfl
@[simp] theorem State.setTgt_wt (s : State) (t : Nat) (x : Target) : (s.setTgt t x).wt = s.wt := rfl
@[simp] theorem State.setTgt_xa (s : State) (t : Nat) (x : Target) : (s.setTgt t x).xa = s.xa := rfl
@[simp] theorem State.setTgt_hif (s : State) (t : Nat) (x : Target) : (s.setTgt t x).hif = s.hif := rfl
@[simp] theorem State.setTgt_dram (s : State) (t : Nat) (x : Target) : (s.setTgt t x).dram = s.dram := rfl
@[simp] theorem State.setTgt_pair (s : State) (t : Nat) (x : Target) : (s.setTgt t x).pair = s.pair := rfl
@[simp] theorem State.setTgt_ni (s : State) (t : Nat) (x : Target) : (s.setTgt t x).ni = s.ni := rfl
@[simp] theorem State.setTgt_cmp (s : State) (t : Nat) (x : Target) : (s.setTgt t x).cmp = s.cmp := rfl
@[simp] theorem State.setTgt_pix (s : State) (t : Nat) (x : Target) : (s.setTgt t x).pix = s.pix := rfl
@[simp] theorem State.setTgt_chk (s : State) (t : Nat) (x : Target) : (s.setTgt t x).chk = s.chk := rfl
@[simp] theorem State.setTgt_drv (s : State) (t : Nat) (x : Target) : (s.setTgt t x).drv = s.drv := rfl
@[simp] theorem State.setTgt_cal (s : State) (t : Nat) (x : Target) : (s.setTgt t x).cal = s.cal := rfl
@[simp] theorem State.setTgt_hk (s : State) (t : Nat) (x : Target) : (s.setTgt t x).hk = s.hk := rfl
@[simp] theorem State.setTgt_sys (s : State) (t : Nat) (x : Target) : (s.setTgt t x).sys = s.sys := rfl
@[simp] theorem State.setTgt_upd (s : State) (t : Nat) (x : Target) : (s.setTgt t x).upd = s.upd := rfl
@[simp] theorem State.setTgt_tap (s : State) (t : Nat) (x : Target) : (s.setTgt t x).tap = s.tap := rfl
@[simp] theorem State.setTgt_free (s : State) (t : Nat) (x : Target) : (s.setTgt t x).free = s.free := rfl
@[simp] theorem State.setTgt_out (s : State) (t : Nat) (x : Target) : (s.setTgt t x).out = s.out := rfl
@[simp] theorem State.setTgt_pending (s : State) (t : Nat) (x : Target) : (s.setTgt t x).pending = s.pending := rfl

@[simp] theorem State.setHsrc_strap (s : State) (n : Nat) (x : Source) : (s.setHsrc n x).strap = s.strap := rfl
@[simp] theorem State.setHsrc_now (s : State) (n : Nat) (x : Source) : (s.setHsrc n x).now = s.now := rfl
@[simp] theorem State.setHsrc_regs (s : State) (n : Nat) (x : Source) : (s.setHsrc n x).regs = s.regs := rfl
@[simp] theorem State.setHsrc_latch (s : State) (n : Nat) (x : Source) : (s.setHsrc n x).latch = s.latch := rfl
@[simp] theorem State.setHsrc_lastAt (s : State) (n : Nat) (x : Source) : (s.setHsrc n x).lastAt = s.lastAt := rfl
@[simp] theorem State.setHsrc_commit (s : State) (n : Nat) (x : Source) : (s.setHsrc n x).commit = s.commit := rfl
@[simp] theorem State.setHsrc_obs (s : State) (n : Nat) (x : Source) : (s.setHsrc n x).obs = s.obs := rfl
@[simp] theorem State.setHsrc_ports (s : State) (n : Nat) (x : Source) : (s.setHsrc n x).ports = s.ports := rfl
@[simp] theorem State.setHsrc_line (s : State) (n : Nat) (x : Source) : (s.setHsrc n x).line = s.line := rfl
@[simp] theorem State.setHsrc_ring (s : State) (n : Nat) (x : Source) : (s.setHsrc n x).ring = s.ring := rfl
@[simp] theorem State.setHsrc_wt (s : State) (n : Nat) (x : Source) : (s.setHsrc n x).wt = s.wt := rfl
@[simp] theorem State.setHsrc_xa (s : State) (n : Nat) (x : Source) : (s.setHsrc n x).xa = s.xa := rfl
@[simp] theorem State.setHsrc_hif (s : State) (n : Nat) (x : Source) : (s.setHsrc n x).hif = s.hif := rfl
@[simp] theorem State.setHsrc_dram (s : State) (n : Nat) (x : Source) : (s.setHsrc n x).dram = s.dram := rfl
@[simp] theorem State.setHsrc_pair (s : State) (n : Nat) (x : Source) : (s.setHsrc n x).pair = s.pair := rfl
@[simp] theorem State.setHsrc_ni (s : State) (n : Nat) (x : Source) : (s.setHsrc n x).ni = s.ni := rfl
@[simp] theorem State.setHsrc_cmp (s : State) (n : Nat) (x : Source) : (s.setHsrc n x).cmp = s.cmp := rfl
@[simp] theorem State.setHsrc_pix (s : State) (n : Nat) (x : Source) : (s.setHsrc n x).pix = s.pix := rfl
@[simp] theorem State.setHsrc_chk (s : State) (n : Nat) (x : Source) : (s.setHsrc n x).chk = s.chk := rfl
@[simp] theorem State.setHsrc_drv (s : State) (n : Nat) (x : Source) : (s.setHsrc n x).drv = s.drv := rfl
@[simp] theorem State.setHsrc_cal (s : State) (n : Nat) (x : Source) : (s.setHsrc n x).cal = s.cal := rfl
@[simp] theorem State.setHsrc_hk (s : State) (n : Nat) (x : Source) : (s.setHsrc n x).hk = s.hk := rfl
@[simp] theorem State.setHsrc_sys (s : State) (n : Nat) (x : Source) : (s.setHsrc n x).sys = s.sys := rfl
@[simp] theorem State.setHsrc_upd (s : State) (n : Nat) (x : Source) : (s.setHsrc n x).upd = s.upd := rfl
@[simp] theorem State.setHsrc_tap (s : State) (n : Nat) (x : Source) : (s.setHsrc n x).tap = s.tap := rfl
@[simp] theorem State.setHsrc_free (s : State) (n : Nat) (x : Source) : (s.setHsrc n x).free = s.free := rfl
@[simp] theorem State.setHsrc_out (s : State) (n : Nat) (x : Source) : (s.setHsrc n x).out = s.out := rfl
@[simp] theorem State.setHsrc_pending (s : State) (n : Nat) (x : Source) : (s.setHsrc n x).pending = s.pending := rfl

@[simp] theorem State.setUsrc_strap (s : State) (n : Nat) (x : Source) : (s.setUsrc n x).strap = s.strap := rfl
@[simp] theorem State.setUsrc_now (s : State) (n : Nat) (x : Source) : (s.setUsrc n x).now = s.now := rfl
@[simp] theorem State.setUsrc_regs (s : State) (n : Nat) (x : Source) : (s.setUsrc n x).regs = s.regs := rfl
@[simp] theorem State.setUsrc_latch (s : State) (n : Nat) (x : Source) : (s.setUsrc n x).latch = s.latch := rfl
@[simp] theorem State.setUsrc_lastAt (s : State) (n : Nat) (x : Source) : (s.setUsrc n x).lastAt = s.lastAt := rfl
@[simp] theorem State.setUsrc_commit (s : State) (n : Nat) (x : Source) : (s.setUsrc n x).commit = s.commit := rfl
@[simp] theorem State.setUsrc_obs (s : State) (n : Nat) (x : Source) : (s.setUsrc n x).obs = s.obs := rfl
@[simp] theorem State.setUsrc_ports (s : State) (n : Nat) (x : Source) : (s.setUsrc n x).ports = s.ports := rfl
@[simp] theorem State.setUsrc_line (s : State) (n : Nat) (x : Source) : (s.setUsrc n x).line = s.line := rfl
@[simp] theorem State.setUsrc_ring (s : State) (n : Nat) (x : Source) : (s.setUsrc n x).ring = s.ring := rfl
@[simp] theorem State.setUsrc_wt (s : State) (n : Nat) (x : Source) : (s.setUsrc n x).wt = s.wt := rfl
@[simp] theorem State.setUsrc_xa (s : State) (n : Nat) (x : Source) : (s.setUsrc n x).xa = s.xa := rfl
@[simp] theorem State.setUsrc_hif (s : State) (n : Nat) (x : Source) : (s.setUsrc n x).hif = s.hif := rfl
@[simp] theorem State.setUsrc_dram (s : State) (n : Nat) (x : Source) : (s.setUsrc n x).dram = s.dram := rfl
@[simp] theorem State.setUsrc_pair (s : State) (n : Nat) (x : Source) : (s.setUsrc n x).pair = s.pair := rfl
@[simp] theorem State.setUsrc_ni (s : State) (n : Nat) (x : Source) : (s.setUsrc n x).ni = s.ni := rfl
@[simp] theorem State.setUsrc_cmp (s : State) (n : Nat) (x : Source) : (s.setUsrc n x).cmp = s.cmp := rfl
@[simp] theorem State.setUsrc_pix (s : State) (n : Nat) (x : Source) : (s.setUsrc n x).pix = s.pix := rfl
@[simp] theorem State.setUsrc_chk (s : State) (n : Nat) (x : Source) : (s.setUsrc n x).chk = s.chk := rfl
@[simp] theorem State.setUsrc_drv (s : State) (n : Nat) (x : Source) : (s.setUsrc n x).drv = s.drv := rfl
@[simp] theorem State.setUsrc_cal (s : State) (n : Nat) (x : Source) : (s.setUsrc n x).cal = s.cal := rfl
@[simp] theorem State.setUsrc_hk (s : State) (n : Nat) (x : Source) : (s.setUsrc n x).hk = s.hk := rfl
@[simp] theorem State.setUsrc_sys (s : State) (n : Nat) (x : Source) : (s.setUsrc n x).sys = s.sys := rfl
@[simp] theorem State.setUsrc_upd (s : State) (n : Nat) (x : Source) : (s.setUsrc n x).upd = s.upd := rfl
@[simp] theorem State.setUsrc_tap (s : State) (n : Nat) (x : Source) : (s.setUsrc n x).tap = s.tap := rfl
@[simp] theorem State.setUsrc_free (s : State) (n : Nat) (x : Source) : (s.setUsrc n x).free = s.free := rfl
@[simp] theorem State.setUsrc_out (s : State) (n : Nat) (x : Source) : (s.setUsrc n x).out = s.out := rfl
@[simp] theorem State.setUsrc_pending (s : State) (n : Nat) (x : Source) : (s.setUsrc n x).pending = s.pending := rfl

@[simp] theorem State.setPort_strap (s : State) (p : Nat) (x : Port) : (s.setPort p x).strap = s.strap := rfl
@[simp] theorem State.setPort_now (s : State) (p : Nat) (x : Port) : (s.setPort p x).now = s.now := rfl
@[simp] theorem State.setPort_regs (s : State) (p : Nat) (x : Port) : (s.setPort p x).regs = s.regs := rfl
@[simp] theorem State.setPort_latch (s : State) (p : Nat) (x : Port) : (s.setPort p x).latch = s.latch := rfl
@[simp] theorem State.setPort_lastAt (s : State) (p : Nat) (x : Port) : (s.setPort p x).lastAt = s.lastAt := rfl
@[simp] theorem State.setPort_commit (s : State) (p : Nat) (x : Port) : (s.setPort p x).commit = s.commit := rfl
@[simp] theorem State.setPort_evc (s : State) (p : Nat) (x : Port) : (s.setPort p x).evc = s.evc := rfl
@[simp] theorem State.setPort_obs (s : State) (p : Nat) (x : Port) : (s.setPort p x).obs = s.obs := rfl
@[simp] theorem State.setPort_line (s : State) (p : Nat) (x : Port) : (s.setPort p x).line = s.line := rfl
@[simp] theorem State.setPort_ring (s : State) (p : Nat) (x : Port) : (s.setPort p x).ring = s.ring := rfl
@[simp] theorem State.setPort_wt (s : State) (p : Nat) (x : Port) : (s.setPort p x).wt = s.wt := rfl
@[simp] theorem State.setPort_xa (s : State) (p : Nat) (x : Port) : (s.setPort p x).xa = s.xa := rfl
@[simp] theorem State.setPort_hif (s : State) (p : Nat) (x : Port) : (s.setPort p x).hif = s.hif := rfl
@[simp] theorem State.setPort_dram (s : State) (p : Nat) (x : Port) : (s.setPort p x).dram = s.dram := rfl
@[simp] theorem State.setPort_pair (s : State) (p : Nat) (x : Port) : (s.setPort p x).pair = s.pair := rfl
@[simp] theorem State.setPort_ni (s : State) (p : Nat) (x : Port) : (s.setPort p x).ni = s.ni := rfl
@[simp] theorem State.setPort_cmp (s : State) (p : Nat) (x : Port) : (s.setPort p x).cmp = s.cmp := rfl
@[simp] theorem State.setPort_pix (s : State) (p : Nat) (x : Port) : (s.setPort p x).pix = s.pix := rfl
@[simp] theorem State.setPort_chk (s : State) (p : Nat) (x : Port) : (s.setPort p x).chk = s.chk := rfl
@[simp] theorem State.setPort_drv (s : State) (p : Nat) (x : Port) : (s.setPort p x).drv = s.drv := rfl
@[simp] theorem State.setPort_cal (s : State) (p : Nat) (x : Port) : (s.setPort p x).cal = s.cal := rfl
@[simp] theorem State.setPort_hk (s : State) (p : Nat) (x : Port) : (s.setPort p x).hk = s.hk := rfl
@[simp] theorem State.setPort_sys (s : State) (p : Nat) (x : Port) : (s.setPort p x).sys = s.sys := rfl
@[simp] theorem State.setPort_upd (s : State) (p : Nat) (x : Port) : (s.setPort p x).upd = s.upd := rfl
@[simp] theorem State.setPort_tap (s : State) (p : Nat) (x : Port) : (s.setPort p x).tap = s.tap := rfl
@[simp] theorem State.setPort_free (s : State) (p : Nat) (x : Port) : (s.setPort p x).free = s.free := rfl
@[simp] theorem State.setPort_out (s : State) (p : Nat) (x : Port) : (s.setPort p x).out = s.out := rfl
@[simp] theorem State.setPort_pending (s : State) (p : Nat) (x : Port) : (s.setPort p x).pending = s.pending := rfl

@[simp] theorem State.modPort_strap (s : State) (p : Nat) (f : Port → Port) : (s.modPort p f).strap = s.strap := rfl
@[simp] theorem State.modPort_now (s : State) (p : Nat) (f : Port → Port) : (s.modPort p f).now = s.now := rfl
@[simp] theorem State.modPort_regs (s : State) (p : Nat) (f : Port → Port) : (s.modPort p f).regs = s.regs := rfl
@[simp] theorem State.modPort_latch (s : State) (p : Nat) (f : Port → Port) : (s.modPort p f).latch = s.latch := rfl
@[simp] theorem State.modPort_lastAt (s : State) (p : Nat) (f : Port → Port) : (s.modPort p f).lastAt = s.lastAt := rfl
@[simp] theorem State.modPort_commit (s : State) (p : Nat) (f : Port → Port) : (s.modPort p f).commit = s.commit := rfl
@[simp] theorem State.modPort_evc (s : State) (p : Nat) (f : Port → Port) : (s.modPort p f).evc = s.evc := rfl
@[simp] theorem State.modPort_obs (s : State) (p : Nat) (f : Port → Port) : (s.modPort p f).obs = s.obs := rfl
@[simp] theorem State.modPort_line (s : State) (p : Nat) (f : Port → Port) : (s.modPort p f).line = s.line := rfl
@[simp] theorem State.modPort_ring (s : State) (p : Nat) (f : Port → Port) : (s.modPort p f).ring = s.ring := rfl
@[simp] theorem State.modPort_wt (s : State) (p : Nat) (f : Port → Port) : (s.modPort p f).wt = s.wt := rfl
@[simp] theorem State.modPort_xa (s : State) (p : Nat) (f : Port → Port) : (s.modPort p f).xa = s.xa := rfl
@[simp] theorem State.modPort_hif (s : State) (p : Nat) (f : Port → Port) : (s.modPort p f).hif = s.hif := rfl
@[simp] theorem State.modPort_dram (s : State) (p : Nat) (f : Port → Port) : (s.modPort p f).dram = s.dram := rfl
@[simp] theorem State.modPort_pair (s : State) (p : Nat) (f : Port → Port) : (s.modPort p f).pair = s.pair := rfl
@[simp] theorem State.modPort_ni (s : State) (p : Nat) (f : Port → Port) : (s.modPort p f).ni = s.ni := rfl
@[simp] theorem State.modPort_cmp (s : State) (p : Nat) (f : Port → Port) : (s.modPort p f).cmp = s.cmp := rfl
@[simp] theorem State.modPort_pix (s : State) (p : Nat) (f : Port → Port) : (s.modPort p f).pix = s.pix := rfl
@[simp] theorem State.modPort_chk (s : State) (p : Nat) (f : Port → Port) : (s.modPort p f).chk = s.chk := rfl
@[simp] theorem State.modPort_drv (s : State) (p : Nat) (f : Port → Port) : (s.modPort p f).drv = s.drv := rfl
@[simp] theorem State.modPort_cal (s : State) (p : Nat) (f : Port → Port) : (s.modPort p f).cal = s.cal := rfl
@[simp] theorem State.modPort_hk (s : State) (p : Nat) (f : Port → Port) : (s.modPort p f).hk = s.hk := rfl
@[simp] theorem State.modPort_sys (s : State) (p : Nat) (f : Port → Port) : (s.modPort p f).sys = s.sys := rfl
@[simp] theorem State.modPort_upd (s : State) (p : Nat) (f : Port → Port) : (s.modPort p f).upd = s.upd := rfl
@[simp] theorem State.modPort_tap (s : State) (p : Nat) (f : Port → Port) : (s.modPort p f).tap = s.tap := rfl
@[simp] theorem State.modPort_free (s : State) (p : Nat) (f : Port → Port) : (s.modPort p f).free = s.free := rfl
@[simp] theorem State.modPort_out (s : State) (p : Nat) (f : Port → Port) : (s.modPort p f).out = s.out := rfl
@[simp] theorem State.modPort_pending (s : State) (p : Nat) (f : Port → Port) : (s.modPort p f).pending = s.pending := rfl

@[simp] theorem State.setPst_strap (s : State) (p v : Nat) : (s.setPst p v).strap = s.strap := rfl
@[simp] theorem State.setPst_now (s : State) (p v : Nat) : (s.setPst p v).now = s.now := rfl
@[simp] theorem State.setPst_latch (s : State) (p v : Nat) : (s.setPst p v).latch = s.latch := rfl
@[simp] theorem State.setPst_lastAt (s : State) (p v : Nat) : (s.setPst p v).lastAt = s.lastAt := rfl
@[simp] theorem State.setPst_commit (s : State) (p v : Nat) : (s.setPst p v).commit = s.commit := rfl
@[simp] theorem State.setPst_evc (s : State) (p v : Nat) : (s.setPst p v).evc = s.evc := rfl
@[simp] theorem State.setPst_obs (s : State) (p v : Nat) : (s.setPst p v).obs = s.obs := rfl
@[simp] theorem State.setPst_ports (s : State) (p v : Nat) : (s.setPst p v).ports = s.ports := rfl
@[simp] theorem State.setPst_line (s : State) (p v : Nat) : (s.setPst p v).line = s.line := rfl
@[simp] theorem State.setPst_ring (s : State) (p v : Nat) : (s.setPst p v).ring = s.ring := rfl
@[simp] theorem State.setPst_wt (s : State) (p v : Nat) : (s.setPst p v).wt = s.wt := rfl
@[simp] theorem State.setPst_xa (s : State) (p v : Nat) : (s.setPst p v).xa = s.xa := rfl
@[simp] theorem State.setPst_hif (s : State) (p v : Nat) : (s.setPst p v).hif = s.hif := rfl
@[simp] theorem State.setPst_dram (s : State) (p v : Nat) : (s.setPst p v).dram = s.dram := rfl
@[simp] theorem State.setPst_pair (s : State) (p v : Nat) : (s.setPst p v).pair = s.pair := rfl
@[simp] theorem State.setPst_ni (s : State) (p v : Nat) : (s.setPst p v).ni = s.ni := rfl
@[simp] theorem State.setPst_cmp (s : State) (p v : Nat) : (s.setPst p v).cmp = s.cmp := rfl
@[simp] theorem State.setPst_pix (s : State) (p v : Nat) : (s.setPst p v).pix = s.pix := rfl
@[simp] theorem State.setPst_chk (s : State) (p v : Nat) : (s.setPst p v).chk = s.chk := rfl
@[simp] theorem State.setPst_drv (s : State) (p v : Nat) : (s.setPst p v).drv = s.drv := rfl
@[simp] theorem State.setPst_cal (s : State) (p v : Nat) : (s.setPst p v).cal = s.cal := rfl
@[simp] theorem State.setPst_hk (s : State) (p v : Nat) : (s.setPst p v).hk = s.hk := rfl
@[simp] theorem State.setPst_sys (s : State) (p v : Nat) : (s.setPst p v).sys = s.sys := rfl
@[simp] theorem State.setPst_upd (s : State) (p v : Nat) : (s.setPst p v).upd = s.upd := rfl
@[simp] theorem State.setPst_tap (s : State) (p v : Nat) : (s.setPst p v).tap = s.tap := rfl
@[simp] theorem State.setPst_free (s : State) (p v : Nat) : (s.setPst p v).free = s.free := rfl
@[simp] theorem State.setPst_out (s : State) (p v : Nat) : (s.setPst p v).out = s.out := rfl
@[simp] theorem State.setPst_pending (s : State) (p v : Nat) : (s.setPst p v).pending = s.pending := rfl

@[simp] theorem State.setGen_strap (s : State) (n : Nat) (g : Gen) : (s.setGen n g).strap = s.strap := rfl
@[simp] theorem State.setGen_now (s : State) (n : Nat) (g : Gen) : (s.setGen n g).now = s.now := rfl
@[simp] theorem State.setGen_regs (s : State) (n : Nat) (g : Gen) : (s.setGen n g).regs = s.regs := rfl
@[simp] theorem State.setGen_latch (s : State) (n : Nat) (g : Gen) : (s.setGen n g).latch = s.latch := rfl
@[simp] theorem State.setGen_lastAt (s : State) (n : Nat) (g : Gen) : (s.setGen n g).lastAt = s.lastAt := rfl
@[simp] theorem State.setGen_commit (s : State) (n : Nat) (g : Gen) : (s.setGen n g).commit = s.commit := rfl
@[simp] theorem State.setGen_evc (s : State) (n : Nat) (g : Gen) : (s.setGen n g).evc = s.evc := rfl
@[simp] theorem State.setGen_obs (s : State) (n : Nat) (g : Gen) : (s.setGen n g).obs = s.obs := rfl
@[simp] theorem State.setGen_ports (s : State) (n : Nat) (g : Gen) : (s.setGen n g).ports = s.ports := rfl
@[simp] theorem State.setGen_line (s : State) (n : Nat) (g : Gen) : (s.setGen n g).line = s.line := rfl
@[simp] theorem State.setGen_ring (s : State) (n : Nat) (g : Gen) : (s.setGen n g).ring = s.ring := rfl
@[simp] theorem State.setGen_xa (s : State) (n : Nat) (g : Gen) : (s.setGen n g).xa = s.xa := rfl
@[simp] theorem State.setGen_hif (s : State) (n : Nat) (g : Gen) : (s.setGen n g).hif = s.hif := rfl
@[simp] theorem State.setGen_dram (s : State) (n : Nat) (g : Gen) : (s.setGen n g).dram = s.dram := rfl
@[simp] theorem State.setGen_pair (s : State) (n : Nat) (g : Gen) : (s.setGen n g).pair = s.pair := rfl
@[simp] theorem State.setGen_ni (s : State) (n : Nat) (g : Gen) : (s.setGen n g).ni = s.ni := rfl
@[simp] theorem State.setGen_cmp (s : State) (n : Nat) (g : Gen) : (s.setGen n g).cmp = s.cmp := rfl
@[simp] theorem State.setGen_pix (s : State) (n : Nat) (g : Gen) : (s.setGen n g).pix = s.pix := rfl
@[simp] theorem State.setGen_chk (s : State) (n : Nat) (g : Gen) : (s.setGen n g).chk = s.chk := rfl
@[simp] theorem State.setGen_drv (s : State) (n : Nat) (g : Gen) : (s.setGen n g).drv = s.drv := rfl
@[simp] theorem State.setGen_cal (s : State) (n : Nat) (g : Gen) : (s.setGen n g).cal = s.cal := rfl
@[simp] theorem State.setGen_hk (s : State) (n : Nat) (g : Gen) : (s.setGen n g).hk = s.hk := rfl
@[simp] theorem State.setGen_sys (s : State) (n : Nat) (g : Gen) : (s.setGen n g).sys = s.sys := rfl
@[simp] theorem State.setGen_upd (s : State) (n : Nat) (g : Gen) : (s.setGen n g).upd = s.upd := rfl
@[simp] theorem State.setGen_tap (s : State) (n : Nat) (g : Gen) : (s.setGen n g).tap = s.tap := rfl
@[simp] theorem State.setGen_free (s : State) (n : Nat) (g : Gen) : (s.setGen n g).free = s.free := rfl
@[simp] theorem State.setGen_out (s : State) (n : Nat) (g : Gen) : (s.setGen n g).out = s.out := rfl
@[simp] theorem State.setGen_pending (s : State) (n : Nat) (g : Gen) : (s.setGen n g).pending = s.pending := rfl

@[simp] theorem State.setXid_strap (s : State) (x : Nat) (v : Xid) : (s.setXid x v).strap = s.strap := rfl
@[simp] theorem State.setXid_now (s : State) (x : Nat) (v : Xid) : (s.setXid x v).now = s.now := rfl
@[simp] theorem State.setXid_regs (s : State) (x : Nat) (v : Xid) : (s.setXid x v).regs = s.regs := rfl
@[simp] theorem State.setXid_latch (s : State) (x : Nat) (v : Xid) : (s.setXid x v).latch = s.latch := rfl
@[simp] theorem State.setXid_lastAt (s : State) (x : Nat) (v : Xid) : (s.setXid x v).lastAt = s.lastAt := rfl
@[simp] theorem State.setXid_commit (s : State) (x : Nat) (v : Xid) : (s.setXid x v).commit = s.commit := rfl
@[simp] theorem State.setXid_evc (s : State) (x : Nat) (v : Xid) : (s.setXid x v).evc = s.evc := rfl
@[simp] theorem State.setXid_obs (s : State) (x : Nat) (v : Xid) : (s.setXid x v).obs = s.obs := rfl
@[simp] theorem State.setXid_ports (s : State) (x : Nat) (v : Xid) : (s.setXid x v).ports = s.ports := rfl
@[simp] theorem State.setXid_line (s : State) (x : Nat) (v : Xid) : (s.setXid x v).line = s.line := rfl
@[simp] theorem State.setXid_ring (s : State) (x : Nat) (v : Xid) : (s.setXid x v).ring = s.ring := rfl
@[simp] theorem State.setXid_wt (s : State) (x : Nat) (v : Xid) : (s.setXid x v).wt = s.wt := rfl
@[simp] theorem State.setXid_hif (s : State) (x : Nat) (v : Xid) : (s.setXid x v).hif = s.hif := rfl
@[simp] theorem State.setXid_dram (s : State) (x : Nat) (v : Xid) : (s.setXid x v).dram = s.dram := rfl
@[simp] theorem State.setXid_pair (s : State) (x : Nat) (v : Xid) : (s.setXid x v).pair = s.pair := rfl
@[simp] theorem State.setXid_ni (s : State) (x : Nat) (v : Xid) : (s.setXid x v).ni = s.ni := rfl
@[simp] theorem State.setXid_cmp (s : State) (x : Nat) (v : Xid) : (s.setXid x v).cmp = s.cmp := rfl
@[simp] theorem State.setXid_pix (s : State) (x : Nat) (v : Xid) : (s.setXid x v).pix = s.pix := rfl
@[simp] theorem State.setXid_chk (s : State) (x : Nat) (v : Xid) : (s.setXid x v).chk = s.chk := rfl
@[simp] theorem State.setXid_drv (s : State) (x : Nat) (v : Xid) : (s.setXid x v).drv = s.drv := rfl
@[simp] theorem State.setXid_cal (s : State) (x : Nat) (v : Xid) : (s.setXid x v).cal = s.cal := rfl
@[simp] theorem State.setXid_hk (s : State) (x : Nat) (v : Xid) : (s.setXid x v).hk = s.hk := rfl
@[simp] theorem State.setXid_sys (s : State) (x : Nat) (v : Xid) : (s.setXid x v).sys = s.sys := rfl
@[simp] theorem State.setXid_upd (s : State) (x : Nat) (v : Xid) : (s.setXid x v).upd = s.upd := rfl
@[simp] theorem State.setXid_tap (s : State) (x : Nat) (v : Xid) : (s.setXid x v).tap = s.tap := rfl
@[simp] theorem State.setXid_free (s : State) (x : Nat) (v : Xid) : (s.setXid x v).free = s.free := rfl
@[simp] theorem State.setXid_out (s : State) (x : Nat) (v : Xid) : (s.setXid x v).out = s.out := rfl
@[simp] theorem State.setXid_pending (s : State) (x : Nat) (v : Xid) : (s.setXid x v).pending = s.pending := rfl

@[simp] theorem State.modXid_strap (s : State) (x : Nat) (f : Xid → Xid) : (s.modXid x f).strap = s.strap := rfl
@[simp] theorem State.modXid_now (s : State) (x : Nat) (f : Xid → Xid) : (s.modXid x f).now = s.now := rfl
@[simp] theorem State.modXid_regs (s : State) (x : Nat) (f : Xid → Xid) : (s.modXid x f).regs = s.regs := rfl
@[simp] theorem State.modXid_latch (s : State) (x : Nat) (f : Xid → Xid) : (s.modXid x f).latch = s.latch := rfl
@[simp] theorem State.modXid_lastAt (s : State) (x : Nat) (f : Xid → Xid) : (s.modXid x f).lastAt = s.lastAt := rfl
@[simp] theorem State.modXid_commit (s : State) (x : Nat) (f : Xid → Xid) : (s.modXid x f).commit = s.commit := rfl
@[simp] theorem State.modXid_evc (s : State) (x : Nat) (f : Xid → Xid) : (s.modXid x f).evc = s.evc := rfl
@[simp] theorem State.modXid_obs (s : State) (x : Nat) (f : Xid → Xid) : (s.modXid x f).obs = s.obs := rfl
@[simp] theorem State.modXid_ports (s : State) (x : Nat) (f : Xid → Xid) : (s.modXid x f).ports = s.ports := rfl
@[simp] theorem State.modXid_line (s : State) (x : Nat) (f : Xid → Xid) : (s.modXid x f).line = s.line := rfl
@[simp] theorem State.modXid_ring (s : State) (x : Nat) (f : Xid → Xid) : (s.modXid x f).ring = s.ring := rfl
@[simp] theorem State.modXid_wt (s : State) (x : Nat) (f : Xid → Xid) : (s.modXid x f).wt = s.wt := rfl
@[simp] theorem State.modXid_hif (s : State) (x : Nat) (f : Xid → Xid) : (s.modXid x f).hif = s.hif := rfl
@[simp] theorem State.modXid_dram (s : State) (x : Nat) (f : Xid → Xid) : (s.modXid x f).dram = s.dram := rfl
@[simp] theorem State.modXid_pair (s : State) (x : Nat) (f : Xid → Xid) : (s.modXid x f).pair = s.pair := rfl
@[simp] theorem State.modXid_ni (s : State) (x : Nat) (f : Xid → Xid) : (s.modXid x f).ni = s.ni := rfl
@[simp] theorem State.modXid_cmp (s : State) (x : Nat) (f : Xid → Xid) : (s.modXid x f).cmp = s.cmp := rfl
@[simp] theorem State.modXid_pix (s : State) (x : Nat) (f : Xid → Xid) : (s.modXid x f).pix = s.pix := rfl
@[simp] theorem State.modXid_chk (s : State) (x : Nat) (f : Xid → Xid) : (s.modXid x f).chk = s.chk := rfl
@[simp] theorem State.modXid_drv (s : State) (x : Nat) (f : Xid → Xid) : (s.modXid x f).drv = s.drv := rfl
@[simp] theorem State.modXid_cal (s : State) (x : Nat) (f : Xid → Xid) : (s.modXid x f).cal = s.cal := rfl
@[simp] theorem State.modXid_hk (s : State) (x : Nat) (f : Xid → Xid) : (s.modXid x f).hk = s.hk := rfl
@[simp] theorem State.modXid_sys (s : State) (x : Nat) (f : Xid → Xid) : (s.modXid x f).sys = s.sys := rfl
@[simp] theorem State.modXid_upd (s : State) (x : Nat) (f : Xid → Xid) : (s.modXid x f).upd = s.upd := rfl
@[simp] theorem State.modXid_tap (s : State) (x : Nat) (f : Xid → Xid) : (s.modXid x f).tap = s.tap := rfl
@[simp] theorem State.modXid_free (s : State) (x : Nat) (f : Xid → Xid) : (s.modXid x f).free = s.free := rfl
@[simp] theorem State.modXid_out (s : State) (x : Nat) (f : Xid → Xid) : (s.modXid x f).out = s.out := rfl
@[simp] theorem State.modXid_pending (s : State) (x : Nat) (f : Xid → Xid) : (s.modXid x f).pending = s.pending := rfl

@[simp] theorem State.modPair_strap (s : State) (f : Pair → Pair) : (s.modPair f).strap = s.strap := rfl
@[simp] theorem State.modPair_now (s : State) (f : Pair → Pair) : (s.modPair f).now = s.now := rfl
@[simp] theorem State.modPair_regs (s : State) (f : Pair → Pair) : (s.modPair f).regs = s.regs := rfl
@[simp] theorem State.modPair_latch (s : State) (f : Pair → Pair) : (s.modPair f).latch = s.latch := rfl
@[simp] theorem State.modPair_lastAt (s : State) (f : Pair → Pair) : (s.modPair f).lastAt = s.lastAt := rfl
@[simp] theorem State.modPair_commit (s : State) (f : Pair → Pair) : (s.modPair f).commit = s.commit := rfl
@[simp] theorem State.modPair_evc (s : State) (f : Pair → Pair) : (s.modPair f).evc = s.evc := rfl
@[simp] theorem State.modPair_obs (s : State) (f : Pair → Pair) : (s.modPair f).obs = s.obs := rfl
@[simp] theorem State.modPair_ports (s : State) (f : Pair → Pair) : (s.modPair f).ports = s.ports := rfl
@[simp] theorem State.modPair_line (s : State) (f : Pair → Pair) : (s.modPair f).line = s.line := rfl
@[simp] theorem State.modPair_ring (s : State) (f : Pair → Pair) : (s.modPair f).ring = s.ring := rfl
@[simp] theorem State.modPair_wt (s : State) (f : Pair → Pair) : (s.modPair f).wt = s.wt := rfl
@[simp] theorem State.modPair_xa (s : State) (f : Pair → Pair) : (s.modPair f).xa = s.xa := rfl
@[simp] theorem State.modPair_hif (s : State) (f : Pair → Pair) : (s.modPair f).hif = s.hif := rfl
@[simp] theorem State.modPair_dram (s : State) (f : Pair → Pair) : (s.modPair f).dram = s.dram := rfl
@[simp] theorem State.modPair_ni (s : State) (f : Pair → Pair) : (s.modPair f).ni = s.ni := rfl
@[simp] theorem State.modPair_cmp (s : State) (f : Pair → Pair) : (s.modPair f).cmp = s.cmp := rfl
@[simp] theorem State.modPair_pix (s : State) (f : Pair → Pair) : (s.modPair f).pix = s.pix := rfl
@[simp] theorem State.modPair_chk (s : State) (f : Pair → Pair) : (s.modPair f).chk = s.chk := rfl
@[simp] theorem State.modPair_drv (s : State) (f : Pair → Pair) : (s.modPair f).drv = s.drv := rfl
@[simp] theorem State.modPair_cal (s : State) (f : Pair → Pair) : (s.modPair f).cal = s.cal := rfl
@[simp] theorem State.modPair_hk (s : State) (f : Pair → Pair) : (s.modPair f).hk = s.hk := rfl
@[simp] theorem State.modPair_sys (s : State) (f : Pair → Pair) : (s.modPair f).sys = s.sys := rfl
@[simp] theorem State.modPair_upd (s : State) (f : Pair → Pair) : (s.modPair f).upd = s.upd := rfl
@[simp] theorem State.modPair_tap (s : State) (f : Pair → Pair) : (s.modPair f).tap = s.tap := rfl
@[simp] theorem State.modPair_free (s : State) (f : Pair → Pair) : (s.modPair f).free = s.free := rfl
@[simp] theorem State.modPair_out (s : State) (f : Pair → Pair) : (s.modPair f).out = s.out := rfl
@[simp] theorem State.modPair_pending (s : State) (f : Pair → Pair) : (s.modPair f).pending = s.pending := rfl

@[simp] theorem State.setLease_strap (s : State) (r : Nat) (x : Lease) : (s.setLease r x).strap = s.strap := rfl
@[simp] theorem State.setLease_now (s : State) (r : Nat) (x : Lease) : (s.setLease r x).now = s.now := rfl
@[simp] theorem State.setLease_regs (s : State) (r : Nat) (x : Lease) : (s.setLease r x).regs = s.regs := rfl
@[simp] theorem State.setLease_latch (s : State) (r : Nat) (x : Lease) : (s.setLease r x).latch = s.latch := rfl
@[simp] theorem State.setLease_lastAt (s : State) (r : Nat) (x : Lease) : (s.setLease r x).lastAt = s.lastAt := rfl
@[simp] theorem State.setLease_commit (s : State) (r : Nat) (x : Lease) : (s.setLease r x).commit = s.commit := rfl
@[simp] theorem State.setLease_evc (s : State) (r : Nat) (x : Lease) : (s.setLease r x).evc = s.evc := rfl
@[simp] theorem State.setLease_obs (s : State) (r : Nat) (x : Lease) : (s.setLease r x).obs = s.obs := rfl
@[simp] theorem State.setLease_ports (s : State) (r : Nat) (x : Lease) : (s.setLease r x).ports = s.ports := rfl
@[simp] theorem State.setLease_line (s : State) (r : Nat) (x : Lease) : (s.setLease r x).line = s.line := rfl
@[simp] theorem State.setLease_ring (s : State) (r : Nat) (x : Lease) : (s.setLease r x).ring = s.ring := rfl
@[simp] theorem State.setLease_wt (s : State) (r : Nat) (x : Lease) : (s.setLease r x).wt = s.wt := rfl
@[simp] theorem State.setLease_xa (s : State) (r : Nat) (x : Lease) : (s.setLease r x).xa = s.xa := rfl
@[simp] theorem State.setLease_hif (s : State) (r : Nat) (x : Lease) : (s.setLease r x).hif = s.hif := rfl
@[simp] theorem State.setLease_dram (s : State) (r : Nat) (x : Lease) : (s.setLease r x).dram = s.dram := rfl
@[simp] theorem State.setLease_ni (s : State) (r : Nat) (x : Lease) : (s.setLease r x).ni = s.ni := rfl
@[simp] theorem State.setLease_cmp (s : State) (r : Nat) (x : Lease) : (s.setLease r x).cmp = s.cmp := rfl
@[simp] theorem State.setLease_pix (s : State) (r : Nat) (x : Lease) : (s.setLease r x).pix = s.pix := rfl
@[simp] theorem State.setLease_chk (s : State) (r : Nat) (x : Lease) : (s.setLease r x).chk = s.chk := rfl
@[simp] theorem State.setLease_drv (s : State) (r : Nat) (x : Lease) : (s.setLease r x).drv = s.drv := rfl
@[simp] theorem State.setLease_cal (s : State) (r : Nat) (x : Lease) : (s.setLease r x).cal = s.cal := rfl
@[simp] theorem State.setLease_hk (s : State) (r : Nat) (x : Lease) : (s.setLease r x).hk = s.hk := rfl
@[simp] theorem State.setLease_sys (s : State) (r : Nat) (x : Lease) : (s.setLease r x).sys = s.sys := rfl
@[simp] theorem State.setLease_upd (s : State) (r : Nat) (x : Lease) : (s.setLease r x).upd = s.upd := rfl
@[simp] theorem State.setLease_tap (s : State) (r : Nat) (x : Lease) : (s.setLease r x).tap = s.tap := rfl
@[simp] theorem State.setLease_free (s : State) (r : Nat) (x : Lease) : (s.setLease r x).free = s.free := rfl
@[simp] theorem State.setLease_out (s : State) (r : Nat) (x : Lease) : (s.setLease r x).out = s.out := rfl
@[simp] theorem State.setLease_pending (s : State) (r : Nat) (x : Lease) : (s.setLease r x).pending = s.pending := rfl

@[simp] theorem State.setChan_strap (s : State) (u : Bool) (c : Chan) : (s.setChan u c).strap = s.strap := rfl
@[simp] theorem State.setChan_now (s : State) (u : Bool) (c : Chan) : (s.setChan u c).now = s.now := rfl
@[simp] theorem State.setChan_regs (s : State) (u : Bool) (c : Chan) : (s.setChan u c).regs = s.regs := rfl
@[simp] theorem State.setChan_latch (s : State) (u : Bool) (c : Chan) : (s.setChan u c).latch = s.latch := rfl
@[simp] theorem State.setChan_lastAt (s : State) (u : Bool) (c : Chan) : (s.setChan u c).lastAt = s.lastAt := rfl
@[simp] theorem State.setChan_commit (s : State) (u : Bool) (c : Chan) : (s.setChan u c).commit = s.commit := rfl
@[simp] theorem State.setChan_evc (s : State) (u : Bool) (c : Chan) : (s.setChan u c).evc = s.evc := rfl
@[simp] theorem State.setChan_obs (s : State) (u : Bool) (c : Chan) : (s.setChan u c).obs = s.obs := rfl
@[simp] theorem State.setChan_ports (s : State) (u : Bool) (c : Chan) : (s.setChan u c).ports = s.ports := rfl
@[simp] theorem State.setChan_line (s : State) (u : Bool) (c : Chan) : (s.setChan u c).line = s.line := rfl
@[simp] theorem State.setChan_ring (s : State) (u : Bool) (c : Chan) : (s.setChan u c).ring = s.ring := rfl
@[simp] theorem State.setChan_wt (s : State) (u : Bool) (c : Chan) : (s.setChan u c).wt = s.wt := rfl
@[simp] theorem State.setChan_xa (s : State) (u : Bool) (c : Chan) : (s.setChan u c).xa = s.xa := rfl
@[simp] theorem State.setChan_hif (s : State) (u : Bool) (c : Chan) : (s.setChan u c).hif = s.hif := rfl
@[simp] theorem State.setChan_dram (s : State) (u : Bool) (c : Chan) : (s.setChan u c).dram = s.dram := rfl
@[simp] theorem State.setChan_ni (s : State) (u : Bool) (c : Chan) : (s.setChan u c).ni = s.ni := rfl
@[simp] theorem State.setChan_cmp (s : State) (u : Bool) (c : Chan) : (s.setChan u c).cmp = s.cmp := rfl
@[simp] theorem State.setChan_pix (s : State) (u : Bool) (c : Chan) : (s.setChan u c).pix = s.pix := rfl
@[simp] theorem State.setChan_chk (s : State) (u : Bool) (c : Chan) : (s.setChan u c).chk = s.chk := rfl
@[simp] theorem State.setChan_drv (s : State) (u : Bool) (c : Chan) : (s.setChan u c).drv = s.drv := rfl
@[simp] theorem State.setChan_cal (s : State) (u : Bool) (c : Chan) : (s.setChan u c).cal = s.cal := rfl
@[simp] theorem State.setChan_hk (s : State) (u : Bool) (c : Chan) : (s.setChan u c).hk = s.hk := rfl
@[simp] theorem State.setChan_sys (s : State) (u : Bool) (c : Chan) : (s.setChan u c).sys = s.sys := rfl
@[simp] theorem State.setChan_upd (s : State) (u : Bool) (c : Chan) : (s.setChan u c).upd = s.upd := rfl
@[simp] theorem State.setChan_tap (s : State) (u : Bool) (c : Chan) : (s.setChan u c).tap = s.tap := rfl
@[simp] theorem State.setChan_free (s : State) (u : Bool) (c : Chan) : (s.setChan u c).free = s.free := rfl
@[simp] theorem State.setChan_out (s : State) (u : Bool) (c : Chan) : (s.setChan u c).out = s.out := rfl
@[simp] theorem State.setChan_pending (s : State) (u : Bool) (c : Chan) : (s.setChan u c).pending = s.pending := rfl

@[simp] theorem State.modHif_strap (s : State) (f : Hif → Hif) : (s.modHif f).strap = s.strap := rfl
@[simp] theorem State.modHif_now (s : State) (f : Hif → Hif) : (s.modHif f).now = s.now := rfl
@[simp] theorem State.modHif_regs (s : State) (f : Hif → Hif) : (s.modHif f).regs = s.regs := rfl
@[simp] theorem State.modHif_latch (s : State) (f : Hif → Hif) : (s.modHif f).latch = s.latch := rfl
@[simp] theorem State.modHif_lastAt (s : State) (f : Hif → Hif) : (s.modHif f).lastAt = s.lastAt := rfl
@[simp] theorem State.modHif_commit (s : State) (f : Hif → Hif) : (s.modHif f).commit = s.commit := rfl
@[simp] theorem State.modHif_evc (s : State) (f : Hif → Hif) : (s.modHif f).evc = s.evc := rfl
@[simp] theorem State.modHif_obs (s : State) (f : Hif → Hif) : (s.modHif f).obs = s.obs := rfl
@[simp] theorem State.modHif_ports (s : State) (f : Hif → Hif) : (s.modHif f).ports = s.ports := rfl
@[simp] theorem State.modHif_line (s : State) (f : Hif → Hif) : (s.modHif f).line = s.line := rfl
@[simp] theorem State.modHif_ring (s : State) (f : Hif → Hif) : (s.modHif f).ring = s.ring := rfl
@[simp] theorem State.modHif_wt (s : State) (f : Hif → Hif) : (s.modHif f).wt = s.wt := rfl
@[simp] theorem State.modHif_xa (s : State) (f : Hif → Hif) : (s.modHif f).xa = s.xa := rfl
@[simp] theorem State.modHif_dram (s : State) (f : Hif → Hif) : (s.modHif f).dram = s.dram := rfl
@[simp] theorem State.modHif_pair (s : State) (f : Hif → Hif) : (s.modHif f).pair = s.pair := rfl
@[simp] theorem State.modHif_ni (s : State) (f : Hif → Hif) : (s.modHif f).ni = s.ni := rfl
@[simp] theorem State.modHif_cmp (s : State) (f : Hif → Hif) : (s.modHif f).cmp = s.cmp := rfl
@[simp] theorem State.modHif_pix (s : State) (f : Hif → Hif) : (s.modHif f).pix = s.pix := rfl
@[simp] theorem State.modHif_chk (s : State) (f : Hif → Hif) : (s.modHif f).chk = s.chk := rfl
@[simp] theorem State.modHif_drv (s : State) (f : Hif → Hif) : (s.modHif f).drv = s.drv := rfl
@[simp] theorem State.modHif_cal (s : State) (f : Hif → Hif) : (s.modHif f).cal = s.cal := rfl
@[simp] theorem State.modHif_hk (s : State) (f : Hif → Hif) : (s.modHif f).hk = s.hk := rfl
@[simp] theorem State.modHif_sys (s : State) (f : Hif → Hif) : (s.modHif f).sys = s.sys := rfl
@[simp] theorem State.modHif_upd (s : State) (f : Hif → Hif) : (s.modHif f).upd = s.upd := rfl
@[simp] theorem State.modHif_tap (s : State) (f : Hif → Hif) : (s.modHif f).tap = s.tap := rfl
@[simp] theorem State.modHif_free (s : State) (f : Hif → Hif) : (s.modHif f).free = s.free := rfl
@[simp] theorem State.modHif_out (s : State) (f : Hif → Hif) : (s.modHif f).out = s.out := rfl
@[simp] theorem State.modHif_pending (s : State) (f : Hif → Hif) : (s.modHif f).pending = s.pending := rfl

@[simp] theorem State.setJob_strap (s : State) (j : Job) : (s.setJob j).strap = s.strap := rfl
@[simp] theorem State.setJob_now (s : State) (j : Job) : (s.setJob j).now = s.now := rfl
@[simp] theorem State.setJob_regs (s : State) (j : Job) : (s.setJob j).regs = s.regs := rfl
@[simp] theorem State.setJob_latch (s : State) (j : Job) : (s.setJob j).latch = s.latch := rfl
@[simp] theorem State.setJob_lastAt (s : State) (j : Job) : (s.setJob j).lastAt = s.lastAt := rfl
@[simp] theorem State.setJob_commit (s : State) (j : Job) : (s.setJob j).commit = s.commit := rfl
@[simp] theorem State.setJob_evc (s : State) (j : Job) : (s.setJob j).evc = s.evc := rfl
@[simp] theorem State.setJob_obs (s : State) (j : Job) : (s.setJob j).obs = s.obs := rfl
@[simp] theorem State.setJob_ports (s : State) (j : Job) : (s.setJob j).ports = s.ports := rfl
@[simp] theorem State.setJob_line (s : State) (j : Job) : (s.setJob j).line = s.line := rfl
@[simp] theorem State.setJob_ring (s : State) (j : Job) : (s.setJob j).ring = s.ring := rfl
@[simp] theorem State.setJob_wt (s : State) (j : Job) : (s.setJob j).wt = s.wt := rfl
@[simp] theorem State.setJob_xa (s : State) (j : Job) : (s.setJob j).xa = s.xa := rfl
@[simp] theorem State.setJob_dram (s : State) (j : Job) : (s.setJob j).dram = s.dram := rfl
@[simp] theorem State.setJob_pair (s : State) (j : Job) : (s.setJob j).pair = s.pair := rfl
@[simp] theorem State.setJob_ni (s : State) (j : Job) : (s.setJob j).ni = s.ni := rfl
@[simp] theorem State.setJob_cmp (s : State) (j : Job) : (s.setJob j).cmp = s.cmp := rfl
@[simp] theorem State.setJob_pix (s : State) (j : Job) : (s.setJob j).pix = s.pix := rfl
@[simp] theorem State.setJob_chk (s : State) (j : Job) : (s.setJob j).chk = s.chk := rfl
@[simp] theorem State.setJob_drv (s : State) (j : Job) : (s.setJob j).drv = s.drv := rfl
@[simp] theorem State.setJob_cal (s : State) (j : Job) : (s.setJob j).cal = s.cal := rfl
@[simp] theorem State.setJob_hk (s : State) (j : Job) : (s.setJob j).hk = s.hk := rfl
@[simp] theorem State.setJob_sys (s : State) (j : Job) : (s.setJob j).sys = s.sys := rfl
@[simp] theorem State.setJob_upd (s : State) (j : Job) : (s.setJob j).upd = s.upd := rfl
@[simp] theorem State.setJob_tap (s : State) (j : Job) : (s.setJob j).tap = s.tap := rfl
@[simp] theorem State.setJob_free (s : State) (j : Job) : (s.setJob j).free = s.free := rfl
@[simp] theorem State.setJob_out (s : State) (j : Job) : (s.setJob j).out = s.out := rfl
@[simp] theorem State.setJob_pending (s : State) (j : Job) : (s.setJob j).pending = s.pending := rfl

@[simp] theorem State.setDch_strap (s : State) (c : Nat) (x : DramChan) : (s.setDch c x).strap = s.strap := rfl
@[simp] theorem State.setDch_now (s : State) (c : Nat) (x : DramChan) : (s.setDch c x).now = s.now := rfl
@[simp] theorem State.setDch_regs (s : State) (c : Nat) (x : DramChan) : (s.setDch c x).regs = s.regs := rfl
@[simp] theorem State.setDch_latch (s : State) (c : Nat) (x : DramChan) : (s.setDch c x).latch = s.latch := rfl
@[simp] theorem State.setDch_lastAt (s : State) (c : Nat) (x : DramChan) : (s.setDch c x).lastAt = s.lastAt := rfl
@[simp] theorem State.setDch_commit (s : State) (c : Nat) (x : DramChan) : (s.setDch c x).commit = s.commit := rfl
@[simp] theorem State.setDch_evc (s : State) (c : Nat) (x : DramChan) : (s.setDch c x).evc = s.evc := rfl
@[simp] theorem State.setDch_obs (s : State) (c : Nat) (x : DramChan) : (s.setDch c x).obs = s.obs := rfl
@[simp] theorem State.setDch_ports (s : State) (c : Nat) (x : DramChan) : (s.setDch c x).ports = s.ports := rfl
@[simp] theorem State.setDch_line (s : State) (c : Nat) (x : DramChan) : (s.setDch c x).line = s.line := rfl
@[simp] theorem State.setDch_ring (s : State) (c : Nat) (x : DramChan) : (s.setDch c x).ring = s.ring := rfl
@[simp] theorem State.setDch_wt (s : State) (c : Nat) (x : DramChan) : (s.setDch c x).wt = s.wt := rfl
@[simp] theorem State.setDch_xa (s : State) (c : Nat) (x : DramChan) : (s.setDch c x).xa = s.xa := rfl
@[simp] theorem State.setDch_hif (s : State) (c : Nat) (x : DramChan) : (s.setDch c x).hif = s.hif := rfl
@[simp] theorem State.setDch_pair (s : State) (c : Nat) (x : DramChan) : (s.setDch c x).pair = s.pair := rfl
@[simp] theorem State.setDch_ni (s : State) (c : Nat) (x : DramChan) : (s.setDch c x).ni = s.ni := rfl
@[simp] theorem State.setDch_cmp (s : State) (c : Nat) (x : DramChan) : (s.setDch c x).cmp = s.cmp := rfl
@[simp] theorem State.setDch_pix (s : State) (c : Nat) (x : DramChan) : (s.setDch c x).pix = s.pix := rfl
@[simp] theorem State.setDch_chk (s : State) (c : Nat) (x : DramChan) : (s.setDch c x).chk = s.chk := rfl
@[simp] theorem State.setDch_drv (s : State) (c : Nat) (x : DramChan) : (s.setDch c x).drv = s.drv := rfl
@[simp] theorem State.setDch_cal (s : State) (c : Nat) (x : DramChan) : (s.setDch c x).cal = s.cal := rfl
@[simp] theorem State.setDch_hk (s : State) (c : Nat) (x : DramChan) : (s.setDch c x).hk = s.hk := rfl
@[simp] theorem State.setDch_sys (s : State) (c : Nat) (x : DramChan) : (s.setDch c x).sys = s.sys := rfl
@[simp] theorem State.setDch_upd (s : State) (c : Nat) (x : DramChan) : (s.setDch c x).upd = s.upd := rfl
@[simp] theorem State.setDch_tap (s : State) (c : Nat) (x : DramChan) : (s.setDch c x).tap = s.tap := rfl
@[simp] theorem State.setDch_free (s : State) (c : Nat) (x : DramChan) : (s.setDch c x).free = s.free := rfl
@[simp] theorem State.setDch_out (s : State) (c : Nat) (x : DramChan) : (s.setDch c x).out = s.out := rfl
@[simp] theorem State.setDch_pending (s : State) (c : Nat) (x : DramChan) : (s.setDch c x).pending = s.pending := rfl

@[simp] theorem State.modNi_strap (s : State) (f : Ni → Ni) : (s.modNi f).strap = s.strap := rfl
@[simp] theorem State.modNi_now (s : State) (f : Ni → Ni) : (s.modNi f).now = s.now := rfl
@[simp] theorem State.modNi_regs (s : State) (f : Ni → Ni) : (s.modNi f).regs = s.regs := rfl
@[simp] theorem State.modNi_latch (s : State) (f : Ni → Ni) : (s.modNi f).latch = s.latch := rfl
@[simp] theorem State.modNi_lastAt (s : State) (f : Ni → Ni) : (s.modNi f).lastAt = s.lastAt := rfl
@[simp] theorem State.modNi_commit (s : State) (f : Ni → Ni) : (s.modNi f).commit = s.commit := rfl
@[simp] theorem State.modNi_evc (s : State) (f : Ni → Ni) : (s.modNi f).evc = s.evc := rfl
@[simp] theorem State.modNi_obs (s : State) (f : Ni → Ni) : (s.modNi f).obs = s.obs := rfl
@[simp] theorem State.modNi_ports (s : State) (f : Ni → Ni) : (s.modNi f).ports = s.ports := rfl
@[simp] theorem State.modNi_line (s : State) (f : Ni → Ni) : (s.modNi f).line = s.line := rfl
@[simp] theorem State.modNi_ring (s : State) (f : Ni → Ni) : (s.modNi f).ring = s.ring := rfl
@[simp] theorem State.modNi_wt (s : State) (f : Ni → Ni) : (s.modNi f).wt = s.wt := rfl
@[simp] theorem State.modNi_xa (s : State) (f : Ni → Ni) : (s.modNi f).xa = s.xa := rfl
@[simp] theorem State.modNi_hif (s : State) (f : Ni → Ni) : (s.modNi f).hif = s.hif := rfl
@[simp] theorem State.modNi_dram (s : State) (f : Ni → Ni) : (s.modNi f).dram = s.dram := rfl
@[simp] theorem State.modNi_pair (s : State) (f : Ni → Ni) : (s.modNi f).pair = s.pair := rfl
@[simp] theorem State.modNi_cmp (s : State) (f : Ni → Ni) : (s.modNi f).cmp = s.cmp := rfl
@[simp] theorem State.modNi_pix (s : State) (f : Ni → Ni) : (s.modNi f).pix = s.pix := rfl
@[simp] theorem State.modNi_chk (s : State) (f : Ni → Ni) : (s.modNi f).chk = s.chk := rfl
@[simp] theorem State.modNi_drv (s : State) (f : Ni → Ni) : (s.modNi f).drv = s.drv := rfl
@[simp] theorem State.modNi_cal (s : State) (f : Ni → Ni) : (s.modNi f).cal = s.cal := rfl
@[simp] theorem State.modNi_hk (s : State) (f : Ni → Ni) : (s.modNi f).hk = s.hk := rfl
@[simp] theorem State.modNi_sys (s : State) (f : Ni → Ni) : (s.modNi f).sys = s.sys := rfl
@[simp] theorem State.modNi_upd (s : State) (f : Ni → Ni) : (s.modNi f).upd = s.upd := rfl
@[simp] theorem State.modNi_tap (s : State) (f : Ni → Ni) : (s.modNi f).tap = s.tap := rfl
@[simp] theorem State.modNi_free (s : State) (f : Ni → Ni) : (s.modNi f).free = s.free := rfl
@[simp] theorem State.modNi_out (s : State) (f : Ni → Ni) : (s.modNi f).out = s.out := rfl
@[simp] theorem State.modNi_pending (s : State) (f : Ni → Ni) : (s.modNi f).pending = s.pending := rfl

@[simp] theorem State.setFlow_strap (s : State) (f : Nat) (x : Flow) : (s.setFlow f x).strap = s.strap := rfl
@[simp] theorem State.setFlow_now (s : State) (f : Nat) (x : Flow) : (s.setFlow f x).now = s.now := rfl
@[simp] theorem State.setFlow_regs (s : State) (f : Nat) (x : Flow) : (s.setFlow f x).regs = s.regs := rfl
@[simp] theorem State.setFlow_latch (s : State) (f : Nat) (x : Flow) : (s.setFlow f x).latch = s.latch := rfl
@[simp] theorem State.setFlow_lastAt (s : State) (f : Nat) (x : Flow) : (s.setFlow f x).lastAt = s.lastAt := rfl
@[simp] theorem State.setFlow_commit (s : State) (f : Nat) (x : Flow) : (s.setFlow f x).commit = s.commit := rfl
@[simp] theorem State.setFlow_evc (s : State) (f : Nat) (x : Flow) : (s.setFlow f x).evc = s.evc := rfl
@[simp] theorem State.setFlow_obs (s : State) (f : Nat) (x : Flow) : (s.setFlow f x).obs = s.obs := rfl
@[simp] theorem State.setFlow_ports (s : State) (f : Nat) (x : Flow) : (s.setFlow f x).ports = s.ports := rfl
@[simp] theorem State.setFlow_line (s : State) (f : Nat) (x : Flow) : (s.setFlow f x).line = s.line := rfl
@[simp] theorem State.setFlow_ring (s : State) (f : Nat) (x : Flow) : (s.setFlow f x).ring = s.ring := rfl
@[simp] theorem State.setFlow_wt (s : State) (f : Nat) (x : Flow) : (s.setFlow f x).wt = s.wt := rfl
@[simp] theorem State.setFlow_xa (s : State) (f : Nat) (x : Flow) : (s.setFlow f x).xa = s.xa := rfl
@[simp] theorem State.setFlow_hif (s : State) (f : Nat) (x : Flow) : (s.setFlow f x).hif = s.hif := rfl
@[simp] theorem State.setFlow_dram (s : State) (f : Nat) (x : Flow) : (s.setFlow f x).dram = s.dram := rfl
@[simp] theorem State.setFlow_pair (s : State) (f : Nat) (x : Flow) : (s.setFlow f x).pair = s.pair := rfl
@[simp] theorem State.setFlow_cmp (s : State) (f : Nat) (x : Flow) : (s.setFlow f x).cmp = s.cmp := rfl
@[simp] theorem State.setFlow_pix (s : State) (f : Nat) (x : Flow) : (s.setFlow f x).pix = s.pix := rfl
@[simp] theorem State.setFlow_chk (s : State) (f : Nat) (x : Flow) : (s.setFlow f x).chk = s.chk := rfl
@[simp] theorem State.setFlow_drv (s : State) (f : Nat) (x : Flow) : (s.setFlow f x).drv = s.drv := rfl
@[simp] theorem State.setFlow_cal (s : State) (f : Nat) (x : Flow) : (s.setFlow f x).cal = s.cal := rfl
@[simp] theorem State.setFlow_hk (s : State) (f : Nat) (x : Flow) : (s.setFlow f x).hk = s.hk := rfl
@[simp] theorem State.setFlow_sys (s : State) (f : Nat) (x : Flow) : (s.setFlow f x).sys = s.sys := rfl
@[simp] theorem State.setFlow_upd (s : State) (f : Nat) (x : Flow) : (s.setFlow f x).upd = s.upd := rfl
@[simp] theorem State.setFlow_tap (s : State) (f : Nat) (x : Flow) : (s.setFlow f x).tap = s.tap := rfl
@[simp] theorem State.setFlow_free (s : State) (f : Nat) (x : Flow) : (s.setFlow f x).free = s.free := rfl
@[simp] theorem State.setFlow_out (s : State) (f : Nat) (x : Flow) : (s.setFlow f x).out = s.out := rfl
@[simp] theorem State.setFlow_pending (s : State) (f : Nat) (x : Flow) : (s.setFlow f x).pending = s.pending := rfl

@[simp] theorem State.modFlow_strap (s : State) (f : Nat) (g : Flow → Flow) : (s.modFlow f g).strap = s.strap := rfl
@[simp] theorem State.modFlow_now (s : State) (f : Nat) (g : Flow → Flow) : (s.modFlow f g).now = s.now := rfl
@[simp] theorem State.modFlow_regs (s : State) (f : Nat) (g : Flow → Flow) : (s.modFlow f g).regs = s.regs := rfl
@[simp] theorem State.modFlow_latch (s : State) (f : Nat) (g : Flow → Flow) : (s.modFlow f g).latch = s.latch := rfl
@[simp] theorem State.modFlow_lastAt (s : State) (f : Nat) (g : Flow → Flow) : (s.modFlow f g).lastAt = s.lastAt := rfl
@[simp] theorem State.modFlow_commit (s : State) (f : Nat) (g : Flow → Flow) : (s.modFlow f g).commit = s.commit := rfl
@[simp] theorem State.modFlow_evc (s : State) (f : Nat) (g : Flow → Flow) : (s.modFlow f g).evc = s.evc := rfl
@[simp] theorem State.modFlow_obs (s : State) (f : Nat) (g : Flow → Flow) : (s.modFlow f g).obs = s.obs := rfl
@[simp] theorem State.modFlow_ports (s : State) (f : Nat) (g : Flow → Flow) : (s.modFlow f g).ports = s.ports := rfl
@[simp] theorem State.modFlow_line (s : State) (f : Nat) (g : Flow → Flow) : (s.modFlow f g).line = s.line := rfl
@[simp] theorem State.modFlow_ring (s : State) (f : Nat) (g : Flow → Flow) : (s.modFlow f g).ring = s.ring := rfl
@[simp] theorem State.modFlow_wt (s : State) (f : Nat) (g : Flow → Flow) : (s.modFlow f g).wt = s.wt := rfl
@[simp] theorem State.modFlow_xa (s : State) (f : Nat) (g : Flow → Flow) : (s.modFlow f g).xa = s.xa := rfl
@[simp] theorem State.modFlow_hif (s : State) (f : Nat) (g : Flow → Flow) : (s.modFlow f g).hif = s.hif := rfl
@[simp] theorem State.modFlow_dram (s : State) (f : Nat) (g : Flow → Flow) : (s.modFlow f g).dram = s.dram := rfl
@[simp] theorem State.modFlow_pair (s : State) (f : Nat) (g : Flow → Flow) : (s.modFlow f g).pair = s.pair := rfl
@[simp] theorem State.modFlow_cmp (s : State) (f : Nat) (g : Flow → Flow) : (s.modFlow f g).cmp = s.cmp := rfl
@[simp] theorem State.modFlow_pix (s : State) (f : Nat) (g : Flow → Flow) : (s.modFlow f g).pix = s.pix := rfl
@[simp] theorem State.modFlow_chk (s : State) (f : Nat) (g : Flow → Flow) : (s.modFlow f g).chk = s.chk := rfl
@[simp] theorem State.modFlow_drv (s : State) (f : Nat) (g : Flow → Flow) : (s.modFlow f g).drv = s.drv := rfl
@[simp] theorem State.modFlow_cal (s : State) (f : Nat) (g : Flow → Flow) : (s.modFlow f g).cal = s.cal := rfl
@[simp] theorem State.modFlow_hk (s : State) (f : Nat) (g : Flow → Flow) : (s.modFlow f g).hk = s.hk := rfl
@[simp] theorem State.modFlow_sys (s : State) (f : Nat) (g : Flow → Flow) : (s.modFlow f g).sys = s.sys := rfl
@[simp] theorem State.modFlow_upd (s : State) (f : Nat) (g : Flow → Flow) : (s.modFlow f g).upd = s.upd := rfl
@[simp] theorem State.modFlow_tap (s : State) (f : Nat) (g : Flow → Flow) : (s.modFlow f g).tap = s.tap := rfl
@[simp] theorem State.modFlow_free (s : State) (f : Nat) (g : Flow → Flow) : (s.modFlow f g).free = s.free := rfl
@[simp] theorem State.modFlow_out (s : State) (f : Nat) (g : Flow → Flow) : (s.modFlow f g).out = s.out := rfl
@[simp] theorem State.modFlow_pending (s : State) (f : Nat) (g : Flow → Flow) : (s.modFlow f g).pending = s.pending := rfl

@[simp] theorem State.modCmp_strap (s : State) (f : Cmp → Cmp) : (s.modCmp f).strap = s.strap := rfl
@[simp] theorem State.modCmp_now (s : State) (f : Cmp → Cmp) : (s.modCmp f).now = s.now := rfl
@[simp] theorem State.modCmp_regs (s : State) (f : Cmp → Cmp) : (s.modCmp f).regs = s.regs := rfl
@[simp] theorem State.modCmp_latch (s : State) (f : Cmp → Cmp) : (s.modCmp f).latch = s.latch := rfl
@[simp] theorem State.modCmp_lastAt (s : State) (f : Cmp → Cmp) : (s.modCmp f).lastAt = s.lastAt := rfl
@[simp] theorem State.modCmp_commit (s : State) (f : Cmp → Cmp) : (s.modCmp f).commit = s.commit := rfl
@[simp] theorem State.modCmp_evc (s : State) (f : Cmp → Cmp) : (s.modCmp f).evc = s.evc := rfl
@[simp] theorem State.modCmp_obs (s : State) (f : Cmp → Cmp) : (s.modCmp f).obs = s.obs := rfl
@[simp] theorem State.modCmp_ports (s : State) (f : Cmp → Cmp) : (s.modCmp f).ports = s.ports := rfl
@[simp] theorem State.modCmp_line (s : State) (f : Cmp → Cmp) : (s.modCmp f).line = s.line := rfl
@[simp] theorem State.modCmp_ring (s : State) (f : Cmp → Cmp) : (s.modCmp f).ring = s.ring := rfl
@[simp] theorem State.modCmp_wt (s : State) (f : Cmp → Cmp) : (s.modCmp f).wt = s.wt := rfl
@[simp] theorem State.modCmp_xa (s : State) (f : Cmp → Cmp) : (s.modCmp f).xa = s.xa := rfl
@[simp] theorem State.modCmp_hif (s : State) (f : Cmp → Cmp) : (s.modCmp f).hif = s.hif := rfl
@[simp] theorem State.modCmp_dram (s : State) (f : Cmp → Cmp) : (s.modCmp f).dram = s.dram := rfl
@[simp] theorem State.modCmp_pair (s : State) (f : Cmp → Cmp) : (s.modCmp f).pair = s.pair := rfl
@[simp] theorem State.modCmp_ni (s : State) (f : Cmp → Cmp) : (s.modCmp f).ni = s.ni := rfl
@[simp] theorem State.modCmp_pix (s : State) (f : Cmp → Cmp) : (s.modCmp f).pix = s.pix := rfl
@[simp] theorem State.modCmp_chk (s : State) (f : Cmp → Cmp) : (s.modCmp f).chk = s.chk := rfl
@[simp] theorem State.modCmp_drv (s : State) (f : Cmp → Cmp) : (s.modCmp f).drv = s.drv := rfl
@[simp] theorem State.modCmp_cal (s : State) (f : Cmp → Cmp) : (s.modCmp f).cal = s.cal := rfl
@[simp] theorem State.modCmp_hk (s : State) (f : Cmp → Cmp) : (s.modCmp f).hk = s.hk := rfl
@[simp] theorem State.modCmp_sys (s : State) (f : Cmp → Cmp) : (s.modCmp f).sys = s.sys := rfl
@[simp] theorem State.modCmp_upd (s : State) (f : Cmp → Cmp) : (s.modCmp f).upd = s.upd := rfl
@[simp] theorem State.modCmp_tap (s : State) (f : Cmp → Cmp) : (s.modCmp f).tap = s.tap := rfl
@[simp] theorem State.modCmp_free (s : State) (f : Cmp → Cmp) : (s.modCmp f).free = s.free := rfl
@[simp] theorem State.modCmp_out (s : State) (f : Cmp → Cmp) : (s.modCmp f).out = s.out := rfl
@[simp] theorem State.modCmp_pending (s : State) (f : Cmp → Cmp) : (s.modCmp f).pending = s.pending := rfl

@[simp] theorem State.setLayer_strap (s : State) (r l : Nat) (x : CLayer) : (s.setLayer r l x).strap = s.strap := rfl
@[simp] theorem State.setLayer_now (s : State) (r l : Nat) (x : CLayer) : (s.setLayer r l x).now = s.now := rfl
@[simp] theorem State.setLayer_regs (s : State) (r l : Nat) (x : CLayer) : (s.setLayer r l x).regs = s.regs := rfl
@[simp] theorem State.setLayer_latch (s : State) (r l : Nat) (x : CLayer) : (s.setLayer r l x).latch = s.latch := rfl
@[simp] theorem State.setLayer_lastAt (s : State) (r l : Nat) (x : CLayer) : (s.setLayer r l x).lastAt = s.lastAt := rfl
@[simp] theorem State.setLayer_commit (s : State) (r l : Nat) (x : CLayer) : (s.setLayer r l x).commit = s.commit := rfl
@[simp] theorem State.setLayer_evc (s : State) (r l : Nat) (x : CLayer) : (s.setLayer r l x).evc = s.evc := rfl
@[simp] theorem State.setLayer_obs (s : State) (r l : Nat) (x : CLayer) : (s.setLayer r l x).obs = s.obs := rfl
@[simp] theorem State.setLayer_ports (s : State) (r l : Nat) (x : CLayer) : (s.setLayer r l x).ports = s.ports := rfl
@[simp] theorem State.setLayer_line (s : State) (r l : Nat) (x : CLayer) : (s.setLayer r l x).line = s.line := rfl
@[simp] theorem State.setLayer_ring (s : State) (r l : Nat) (x : CLayer) : (s.setLayer r l x).ring = s.ring := rfl
@[simp] theorem State.setLayer_wt (s : State) (r l : Nat) (x : CLayer) : (s.setLayer r l x).wt = s.wt := rfl
@[simp] theorem State.setLayer_xa (s : State) (r l : Nat) (x : CLayer) : (s.setLayer r l x).xa = s.xa := rfl
@[simp] theorem State.setLayer_hif (s : State) (r l : Nat) (x : CLayer) : (s.setLayer r l x).hif = s.hif := rfl
@[simp] theorem State.setLayer_dram (s : State) (r l : Nat) (x : CLayer) : (s.setLayer r l x).dram = s.dram := rfl
@[simp] theorem State.setLayer_pair (s : State) (r l : Nat) (x : CLayer) : (s.setLayer r l x).pair = s.pair := rfl
@[simp] theorem State.setLayer_ni (s : State) (r l : Nat) (x : CLayer) : (s.setLayer r l x).ni = s.ni := rfl
@[simp] theorem State.setLayer_pix (s : State) (r l : Nat) (x : CLayer) : (s.setLayer r l x).pix = s.pix := rfl
@[simp] theorem State.setLayer_chk (s : State) (r l : Nat) (x : CLayer) : (s.setLayer r l x).chk = s.chk := rfl
@[simp] theorem State.setLayer_drv (s : State) (r l : Nat) (x : CLayer) : (s.setLayer r l x).drv = s.drv := rfl
@[simp] theorem State.setLayer_cal (s : State) (r l : Nat) (x : CLayer) : (s.setLayer r l x).cal = s.cal := rfl
@[simp] theorem State.setLayer_hk (s : State) (r l : Nat) (x : CLayer) : (s.setLayer r l x).hk = s.hk := rfl
@[simp] theorem State.setLayer_sys (s : State) (r l : Nat) (x : CLayer) : (s.setLayer r l x).sys = s.sys := rfl
@[simp] theorem State.setLayer_upd (s : State) (r l : Nat) (x : CLayer) : (s.setLayer r l x).upd = s.upd := rfl
@[simp] theorem State.setLayer_tap (s : State) (r l : Nat) (x : CLayer) : (s.setLayer r l x).tap = s.tap := rfl
@[simp] theorem State.setLayer_free (s : State) (r l : Nat) (x : CLayer) : (s.setLayer r l x).free = s.free := rfl
@[simp] theorem State.setLayer_out (s : State) (r l : Nat) (x : CLayer) : (s.setLayer r l x).out = s.out := rfl
@[simp] theorem State.setLayer_pending (s : State) (r l : Nat) (x : CLayer) : (s.setLayer r l x).pending = s.pending := rfl

@[simp] theorem State.setWin_strap (s : State) (r : Nat) (x : SendWin) : (s.setWin r x).strap = s.strap := rfl
@[simp] theorem State.setWin_now (s : State) (r : Nat) (x : SendWin) : (s.setWin r x).now = s.now := rfl
@[simp] theorem State.setWin_regs (s : State) (r : Nat) (x : SendWin) : (s.setWin r x).regs = s.regs := rfl
@[simp] theorem State.setWin_latch (s : State) (r : Nat) (x : SendWin) : (s.setWin r x).latch = s.latch := rfl
@[simp] theorem State.setWin_lastAt (s : State) (r : Nat) (x : SendWin) : (s.setWin r x).lastAt = s.lastAt := rfl
@[simp] theorem State.setWin_commit (s : State) (r : Nat) (x : SendWin) : (s.setWin r x).commit = s.commit := rfl
@[simp] theorem State.setWin_evc (s : State) (r : Nat) (x : SendWin) : (s.setWin r x).evc = s.evc := rfl
@[simp] theorem State.setWin_obs (s : State) (r : Nat) (x : SendWin) : (s.setWin r x).obs = s.obs := rfl
@[simp] theorem State.setWin_ports (s : State) (r : Nat) (x : SendWin) : (s.setWin r x).ports = s.ports := rfl
@[simp] theorem State.setWin_line (s : State) (r : Nat) (x : SendWin) : (s.setWin r x).line = s.line := rfl
@[simp] theorem State.setWin_ring (s : State) (r : Nat) (x : SendWin) : (s.setWin r x).ring = s.ring := rfl
@[simp] theorem State.setWin_wt (s : State) (r : Nat) (x : SendWin) : (s.setWin r x).wt = s.wt := rfl
@[simp] theorem State.setWin_xa (s : State) (r : Nat) (x : SendWin) : (s.setWin r x).xa = s.xa := rfl
@[simp] theorem State.setWin_hif (s : State) (r : Nat) (x : SendWin) : (s.setWin r x).hif = s.hif := rfl
@[simp] theorem State.setWin_dram (s : State) (r : Nat) (x : SendWin) : (s.setWin r x).dram = s.dram := rfl
@[simp] theorem State.setWin_pair (s : State) (r : Nat) (x : SendWin) : (s.setWin r x).pair = s.pair := rfl
@[simp] theorem State.setWin_ni (s : State) (r : Nat) (x : SendWin) : (s.setWin r x).ni = s.ni := rfl
@[simp] theorem State.setWin_pix (s : State) (r : Nat) (x : SendWin) : (s.setWin r x).pix = s.pix := rfl
@[simp] theorem State.setWin_chk (s : State) (r : Nat) (x : SendWin) : (s.setWin r x).chk = s.chk := rfl
@[simp] theorem State.setWin_drv (s : State) (r : Nat) (x : SendWin) : (s.setWin r x).drv = s.drv := rfl
@[simp] theorem State.setWin_cal (s : State) (r : Nat) (x : SendWin) : (s.setWin r x).cal = s.cal := rfl
@[simp] theorem State.setWin_hk (s : State) (r : Nat) (x : SendWin) : (s.setWin r x).hk = s.hk := rfl
@[simp] theorem State.setWin_sys (s : State) (r : Nat) (x : SendWin) : (s.setWin r x).sys = s.sys := rfl
@[simp] theorem State.setWin_upd (s : State) (r : Nat) (x : SendWin) : (s.setWin r x).upd = s.upd := rfl
@[simp] theorem State.setWin_tap (s : State) (r : Nat) (x : SendWin) : (s.setWin r x).tap = s.tap := rfl
@[simp] theorem State.setWin_free (s : State) (r : Nat) (x : SendWin) : (s.setWin r x).free = s.free := rfl
@[simp] theorem State.setWin_out (s : State) (r : Nat) (x : SendWin) : (s.setWin r x).out = s.out := rfl
@[simp] theorem State.setWin_pending (s : State) (r : Nat) (x : SendWin) : (s.setWin r x).pending = s.pending := rfl

@[simp] theorem State.modPix_strap (s : State) (f : Pix → Pix) : (s.modPix f).strap = s.strap := rfl
@[simp] theorem State.modPix_now (s : State) (f : Pix → Pix) : (s.modPix f).now = s.now := rfl
@[simp] theorem State.modPix_regs (s : State) (f : Pix → Pix) : (s.modPix f).regs = s.regs := rfl
@[simp] theorem State.modPix_latch (s : State) (f : Pix → Pix) : (s.modPix f).latch = s.latch := rfl
@[simp] theorem State.modPix_lastAt (s : State) (f : Pix → Pix) : (s.modPix f).lastAt = s.lastAt := rfl
@[simp] theorem State.modPix_commit (s : State) (f : Pix → Pix) : (s.modPix f).commit = s.commit := rfl
@[simp] theorem State.modPix_evc (s : State) (f : Pix → Pix) : (s.modPix f).evc = s.evc := rfl
@[simp] theorem State.modPix_obs (s : State) (f : Pix → Pix) : (s.modPix f).obs = s.obs := rfl
@[simp] theorem State.modPix_ports (s : State) (f : Pix → Pix) : (s.modPix f).ports = s.ports := rfl
@[simp] theorem State.modPix_line (s : State) (f : Pix → Pix) : (s.modPix f).line = s.line := rfl
@[simp] theorem State.modPix_ring (s : State) (f : Pix → Pix) : (s.modPix f).ring = s.ring := rfl
@[simp] theorem State.modPix_wt (s : State) (f : Pix → Pix) : (s.modPix f).wt = s.wt := rfl
@[simp] theorem State.modPix_xa (s : State) (f : Pix → Pix) : (s.modPix f).xa = s.xa := rfl
@[simp] theorem State.modPix_hif (s : State) (f : Pix → Pix) : (s.modPix f).hif = s.hif := rfl
@[simp] theorem State.modPix_dram (s : State) (f : Pix → Pix) : (s.modPix f).dram = s.dram := rfl
@[simp] theorem State.modPix_pair (s : State) (f : Pix → Pix) : (s.modPix f).pair = s.pair := rfl
@[simp] theorem State.modPix_ni (s : State) (f : Pix → Pix) : (s.modPix f).ni = s.ni := rfl
@[simp] theorem State.modPix_cmp (s : State) (f : Pix → Pix) : (s.modPix f).cmp = s.cmp := rfl
@[simp] theorem State.modPix_chk (s : State) (f : Pix → Pix) : (s.modPix f).chk = s.chk := rfl
@[simp] theorem State.modPix_drv (s : State) (f : Pix → Pix) : (s.modPix f).drv = s.drv := rfl
@[simp] theorem State.modPix_cal (s : State) (f : Pix → Pix) : (s.modPix f).cal = s.cal := rfl
@[simp] theorem State.modPix_hk (s : State) (f : Pix → Pix) : (s.modPix f).hk = s.hk := rfl
@[simp] theorem State.modPix_sys (s : State) (f : Pix → Pix) : (s.modPix f).sys = s.sys := rfl
@[simp] theorem State.modPix_upd (s : State) (f : Pix → Pix) : (s.modPix f).upd = s.upd := rfl
@[simp] theorem State.modPix_tap (s : State) (f : Pix → Pix) : (s.modPix f).tap = s.tap := rfl
@[simp] theorem State.modPix_free (s : State) (f : Pix → Pix) : (s.modPix f).free = s.free := rfl
@[simp] theorem State.modPix_out (s : State) (f : Pix → Pix) : (s.modPix f).out = s.out := rfl
@[simp] theorem State.modPix_pending (s : State) (f : Pix → Pix) : (s.modPix f).pending = s.pending := rfl

@[simp] theorem State.setBank_strap (s : State) (b : Bool) (x : Bank) : (s.setBank b x).strap = s.strap := rfl
@[simp] theorem State.setBank_now (s : State) (b : Bool) (x : Bank) : (s.setBank b x).now = s.now := rfl
@[simp] theorem State.setBank_regs (s : State) (b : Bool) (x : Bank) : (s.setBank b x).regs = s.regs := rfl
@[simp] theorem State.setBank_latch (s : State) (b : Bool) (x : Bank) : (s.setBank b x).latch = s.latch := rfl
@[simp] theorem State.setBank_lastAt (s : State) (b : Bool) (x : Bank) : (s.setBank b x).lastAt = s.lastAt := rfl
@[simp] theorem State.setBank_commit (s : State) (b : Bool) (x : Bank) : (s.setBank b x).commit = s.commit := rfl
@[simp] theorem State.setBank_evc (s : State) (b : Bool) (x : Bank) : (s.setBank b x).evc = s.evc := rfl
@[simp] theorem State.setBank_obs (s : State) (b : Bool) (x : Bank) : (s.setBank b x).obs = s.obs := rfl
@[simp] theorem State.setBank_ports (s : State) (b : Bool) (x : Bank) : (s.setBank b x).ports = s.ports := rfl
@[simp] theorem State.setBank_line (s : State) (b : Bool) (x : Bank) : (s.setBank b x).line = s.line := rfl
@[simp] theorem State.setBank_ring (s : State) (b : Bool) (x : Bank) : (s.setBank b x).ring = s.ring := rfl
@[simp] theorem State.setBank_wt (s : State) (b : Bool) (x : Bank) : (s.setBank b x).wt = s.wt := rfl
@[simp] theorem State.setBank_xa (s : State) (b : Bool) (x : Bank) : (s.setBank b x).xa = s.xa := rfl
@[simp] theorem State.setBank_hif (s : State) (b : Bool) (x : Bank) : (s.setBank b x).hif = s.hif := rfl
@[simp] theorem State.setBank_dram (s : State) (b : Bool) (x : Bank) : (s.setBank b x).dram = s.dram := rfl
@[simp] theorem State.setBank_pair (s : State) (b : Bool) (x : Bank) : (s.setBank b x).pair = s.pair := rfl
@[simp] theorem State.setBank_ni (s : State) (b : Bool) (x : Bank) : (s.setBank b x).ni = s.ni := rfl
@[simp] theorem State.setBank_cmp (s : State) (b : Bool) (x : Bank) : (s.setBank b x).cmp = s.cmp := rfl
@[simp] theorem State.setBank_chk (s : State) (b : Bool) (x : Bank) : (s.setBank b x).chk = s.chk := rfl
@[simp] theorem State.setBank_drv (s : State) (b : Bool) (x : Bank) : (s.setBank b x).drv = s.drv := rfl
@[simp] theorem State.setBank_cal (s : State) (b : Bool) (x : Bank) : (s.setBank b x).cal = s.cal := rfl
@[simp] theorem State.setBank_hk (s : State) (b : Bool) (x : Bank) : (s.setBank b x).hk = s.hk := rfl
@[simp] theorem State.setBank_sys (s : State) (b : Bool) (x : Bank) : (s.setBank b x).sys = s.sys := rfl
@[simp] theorem State.setBank_upd (s : State) (b : Bool) (x : Bank) : (s.setBank b x).upd = s.upd := rfl
@[simp] theorem State.setBank_tap (s : State) (b : Bool) (x : Bank) : (s.setBank b x).tap = s.tap := rfl
@[simp] theorem State.setBank_free (s : State) (b : Bool) (x : Bank) : (s.setBank b x).free = s.free := rfl
@[simp] theorem State.setBank_out (s : State) (b : Bool) (x : Bank) : (s.setBank b x).out = s.out := rfl
@[simp] theorem State.setBank_pending (s : State) (b : Bool) (x : Bank) : (s.setBank b x).pending = s.pending := rfl

@[simp] theorem State.modChk_strap (s : State) (f : Chk → Chk) : (s.modChk f).strap = s.strap := rfl
@[simp] theorem State.modChk_now (s : State) (f : Chk → Chk) : (s.modChk f).now = s.now := rfl
@[simp] theorem State.modChk_regs (s : State) (f : Chk → Chk) : (s.modChk f).regs = s.regs := rfl
@[simp] theorem State.modChk_latch (s : State) (f : Chk → Chk) : (s.modChk f).latch = s.latch := rfl
@[simp] theorem State.modChk_lastAt (s : State) (f : Chk → Chk) : (s.modChk f).lastAt = s.lastAt := rfl
@[simp] theorem State.modChk_commit (s : State) (f : Chk → Chk) : (s.modChk f).commit = s.commit := rfl
@[simp] theorem State.modChk_evc (s : State) (f : Chk → Chk) : (s.modChk f).evc = s.evc := rfl
@[simp] theorem State.modChk_obs (s : State) (f : Chk → Chk) : (s.modChk f).obs = s.obs := rfl
@[simp] theorem State.modChk_ports (s : State) (f : Chk → Chk) : (s.modChk f).ports = s.ports := rfl
@[simp] theorem State.modChk_line (s : State) (f : Chk → Chk) : (s.modChk f).line = s.line := rfl
@[simp] theorem State.modChk_ring (s : State) (f : Chk → Chk) : (s.modChk f).ring = s.ring := rfl
@[simp] theorem State.modChk_wt (s : State) (f : Chk → Chk) : (s.modChk f).wt = s.wt := rfl
@[simp] theorem State.modChk_xa (s : State) (f : Chk → Chk) : (s.modChk f).xa = s.xa := rfl
@[simp] theorem State.modChk_hif (s : State) (f : Chk → Chk) : (s.modChk f).hif = s.hif := rfl
@[simp] theorem State.modChk_dram (s : State) (f : Chk → Chk) : (s.modChk f).dram = s.dram := rfl
@[simp] theorem State.modChk_pair (s : State) (f : Chk → Chk) : (s.modChk f).pair = s.pair := rfl
@[simp] theorem State.modChk_ni (s : State) (f : Chk → Chk) : (s.modChk f).ni = s.ni := rfl
@[simp] theorem State.modChk_cmp (s : State) (f : Chk → Chk) : (s.modChk f).cmp = s.cmp := rfl
@[simp] theorem State.modChk_pix (s : State) (f : Chk → Chk) : (s.modChk f).pix = s.pix := rfl
@[simp] theorem State.modChk_drv (s : State) (f : Chk → Chk) : (s.modChk f).drv = s.drv := rfl
@[simp] theorem State.modChk_cal (s : State) (f : Chk → Chk) : (s.modChk f).cal = s.cal := rfl
@[simp] theorem State.modChk_hk (s : State) (f : Chk → Chk) : (s.modChk f).hk = s.hk := rfl
@[simp] theorem State.modChk_sys (s : State) (f : Chk → Chk) : (s.modChk f).sys = s.sys := rfl
@[simp] theorem State.modChk_upd (s : State) (f : Chk → Chk) : (s.modChk f).upd = s.upd := rfl
@[simp] theorem State.modChk_tap (s : State) (f : Chk → Chk) : (s.modChk f).tap = s.tap := rfl
@[simp] theorem State.modChk_free (s : State) (f : Chk → Chk) : (s.modChk f).free = s.free := rfl
@[simp] theorem State.modChk_out (s : State) (f : Chk → Chk) : (s.modChk f).out = s.out := rfl
@[simp] theorem State.modChk_pending (s : State) (f : Chk → Chk) : (s.modChk f).pending = s.pending := rfl

@[simp] theorem State.modDrv_strap (s : State) (f : Drv → Drv) : (s.modDrv f).strap = s.strap := rfl
@[simp] theorem State.modDrv_now (s : State) (f : Drv → Drv) : (s.modDrv f).now = s.now := rfl
@[simp] theorem State.modDrv_regs (s : State) (f : Drv → Drv) : (s.modDrv f).regs = s.regs := rfl
@[simp] theorem State.modDrv_latch (s : State) (f : Drv → Drv) : (s.modDrv f).latch = s.latch := rfl
@[simp] theorem State.modDrv_lastAt (s : State) (f : Drv → Drv) : (s.modDrv f).lastAt = s.lastAt := rfl
@[simp] theorem State.modDrv_commit (s : State) (f : Drv → Drv) : (s.modDrv f).commit = s.commit := rfl
@[simp] theorem State.modDrv_evc (s : State) (f : Drv → Drv) : (s.modDrv f).evc = s.evc := rfl
@[simp] theorem State.modDrv_obs (s : State) (f : Drv → Drv) : (s.modDrv f).obs = s.obs := rfl
@[simp] theorem State.modDrv_ports (s : State) (f : Drv → Drv) : (s.modDrv f).ports = s.ports := rfl
@[simp] theorem State.modDrv_line (s : State) (f : Drv → Drv) : (s.modDrv f).line = s.line := rfl
@[simp] theorem State.modDrv_ring (s : State) (f : Drv → Drv) : (s.modDrv f).ring = s.ring := rfl
@[simp] theorem State.modDrv_wt (s : State) (f : Drv → Drv) : (s.modDrv f).wt = s.wt := rfl
@[simp] theorem State.modDrv_xa (s : State) (f : Drv → Drv) : (s.modDrv f).xa = s.xa := rfl
@[simp] theorem State.modDrv_hif (s : State) (f : Drv → Drv) : (s.modDrv f).hif = s.hif := rfl
@[simp] theorem State.modDrv_dram (s : State) (f : Drv → Drv) : (s.modDrv f).dram = s.dram := rfl
@[simp] theorem State.modDrv_pair (s : State) (f : Drv → Drv) : (s.modDrv f).pair = s.pair := rfl
@[simp] theorem State.modDrv_ni (s : State) (f : Drv → Drv) : (s.modDrv f).ni = s.ni := rfl
@[simp] theorem State.modDrv_cmp (s : State) (f : Drv → Drv) : (s.modDrv f).cmp = s.cmp := rfl
@[simp] theorem State.modDrv_pix (s : State) (f : Drv → Drv) : (s.modDrv f).pix = s.pix := rfl
@[simp] theorem State.modDrv_chk (s : State) (f : Drv → Drv) : (s.modDrv f).chk = s.chk := rfl
@[simp] theorem State.modDrv_cal (s : State) (f : Drv → Drv) : (s.modDrv f).cal = s.cal := rfl
@[simp] theorem State.modDrv_hk (s : State) (f : Drv → Drv) : (s.modDrv f).hk = s.hk := rfl
@[simp] theorem State.modDrv_sys (s : State) (f : Drv → Drv) : (s.modDrv f).sys = s.sys := rfl
@[simp] theorem State.modDrv_upd (s : State) (f : Drv → Drv) : (s.modDrv f).upd = s.upd := rfl
@[simp] theorem State.modDrv_tap (s : State) (f : Drv → Drv) : (s.modDrv f).tap = s.tap := rfl
@[simp] theorem State.modDrv_free (s : State) (f : Drv → Drv) : (s.modDrv f).free = s.free := rfl
@[simp] theorem State.modDrv_out (s : State) (f : Drv → Drv) : (s.modDrv f).out = s.out := rfl
@[simp] theorem State.modDrv_pending (s : State) (f : Drv → Drv) : (s.modDrv f).pending = s.pending := rfl

@[simp] theorem State.modRail_strap (s : State) (f : Rail → Rail) : (s.modRail f).strap = s.strap := rfl
@[simp] theorem State.modRail_now (s : State) (f : Rail → Rail) : (s.modRail f).now = s.now := rfl
@[simp] theorem State.modRail_regs (s : State) (f : Rail → Rail) : (s.modRail f).regs = s.regs := rfl
@[simp] theorem State.modRail_latch (s : State) (f : Rail → Rail) : (s.modRail f).latch = s.latch := rfl
@[simp] theorem State.modRail_lastAt (s : State) (f : Rail → Rail) : (s.modRail f).lastAt = s.lastAt := rfl
@[simp] theorem State.modRail_commit (s : State) (f : Rail → Rail) : (s.modRail f).commit = s.commit := rfl
@[simp] theorem State.modRail_evc (s : State) (f : Rail → Rail) : (s.modRail f).evc = s.evc := rfl
@[simp] theorem State.modRail_obs (s : State) (f : Rail → Rail) : (s.modRail f).obs = s.obs := rfl
@[simp] theorem State.modRail_ports (s : State) (f : Rail → Rail) : (s.modRail f).ports = s.ports := rfl
@[simp] theorem State.modRail_line (s : State) (f : Rail → Rail) : (s.modRail f).line = s.line := rfl
@[simp] theorem State.modRail_ring (s : State) (f : Rail → Rail) : (s.modRail f).ring = s.ring := rfl
@[simp] theorem State.modRail_wt (s : State) (f : Rail → Rail) : (s.modRail f).wt = s.wt := rfl
@[simp] theorem State.modRail_xa (s : State) (f : Rail → Rail) : (s.modRail f).xa = s.xa := rfl
@[simp] theorem State.modRail_hif (s : State) (f : Rail → Rail) : (s.modRail f).hif = s.hif := rfl
@[simp] theorem State.modRail_dram (s : State) (f : Rail → Rail) : (s.modRail f).dram = s.dram := rfl
@[simp] theorem State.modRail_pair (s : State) (f : Rail → Rail) : (s.modRail f).pair = s.pair := rfl
@[simp] theorem State.modRail_ni (s : State) (f : Rail → Rail) : (s.modRail f).ni = s.ni := rfl
@[simp] theorem State.modRail_cmp (s : State) (f : Rail → Rail) : (s.modRail f).cmp = s.cmp := rfl
@[simp] theorem State.modRail_pix (s : State) (f : Rail → Rail) : (s.modRail f).pix = s.pix := rfl
@[simp] theorem State.modRail_chk (s : State) (f : Rail → Rail) : (s.modRail f).chk = s.chk := rfl
@[simp] theorem State.modRail_cal (s : State) (f : Rail → Rail) : (s.modRail f).cal = s.cal := rfl
@[simp] theorem State.modRail_hk (s : State) (f : Rail → Rail) : (s.modRail f).hk = s.hk := rfl
@[simp] theorem State.modRail_sys (s : State) (f : Rail → Rail) : (s.modRail f).sys = s.sys := rfl
@[simp] theorem State.modRail_upd (s : State) (f : Rail → Rail) : (s.modRail f).upd = s.upd := rfl
@[simp] theorem State.modRail_tap (s : State) (f : Rail → Rail) : (s.modRail f).tap = s.tap := rfl
@[simp] theorem State.modRail_free (s : State) (f : Rail → Rail) : (s.modRail f).free = s.free := rfl
@[simp] theorem State.modRail_out (s : State) (f : Rail → Rail) : (s.modRail f).out = s.out := rfl
@[simp] theorem State.modRail_pending (s : State) (f : Rail → Rail) : (s.modRail f).pending = s.pending := rfl

@[simp] theorem State.modCal_strap (s : State) (f : Cal → Cal) : (s.modCal f).strap = s.strap := rfl
@[simp] theorem State.modCal_now (s : State) (f : Cal → Cal) : (s.modCal f).now = s.now := rfl
@[simp] theorem State.modCal_regs (s : State) (f : Cal → Cal) : (s.modCal f).regs = s.regs := rfl
@[simp] theorem State.modCal_latch (s : State) (f : Cal → Cal) : (s.modCal f).latch = s.latch := rfl
@[simp] theorem State.modCal_lastAt (s : State) (f : Cal → Cal) : (s.modCal f).lastAt = s.lastAt := rfl
@[simp] theorem State.modCal_commit (s : State) (f : Cal → Cal) : (s.modCal f).commit = s.commit := rfl
@[simp] theorem State.modCal_evc (s : State) (f : Cal → Cal) : (s.modCal f).evc = s.evc := rfl
@[simp] theorem State.modCal_obs (s : State) (f : Cal → Cal) : (s.modCal f).obs = s.obs := rfl
@[simp] theorem State.modCal_ports (s : State) (f : Cal → Cal) : (s.modCal f).ports = s.ports := rfl
@[simp] theorem State.modCal_line (s : State) (f : Cal → Cal) : (s.modCal f).line = s.line := rfl
@[simp] theorem State.modCal_ring (s : State) (f : Cal → Cal) : (s.modCal f).ring = s.ring := rfl
@[simp] theorem State.modCal_wt (s : State) (f : Cal → Cal) : (s.modCal f).wt = s.wt := rfl
@[simp] theorem State.modCal_xa (s : State) (f : Cal → Cal) : (s.modCal f).xa = s.xa := rfl
@[simp] theorem State.modCal_hif (s : State) (f : Cal → Cal) : (s.modCal f).hif = s.hif := rfl
@[simp] theorem State.modCal_dram (s : State) (f : Cal → Cal) : (s.modCal f).dram = s.dram := rfl
@[simp] theorem State.modCal_pair (s : State) (f : Cal → Cal) : (s.modCal f).pair = s.pair := rfl
@[simp] theorem State.modCal_ni (s : State) (f : Cal → Cal) : (s.modCal f).ni = s.ni := rfl
@[simp] theorem State.modCal_cmp (s : State) (f : Cal → Cal) : (s.modCal f).cmp = s.cmp := rfl
@[simp] theorem State.modCal_pix (s : State) (f : Cal → Cal) : (s.modCal f).pix = s.pix := rfl
@[simp] theorem State.modCal_chk (s : State) (f : Cal → Cal) : (s.modCal f).chk = s.chk := rfl
@[simp] theorem State.modCal_drv (s : State) (f : Cal → Cal) : (s.modCal f).drv = s.drv := rfl
@[simp] theorem State.modCal_hk (s : State) (f : Cal → Cal) : (s.modCal f).hk = s.hk := rfl
@[simp] theorem State.modCal_sys (s : State) (f : Cal → Cal) : (s.modCal f).sys = s.sys := rfl
@[simp] theorem State.modCal_upd (s : State) (f : Cal → Cal) : (s.modCal f).upd = s.upd := rfl
@[simp] theorem State.modCal_tap (s : State) (f : Cal → Cal) : (s.modCal f).tap = s.tap := rfl
@[simp] theorem State.modCal_free (s : State) (f : Cal → Cal) : (s.modCal f).free = s.free := rfl
@[simp] theorem State.modCal_out (s : State) (f : Cal → Cal) : (s.modCal f).out = s.out := rfl
@[simp] theorem State.modCal_pending (s : State) (f : Cal → Cal) : (s.modCal f).pending = s.pending := rfl

@[simp] theorem State.modHk_strap (s : State) (f : Hk → Hk) : (s.modHk f).strap = s.strap := rfl
@[simp] theorem State.modHk_now (s : State) (f : Hk → Hk) : (s.modHk f).now = s.now := rfl
@[simp] theorem State.modHk_regs (s : State) (f : Hk → Hk) : (s.modHk f).regs = s.regs := rfl
@[simp] theorem State.modHk_latch (s : State) (f : Hk → Hk) : (s.modHk f).latch = s.latch := rfl
@[simp] theorem State.modHk_lastAt (s : State) (f : Hk → Hk) : (s.modHk f).lastAt = s.lastAt := rfl
@[simp] theorem State.modHk_commit (s : State) (f : Hk → Hk) : (s.modHk f).commit = s.commit := rfl
@[simp] theorem State.modHk_evc (s : State) (f : Hk → Hk) : (s.modHk f).evc = s.evc := rfl
@[simp] theorem State.modHk_obs (s : State) (f : Hk → Hk) : (s.modHk f).obs = s.obs := rfl
@[simp] theorem State.modHk_ports (s : State) (f : Hk → Hk) : (s.modHk f).ports = s.ports := rfl
@[simp] theorem State.modHk_line (s : State) (f : Hk → Hk) : (s.modHk f).line = s.line := rfl
@[simp] theorem State.modHk_ring (s : State) (f : Hk → Hk) : (s.modHk f).ring = s.ring := rfl
@[simp] theorem State.modHk_wt (s : State) (f : Hk → Hk) : (s.modHk f).wt = s.wt := rfl
@[simp] theorem State.modHk_xa (s : State) (f : Hk → Hk) : (s.modHk f).xa = s.xa := rfl
@[simp] theorem State.modHk_hif (s : State) (f : Hk → Hk) : (s.modHk f).hif = s.hif := rfl
@[simp] theorem State.modHk_dram (s : State) (f : Hk → Hk) : (s.modHk f).dram = s.dram := rfl
@[simp] theorem State.modHk_pair (s : State) (f : Hk → Hk) : (s.modHk f).pair = s.pair := rfl
@[simp] theorem State.modHk_ni (s : State) (f : Hk → Hk) : (s.modHk f).ni = s.ni := rfl
@[simp] theorem State.modHk_cmp (s : State) (f : Hk → Hk) : (s.modHk f).cmp = s.cmp := rfl
@[simp] theorem State.modHk_pix (s : State) (f : Hk → Hk) : (s.modHk f).pix = s.pix := rfl
@[simp] theorem State.modHk_chk (s : State) (f : Hk → Hk) : (s.modHk f).chk = s.chk := rfl
@[simp] theorem State.modHk_drv (s : State) (f : Hk → Hk) : (s.modHk f).drv = s.drv := rfl
@[simp] theorem State.modHk_cal (s : State) (f : Hk → Hk) : (s.modHk f).cal = s.cal := rfl
@[simp] theorem State.modHk_sys (s : State) (f : Hk → Hk) : (s.modHk f).sys = s.sys := rfl
@[simp] theorem State.modHk_upd (s : State) (f : Hk → Hk) : (s.modHk f).upd = s.upd := rfl
@[simp] theorem State.modHk_tap (s : State) (f : Hk → Hk) : (s.modHk f).tap = s.tap := rfl
@[simp] theorem State.modHk_free (s : State) (f : Hk → Hk) : (s.modHk f).free = s.free := rfl
@[simp] theorem State.modHk_out (s : State) (f : Hk → Hk) : (s.modHk f).out = s.out := rfl
@[simp] theorem State.modHk_pending (s : State) (f : Hk → Hk) : (s.modHk f).pending = s.pending := rfl

@[simp] theorem State.modSys_strap (s : State) (f : Sys → Sys) : (s.modSys f).strap = s.strap := rfl
@[simp] theorem State.modSys_now (s : State) (f : Sys → Sys) : (s.modSys f).now = s.now := rfl
@[simp] theorem State.modSys_regs (s : State) (f : Sys → Sys) : (s.modSys f).regs = s.regs := rfl
@[simp] theorem State.modSys_latch (s : State) (f : Sys → Sys) : (s.modSys f).latch = s.latch := rfl
@[simp] theorem State.modSys_lastAt (s : State) (f : Sys → Sys) : (s.modSys f).lastAt = s.lastAt := rfl
@[simp] theorem State.modSys_commit (s : State) (f : Sys → Sys) : (s.modSys f).commit = s.commit := rfl
@[simp] theorem State.modSys_evc (s : State) (f : Sys → Sys) : (s.modSys f).evc = s.evc := rfl
@[simp] theorem State.modSys_obs (s : State) (f : Sys → Sys) : (s.modSys f).obs = s.obs := rfl
@[simp] theorem State.modSys_ports (s : State) (f : Sys → Sys) : (s.modSys f).ports = s.ports := rfl
@[simp] theorem State.modSys_line (s : State) (f : Sys → Sys) : (s.modSys f).line = s.line := rfl
@[simp] theorem State.modSys_ring (s : State) (f : Sys → Sys) : (s.modSys f).ring = s.ring := rfl
@[simp] theorem State.modSys_wt (s : State) (f : Sys → Sys) : (s.modSys f).wt = s.wt := rfl
@[simp] theorem State.modSys_xa (s : State) (f : Sys → Sys) : (s.modSys f).xa = s.xa := rfl
@[simp] theorem State.modSys_hif (s : State) (f : Sys → Sys) : (s.modSys f).hif = s.hif := rfl
@[simp] theorem State.modSys_dram (s : State) (f : Sys → Sys) : (s.modSys f).dram = s.dram := rfl
@[simp] theorem State.modSys_pair (s : State) (f : Sys → Sys) : (s.modSys f).pair = s.pair := rfl
@[simp] theorem State.modSys_ni (s : State) (f : Sys → Sys) : (s.modSys f).ni = s.ni := rfl
@[simp] theorem State.modSys_cmp (s : State) (f : Sys → Sys) : (s.modSys f).cmp = s.cmp := rfl
@[simp] theorem State.modSys_pix (s : State) (f : Sys → Sys) : (s.modSys f).pix = s.pix := rfl
@[simp] theorem State.modSys_chk (s : State) (f : Sys → Sys) : (s.modSys f).chk = s.chk := rfl
@[simp] theorem State.modSys_drv (s : State) (f : Sys → Sys) : (s.modSys f).drv = s.drv := rfl
@[simp] theorem State.modSys_cal (s : State) (f : Sys → Sys) : (s.modSys f).cal = s.cal := rfl
@[simp] theorem State.modSys_hk (s : State) (f : Sys → Sys) : (s.modSys f).hk = s.hk := rfl
@[simp] theorem State.modSys_upd (s : State) (f : Sys → Sys) : (s.modSys f).upd = s.upd := rfl
@[simp] theorem State.modSys_tap (s : State) (f : Sys → Sys) : (s.modSys f).tap = s.tap := rfl
@[simp] theorem State.modSys_free (s : State) (f : Sys → Sys) : (s.modSys f).free = s.free := rfl
@[simp] theorem State.modSys_out (s : State) (f : Sys → Sys) : (s.modSys f).out = s.out := rfl
@[simp] theorem State.modSys_pending (s : State) (f : Sys → Sys) : (s.modSys f).pending = s.pending := rfl

@[simp] theorem State.modUpd_strap (s : State) (f : Upd → Upd) : (s.modUpd f).strap = s.strap := rfl
@[simp] theorem State.modUpd_now (s : State) (f : Upd → Upd) : (s.modUpd f).now = s.now := rfl
@[simp] theorem State.modUpd_regs (s : State) (f : Upd → Upd) : (s.modUpd f).regs = s.regs := rfl
@[simp] theorem State.modUpd_latch (s : State) (f : Upd → Upd) : (s.modUpd f).latch = s.latch := rfl
@[simp] theorem State.modUpd_lastAt (s : State) (f : Upd → Upd) : (s.modUpd f).lastAt = s.lastAt := rfl
@[simp] theorem State.modUpd_commit (s : State) (f : Upd → Upd) : (s.modUpd f).commit = s.commit := rfl
@[simp] theorem State.modUpd_evc (s : State) (f : Upd → Upd) : (s.modUpd f).evc = s.evc := rfl
@[simp] theorem State.modUpd_obs (s : State) (f : Upd → Upd) : (s.modUpd f).obs = s.obs := rfl
@[simp] theorem State.modUpd_ports (s : State) (f : Upd → Upd) : (s.modUpd f).ports = s.ports := rfl
@[simp] theorem State.modUpd_line (s : State) (f : Upd → Upd) : (s.modUpd f).line = s.line := rfl
@[simp] theorem State.modUpd_ring (s : State) (f : Upd → Upd) : (s.modUpd f).ring = s.ring := rfl
@[simp] theorem State.modUpd_wt (s : State) (f : Upd → Upd) : (s.modUpd f).wt = s.wt := rfl
@[simp] theorem State.modUpd_xa (s : State) (f : Upd → Upd) : (s.modUpd f).xa = s.xa := rfl
@[simp] theorem State.modUpd_hif (s : State) (f : Upd → Upd) : (s.modUpd f).hif = s.hif := rfl
@[simp] theorem State.modUpd_dram (s : State) (f : Upd → Upd) : (s.modUpd f).dram = s.dram := rfl
@[simp] theorem State.modUpd_pair (s : State) (f : Upd → Upd) : (s.modUpd f).pair = s.pair := rfl
@[simp] theorem State.modUpd_ni (s : State) (f : Upd → Upd) : (s.modUpd f).ni = s.ni := rfl
@[simp] theorem State.modUpd_cmp (s : State) (f : Upd → Upd) : (s.modUpd f).cmp = s.cmp := rfl
@[simp] theorem State.modUpd_pix (s : State) (f : Upd → Upd) : (s.modUpd f).pix = s.pix := rfl
@[simp] theorem State.modUpd_chk (s : State) (f : Upd → Upd) : (s.modUpd f).chk = s.chk := rfl
@[simp] theorem State.modUpd_drv (s : State) (f : Upd → Upd) : (s.modUpd f).drv = s.drv := rfl
@[simp] theorem State.modUpd_cal (s : State) (f : Upd → Upd) : (s.modUpd f).cal = s.cal := rfl
@[simp] theorem State.modUpd_hk (s : State) (f : Upd → Upd) : (s.modUpd f).hk = s.hk := rfl
@[simp] theorem State.modUpd_sys (s : State) (f : Upd → Upd) : (s.modUpd f).sys = s.sys := rfl
@[simp] theorem State.modUpd_tap (s : State) (f : Upd → Upd) : (s.modUpd f).tap = s.tap := rfl
@[simp] theorem State.modUpd_free (s : State) (f : Upd → Upd) : (s.modUpd f).free = s.free := rfl
@[simp] theorem State.modUpd_out (s : State) (f : Upd → Upd) : (s.modUpd f).out = s.out := rfl
@[simp] theorem State.modUpd_pending (s : State) (f : Upd → Upd) : (s.modUpd f).pending = s.pending := rfl

@[simp] theorem raise_strap (s : State) (n : Nat) (d : List Byte) : (raise s n d).strap = s.strap := rfl
@[simp] theorem raise_now (s : State) (n : Nat) (d : List Byte) : (raise s n d).now = s.now := rfl
@[simp] theorem raise_regs (s : State) (n : Nat) (d : List Byte) : (raise s n d).regs = s.regs := rfl
@[simp] theorem raise_latch (s : State) (n : Nat) (d : List Byte) : (raise s n d).latch = s.latch := rfl
@[simp] theorem raise_lastAt (s : State) (n : Nat) (d : List Byte) : (raise s n d).lastAt = s.lastAt := rfl
@[simp] theorem raise_commit (s : State) (n : Nat) (d : List Byte) : (raise s n d).commit = s.commit := rfl
@[simp] theorem raise_ports (s : State) (n : Nat) (d : List Byte) : (raise s n d).ports = s.ports := rfl
@[simp] theorem raise_line (s : State) (n : Nat) (d : List Byte) : (raise s n d).line = s.line := rfl
@[simp] theorem raise_wt (s : State) (n : Nat) (d : List Byte) : (raise s n d).wt = s.wt := rfl
@[simp] theorem raise_xa (s : State) (n : Nat) (d : List Byte) : (raise s n d).xa = s.xa := rfl
@[simp] theorem raise_hif (s : State) (n : Nat) (d : List Byte) : (raise s n d).hif = s.hif := rfl
@[simp] theorem raise_dram (s : State) (n : Nat) (d : List Byte) : (raise s n d).dram = s.dram := rfl
@[simp] theorem raise_pair (s : State) (n : Nat) (d : List Byte) : (raise s n d).pair = s.pair := rfl
@[simp] theorem raise_ni (s : State) (n : Nat) (d : List Byte) : (raise s n d).ni = s.ni := rfl
@[simp] theorem raise_cmp (s : State) (n : Nat) (d : List Byte) : (raise s n d).cmp = s.cmp := rfl
@[simp] theorem raise_pix (s : State) (n : Nat) (d : List Byte) : (raise s n d).pix = s.pix := rfl
@[simp] theorem raise_chk (s : State) (n : Nat) (d : List Byte) : (raise s n d).chk = s.chk := rfl
@[simp] theorem raise_drv (s : State) (n : Nat) (d : List Byte) : (raise s n d).drv = s.drv := rfl
@[simp] theorem raise_cal (s : State) (n : Nat) (d : List Byte) : (raise s n d).cal = s.cal := rfl
@[simp] theorem raise_hk (s : State) (n : Nat) (d : List Byte) : (raise s n d).hk = s.hk := rfl
@[simp] theorem raise_sys (s : State) (n : Nat) (d : List Byte) : (raise s n d).sys = s.sys := rfl
@[simp] theorem raise_upd (s : State) (n : Nat) (d : List Byte) : (raise s n d).upd = s.upd := rfl
@[simp] theorem raise_tap (s : State) (n : Nat) (d : List Byte) : (raise s n d).tap = s.tap := rfl
@[simp] theorem raise_free (s : State) (n : Nat) (d : List Byte) : (raise s n d).free = s.free := rfl
@[simp] theorem raise_pending (s : State) (n : Nat) (d : List Byte) : (raise s n d).pending = s.pending := rfl

theorem State.setReg_regs (s : State) (a v : Nat) : (s.setReg a v).regs = s.regs.set (resetWord s.strap a) a (BitVec.ofNat 32 v) := rfl
@[simp] theorem State.setPort_ports (s : State) (p : Nat) (x : Port) : (s.setPort p x).ports = s.ports.set Port.init p x := rfl
theorem State.modPort_eq (s : State) (p : Nat) (f : Port → Port) : s.modPort p f = s.setPort p (f (s.port p)) := rfl
theorem State.setPst_eq (s : State) (p v : Nat) : s.setPst p v = s.wr (F.CL_PSTAT_STATE p) v := rfl
@[simp] theorem State.modPair_pair (s : State) (f : Pair → Pair) : (s.modPair f).pair = f s.pair := rfl
@[simp] theorem State.modHif_hif (s : State) (f : Hif → Hif) : (s.modHif f).hif = f s.hif := rfl
@[simp] theorem State.modNi_ni (s : State) (f : Ni → Ni) : (s.modNi f).ni = f s.ni := rfl
@[simp] theorem State.modCmp_cmp (s : State) (f : Cmp → Cmp) : (s.modCmp f).cmp = f s.cmp := rfl
@[simp] theorem State.modPix_pix (s : State) (f : Pix → Pix) : (s.modPix f).pix = f s.pix := rfl
@[simp] theorem State.modChk_chk (s : State) (f : Chk → Chk) : (s.modChk f).chk = f s.chk := rfl
@[simp] theorem State.modDrv_drv (s : State) (f : Drv → Drv) : (s.modDrv f).drv = f s.drv := rfl
@[simp] theorem State.modCal_cal (s : State) (f : Cal → Cal) : (s.modCal f).cal = f s.cal := rfl
@[simp] theorem State.modHk_hk (s : State) (f : Hk → Hk) : (s.modHk f).hk = f s.hk := rfl
@[simp] theorem State.modSys_sys (s : State) (f : Sys → Sys) : (s.modSys f).sys = f s.sys := rfl
@[simp] theorem State.modUpd_upd (s : State) (f : Upd → Upd) : (s.modUpd f).upd = f s.upd := rfl

/-- The word of a register depends on the straps and the register file alone. -/
theorem State.reg_congr {s t : State} (h1 : t.strap = s.strap) (h2 : t.regs = s.regs) (a : Nat) : t.reg a = s.reg a := by
  simp only [State.reg, h1, h2]

theorem State.rd_congr {s t : State} (h1 : t.strap = s.strap) (h2 : t.regs = s.regs) (f : FRef) : t.rd f = s.rd f := by
  simp only [State.rd, State.reg, h1, h2]

@[simp] theorem State.reported_reg (s : State) (k : Nat) (a' : Nat) : (s.reported k).reg a' = s.reg a' := rfl
@[simp] theorem State.reported_rd (s : State) (k : Nat) (f' : FRef) : (s.reported k).rd f' = s.rd f' := rfl
@[simp] theorem State.setTgt_reg (s : State) (t : Nat) (x : Target) (a' : Nat) : (s.setTgt t x).reg a' = s.reg a' := rfl
@[simp] theorem State.setTgt_rd (s : State) (t : Nat) (x : Target) (f' : FRef) : (s.setTgt t x).rd f' = s.rd f' := rfl
@[simp] theorem State.setHsrc_reg (s : State) (n : Nat) (x : Source) (a' : Nat) : (s.setHsrc n x).reg a' = s.reg a' := rfl
@[simp] theorem State.setHsrc_rd (s : State) (n : Nat) (x : Source) (f' : FRef) : (s.setHsrc n x).rd f' = s.rd f' := rfl
@[simp] theorem State.setUsrc_reg (s : State) (n : Nat) (x : Source) (a' : Nat) : (s.setUsrc n x).reg a' = s.reg a' := rfl
@[simp] theorem State.setUsrc_rd (s : State) (n : Nat) (x : Source) (f' : FRef) : (s.setUsrc n x).rd f' = s.rd f' := rfl
@[simp] theorem State.setPort_reg (s : State) (p : Nat) (x : Port) (a' : Nat) : (s.setPort p x).reg a' = s.reg a' := rfl
@[simp] theorem State.setPort_rd (s : State) (p : Nat) (x : Port) (f' : FRef) : (s.setPort p x).rd f' = s.rd f' := rfl
@[simp] theorem State.modPort_reg (s : State) (p : Nat) (f : Port → Port) (a' : Nat) : (s.modPort p f).reg a' = s.reg a' := rfl
@[simp] theorem State.modPort_rd (s : State) (p : Nat) (f : Port → Port) (f' : FRef) : (s.modPort p f).rd f' = s.rd f' := rfl
@[simp] theorem State.setGen_reg (s : State) (n : Nat) (g : Gen) (a' : Nat) : (s.setGen n g).reg a' = s.reg a' := rfl
@[simp] theorem State.setGen_rd (s : State) (n : Nat) (g : Gen) (f' : FRef) : (s.setGen n g).rd f' = s.rd f' := rfl
@[simp] theorem State.setXid_reg (s : State) (x : Nat) (v : Xid) (a' : Nat) : (s.setXid x v).reg a' = s.reg a' := rfl
@[simp] theorem State.setXid_rd (s : State) (x : Nat) (v : Xid) (f' : FRef) : (s.setXid x v).rd f' = s.rd f' := rfl
@[simp] theorem State.modXid_reg (s : State) (x : Nat) (f : Xid → Xid) (a' : Nat) : (s.modXid x f).reg a' = s.reg a' := rfl
@[simp] theorem State.modXid_rd (s : State) (x : Nat) (f : Xid → Xid) (f' : FRef) : (s.modXid x f).rd f' = s.rd f' := rfl
@[simp] theorem State.modPair_reg (s : State) (f : Pair → Pair) (a' : Nat) : (s.modPair f).reg a' = s.reg a' := rfl
@[simp] theorem State.modPair_rd (s : State) (f : Pair → Pair) (f' : FRef) : (s.modPair f).rd f' = s.rd f' := rfl
@[simp] theorem State.setLease_reg (s : State) (r : Nat) (x : Lease) (a' : Nat) : (s.setLease r x).reg a' = s.reg a' := rfl
@[simp] theorem State.setLease_rd (s : State) (r : Nat) (x : Lease) (f' : FRef) : (s.setLease r x).rd f' = s.rd f' := rfl
@[simp] theorem State.setChan_reg (s : State) (u : Bool) (c : Chan) (a' : Nat) : (s.setChan u c).reg a' = s.reg a' := rfl
@[simp] theorem State.setChan_rd (s : State) (u : Bool) (c : Chan) (f' : FRef) : (s.setChan u c).rd f' = s.rd f' := rfl
@[simp] theorem State.modHif_reg (s : State) (f : Hif → Hif) (a' : Nat) : (s.modHif f).reg a' = s.reg a' := rfl
@[simp] theorem State.modHif_rd (s : State) (f : Hif → Hif) (f' : FRef) : (s.modHif f).rd f' = s.rd f' := rfl
@[simp] theorem State.setJob_reg (s : State) (j : Job) (a' : Nat) : (s.setJob j).reg a' = s.reg a' := rfl
@[simp] theorem State.setJob_rd (s : State) (j : Job) (f' : FRef) : (s.setJob j).rd f' = s.rd f' := rfl
@[simp] theorem State.setDch_reg (s : State) (c : Nat) (x : DramChan) (a' : Nat) : (s.setDch c x).reg a' = s.reg a' := rfl
@[simp] theorem State.setDch_rd (s : State) (c : Nat) (x : DramChan) (f' : FRef) : (s.setDch c x).rd f' = s.rd f' := rfl
@[simp] theorem State.modNi_reg (s : State) (f : Ni → Ni) (a' : Nat) : (s.modNi f).reg a' = s.reg a' := rfl
@[simp] theorem State.modNi_rd (s : State) (f : Ni → Ni) (f' : FRef) : (s.modNi f).rd f' = s.rd f' := rfl
@[simp] theorem State.setFlow_reg (s : State) (f : Nat) (x : Flow) (a' : Nat) : (s.setFlow f x).reg a' = s.reg a' := rfl
@[simp] theorem State.setFlow_rd (s : State) (f : Nat) (x : Flow) (f' : FRef) : (s.setFlow f x).rd f' = s.rd f' := rfl
@[simp] theorem State.modFlow_reg (s : State) (f : Nat) (g : Flow → Flow) (a' : Nat) : (s.modFlow f g).reg a' = s.reg a' := rfl
@[simp] theorem State.modFlow_rd (s : State) (f : Nat) (g : Flow → Flow) (f' : FRef) : (s.modFlow f g).rd f' = s.rd f' := rfl
@[simp] theorem State.modCmp_reg (s : State) (f : Cmp → Cmp) (a' : Nat) : (s.modCmp f).reg a' = s.reg a' := rfl
@[simp] theorem State.modCmp_rd (s : State) (f : Cmp → Cmp) (f' : FRef) : (s.modCmp f).rd f' = s.rd f' := rfl
@[simp] theorem State.setLayer_reg (s : State) (r l : Nat) (x : CLayer) (a' : Nat) : (s.setLayer r l x).reg a' = s.reg a' := rfl
@[simp] theorem State.setLayer_rd (s : State) (r l : Nat) (x : CLayer) (f' : FRef) : (s.setLayer r l x).rd f' = s.rd f' := rfl
@[simp] theorem State.setWin_reg (s : State) (r : Nat) (x : SendWin) (a' : Nat) : (s.setWin r x).reg a' = s.reg a' := rfl
@[simp] theorem State.setWin_rd (s : State) (r : Nat) (x : SendWin) (f' : FRef) : (s.setWin r x).rd f' = s.rd f' := rfl
@[simp] theorem State.modPix_reg (s : State) (f : Pix → Pix) (a' : Nat) : (s.modPix f).reg a' = s.reg a' := rfl
@[simp] theorem State.modPix_rd (s : State) (f : Pix → Pix) (f' : FRef) : (s.modPix f).rd f' = s.rd f' := rfl
@[simp] theorem State.modChk_reg (s : State) (f : Chk → Chk) (a' : Nat) : (s.modChk f).reg a' = s.reg a' := rfl
@[simp] theorem State.modChk_rd (s : State) (f : Chk → Chk) (f' : FRef) : (s.modChk f).rd f' = s.rd f' := rfl
@[simp] theorem State.modDrv_reg (s : State) (f : Drv → Drv) (a' : Nat) : (s.modDrv f).reg a' = s.reg a' := rfl
@[simp] theorem State.modDrv_rd (s : State) (f : Drv → Drv) (f' : FRef) : (s.modDrv f).rd f' = s.rd f' := rfl
@[simp] theorem State.modRail_reg (s : State) (f : Rail → Rail) (a' : Nat) : (s.modRail f).reg a' = s.reg a' := rfl
@[simp] theorem State.modRail_rd (s : State) (f : Rail → Rail) (f' : FRef) : (s.modRail f).rd f' = s.rd f' := rfl
@[simp] theorem State.modCal_reg (s : State) (f : Cal → Cal) (a' : Nat) : (s.modCal f).reg a' = s.reg a' := rfl
@[simp] theorem State.modCal_rd (s : State) (f : Cal → Cal) (f' : FRef) : (s.modCal f).rd f' = s.rd f' := rfl
@[simp] theorem State.modHk_reg (s : State) (f : Hk → Hk) (a' : Nat) : (s.modHk f).reg a' = s.reg a' := rfl
@[simp] theorem State.modHk_rd (s : State) (f : Hk → Hk) (f' : FRef) : (s.modHk f).rd f' = s.rd f' := rfl
@[simp] theorem State.modSys_reg (s : State) (f : Sys → Sys) (a' : Nat) : (s.modSys f).reg a' = s.reg a' := rfl
@[simp] theorem State.modSys_rd (s : State) (f : Sys → Sys) (f' : FRef) : (s.modSys f).rd f' = s.rd f' := rfl
@[simp] theorem State.modUpd_reg (s : State) (f : Upd → Upd) (a' : Nat) : (s.modUpd f).reg a' = s.reg a' := rfl
@[simp] theorem State.modUpd_rd (s : State) (f : Upd → Upd) (f' : FRef) : (s.modUpd f).rd f' = s.rd f' := rfl
@[simp] theorem raise_reg (s : State) (n : Nat) (d : List Byte) (a' : Nat) : (raise s n d).reg a' = s.reg a' := rfl
@[simp] theorem raise_rd (s : State) (n : Nat) (d : List Byte) (f' : FRef) : (raise s n d).rd f' = s.rd f' := rfl

end Sys2Proof.Machine
end

