-- ==== Sys2Proof/Laws/Report.lean ====
section
/-! SUPPORT. Laws/Report.lean: what raising an event, counting and the end of a command leave alone; the outcomes of the four kinds of
command. -/
namespace Sys2Proof.Machine

end Sys2Proof.Machine

namespace Sys2Proof

open Sys2Proof.Machine

theorem NoTrain.of_ports {s t : State} (h : NoTrain s) (e : t.ports = s.ports) : NoTrain t := by
  intro p
  simpa only [State.port, e] using h p

theorem Reports.refl (s : State) : Reports s s := by constructor <;> (intros; rfl)

theorem Reports.trans {s t u : State} (h : Reports s t) (g : Reports t u) : Reports s u := by
  have n : NoTrain s → NoTrain t := fun k => k.of_ports (h.ports k)
  obtain ⟨⟩ := h
  obtain ⟨⟩ := g
  constructor <;> (intros; simp_all only)

theorem Reports.reg {s t : State} (h : Reports s t) (a : Nat) : t.reg a = s.reg a := State.reg_congr h.strap h.regs a

theorem Reports.rd {s t : State} (h : Reports s t) (f : FRef) : t.rd f = s.rd f := State.rd_congr h.strap h.regs f

theorem Reports.on {s t : State} (h : Reports s t) (f : FRef) : t.on f = s.on f := by simp only [State.on, h.rd]

end Sys2Proof

namespace Sys2Proof.Machine

theorem setTgt_reports (s : State) (t : Nat) (x : Target) : Reports s (s.setTgt t x) := by constructor <;> (intros; rfl)
theorem setHsrc_reports (s : State) (n : Nat) (x : Source) : Reports s (s.setHsrc n x) := by constructor <;> (intros; rfl)
theorem setUsrc_reports (s : State) (n : Nat) (x : Source) : Reports s (s.setUsrc n x) := by constructor <;> (intros; rfl)
theorem obs_reports (s : State) (o : Obs) : Reports s { s with obs := o } := by constructor <;> (intros; rfl)
theorem reported_reports (s : State) (k : Nat) : Reports s (s.reported k) := by constructor <;> (intros; rfl)

/-- Raising an event only reports. -/
theorem raise_reports (s : State) (n : Nat) (d : List Byte) : Reports s (raise s n d) := by constructor <;> (intros; rfl)

theorem raises_reports (s : State) (l : List (Nat × List Byte)) : Reports s (raises s l) := by
  induction l generalizing s with
  | nil => exact Reports.refl _
  | cons e r ih => exact (raise_reports s e.1 e.2).trans (ih _)

theorem raiseLim_reports (s : State) (n k : Nat) (d : List Byte) : Reports s (raiseLim s n k d) := by
  unfold raiseLim
  split
  · exact (raise_reports s n d).trans (reported_reports _ _)
  · exact Reports.refl s

/-- Counting only reports. -/
theorem count_reports (s : State) (n k : Nat) : Reports s (count s n k) :=
  Reports.trans (t := (addCount s n k).1) (by constructor <;> (intros; rfl)) (raises_reports _ _)

theorem trace_reports (s : State) (c i : Nat) (d : List Byte) : Reports s (trace s c i d) := by
  unfold trace
  split <;> constructor <;> (intros; rfl)

theorem outqPut_reports (s : State) (e : OutPkt) : Reports s (outqPut s e).1 := by
  unfold outqPut
  split
  · constructor <;> (intros; rfl)
  · dsimp only
    split <;> constructor <;> (intros; rfl)

theorem sendUp_reports (s : State) (c p : Nat) (x : Copy) : Reports s (sendUp s c p x) := by
  unfold sendUp
  split
  · exact Reports.refl s
  · exact (outqPut_reports _ _).trans (raises_reports _ _)

theorem upTry_reports (s : State) (n : Nat) (q : Source) : Reports s (upTry s n q).1 := by
  unfold upTry
  split
  · constructor <;> (intros; rfl)
  · split
    · exact Reports.trans (setUsrc_reports _ _ _) (outqPut_reports _ _)
    · exact Reports.trans (outqPut_reports _ _) (setUsrc_reports _ _ _)

theorem fillWaiting_reports (k : Nat) (s : State) : Reports s (fillWaiting k s) := by
  induction k generalizing s with
  | zero => exact Reports.refl _
  | succ k ih =>
    unfold fillWaiting
    split
    · constructor <;> (intros; rfl)
    · rename_i e _
      exact Reports.trans (Reports.trans (t := { s with ring := { s.ring with waiting := s.ring.waiting.erase e } }) (by constructor <;> (intros; rfl)) (outqPut_reports _ e)) (ih _)

theorem drainUp_reports (k : Nat) (s : State) : Reports s (drainUp k s) := by
  induction k generalizing s with
  | zero => exact Reports.refl _
  | succ k ih =>
    unfold drainUp
    split
    · constructor <;> (intros; rfl)
    · split
      · constructor <;> (intros; rfl)
      · exact (upTry_reports _ _ _).trans (ih _)

theorem upReleased_reports (s : State) (n : Nat) : Reports s (upReleased s n) := by
  unfold upReleased
  dsimp only
  split
  · constructor <;> (intros; rfl)
  · split
    · constructor <;> (intros; rfl)
    · exact upTry_reports _ _ _

/-- A fold of steps that only report. -/
theorem foldl_reports {β : Type} (f : State → β → State) (l : List β) (hf : ∀ s, ∀ x ∈ l, Reports s (f s x)) (s : State) : Reports s (l.foldl f s) := by
  induction l generalizing s with
  | nil => exact Reports.refl _
  | cons x r ih => exact (hf s x (by simp)).trans (ih (fun s y hy => hf s y (by simp [hy])) _)

theorem outqSweep_reports (s : State) : Reports s (outqSweep s) := by
  unfold outqSweep
  dsimp only
  split
  · constructor <;> (intros; rfl)
  · refine Reports.trans (Reports.trans (Reports.trans ?_ (foldl_reports _ _ ?_ _)) (fillWaiting_reports _ _)) (drainUp_reports _ _)
    · constructor <;> (intros; rfl)
    · intro s x _
      split
      · exact upReleased_reports _ _
      · constructor <;> (intros; rfl)

theorem putTrace_reports (s : State) (t : Trace) : Reports s (putTrace s t) := by
  unfold putTrace
  dsimp only
  split
  · constructor <;> (intros; rfl)
  · split
    · split
      · exact (obs_reports s _).trans (raise_reports _ _ _)
      · constructor <;> (intros; rfl)
    · constructor <;> (intros; rfl)

theorem flushTrace_reports (s : State) : Reports s (flushTrace s) := by
  unfold flushTrace
  dsimp only
  have h : ∀ l : List Trace, ∀ o : Obs, Reports s (l.foldl putTrace { s with obs := o }) :=
    fun l o => (obs_reports s o).trans (foldl_reports _ l (fun s x _ => putTrace_reports s x) _)
  split
  · exact h _ _
  · split
    · exact (((h _ _).trans (obs_reports _ _)).trans ((raise_reports _ _ _).trans (reported_reports _ _))).trans (obs_reports _ _)
    · exact (h _ _).trans (obs_reports _ _)

/-- A train of the filler that carries the next packet (R82): what a command sends, and the port and the SEQ it moves on. -/
theorem useTrain_reports (s u : State) (p : Nat) (c : Bool) (h : Reports s u) (hn : ¬ NoTrain s) : Reports s (useTrain u p c) := by
  have up : ∀ v : State, Reports s v → Reports s { v with ports := (v.setPort p (v.port p)).ports } := by
    intro v hv
    obtain ⟨⟩ := hv
    constructor <;> first | assumption | exact fun k => absurd k hn
  have free : ∀ {v w : State}, Reports s v → (NoTrain s → False) → w = { v with ports := w.ports, out := w.out, ring := { v.ring with outq := w.ring.outq, upSeq := w.ring.upSeq } } → Reports s w := by
    intro v w hv _ e
    obtain ⟨⟩ := hv
    rw [e]
    constructor <;> first | assumption | exact fun k => absurd k hn
  unfold useTrain
  split
  · exact h
  · dsimp only
    split
    · exact free h hn rfl
    · split
      · exact free h hn rfl
      · split
        · exact free h hn rfl
        · exact (free h hn rfl).trans (outqSweep_reports _)

/-- The trains of the filler at the end of a command: nothing where none waits. -/
theorem owedTrains_reports (s : State) : Reports s (owedTrains s) := by
  by_cases hn : NoTrain s
  · have h : owedTrains s = s := by
      unfold owedTrains forIdx
      suffices ∀ l : List Nat, (∀ x ∈ l, x < 12) → l.foldl (fun t p => if (t.port p).trainOwed then useTrain (t.modPort p fun x => { x with trainOwed := false }) p false else t) s = s by
        exact this _ fun x hx => by simpa using hx
      intro l hl
      induction l with
      | nil => rfl
      | cons x r ih =>
        have hx : (s.port x).trainOwed = false := hn ⟨x, hl x (by simp)⟩
        simp only [List.foldl_cons, hx, Bool.false_eq_true, if_false]
        exact ih fun y hy => hl y (by simp [hy])
    rw [h]
    exact Reports.refl s
  · unfold owedTrains forIdx
    suffices ∀ (l : List Nat) (u : State), Reports s u → Reports s (l.foldl (fun t p => if (t.port p).trainOwed then useTrain (t.modPort p fun x => { x with trainOwed := false }) p false else t) u) from
      this _ s (Reports.refl s)
    intro l
    induction l with
    | nil => exact fun u h => h
    | cons x r ih =>
      intro u h
      refine ih _ ?_
      dsimp only
      split
      · refine useTrain_reports s _ x false ?_ hn
        obtain ⟨⟩ := h
        constructor <;> first | assumption | exact fun k => absurd k hn
      · exact h

/-- `t` is `s` but for the line side of the lanes. -/
def OnlyLine (s t : State) : Prop := t = { s with line := t.line }

theorem OnlyLine.refl (s : State) : OnlyLine s s := rfl

theorem OnlyLine.trans {s t u : State} (h : OnlyLine s t) (g : OnlyLine t u) : OnlyLine s u := by
  unfold OnlyLine at *
  rw [h] at g
  exact g

theorem OnlyLine.foldl {β : Type} {f : State → β → State} (hf : ∀ s x, OnlyLine s (f s x)) (l : List β) (s : State) : OnlyLine s (l.foldl f s) := by
  induction l generalizing s with
  | nil => exact OnlyLine.refl s
  | cons x r ih => exact (hf s x).trans (ih _)

theorem streamBlock_line (s : State) (p : Nat) (x : BlockKind) : OnlyLine s (streamBlock s p x) := by
  unfold streamBlock
  dsimp only
  split <;> rfl

theorem evenIndex_line (s : State) (p : Nat) : OnlyLine s (evenIndex s p) := by
  unfold evenIndex
  split
  · exact streamBlock_line s p _
  · exact OnlyLine.refl s

theorem streamBlocks_line (s : State) (p : Nat) (l : List BlockKind) : OnlyLine s (streamBlocks s p l) := by
  unfold streamBlocks
  split
  · exact (evenIndex_line s p).trans (OnlyLine.foldl (fun s x => streamBlock_line s p x) _ _)
  · refine (evenIndex_line s p).trans (OnlyLine.foldl (fun s x => ?_) _ _)
    split
    · exact (streamBlock_line s p x).trans (streamBlock_line _ p _)
    · exact streamBlock_line s p x
  · exact OnlyLine.foldl (fun s x => streamBlock_line s p x) _ _

/-- What goes out in blocks moves the line side of the lanes on and nothing else. -/
theorem transmit_line (n : Nat) (s : State) : OnlyLine s (transmit n s) := by
  refine OnlyLine.foldl (fun s x => ?_) _ s
  split
  · exact streamBlocks_line _ _ _
  · exact OnlyLine.refl s

/-- The end of a command only reports. -/
theorem settle_reports (s t : State) : Reports t (settle s t) := by
  have h := (owedTrains_reports t).trans ((outqSweep_reports _).trans (flushTrace_reports _))
  unfold settle
  generalize flushTrace (outqSweep (owedTrains t)) = u at h
  dsimp only
  rw [transmit_line _ { u with out := _ }]
  obtain ⟨⟩ := h
  constructor <;> first | assumption | rfl

/-- A request that waits for a position acts where the command brings one (R24). -/
theorem placed_eq (s t : State) (h : t.on F.CL_MYPOS_VALID = true → s.on F.CL_MYPOS_VALID = true) : placed s t = t := by
  unfold placed
  cases h1 : s.on F.CL_MYPOS_VALID <;> cases h2 : t.on F.CL_MYPOS_VALID <;> simp_all

/-- An ordinary command whose effect keeps what ordinary commands keep, and takes no position, answers its effect, but for reports. -/
theorem ordinary_runs (f : State → State) (s : State) (h1 : (f s).strap = s.strap) (h2 : (f s).pending = s.pending) (h3 : (f s).tap = s.tap)
    (h4 : (f s).upd.flash = s.upd.flash) (h5 : (f s).on F.CL_MYPOS_VALID = true → s.on F.CL_MYPOS_VALID = true) :
    ∃ t, ordinary f s = .next t ∧ Reports (f s) t := by
  refine ⟨_, rfl, ?_⟩
  rw [placed_eq s (f s) h5]
  have hu : { (f s).upd with flash := s.upd.flash } = (f s).upd := by rw [← h4]
  have hs := settle_reports s (f s)
  have e : (settle s (f s)).upd = (f s).upd := hs.upd
  obtain ⟨⟩ := hs
  constructor <;> first | assumption | exact h1.symm | exact h2.symm | exact h3.symm | (rw [e]; exact hu)

/-- What an ordinary command that takes no position answers, register by register. -/
theorem ordinary_reg (f : State → State) (s t : State) (h : ordinary f s = .next t) (hs : (f s).strap = s.strap)
    (h5 : (f s).on F.CL_MYPOS_VALID = true → s.on F.CL_MYPOS_VALID = true) (a : Nat) : t.reg a = (f s).reg a := by
  simp only [ordinary, Host.Outcome.next.injEq] at h
  subst h
  rw [placed_eq s (f s) h5]
  apply State.reg_congr
  · exact hs.symm
  · exact (settle_reports s (f s)).regs

end Sys2Proof.Machine
end

