-- ==== Sys2Proof/Laws/Link.lean ====
section
/-! SUPPORT. Laws/Link.lean: what follows for a sender pair when the mirror port leaves or reaches UP (`linkCheck`), and what a second look
at the command rings does (`retryHeads`), reach only the host interface, DRAM, WT_PAIR, the network, composition, the comparison and the pair: everything
else stays, register by register. -/
namespace Sys2Proof.Machine

/-- The blocks whose registers a change of the mirror link may write: HIF, MC, NI, CMP, CHK, RED, and WT_PAIR. -/
def linkBlock (a : Nat) : Prop :=
  a / 65536 = 3 ∨ a / 65536 = 4 ∨ a = R.WT_PAIR ∨ a / 65536 = 9 ∨ a / 65536 = 10 ∨ a / 65536 = 14 ∨ a / 65536 = 15

/-- What `linkCheck` and `retryHeads` leave alone. -/
structure LinkKeeps (s t : State) : Prop where
  strap : t.strap = s.strap
  now : t.now = s.now
  latch : t.latch = s.latch
  commit : t.commit = s.commit
  ports : NoTrain s → t.ports = s.ports
  wt : t.wt = s.wt
  pix : t.pix = s.pix
  chk : t.chk = s.chk
  drv : t.drv = s.drv
  cal : t.cal = s.cal
  hk : t.hk = s.hk
  sys : t.sys = s.sys
  upd : t.upd = s.upd
  tap : t.tap = s.tap
  free : t.free = s.free
  pending : t.pending = s.pending
  reg : ∀ a, ¬ linkBlock a → t.reg a = s.reg a

theorem LinkKeeps.refl (s : State) : LinkKeeps s s := by constructor <;> (intros; rfl)

theorem LinkKeeps.trans {s t u : State} (h : LinkKeeps s t) (g : LinkKeeps t u) : LinkKeeps s u where
  strap := g.strap.trans h.strap
  now := g.now.trans h.now
  latch := g.latch.trans h.latch
  commit := g.commit.trans h.commit
  ports := fun n => (g.ports (n.of_ports (h.ports n))).trans (h.ports n)
  wt := g.wt.trans h.wt
  pix := g.pix.trans h.pix
  chk := g.chk.trans h.chk
  drv := g.drv.trans h.drv
  cal := g.cal.trans h.cal
  hk := g.hk.trans h.hk
  sys := g.sys.trans h.sys
  upd := g.upd.trans h.upd
  tap := g.tap.trans h.tap
  free := g.free.trans h.free
  pending := g.pending.trans h.pending
  reg := fun a ha => (g.reg a ha).trans (h.reg a ha)

theorem LinkKeeps.of_reports {s t : State} (h : Reports s t) : LinkKeeps s t where
  strap := h.strap
  now := h.now
  latch := h.latch
  commit := h.commit
  ports := h.ports
  wt := h.wt
  pix := h.pix
  chk := h.chk
  drv := h.drv
  cal := h.cal
  hk := h.hk
  sys := h.sys
  upd := h.upd
  tap := h.tap
  free := h.free
  pending := h.pending
  reg := fun a _ => h.reg a

theorem LinkKeeps.foldl {β : Type} {f : State → β → State} (hf : ∀ s x, LinkKeeps s (f s x)) (l : List β) (s : State) : LinkKeeps s (l.foldl f s) := by
  induction l generalizing s with
  | nil => exact LinkKeeps.refl _
  | cons x r ih => exact (hf s x).trans (ih _)

theorem LinkKeeps.forIdx {f : State → Nat → State} (hf : ∀ s x, LinkKeeps s (f s x)) (n : Nat) (s : State) : LinkKeeps s (forIdx n s f) :=
  LinkKeeps.foldl hf _ _

/-- A field write in one of the blocks. -/
theorem LinkKeeps.wr (s : State) (f : FRef) (v : Nat) (h : linkBlock f.addr) : LinkKeeps s (s.wr f v) where
  strap := rfl
  now := rfl
  latch := rfl
  commit := rfl
  ports := fun _ => rfl
  wt := rfl
  pix := rfl
  chk := rfl
  drv := rfl
  cal := rfl
  hk := rfl
  sys := rfl
  upd := rfl
  tap := rfl
  free := rfl
  pending := rfl
  reg := fun a ha => s.reg_wr_ne f v (by rintro rfl; exact ha h)

/-- Any change of the parts that may change. -/
theorem LinkKeeps.parts {s t : State}
    (h : t = { s with lastAt := t.lastAt, line := t.line, evc := t.evc, obs := t.obs, ring := t.ring, xa := t.xa, hif := t.hif,
                      dram := t.dram, pair := t.pair, ni := t.ni, cmp := t.cmp, out := t.out }) : LinkKeeps s t := by
  rw [h]
  constructor <;> (intros; rfl)


/-! The pair. -/

theorem setChan_keeps (s : State) (u : Bool) (c : Chan) : LinkKeeps s (s.setChan u c) := LinkKeeps.parts rfl
theorem modPair_keeps (s : State) (f : Pair → Pair) : LinkKeeps s (s.modPair f) := LinkKeeps.parts rfl
theorem setLease_keeps (s : State) (r : Nat) (x : Lease) : LinkKeeps s (s.setLease r x) := LinkKeeps.parts rfl
theorem out_keeps (s : State) (o : List Output) : LinkKeeps s { s with out := o } := LinkKeeps.parts rfl
theorem dram_keeps (s : State) (d : Dram) : LinkKeeps s { s with dram := d } := LinkKeeps.parts rfl
theorem pair_keeps (s : State) (d : Pair) : LinkKeeps s { s with pair := d } := LinkKeeps.parts rfl
theorem modFlow_keeps (s : State) (f : Nat) (g : Flow → Flow) : LinkKeeps s (s.modFlow f g) := LinkKeeps.parts rfl
theorem modCmp_keeps (s : State) (f : Cmp → Cmp) : LinkKeeps s (s.modCmp f) := LinkKeeps.parts rfl
theorem setLayer_keeps (s : State) (r l : Nat) (x : CLayer) : LinkKeeps s (s.setLayer r l x) := LinkKeeps.parts rfl
theorem modHif_keeps (s : State) (f : Hif → Hif) : LinkKeeps s (s.modHif f) := LinkKeeps.parts rfl
theorem setXid_keeps (s : State) (x : Nat) (v : Xid) : LinkKeeps s (s.setXid x v) := LinkKeeps.parts rfl
theorem modXid_keeps (s : State) (x : Nat) (f : Xid → Xid) : LinkKeeps s (s.modXid x f) := LinkKeeps.parts rfl
theorem setDch_keeps (s : State) (c : Nat) (x : DramChan) : LinkKeeps s (s.setDch c x) := LinkKeeps.parts rfl
theorem raise_keeps (s : State) (n : Nat) (d : List Byte) : LinkKeeps s (raise s n d) := LinkKeeps.of_reports (raise_reports s n d)
theorem count_keeps (s : State) (n k : Nat) : LinkKeeps s (count s n k) := LinkKeeps.of_reports (count_reports s n k)
theorem reported_keeps (s : State) (k : Nat) : LinkKeeps s (s.reported k) := LinkKeeps.parts rfl

theorem wr64_keeps (s : State) (f g : FRef) (v : Nat) (hf : linkBlock f.addr) (hg : linkBlock g.addr) : LinkKeeps s (s.wr64 f g v) :=
  (LinkKeeps.wr _ _ _ hf).trans (LinkKeeps.wr _ _ _ hg)

theorem bump_keeps (s : State) (f : FRef) (k : Nat) (hf : linkBlock f.addr) : LinkKeeps s (s.bump f k) := LinkKeeps.wr _ _ _ hf

theorem showMq_keeps (s : State) : LinkKeeps s (showMq s) := (LinkKeeps.wr _ _ _ (by simp [linkBlock])).trans (LinkKeeps.wr _ _ _ (by simp [linkBlock]))

theorem mirrorOut_keeps (s : State) (u : Bool) (i : MItem) : LinkKeeps s (mirrorOut s u i) := out_keeps _ _

theorem mirrorSend_keeps (s : State) (u : Bool) (k a : Nat) (b : List Nat) : LinkKeeps s (mirrorSend s u k a b) := by
  unfold mirrorSend
  split
  · exact LinkKeeps.refl _
  · dsimp only
    split
    · exact ((setChan_keeps _ _ _).trans (showMq_keeps _)).trans (mirrorOut_keeps _ _ _)
    · split
      · exact ((setChan_keeps _ _ _).trans (showMq_keeps _)).trans (raise_keeps _ _ _)
      · exact (setChan_keeps _ _ _).trans (showMq_keeps _)

theorem sendWhistle_keeps (s : State) (r : Nat) : LinkKeeps s (sendWhistle s r) := (setLease_keeps _ _ _).trans (out_keeps _ _)

theorem wr_red (s : State) (f : FRef) (v : Nat) (h : f.addr / 65536 = 15) : LinkKeeps s (s.wr f v) := LinkKeeps.wr _ _ _ (by simp [linkBlock, h])

theorem redRefresh_keeps (s : State) : LinkKeeps s (redRefresh s) := by
  unfold redRefresh
  split
  · exact LinkKeeps.refl _
  · dsimp only
    refine LinkKeeps.trans (LinkKeeps.trans (((((wr_red _ _ _ ?_).trans (wr_red _ _ _ ?_)).trans (wr_red _ _ _ ?_)).trans (wr_red _ _ _ ?_)).trans ((wr_red _ _ _ ?_).trans (wr_red _ _ _ ?_))) (pair_keeps _ _)) (LinkKeeps.foldl ?_ _ _)
    iterate 6 decide
    intro s x
    split
    · exact LinkKeeps.refl _
    · exact sendWhistle_keeps _ _

theorem emitDown_keeps (s : State) (r : Nat) (c : Copy) : LinkKeeps s (emitDown s r c) := out_keeps _ _

theorem sendSeq_keeps (s : State) (r : Nat) (c : Copy) : LinkKeeps s (sendSeq s r c) := by
  unfold sendSeq
  split
  · exact (setLease_keeps _ _ _).trans (emitDown_keeps _ _ _)
  · exact LinkKeeps.refl _

theorem dropPix_keeps (s : State) (r q : Nat) : LinkKeeps s (dropPix s r q) := setLease_keeps _ _ _

theorem seq_keeps (s : State) (r v : Nat) : LinkKeeps s (s.wr (F.RED_RSTAT_SEQ r) v) := LinkKeeps.wr _ _ _ (by simp [linkBlock])

theorem sendWaited_keeps (s : State) (r q : Nat) (c : Copy) : LinkKeeps s (sendWaited s r q c) := by
  unfold sendWaited
  dsimp only
  have h : LinkKeeps s (notePixel (s.wr (F.RED_RSTAT_SEQ r) ((q + 1) % 65536)) r q (reSeq c q)) := (seq_keeps s r _).trans (setLease_keeps _ r _)
  split
  · exact h.trans (sendSeq_keeps _ _ _)
  · exact h

theorem pumpStandby_keeps (k : Nat) (s : State) (r : Nat) : LinkKeeps s (pumpStandby k s r) := by
  induction k generalizing s with
  | zero => exact LinkKeeps.refl _
  | succ k ih =>
    unfold pumpStandby
    dsimp only
    split
    · exact LinkKeeps.refl _
    · split
      · split
        · exact ((((setLease_keeps _ _ _).trans (seq_keeps _ _ _)).trans (dropPix_keeps _ _ _)).trans (sendSeq_keeps _ _ _)).trans (ih _)
        · split
          · exact LinkKeeps.refl _
          · exact (((setLease_keeps _ _ _).trans (seq_keeps _ _ _)).trans (dropPix_keeps _ _ _)).trans (ih _)
      · split
        · exact LinkKeeps.refl _
        · exact ((setLease_keeps _ _ _).trans (sendWaited_keeps _ _ _ _)).trans (ih _)

theorem endStream_keeps (s : State) (r : Nat) : LinkKeeps s (endStream s r) :=
  ((pumpStandby_keeps _ _ _).trans (LinkKeeps.foldl (fun _ _ => sendWaited_keeps _ _ _ _) _ _)).trans (setLease_keeps _ _ _)

theorem mirrorReset_keeps (s : State) : LinkKeeps s (mirrorReset s) := (pair_keeps _ _).trans (showMq_keeps _)

theorem alignShow_keeps (s : State) : LinkKeeps s (alignShow s) := by
  unfold alignShow
  dsimp only
  split
  · exact LinkKeeps.refl _
  · exact (LinkKeeps.wr s F.WT_PAIR_ALIGNED _ (by simp [linkBlock])).trans (raise_keeps _ _ _)

theorem sendSync_keeps (s : State) (a : Nat) (h b : List Nat) : LinkKeeps s (sendSync s a h b) :=
  LinkKeeps.foldl (fun _ _ => mirrorSend_keeps _ _ _ _ _) _ _

theorem sendContent_keeps (s : State) (f : Nat) : LinkKeeps s (sendContent s f) := by
  unfold sendContent
  dsimp only
  refine LinkKeeps.trans (LinkKeeps.trans ?_ (LinkKeeps.foldl (fun s i => ?_) _ _)) (mirrorSend_keeps _ _ _ _ _)
  · exact (((((sendSync_keeps _ _ _ _).trans (LinkKeeps.foldl (fun _ _ => mirrorSend_keeps _ _ _ _ _) _ _)).trans
      (LinkKeeps.foldl (fun _ _ => sendSync_keeps _ _ _ _) _ _)).trans (LinkKeeps.foldl (fun _ _ => mirrorSend_keeps _ _ _ _ _) _ _)).trans
      (LinkKeeps.foldl (fun _ _ => mirrorSend_keeps _ _ _ _ _) _ _))
  · split
    · exact sendSync_keeps _ _ _ _
    · exact LinkKeeps.refl _

theorem becomeTarget_keeps (s : State) : LinkKeeps s (becomeTarget s) :=
  ((LinkKeeps.wr _ _ _ (by simp [linkBlock])).trans (modPair_keeps _ _)).trans (redRefresh_keeps _)

theorem startResync_keeps (s : State) : LinkKeeps s (startResync s) := by
  unfold startResync
  split
  · exact LinkKeeps.refl _
  · split
    · exact (modPair_keeps _ _).trans (sendContent_keeps _ _)
    · exact becomeTarget_keeps _

/-! The host interface. -/

theorem cplTell_keeps (s : State) : LinkKeeps s (cplTell s) := by
  unfold cplTell
  split
  · exact LinkKeeps.refl _
  · exact ((raise_keeps _ _ _).trans (modHif_keeps _ _)).trans (reported_keeps _ _)

theorem postCpl_keeps (s : State) (n : Nat) (r : CplRec) : LinkKeeps s (postCpl s n r) := by
  unfold postCpl
  split
  · exact LinkKeeps.refl _
  · dsimp only
    exact ((((LinkKeeps.wr s (F.HIF_CP_PROD_PROD n) _ (by simp [linkBlock])).trans (LinkKeeps.wr _ (F.HIF_CP_PROD_PHASE n) _ (by simp [linkBlock]))).trans
      (out_keeps _ _)).trans (modHif_keeps _ _)).trans (cplTell_keeps _)

theorem finishWith_keeps (s : State) (j : Job) (r : CplRec) : LinkKeeps s (finishWith s j r) := (modHif_keeps _ _).trans (postCpl_keeps _ _ _)

theorem finish_keeps (s : State) (j : Job) (n : Nat) : LinkKeeps s (finish s j n) := finishWith_keeps _ _ _

/-! Transactions. -/

theorem traceXa_keeps (s : State) (x p t : Nat) : LinkKeeps s (traceXa s x p t) := LinkKeeps.of_reports (trace_reports _ _ _ _)

theorem postXa_keeps (s : State) (x n : Nat) : LinkKeeps s (postXa s x n) := by
  unfold postXa
  dsimp only
  split
  · exact LinkKeeps.refl _
  · split
    · exact modXid_keeps _ _ _
    · exact (modXid_keeps _ _ _).trans (finishWith_keeps _ _ _)

theorem freeXid_keeps (s : State) (x : Nat) : LinkKeeps s (freeXid s x) := setXid_keeps _ _ _

theorem abortXid_keeps (s : State) (x a b c d : Nat) : LinkKeeps s (abortXid s x a b c d) := by
  unfold abortXid
  dsimp only
  have h : ∀ v : Xid, ∀ e : List Byte, LinkKeeps s (postXa (count (raise (traceXa (s.setXid x v) x 5 (s.xid x).target) 225 e) 36 1) x a) := fun v e =>
    ((((setXid_keeps s x v).trans (traceXa_keeps _ x 5 _)).trans (raise_keeps _ 225 e)).trans (count_keeps _ 36 1)).trans (postXa_keeps _ x a)
  split
  · exact h _ _
  · split
    · exact h _ _
    · exact (h _ _).trans (freeXid_keeps _ _)

theorem pairLink_keeps (s : State) : LinkKeeps s (pairLink s) := by
  unfold pairLink
  split
  · exact redRefresh_keeps _
  · dsimp only
    split
    · exact redRefresh_keeps _
    · split
      · refine LinkKeeps.trans ?_ (redRefresh_keeps _)
        have h := fun m => ((LinkKeeps.foldl (f := fun (s : State) r => s.setLease r { s.lease r with mark := s.rd (F.RED_RSTAT_SEQ r), jumped := false })
          (fun _ _ => setLease_keeps _ _ _) (enabledRings s) s).trans (modPair_keeps _ fun p => { p with wasUp := true, syncWait := some m })).trans (raise_keeps _ 436 (d2 0 0))
        split
        · exact (h _).trans (startResync_keeps _)
        · exact h _
      · refine LinkKeeps.trans ?_ (redRefresh_keeps _)
        have h : ∀ f : Pair → Pair, LinkKeeps s (raise (mirrorReset (((enabledRings s).foldl (fun s r => if holds s r then s else endStream s r) s).modPair f)) 435 (d2 0 0)) := by
          intro f
          refine LinkKeeps.trans (LinkKeeps.trans (LinkKeeps.trans (LinkKeeps.foldl (fun s r => ?_) _ _) (modPair_keeps _ f)) (mirrorReset_keeps _)) (raise_keeps _ 435 (d2 0 0))
          split
          · exact LinkKeeps.refl _
          · exact endStream_keeps _ _
        split
        · exact h _
        · refine (h _).trans (LinkKeeps.forIdx ?_ _ _)
          intro s x
          split
          · exact abortXid_keeps _ _ _ _ _ _
          · exact LinkKeeps.refl _

theorem pairCheck_keeps (s : State) : LinkKeeps s (pairCheck s) := (pairLink_keeps _).trans (alignShow_keeps _)

/-! DRAM. -/

theorem dramCmd_keeps (s : State) (c k a : Nat) : LinkKeeps s (dramCmd s c k a) := out_keeps _ _

theorem refresh_keeps (s : State) (c : Nat) : LinkKeeps s (refresh s c) := by
  unfold refresh
  dsimp only
  split
  · exact ((setDch_keeps _ _ _).trans (dramCmd_keeps _ _ _ _)).trans (dramCmd_keeps _ _ _ _)
  · exact (setDch_keeps _ _ _).trans (dramCmd_keeps _ _ _ _)

theorem refreshes_keeps (k : Nat) (s : State) (c : Nat) : LinkKeeps s (refreshes k s c) := by
  induction k generalizing s with
  | zero => exact LinkKeeps.refl _
  | succ k ih => exact (refresh_keeps s c).trans (ih _)

theorem enterSr_keeps (s : State) (c : Nat) : LinkKeeps s (enterSr s c) := by
  unfold enterSr
  split
  · exact LinkKeeps.refl _
  · exact (((((refreshes_keeps _ _ _).trans (LinkKeeps.wr _ _ _ (by simp [linkBlock]))).trans ((dramCmd_keeps _ _ _ _).trans (dramCmd_keeps _ _ _ _))).trans (LinkKeeps.wr _ _ _ (by simp [linkBlock]))).trans (LinkKeeps.wr _ _ _ (by simp [linkBlock]))).trans (dramCmd_keeps _ _ _ _)

theorem exitSr_keeps (s : State) (c : Nat) : LinkKeeps s (exitSr s c) := by
  unfold exitSr
  split
  · exact LinkKeeps.refl _
  · exact ((LinkKeeps.wr _ _ _ (by simp [linkBlock])).trans (dramCmd_keeps _ _ _ _)).trans (dramCmd_keeps _ _ _ _)

theorem settleSr_keeps (s : State) (c : Nat) : LinkKeeps s (settleSr s c) := by
  unfold settleSr
  split
  · exact enterSr_keeps _ _
  · exact LinkKeeps.refl _

theorem touch_keeps (s : State) (c : Nat) : LinkKeeps s (touch s c) := by
  unfold touch
  split
  · exact LinkKeeps.refl _
  · exact (exitSr_keeps _ _).trans (settleSr_keeps _ _)

theorem recode_keeps (s : State) (a : Nat) (l : List (Option Byte)) : LinkKeeps s (recode s a l) := by
  unfold recode
  refine LinkKeeps.foldl ?_ _ _
  intro s p
  dsimp only
  split
  · exact LinkKeeps.refl _
  · exact dram_keeps _ _

theorem storeBytes_keeps (l : List (Option Byte)) (s : State) (a : Nat) : LinkKeeps s (storeBytes s a l) := by
  induction l generalizing s a with
  | nil => exact LinkKeeps.refl _
  | cons b r ih =>
    unfold storeBytes
    refine LinkKeeps.trans ?_ (ih _ _)
    split
    · split
      · exact dram_keeps _ _
      · exact LinkKeeps.refl _
    · exact LinkKeeps.refl _

theorem dramWrite_keeps (s : State) (a : Nat) (l : List Byte) : LinkKeeps s (dramWrite s a l) :=
  ((touch_keeps _ _).trans (recode_keeps _ _ _)).trans (storeBytes_keeps _ _ _)

/-! The network. -/

theorem conceal_keeps (s : State) (f k : Nat) (l : List Nat) : LinkKeeps s (conceal s f k l) := LinkKeeps.foldl (fun _ _ => dramWrite_keeps _ _ _) _ _

theorem publishOne_keeps (s : State) (f k m : Nat) : LinkKeeps s (publishOne s f k m) := by
  unfold publishOne
  dsimp only
  have h : ∀ u : State, LinkKeeps u (((u.wr (F.NI_FSTAT_PUB f) k).wr (F.NI_FSTAT_PUB_VALID f) 1).wr64 (F.NI_FMEDIA_LO_MEDIA f) (F.NI_FMEDIA_HI_MEDIA f) m) := fun u =>
    ((LinkKeeps.wr _ _ _ (by simp [linkBlock])).trans (LinkKeeps.wr _ _ _ (by simp [linkBlock]))).trans (wr64_keeps _ _ _ _ (by simp [linkBlock]) (by simp [linkBlock]))
  split
  · exact (((modFlow_keeps _ _ _).trans (h _)).trans (LinkKeeps.wr _ _ _ (by simp [linkBlock]))).trans (raise_keeps _ _ _)
  · exact (modFlow_keeps _ _ _).trans (h _)

theorem groupDrop_keeps (s : State) (f m : Nat) : LinkKeeps s (groupDrop s f m) := by
  unfold groupDrop
  dsimp only
  split
  · exact LinkKeeps.refl _
  · refine LinkKeeps.trans (LinkKeeps.trans (LinkKeeps.foldl ?_ _ _) (modFlow_keeps _ _ _)) (raise_keeps _ _ _)
    intro s f
    split
    · exact (modFlow_keeps _ _ _).trans (bump_keeps _ _ _ (by simp [linkBlock]))
    · exact LinkKeeps.refl _

theorem groupSweep_keeps (s : State) (f : Nat) : LinkKeeps s (groupSweep s f) := by
  unfold groupSweep
  split
  · exact LinkKeeps.refl _
  · refine LinkKeeps.foldl (fun s t => ?_) _ _
    split
    · exact groupDrop_keeps _ _ _
    · exact LinkKeeps.refl _

theorem groupReady_keeps (s : State) (f k m : Nat) : LinkKeeps s (groupReady s f k m) := by
  unfold groupReady
  dsimp only
  split
  · exact bump_keeps _ _ _ (by simp [linkBlock])
  · split
    · exact (modFlow_keeps _ _ _).trans (LinkKeeps.foldl (fun _ _ => (modFlow_keeps _ _ _).trans (publishOne_keeps _ _ _ _)) _ _)
    · split
      · exact (modFlow_keeps _ _ _).trans (groupDrop_keeps _ _ _)
      · exact modFlow_keeps _ _ _

theorem publish_keeps (s : State) (f k m : Nat) : LinkKeeps s (publish s f k m) := by
  unfold publish
  split
  · exact groupReady_keeps _ _ _ _
  · exact publishOne_keeps _ _ _ _

theorem finishFrame_keeps (s : State) (f k m : Nat) (l : List Nat) : LinkKeeps s (finishFrame s f k m l) := by
  unfold finishFrame
  dsimp only
  refine LinkKeeps.trans ?_ (publish_keeps _ _ _ _)
  split
  · exact conceal_keeps _ _ _ _
  · exact ((conceal_keeps _ _ _ _).trans (bump_keeps _ _ _ (by simp [linkBlock]))).trans (raise_keeps _ _ _)

theorem dropFrame_keeps (s : State) (f m k : Nat) : LinkKeeps s (dropFrame s f m k) :=
  ((bump_keeps _ _ _ (by simp [linkBlock])).trans (raise_keeps _ _ _)).trans (groupDrop_keeps _ _ _)

theorem unwritten_keeps (s : State) (f m : Nat) : LinkKeeps s (unwritten s f m) := (bump_keeps _ _ _ (by simp [linkBlock])).trans (groupDrop_keeps _ _ _)

theorem decideFrame_keeps (s : State) (f : Nat) (b : Option Nat) (m : Nat) (l : List Nat) : LinkKeeps s (decideFrame s f b m l) := by
  unfold decideFrame
  split
  · exact unwritten_keeps _ _ _
  · split
    · exact finishFrame_keeps _ _ _ _ _
    · exact dropFrame_keeps _ _ _ _

theorem pairRun_keeps (n : Nat) (s : State) (f : Nat) : LinkKeeps s (pairRun n s f) := by
  induction n generalizing s with
  | zero => exact LinkKeeps.refl _
  | succ n ih =>
    unfold pairRun
    split
    · exact LinkKeeps.refl _
    · dsimp only
      split
      · exact (((modFlow_keeps _ _ _).trans (decideFrame_keeps _ _ _ _ _)).trans (groupSweep_keeps _ _)).trans (ih _)
      · split
        · exact LinkKeeps.refl _
        · split
          · exact LinkKeeps.refl _
          · refine LinkKeeps.trans (LinkKeeps.trans ?_ (groupSweep_keeps _ _)) (ih _)
            split
            · exact (modFlow_keeps _ _ _).trans (unwritten_keeps _ _ _)
            · split
              · exact (modFlow_keeps _ _ _).trans (finishFrame_keeps _ _ _ _ _)
              · exact (modFlow_keeps _ _ _).trans (dropFrame_keeps _ _ _ _)

theorem alone_keeps (s : State) (f : Nat) (c : PairFrame) : LinkKeeps s (alone s f c) := (modFlow_keeps _ _ _).trans (raise_keeps _ _ _)

theorem pairFinishAll_keeps (s : State) : LinkKeeps s (pairFinishAll s) :=
  LinkKeeps.forIdx (fun _ _ => (LinkKeeps.foldl (fun _ _ => alone_keeps _ _ _) _ _).trans (pairRun_keeps _ _ _)) _ _

/-! Composition. -/

theorem showFlipPend_keeps (s : State) (r l : Nat) : LinkKeeps s (showFlipPend s r l) := (LinkKeeps.wr _ _ _ (by simp [linkBlock]))

theorem showMapPend_keeps (s : State) (r : Nat) : LinkKeeps s (showMapPend s r) := LinkKeeps.wr _ _ _ (by simp [linkBlock])

theorem postFlip_keeps (s : State) (f : Flip) (n : Nat) : LinkKeeps s (postFlip s f n) := by
  unfold postFlip
  split
  · exact LinkKeeps.refl _
  · exact finishWith_keeps _ _ _

theorem supersede_keeps (s : State) (m l : Nat) : LinkKeeps s (supersede s m l) := (modCmp_keeps _ _).trans (LinkKeeps.foldl (fun _ _ => postFlip_keeps _ _ _) _ _)

theorem flipsSweep_keeps (s : State) : LinkKeeps s (flipsSweep s) := (modCmp_keeps _ _).trans (LinkKeeps.foldl (fun _ _ => postFlip_keeps _ _ _) _ _)

theorem flipAccepted_keeps (s : State) (g : Flip) : LinkKeeps s (flipAccepted s g) :=
  ((((modCmp_keeps _ _).trans (supersede_keeps _ _ _)).trans (modCmp_keeps _ _)).trans (LinkKeeps.foldl (fun _ _ => showFlipPend_keeps _ _ _) _ _)).trans (flipsSweep_keeps _)

theorem cmpAck_keeps (s : State) (j n : Nat) : LinkKeeps s (cmpAck s j n) := by
  unfold cmpAck
  split
  · exact ((LinkKeeps.foldl (fun _ _ => flipAccepted_keeps _ _) _ _).trans (modCmp_keeps _ _)).trans (LinkKeeps.forIdx (fun _ _ => showMapPend_keeps _ _) _ _)
  · dsimp only
    have h := ((modCmp_keeps s fun c => { c with flips := c.flips.filter (·.job != some j), loads := c.loads.filter (·.job != some j) }).trans
      (LinkKeeps.foldl (f := fun s (f : Flip) => f.rings.foldl (fun s e => showFlipPend s e.1 f.layer) s)
        (fun _ _ => LinkKeeps.foldl (fun _ _ => showFlipPend_keeps _ _ _) _ _) (s.cmp.flips.filter fun f => f.job == some j) _)).trans
      (LinkKeeps.forIdx (f := showMapPend) showMapPend_keeps 8 _)
    split
    · exact h.trans (finish_keeps _ _ _)
    · exact h

theorem cmpMirrorDown_keeps (s : State) : LinkKeeps s (cmpMirrorDown s) :=
  (LinkKeeps.foldl (fun _ _ => cmpAck_keeps _ _ _) _ _).trans (LinkKeeps.foldl (fun _ _ => cmpAck_keeps _ _ _) _ _)

theorem holdBuf_keeps (s : State) (r l f k m : Nat) : LinkKeeps s (holdBuf s r l f k m) :=
  (((setLayer_keeps _ _ _ _).trans (LinkKeeps.wr _ _ _ (by simp [linkBlock]))).trans (LinkKeeps.wr _ _ _ (by simp [linkBlock]))).trans (wr64_keeps _ _ _ _ (by simp [linkBlock]) (by simp [linkBlock]))

theorem staleLayer_keeps (s : State) (r l f p : Nat) (h : Bool) (m : Nat) : LinkKeeps s (staleLayer s r l f p h m) := by
  unfold staleLayer
  dsimp only
  have g : ∀ (x : CLayer) (b : Bool) (v : Nat), LinkKeeps s ((if b = true then (s.setLayer r l x).bump (F.CMP_LCNT_STALE r l) 1 else s.setLayer r l x).wr (F.CMP_LSTAT_STALE r l) v) := by
    intro x b v
    refine LinkKeeps.trans ?_ (LinkKeeps.wr _ _ _ (by simp [linkBlock]))
    split
    · exact (setLayer_keeps _ _ _ _).trans (bump_keeps _ _ _ (by simp [linkBlock]))
    · exact setLayer_keeps _ _ _ _
  split
  · exact (g _ _ _).trans (raise_keeps _ _ _)
  · exact g _ _ _

theorem takeSample_keeps (s : State) (r l f n m : Nat) : LinkKeeps s (takeSample s r l f n m) := by
  unfold takeSample
  dsimp only
  refine LinkKeeps.trans ?_ (staleLayer_keeps _ _ _ _ _ _ _)
  have g := (setLayer_keeps s r l { s.layer r l with waits := false }).trans
    (modCmp_keeps _ fun c => { c with samples := c.samples.filter fun e => !(e.1 == r && e.2.1 == l && frameLe e.2.2.1 n) })
  split
  · exact g
  · split
    · exact g.trans (holdBuf_keeps _ _ _ _ _ _)
    · split
      · split
        · exact g.trans (holdBuf_keeps _ _ _ _ _ _)
        · exact g.trans (raise_keeps _ _ _)
      · exact g.trans (raise_keeps _ _ _)

theorem chooseLayer_keeps (s : State) (r l f n : Nat) : LinkKeeps s (chooseLayer s r l f n) := by
  unfold chooseLayer
  dsimp only
  split
  · split
    · exact takeSample_keeps _ _ _ _ _ _
    · exact setLayer_keeps _ _ _ _
  · split
    · split
      · exact ((holdBuf_keeps _ _ _ _ _ _).trans (staleLayer_keeps _ _ _ _ _ _ _)).trans (mirrorSend_keeps _ _ _ _ _)
      · exact (holdBuf_keeps _ _ _ _ _ _).trans (staleLayer_keeps _ _ _ _ _ _ _)
    · split
      · exact (staleLayer_keeps _ _ _ _ _ _ _).trans (mirrorSend_keeps _ _ _ _ _)
      · exact staleLayer_keeps _ _ _ _ _ _ _

theorem chooseAlone_keeps (s : State) : LinkKeeps s (chooseAlone s) := by
  refine LinkKeeps.forIdx (fun s r => LinkKeeps.forIdx (fun s l => ?_) _ _) _ _
  dsimp only
  split
  · exact LinkKeeps.refl _
  · split
    · split
      · exact (setLayer_keeps _ _ _ _).trans (chooseLayer_keeps _ _ _ _ _)
      · exact setLayer_keeps _ _ _ _
    · exact setLayer_keeps _ _ _ _

theorem digestSkip_keeps (s : State) : LinkKeeps s (digestSkip s) := (LinkKeeps.wr _ _ _ (by simp [linkBlock]))

/-- What a change of the mirror link leaves alone. -/
theorem linkCheck_keeps (s : State) : LinkKeeps s (linkCheck s) := by
  unfold linkCheck
  dsimp only
  split
  · exact ((((pairCheck_keeps _).trans (cmpMirrorDown_keeps _)).trans (pairFinishAll_keeps _)).trans (chooseAlone_keeps _)).trans (digestSkip_keeps _)
  · exact pairCheck_keeps _

/-! The command rings. -/

theorem setJob_keeps (s : State) (j : Job) : LinkKeeps s (s.setJob j) := LinkKeeps.parts rfl

theorem takeHead_keeps (s : State) (n : Nat) (b : List Byte) : LinkKeeps s (takeHead s n b).1 := by
  unfold takeHead
  dsimp only
  exact ((LinkKeeps.trans (LinkKeeps.wr s (F.HIF_CR_CONS_CONS n) _ (by simp [linkBlock])) (LinkKeeps.wr _ (F.HIF_CR_STAT_WAITING n) 0 (by simp [linkBlock]))).trans
    (LinkKeeps.wr _ (F.RED_MIDX_IDX n) _ (by simp [linkBlock]))).trans (modHif_keeps _ _)

theorem tellXa_keeps (s : State) (j : Job) (t : Nat) (d : List Byte) : LinkKeeps s (tellXa s j t d) := by
  unfold tellXa
  split
  · exact mirrorSend_keeps _ _ _ _ _
  · exact LinkKeeps.refl _

theorem begun_keeps (s : State) (b : List Byte) : LinkKeeps s (begun s b) := by
  unfold begun
  split
  · exact setXid_keeps _ _ _
  · exact LinkKeeps.refl _

theorem beginDone_keeps (s : State) (j : Job) : LinkKeeps s (beginDone s j) := (tellXa_keeps _ _ _ _).trans (finish_keeps _ _ _)

theorem tryHead_keeps (s : State) (n : Nat) : LinkKeeps s (tryHead s n) := by
  unfold tryHead
  dsimp only
  split
  · exact LinkKeeps.refl _
  · have h := (begun_keeps s (s.hif.heads.get [] n)).trans (takeHead_keeps _ n (s.hif.heads.get [] n))
    split
    · exact (h.trans (setJob_keeps _ _)).trans (finishWith_keeps _ _ _)
    · exact (h.trans (setJob_keeps _ _)).trans (beginDone_keeps _ _)
    · exact h

theorem startXid_keeps (s : State) (x t : Nat) : LinkKeeps s (startXid s x t) := by
  unfold startXid planXid
  dsimp only
  split
  · rename_i h
    obtain ⟨rfl, -⟩ := Prod.mk.inj h
    exact (setXid_keeps _ _ _).trans (abortXid_keeps _ _ _ _ _ _)
  · rename_i h
    obtain ⟨rfl, -⟩ := Prod.mk.inj h
    exact (setXid_keeps _ _ _).trans (modXid_keeps _ _ _)

theorem autoStart_keeps (n : Nat) (s : State) : LinkKeeps s (autoStart n s) := by
  induction n generalizing s with
  | zero => exact LinkKeeps.refl _
  | succ n ih =>
    unfold autoStart
    dsimp only
    split
    · exact (LinkKeeps.trans (LinkKeeps.parts rfl) (startXid_keeps _ _ _)).trans (ih _)
    · exact LinkKeeps.refl _

/-- What a second look at what waits for an XID leaves alone. -/
theorem retryHeads_keeps (s : State) : LinkKeeps s (retryHeads s) :=
  ((autoStart_keeps _ _).trans (LinkKeeps.forIdx tryHead_keeps _ _)).trans (cplTell_keeps _)

end Sys2Proof.Machine
end

