-- ==== Sys2Proof/Laws/Memory.lean ====
section
/-! SUPPORT. Laws/Memory.lean: every operation on DRAM and on the flash keeps the canonical form of Table.wf, and both hold it at reset. -/
namespace Sys2Proof.Machine

/-- The code of a written range changes no byte. -/
theorem recode_mem (s : State) (a : Nat) (l : List (Option Byte)) : (recode s a l).dram.mem = s.dram.mem := by
  unfold recode
  generalize (List.range (l.length / 8 + 2)).map (a / 8 + ·) = ps
  induction ps generalizing s with
  | nil => rfl
  | cons p ps ih =>
    simp only [List.foldl_cons]
    rw [ih]
    split <;> rfl

/-- Storing bytes keeps the canonical form of DRAM. -/
theorem storeBytes_wf (l : List (Option Byte)) : ∀ (s : State) (a : Nat), Table.wf (fun _ => 0#8) s.dram.mem = true →
    Table.wf (fun _ => 0#8) (storeBytes s a l).dram.mem = true := by
  induction l with
  | nil => intro s a h; exact h
  | cons b l ih =>
    intro s a h
    unfold storeBytes
    apply ih
    cases b with
    | none => exact h
    | some v =>
      dsimp only
      split
      · exact Table.wf_set a v h
      · exact h

/-- Refreshes change no byte. -/
theorem refreshes_mem (k c : Nat) : ∀ s : State, (refreshes k s c).dram.mem = s.dram.mem := by
  induction k with
  | zero => intro s; rfl
  | succ k ih =>
    intro s
    unfold refreshes
    rw [ih]
    unfold refresh
    dsimp only
    split <;> rfl

/-- Entry to self-refresh changes no byte. -/
theorem enterSr_mem (s : State) (c : Nat) : (enterSr s c).dram.mem = s.dram.mem := by
  have w : ∀ (s : State) (f : FRef) (v : Nat), (s.wr f v).dram = s.dram := fun _ _ _ => rfl
  have d : ∀ (s : State) (c k a : Nat), (dramCmd s c k a).dram = s.dram := fun _ _ _ _ => rfl
  unfold enterSr
  split
  · rfl
  · simp only [d, w, refreshes_mem]

/-- Exit from self-refresh changes no byte. -/
theorem exitSr_mem (s : State) (c : Nat) : (exitSr s c).dram.mem = s.dram.mem := by
  unfold exitSr
  split <;> rfl

/-- A channel that goes back into self-refresh changes no byte. -/
theorem settleSr_mem (s : State) (c : Nat) : (settleSr s c).dram.mem = s.dram.mem := by
  unfold settleSr
  split
  · exact enterSr_mem s c
  · rfl

/-- An access that wakes a channel changes no byte. -/
theorem touch_mem (s : State) (c : Nat) : (touch s c).dram.mem = s.dram.mem := by
  unfold touch
  split
  · rfl
  · rw [settleSr_mem, exitSr_mem]

/-- A write with byte enables keeps the canonical form of DRAM. -/
theorem dramStore_wf (s : State) (a : Nat) (l : List (Option Byte)) (h : Table.wf (fun _ => 0#8) s.dram.mem = true) :
    Table.wf (fun _ => 0#8) (dramStore s a l).dram.mem = true := by
  unfold dramStore
  apply storeBytes_wf
  rw [recode_mem, touch_mem]
  exact h

/-- A write of whole bytes keeps the canonical form of DRAM. -/
theorem dramWrite_wf (s : State) (a : Nat) (l : List Byte) (h : Table.wf (fun _ => 0#8) s.dram.mem = true) :
    Table.wf (fun _ => 0#8) (dramWrite s a l).dram.mem = true := dramStore_wf s a _ h

/-- The zero fill of a channel keeps the canonical form of DRAM. -/
theorem zeroFill_wf (s : State) (c : Nat) (h : Table.wf (fun _ => 0#8) s.dram.mem = true) :
    Table.wf (fun _ => 0#8) (zeroFill s c).dram.mem = true := Table.wf_filter _ h

/-- Programming keeps the canonical form of the flash. -/
theorem flashProg_wf (s : State) (a : Nat) (l : List Byte) (h : Table.wf (fun _ => 0xFF#8) s.upd.flash = true) :
    Table.wf (fun _ => 0xFF#8) (flashProg s a l).upd.flash = true := Table.wf_setMany a _ h

/-- Erasing keeps the canonical form of the flash. -/
theorem flashErase_wf (s : State) (a n : Nat) (h : Table.wf (fun _ => 0xFF#8) s.upd.flash = true) :
    Table.wf (fun _ => 0xFF#8) (flashErase s a n).upd.flash = true := Table.wf_clear a n h

/-- Entries below a bound before entries above it rise together. -/
theorem Table.rises_split {α : Type} (old new : Table α) (n : Nat) (h : Table.rises new = true) (hn : ∀ x ∈ new, n ≤ x.1) :
    Table.rises old = true → (∀ x ∈ old, x.1 < n) → Table.rises (old ++ new) = true := by
  have key : ∀ (t : Table α) (k : Nat), k < n → Table.risesAbove k t = true → (∀ x ∈ t, x.1 < n) → Table.risesAbove k (t ++ new) = true := by
    intro t
    induction t with
    | nil =>
      intro k hk _ _
      cases new with
      | nil => rfl
      | cons y r =>
        have hy := hn y (List.mem_cons_self ..)
        simp only [List.nil_append, Table.risesAbove, Bool.and_eq_true, decide_eq_true_eq]
        exact ⟨by omega, h⟩
    | cons y r ih =>
      intro k _ ht hx
      simp only [List.cons_append, Table.risesAbove, Bool.and_eq_true, decide_eq_true_eq] at ht ⊢
      exact ⟨ht.1, ih y.1 (hx y (List.mem_cons_self ..)) ht.2 fun x hm => hx x (List.mem_cons_of_mem _ hm)⟩
  intro ho hx
  cases old with
  | nil => exact h
  | cons y r => exact key r y.1 (hx y (List.mem_cons_self ..)) ho fun x hm => hx x (List.mem_cons_of_mem _ hm)

/-- The flash with the golden image kept is in its canonical form (R388). -/
theorem keepGolden_wf (old new : Table Byte) (ho : Table.wf (fun _ => 0xFF#8) old = true) (hn : Table.wf (fun _ => 0xFF#8) new = true) :
    Table.wf (fun _ => 0xFF#8) (keepGolden old new) = true := by
  have h1 := Table.wf_filter (fun e => decide (e.1 < goldenEnd)) ho
  have h2 := Table.wf_filter (fun e => decide (goldenEnd ≤ e.1)) hn
  unfold keepGolden
  simp only [Table.wf, Bool.and_eq_true] at h1 h2 ⊢
  refine ⟨Table.rises_split _ _ goldenEnd h2.1 (fun x hx => ?_) h1.1 (fun x hx => ?_), ?_⟩
  · simpa using (List.mem_filter.1 hx).2
  · simpa using (List.mem_filter.1 hx).2
  · rw [List.all_append, h1.2, h2.2]
    rfl

/-- DRAM and the flash are in their canonical form at reset. -/
theorem reset_memory_wf : Table.wf (fun _ => 0#8) State.reset.dram.mem = true ∧ Table.wf (fun _ => 0xFF#8) State.reset.upd.flash = true :=
  ⟨rfl, rfl⟩

end Sys2Proof.Machine
end

