-- ==== Sys2Proof/Laws/Out.lean ====
section
/-! SUPPORT. Laws/Out.lean: what was sent stays sent: events, counters and the end of a command only append to `out`. -/
namespace Sys2Proof.Machine

theorem out_foldl {β : Type} (f : State → β → State) (hf : ∀ s x, s.out <+: (f s x).out) (l : List β) (s : State) : s.out <+: (l.foldl f s).out := by
  induction l generalizing s with
  | nil => exact List.prefix_rfl
  | cons x r ih => exact (hf s x).trans (ih _)

theorem out_foldl_eq {β : Type} (f : State → β → State) (hf : ∀ s x, (f s x).out = s.out) (l : List β) (s : State) : (l.foldl f s).out = s.out := by
  induction l generalizing s with
  | nil => rfl
  | cons x r ih => exact (ih _).trans (hf s x)

theorem evalTgt_out (s : State) (t : Nat) : s.out <+: (evalTgt s t).out := by
  unfold evalTgt
  dsimp only
  split
  · split
    · exact List.prefix_rfl
    · exact List.prefix_append _ _
  · exact List.prefix_rfl

theorem putRecord_out (s : State) (t : Nat) (r : Record) : s.out <+: (putRecord s t r).out := by
  unfold putRecord
  dsimp only
  refine List.IsPrefix.trans ?_ (evalTgt_out _ _)
  exact List.prefix_append _ _

theorem hostTry_out (s : State) (n : Nat) (q : Source) : s.out <+: (hostTry s n q).1.out := by
  unfold hostTry
  split
  · exact List.prefix_rfl
  · split
    · exact putRecord_out (s.setHsrc n _) _ _
    · dsimp only [refuseAt]
      split <;> exact List.prefix_rfl

theorem hostFire_out (s : State) (n t : Nat) (d : List Byte) : s.out <+: (hostFire s n t d).1.out := by
  unfold hostFire
  dsimp only
  split
  · exact hostTry_out _ _ _
  · exact List.prefix_rfl

theorem outqPut_out (s : State) (e : OutPkt) : (outqPut s e).1.out = s.out := by
  unfold outqPut
  split
  · rfl
  · dsimp only
    split <;> rfl

theorem upTry_out (s : State) (n : Nat) (q : Source) : (upTry s n q).1.out = s.out := by
  unfold upTry
  split
  · rfl
  · split
    · exact outqPut_out _ _
    · exact outqPut_out s _

theorem upFire_out (s : State) (n t : Nat) (d : List Byte) : (upFire s n t d).1.out = s.out := by
  unfold upFire
  dsimp only
  split
  · exact upTry_out _ _ _
  · rfl

theorem trace_out (s : State) (c i : Nat) (d : List Byte) : (trace s c i d).out = s.out := by
  unfold trace
  split <;> rfl

theorem addCounts_out (l : List Nat) (a : State × List (Nat × List Byte)) :
    (l.foldl (fun a k => let r := addCount a.1 k 1; (r.1, a.2 ++ r.2)) a).1.out = a.1.out := by
  induction l generalizing a with
  | nil => rfl
  | cons x r ih => exact ih _

theorem fireOne_out (s : State) (n : Nat) (d : List Byte) : s.out <+: (fireOne s n d).1.out := by
  unfold fireOne
  split
  · exact List.prefix_rfl
  · dsimp only
    have h0 := addCounts_out (selCounters s n) (s, [])
    generalize ((selCounters s n).foldl (fun a k => let r := addCount a.1 k 1; (r.1, a.2 ++ r.2)) (s, [])) = a at h0 ⊢
    dsimp only at h0
    split
    · rw [h0]
    · have h1 : (if n < 504 && decide (a.1.rd F.OBS_TEVT_LO ≤ n) && decide (n ≤ a.1.rd F.OBS_TEVT_HI) then trace a.1 1 n d else a.1).out = s.out := by
        split
        · rw [trace_out, h0]
        · exact h0
      generalize (if n < 504 && decide (a.1.rd F.OBS_TEVT_LO ≤ n) && decide (n ≤ a.1.rd F.OBS_TEVT_HI) then trace a.1 1 n d else a.1) = b at h1 ⊢
      have h2 : s.out <+: (if b.isCarriage = true then (b, ([] : List (Nat × List Byte))) else hostFire b n (wallNs b) (pad16 d)).1.out := by
        split
        · rw [h1]
        · rw [← h1]; exact hostFire_out _ _ _ _
      split
      · rw [upFire_out]; exact h2
      · exact h2

theorem fireAll_out (k : Nat) (s : State) (l : List (Nat × List Byte)) : s.out <+: (fireAll k s l).out := by
  induction k generalizing s l with
  | zero => exact List.prefix_rfl
  | succ k ih =>
    cases l with
    | nil => exact List.prefix_rfl
    | cons e r => exact (fireOne_out s e.1 e.2).trans (ih _ _)

/-- An event only appends to what was sent. -/
theorem raise_out (s : State) (n : Nat) (d : List Byte) : s.out <+: (raise s n d).out := fireAll_out _ _ _

theorem raises_out (s : State) (l : List (Nat × List Byte)) : s.out <+: (raises s l).out := out_foldl _ (fun _ _ => raise_out _ _ _) _ _

theorem raiseLim_out (s : State) (n k : Nat) (d : List Byte) : s.out <+: (raiseLim s n k d).out := by
  unfold raiseLim
  split
  · exact raise_out _ _ _
  · exact List.prefix_rfl

theorem count_out (s : State) (n k : Nat) : s.out <+: (count s n k).out := raises_out (addCount s n k).1 _

theorem putTrace_out (s : State) (t : Trace) : s.out <+: (putTrace s t).out := by
  unfold putTrace
  dsimp only
  split
  · exact List.prefix_rfl
  · split
    · split
      · refine List.IsPrefix.trans ?_ (raise_out _ _ _)
        exact List.prefix_rfl
      · exact List.prefix_rfl
    · exact List.prefix_rfl

theorem flushTrace_out (s : State) : s.out <+: (flushTrace s).out := by
  unfold flushTrace
  dsimp only
  have h : ∀ l : List Trace, ∀ o : Obs, s.out <+: (l.foldl putTrace { s with obs := o }).out :=
    fun l o => out_foldl _ putTrace_out l { s with obs := o }
  split
  · exact h _ _
  · split
    · refine List.IsPrefix.trans ?_ (raise_out _ _ _)
      exact h _ _
    · exact h _ _

theorem upReleased_out (s : State) (n : Nat) : (upReleased s n).out = s.out := by
  unfold upReleased
  dsimp only
  split
  · rfl
  · split
    · rfl
    · exact upTry_out _ _ _

theorem fillWaiting_out (k : Nat) (s : State) : (fillWaiting k s).out = s.out := by
  induction k generalizing s with
  | zero => rfl
  | succ k ih =>
    unfold fillWaiting
    split
    · rfl
    · rw [ih, outqPut_out]

theorem drainUp_out (k : Nat) (s : State) : (drainUp k s).out = s.out := by
  induction k generalizing s with
  | zero => rfl
  | succ k ih =>
    unfold drainUp
    split
    · rfl
    · split
      · rfl
      · rw [ih, upTry_out]

theorem outqSweep_out (s : State) : (outqSweep s).out = s.out := by
  unfold outqSweep
  dsimp only
  split
  · rfl
  · rw [drainUp_out, fillWaiting_out]
    rw [out_foldl_eq]
    intro u e
    split
    · exact upReleased_out _ _
    · rfl

theorem useTrain_out (s : State) (p : Nat) (c : Bool) : s.out <+: (useTrain s p c).out := by
  unfold useTrain
  split
  · exact List.prefix_rfl
  · dsimp only
    split
    · exact List.prefix_append _ _
    · split
      · exact List.prefix_append _ _
      · split
        · exact List.prefix_append _ _
        · rw [outqSweep_out]
          exact List.prefix_append _ _

theorem owedTrains_out (s : State) : s.out <+: (owedTrains s).out := by
  refine out_foldl _ (fun s p => ?_) _ s
  split
  · exact useTrain_out (s.modPort p _) p false
  · exact List.prefix_rfl

/-- The end of a command only appends to what was sent. -/
theorem settle_out (s t : State) : t.out <+: (settle s t).out := by
  have h := flushTrace_out (outqSweep (owedTrains t))
  rw [outqSweep_out] at h
  unfold settle
  generalize flushTrace (outqSweep (owedTrains t)) = u at h
  dsimp only
  rw [transmit_line _ { u with out := _ }]
  exact ((owedTrains_out t).trans h).trans (List.prefix_append _ _)

/-- What an ordinary command's effect sent is what the command sent, with what its end reports after it; a command that takes no position. -/
theorem ordinary_out (f : State → State) (s t : State) (h : ordinary f s = .next t)
    (h5 : (f s).on F.CL_MYPOS_VALID = true → s.on F.CL_MYPOS_VALID = true) : (f s).out <+: t.out := by
  simp only [ordinary, Host.Outcome.next.injEq] at h
  subst h
  rw [placed_eq s (f s) h5]
  exact settle_out s (f s)

end Sys2Proof.Machine
end

