-- ==== Sys2Proof/Tests/Slice0.lean ====
section
/-! SUPPORT. Tests/Slice0.lean: for every statement with hypotheses, states and operands that meet them together; ill-formed commands that the
check refuses; and small tests of single commands. -/
namespace Sys2Proof.Tests

open Sys2Proof.Machine

set_option Elab.async false

/-- A device in a role with the registers listed set, nothing else happening. -/
def dev (r : Role) (l : List (FRef × Nat)) : State := l.foldl (fun s e => s.wr e.1 e.2) (State.fresh ⟨r, 0, 1, 0x200⟩ [])

/-- The state a step answers (the second state where it stops). -/
def nextOf (o : Host.Outcome State Fault Refusal) (s : State) : State := match o with | .next t => t | _ => s

/-- A packet copy that arrives whole with its CRC. -/
def sealed (ctl : Byte) (route : Word) (data : List Byte) : Copy :=
  let c : Copy := ⟨ctl, route, 0, data, 0, 0, true⟩
  { c with crc := BitVec.ofNat 32 (copyCrc c) }

/-- A packet copy whose CRC has been checked. -/
def raw (ctl : Byte) (route : Word) (data : List Byte) : Copy := ⟨ctl, route, 0, data, 0, 0, true⟩

/-- The register at an address (an empty one where there is none). -/
def specOf (a : Nat) : RegSpec := (findReg a).getD ⟨0, [], []⟩

/-- A TRAIN group of zeros with its CRC. -/
def trainGroup : List Byte := List.replicate 22 0 ++ bytesBE 2 (crc16 (List.replicate 22 0))

def onSys (f : Sys → Sys) (s : State) : State := { s with sys := f s.sys }
def onRing (f : Ring → Ring) (s : State) : State := { s with ring := f s.ring }
def onPort (n : Nat) (f : Port → Port) (s : State) : State := s.setPort n (f (s.port n))
def onWt (f : Wt → Wt) (s : State) : State := { s with wt := f s.wt }
def onXa (f : Xa → Xa) (s : State) : State := { s with xa := f s.xa }
def onHif (f : Hif → Hif) (s : State) : State := { s with hif := f s.hif }
def onPair (f : Pair → Pair) (s : State) : State := { s with pair := f s.pair }
def onNi (f : Ni → Ni) (s : State) : State := { s with ni := f s.ni }
def onCmp (f : Cmp → Cmp) (s : State) : State := { s with cmp := f s.cmp }
def onPix (f : Pix → Pix) (s : State) : State := { s with pix := f s.pix }
def onChk (f : Chk → Chk) (s : State) : State := { s with chk := f s.chk }
def onDrv (f : Drv → Drv) (s : State) : State := { s with drv := f s.drv }
def onCal (f : Cal → Cal) (s : State) : State := { s with cal := f s.cal }
def onHk (f : Hk → Hk) (s : State) : State := { s with hk := f s.hk }
def onUpd (f : Upd → Upd) (s : State) : State := { s with upd := f s.upd }
def onGen (n : Nat) (s : State) : State := s.setGen n { Gen.init with started := true }
def onEvc (f : Evc → Evc) (s : State) : State := { s with evc := f s.evc }

/-- A descriptor that command ring `n` consumed, as job 1. -/
def jobOf (n : Nat) (ran : Bool) (bytes : List Byte) : Job :=
  { id := 1, ring := n, index := 0, bytes := bytes, ran := ran, count := 0, rsp := 0, rspRoute := 0, rspRhb := 0, words := [], ovr := 0, gaps := 0,
    missing := 0, lost := false, data := [], parts := 0, answered := false }

/-- A member of an enabled pair with its mirror port UP. -/
def mate (l : List (FRef × Nat)) : State :=
  dev .sender ([(F.RED_CFG_EN, 1), (F.RED_CFG_MPORT, 0), (F.CL_PCFG_EN 0, 1), (F.CL_PCFG_KIND 0, 3), (F.CL_PSTAT_STATE 0, 6)] ++ l)

/-- A sender whose port 1 is the end of ring 0, UP. -/
def feeder (l : List (FRef × Nat)) : State :=
  dev .sender ([(F.CL_PCFG_EN 1, 1), (F.CL_PCFG_KIND 1, 1), (F.CL_PSTAT_STATE 1, 6)] ++ l)

/-- A mark that reaches a carriage. -/
def markOf (frame : Nat) : Mark := parseMark (bugleBytes 0 frame 0 0 0x24 100 0 0)

/-- Ring 0 was heard from the partner. -/
def heard (s : State) : State := onPair (fun x => { x with lease := [(0, { Lease.init with heard := true }), (1, { Lease.init with heard := true })] }) s

/-- One device of 48 lamps in RUN, a pass in hand whose sets fail the check of the diagonal. -/
def passKeeps : State :=
  dev .standalone [(F.CAL_LIM1_DIAGMIN, 1), (F.CAL_LIM0_PLAUS_MAX, 0), (F.DRV_PCFG_DCOUNT 0, 1), (F.DRV_TOPO_S_M1, 0), (F.CAL_STAT_ENG, 1),
    (F.SYS_MSTAT_MODE, 3), (F.MC_STAT_STATE 0, 2)]

/-- One device of 48 lamps in RUN, a pass in hand that changes lamp 0. -/
def passMoves : State :=
  onPix (fun x => { x with bankA := ⟨false, [(0, 5)], []⟩, bankB := ⟨false, [(0, 5)], []⟩ })
    (dev .standalone [(F.CAL_STAT_INIT, 1), (F.CAL_LIM1_DIAGMIN, 0), (F.CAL_LIM0_PLAUS_MAX, 48), (F.DRV_PCFG_DCOUNT 0, 1), (F.DRV_TOPO_S_M1, 0),
      (F.CAL_STAT_ENG, 1), (F.SYS_MSTAT_MODE, 3), (F.MC_STAT_STATE 0, 2)])

/-- The descriptor in hand, from one closed condition. -/
theorem inHand_of {s : State} {n t : Nat} {j : Job}
    (h : (s.hif.jobs.find? fun k => k.ring % 16 == n && !k.ran) = some j ∧ j.ring = n ∧ j.type = t ∧ behind s j = false ∧
      linkRefuses s t = false ∧ NoHeadWaits s) : InHand s n t j :=
  ⟨h.1, h.2.1, h.2.2.1, h.2.2.2.1, h.2.2.2.2.1, h.2.2.2.2.2⟩

/-- The packet that the checks of a flow keep. -/
def keptOf (s : State) (f : Nat) (p : List Byte) : Rtp :=
  match parseRtp s f p with
  | .inl r => r
  | .inr _ => ⟨false, 0, 0, [], []⟩

/-- A packet that the checks keep is what they give. -/
theorem parse_keptOf {s : State} {f : Nat} {p : List Byte} (h : (parseRtp s f p).isLeft = true) : parseRtp s f p = .inl (keptOf s f p) := by
  unfold keptOf
  cases hx : parseRtp s f p with
  | inl r => rfl
  | inr k => rw [hx] at h; exact absurd h Bool.false_ne_true

/-! ## Ill-formed commands, one for each check -/

theorem test_illformed_bytes :
    Instr.wellFormed (.trainGroupRx 0 [] 0) = false ∧ Instr.wellFormed (.bugleRx 0 []) = false ∧ Instr.wellFormed (.whistleRx 0 []) = false ∧
    Instr.wellFormed (.pdCapture []) = false ∧ Instr.wellFormed (.hkRoundEnd [] 0) = false ∧ Instr.wellFormed (.descriptorConsume 0 (some [])) = false ∧
    Instr.wellFormed (.regWrite 0 (some [1])) = false ∧ Instr.wellFormed (.tableLoad 0 (some [1])) = false ∧
    Instr.wellFormed (.mapLoad 0 (some [])) = false ∧ Instr.wellFormed (.updateBlock 0 (some [1])) = false ∧
    Instr.wellFormed (.htxTailWrite .bar0 0 [[]]) = false ∧ Instr.wellFormed (.vodanRead true 0 17) = false ∧ Instr.wellFormed (.vodanRead true 0 0) = false ∧
    Instr.wellFormed (.vodanData true 0 []) = false ∧ Instr.wellFormed (.vodanData true 0 (List.replicate 241 0)) = false := by
  decide +kernel

theorem test_illformed_addresses :
    Instr.wellFormed (.registerWrite .bar0 1 0) = false ∧ Instr.wellFormed (.registerRead .bar0 2 0xF) = false ∧
    Instr.wellFormed (.lsWindowRead .bar0 0xB0000) = false ∧ Instr.wellFormed (.lsWindowWrite .bar0 0x1000002 0) = false := by decide

/-- A copy of a direction's packet (R64: bit 3 of byte 1 of the SOP block is UP). -/
theorem test_illformed_directions :
    Instr.wellFormed (.downPacketRx 0 (raw 0x28 0 [])) = false ∧ Instr.wellFormed (.upPacketRx 0 (raw 0x40 0 [])) = false ∧
    Instr.wellFormed (.downPacketRx 0 (raw 0x20 0 [1])) = false ∧ Instr.wellFormed (.upPacketRx 0 (raw 0x48 0 [1])) = false ∧
    Instr.wellFormed (.downPacketRx 0 (raw 0x20 0 [])) = true ∧ Instr.wellFormed (.upPacketRx 0 (raw 0x48 0 [])) = true := by decide

/-- A MIRROR packet on the other channel than its KIND's (R274), or with a body of the wrong length. -/
theorem test_illformed_mirror :
    Instr.wellFormed (.digestRx ⟨true, 0, 0⟩ 0 0 0) = false ∧ Instr.wellFormed (.mirrorRegw ⟨false, 0, 0⟩ []) = false ∧
    Instr.wellFormed (.mirrorDesc ⟨false, 0, 0⟩ 0 0 0 (List.replicate 64 0) []) = false ∧ Instr.wellFormed (.mirrorDesc ⟨true, 0, 0⟩ 0 0 0 [] []) = false ∧
    Instr.wellFormed (.mirrorDramw ⟨false, 0, 0⟩ 0 []) = false ∧ Instr.wellFormed (.mirrorDown ⟨false, 0, 0⟩ 0 (raw 0x20 0 [])) = false ∧
    Instr.wellFormed (.mirrorDown ⟨true, 0, 0⟩ 0 (raw 0x28 0 [])) = false ∧ Instr.wellFormed (.mirrorSeqmark ⟨true, 0, 0⟩ 0 0 []) = false ∧
    Instr.wellFormed (.mirrorUpfwd ⟨true, 0, 0⟩ 0 true (raw 0x48 0 [])) = false ∧ Instr.wellFormed (.mirrorUpfwd ⟨false, 0, 0⟩ 0 true (raw 0x40 0 [])) = false ∧
    Instr.wellFormed (.mirrorClose ⟨true, 0, 0⟩ 0 0 []) = false ∧ Instr.wellFormed (.mirrorLines ⟨true, 0, 0⟩ 0 0 0 []) = false ∧
    Instr.wellFormed (.mirrorSample ⟨true, 0, 0⟩ 0 0 0 0) = false ∧ Instr.wellFormed (.mirrorXadec ⟨true, 0, 0⟩ 0 true 0) = false ∧
    Instr.wellFormed (.mirrorAckk ⟨true, 0, 0⟩ 0 0 0) = false ∧ Instr.wellFormed (.mirrorClaim ⟨true, 0, 0⟩ 0 0) = false ∧
    Instr.wellFormed (.mirrorGrant ⟨true, 0, 0⟩ 0 0) = false ∧ Instr.wellFormed (.mirrorSync ⟨false, 0, 0⟩ (.fence 0)) = false := by decide

/-! ## Worked examples of the manual (the installation of 00_scope.md) -/

/-- The routes of *Routes at Brodorn Street* (R22): row 2 column 17 is ring 2, position 18; a coach's ring 1, position 4. -/
theorem test_routes :
    hopRing (hop 0x92000000 0) = 2 ∧ hopPos (hop 0x92000000 0) = 18 ∧ hopPos (hop 0xFF000000 0) = 63 ∧ hopRing (hop 0xFF000000 0) = 3 ∧
    hopRing (hop 0x25440000 1) = 1 ∧ hopPos (hop 0x25440000 1) = 4 ∧ hopPos (hop 0x25440000 0) = 37 := by decide

/-- The link of R50's example: 186 UI in one sample, and 3,602 ps from a mean of 185.75 UI (a sum of 5,944 over 32 samples). -/
theorem test_link_delay :
    rttSample 5000000 5139450 139264 = some 186 ∧ delayPs 1 (List.replicate 24 186 ++ List.replicate 8 185) 0 = 3602 := by decide +kernel

/-- The fences of frame 105,925,926,000 and of the next at 60 Hz (R95). -/
theorem test_frame_times :
    flipOf 0x24 105925926000 = 1765432100000000000 ∧ flipOf 0x24 105925926001 = 1765432100000000000 + 16666667 ∧ shortNs 0x24 = 16666666 := by
  decide +kernel

/-- The corrections of a Bugle along three carriages (R102's table): 224,200 in at position 1 with 3,410 ps is 350,490 out, and so on. -/
theorem test_bugle_correction :
    bugleCorr (bugleForward (dev .carriage [(F.CL_PDELAY_DELAY 0, 3410)]) 0 (bugleBytes 0 7 0 224200 0x24 40 0 0)) = 350490 ∧
    bugleCorr (bugleForward (dev .carriage [(F.CL_PDELAY_DELAY 0, 3575)]) 0 (bugleBytes 0 7 0 350490 0x24 40 0 0)) = 476945 ∧
    bugleCorr (bugleForward (dev .carriage [(F.CL_PDELAY_DELAY 0, 3588)]) 0 (bugleBytes 0 7 0 476945 0x24 40 0 0)) = 603413 := by decide +kernel

/-- The colour tables of the example of R193. -/
def colours : State :=
  ((((((dev .carriage [(F.PIX_TMAT_T0 0, 16302), (F.PIX_TMAT_T1 0, 41), (F.PIX_SCALE_BRIGHT, 3277)]).setReg (R.PIX_ILUT 0 2048) 229377).setReg
    (R.PIX_ILUT 0 2049) 229600).setReg (R.PIX_ILUT 1 1024) 52224).setReg (R.PIX_ILUT 1 1025) 52330).setReg (R.PIX_ILUT 2 512) 11904).setReg
    (R.PIX_ILUT 2 513) 11950

/-- Stages 4 to 6 of the example of R193: the LUT, the lamp matrix of the red and green lamps, and the tile matrix. -/
theorem test_pipeline_colours :
    stage4 colours 0 32776 = 229489 ∧ stage4 colours 1 16388 = 52251 ∧ stage4 colours 2 8194 = 11910 ∧
    stage5 (1061 + (4096 - 18) * 2 ^ 12 + (4096 - 4) * 2 ^ 24) [229489, 52251, 11910] = 236816 ∧
    stage5 ((4096 - 9) + 1010 * 2 ^ 12 + 6 * 2 ^ 24) [229489, 52251, 11910] = 49589 ∧
    stage5 (2 + (4096 - 7) * 2 ^ 12 + 1038 * 2 ^ 24) [229489, 52251, 11910] = 12164 ∧
    stage6 colours 0 [236816, 49589, 12164] = 235755 := by decide +kernel

/-- Stages 7 and 9 of the same example: the scale 3,277 and 47,154 quarters, that is v = 11,788 and q = 2. -/
theorem test_pipeline_scale :
    scaleG colours { frame := 0, thr := 16, amb := 0x1000, forced := 0, blanked := 0, masks := [], dark := false, src := 0, prev := 0, ue := 0 } = 3277 ∧
    stage9 true 188616 = 4 * 11788 + 2 := by decide +kernel

/-- Zone 3 at 33.5 °C between sets at 30 and 40 °C (R220): w = 1,434, and the red lamp's entry 1,061, −18, −4. -/
theorem test_calibration_blend :
    weight (onCal (fun x => { x with theta := [(3, 536)] }) (dev .carriage [(F.CAL_STAT_SETS, 4), (F.CAL_POINT_V0 0, 320), (F.CAL_POINT_V1 0, 480),
      (F.CAL_POINT_V0 1, 640), (F.CAL_POINT_V1 1, 800)])) 3 = (1, 1434) ∧
    (interpolate (1052 + (4096 - 20) * 2 ^ 12 + (4096 - 4) * 2 ^ 24) (1078 + (4096 - 15) * 2 ^ 12 + (4096 - 4) * 2 ^ 24) 1434).1 = [1061, -18, -4] := by
  decide +kernel

/-- The red lamp of pixel (17, 42) at row 2, column 17 (the example of R416): index 11,235, at 0101_5F18h in bank A and 0181_5F18h in bank B. -/
theorem test_lamp_address :
    lampIndex 0 7 10 3 = 11235 ∧ lsAddr 0x01015F18 = some (false, 11235, false) ∧ lsAddr 0x01815F18 = some (true, 11235, false) ∧
    tripletPixel (dev .carriage [(F.DRV_DMAP_X0 7, 16), (F.DRV_DMAP_Y0 7, 32), (F.DRV_SCANMAP_DX 161, 1), (F.DRV_SCANMAP_DY 161, 10)]) 11235 = (17, 42) := by
  decide +kernel

/-- A frame at 60 Hz of K = 8 subframes takes 416,666 periods of DL_CLK for each (the example of R244). -/
theorem test_subframe : tSub (dev .carriage [(F.WT_FMARK_RATE, 0x24), (F.DRV_TOPO_K_M1, 7)]) = 416666 := by decide +kernel

/-- The ring budget at Brodorn Street: 36 positions of 384 × 384 at 36 bits take 2,985,984 data blocks (the budget under R188). -/
theorem test_ring_budget :
    mapBlocks ((List.replicate 36 [0#8, 0, 0, 0, 0x80, 1, 0x80, 1, 1, 0, 0, 0, 0, 0, 0, 0]).flatten) 1 = 2985984 := by decide +kernel

/-- The payload rate of a 4K flow at 60 Hz, 20 bits a pixel (R144): 1,244 MB/s. -/
theorem test_payload_rate :
    payloadRate (dev .sender [(F.NI_FSIZE_WIDTH 0, 3840), (F.NI_FSIZE_HEIGHT 0, 2160), (F.NI_FFMT_SAMP 0, 0), (F.NI_FFMT_DEPTH 0, 1), (F.NI_FRATE_NUM 0, 60),
      (F.NI_FRATE_DEN 0, 1)]) 0 = 1244160000 := by decide +kernel

/-- Step 6 of *An interrupt at Brodorn Street* (R331, R332): releasing to 43 with CLAIM claims record 42 over the claim of step 2 (top first). -/
theorem test_interrupt_claim :
    ((nextOf (exec (.evcTcons .bar0 0 0x102B) (onEvc (fun x => { x with tgt := [(0, { Target.init with prod := 43, cons := 41, stack := [⟨371, 5, true⟩], queue := [⟨249, 2, 0, false, false, 1, 0, 0, []⟩, ⟨435, 7, 0, false, false, 1, 0, 0, []⟩] })] }) (dev .sender [(F.EVC_TCTL_EN 0, 1)]))) (dev .sender [])).tgt 0).stack.map
      (fun c => c.prio) = [7, 5] := by decide +kernel

/-- The example of R229: one sensor at ρ = 16,220 (1.0 % dim), gain 16 / 256, moves G from 16,384 to 16,394. -/
theorem test_loop_gain :
    newGain (onCal (fun x => { x with sums := [(0, 4055)] }) (dev .carriage [(F.CAL_WIT_EN 0, 1), (F.CAL_REF_REF 0 0, 32768), (F.CAL_LOOP_LOOP_N, 32),
      (F.CAL_LOOP_GAIN, 16), (F.CAL_LOOP_STEP, 100), (F.CAL_LGAIN0_G_R, 16384)])) 0 = 16394 := by decide +kernel

/-! ## States and operands that meet the hypotheses of each statement -/

/-- Witness of `Obligations.IdleStepTicks`. -/
theorem test_w_IdleStepTicks :
    (∃ (s : Machine.State), (s.pending = [])) :=
  ⟨(dev .sender []), by decide +kernel⟩

/-- Witness of `Obligations.GoldenImageNeverWritten`. -/
theorem test_w_GoldenImageNeverWritten :
    (∃ (s : Machine.State) (t : Machine.State), (step s = Host.Outcome.next t)) ∧
    (∃ (s : Machine.State) (t : Machine.State) (a : Nat), (step s = Host.Outcome.next t) ∧ (a < goldenEnd)) :=
  ⟨⟨(dev .sender []), (nextOf (step (dev .sender [])) (dev .sender [])), (rfl)⟩,
   ⟨(dev .sender []), (nextOf (step (dev .sender [])) (dev .sender [])), 0, (rfl), by decide +kernel⟩⟩

/-- Witness of `Obligations.RoleFixedUntilPorst`. -/
theorem test_w_RoleFixedUntilPorst :
    (∃ (s : Machine.State) (t : Machine.State), (step s = Host.Outcome.next t)) ∧
    (∃ (s : Machine.State) (t : Machine.State), (step s = Host.Outcome.next t)) ∧
    (∃ (s : Machine.State) (t : Machine.State), (step s = Host.Outcome.next t)) :=
  ⟨⟨(dev .sender []), (nextOf (step (dev .sender [])) (dev .sender [])), (rfl)⟩,
   ⟨(dev .sender []), (nextOf (step (dev .sender [])) (dev .sender [])), (rfl)⟩,
   ⟨(dev .sender []), (nextOf (step (dev .sender [])) (dev .sender [])), (rfl)⟩⟩

/-- Witness of `Obligations.QueueOnlyShrinks`. -/
theorem test_w_QueueOnlyShrinks :
    (∃ (s : Machine.State) (t : Machine.State), (step s = Host.Outcome.next t)) :=
  ⟨(dev .sender []), (nextOf (step (dev .sender [])) (dev .sender [])), (rfl)⟩

/-- Witness of `Obligations.MemoryStaysCanonical`. -/
theorem test_w_MemoryStaysCanonical :
    (∃ (s : Machine.State) (t : Machine.State), (step s = Host.Outcome.next t) ∧ (Memory.wf s = true)) :=
  ⟨(dev .sender []), (nextOf (step (dev .sender [])) (dev .sender [])), (rfl), by decide +kernel⟩

/-- Witness of `Obligations.RegisterReadsWhatWasWritten`. -/
theorem test_w_RegisterReadsWhatWasWritten :
    (∃ (f : FRef) (g : FRef), (f.lo + f.w ≤ 32) ∧ (g.lo + g.w ≤ 32)) ∧
    (∃ (f : FRef) (g : FRef), (f.lo + f.w ≤ 32) ∧ (g.lo + g.w ≤ 32) ∧ (g.addr ≠ f.addr ∨ g.lo + g.w ≤ f.lo ∨ f.lo + f.w ≤ g.lo)) :=
  ⟨⟨F.RED_CFG_EN, F.RED_CFG_MPORT, by decide +kernel⟩,
   ⟨F.RED_CFG_EN, F.RED_CFG_MPORT, by decide +kernel⟩⟩

/-- Witness of `Obligations.PorstHoldsTheDeviceInReset`. -/
theorem test_w_PorstHoldsTheDeviceInReset :
    (∃ (c : Instr), (c = Instr.porstNAssert ∨ c = Instr.supplyMonitorLow)) :=
  ⟨.porstNAssert, (Or.inl rfl)⟩

/-- Witness of `Obligations.WarmResetHoldsAndReleases`. -/
theorem test_w_WarmResetHoldsAndReleases :
    (∃ (a : Nat) (s : Machine.State), (Memory.wf s = true) ∧ (a ≠ R.SYS_STRAP) ∧ (a ≠ R.CKG_STAT) ∧ (a ≠ R.UPD_STAT) ∧ (a ≠ R.DRV_MASKCNT)) ∧
    (∃ (s : Machine.State), (s.sys.low = 2) ∧ (s.strap.role ≠ Role.reserved) ∧ (linkCheck s = s)) ∧
    (∃ (s : Machine.State), (s.sys.low = 2) ∧ (s.strap.role = Role.reserved) ∧ (linkCheck s = s)) ∧
    (∃ (s : Machine.State), (s.sys.low ≠ 2) ∧ (linkCheck s = s)) :=
  ⟨⟨0, (dev .sender []), by decide +kernel⟩,
   ⟨(linkCheck (onSys (fun x => { x with low := 2 }) (dev .sender []))), by decide +kernel⟩,
   ⟨(linkCheck (onSys (fun x => { x with low := 2 }) (dev .reserved []))), by decide +kernel⟩,
   ⟨(dev .sender []), by decide +kernel⟩⟩

/-- Witness of `Obligations.SourcesLockAndRamp`. -/
theorem test_w_SourcesLockAndRamp :
    (∃ (s : Machine.State), (s.sys.low = 0)) ∧
    (∃ (s : Machine.State), (s.sys.low ≠ 0)) ∧
    (∃ (s : Machine.State), (s.sys.low = 0) ∧ ((s.on F.SYS_STRAP_XO_OK && s.on F.CKG_STAT_XO_OK) = false)) ∧
    (∃ (s : Machine.State), (s.sys.low = 0) ∧ ((s.on F.SYS_STRAP_XO_OK && s.on F.CKG_STAT_XO_OK) = false)) ∧
    (∃ (s : Machine.State), (s.sys.low ≠ 0 ∨ (s.on F.SYS_STRAP_XO_OK && s.on F.CKG_STAT_XO_OK) = true)) ∧
    (∃ (p : Fin 4) (s : Machine.State) (x : Nat), (pllUsed s ↑p = true) ∧ (s.sys.low = 0) ∧ (pllLocked s ↑p = false) ∧ (s.mode ≠ mSentry ∨ s.sys.going ≠ none) ∧ (p = 2 ∨ s.isCarriage = true ∨ s.sys.starting = none ∨ s.on F.SYS_STRAP_XO_OK = true) ∧ (pickSrc s ↑p = some x)) ∧
    (∃ (p : Fin 4) (s : Machine.State), (pllUsed s ↑p = true) ∧ (s.sys.low = 0) ∧ (pllLocked s ↑p = false) ∧ (s.mode ≠ mSentry ∨ s.sys.going ≠ none) ∧ (p = 2 ∨ s.isCarriage = true ∨ s.sys.starting = none ∨ s.on F.SYS_STRAP_XO_OK = true) ∧ (pickSrc s ↑p = none)) ∧
    (∃ (p : Fin 4) (s : Machine.State), (pllLocked s ↑p = true)) ∧
    (∃ (p : Fin 4) (s : Machine.State), (pllLocked s ↑p = false)) ∧
    (∃ (s : Machine.State), (pllLocked s 0 = true) ∧ (s.on F.CKG_STAT_REED_PATH = false)) ∧
    (∃ (s : Machine.State), (pllLocked s 0 = false ∨ s.on F.CKG_STAT_REED_PATH = true)) :=
  ⟨⟨(dev .sender []), by decide +kernel⟩,
   ⟨(onSys (fun x => { x with low := 1 }) (dev .sender [])), by decide +kernel⟩,
   ⟨(dev .sender []), by decide +kernel⟩,
   ⟨(dev .sender []), by decide +kernel⟩,
   ⟨(onSys (fun x => { x with low := 1 }) (dev .sender [])), by decide +kernel⟩,
   ⟨0, (dev .sender [(F.SYS_STRAP_XO_OK, 1), (F.CKG_STAT_REED_READY, 1)]), 0, by decide +kernel⟩,
   ⟨0, (dev .sender []), by decide +kernel⟩,
   ⟨0, (dev .sender [(F.CKG_STAT_LOCK, 1)]), by decide +kernel⟩,
   ⟨0, (dev .sender []), by decide +kernel⟩,
   ⟨(dev .sender [(F.CKG_STAT_LOCK, 1)]), by decide +kernel⟩,
   ⟨(dev .sender [(F.CKG_STAT_REED_PATH, 1)]), by decide +kernel⟩⟩

/-- Witness of `Obligations.ClockFaultsMoveOn`. -/
theorem test_w_ClockFaultsMoveOn :
    (∃ (s : Machine.State), (s.sys.reedRestart = true) ∧ (s.on F.CKG_STAT_REED_READY = false)) ∧
    (∃ (p : Fin 4) (s : Machine.State) (s0 : Machine.State) (x : Nat), (p ≠ 1) ∧ (pllUsed s ↑p = true) ∧ (pllLocked s ↑p = true) ∧ (s0 = if ((pllList s ↑p).contains 1 && s.on F.SYS_STRAP_XO_OK) = true then s.wr F.CKG_STAT_XO_OK 1 else s) ∧ (pickSrc s0 ↑p = some x) ∧ (x ≠ srcOf s ↑p)) ∧
    (∃ (x : Fin 4) (s : Machine.State), (s.on F.CKG_STAT_REED_READY = true) ∧ (s.on F.CKG_CTL_TRIM_EN = true) ∧ (trimSource s ↑x = some ↑x)) ∧
    (∃ (x : Fin 4) (s : Machine.State), (s.on F.CKG_STAT_REED_READY = true) ∧ (s.on F.CKG_CTL_TRIM_EN = false ∨ trimSource s ↑x ≠ some ↑x)) ∧
    (∃ (s : Machine.State), (s.on F.CKG_STAT_REED_READY = false)) :=
  ⟨⟨(onSys (fun x => { x with reedRestart := true }) (dev .sender [])), by decide +kernel⟩,
   ⟨0, (dev .carriage [(F.CKG_STAT_LOCK, 1), (F.CKG_STAT_REED_READY, 1)]), (dev .carriage [(F.CKG_STAT_LOCK, 1), (F.CKG_STAT_REED_READY, 1)]), 0, by decide +kernel⟩,
   ⟨2, (dev .sender [(F.CKG_STAT_REED_READY, 1), (F.CKG_CTL_TRIM_EN, 1), (F.SYS_STRAP_XO_OK, 1), (F.CKG_STAT_XO_OK, 1)]), by decide +kernel⟩,
   ⟨0, (dev .sender [(F.CKG_STAT_REED_READY, 1)]), by decide +kernel⟩,
   ⟨(dev .sender []), by decide +kernel⟩⟩

/-- Witness of `Obligations.DroopAndGates`. -/
theorem test_w_DroopAndGates :
    (∃ (s : Machine.State), (s.on F.PWR_DROOP_DROOP_EN = true) ∧ (s.on F.CKG_STAT_DROOP = false)) ∧
    (∃ (s : Machine.State), (s.on F.PWR_DROOP_DROOP_EN = false ∨ s.on F.CKG_STAT_DROOP = true)) ∧
    (∃ (s : Machine.State), (s.on F.CKG_STAT_DROOP = true)) ∧
    (∃ (s : Machine.State), (s.on F.CKG_STAT_DROOP = false)) ∧
    (∃ (u : Fin 16) (s : Machine.State), (unitEnabled s ↑u = false)) ∧
    (∃ (u : Fin 16) (s : Machine.State), (unitEnabled s ↑u = false)) ∧
    (∃ (u : Fin 16) (s : Machine.State), (unitEnabled s ↑u = true)) ∧
    (∃ (u : Fin 16) (s : Machine.State), (s.sys.gates.testBit ↑u = true)) ∧
    (∃ (u : Fin 16) (s : Machine.State), (s.sys.gates.testBit ↑u = false)) :=
  ⟨⟨(dev .sender [(F.PWR_DROOP_DROOP_EN, 1)]), by decide +kernel⟩,
   ⟨(dev .sender [(F.CKG_STAT_DROOP, 1)]), by decide +kernel⟩,
   ⟨(dev .sender [(F.CKG_STAT_DROOP, 1)]), by decide +kernel⟩,
   ⟨(dev .sender []), by decide +kernel⟩,
   ⟨2, (dev .sender []), by decide +kernel⟩,
   ⟨2, (dev .sender []), by decide +kernel⟩,
   ⟨0, (dev .sender []), by decide +kernel⟩,
   ⟨2, (onSys (fun x => { x with gates := 4 }) (dev .sender [])), by decide +kernel⟩,
   ⟨0, (dev .sender []), by decide +kernel⟩⟩

/-- Witness of `Obligations.ModesAreRequestedAndEntered`. -/
theorem test_w_ModesAreRequestedAndEntered :
    (∃ (path : Access) (req : BitVec 3) (s : Machine.State), (reaches s path = true) ∧ (s.sys.low = 0) ∧ (s.mode ≠ mSentry) ∧ (s.sys.starting = none) ∧ (s.sys.going = none) ∧ (s.sys.faultAt = s.now + 1) ∧ (req.toNat < 6)) ∧
    (∃ (path : Access) (s : Machine.State), (reaches s path = true) ∧ (s.sys.low = 0) ∧ (s.mode ≠ mSentry) ∧ (s.sys.starting = none) ∧ (s.sys.going = none) ∧ (s.sys.faultAt ≠ s.now + 1)) ∧
    (∃ (s : Machine.State) (m : Nat) (c : Nat), (s.sys.going = some (m, c)) ∧ (m ≠ mSentry) ∧ (s.sys.off < 65536)) ∧
    (∃ (s : Machine.State), (s.sys.going = none ∨ ∃ c, s.sys.going = some (mSentry, c))) :=
  ⟨⟨.bar0, 3, (onSys (fun x => { x with faultAt := 1 }) (dev .sender [])), by decide +kernel⟩,
   ⟨.bar0, (dev .sender []), by decide +kernel⟩,
   ⟨(onSys (fun x => { x with going := some (3, 0) }) (dev .sender [])), 3, 0, by decide +kernel⟩,
   ⟨(onSys (fun x => { x with going := none }) (dev .sender [])), (Or.inl (by decide +kernel))⟩⟩

/-- Witness of `Obligations.SentryAndWake`. -/
theorem test_w_SentryAndWake :
    (∃ (s : Machine.State) (c : Nat), (s.sys.going = some (mSentry, c)) ∧ (s.sys.wake = none)) ∧
    (∃ (s : Machine.State) (c : Nat) (w : Nat), (s.sys.going = some (mSentry, c)) ∧ (s.sys.wake = some w)) ∧
    (∃ (s : Machine.State), (s.sys.going = none ∨ ∃ m c, s.sys.going = some (m, c) ∧ m ≠ mSentry) ∧ (linkCheck s = s)) ∧
    (∃ (s : Machine.State) (c : Instr) (w : Nat) (en : Bool), (c = Instr.wakeSource Wake.vodan ∧ w = 1 ∧ en = s.on F.PWR_WAKE_SVC ∨ c = Instr.wakeSource Wake.sigdet ∧ w = 2 ∧ en = s.on F.PWR_WAKE_SIGDET ∨ (∃ n, c = Instr.wakeSource (Wake.evtin n) ∧ w = 3 ∧ en = (s.rd F.PWR_WAKE_EVTIN).testBit ↑n) ∨ c = Instr.wakeTimerExpire ∧ w = 4 ∧ en = s.on F.PWR_WAKE_TIMER) ∧ (en = false)) ∧
    (∃ (s : Machine.State) (c : Instr) (w : Nat) (en : Bool), (c = Instr.wakeSource Wake.vodan ∧ w = 1 ∧ en = s.on F.PWR_WAKE_SVC ∨ c = Instr.wakeSource Wake.sigdet ∧ w = 2 ∧ en = s.on F.PWR_WAKE_SIGDET ∨ (∃ n, c = Instr.wakeSource (Wake.evtin n) ∧ w = 3 ∧ en = (s.rd F.PWR_WAKE_EVTIN).testBit ↑n) ∨ c = Instr.wakeTimerExpire ∧ w = 4 ∧ en = s.on F.PWR_WAKE_TIMER) ∧ (en = true) ∧ (sleeping s = true)) ∧
    (∃ (s : Machine.State) (c : Instr) (w : Nat) (en : Bool), (c = Instr.wakeSource Wake.vodan ∧ w = 1 ∧ en = s.on F.PWR_WAKE_SVC ∨ c = Instr.wakeSource Wake.sigdet ∧ w = 2 ∧ en = s.on F.PWR_WAKE_SIGDET ∨ (∃ n, c = Instr.wakeSource (Wake.evtin n) ∧ w = 3 ∧ en = (s.rd F.PWR_WAKE_EVTIN).testBit ↑n) ∨ c = Instr.wakeTimerExpire ∧ w = 4 ∧ en = s.on F.PWR_WAKE_TIMER) ∧ (en = true) ∧ (s.mode = mSentry) ∧ (s.sys.going = none)) :=
  ⟨⟨(onSys (fun x => { x with going := some (mSentry, 0) }) (dev .sender [])), 0, by decide +kernel⟩,
   ⟨(onSys (fun x => { x with going := some (mSentry, 0), wake := some 1 }) (dev .sender [])), 0, 1, by decide +kernel⟩,
   ⟨(linkCheck (onSys (fun x => { x with going := none }) (dev .sender []))), (Or.inl (by decide +kernel)), by decide +kernel⟩,
   ⟨(dev .sender [(F.PWR_WAKE_TIMER, 0)]), .wakeTimerExpire, 4, false, (Or.inr (Or.inr (Or.inr ⟨rfl, rfl, by decide +kernel⟩))), by decide +kernel⟩,
   ⟨(onSys (fun x => { x with going := some (1, 0) }) (dev .sender [(F.PWR_WAKE_TIMER, 1)])), .wakeTimerExpire, 4, true, (Or.inr (Or.inr (Or.inr ⟨rfl, rfl, by decide +kernel⟩))), by decide +kernel⟩,
   ⟨(dev .sender [(F.SYS_MSTAT_MODE, 1), (F.PWR_WAKE_TIMER, 1)]), .wakeTimerExpire, 4, true, (Or.inr (Or.inr (Or.inr ⟨rfl, rfl, by decide +kernel⟩))), by decide +kernel⟩⟩

/-- Witness of `Obligations.ImageLoadStartsOrStays`. -/
theorem test_w_ImageLoadStartsOrStays :
    (∃ (s : Machine.State) (cause : Nat), (s.sys.starting = some cause) ∧ (s.sys.going = none) ∧ (pllLocked s 0 = true ∨ s.on F.CKG_STAT_REED_PATH = true)) ∧
    (∃ (s : Machine.State), (Memory.wf s = true) ∧ (s.cmp.taken = []) ∧ (s.sys.starting = none ∨ s.sys.going ≠ none ∨ pllLocked s 0 = false ∧ s.on F.CKG_STAT_REED_PATH = false)) :=
  ⟨⟨(onSys (fun x => { x with starting := some 0 }) (dev .sender [(F.CKG_STAT_LOCK, 1)])), 0, by decide +kernel⟩,
   ⟨(dev .sender []), by decide +kernel⟩⟩

/-- Witness of `Obligations.LaneEventsKeepTheRest`. -/
theorem test_w_LaneEventsKeepTheRest :
    (∃ (c : Instr) (s : Machine.State) (t : Machine.State), (exec c s = Host.Outcome.next t) ∧ (laneRow c = true) ∧ (s.sys.waiting = none)) :=
  ⟨.signalDetect 0, (dev .carriage []), (nextOf (exec (.signalDetect 0) (dev .carriage [])) (dev .carriage [])), (rfl), by decide +kernel⟩

/-- Witness of `Obligations.PortsComeUpStepByStep`. -/
theorem test_w_PortsComeUpStepByStep :
    (∃ (path : Access) (p : Fin 12) (w : Word) (s : Machine.State), (reaches s path = true) ∧ (addrOn s.strap.role (R.CL_PCFG ↑p) = true) ∧ (s.on (F.CL_PCFG_EN ↑p) = false) ∧ (s.pst ↑p = 0) ∧ (portsRun s = true) ∧ (∀ (q : Fin 12), s.on (F.CL_PCFG_EN ↑q) = true → s.pst ↑q ≠ 0) ∧ (∀ (q : Fin 12), q ≠ p → s.on (F.CL_PCFG_EN ↑q) = true → ¬bits (BitVec.toNat w) (F.CL_PCFG_LANE0 0).lo (F.CL_PCFG_LANE0 0).w ∈ portLanes s ↑q ∧ ¬bits (BitVec.toNat w) (F.CL_PCFG_LANE1 0).lo (F.CL_PCFG_LANE1 0).w ∈ portLanes s ↑q) ∧ (∀ (k : Fin 4), s.on (F.NI_PCFG_EN ↑k) = true → s.rd (F.NI_PCFG_LANE ↑k) ≠ bits (BitVec.toNat w) (F.CL_PCFG_LANE0 0).lo (F.CL_PCFG_LANE0 0).w ∧ s.rd (F.NI_PCFG_LANE ↑k) ≠ bits (BitVec.toNat w) (F.CL_PCFG_LANE1 0).lo (F.CL_PCFG_LANE1 0).w ∧ ∀ (q : Fin 12), s.on (F.CL_PCFG_EN ↑q) = true → ¬s.rd (F.NI_PCFG_LANE ↑k) ∈ portLanes s ↑q)) ∧
    (∃ (p : Fin 12) (s : Machine.State), (s.pst ↑p = 1) ∧ (lanesHave s (↑p) F.LANE_CTL_EN = true)) ∧
    (∃ (p : Fin 12) (s : Machine.State), (s.pst ↑p ≠ 1)) ∧
    (∃ (p : Fin 12) (s : Machine.State), (s.pst ↑p = 2) ∧ (lanesHave s (↑p) F.LANE_STAT_SIGDET = true) ∧ (hasBlock s ↑p = false)) ∧
    (∃ (p : Fin 12) (s : Machine.State), (s.pst ↑p ≠ 2)) ∧
    (∃ (p : Fin 12) (deskew : Bool) (s : Machine.State), (s.pst ↑p = 3) ∧ (lanesHave s (↑p) F.LANE_STAT_CDR_LOCK = true) ∧ (s.on (F.CL_PCFG_WIDTH2 ↑p) = true → deskew = true) ∧ (∀ (n : Nat), n ∈ portLanes s ↑p → s.on (F.LANE_STAT_HIBER n) = false ∨ s.on (F.LANE_QUAL_HIBER_DOWN n) = false) ∧ (¬↑p ∈ ringPorts s ∨ s.on F.CL_BYP_BYP_STATE = true)) ∧
    (∃ (p : Fin 12) (s : Machine.State), (s.pst ↑p = 3) ∧ (lanesHave s (↑p) F.LANE_STAT_CDR_LOCK = true) ∧ (↑p ∈ ringPorts s) ∧ (s.on F.CL_BYP_BYP_STATE = false) ∧ (closedCause s = true)) ∧
    (∃ (p : Fin 12) (s : Machine.State), (s.pst ↑p ≠ 3)) ∧
    (∃ (p : Fin 12) (s : Machine.State), (s.pst ↑p = 4)) ∧
    (∃ (p : Fin 12) (s : Machine.State), (s.pst ↑p ≠ 4)) :=
  ⟨⟨.bar0, 2, 0x40#32, (dev .sender [(F.SYS_MSTAT_MODE, 3)]), by decide +kernel⟩,
   ⟨0, (dev .carriage [(F.CL_PSTAT_STATE 0, 1), (F.LANE_CTL_EN 0, 1), (F.LANE_STAT_SIGDET 0, 1), (F.LANE_STAT_CDR_LOCK 0, 1), (F.CL_BYP_BYP_STATE, 1)]), by decide +kernel⟩,
   ⟨0, (dev .sender []), by decide +kernel⟩,
   ⟨0, (dev .carriage [(F.CL_PSTAT_STATE 0, 2), (F.LANE_STAT_SIGDET 0, 1)]), by decide +kernel⟩,
   ⟨0, (dev .sender []), by decide +kernel⟩,
   ⟨0, false, (dev .carriage [(F.CL_PSTAT_STATE 0, 3), (F.LANE_CTL_EN 0, 1), (F.LANE_STAT_SIGDET 0, 1), (F.LANE_STAT_CDR_LOCK 0, 1), (F.CL_BYP_BYP_STATE, 1)]), by decide +kernel⟩,
   ⟨0, (dev .carriage [(F.CL_PSTAT_STATE 0, 3), (F.LANE_STAT_CDR_LOCK 0, 1), (F.CL_BYP_FORCE_CLOSE, 1)]), by decide +kernel⟩,
   ⟨0, (dev .sender []), by decide +kernel⟩,
   ⟨0, (dev .carriage [(F.CL_PSTAT_STATE 0, 4), (F.LANE_CTL_EN 0, 1), (F.LANE_STAT_SIGDET 0, 1), (F.LANE_STAT_CDR_LOCK 0, 1), (F.CL_BYP_BYP_STATE, 1)]), by decide +kernel⟩,
   ⟨0, (dev .sender []), by decide +kernel⟩⟩

/-- Witness of `Obligations.PortsFallBackOnTimeouts`. -/
theorem test_w_PortsFallBackOnTimeouts :
    (∃ (p : Fin 12) (s : Machine.State), (s.pst ↑p = 2)) ∧
    (∃ (p : Fin 12) (s : Machine.State), (s.pst ↑p = 3) ∧ (blockReady s ↑p = false)) ∧
    (∃ (p : Fin 12) (s : Machine.State), (linkCheck s = s) ∧ (s.pst ↑p ≠ 2) ∧ (s.pst ↑p ≠ 3 ∨ blockReady s ↑p = true)) ∧
    (∃ (p : Fin 12) (s : Machine.State), (s.pst ↑p = 5)) ∧
    (∃ (p : Fin 12) (s : Machine.State), (linkCheck s = s) ∧ (s.pst ↑p ≠ 5)) :=
  ⟨⟨0, (dev .carriage [(F.CL_PSTAT_STATE 0, 2)]), by decide +kernel⟩,
   ⟨0, (dev .carriage [(F.CL_PSTAT_STATE 0, 3)]), by decide +kernel⟩,
   ⟨0, (linkCheck (dev .sender [])), by decide +kernel⟩,
   ⟨0, (dev .carriage [(F.CL_PSTAT_STATE 0, 5)]), by decide +kernel⟩,
   ⟨0, (linkCheck (dev .sender [])), by decide +kernel⟩⟩

/-- Witness of `Obligations.TrainGroupsAreExchanged`. -/
theorem test_w_TrainGroupsAreExchanged :
    (∃ (p : Fin 12) (s : Machine.State), (s.pst ↑p = 5)) ∧
    (∃ (g : List Byte), (g.length = 24)) ∧
    (∃ (p : Fin 12) (bs : List (BitVec 64)) (g : List Byte) (s : Machine.State), (s.pst ↑p = 5 ∨ s.pst ↑p = 6) ∧ (trainOf bs = some g) ∧ (beAt g 22 2 = crc16 (List.take 22 g))) ∧
    (∃ (p : Fin 12) (bs : List (BitVec 64)) (g : List Byte) (t4 : Word) (v : Nat) (s : Machine.State), (s.pst ↑p = 5) ∧ (¬↑p ∈ ringPorts s) ∧ (trainOf bs = some g) ∧ (beAt g 22 2 = crc16 (List.take 22 g)) ∧ (bits (beAt g 20 1) 4 2 = 3) ∧ (bits (beAt g 20 1) 7 1 = portRate s ↑p) ∧ ((beAt g 20 1).testBit 6 = s.on (F.CL_PCFG_WIDTH2 ↑p)) ∧ (beAt g 12 8 ≠ s.strap.uid) ∧ ((s.port ↑p).samples.length = 31) ∧ (rttSample (beAt g 4 4) (BitVec.toNat t4) (beAt g 8 4) = some v) ∧ (spreadOk ((s.port ↑p).samples ++ [v]) = true)) ∧
    (∃ (p : Fin 12) (bs : List (BitVec 64)) (s : Machine.State), (∀ (g : List Byte), trainOf bs = some g → beAt g 22 2 ≠ crc16 (List.take 22 g)) ∧ (s.pst ↑p = 5 ∨ s.pst ↑p = 6)) ∧
    (∃ (p : Fin 12) (s : Machine.State), (linkCheck s = s) ∧ (s.pst ↑p ≠ 5)) ∧
    (∃ (p : Fin 12) (s : Machine.State), (linkCheck s = s) ∧ (s.pst ↑p ≠ 5) ∧ (s.pst ↑p ≠ 6)) :=
  ⟨⟨0, (dev .carriage [(F.CL_PSTAT_STATE 0, 5)]), by decide +kernel⟩,
   ⟨trainGroup, by decide +kernel⟩,
   ⟨0, ((trainBlocks trainGroup).map fun k => k.block.payload), trainGroup, (dev .carriage [(F.CL_PSTAT_STATE 0, 5)]), by decide +kernel⟩,
   ⟨1, ((trainBlocks (let l := List.replicate 20 0 ++ [0xB0, 0]; l ++ bytesBE 2 (crc16 l))).map fun k => k.block.payload), (let l := List.replicate 20 0 ++ [0xB0, 0]; l ++ bytesBE 2 (crc16 l)), 2000, 2000, (onPort 1 (fun x => { x with samples := List.replicate 31 2000 }) (dev .sender [(F.CL_PCFG_EN 1, 1), (F.CL_PCFG_KIND 1, 1), (F.CL_PSTAT_STATE 1, 5), (F.LANE_CTL_RATE 0, 1)])), by decide +kernel⟩,
   ⟨0, [], (dev .carriage [(F.CL_PSTAT_STATE 0, 5)]), (fun g h => nomatch (show (none : Option (List Byte)) = some g from h)), by decide +kernel⟩,
   ⟨0, (linkCheck (dev .sender [])), by decide +kernel⟩,
   ⟨0, (linkCheck (dev .sender [])), by decide +kernel⟩⟩

/-- Witness of `Obligations.LaneLossesFallBack`. -/
theorem test_w_LaneLossesFallBack :
    (∃ (n : Fin 16) (s : Machine.State) (p : Nat), (laneOwner s ↑n = some p) ∧ (s.pst p ≠ 0)) ∧
    (∃ (n : Fin 16) (s : Machine.State) (p : Nat), (laneOwner s ↑n = some p) ∧ (s.pst p ≠ 0)) ∧
    (∃ (n : Fin 16) (s : Machine.State) (p : Nat), (laneOwner s ↑n = some p) ∧ (s.pst p ≠ 0)) ∧
    (∃ (n : Fin 16) (cut : Bool) (c : Instr) (s : Machine.State) (p : Nat), (c = Instr.lossOfSignal n cut ∨ c = Instr.lossOfLock n cut ∨ c = Instr.blockLockLost n cut) ∧ (laneOwner s ↑n = some p) ∧ (s.pst p = 0) ∧ (linkCheck s = s)) ∧
    (∃ (n : Fin 16) (s : Machine.State) (p : Nat), (laneOwner s ↑n = some p) ∧ (s.pst p ≠ 0)) :=
  ⟨⟨3, (dev .carriage [(F.CL_PCFG_EN 5, 1), (F.CL_PCFG_LANE0 5, 3), (F.CL_PSTAT_STATE 5, 6)]), 5, by decide +kernel⟩,
   ⟨3, (dev .carriage [(F.CL_PCFG_EN 5, 1), (F.CL_PCFG_LANE0 5, 3), (F.CL_PSTAT_STATE 5, 6)]), 5, by decide +kernel⟩,
   ⟨3, (dev .carriage [(F.CL_PCFG_EN 5, 1), (F.CL_PCFG_LANE0 5, 3), (F.CL_PSTAT_STATE 5, 6)]), 5, by decide +kernel⟩,
   ⟨3, false, (.lossOfSignal 3 false), (linkCheck (dev .carriage [(F.CL_PCFG_EN 5, 1), (F.CL_PCFG_LANE0 5, 3)])), 5, (Or.inl rfl), by decide +kernel⟩,
   ⟨3, (dev .carriage [(F.CL_PCFG_EN 5, 1), (F.CL_PCFG_LANE0 5, 3), (F.CL_PSTAT_STATE 5, 6)]), 5, by decide +kernel⟩⟩

/-- Witness of `Obligations.AlignFaultAndFillerBlocks`. -/
theorem test_w_AlignFaultAndFillerBlocks :
    (∃ (p : Fin 12) (s : Machine.State), (∀ (q : Nat), otherPort s ↑p = some q → ↑p ∈ ringPorts s → forwardsTo s q ≠ some ↑p) ∧ (s.pst ↑p ≠ 0) ∧ (s.on (F.CL_PCFG_WIDTH2 ↑p) = true)) ∧
    (∃ (p : Fin 12) (s : Machine.State), (s.pst ↑p = 0 ∨ s.on (F.CL_PCFG_WIDTH2 ↑p) = false ∨ ∃ q, otherPort s ↑p = some q ∧ ↑p ∈ ringPorts s ∧ forwardsTo s q = some ↑p)) ∧
    (∃ (p : Fin 12) (paired : Bool) (near : Bool) (s : Machine.State), (judged s ↑p = true) ∧ (s.on (F.CL_PCFG_WIDTH2 ↑p) = true) ∧ (lanesHave s (↑p) F.LANE_STAT_BLOCK_LOCK = true) ∧ ((paired && near) = true)) ∧
    (∃ (p : Fin 12) (paired : Bool) (near : Bool) (s : Machine.State), (judged s ↑p = true) ∧ (s.on (F.CL_PCFG_WIDTH2 ↑p) = true) ∧ (lanesHave s (↑p) F.LANE_STAT_BLOCK_LOCK = true) ∧ ((paired && near) = false)) ∧
    (∃ (p : Fin 12) (second : Bool) (h : BitVec 2) (l : BitVec 64) (prev : BitVec 58) (n : Nat) (s : Machine.State), (n = (portLanes s ↑p).getD (b2n second) (s.rd (F.CL_PCFG_LANE0 ↑p))) ∧ ((rxBlock s n h l prev).kind = none) ∧ (judged s ↑p = true)) ∧
    (∃ (p : Fin 12) (second : Bool) (h : BitVec 2) (l : BitVec 64) (prev : BitVec 58) (n : Nat) (s : Machine.State), (n = (portLanes s ↑p).getD (b2n second) (s.rd (F.CL_PCFG_LANE0 ↑p))) ∧ ((rxBlock s n h l prev).kind ≠ none ∨ judged s ↑p = false)) ∧
    (∃ (p : Fin 12) (s : Machine.State), (s.isUp ↑p = true)) ∧
    (∃ (p : Fin 12) (s : Machine.State), (s.isUp ↑p = false)) ∧
    (∃ (p : Fin 12) (s : Machine.State), ((s.port ↑p).filler = true) ∧ (s.isUp ↑p = true ∨ s.pst ↑p = 7)) ∧
    (∃ (p : Fin 12) (s : Machine.State), ((s.port ↑p).filler = false)) :=
  ⟨⟨4, (dev .sender [(F.CL_PCFG_WIDTH2 4, 1), (F.CL_PCFG_LANE1 4, 1), (F.CL_PSTAT_STATE 4, 6), (F.LANE_STAT_BLOCK_LOCK 0, 1), (F.LANE_STAT_BLOCK_LOCK 1, 1)]), (fun q h hm => absurd hm (by decide +kernel)), by decide +kernel⟩,
   ⟨0, (dev .sender [(F.CL_PSTAT_STATE 0, 0)]), by decide +kernel⟩,
   ⟨4, true, true, (dev .sender [(F.CL_PCFG_WIDTH2 4, 1), (F.CL_PCFG_LANE1 4, 1), (F.CL_PSTAT_STATE 4, 6), (F.LANE_STAT_BLOCK_LOCK 0, 1), (F.LANE_STAT_BLOCK_LOCK 1, 1)]), by decide +kernel⟩,
   ⟨4, false, true, (dev .sender [(F.CL_PCFG_WIDTH2 4, 1), (F.CL_PCFG_LANE1 4, 1), (F.CL_PSTAT_STATE 4, 6), (F.LANE_STAT_BLOCK_LOCK 0, 1), (F.LANE_STAT_BLOCK_LOCK 1, 1)]), by decide +kernel⟩,
   ⟨4, false, 0, 0, 0, 0, (dev .sender [(F.CL_PCFG_WIDTH2 4, 1), (F.CL_PCFG_LANE1 4, 1), (F.CL_PSTAT_STATE 4, 6), (F.LANE_STAT_BLOCK_LOCK 0, 1), (F.LANE_STAT_BLOCK_LOCK 1, 1)]), by decide +kernel⟩,
   ⟨0, false, 0, 0, 0, 0, (dev .sender []), by decide +kernel⟩,
   ⟨4, (dev .sender [(F.CL_PCFG_WIDTH2 4, 1), (F.CL_PCFG_LANE1 4, 1), (F.CL_PSTAT_STATE 4, 6), (F.LANE_STAT_BLOCK_LOCK 0, 1), (F.LANE_STAT_BLOCK_LOCK 1, 1)]), by decide +kernel⟩,
   ⟨0, (dev .sender []), by decide +kernel⟩,
   ⟨4, (onPort 4 (fun x => { x with filler := true }) (dev .sender [(F.CL_PCFG_WIDTH2 4, 1), (F.CL_PCFG_LANE1 4, 1), (F.CL_PSTAT_STATE 4, 6), (F.LANE_STAT_BLOCK_LOCK 0, 1), (F.LANE_STAT_BLOCK_LOCK 1, 1)])), by decide +kernel⟩,
   ⟨0, (dev .sender []), by decide +kernel⟩⟩

/-- Witness of `Obligations.BypassSwitch`. -/
theorem test_w_BypassSwitch :
    (∃ (s : Machine.State) (p : Nat) (q : Nat), (ringPorts s = [p, q] ∨ ringPorts s = [q, p]) ∧ (s.on F.CL_BYP_BYP_STATE = false) ∧ (closedCause s = false) ∧ (s.on F.CL_TIMERS_BYP_LONE = true) ∧ (hasBlock s p = true) ∧ (∀ (n : Nat), n ∈ portLanes s q → s.on (F.LANE_STAT_SIGDET n) = false)) ∧
    (∃ (s : Machine.State), (linkCheck s = s) ∧ (s.on F.CL_TIMERS_BYP_LONE = false ∨ closedCause s = true)) ∧
    (∃ (path : Access) (w : Word) (s : Machine.State), (reaches s path = true) ∧ (addrOn s.strap.role R.CL_BYP = true) ∧ (s.on F.CL_BYP_BYP_STATE = true) ∧ ((BitVec.toNat w).testBit F.CL_BYP_FORCE_CLOSE.lo = true)) ∧
    (∃ (path : Access) (w : Word) (s : Machine.State) (p : Nat) (q : Nat), (reaches s path = true) ∧ (addrOn s.strap.role R.CL_BYP = true) ∧ (ringPorts s = [p, q]) ∧ (s.on F.CL_BYP_BYP_STATE = false) ∧ (s.on F.CL_BYP_FORCE_CLOSE = true) ∧ ((BitVec.toNat w).testBit F.CL_BYP_FORCE_CLOSE.lo = false) ∧ (closedCause (s.wr F.CL_BYP_FORCE_CLOSE 0) = false) ∧ (∀ (r : Nat), r ∈ ringPorts s → s.pst r = 3 ∧ hasBlock s r = true)) ∧
    (∃ (s : Machine.State), (s.on F.CL_BYP_BYP_STATE = true) ∧ (closedCause s = true)) ∧
    (∃ (s : Machine.State), (closedCause s = false) ∧ (linkCheck s = s)) :=
  ⟨⟨(dev .carriage [(F.SYS_MSTAT_MODE, 3), (F.CKG_STAT_REED_READY, 1), (F.CL_TIMERS_BYP_LONE, 1), (F.CL_PCFG_LANE1 1, 1), (F.CL_PCFG_LANE0 1, 1), (F.LANE_STAT_BLOCK_LOCK 0, 1), (F.CL_PCFG_EN 0, 1), (F.CL_PCFG_EN 1, 1)]), 0, 1, by decide +kernel⟩,
   ⟨(linkCheck (dev .sender [])), by decide +kernel⟩,
   ⟨.packet, 0xFFFFFFFF#32, (dev .carriage [(F.CL_BYP_BYP_STATE, 1)]), by decide +kernel⟩,
   ⟨.packet, 0#32, (dev .carriage [(F.SYS_MSTAT_MODE, 3), (F.CKG_STAT_REED_READY, 1), (F.CL_TIMERS_BYP_LONE, 1), (F.CL_PCFG_LANE1 1, 1), (F.CL_PCFG_LANE0 1, 1), (F.LANE_STAT_BLOCK_LOCK 0, 1), (F.CL_PCFG_EN 0, 1), (F.CL_PCFG_EN 1, 1), (F.LANE_STAT_BLOCK_LOCK 1, 1), (F.CL_BYP_FORCE_CLOSE, 1), (F.CL_PSTAT_STATE 0, 3), (F.CL_PSTAT_STATE 1, 3)]), 0, 1, by decide +kernel⟩,
   ⟨(dev .carriage [(F.CL_BYP_BYP_STATE, 1)]), by decide +kernel⟩,
   ⟨(linkCheck (dev .carriage [(F.SYS_MSTAT_MODE, 3), (F.CKG_STAT_REED_READY, 1), (F.CL_TIMERS_BYP_LONE, 1), (F.CL_PCFG_LANE1 1, 1), (F.CL_PCFG_LANE0 1, 1), (F.LANE_STAT_BLOCK_LOCK 0, 1), (F.CL_PCFG_EN 0, 1), (F.CL_PCFG_EN 1, 1)])), by decide +kernel⟩⟩

/-- Witness of `Obligations.DownwardCopiesAreMergedAndForwarded`. -/
theorem test_w_DownwardCopiesAreMergedAndForwarded :
    (∃ (p : Fin 12) (q : Nat) (c : Copy) (s : Machine.State), (c.type ≠ 10) ∧ (c.up = false) ∧ (intact c = true) ∧ (s.isUp ↑p = true) ∧ ((ringPorts s).contains ↑p = true) ∧ (forwardsTo s ↑p = some q)) ∧
    (∃ (p : Fin 12) (q : Nat) (c : Copy) (s : Machine.State), (c.up = false) ∧ (intact c = false) ∧ (s.isUp ↑p = true) ∧ ((ringPorts s).contains ↑p = true) ∧ (forwardsTo s ↑p = some q)) ∧
    (∃ (p : Fin 12) (q : Nat) (c : Copy) (s : Machine.State), (c.type ≠ 10) ∧ (c.up = true) ∧ (intact c = true) ∧ (s.isUp ↑p = true) ∧ ((ringPorts s).contains ↑p = true) ∧ (forwardsTo s ↑p = some q)) ∧
    (∃ (p : Fin 12) (s : Machine.State), (s.isUp ↑p = false)) ∧
    (∃ (p : Fin 12) (s : Machine.State), (s.isUp ↑p = false)) :=
  ⟨⟨0, 1, (sealed 0x30#8 0#32 [0,0,0,0,1,0,0,0]), (dev .carriage [(F.CL_PSTAT_STATE 0, 6), (F.CL_PSTAT_STATE 1, 6)]), by decide +kernel⟩,
   ⟨0, 1, (raw 0x30#8 0#32 [0,0,0,0,1,0,0,0]), (dev .carriage [(F.CL_PSTAT_STATE 0, 6), (F.CL_PSTAT_STATE 1, 6)]), by decide +kernel⟩,
   ⟨0, 1, (sealed 0x48#8 0#32 (List.replicate 8 0)), (dev .carriage [(F.CL_PSTAT_STATE 0, 6), (F.CL_PSTAT_STATE 1, 6)]), by decide +kernel⟩,
   ⟨0, (dev .sender []), by decide +kernel⟩,
   ⟨0, (dev .sender []), by decide +kernel⟩⟩

/-- Witness of `Obligations.UpwardCopiesAreMergedAtTheEnd`. -/
theorem test_w_UpwardCopiesAreMergedAtTheEnd :
    (∃ (p : Fin 12) (c : Copy) (s : Machine.State), (c.type ≠ 10) ∧ (c.up = true) ∧ (intact c = true) ∧ (s.isUp ↑p = true) ∧ (s.portIs (↑p) 1 = true) ∧ ((ringPorts s).contains ↑p = false)) ∧
    (∃ (s : Machine.State), (s.ring.held = [])) ∧
    (∃ (s : Machine.State) (c : Copy) (l : List Copy), (s.ring.held = c :: l)) :=
  ⟨⟨2, (sealed 0x48#8 0#32 (List.replicate 8 0)), (dev .sender [(F.CL_PCFG_EN 2, 1), (F.CL_PCFG_KIND 2, 1), (F.CL_PSTAT_STATE 2, 6)]), by decide +kernel⟩,
   ⟨(dev .sender []), by decide +kernel⟩,
   ⟨(onRing (fun x => { x with held := [(sealed 0x48#8 0#32 (List.replicate 8 0))] }) (dev .sender [(F.CL_PCFG_EN 2, 1), (F.CL_PCFG_KIND 2, 1), (F.CL_PSTAT_STATE 2, 6)])), (sealed 0x48#8 0#32 (List.replicate 8 0)), [], by decide +kernel⟩⟩

/-- Witness of `Obligations.ControlPacketsExecute`. -/
theorem test_w_ControlPacketsExecute :
    (∃ (s : Machine.State) (x : Ready) (l : List Ready) (r : RegSpec), (s.ring.ready = x :: l) ∧ (x.pkt.type = 2) ∧ (beAt x.pkt.data 4 1 = 1) ∧ (addrOn s.strap.role (pktAddr x.pkt) = true) ∧ (pktAddr x.pkt / 65536 = 5) ∧ (findReg (pktAddr x.pkt) = some r)) ∧
    (∃ (s : Machine.State) (x : Ready) (l : List Ready) (r : RegSpec), (s.ring.ready = x :: l) ∧ (x.pkt.type = 6) ∧ (isRingTable s x.pkt = false) ∧ (beAt x.pkt.data 4 2 = 1) ∧ (x.pkt.data.length = 16) ∧ (addrOn s.strap.role (beAt x.pkt.data 0 4 % 2 ^ 25 / 8 * 8) = true) ∧ (beAt x.pkt.data 0 4 % 2 ^ 25 / 8 * 8 / 65536 = 5) ∧ (findReg (beAt x.pkt.data 0 4 % 2 ^ 25 / 8 * 8) = some r)) ∧
    (∃ (s : Machine.State) (x : Ready) (l : List Ready), (s.ring.ready = x :: l) ∧ (x.pkt.type = 3) ∧ (beAt x.pkt.data 4 1 = 1) ∧ (s.on F.CL_MYPOS_VALID = true) ∧ (addrOn s.strap.role (pktAddr x.pkt) = true) ∧ (isWindow (pktAddr x.pkt) = false) ∧ (Table.get 0 s.latch (33554432 + pktAddr x.pkt) = 0) ∧ (pktAddr x.pkt / 65536 = 5) ∧ (NoTrain s)) ∧
    (∃ (s : Machine.State) (x : Ready) (l : List Ready), (s.ring.ready = x :: l) ∧ (x.pkt.type = 3) ∧ (beAt x.pkt.data 4 1 = 0 ∨ 8 < beAt x.pkt.data 4 1) ∧ (s.on F.CL_MYPOS_VALID = true) ∧ (NoTrain s)) ∧
    (∃ (c : Instr) (s : Machine.State), (c = Instr.regwr ∨ c = Instr.regrd ∨ c = Instr.table) ∧ (s.ring.ready = []) ∧ (linkCheck s = s)) :=
  ⟨⟨(onRing (fun x => { x with ready := [⟨raw 0x20#8 0x3F000000#32 ([0, 5, 0, 0, 1] ++ List.replicate 11 0), false⟩] }) (dev .carriage [])), ⟨raw 0x20#8 0x3F000000#32 ([0, 5, 0, 0, 1] ++ List.replicate 11 0), false⟩, [], (specOf 0x50000), by decide +kernel⟩,
   ⟨(onRing (fun x => { x with ready := [⟨raw 0x60#8 0x3F000000#32 ([0, 5, 0, 0, 0, 1] ++ List.replicate 10 0), false⟩] }) (dev .carriage [])), ⟨raw 0x60#8 0x3F000000#32 ([0, 5, 0, 0, 0, 1] ++ List.replicate 10 0), false⟩, [], (specOf 0x50000), by decide +kernel⟩,
   ⟨(onRing (fun x => { x with ready := [⟨raw 0x30#8 0x3F000000#32 [0, 5, 0, 0, 1, 0, 0, 0], false⟩] }) (dev .carriage [(F.CL_MYPOS_VALID, 1)])), ⟨raw 0x30#8 0x3F000000#32 [0, 5, 0, 0, 1, 0, 0, 0], false⟩, [], by unfold NoTrain; decide +kernel⟩,
   ⟨(onRing (fun x => { x with ready := [⟨raw 0x30#8 0x3F000000#32 [0, 5, 0, 0, 9, 0, 0, 0], false⟩] }) (dev .carriage [(F.CL_MYPOS_VALID, 1)])), ⟨raw 0x30#8 0x3F000000#32 [0, 5, 0, 0, 9, 0, 0, 0], false⟩, [], by unfold NoTrain; decide +kernel⟩,
   ⟨.regwr, (linkCheck (dev .carriage [])), (Or.inl rfl), by decide +kernel⟩⟩

/-- Witness of `Obligations.RingTablesGiveThePosition`. -/
theorem test_w_RingTablesGiveThePosition :
    (∃ (s : Machine.State) (x : Ready) (l : List Ready), (s.ring.ready = x :: l) ∧ (x.pkt.type = 6) ∧ (isRingTable s x.pkt = true)) ∧
    (∃ (s : Machine.State), (s.ring.ready = [])) ∧
    (∃ (r : Fin 8) (s : Machine.State), (drivesRing s ↑r = true) ∧ (mayControl s ↑r = true) ∧ (pairEn s = false) ∧ (s.on (F.RED_RSTAT_SILENT ↑r) = false)) ∧
    (∃ (r : Fin 8) (s : Machine.State), (drivesRing s ↑r = false)) :=
  ⟨⟨(onRing (fun x => { x with ready := [⟨raw 0x60#8 0x3F000000#32 ([0, 6, 8, 0, 0, 63] ++ List.replicate 506 0), false⟩] }) (dev .carriage [])), ⟨raw 0x60#8 0x3F000000#32 ([0, 6, 8, 0, 0, 63] ++ List.replicate 506 0), false⟩, [], by decide +kernel⟩,
   ⟨(onRing (fun x => { x with ready := [] }) (dev .sender [])), by decide +kernel⟩,
   ⟨0, (feeder []), by decide +kernel⟩,
   ⟨0, (dev .sender []), by decide +kernel⟩⟩

/-- Witness of `Obligations.UpwardPacketsReachTheirTargets`. -/
theorem test_w_UpwardPacketsReachTheirTargets :
    (∃ (s : Machine.State) (u : UpPkt) (l : List UpPkt) (q : Nat), (s.ring.upReady = u :: l) ∧ (u.pkt.type = 5) ∧ (s.on (F.EVC_RSRC_EN (eventRecord u.pkt).source) = true) ∧ (resolve s (s.rd (F.EVC_RSRC_TGT (eventRecord u.pkt).source)) = some q) ∧ (hasRoom s q = true)) ∧
    (∃ (s : Machine.State) (u : UpPkt) (l : List UpPkt), (s.ring.upReady = u :: l) ∧ (u.pkt.type = 5) ∧ (s.on (F.EVC_RSRC_EN (eventRecord u.pkt).source) = true) ∧ (resolve s (s.rd (F.EVC_RSRC_TGT (eventRecord u.pkt).source)) = none) ∧ (s.evc.hold.length < 256)) ∧
    (∃ (s : Machine.State) (u : UpPkt) (l : List UpPkt) (q : Request) (j : Job) (o : List Nat), (s.ring.upReady = u :: l) ∧ (u.pkt.type = 4) ∧ (holds s u.ring = true) ∧ (s.isCoach = false) ∧ (s.hif.reqs = [q]) ∧ (q.ring = u.ring) ∧ (q.tag = beAt u.pkt.data 6 2) ∧ (routeCovers q.route (BitVec.toNat u.pkt.route) = true) ∧ (q.owed = some o) ∧ (posOfRoute s (BitVec.toNat u.pkt.route) ∈ o) ∧ (o.erase (posOfRoute s (BitVec.toNat u.pkt.route)) ≠ []) ∧ (s.job q.job = some j) ∧ (j.type ≠ 4)) ∧
    (∃ (s : Machine.State) (u : UpPkt) (l : List UpPkt), (s.ring.upReady = u :: l) ∧ (u.pkt.type = 4) ∧ (holds s u.ring = true) ∧ (s.isCoach = false) ∧ (s.hif.reqs = [])) ∧
    (∃ (s : Machine.State) (u : UpPkt) (l : List UpPkt), (s.ring.upReady = u :: l) ∧ (u.pkt.type = 4) ∧ (holds s u.ring = true) ∧ (s.isCoach = true) ∧ (answersUs s u = false) ∧ (NoTrain s)) ∧
    (∃ (s : Machine.State), (s.ring.upReady = [])) ∧
    (∃ (s : Machine.State), (s.ring.upReady = [])) :=
  ⟨⟨(onRing (fun x => { x with upReady := [⟨0, raw 0x58#8 0#32 (List.replicate 16 0)⟩] }) (dev .sender [(F.EVC_RSRC_EN 0, 1), (F.EVC_TCTL_EN 0, 1)])), ⟨0, raw 0x58#8 0#32 (List.replicate 16 0)⟩, [], 0, by decide +kernel⟩,
   ⟨(onRing (fun x => { x with upReady := [⟨0, raw 0x58#8 0#32 (List.replicate 16 0)⟩] }) (dev .sender [(F.EVC_RSRC_EN 0, 1)])), ⟨0, raw 0x58#8 0#32 (List.replicate 16 0)⟩, [], by decide +kernel⟩,
   ⟨(onHif (fun x => { x with reqs := [⟨1, 0, 0, 0x3F000000, 0, some [1, 2]⟩], jobs := [jobOf 0 true [3]] }) (onRing (fun x => { x with upReady := [⟨0, raw 0x48#8 0x01000000#32 (List.replicate 8 0)⟩] }) (feeder []))), ⟨0, raw 0x48#8 0x01000000#32 (List.replicate 8 0)⟩, [], ⟨1, 0, 0, 0x3F000000, 0, some [1, 2]⟩, (jobOf 0 true [3]), [1, 2], by decide +kernel⟩,
   ⟨(onRing (fun x => { x with upReady := [⟨0, raw 0x48#8 0x01000000#32 (List.replicate 8 0)⟩] }) (feeder [])), ⟨0, raw 0x48#8 0x01000000#32 (List.replicate 8 0)⟩, [], by decide +kernel⟩,
   ⟨(onRing (fun x => { x with upReady := [⟨0, raw 0x48#8 0x01000000#32 (List.replicate 8 0)⟩] }) (dev .sender [(F.CL_PCFG_EN 8, 1), (F.CL_PCFG_KIND 8, 2), (F.CL_PCFG_EN 2, 1), (F.CL_PCFG_KIND 2, 1), (F.CL_PSTAT_STATE 2, 6)])), ⟨0, raw 0x48#8 0x01000000#32 (List.replicate 8 0)⟩, [], by unfold NoTrain; decide +kernel⟩,
   ⟨(onRing (fun x => { x with upReady := [] }) (dev .sender [])), by decide +kernel⟩,
   ⟨(onRing (fun x => { x with upReady := [] }) (dev .sender [])), by decide +kernel⟩⟩

/-- Witness of `Obligations.EchoAndSlots`. -/
theorem test_w_EchoAndSlots :
    (∃ (p : Fin 12) (stamp : Word) (turn : Word) (c : Copy) (s : Machine.State), (c = mkCopy 10 false 0 0 0 (bytesBE 4 (BitVec.toNat stamp) ++ bytesBE 4 ((s.port ↑p).lastStamp.getD 0) ++ bytesBE 4 (BitVec.toNat turn) ++ bytesBE 1 (sentPos s ↑p) ++ [0, 0, 0])) ∧ (s.isUp ↑p = true) ∧ (s.on F.CL_ECHO_ECHO_INT = true) ∧ ((ringPorts s).contains ↑p = false)) ∧
    (∃ (p : Fin 12) (stamp : Word) (turn : Word) (c : Copy) (s : Machine.State), (c = mkCopy 10 false 0 0 0 (bytesBE 4 (BitVec.toNat stamp) ++ bytesBE 4 ((s.port ↑p).lastStamp.getD 0) ++ bytesBE 4 (BitVec.toNat turn) ++ bytesBE 1 (sentPos s ↑p) ++ [0, 0, 0])) ∧ (s.isUp ↑p = true) ∧ (s.on F.CL_ECHO_ECHO_INT = true) ∧ ((ringPorts s).contains ↑p = true) ∧ (NoTrain s) ∧ (dirTx s ↑p = 1 ∨ dirTx s ↑p = 2) ∧ (outPortOf s (dirTx s ↑p) = some ↑p)) ∧
    (∃ (p : Fin 12) (stamp : Word) (turn : Word) (c : Copy) (s : Machine.State), (c = mkCopy 10 false 0 0 0 (bytesBE 4 (BitVec.toNat stamp) ++ bytesBE 4 ((s.port ↑p).lastStamp.getD 0) ++ bytesBE 4 (BitVec.toNat turn) ++ bytesBE 1 (sentPos s ↑p) ++ [0, 0, 0])) ∧ (s.isUp ↑p = false ∨ s.on F.CL_ECHO_ECHO_INT = false)) ∧
    (∃ (p : Fin 12) (c : Copy) (t4 : Word) (v : Nat) (s : Machine.State), (s.isUp ↑p = true) ∧ (c.type = 10) ∧ (intact c = true) ∧ (s.on F.CL_ECHO_ECHO_INT = true) ∧ (rttSample (beAt c.data 4 4) (BitVec.toNat t4) (beAt c.data 8 4) = some v) ∧ ((s.port ↑p).echo.length < 31)) ∧
    (∃ (p : Fin 12) (c : Copy) (t4 : Word) (s : Machine.State), (s.isUp ↑p = true) ∧ (c.type = 10) ∧ (intact c = true) ∧ (s.on F.CL_ECHO_ECHO_INT = true) ∧ (rttSample (beAt c.data 4 4) (BitVec.toNat t4) (beAt c.data 8 4) = none)) ∧
    (∃ (p : Fin 12) (c : Copy) (t4 : Word) (v : Nat) (d : Int) (s : Machine.State), (s.isUp ↑p = true) ∧ (c.type = 10) ∧ (intact c = true) ∧ (s.on F.CL_ECHO_ECHO_INT = true) ∧ (rttSample (beAt c.data 4 4) (BitVec.toNat t4) (beAt c.data 8 4) = some v) ∧ ((s.port ↑p).echo.length = 31) ∧ (d = delayPs (portRate s ↑p) ((s.port ↑p).echo ++ [v]) (s.rdS (F.CL_PASYM_ASYM ↑p)))) ∧
    (∃ (p : Fin 12) (c : Copy) (s : Machine.State), (s.isUp ↑p = true) ∧ (c.type = 10) ∧ (intact c = true) ∧ (s.on F.CL_ECHO_ECHO_INT = false)) ∧
    (∃ (p : Fin 12) (s : Machine.State), (s.isUp ↑p = false)) ∧
    (∃ (p : Fin 12) (free : Word) (s : Machine.State) (b : Nat), (b = max (trainDue s (s.port ↑p).trainK) (BitVec.toNat free)) ∧ (∀ (e : Nat), (s.port ↑p).trainEnd = some e → e < b) ∧ (NoTrain s) ∧ (s.portIs (↑p) 1 = true) ∧ (s.isUp ↑p = true)) ∧
    (∃ (p : Fin 12) (free : Word) (s : Machine.State) (b : Nat), (b = max (trainDue s (s.port ↑p).trainK) (BitVec.toNat free)) ∧ (∃ e, (s.port ↑p).trainEnd = some e ∧ b ≤ e) ∧ (NoTrain s) ∧ (s.portIs (↑p) 1 = true) ∧ (s.isUp ↑p = true)) ∧
    (∃ (p : Fin 12) (free : Word) (s : Machine.State) (b : Nat), (NoTrain s) ∧ (b = max (trainDue s (s.port ↑p).trainK) (BitVec.toNat free)) ∧ (s.portIs (↑p) 1 = false ∨ s.isUp ↑p = false)) ∧
    (∃ (p : Fin 12) (q : Nat) (nx : Option OutPkt) (s : Machine.State), (nx = nextOut s.ring.outq fun e => if dirTx s q = 1 then e.owedE else if dirTx s q = 2 then e.owedW else false) ∧ (forwardsTo s ↑p = some q) ∧ (NoTrain s) ∧ (0 < (s.port ↑p).gapLeft)) ∧
    (∃ (p : Fin 12) (q : Nat) (nx : Option OutPkt) (s : Machine.State), (nx = nextOut s.ring.outq fun e => if dirTx s q = 1 then e.owedE else if dirTx s q = 2 then e.owedW else false) ∧ (forwardsTo s ↑p = some q) ∧ (NoTrain s) ∧ ((s.port ↑p).gapLeft = 0) ∧ (nx = none)) ∧
    (∃ (p : Fin 12) (q : Nat) (cut : Bool) (nx : Option OutPkt) (s : Machine.State) (e : OutPkt) (c : Copy), (nx = nextOut s.ring.outq fun e => if dirTx s q = 1 then e.owedE else if dirTx s q = 2 then e.owedW else false) ∧ (forwardsTo s ↑p = some q) ∧ (NoTrain s) ∧ ((s.port ↑p).gapLeft = 0) ∧ (nx = some e) ∧ (c = if (e.owedE && e.owedW) = true then reSeq e.pkt s.ring.upSeq else e.pkt) ∧ (cut = false)) ∧
    (∃ (p : Fin 12) (q : Nat) (cut : Bool) (nx : Option OutPkt) (s : Machine.State) (e : OutPkt) (c : Copy), (nx = nextOut s.ring.outq fun e => if dirTx s q = 1 then e.owedE else if dirTx s q = 2 then e.owedW else false) ∧ (forwardsTo s ↑p = some q) ∧ (NoTrain s) ∧ ((s.port ↑p).gapLeft = 0) ∧ (nx = some e) ∧ (c = if (e.owedE && e.owedW) = true then reSeq e.pkt s.ring.upSeq else e.pkt) ∧ (cut = true)) ∧
    (∃ (p : Fin 12) (s : Machine.State), (forwardsTo s ↑p = none)) :=
  ⟨⟨1, 5#32, 3#32, (mkCopy 10 false 0 0 0 (bytesBE 4 (BitVec.toNat (5#32)) ++ bytesBE 4 (((feeder [(F.CL_ECHO_ECHO_INT, 1)]).port 1).lastStamp.getD 0) ++ bytesBE 4 (BitVec.toNat (3#32)) ++ bytesBE 1 (sentPos (feeder [(F.CL_ECHO_ECHO_INT, 1)]) 1) ++ [0, 0, 0])), (feeder [(F.CL_ECHO_ECHO_INT, 1)]), (rfl), by decide +kernel⟩,
   ⟨0, 5#32, 3#32, (mkCopy 10 false 0 0 0 (bytesBE 4 (BitVec.toNat (5#32)) ++ bytesBE 4 (((dev .carriage [(F.CL_PSTAT_STATE 0, 6), (F.CL_PSTAT_STATE 1, 6), (F.CL_PSTAT_DIR_RX 0, 2), (F.CL_ECHO_ECHO_INT, 1)]).port 0).lastStamp.getD 0) ++ bytesBE 4 (BitVec.toNat (3#32)) ++ bytesBE 1 (sentPos (dev .carriage [(F.CL_PSTAT_STATE 0, 6), (F.CL_PSTAT_STATE 1, 6), (F.CL_PSTAT_DIR_RX 0, 2), (F.CL_ECHO_ECHO_INT, 1)]) 0) ++ [0, 0, 0])), (dev .carriage [(F.CL_PSTAT_STATE 0, 6), (F.CL_PSTAT_STATE 1, 6), (F.CL_PSTAT_DIR_RX 0, 2), (F.CL_ECHO_ECHO_INT, 1)]), (rfl), by unfold NoTrain; decide +kernel⟩,
   ⟨1, 5#32, 3#32, (mkCopy 10 false 0 0 0 (bytesBE 4 (BitVec.toNat (5#32)) ++ bytesBE 4 (((feeder [(F.CL_ECHO_ECHO_INT, 0)]).port 1).lastStamp.getD 0) ++ bytesBE 4 (BitVec.toNat (3#32)) ++ bytesBE 1 (sentPos (feeder [(F.CL_ECHO_ECHO_INT, 0)]) 1) ++ [0, 0, 0])), (feeder [(F.CL_ECHO_ECHO_INT, 0)]), (rfl), by decide +kernel⟩,
   ⟨1, (sealed 0xA0#8 0 (List.replicate 10 0 ++ [3, 232, 0, 0, 0, 0])), 2000, 1000, (feeder [(F.CL_ECHO_ECHO_INT, 1)]), by decide +kernel⟩,
   ⟨1, (sealed 0xA0#8 0 (List.replicate 8 0 ++ [0x80, 0, 0, 0, 0, 0, 0, 0])), 2000, (feeder [(F.CL_ECHO_ECHO_INT, 1)]), by decide +kernel⟩,
   ⟨1, (sealed 0xA0#8 0 (List.replicate 10 0 ++ [3, 232, 0, 0, 0, 0])), 2000, 1000, (delayPs (portRate (onPort 1 (fun x => { x with echo := List.replicate 31 1000 }) (feeder [(F.CL_ECHO_ECHO_INT, 1), (F.CL_PDELAY_DELAY 1, (delayPs (portRate (feeder []) 1) (List.replicate 32 1000) 0).toNat)])) 1) (((onPort 1 (fun x => { x with echo := List.replicate 31 1000 }) (feeder [(F.CL_ECHO_ECHO_INT, 1), (F.CL_PDELAY_DELAY 1, (delayPs (portRate (feeder []) 1) (List.replicate 32 1000) 0).toNat)])).port 1).echo ++ [1000]) ((onPort 1 (fun x => { x with echo := List.replicate 31 1000 }) (feeder [(F.CL_ECHO_ECHO_INT, 1), (F.CL_PDELAY_DELAY 1, (delayPs (portRate (feeder []) 1) (List.replicate 32 1000) 0).toNat)])).rdS (F.CL_PASYM_ASYM 1))), (onPort 1 (fun x => { x with echo := List.replicate 31 1000 }) (feeder [(F.CL_ECHO_ECHO_INT, 1), (F.CL_PDELAY_DELAY 1, (delayPs (portRate (feeder []) 1) (List.replicate 32 1000) 0).toNat)])), by decide +kernel⟩,
   ⟨1, (sealed 0xA0#8 0 (List.replicate 10 0 ++ [3, 232, 0, 0, 0, 0])), (feeder [(F.CL_ECHO_ECHO_INT, 0)]), by decide +kernel⟩,
   ⟨0, (dev .sender []), by decide +kernel⟩,
   ⟨1, 0#32, (feeder []), (max (trainDue (feeder []) ((feeder []).port 1).trainK) (BitVec.toNat 0#32)), (rfl), (fun e h => nomatch (show ((feeder []).port 1).trainEnd = none from by decide +kernel).symm.trans h), by unfold NoTrain; decide +kernel⟩,
   ⟨1, 0#32, (onPort 1 (fun x => { x with trainEnd := some 1000000 }) (feeder [])), (max (trainDue (onPort 1 (fun x => { x with trainEnd := some 1000000 }) (feeder [])) ((onPort 1 (fun x => { x with trainEnd := some 1000000 }) (feeder [])).port 1).trainK) (BitVec.toNat 0#32)), (rfl), (⟨1000000, by decide +kernel, by decide +kernel⟩), by unfold NoTrain; decide +kernel⟩,
   ⟨0, 0, (dev .sender []), 0, by unfold NoTrain; decide +kernel⟩,
   ⟨0, 1, (nextOut (onPort 0 (fun x => { x with gapLeft := 3 }) (dev .carriage [(F.CL_PSTAT_STATE 0, 6), (F.CL_PSTAT_STATE 1, 6)])).ring.outq fun e => if dirTx (onPort 0 (fun x => { x with gapLeft := 3 }) (dev .carriage [(F.CL_PSTAT_STATE 0, 6), (F.CL_PSTAT_STATE 1, 6)])) 1 = 1 then e.owedE else if dirTx (onPort 0 (fun x => { x with gapLeft := 3 }) (dev .carriage [(F.CL_PSTAT_STATE 0, 6), (F.CL_PSTAT_STATE 1, 6)])) 1 = 2 then e.owedW else false), (onPort 0 (fun x => { x with gapLeft := 3 }) (dev .carriage [(F.CL_PSTAT_STATE 0, 6), (F.CL_PSTAT_STATE 1, 6)])), (rfl), by unfold NoTrain; decide +kernel⟩,
   ⟨0, 1, (nextOut (onPort 0 (fun x => { x with gapLeft := 0 }) (dev .carriage [(F.CL_PSTAT_STATE 0, 6), (F.CL_PSTAT_STATE 1, 6)])).ring.outq fun e => if dirTx (onPort 0 (fun x => { x with gapLeft := 0 }) (dev .carriage [(F.CL_PSTAT_STATE 0, 6), (F.CL_PSTAT_STATE 1, 6)])) 1 = 1 then e.owedE else if dirTx (onPort 0 (fun x => { x with gapLeft := 0 }) (dev .carriage [(F.CL_PSTAT_STATE 0, 6), (F.CL_PSTAT_STATE 1, 6)])) 1 = 2 then e.owedW else false), (onPort 0 (fun x => { x with gapLeft := 0 }) (dev .carriage [(F.CL_PSTAT_STATE 0, 6), (F.CL_PSTAT_STATE 1, 6)])), (rfl), by unfold NoTrain; decide +kernel⟩,
   ⟨0, 1, false, (nextOut (onPort 0 (fun x => { x with gapLeft := 0 }) (onRing (fun x => { x with outq := [⟨0, 0, sealed 0x48#8 0#32 (List.replicate 8 0), true, true, none, false, 1⟩] }) (dev .carriage [(F.CL_PSTAT_STATE 0, 6), (F.CL_PSTAT_STATE 1, 6), (F.CL_PSTAT_DIR_RX 0, 2)]))).ring.outq fun e => if dirTx (onPort 0 (fun x => { x with gapLeft := 0 }) (onRing (fun x => { x with outq := [⟨0, 0, sealed 0x48#8 0#32 (List.replicate 8 0), true, true, none, false, 1⟩] }) (dev .carriage [(F.CL_PSTAT_STATE 0, 6), (F.CL_PSTAT_STATE 1, 6), (F.CL_PSTAT_DIR_RX 0, 2)]))) 1 = 1 then e.owedE else if dirTx (onPort 0 (fun x => { x with gapLeft := 0 }) (onRing (fun x => { x with outq := [⟨0, 0, sealed 0x48#8 0#32 (List.replicate 8 0), true, true, none, false, 1⟩] }) (dev .carriage [(F.CL_PSTAT_STATE 0, 6), (F.CL_PSTAT_STATE 1, 6), (F.CL_PSTAT_DIR_RX 0, 2)]))) 1 = 2 then e.owedW else false), (onPort 0 (fun x => { x with gapLeft := 0 }) (onRing (fun x => { x with outq := [⟨0, 0, sealed 0x48#8 0#32 (List.replicate 8 0), true, true, none, false, 1⟩] }) (dev .carriage [(F.CL_PSTAT_STATE 0, 6), (F.CL_PSTAT_STATE 1, 6), (F.CL_PSTAT_DIR_RX 0, 2)]))), ⟨0, 0, sealed 0x48#8 0#32 (List.replicate 8 0), true, true, none, false, 1⟩, (reSeq (sealed 0x48#8 0#32 (List.replicate 8 0)) (onPort 0 (fun x => { x with gapLeft := 0 }) (onRing (fun x => { x with outq := [⟨0, 0, sealed 0x48#8 0#32 (List.replicate 8 0), true, true, none, false, 1⟩] }) (dev .carriage [(F.CL_PSTAT_STATE 0, 6), (F.CL_PSTAT_STATE 1, 6), (F.CL_PSTAT_DIR_RX 0, 2)]))).ring.upSeq), (rfl), by unfold NoTrain; decide +kernel⟩,
   ⟨0, 1, true, (nextOut (onPort 0 (fun x => { x with gapLeft := 0 }) (onRing (fun x => { x with outq := [⟨0, 0, sealed 0x48#8 0#32 (List.replicate 8 0), true, true, none, false, 1⟩] }) (dev .carriage [(F.CL_PSTAT_STATE 0, 6), (F.CL_PSTAT_STATE 1, 6), (F.CL_PSTAT_DIR_RX 0, 2)]))).ring.outq fun e => if dirTx (onPort 0 (fun x => { x with gapLeft := 0 }) (onRing (fun x => { x with outq := [⟨0, 0, sealed 0x48#8 0#32 (List.replicate 8 0), true, true, none, false, 1⟩] }) (dev .carriage [(F.CL_PSTAT_STATE 0, 6), (F.CL_PSTAT_STATE 1, 6), (F.CL_PSTAT_DIR_RX 0, 2)]))) 1 = 1 then e.owedE else if dirTx (onPort 0 (fun x => { x with gapLeft := 0 }) (onRing (fun x => { x with outq := [⟨0, 0, sealed 0x48#8 0#32 (List.replicate 8 0), true, true, none, false, 1⟩] }) (dev .carriage [(F.CL_PSTAT_STATE 0, 6), (F.CL_PSTAT_STATE 1, 6), (F.CL_PSTAT_DIR_RX 0, 2)]))) 1 = 2 then e.owedW else false), (onPort 0 (fun x => { x with gapLeft := 0 }) (onRing (fun x => { x with outq := [⟨0, 0, sealed 0x48#8 0#32 (List.replicate 8 0), true, true, none, false, 1⟩] }) (dev .carriage [(F.CL_PSTAT_STATE 0, 6), (F.CL_PSTAT_STATE 1, 6), (F.CL_PSTAT_DIR_RX 0, 2)]))), ⟨0, 0, sealed 0x48#8 0#32 (List.replicate 8 0), true, true, none, false, 1⟩, (reSeq (sealed 0x48#8 0#32 (List.replicate 8 0)) (onPort 0 (fun x => { x with gapLeft := 0 }) (onRing (fun x => { x with outq := [⟨0, 0, sealed 0x48#8 0#32 (List.replicate 8 0), true, true, none, false, 1⟩] }) (dev .carriage [(F.CL_PSTAT_STATE 0, 6), (F.CL_PSTAT_STATE 1, 6), (F.CL_PSTAT_DIR_RX 0, 2)]))).ring.upSeq), (rfl), by unfold NoTrain; decide +kernel⟩,
   ⟨0, (dev .sender []), by decide +kernel⟩⟩

/-- Witness of `Obligations.WallClockIsSteered`. -/
theorem test_w_WallClockIsSteered :
    (∃ (path : Access) (s : Machine.State), (reaches s path = true) ∧ (addrOn s.strap.role R.WT_INC = true) ∧ (ptpRuns s = true)) ∧
    (∃ (path : Access) (s : Machine.State), (reaches s path = true) ∧ (addrOn s.strap.role R.WT_INC = true) ∧ (ptpRuns s = false)) ∧
    (∃ (path : Access) (s : Machine.State), (reaches s path = true) ∧ (addrOn s.strap.role R.WT_STEP_LO = true) ∧ (ptpRuns s = true) ∧ (wtEnabled s = false)) ∧
    (∃ (path : Access) (s : Machine.State), (reaches s path = true) ∧ (addrOn s.strap.role R.WT_STEP_LO = true) ∧ (wtEnabled s = true)) ∧
    (∃ (path : Access) (s : Machine.State), (reaches s path = true) ∧ (addrOn s.strap.role R.WT_CTL = true) ∧ (s.on F.WT_CTL_FREERUN_CLR = false)) ∧
    (∃ (path : Access) (s : Machine.State), (reaches s path = true) ∧ (addrOn s.strap.role R.WT_CTL = true) ∧ (s.on F.WT_CTL_FREERUN_SET = false)) ∧
    (∃ (s : Machine.State), (ptpRuns s = true) ∧ (s.on F.WT_SERVO_SERVO_WD = true) ∧ (s.wt.wdFree = false)) ∧
    (∃ (s : Machine.State), (ptpRuns s = false ∨ s.on F.WT_SERVO_SERVO_WD = false ∨ s.wt.wdFree = true)) :=
  ⟨⟨.bar0, (dev .sender []), by decide +kernel⟩,
   ⟨.bar0, (dev .sender [(F.WT_CTL_SRC, 1)]), by decide +kernel⟩,
   ⟨.bar0, (dev .sender []), by decide +kernel⟩,
   ⟨.bar0, (dev .sender [(F.WT_RCFG_EN 0, 1)]), by decide +kernel⟩,
   ⟨.bar0, (dev .sender []), by decide +kernel⟩,
   ⟨.bar0, (dev .sender []), by decide +kernel⟩,
   ⟨(dev .sender []), by decide +kernel⟩,
   ⟨(dev .sender [(F.WT_SERVO_SERVO_WD, 0)]), by decide +kernel⟩⟩

/-- Witness of `Obligations.EventInputsAndGenerators`. -/
theorem test_w_EventInputsAndGenerators :
    (∃ (n : Fin 4) (rising : Bool) (s : Machine.State), (bitAt (bits (s.reg R.WT_EVTIN_CFG) (8 * ↑n) 8) (if rising = true then 0 else 1) = false)) ∧
    (∃ (n : Fin 4) (rising : Bool) (s : Machine.State), (bitAt (bits (s.reg R.WT_EVTIN_CFG) (8 * ↑n) 8) (if rising = true then 0 else 1) = true)) ∧
    (∃ (path : Access) (n : Fin 8) (s : Machine.State), (reaches s path = true) ∧ (addrOn s.strap.role (R.WT_RCFG ↑n) = true) ∧ (path = Access.packet ∨ hostDrop s = none) ∧ (s.on (F.WT_RCFG_EN ↑n) = false) ∧ ((rateFrac (s.rd (F.WT_RCFG_RATE ↑n))).isSome = true)) ∧
    (∃ (path : Access) (n : Fin 8) (s : Machine.State), (reaches s path = true) ∧ (addrOn s.strap.role (R.WT_RCFG ↑n) = true) ∧ (path = Access.packet ∨ hostDrop s = none) ∧ (s.on (F.WT_RCFG_EN ↑n) = false) ∧ (rateFrac (s.rd (F.WT_RCFG_RATE ↑n)) = none)) ∧
    (∃ (n : Fin 8) (s : Machine.State), (genRuns s ↑n = true) ∧ (s.isStandalone = false) ∧ ((s.gen ↑n).newRate = none) ∧ ((s.gen ↑n).turned = none) ∧ ((rateFrac (s.gen ↑n).rate).isSome = true) ∧ ((rateFrac (s.gen ↑n).markRate).isSome = true)) ∧
    (∃ (n : Fin 8) (s : Machine.State), (genRuns s ↑n = false ∨ s.isStandalone = true)) :=
  ⟨⟨1, false, (dev .sender []), by decide +kernel⟩,
   ⟨1, true, (((dev .sender [])).setReg R.WT_EVTIN_CFG 0x100), by decide +kernel⟩,
   ⟨.bar0, 3, (dev .sender []), by decide +kernel⟩,
   ⟨.bar0, 3, (dev .sender [(F.WT_RCFG_RATE 3, 255)]), by decide +kernel⟩,
   ⟨3, (onGen 3 (dev .sender [(F.WT_RCFG_EN 3, 1)])), by decide +kernel⟩,
   ⟨0, (dev .standalone []), by decide +kernel⟩⟩

/-- Witness of `Obligations.MarksAreFollowed`. -/
theorem test_w_MarksAreFollowed :
    (∃ (p : Fin 12) (q : Nat) (s : Machine.State), ((ringPorts s).contains ↑p = true) ∧ (forwardsTo s ↑p = some q)) ∧
    (∃ (p : Fin 12) (b : List Byte) (s : Machine.State), (∀ (m : Mark), s.wt.fol.taken = some m → m.frame ≠ (parseMark b).frame) ∧ (s.isUp ↑p = true) ∧ (bugleIntact b = true) ∧ ((ringPorts s).contains ↑p = true ∨ s.portIs (↑p) 3 = true ∧ ↑p = mport s ∧ aligns s = true) ∧ (bugleCorr b + s.rdS (F.CL_PDELAY_DELAY ↑p) < ↑((parseMark b).lead * 50000000)) ∧ (seenMark s (parseMark b).frame = none) ∧ (∀ (m : Mark), m ∈ s.wt.fol.marks → m.frame ≠ (parseMark b).frame) ∧ (s.wt.fol.marks.length < 3)) ∧
    (∃ (p : Fin 12) (b : List Byte) (s : Machine.State), (s.isUp ↑p = true) ∧ (bugleIntact b = true) ∧ ((ringPorts s).contains ↑p = true ∨ s.portIs (↑p) 3 = true ∧ ↑p = mport s ∧ aligns s = true) ∧ (↑((parseMark b).lead * 50000000) ≤ bugleCorr b + s.rdS (F.CL_PDELAY_DELAY ↑p)) ∧ (seenMark s (parseMark b).frame = none)) ∧
    (∃ (p : Fin 12) (s : Machine.State), (s.isUp ↑p = false)) ∧
    (∃ (s : Machine.State) (m : Mark) (f : Nat), (earliest (List.filter (fun m => (if s.rd F.WT_FSTAT_DIR = 2 then m.fenceW else m.fenceE).isNone) s.wt.fol.marks) (s.rd F.WT_FSTAT_DIR) = some (m, f))) ∧
    (∃ (s : Machine.State), ((s.wt.fol.marks.all fun m => (if s.rd F.WT_FSTAT_DIR = 2 then m.fenceW else m.fenceE).isSome) = true)) :=
  ⟨⟨0, 1, (dev .carriage [(F.CL_PSTAT_STATE 0, 6), (F.CL_PSTAT_STATE 1, 6)]), by decide +kernel⟩,
   ⟨0, (bugleBytes 0 7 0 0 0x24 100 0 0), (dev .carriage [(F.CL_PSTAT_STATE 0, 6), (F.CL_PSTAT_STATE 1, 6)]), (fun m h => nomatch (show (dev .carriage [(F.CL_PSTAT_STATE 0, 6), (F.CL_PSTAT_STATE 1, 6)]).wt.fol.taken = none from by decide +kernel).symm.trans h), by decide +kernel⟩,
   ⟨0, (bugleBytes 0 7 0 500000000 0x24 10 0 0), (dev .carriage [(F.CL_PSTAT_STATE 0, 6), (F.CL_PSTAT_STATE 1, 6)]), by decide +kernel⟩,
   ⟨0, (dev .sender []), by decide +kernel⟩,
   ⟨(onWt (fun x => { x with fol := { x.fol with marks := [{ markOf 7 with fenceW := some 9 }] } }) (dev .carriage [])), { markOf 7 with fenceW := some 9 }, 9, by decide +kernel⟩,
   ⟨(dev .carriage []), by decide +kernel⟩⟩

/-- Witness of `Obligations.FencesFall`. -/
theorem test_w_FencesFall :
    (∃ (n : Fin 8) (s : Machine.State), (n ≠ 0) ∧ (s.isStandalone = true) ∧ (genRuns s ↑n = true) ∧ ((s.gen ↑n).newRate = none)) ∧
    (∃ (n : Fin 8) (s : Machine.State), (genRuns s ↑n = false) ∧ (NoHeadWaits s) ∧ (s.hif.dirty = 0) ∧ (linkCheck s = s)) ∧
    (∃ (s : Machine.State) (m : Mark) (f : Nat), (follows s = false) ∧ (aligns s = true) ∧ (folState s ≠ 0) ∧ (earliest s.wt.fol.marks (s.rd F.WT_FSTAT_DIR) = some (m, f)) ∧ (s.wt.fol.shown = false ∨ f ≤ s.wt.fol.lastFence + flyPs s)) ∧
    (∃ (s : Machine.State) (m : Mark) (f : Nat), (s.isCarriage = true) ∧ (folState s ≠ 0) ∧ (earliest s.wt.fol.marks (s.rd F.WT_FSTAT_DIR) = some (m, f)) ∧ (s.wt.fol.shown = false ∨ f ≤ s.wt.fol.lastFence + flyPs s)) ∧
    (∃ (s : Machine.State), (folState s = 0)) :=
  ⟨⟨3, (onGen 3 (dev .standalone [(F.WT_RCFG_EN 3, 1)])), by decide +kernel⟩,
   ⟨0, (dev .sender []), by unfold NoHeadWaits; decide +kernel⟩,
   ⟨(onWt (fun x => { x with fol := { x.fol with marks := [{ markOf 7 with fenceE := some 9 }] } }) (mate [(F.WT_PAIR_ALIGN_EN, 1), (F.WT_FSTAT_STATE, 1)])), { markOf 7 with fenceE := some 9 }, 9, by decide +kernel⟩,
   ⟨(onWt (fun x => { x with fol := { x.fol with marks := [{ markOf 7 with fenceE := some 9 }] } }) (dev .carriage [(F.WT_FSTAT_STATE, 1)])), { markOf 7 with fenceE := some 9 }, 9, by decide +kernel⟩,
   ⟨(dev .sender []), by decide +kernel⟩⟩

/-- Witness of `Obligations.CommitsAndRegisterAccesses`. -/
theorem test_w_CommitsAndRegisterAccesses :
    (∃ (path : Access) (s : Machine.State), (reaches s path = true) ∧ (path = Access.packet ∨ hostDrop s = none) ∧ (s.commit.closed ≠ [])) ∧
    (∃ (path : Access) (s : Machine.State), (s.isCarriage = true ∧ folState s ≠ 0 ∨ follows s = false ∧ (refGen s).isSome = true ∧ ∀ (x : SWrite), x ∈ s.commit.opened → tiedRing x.addr = none) ∧ (reaches s path = true) ∧ (path = Access.packet ∨ hostDrop s = none) ∧ (s.commit.closed = []) ∧ (s.xa.autoWait = [])) ∧
    (∃ (path : Access) (addr : BitVec 25) (r : RegSpec) (s : Machine.State), (reaches s path = true) ∧ (addrOn s.strap.role addr.toNat = true) ∧ (addr.toNat % 4 = 0) ∧ (path = Access.packet ∨ mirrored addr.toNat = false ∨ hostDrop s = none) ∧ (findReg addr.toNat = some r) ∧ (addr.toNat / 65536 = 5 ∨ addr.toNat / 65536 = 14)) ∧
    (∃ (path : Access) (addr : BitVec 25) (s : Machine.State), (reaches s path = true) ∧ (addrOn s.strap.role (addr.toNat / 4 * 4) = true) ∧ (isWindow (addr.toNat / 4 * 4) = false)) ∧
    (∃ (path : Access) (s : Machine.State), (reaches s path = false)) ∧
    (∃ (path : Access) (s : Machine.State), (reaches s path = false)) ∧
    (∃ (path : Access) (s : Machine.State), (reaches s path = false)) :=
  ⟨⟨.bar0, { (dev .sender []) with commit := ⟨[], [⟨0x50000, 1, 1⟩], 0⟩ }, by decide +kernel⟩,
   ⟨.bar0, (onGen 3 (dev .sender [(F.WT_RCFG_EN 3, 1)])), (Or.inr (by decide +kernel)), by decide +kernel⟩,
   ⟨.bar0, 0x50000, (specOf 0x50000), (dev .sender []), by decide +kernel⟩,
   ⟨.bar0, 0x50000, (dev .sender []), by decide +kernel⟩,
   ⟨.bar0, (dev .carriage []), by decide +kernel⟩,
   ⟨.bar0, (dev .carriage []), by decide +kernel⟩,
   ⟨.bar0, (dev .carriage []), by decide +kernel⟩⟩

/-- Witness of `Obligations.TransactionsArePreparedAndAborted`. -/
theorem test_w_TransactionsArePreparedAndAborted :
    (∃ (path : Access) (s : Machine.State), (reaches s path = true) ∧ (addrOn s.strap.role R.XA_ABORT = true) ∧ (pairEn s = false) ∧ (NoHeadWaits s)) ∧
    (∃ (x : Fin 16) (data : Option (List Byte)) (s : Machine.State), ((s.xid ↑x).st = XidSt.preparing) ∧ ((s.xid ↑x).parent = none) ∧ (pairEn s = false) ∧ (NoHeadWaits s) ∧ (listBytes (s.xid ↑x).dests = 0 ∨ data.isSome = true) ∧ (∀ (e : Nat × Nat), e ∈ (s.xid ↑x).rings → mayControl s e.fst = true ∧ s.on (F.RED_RSTAT_SILENT e.fst) = false ∧ (ringEnds s e.fst).any s.isUp = true)) ∧
    (∃ (x : Fin 16) (s : Machine.State), ((s.xid ↑x).st = XidSt.preparing) ∧ ((s.xid ↑x).parent = none) ∧ ((s.xid ↑x).sent = false) ∧ (NoHeadWaits s) ∧ (∀ (e : Nat × Nat), e ∈ (s.xid ↑x).rings → holds s e.fst = true) ∧ (∃ e, e ∈ (s.xid ↑x).rings ∧ (ringEnds s e.fst).any s.isUp = false)) ∧
    (∃ (x : Fin 16) (n : Fin 16) (j : Job) (s : Machine.State), ((s.xid ↑x).st = XidSt.preparing) ∧ ((s.xid ↑x).parent = none) ∧ (NoHeadWaits s) ∧ (pairEn s = false) ∧ (∀ (e : Nat × Nat), e ∈ (s.xid ↑x).rings → holds s e.fst = true ∧ (ringEnds s e.fst).any s.isUp = true) ∧ (listBytes (s.xid ↑x).dests ≠ 0) ∧ ((s.xid ↑x).completion.bind s.job = some j) ∧ (j.ring = ↑n)) ∧
    (∃ (x : Fin 16) (s : Machine.State), ((s.xid ↑x).st ≠ XidSt.preparing) ∧ (NoHeadWaits s) ∧ (s.hif.dirty = 0)) ∧
    (∃ (x : Fin 16) (s : Machine.State), ((s.xid ↑x).st = XidSt.voting) ∧ ((s.xid ↑x).parent = none) ∧ (∀ (e : Nat × Nat), e ∈ (s.xid ↑x).rings → holds s e.fst = true) ∧ (pairEn s = false) ∧ ((s.xid ↑x).otherEpoch = false) ∧ ((s.xid ↑x).sent = true) ∧ (genRuns s (s.xid ↑x).refRing = true) ∧ (NoHeadWaits s)) ∧
    (∃ (x : Fin 16) (s : Machine.State), (NoHeadWaits s) ∧ (s.hif.dirty = 0) ∧ ((s.xid ↑x).st ≠ XidSt.voting ∧ (s.xid ↑x).st ≠ XidSt.preparing ∨ (s.xid ↑x).st = XidSt.voting ∧ (s.xid ↑x).parent.isSome = true ∧ allReady (s.xid ↑x) = true)) :=
  ⟨⟨.bar0, (dev .sender []), by unfold NoHeadWaits; decide +kernel⟩,
   ⟨0, none, (onXa (fun x => { x with xids := [(0, { Xid.init with st := .preparing, rings := [(0, 1)] })] }) (feeder [])), by unfold NoHeadWaits; decide +kernel⟩,
   ⟨0, (onXa (fun x => { x with xids := [(0, { Xid.init with st := .preparing, rings := [(0, 1)] })] }) (feeder [(F.CL_PSTAT_STATE 1, 0)])), by unfold NoHeadWaits; decide +kernel⟩,
   ⟨0, 3, (jobOf 3 true [10]), (onHif (fun x => { x with jobs := [(jobOf 3 true [10])] }) (onXa (fun x => { x with xids := [(0, { Xid.init with st := .preparing, rings := [(0, 1)], dests := [⟨0x01000000, 0, [], 0, 0, [(0, 1)]⟩], completion := some 1 })] }) (feeder []))), by unfold NoHeadWaits; decide +kernel⟩,
   ⟨0, (dev .sender []), by unfold NoHeadWaits; decide +kernel⟩,
   ⟨0, (onGen 0 (onXa (fun x => { x with xids := [(0, { Xid.init with st := .voting, sent := true })] }) (dev .sender [(F.WT_RCFG_EN 0, 1)]))), by unfold NoHeadWaits; decide +kernel⟩,
   ⟨0, (dev .sender []), by unfold NoHeadWaits; decide +kernel⟩⟩

/-- Witness of `Obligations.VotesAndArmAcks`. -/
theorem test_w_VotesAndArmAcks :
    (∃ (s : Machine.State) (u : UpPkt) (l : List UpPkt) (x : Nat) (w : Voter), (s.ring.upReady = u :: l) ∧ (u.pkt.type = 7) ∧ (beAt u.pkt.data 0 1 = 2) ∧ (x = beAt u.pkt.data 1 1 % 16) ∧ (holds s u.ring = true) ∧ (pairEn s = false) ∧ (NoHeadWaits s) ∧ ((s.xid x).st = XidSt.voting) ∧ (beAt u.pkt.data 2 4 = epochOf s u.ring) ∧ (List.find? (fun w => w.ring == u.ring && w.pos == posOfRoute s (BitVec.toNat u.pkt.route) && w.vote.isNone) (s.xid x).voters = some w)) ∧
    (∃ (s : Machine.State) (u : UpPkt) (l : List UpPkt) (x : Nat), (s.ring.upReady = u :: l) ∧ (u.pkt.type = 7) ∧ (beAt u.pkt.data 0 1 = 2) ∧ (x = beAt u.pkt.data 1 1 % 16) ∧ (NoHeadWaits s) ∧ (s.hif.dirty = 0) ∧ ((s.xid x).st ≠ XidSt.voting ∧ (s.xid x).st ≠ XidSt.preparing ∨ List.find? (fun w => w.ring == u.ring && w.pos == posOfRoute s (BitVec.toNat u.pkt.route) && w.vote.isNone) (s.xid x).voters = none)) ∧
    (∃ (s : Machine.State) (u : UpPkt) (l : List UpPkt) (x : Nat) (w : Voter), (s.ring.upReady = u :: l) ∧ (u.pkt.type = 7) ∧ (beAt u.pkt.data 0 1 = 3) ∧ (x = beAt u.pkt.data 1 1 % 16) ∧ ((s.xid x).st = XidSt.fired) ∧ (List.find? (fun w => w.ring == u.ring && w.pos == posOfRoute s (BitVec.toNat u.pkt.route) && w.result.isNone) (s.xid x).voters = some w) ∧ (∃ v, v ∈ (s.xid x).voters ∧ v ≠ w ∧ v.result = none)) ∧
    (∃ (s : Machine.State) (u : UpPkt) (l : List UpPkt) (x : Nat) (w : Voter) (n : Fin 16) (j : Job), (s.ring.upReady = u :: l) ∧ (u.pkt.type = 7) ∧ (beAt u.pkt.data 0 1 = 3) ∧ (x = beAt u.pkt.data 1 1 % 16) ∧ ((s.xid x).st = XidSt.fired) ∧ (List.find? (fun w => w.ring == u.ring && w.pos == posOfRoute s (BitVec.toNat u.pkt.route) && w.result.isNone) (s.xid x).voters = some w) ∧ (beAt u.pkt.data 8 1 = 1) ∧ (∀ (v : Voter), v ∈ (s.xid x).voters → v ≠ w → v.result = some 1) ∧ ((s.xid x).parent = none) ∧ ((s.xid x).completion.bind s.job = some j) ∧ (j.ring = ↑n)) ∧
    (∃ (s : Machine.State) (u : UpPkt) (l : List UpPkt), (s.ring.upReady = u :: l) ∧ (u.pkt.type = 7) ∧ (beAt u.pkt.data 0 1 = 3) ∧ ((s.xid (beAt u.pkt.data 1 1 % 16)).st ≠ XidSt.fired)) ∧
    (∃ (s : Machine.State), (∀ (u : UpPkt) (l : List UpPkt), s.ring.upReady = u :: l → u.pkt.type ≠ 7)) ∧
    (∃ (s : Machine.State), (∀ (u : UpPkt) (l : List UpPkt), s.ring.upReady = u :: l → u.pkt.type ≠ 7)) :=
  ⟨⟨(onXa (fun x => { x with xids := [(0, { Xid.init with st := .voting, voters := [⟨0, 1, 0, none, none⟩] })] }) (onRing (fun x => { x with upReady := [⟨0, raw 0x78#8 0x01000000#32 [2, 0, 0, 0, 0, 1, 0, 0]⟩] }) (feeder [(F.RED_REPOCH_EPOCH 0, 1)]))), ⟨0, raw 0x78#8 0x01000000#32 [2, 0, 0, 0, 0, 1, 0, 0]⟩, [], 0, ⟨0, 1, 0, none, none⟩, by unfold NoHeadWaits; decide +kernel⟩,
   ⟨(onRing (fun x => { x with upReady := [⟨0, raw 0x78#8 0x01000000#32 [2, 0, 0, 0, 0, 1, 0, 0]⟩] }) (feeder [])), ⟨0, raw 0x78#8 0x01000000#32 [2, 0, 0, 0, 0, 1, 0, 0]⟩, [], 0, by unfold NoHeadWaits; decide +kernel⟩,
   ⟨(onXa (fun x => { x with xids := [(0, { Xid.init with st := .fired, voters := [⟨0, 1, 0, none, none⟩, ⟨0, 2, 0, none, none⟩] })] }) (onRing (fun x => { x with upReady := [⟨0, raw 0x78#8 0x01000000#32 [3, 0, 0, 0, 0, 1, 0, 0]⟩] }) (feeder []))), ⟨0, raw 0x78#8 0x01000000#32 [3, 0, 0, 0, 0, 1, 0, 0]⟩, [], 0, ⟨0, 1, 0, none, none⟩, by decide +kernel⟩,
   ⟨(onHif (fun x => { x with jobs := [(jobOf 3 true [10])] }) (onXa (fun x => { x with xids := [(0, { Xid.init with st := .fired, completion := some 1, voters := [⟨0, 1, 0, none, none⟩] })] }) (onRing (fun x => { x with upReady := [⟨0, raw 0x78#8 0x01000000#32 [3, 0, 0, 0, 0, 1, 0, 0, 1]⟩] }) (feeder [])))), ⟨0, raw 0x78#8 0x01000000#32 [3, 0, 0, 0, 0, 1, 0, 0, 1]⟩, [], 0, ⟨0, 1, 0, none, none⟩, 3, (jobOf 3 true [10]), by decide +kernel⟩,
   ⟨(onRing (fun x => { x with upReady := [⟨0, raw 0x78#8 0x01000000#32 [3, 0, 0, 0, 0, 1, 0, 0, 1]⟩] }) (feeder [])), ⟨0, raw 0x78#8 0x01000000#32 [3, 0, 0, 0, 0, 1, 0, 0, 1]⟩, [], by decide +kernel⟩,
   ⟨(dev .sender []), (fun _ _ h => nomatch (show (dev .sender []).ring.upReady = [] from by decide +kernel).symm.trans h)⟩,
   ⟨(dev .sender []), (fun _ _ h => nomatch (show (dev .sender []).ring.upReady = [] from by decide +kernel).symm.trans h)⟩⟩

/-- Witness of `Obligations.FollowersStageAndVote`. -/
theorem test_w_FollowersStageAndVote :
    (∃ (s : Machine.State) (r : Ready) (l : List Ready) (b : Bool), (s.ring.ready = r :: l) ∧ (r.pkt.type = 7) ∧ (beAt r.pkt.data 0 1 = 1) ∧ (readRoute s (BitVec.toNat r.pkt.route) = Dest.here b) ∧ (s.use (beAt r.pkt.data 1 1 % 16) = none) ∧ (stagedAll s + (partEntries r.pkt).length ≤ 512)) ∧
    (∃ (s : Machine.State) (r : Ready) (l : List Ready) (n : Nat) (y : Nat) (k : Nat), (s.ring.ready = r :: l) ∧ (r.pkt.type = 7) ∧ (beAt r.pkt.data 0 1 = 1) ∧ (readRoute s (BitVec.toNat r.pkt.route) = Dest.through n) ∧ (s.use (beAt r.pkt.data 1 1 % 16) = none) ∧ (mayControl s n = true) ∧ (s.on (F.RED_RSTAT_SILENT n) = false) ∧ (pairEn s = false) ∧ (rateRatio (s.rd (F.WT_RCFG_RATE n)) (s.rd F.WT_FMARK_RATE) = some k) ∧ (genRuns s n = true) ∧ (posOfRoute s (BitVec.toNat r.pkt.route) = 63 → s.on (F.CL_RTAB_FLAGS_LOCK n) = true) ∧ (freeXidBelow s (if s.on F.XA_AUTO_SWAP_SYNC = true then 15 else 16) = some y)) ∧
    (∃ (s : Machine.State) (r : Ready) (l : List Ready) (u : Use), (s.ring.ready = r :: l) ∧ (r.pkt.type = 7) ∧ (beAt r.pkt.data 0 1 = 4) ∧ (s.use (beAt r.pkt.data 1 1 % 16) = some u) ∧ (u.epoch = beAt r.pkt.data 2 4) ∧ (u.target = beAt r.pkt.data 8 6) ∧ (u.closed = false) ∧ (partsWhole u = false) ∧ (u.badParts = false)) ∧
    (∃ (s : Machine.State) (r : Ready) (l : List Ready), (∀ (u : Use), s.use (beAt r.pkt.data 1 1 % 16) = some u → u.epoch ≠ beAt r.pkt.data 2 4 ∨ u.target ≠ beAt r.pkt.data 8 6 ∨ u.closed = true) ∧ (s.ring.ready = r :: l) ∧ (r.pkt.type = 7) ∧ (beAt r.pkt.data 0 1 = 4)) ∧
    (∃ (x : Fin 16) (s : Machine.State) (u : Use), (∀ (y : Nat), u.sub = some y → subReady s y ↑x = true) ∧ (s.use ↑x = some u) ∧ (u.voted = false) ∧ (u.mute = false) ∧ (u.closed = true) ∧ (partsWhole u = true ∨ u.badParts = true) ∧ (s.on F.CL_MYPOS_VALID = true) ∧ (NoTrain s)) ∧
    (∃ (x : Fin 16) (s : Machine.State), (∀ (u : Use), s.use ↑x = some u → u.voted = true ∨ u.mute = true ∨ u.closed = false ∨ partsWhole u = false ∧ u.badParts = false)) ∧
    (∃ (s : Machine.State), (s.ring.ready = [])) ∧
    (∃ (s : Machine.State), (s.ring.ready = [])) :=
  ⟨⟨(onRing (fun x => { x with ready := [⟨raw 0x70#8 0x3F000000#32 ([1] ++ List.replicate 23 0), false⟩] }) (dev .carriage [])), ⟨raw 0x70#8 0x3F000000#32 ([1] ++ List.replicate 23 0), false⟩, [], true, by decide +kernel⟩,
   ⟨(onRing (fun x => { x with ready := [⟨raw 0x70#8 0x3F010000#32 ([1] ++ List.replicate 23 0), false⟩], tableHeld := true }) (onGen 0 (dev .sender [(F.CL_PCFG_EN 8, 1), (F.CL_PCFG_KIND 8, 2), (F.CL_PCFG_EN 2, 1), (F.CL_PCFG_KIND 2, 1), (F.CL_PSTAT_STATE 2, 6), (F.WT_RCFG_EN 0, 1), (F.WT_RCFG_RATE 0, 36), (F.WT_FMARK_RATE, 36), (F.CL_MYROUTE_ROUTE, 16777216)]))), ⟨raw 0x70#8 0x3F010000#32 ([1] ++ List.replicate 23 0), false⟩, [], 0, ((freeXidBelow (onRing (fun x => { x with ready := [⟨raw 0x70#8 0x3F010000#32 ([1] ++ List.replicate 23 0), false⟩], tableHeld := true }) (onGen 0 (dev .sender [(F.CL_PCFG_EN 8, 1), (F.CL_PCFG_KIND 8, 2), (F.CL_PCFG_EN 2, 1), (F.CL_PCFG_KIND 2, 1), (F.CL_PSTAT_STATE 2, 6), (F.WT_RCFG_EN 0, 1), (F.WT_RCFG_RATE 0, 36), (F.WT_FMARK_RATE, 36), (F.CL_MYROUTE_ROUTE, 16777216)]))) (if (onRing (fun x => { x with ready := [⟨raw 0x70#8 0x3F010000#32 ([1] ++ List.replicate 23 0), false⟩], tableHeld := true }) (onGen 0 (dev .sender [(F.CL_PCFG_EN 8, 1), (F.CL_PCFG_KIND 8, 2), (F.CL_PCFG_EN 2, 1), (F.CL_PCFG_KIND 2, 1), (F.CL_PSTAT_STATE 2, 6), (F.WT_RCFG_EN 0, 1), (F.WT_RCFG_RATE 0, 36), (F.WT_FMARK_RATE, 36), (F.CL_MYROUTE_ROUTE, 16777216)]))).on F.XA_AUTO_SWAP_SYNC = true then 15 else 16)).getD 0), 1, by decide +kernel⟩,
   ⟨(onRing (fun x => { x with ready := [⟨raw 0x70#8 0x3F000000#32 [4, 0, 0, 0, 0, 1, 0, 0, 0, 0, 0, 0, 0, 7, 0, 0], false⟩] }) (onXa (fun x => { x with uses := [(0, some { epoch := 1, target := 7, ops := 0, slot := 0, rate := 0, dlead := 0, parts := [(0, 2, [0])], entries := [], closed := false, voted := false, refused := false, badParts := false, full := false, windowEnd := 0, sub := none, down := 0, into := [], mute := false })] }) (dev .carriage []))), ⟨raw 0x70#8 0x3F000000#32 [4, 0, 0, 0, 0, 1, 0, 0, 0, 0, 0, 0, 0, 7, 0, 0], false⟩, [], { epoch := 1, target := 7, ops := 0, slot := 0, rate := 0, dlead := 0, parts := [(0, 2, [0])], entries := [], closed := false, voted := false, refused := false, badParts := false, full := false, windowEnd := 0, sub := none, down := 0, into := [], mute := false }, by decide +kernel⟩,
   ⟨(onRing (fun x => { x with ready := [⟨raw 0x70#8 0x3F000000#32 [4, 0, 0, 0, 0, 1, 0, 0, 0, 0, 0, 0, 0, 7, 0, 0], false⟩] }) (dev .carriage [])), ⟨raw 0x70#8 0x3F000000#32 [4, 0, 0, 0, 0, 1, 0, 0, 0, 0, 0, 0, 0, 7, 0, 0], false⟩, [], (fun u h => nomatch (show (none : Option Use) = some u from h)), by decide +kernel⟩,
   ⟨0, (onXa (fun x => { x with uses := [(0, some { epoch := 1, target := 7, ops := 0, slot := 0, rate := 0, dlead := 0, parts := [], entries := [], closed := true, voted := false, refused := false, badParts := false, full := false, windowEnd := 0, sub := none, down := 0, into := [], mute := false })] }) (dev .carriage [(F.CL_MYPOS_VALID, 1)])), { epoch := 1, target := 7, ops := 0, slot := 0, rate := 0, dlead := 0, parts := [], entries := [], closed := true, voted := false, refused := false, badParts := false, full := false, windowEnd := 0, sub := none, down := 0, into := [], mute := false }, (fun y h => nomatch (show (none : Option Nat) = some y from h)), by unfold NoTrain; decide +kernel⟩,
   ⟨0, (dev .sender []), by decide +kernel⟩,
   ⟨(onRing (fun x => { x with ready := [] }) (dev .sender [])), by decide +kernel⟩,
   ⟨(onRing (fun x => { x with ready := [] }) (dev .sender [])), by decide +kernel⟩⟩

/-- Witness of `Obligations.NetworkPortsAndFrames`. -/
theorem test_w_NetworkPortsAndFrames :
    (∃ (n : Fin 4) (fl : Bool) (s : Machine.State), (s.on (F.NI_PCFG_EN ↑n) = true) ∧ (s.on (F.NI_PSTAT_CONFLICT ↑n) = false) ∧ (niConfigOk s ↑n = true) ∧ (s.on (F.NI_PSTAT_LINK ↑n) = false) ∧ (s.rd (F.NI_PCFG_FEC ↑n) = 0 ∨ fl = true)) ∧
    (∃ (n : Fin 4) (fl : Bool) (s : Machine.State), (s.on (F.NI_PCFG_EN ↑n) = false ∨ s.on (F.NI_PSTAT_CONFLICT ↑n) = true ∨ niConfigOk s ↑n = false ∨ s.on (F.NI_PSTAT_LINK ↑n) = true ∨ s.rd (F.NI_PCFG_FEC ↑n) ≠ 0 ∧ fl = false)) ∧
    (∃ (n : Fin 4) (s : Machine.State), (s.on (F.NI_PSTAT_LINK ↑n) = true)) ∧
    (∃ (n : Fin 4) (s : Machine.State), (s.on (F.NI_PSTAT_LINK ↑n) = false) ∧ (s.ni.htx = [] ∨ s.on F.NI_HTX_CTL_EN = false)) ∧
    (∃ (n : Fin 4) (s : Machine.State), (s.on (F.NI_PSTAT_LINK ↑n) = false)) ∧
    (∃ (n : Fin 4) (b : List Byte) (ok : Bool) (x : BitVec 16) (y : BitVec 16) (s : Machine.State) (u : Machine.State), (u = (s.bump (F.NI_PFEC_CORR ↑n) x.toNat).bump (F.NI_PFEC_UNCORR ↑n) y.toNat) ∧ (s.on (F.NI_PSTAT_LINK ↑n) = true) ∧ (ok = false ∨ b.length < 64 ∨ 9216 < b.length)) ∧
    (∃ (n : Fin 4) (b : List Byte) (ok : Bool) (dr : Bool) (x : BitVec 16) (y : BitVec 16) (s : Machine.State) (u : Machine.State), (u = (s.bump (F.NI_PFEC_CORR ↑n) x.toNat).bump (F.NI_PFEC_UNCORR ↑n) y.toNat) ∧ (s.on (F.NI_PSTAT_LINK ↑n) = true) ∧ (ok = true) ∧ (64 ≤ b.length) ∧ (b.length ≤ 9216) ∧ (dr = true ∨ beAt (List.take (b.length - 4) b) 12 2 = 34824)) ∧
    (∃ (n : Fin 4) (b : List Byte) (ok : Bool) (dr : Bool) (x : BitVec 16) (y : BitVec 16) (s : Machine.State) (u : Machine.State), (u = (s.bump (F.NI_PFEC_CORR ↑n) x.toNat).bump (F.NI_PFEC_UNCORR ↑n) y.toNat) ∧ (s.on (F.NI_PSTAT_LINK ↑n) = true) ∧ (ok = true) ∧ (64 ≤ b.length) ∧ (b.length ≤ 9216) ∧ (dr = false) ∧ (beAt (List.take (b.length - 4) b) 12 2 ≠ 34824) ∧ (classify s (↑n) (List.take (b.length - 4) b) = FrameTo.bad)) ∧
    (∃ (n : Fin 4) (b : List Byte) (ok : Bool) (dr : Bool) (x : BitVec 16) (y : BitVec 16) (s : Machine.State) (u : Machine.State), (u = (s.bump (F.NI_PFEC_CORR ↑n) x.toNat).bump (F.NI_PFEC_UNCORR ↑n) y.toNat) ∧ (s.on (F.NI_PSTAT_LINK ↑n) = true) ∧ (ok = true) ∧ (64 ≤ b.length) ∧ (b.length ≤ 9216) ∧ (dr = false) ∧ (beAt (List.take (b.length - 4) b) 12 2 ≠ 34824) ∧ (classify s (↑n) (List.take (b.length - 4) b) = FrameTo.gone)) ∧
    (∃ (n : Fin 4) (b : List Byte) (ok : Bool) (dr : Bool) (x : BitVec 16) (y : BitVec 16) (s : Machine.State) (u : Machine.State) (e : Nat × Nat) (l : List (Nat × Nat)), (u = (s.bump (F.NI_PFEC_CORR ↑n) x.toNat).bump (F.NI_PFEC_UNCORR ↑n) y.toNat) ∧ (s.on (F.NI_PSTAT_LINK ↑n) = true) ∧ (ok = true) ∧ (64 ≤ b.length) ∧ (b.length ≤ 9216) ∧ (dr = false) ∧ (beAt (List.take (b.length - 4) b) 12 2 ≠ 34824) ∧ (classify s (↑n) (List.take (b.length - 4) b) = FrameTo.host true) ∧ (s.on F.NI_HRX_CTL_EN = true) ∧ (s.ni.hrx = e :: l)) ∧
    (∃ (n : Fin 4) (b : List Byte) (ok : Bool) (dr : Bool) (x : BitVec 16) (y : BitVec 16) (s : Machine.State) (u : Machine.State) (f : Nat) (legB : Bool) (p : List Byte) (k : Nat), (u = (s.bump (F.NI_PFEC_CORR ↑n) x.toNat).bump (F.NI_PFEC_UNCORR ↑n) y.toNat) ∧ (parseRtp s f p = Sum.inr k) ∧ (s.on (F.NI_PSTAT_LINK ↑n) = true) ∧ (ok = true) ∧ (64 ≤ b.length) ∧ (b.length ≤ 9216) ∧ (dr = false) ∧ (beAt (List.take (b.length - 4) b) 12 2 ≠ 34824) ∧ (classify s (↑n) (List.take (b.length - 4) b) = FrameTo.flow f legB p)) ∧
    (∃ (n : Fin 4) (b : List Byte) (ok : Bool) (dr : Bool) (x : BitVec 16) (y : BitVec 16) (s : Machine.State) (u : Machine.State) (f : Nat) (legB : Bool) (p : List Byte) (r : Rtp), (u = (s.bump (F.NI_PFEC_CORR ↑n) x.toNat).bump (F.NI_PFEC_UNCORR ↑n) y.toNat) ∧ (parseRtp s f p = Sum.inl r) ∧ (s.on (F.NI_PSTAT_LINK ↑n) = true) ∧ (ok = true) ∧ (64 ≤ b.length) ∧ (b.length ≤ 9216) ∧ (dr = false) ∧ (beAt (List.take (b.length - 4) b) 12 2 ≠ 34824) ∧ (classify s (↑n) (List.take (b.length - 4) b) = FrameTo.flow f legB p) ∧ ((legOn s f !legB) = false)) :=
  ⟨⟨1, false, (dev .sender [(F.NI_PCFG_EN 1, 1)]), by decide +kernel⟩,
   ⟨0, false, (dev .sender []), by decide +kernel⟩,
   ⟨1, (dev .sender [(F.NI_PSTAT_LINK 1, 1)]), by decide +kernel⟩,
   ⟨0, (onNi (fun x => { x with htx := [] }) (dev .sender [])), by decide +kernel⟩,
   ⟨1, (dev .sender []), by decide +kernel⟩,
   ⟨1, [], false, 0#16, 0#16, (dev .sender [(F.NI_PSTAT_LINK 1, 1)]), (((dev .sender [(F.NI_PSTAT_LINK 1, 1)]).bump (F.NI_PFEC_CORR 1) (BitVec.toNat (0#16))).bump (F.NI_PFEC_UNCORR 1) (BitVec.toNat (0#16))), (rfl), by decide +kernel⟩,
   ⟨1, ([1, 0, 94, 1, 1, 1, 2, 0, 0, 0, 0, 7, 8] ++ List.replicate 51 0), true, true, 0#16, 0#16, (dev .sender [(F.NI_PSTAT_LINK 1, 1)]), (((dev .sender [(F.NI_PSTAT_LINK 1, 1)]).bump (F.NI_PFEC_CORR 1) (BitVec.toNat (0#16))).bump (F.NI_PFEC_UNCORR 1) (BitVec.toNat (0#16))), (rfl), by decide +kernel⟩,
   ⟨1, ([1, 0, 94, 1, 1, 1, 2, 0, 0, 0, 0, 7, 8] ++ List.replicate 51 0), true, false, 0#16, 0#16, (dev .sender [(F.NI_PSTAT_LINK 1, 1)]), (((dev .sender [(F.NI_PSTAT_LINK 1, 1)]).bump (F.NI_PFEC_CORR 1) (BitVec.toNat (0#16))).bump (F.NI_PFEC_UNCORR 1) (BitVec.toNat (0#16))), (rfl), by decide +kernel⟩,
   ⟨1, ([2, 0, 0, 0, 0, 9, 2, 0, 0, 0, 0, 7, 18, 52] ++ List.replicate 50 0), true, false, 0#16, 0#16, (dev .sender [(F.NI_PSTAT_LINK 1, 1)]), (((dev .sender [(F.NI_PSTAT_LINK 1, 1)]).bump (F.NI_PFEC_CORR 1) (BitVec.toNat (0#16))).bump (F.NI_PFEC_UNCORR 1) (BitVec.toNat (0#16))), (rfl), by decide +kernel⟩,
   ⟨1, (slice [0xFF,0xFF,0xFF,0xFF,0xFF,0xFF, 0,0,0,0,0,0, 0x88,0xF7] 0 64), true, false, 0#16, 0#16, (onNi (fun x => { x with hrx := [(0, 128)] }) (dev .sender [(F.NI_PSTAT_LINK 1, 1), (F.NI_HRX_CTL_EN, 1)])), (((onNi (fun x => { x with hrx := [(0, 128)] }) (dev .sender [(F.NI_PSTAT_LINK 1, 1), (F.NI_HRX_CTL_EN, 1)])).bump (F.NI_PFEC_CORR 1) (BitVec.toNat (0#16))).bump (F.NI_PFEC_UNCORR 1) (BitVec.toNat (0#16))), (0, 128), [], (rfl), by decide +kernel⟩,
   ⟨1, ([1, 0, 94, 1, 1, 1, 2, 0, 0, 0, 0, 7, 8, 0, 69, 0, 0, 40, 0, 0, 0, 0, 64, 17, 128, 194, 10, 0, 0, 1, 239, 1, 1, 1, 0, 9, 78, 32, 0, 20] ++ List.replicate 24 0), true, false, 0#16, 0#16, (dev .sender [(F.NI_PSTAT_LINK 1, 1), (F.NI_FCFG_EN 3, 1), (F.NI_FCFG_LEG_A 3, 1), (F.NI_FCFG_PORT_A 3, 1), (F.NI_FADDR_A_ADDR 3 2, 65535), (F.NI_FADDR_A_ADDR 3 3, 4009820417), (F.NI_FKEY_UDP_A 3, 20000), (F.NI_FSIZE_WIDTH 3, 4), (F.NI_FSIZE_HEIGHT 3, 4), (F.NI_FFMT_DEPTH 3, 1), (F.NI_FVLAN_VMATCH_A 3, 0), (F.NI_FCFG_PT 3, 0), (F.NI_FFMT_SAMP 3, 0), (F.NI_FCFG_LEG_B 3, 0)]), (((dev .sender [(F.NI_PSTAT_LINK 1, 1), (F.NI_FCFG_EN 3, 1), (F.NI_FCFG_LEG_A 3, 1), (F.NI_FCFG_PORT_A 3, 1), (F.NI_FADDR_A_ADDR 3 2, 65535), (F.NI_FADDR_A_ADDR 3 3, 4009820417), (F.NI_FKEY_UDP_A 3, 20000), (F.NI_FSIZE_WIDTH 3, 4), (F.NI_FSIZE_HEIGHT 3, 4), (F.NI_FFMT_DEPTH 3, 1), (F.NI_FVLAN_VMATCH_A 3, 0), (F.NI_FCFG_PT 3, 0), (F.NI_FFMT_SAMP 3, 0), (F.NI_FCFG_LEG_B 3, 0)]).bump (F.NI_PFEC_CORR 1) (BitVec.toNat (0#16))).bump (F.NI_PFEC_UNCORR 1) (BitVec.toNat (0#16))), 3, false, (List.replicate 12 0), 1, (rfl), (by rfl), by decide +kernel⟩,
   ⟨1, [1, 0, 94, 1, 1, 1, 2, 0, 0, 0, 0, 7, 8, 0, 69, 0, 0, 53, 0, 0, 0, 0, 64, 17, 128, 181, 10, 0, 0, 1, 239, 1, 1, 1, 0, 9, 78, 32, 0, 33, 0, 0, 128, 0, 0, 1, 0, 0, 0, 9, 0, 0, 0, 1, 0, 0, 0, 5, 0, 0, 0, 0, 1, 2, 3, 4, 5, 0, 0, 0, 0], true, false, 0#16, 0#16, (dev .sender [(F.NI_PSTAT_LINK 1, 1), (F.NI_FCFG_EN 3, 1), (F.NI_FCFG_LEG_A 3, 1), (F.NI_FCFG_PORT_A 3, 1), (F.NI_FADDR_A_ADDR 3 2, 65535), (F.NI_FADDR_A_ADDR 3 3, 4009820417), (F.NI_FKEY_UDP_A 3, 20000), (F.NI_FSIZE_WIDTH 3, 4), (F.NI_FSIZE_HEIGHT 3, 4), (F.NI_FFMT_DEPTH 3, 1), (F.NI_FVLAN_VMATCH_A 3, 0), (F.NI_FCFG_PT 3, 0), (F.NI_FFMT_SAMP 3, 0), (F.NI_FCFG_LEG_B 3, 0)]), (((dev .sender [(F.NI_PSTAT_LINK 1, 1), (F.NI_FCFG_EN 3, 1), (F.NI_FCFG_LEG_A 3, 1), (F.NI_FCFG_PORT_A 3, 1), (F.NI_FADDR_A_ADDR 3 2, 65535), (F.NI_FADDR_A_ADDR 3 3, 4009820417), (F.NI_FKEY_UDP_A 3, 20000), (F.NI_FSIZE_WIDTH 3, 4), (F.NI_FSIZE_HEIGHT 3, 4), (F.NI_FFMT_DEPTH 3, 1), (F.NI_FVLAN_VMATCH_A 3, 0), (F.NI_FCFG_PT 3, 0), (F.NI_FFMT_SAMP 3, 0), (F.NI_FCFG_LEG_B 3, 0)]).bump (F.NI_PFEC_CORR 1) (BitVec.toNat (0#16))).bump (F.NI_PFEC_UNCORR 1) (BitVec.toNat (0#16))), 3, false, [128, 0, 0, 1, 0, 0, 0, 9, 0, 0, 0, 1, 0, 0, 0, 5, 0, 0, 0, 0, 1, 2, 3, 4, 5], (keptOf (dev .sender [(F.NI_PSTAT_LINK 1, 1), (F.NI_FCFG_EN 3, 1), (F.NI_FCFG_LEG_A 3, 1), (F.NI_FCFG_PORT_A 3, 1), (F.NI_FADDR_A_ADDR 3 2, 65535), (F.NI_FADDR_A_ADDR 3 3, 4009820417), (F.NI_FKEY_UDP_A 3, 20000), (F.NI_FSIZE_WIDTH 3, 4), (F.NI_FSIZE_HEIGHT 3, 4), (F.NI_FFMT_DEPTH 3, 1), (F.NI_FVLAN_VMATCH_A 3, 0), (F.NI_FCFG_PT 3, 0), (F.NI_FFMT_SAMP 3, 0), (F.NI_FCFG_LEG_B 3, 0)]) 3 [128, 0, 0, 1, 0, 0, 0, 9, 0, 0, 0, 1, 0, 0, 0, 5, 0, 0, 0, 0, 1, 2, 3, 4, 5]), (rfl), (parse_keptOf (by decide +kernel)), by decide +kernel⟩⟩

/-- Witness of `Obligations.FlowsRunAndPublish`. -/
theorem test_w_FlowsRunAndPublish :
    (∃ (path : Access) (f : Fin 32) (w : Word) (r : RegSpec) (v : Nat) (s : Machine.State), (reaches s path = true) ∧ (addrOn s.strap.role (R.NI_FCFG ↑f) = true) ∧ (Alone s) ∧ (s.on (F.NI_FCFG_EN ↑f) = false) ∧ (findReg (R.NI_FCFG ↑f) = some r) ∧ (v = (wordEffect r (s.reg (R.NI_FCFG ↑f)) (setBits (BitVec.toNat w) 0 1 1) false false).live)) ∧
    (∃ (path : Access) (f : Fin 32) (s : Machine.State), (reaches s path = true) ∧ (addrOn s.strap.role (R.NI_FCFG ↑f) = true) ∧ (Alone s) ∧ (s.on (F.NI_FCFG_EN ↑f) = true)) ∧
    (∃ (f : Fin 32) (b : Bool) (s : Machine.State) (u : Machine.State), (u = s.modFlow ↑f fun x => if b = true then { opens := x.opens, closing := x.closing, early := x.early, newest := x.newest, marks := x.marks, lastClosed := x.lastClosed, lastBuf := x.lastBuf, prev := x.prev, ready := x.ready, longA := x.longA, longB := true, dropped := x.dropped } else { opens := x.opens, closing := x.closing, early := x.early, newest := x.newest, marks := x.marks, lastClosed := x.lastClosed, lastBuf := x.lastBuf, prev := x.prev, ready := x.ready, longA := true, longB := x.longB, dropped := x.dropped }) ∧ (s.on (if b = true then F.NI_FSTAT_LEGB_UP ↑f else F.NI_FSTAT_LEGA_UP ↑f) = true)) ∧
    (∃ (f : Fin 32) (b : Bool) (s : Machine.State) (u : Machine.State), (u = s.modFlow ↑f fun x => if b = true then { opens := x.opens, closing := x.closing, early := x.early, newest := x.newest, marks := x.marks, lastClosed := x.lastClosed, lastBuf := x.lastBuf, prev := x.prev, ready := x.ready, longA := x.longA, longB := true, dropped := x.dropped } else { opens := x.opens, closing := x.closing, early := x.early, newest := x.newest, marks := x.marks, lastClosed := x.lastClosed, lastBuf := x.lastBuf, prev := x.prev, ready := x.ready, longA := true, longB := x.longB, dropped := x.dropped }) ∧ (s.on (if b = true then F.NI_FSTAT_LEGB_UP ↑f else F.NI_FSTAT_LEGA_UP ↑f) = false) ∧ (legOn s (↑f) b = true) ∧ (s.rd (F.NI_FSTAT_STATE ↑f) = 2) ∧ ((legOn s ↑f !b) = false ∨ (if b = true then (s.flow ↑f).longA else (s.flow ↑f).longB) = true)) ∧
    (∃ (f : Fin 32) (b : Bool) (s : Machine.State) (u : Machine.State), (u = s.modFlow ↑f fun x => if b = true then { opens := x.opens, closing := x.closing, early := x.early, newest := x.newest, marks := x.marks, lastClosed := x.lastClosed, lastBuf := x.lastBuf, prev := x.prev, ready := x.ready, longA := x.longA, longB := true, dropped := x.dropped } else { opens := x.opens, closing := x.closing, early := x.early, newest := x.newest, marks := x.marks, lastClosed := x.lastClosed, lastBuf := x.lastBuf, prev := x.prev, ready := x.ready, longA := true, longB := x.longB, dropped := x.dropped }) ∧ (s.on (if b = true then F.NI_FSTAT_LEGB_UP ↑f else F.NI_FSTAT_LEGA_UP ↑f) = false) ∧ (legOn s (↑f) b = false ∨ s.rd (F.NI_FSTAT_STATE ↑f) ≠ 2 ∨ (legOn s ↑f !b) = true ∧ (if b = true then (s.flow ↑f).longA else (s.flow ↑f).longB) = false)) ∧
    (∃ (c : Instr) (f : Fin 32) (s : Machine.State) (o : OpenFrame) (l : List OpenFrame), (c = Instr.frameLossExpire f ∨ c = Instr.closeWaitExpire f ∧ (o.marker = true ∨ l ≠ [])) ∧ ((s.flow ↑f).opens = o :: l) ∧ (grouped s ↑f = false) ∧ (∀ (q : OpenFrame), q ∈ l → q.buf = none ∨ incomplete s (↑f) q ≠ [])) ∧
    (∃ (f : Fin 32) (s : Machine.State), ((s.flow ↑f).opens = [])) ∧
    (∃ (f : Fin 32) (s : Machine.State), (∀ (o : OpenFrame) (l : List OpenFrame), (s.flow ↑f).opens = o :: l → o.marker = false ∧ l = [])) ∧
    (∃ (f : Fin 32) (s : Machine.State) (c : PairFrame) (l : List PairFrame), ((s.flow ↑f).closing = c :: l) ∧ (c.theirs = none) ∧ (c.alone = false) ∧ (∀ (d : PairFrame), d ∈ l → d.media ≠ c.media ∧ d.alone = false ∧ d.theirs = none) ∧ (grouped s ↑f = false)) ∧
    (∃ (f : Fin 32) (s : Machine.State), (∀ (c : PairFrame), c ∈ (s.flow ↑f).closing → c.theirs.isSome = true ∨ c.alone = true)) :=
  ⟨⟨.bar0, 3, 0, (specOf (R.NI_FCFG 3)), (wordEffect (specOf (R.NI_FCFG 3)) 0 (setBits 0 0 1 1) false false).live, (dev .sender []), by unfold Alone NoHeadWaits; decide +kernel⟩,
   ⟨.bar0, 3, (dev .sender [(F.NI_FCFG_EN 3, 1)]), by unfold Alone NoHeadWaits; decide +kernel⟩,
   ⟨3, false, (dev .sender [(F.NI_FSTAT_LEGA_UP 3, 1)]), ((dev .sender [(F.NI_FSTAT_LEGA_UP 3, 1)]).modFlow 3 fun x => if (false : Bool) = true then { x with longB := true } else { x with longA := true }), (rfl), by decide +kernel⟩,
   ⟨3, false, (dev .sender [(F.NI_FCFG_LEG_A 3, 1), (F.NI_FSTAT_STATE 3, 2), (F.NI_FCFG_LEG_B 3, 0)]), ((dev .sender [(F.NI_FCFG_LEG_A 3, 1), (F.NI_FSTAT_STATE 3, 2), (F.NI_FCFG_LEG_B 3, 0)]).modFlow 3 fun x => if (false : Bool) = true then { x with longB := true } else { x with longA := true }), (rfl), by decide +kernel⟩,
   ⟨0, false, (dev .sender []), (dev .sender []), by decide +kernel⟩,
   ⟨.frameLossExpire 3, 3, (onNi (fun x => { x with flows := [(3, { Flow.init with opens := [⟨90000, some 0, [], false⟩] })] }) (dev .sender [])), ⟨90000, some 0, [], false⟩, [], (Or.inl rfl), by decide +kernel⟩,
   ⟨0, (dev .sender []), by decide +kernel⟩,
   ⟨0, (dev .sender []), (fun _ _ h => nomatch (show ((dev .sender []).flow 0).opens = [] from by decide +kernel).symm.trans h)⟩,
   ⟨3, (onNi (fun x => { x with flows := [(3, { Flow.init with closing := [⟨90000, some 0, [], none, false, []⟩] })] }) (dev .sender [])), ⟨90000, some 0, [], none, false, []⟩, [], by decide +kernel⟩,
   ⟨0, (dev .sender []), by decide +kernel⟩⟩

/-- Witness of `Obligations.NetworkHostRings`. -/
theorem test_w_NetworkHostRings :
    (∃ (path : Access) (w : Word) (ds : List (BitVec 64 × BitVec 16)) (n : Nat) (s : Machine.State), (reaches s path = true) ∧ (addrOn s.strap.role R.NI_HRX_TAIL = true) ∧ (Alone s) ∧ (n = (BitVec.toNat w % 4096 + hrSize s false - s.rd F.NI_HRX_HEAD_HEAD % hrSize s false) % hrSize s false) ∧ (n ≤ s.ni.hrx.length + ds.length)) ∧
    (∃ (path : Access) (w : Word) (ds : List (List Byte)) (n : Nat) (s : Machine.State), (s.on F.NI_HTX_CTL_EN = false ∨ ∃ d l, s.ni.htx ++ List.map (fun b => slice b 0 32) ds = d :: l ∧ 60 ≤ leAt d 8 2 ∧ leAt d 8 2 ≤ 9212 ∧ leAt d 10 1 ≤ 3 ∧ s.on (F.NI_PSTAT_LINK (leAt d 10 1)) = true) ∧ (reaches s path = true) ∧ (addrOn s.strap.role R.NI_HTX_TAIL = true) ∧ (Alone s) ∧ (n = (BitVec.toNat w % 4096 + hrSize s true - s.rd F.NI_HTX_HEAD_HEAD % hrSize s true) % hrSize s true) ∧ (n ≤ s.ni.htx.length + ds.length)) ∧
    (∃ (d : List Byte) (l : List (List Byte)) (s : Machine.State), (s.ni.htx = d :: l) ∧ (s.on F.NI_HTX_CTL_EN = true) ∧ (60 ≤ leAt d 8 2) ∧ (leAt d 8 2 ≤ 9212) ∧ (leAt d 10 1 ≤ 3) ∧ (s.on (F.NI_PSTAT_LINK (leAt d 10 1)) = true)) ∧
    (∃ (s : Machine.State), (s.ni.htx = [] ∨ s.on F.NI_HTX_CTL_EN = false)) :=
  ⟨⟨.bar0, 2, [(0, 128), (256, 128)], 2, (dev .sender []), by unfold Alone NoHeadWaits; decide +kernel⟩,
   ⟨.bar0, 1, [[]], 1, (dev .sender []), (Or.inl (by decide +kernel)), by unfold Alone NoHeadWaits; decide +kernel⟩,
   ⟨(List.replicate 8 0 ++ [60, 0, 0, 0]), [], (onNi (fun x => { x with htx := [(List.replicate 8 0 ++ [60, 0, 0, 0])] }) (dev .sender [(F.NI_HTX_CTL_EN, 1), (F.NI_PSTAT_LINK 0, 1)])), by decide +kernel⟩,
   ⟨(onNi (fun x => { x with htx := [] }) (dev .sender [])), by decide +kernel⟩⟩

/-- Witness of `Obligations.CompositionWindows`. -/
theorem test_w_CompositionWindows :
    (∃ (r : Fin 8) (s : Machine.State), ((s.win ↑r).isOpen = true)) ∧
    (∃ (r : Fin 8) (s : Machine.State), ((s.win ↑r).isOpen = false)) ∧
    (∃ (r : Fin 8) (s : Machine.State), ((s.win ↑r).isOpen = false)) ∧
    (∃ (r : Fin 8) (s : Machine.State), ((s.win ↑r).isOpen = true) ∧ (seekSeg (s.map ↑r) (ringFmt s ↑r) 4300 (s.win ↑r) = none)) ∧
    (∃ (r : Fin 8) (w : SendWin) (e : MapEntry) (n : Nat) (s : Machine.State), (e = mapEntry (s.map ↑r) (w.pos + 1)) ∧ (n = min (segMax (ringFmt s ↑r)) (e.width - w.x)) ∧ ((s.win ↑r).isOpen = true) ∧ (seekSeg (s.map ↑r) (ringFmt s ↑r) 4300 (s.win ↑r) = some w)) ∧
    (∃ (r : Fin 8) (w : SendWin) (e : MapEntry) (n : Nat) (s : Machine.State), (e = mapEntry (s.map ↑r) (w.pos + 1)) ∧ (n = min (segMax (ringFmt s ↑r)) (e.width - w.x)) ∧ ((s.win ↑r).isOpen = true) ∧ (seekSeg (s.map ↑r) (ringFmt s ↑r) 4300 (s.win ↑r) = some w) ∧ (w.checks = false) ∧ (fetchWaits s (↑r) (List.map (fun i => e.wall (w.x + i) w.round) (List.range n)) = true ∨ endsInWindow s (↑r) w.frame (segBlocks (ringFmt s ↑r) n) = false)) ∧
    (∃ (r : Fin 8) (w : SendWin) (e : MapEntry) (n : Nat) (s : Machine.State), (e = mapEntry (s.map ↑r) (w.pos + 1)) ∧ (n = min (segMax (ringFmt s ↑r)) (e.width - w.x)) ∧ ((s.win ↑r).isOpen = true) ∧ (seekSeg (s.map ↑r) (ringFmt s ↑r) 4300 (s.win ↑r) = some w) ∧ (w.checks = true) ∧ (endsInWindow s (↑r) w.frame 4 = false)) ∧
    (∃ (r : Fin 8) (w : SendWin) (e : MapEntry) (n : Nat) (s : Machine.State), (e = mapEntry (s.map ↑r) (w.pos + 1)) ∧ (n = min (segMax (ringFmt s ↑r)) (e.width - w.x)) ∧ ((s.win ↑r).isOpen = true) ∧ (seekSeg (s.map ↑r) (ringFmt s ↑r) 4300 (s.win ↑r) = some w) ∧ (w.checks = false) ∧ (fetchWaits s (↑r) (List.map (fun i => e.wall (w.x + i) w.round) (List.range n)) = false) ∧ (endsInWindow s (↑r) w.frame (segBlocks (ringFmt s ↑r) n) = true) ∧ (pairEn s = false) ∧ (s.on (F.RED_RSTAT_SILENT ↑r) = false)) ∧
    (∃ (r : Fin 8) (w : SendWin) (e : MapEntry) (n : Nat) (s : Machine.State), (e = mapEntry (s.map ↑r) (w.pos + 1)) ∧ (n = min (segMax (ringFmt s ↑r)) (e.width - w.x)) ∧ ((s.win ↑r).isOpen = true) ∧ (seekSeg (s.map ↑r) (ringFmt s ↑r) 4300 (s.win ↑r) = some w) ∧ (w.checks = true) ∧ (endsInWindow s (↑r) w.frame 4 = true) ∧ (pairEn s = false) ∧ (s.on (F.RED_RSTAT_SILENT ↑r) = false)) ∧
    (∃ (r : Fin 8) (s : Machine.State), (s.cmp.ringDue.testBit ↑r = true)) ∧
    (∃ (r : Fin 8) (s : Machine.State), (s.cmp.ringDue.testBit ↑r = false)) ∧
    (∃ (r : Fin 8) (l : Fin 16) (s : Machine.State), ((s.layer ↑r ↑l).due = true)) ∧
    (∃ (r : Fin 8) (l : Fin 16) (s : Machine.State), ((s.layer ↑r ↑l).due = false)) ∧
    (∃ (r : Fin 8) (l : Fin 16) (s : Machine.State) (q : SealRun), (List.find? (fun q => q.ring == ↑r && q.layer == ↑l) s.cmp.seals = some q)) ∧
    (∃ (r : Fin 8) (l : Fin 16) (s : Machine.State), (List.find? (fun q => q.ring == ↑r && q.layer == ↑l) s.cmp.seals = none)) :=
  ⟨⟨0, (onCmp (fun x => { x with win := [(0, { SendWin.init with isOpen := true })], maps := [(0, [0,0,0,0,2,0,1,0,3])] }) (feeder [(F.CMP_RCFG_EN 0, 1)])), by decide +kernel⟩,
   ⟨0, (dev .sender []), by decide +kernel⟩,
   ⟨0, (dev .sender []), by decide +kernel⟩,
   ⟨0, (onCmp (fun x => { x with win := [(0, { SendWin.init with isOpen := true })] }) (feeder [(F.CMP_RCFG_EN 0, 1)])), by decide +kernel⟩,
   ⟨0, ((seekSeg [0,0,0,0,2,0,1,0,3] (ringFmt (onCmp (fun x => { x with win := [(0, { SendWin.init with isOpen := true })], maps := [(0, [0,0,0,0,2,0,1,0,3])] }) (feeder [(F.CMP_RCFG_EN 0, 1)])) 0) 4300 { SendWin.init with isOpen := true }).getD SendWin.init), (mapEntry [0,0,0,0,2,0,1,0,3] (SendWin.pos ((seekSeg [0,0,0,0,2,0,1,0,3] (ringFmt (onCmp (fun x => { x with win := [(0, { SendWin.init with isOpen := true })], maps := [(0, [0,0,0,0,2,0,1,0,3])] }) (feeder [(F.CMP_RCFG_EN 0, 1)])) 0) 4300 { SendWin.init with isOpen := true }).getD SendWin.init) + 1)), (min (segMax (ringFmt (onCmp (fun x => { x with win := [(0, { SendWin.init with isOpen := true })], maps := [(0, [0,0,0,0,2,0,1,0,3])] }) (feeder [(F.CMP_RCFG_EN 0, 1)])) 0)) ((mapEntry [0,0,0,0,2,0,1,0,3] (SendWin.pos ((seekSeg [0,0,0,0,2,0,1,0,3] (ringFmt (onCmp (fun x => { x with win := [(0, { SendWin.init with isOpen := true })], maps := [(0, [0,0,0,0,2,0,1,0,3])] }) (feeder [(F.CMP_RCFG_EN 0, 1)])) 0) 4300 { SendWin.init with isOpen := true }).getD SendWin.init) + 1)).width - SendWin.x ((seekSeg [0,0,0,0,2,0,1,0,3] (ringFmt (onCmp (fun x => { x with win := [(0, { SendWin.init with isOpen := true })], maps := [(0, [0,0,0,0,2,0,1,0,3])] }) (feeder [(F.CMP_RCFG_EN 0, 1)])) 0) 4300 { SendWin.init with isOpen := true }).getD SendWin.init))), (onCmp (fun x => { x with win := [(0, { SendWin.init with isOpen := true })], maps := [(0, [0,0,0,0,2,0,1,0,3])] }) (feeder [(F.CMP_RCFG_EN 0, 1)])), (rfl), (rfl), by decide +kernel⟩,
   ⟨0, ((seekSeg [0,0,0,0,2,0,1,0,3] (ringFmt (onCmp (fun x => { x with win := [(0, { SendWin.init with isOpen := true })], maps := [(0, [0,0,0,0,2,0,1,0,3])] }) (feeder [(F.CMP_RCFG_EN 0, 1)])) 0) 4300 { SendWin.init with isOpen := true }).getD SendWin.init), (mapEntry [0,0,0,0,2,0,1,0,3] (SendWin.pos ((seekSeg [0,0,0,0,2,0,1,0,3] (ringFmt (onCmp (fun x => { x with win := [(0, { SendWin.init with isOpen := true })], maps := [(0, [0,0,0,0,2,0,1,0,3])] }) (feeder [(F.CMP_RCFG_EN 0, 1)])) 0) 4300 { SendWin.init with isOpen := true }).getD SendWin.init) + 1)), (min (segMax (ringFmt (onCmp (fun x => { x with win := [(0, { SendWin.init with isOpen := true })], maps := [(0, [0,0,0,0,2,0,1,0,3])] }) (feeder [(F.CMP_RCFG_EN 0, 1)])) 0)) ((mapEntry [0,0,0,0,2,0,1,0,3] (SendWin.pos ((seekSeg [0,0,0,0,2,0,1,0,3] (ringFmt (onCmp (fun x => { x with win := [(0, { SendWin.init with isOpen := true })], maps := [(0, [0,0,0,0,2,0,1,0,3])] }) (feeder [(F.CMP_RCFG_EN 0, 1)])) 0) 4300 { SendWin.init with isOpen := true }).getD SendWin.init) + 1)).width - SendWin.x ((seekSeg [0,0,0,0,2,0,1,0,3] (ringFmt (onCmp (fun x => { x with win := [(0, { SendWin.init with isOpen := true })], maps := [(0, [0,0,0,0,2,0,1,0,3])] }) (feeder [(F.CMP_RCFG_EN 0, 1)])) 0) 4300 { SendWin.init with isOpen := true }).getD SendWin.init))), (onCmp (fun x => { x with win := [(0, { SendWin.init with isOpen := true })], maps := [(0, [0,0,0,0,2,0,1,0,3])] }) (feeder [(F.CMP_RCFG_EN 0, 1)])), (rfl), (rfl), by decide +kernel⟩,
   ⟨0, ((seekSeg [0,0,0,0,2,0,1,0,3] (ringFmt (onCmp (fun x => { x with win := [(0, { SendWin.init with isOpen := true, checks := true })], maps := [(0, [0,0,0,0,2,0,1,0,3])] }) (feeder [(F.CMP_RCFG_EN 0, 1)])) 0) 4300 { SendWin.init with isOpen := true, checks := true }).getD SendWin.init), (mapEntry [0,0,0,0,2,0,1,0,3] (SendWin.pos ((seekSeg [0,0,0,0,2,0,1,0,3] (ringFmt (onCmp (fun x => { x with win := [(0, { SendWin.init with isOpen := true, checks := true })], maps := [(0, [0,0,0,0,2,0,1,0,3])] }) (feeder [(F.CMP_RCFG_EN 0, 1)])) 0) 4300 { SendWin.init with isOpen := true, checks := true }).getD SendWin.init) + 1)), (min (segMax (ringFmt (onCmp (fun x => { x with win := [(0, { SendWin.init with isOpen := true, checks := true })], maps := [(0, [0,0,0,0,2,0,1,0,3])] }) (feeder [(F.CMP_RCFG_EN 0, 1)])) 0)) ((mapEntry [0,0,0,0,2,0,1,0,3] (SendWin.pos ((seekSeg [0,0,0,0,2,0,1,0,3] (ringFmt (onCmp (fun x => { x with win := [(0, { SendWin.init with isOpen := true, checks := true })], maps := [(0, [0,0,0,0,2,0,1,0,3])] }) (feeder [(F.CMP_RCFG_EN 0, 1)])) 0) 4300 { SendWin.init with isOpen := true, checks := true }).getD SendWin.init) + 1)).width - SendWin.x ((seekSeg [0,0,0,0,2,0,1,0,3] (ringFmt (onCmp (fun x => { x with win := [(0, { SendWin.init with isOpen := true, checks := true })], maps := [(0, [0,0,0,0,2,0,1,0,3])] }) (feeder [(F.CMP_RCFG_EN 0, 1)])) 0) 4300 { SendWin.init with isOpen := true, checks := true }).getD SendWin.init))), (onCmp (fun x => { x with win := [(0, { SendWin.init with isOpen := true, checks := true })], maps := [(0, [0,0,0,0,2,0,1,0,3])] }) (feeder [(F.CMP_RCFG_EN 0, 1)])), (rfl), (rfl), by decide +kernel⟩,
   ⟨0, ((seekSeg [0,0,0,0,2,0,1,0,3] (ringFmt (onCmp (fun x => { x with win := [(0, { SendWin.init with isOpen := true, frame := 1000 })], maps := [(0, [0,0,0,0,2,0,1,0,3])] }) (feeder [(F.CMP_RCFG_EN 0, 1)])) 0) 4300 { SendWin.init with isOpen := true, frame := 1000 }).getD SendWin.init), (mapEntry [0,0,0,0,2,0,1,0,3] (SendWin.pos ((seekSeg [0,0,0,0,2,0,1,0,3] (ringFmt (onCmp (fun x => { x with win := [(0, { SendWin.init with isOpen := true, frame := 1000 })], maps := [(0, [0,0,0,0,2,0,1,0,3])] }) (feeder [(F.CMP_RCFG_EN 0, 1)])) 0) 4300 { SendWin.init with isOpen := true, frame := 1000 }).getD SendWin.init) + 1)), (min (segMax (ringFmt (onCmp (fun x => { x with win := [(0, { SendWin.init with isOpen := true, frame := 1000 })], maps := [(0, [0,0,0,0,2,0,1,0,3])] }) (feeder [(F.CMP_RCFG_EN 0, 1)])) 0)) ((mapEntry [0,0,0,0,2,0,1,0,3] (SendWin.pos ((seekSeg [0,0,0,0,2,0,1,0,3] (ringFmt (onCmp (fun x => { x with win := [(0, { SendWin.init with isOpen := true, frame := 1000 })], maps := [(0, [0,0,0,0,2,0,1,0,3])] }) (feeder [(F.CMP_RCFG_EN 0, 1)])) 0) 4300 { SendWin.init with isOpen := true, frame := 1000 }).getD SendWin.init) + 1)).width - SendWin.x ((seekSeg [0,0,0,0,2,0,1,0,3] (ringFmt (onCmp (fun x => { x with win := [(0, { SendWin.init with isOpen := true, frame := 1000 })], maps := [(0, [0,0,0,0,2,0,1,0,3])] }) (feeder [(F.CMP_RCFG_EN 0, 1)])) 0) 4300 { SendWin.init with isOpen := true, frame := 1000 }).getD SendWin.init))), (onCmp (fun x => { x with win := [(0, { SendWin.init with isOpen := true, frame := 1000 })], maps := [(0, [0,0,0,0,2,0,1,0,3])] }) (feeder [(F.CMP_RCFG_EN 0, 1)])), (rfl), (rfl), by decide +kernel⟩,
   ⟨0, ((seekSeg [0,0,0,0,2,0,1,0,3] (ringFmt (onCmp (fun x => { x with win := [(0, { SendWin.init with isOpen := true, frame := 1000, checks := true })], maps := [(0, [0,0,0,0,2,0,1,0,3])] }) (feeder [(F.CMP_RCFG_EN 0, 1)])) 0) 4300 { SendWin.init with isOpen := true, frame := 1000, checks := true }).getD SendWin.init), (mapEntry [0,0,0,0,2,0,1,0,3] (SendWin.pos ((seekSeg [0,0,0,0,2,0,1,0,3] (ringFmt (onCmp (fun x => { x with win := [(0, { SendWin.init with isOpen := true, frame := 1000, checks := true })], maps := [(0, [0,0,0,0,2,0,1,0,3])] }) (feeder [(F.CMP_RCFG_EN 0, 1)])) 0) 4300 { SendWin.init with isOpen := true, frame := 1000, checks := true }).getD SendWin.init) + 1)), (min (segMax (ringFmt (onCmp (fun x => { x with win := [(0, { SendWin.init with isOpen := true, frame := 1000, checks := true })], maps := [(0, [0,0,0,0,2,0,1,0,3])] }) (feeder [(F.CMP_RCFG_EN 0, 1)])) 0)) ((mapEntry [0,0,0,0,2,0,1,0,3] (SendWin.pos ((seekSeg [0,0,0,0,2,0,1,0,3] (ringFmt (onCmp (fun x => { x with win := [(0, { SendWin.init with isOpen := true, frame := 1000, checks := true })], maps := [(0, [0,0,0,0,2,0,1,0,3])] }) (feeder [(F.CMP_RCFG_EN 0, 1)])) 0) 4300 { SendWin.init with isOpen := true, frame := 1000, checks := true }).getD SendWin.init) + 1)).width - SendWin.x ((seekSeg [0,0,0,0,2,0,1,0,3] (ringFmt (onCmp (fun x => { x with win := [(0, { SendWin.init with isOpen := true, frame := 1000, checks := true })], maps := [(0, [0,0,0,0,2,0,1,0,3])] }) (feeder [(F.CMP_RCFG_EN 0, 1)])) 0) 4300 { SendWin.init with isOpen := true, frame := 1000, checks := true }).getD SendWin.init))), (onCmp (fun x => { x with win := [(0, { SendWin.init with isOpen := true, frame := 1000, checks := true })], maps := [(0, [0,0,0,0,2,0,1,0,3])] }) (feeder [(F.CMP_RCFG_EN 0, 1)])), (rfl), (rfl), by decide +kernel⟩,
   ⟨0, (onCmp (fun x => { x with ringDue := 1 }) (dev .sender [])), by decide +kernel⟩,
   ⟨0, (dev .sender []), by decide +kernel⟩,
   ⟨0, 0, ((dev .sender []).setLayer 0 0 { CLayer.init with due := true }), by decide +kernel⟩,
   ⟨0, 0, (dev .sender []), by decide +kernel⟩,
   ⟨0, 3, (onCmp (fun x => { x with seals := [⟨0, 3, 1, 0, 0, 4, 4, 1, 0⟩] }) (dev .sender [])), ⟨0, 3, 1, 0, 0, 4, 4, 1, 0⟩, by decide +kernel⟩,
   ⟨0, 0, (dev .sender []), by decide +kernel⟩⟩

/-- Witness of `Obligations.LampStoreAndBanks`. -/
theorem test_w_LampStoreAndBanks :
    (∃ (path : Access) (addr : BitVec 25) (b : Bool) (hi : Bool) (i : Nat) (s : Machine.State), (reaches s path = true) ∧ (addrOn s.strap.role (addr.toNat / 4 * 4) = true) ∧ (isWindow addr.toNat = true) ∧ (lsAddr (addr.toNat / 4 * 4) = some (b, i, hi)) ∧ (Table.get 0 (bankOf s b).bad i = 0) ∧ (Table.get 0 s.latch (pathIdx (accessPath path) * 33554432 + addr.toNat / 4 * 4) = 0)) ∧
    (∃ (path : Access) (addr : BitVec 25) (b : Bool) (hi : Bool) (i : Nat) (s : Machine.State), (reaches s path = true) ∧ (addrOn s.strap.role (addr.toNat / 4 * 4) = true) ∧ (isWindow addr.toNat = true) ∧ (lsAddr (addr.toNat / 4 * 4) = some (b, i, hi))) ∧
    (∃ (path : Access) (s : Machine.State), (reaches s path = true) ∧ (addrOn s.strap.role R.PIX_BANK = true)) ∧
    (∃ (s : Machine.State), (s.on F.PIX_BANK_COPY_BUSY = true)) ∧
    (∃ (s : Machine.State), (s.on F.PIX_BANK_COPY_BUSY = false)) ∧
    (∃ (path : Access) (s : Machine.State), (reaches s path = true) ∧ (addrOn s.strap.role R.PIX_BANK = true)) ∧
    (∃ (s : Machine.State), (s.quiet = false)) ∧
    (∃ (s : Machine.State), (s.quiet = false)) ∧
    (∃ (s : Machine.State), (s.quiet = false)) ∧
    (∃ (s : Machine.State), (s.quiet = true)) :=
  ⟨⟨.bar0, 0x1000008, false, false, 1, (dev .standalone []), by decide +kernel⟩,
   ⟨.bar0, 0x180000C, true, true, 1, (dev .standalone []), by decide +kernel⟩,
   ⟨.bar0, (dev .standalone []), by decide +kernel⟩,
   ⟨(dev .standalone [(F.PIX_BANK_COPY_BUSY, 1)]), by decide +kernel⟩,
   ⟨(dev .standalone []), by decide +kernel⟩,
   ⟨.bar0, (dev .standalone []), by decide +kernel⟩,
   ⟨(dev .standalone []), by decide +kernel⟩,
   ⟨(dev .standalone []), by decide +kernel⟩,
   ⟨(dev .standalone []), by decide +kernel⟩,
   ⟨(dev .carriage [(F.PIX_QSTAT_STATE, 1), (F.PIX_QUIET_QUIET_MAX, 1)]), by decide +kernel⟩⟩

/-- Witness of `Obligations.SegmentsAndReadout`. -/
theorem test_w_SegmentsAndReadout :
    (∃ (c : Copy) (l : List Copy) (f : Nat) (s : Machine.State), (s.ring.pixels = c :: l) ∧ (blockOn s.strap.role 11 = true) ∧ (s.displays = true) ∧ (s.pix.fillFrame = some f) ∧ (bitAt (beAt c.data 15 1) 1 = false) ∧ (beAt c.data 14 1 ≤ 2) ∧ (beAt c.data 8 2 < pixL s) ∧ (beAt c.data 10 2 + beAt c.data 12 2 ≤ pixW s)) ∧
    (∃ (c : Copy) (l : List Copy) (s : Machine.State), (s.ring.pixels = c :: l) ∧ (blockOn s.strap.role 11 = false) ∧ (s.on F.CMP_DBCFG_EN = true) ∧ (bitAt (beAt c.data 15 1) 1 = false) ∧ (beAt c.data 14 1 ≤ 2) ∧ (beAt c.data 0 6 = s.cmp.db.frame) ∧ (beAt c.data 10 2 + beAt c.data 12 2 ≤ s.rd F.CMP_DBCFG_DB_W) ∧ (beAt c.data 8 2 < s.rd F.CMP_DBCFG_DB_H)) ∧
    (∃ (s : Machine.State), (s.ring.pixels = [])) ∧
    (∃ (path : Access) (s : Machine.State), (reaches s path = true) ∧ (addrOn s.strap.role R.PIX_CTL = true) ∧ (s.on F.PIX_CTL_EN = false)) ∧
    (∃ (c : Instr) (u : Nat) (v : Fin 786433) (fs : List (Fin 786432 × Fin 4)) (r : Readout) (all : List LampOut) (due : List LampOut) (s : Machine.State), (c = Instr.readoutEnd fs [] ∧ u = 0 ∨ c = Instr.loadDeadline v fs [] ∧ u = ↑v) ∧ (all = (outputs (s.modPix fun p => { bankA := p.bankA, bankB := p.bankB, held := p.held, wroteAll := p.wroteAll, wrote := p.wrote, ces := p.ces, fillFrame := p.fillFrame, segs := p.segs, total := p.total, lastTotal := p.lastTotal, fmt := p.fmt, differs := p.differs, crcs := p.crcs, recFmt := p.recFmt, geomTold := p.geomTold, aheadTold := p.aheadTold, expect := p.expect, reading := none, shown := p.shown, wakeBuf := p.wakeBuf, faulty := p.faulty, changed := p.changed, woke := p.woke, swapAsk := p.swapAsk, readyLog := p.readyLog, initWait := p.initWait, lutBad := p.lutBad, tmatBad := p.tmatBad, crcBad := p.crcBad }) r (lampPairs fs)).fst) ∧ (due = if drvRuns s = true then List.filter (fun o => answers s o.lamp) all else []) ∧ (s.pix.reading = some r)) ∧
    (∃ (c : Instr) (v : Fin 786433) (fs : List (Fin 786432 × Fin 4)) (arr : List (Fin 5 × Fin 4096)) (s : Machine.State) (r : Readout), (c = Instr.readoutEnd fs arr ∨ c = Instr.loadDeadline v fs arr) ∧ (s.pix.reading = some r)) ∧
    (∃ (c : Instr) (v : Fin 786433) (fs : List (Fin 786432 × Fin 4)) (arr : List (Fin 5 × Fin 4096)) (s : Machine.State), (c = Instr.readoutEnd fs arr ∨ c = Instr.loadDeadline v fs arr) ∧ (s.pix.reading = none)) ∧
    (∃ (n : Nat) (missing : Nat) (want : List Nat) (s : Machine.State), (s.chk.pass = some (n, some want, missing)) ∧ (s.pix.reading = none) ∧ (s.on F.CHK_CTL_IN_EN = true)) ∧
    (∃ (s : Machine.State), (s.chk.pass = none ∨ s.pix.reading.isSome = true)) :=
  ⟨⟨(raw 0x10 0 [0,0,0,0,0,0,0,1, 0,0, 0,0, 0,4, 0,0]), [], 1, (onRing (fun x => { x with pixels := [(raw 0x10 0 [0,0,0,0,0,0,0,1, 0,0, 0,0, 0,4, 0,0])] }) (onPix (fun x => { x with fillFrame := some 1 }) (dev .carriage [(F.SYS_MSTAT_MODE, 3), (F.PIX_GEOM_WIDTH, 7), (F.PIX_GEOM_LINES, 3)]))), by decide +kernel⟩,
   ⟨(raw 0x10 0 (List.replicate 13 0 ++ [4, 0, 0])), [], (onRing (fun x => { x with pixels := [(raw 0x10 0 (List.replicate 13 0 ++ [4, 0, 0]))] }) (dev .sender [(F.CMP_DBCFG_EN, 1), (F.CMP_DBCFG_DB_W, 4), (F.CMP_DBCFG_DB_H, 4)])), by decide +kernel⟩,
   ⟨(onRing (fun x => { x with pixels := [] }) (dev .sender [])), by decide +kernel⟩,
   ⟨.bar0, (dev .standalone []), by decide +kernel⟩,
   ⟨(.loadDeadline ⟨5, by omega⟩ [] []), 5, ⟨5, by omega⟩, [], { frame := 1, thr := 16, amb := 0, forced := 0, blanked := 0, masks := [], dark := false, src := 0, prev := 0, ue := 0 }, (outputs ((onPix (fun x => { x with reading := some { frame := 1, thr := 16, amb := 0, forced := 0, blanked := 0, masks := [], dark := false, src := 0, prev := 0, ue := 0 } }) (dev .standalone [])).modPix fun p => { p with reading := none }) { frame := 1, thr := 16, amb := 0, forced := 0, blanked := 0, masks := [], dark := false, src := 0, prev := 0, ue := 0 } (lampPairs [])).1, (if drvRuns (onPix (fun x => { x with reading := some { frame := 1, thr := 16, amb := 0, forced := 0, blanked := 0, masks := [], dark := false, src := 0, prev := 0, ue := 0 } }) (dev .standalone [])) = true then List.filter (fun o => answers (onPix (fun x => { x with reading := some { frame := 1, thr := 16, amb := 0, forced := 0, blanked := 0, masks := [], dark := false, src := 0, prev := 0, ue := 0 } }) (dev .standalone [])) o.lamp) (outputs ((onPix (fun x => { x with reading := some { frame := 1, thr := 16, amb := 0, forced := 0, blanked := 0, masks := [], dark := false, src := 0, prev := 0, ue := 0 } }) (dev .standalone [])).modPix fun p => { p with reading := none }) { frame := 1, thr := 16, amb := 0, forced := 0, blanked := 0, masks := [], dark := false, src := 0, prev := 0, ue := 0 } (lampPairs [])).1 else []), (onPix (fun x => { x with reading := some { frame := 1, thr := 16, amb := 0, forced := 0, blanked := 0, masks := [], dark := false, src := 0, prev := 0, ue := 0 } }) (dev .standalone [])), (Or.inr ⟨rfl, rfl⟩), (rfl), (rfl), by decide +kernel⟩,
   ⟨(.readoutEnd [] []), ⟨5, by omega⟩, [], [], (onPix (fun x => { x with reading := some { frame := 1, thr := 16, amb := 0, forced := 0, blanked := 0, masks := [], dark := false, src := 0, prev := 0, ue := 0 } }) (dev .standalone [])), { frame := 1, thr := 16, amb := 0, forced := 0, blanked := 0, masks := [], dark := false, src := 0, prev := 0, ue := 0 }, (Or.inl rfl), by decide +kernel⟩,
   ⟨(.readoutEnd [] []), ⟨5, by omega⟩, [], [], (dev .standalone []), (Or.inl rfl), by decide +kernel⟩,
   ⟨0, 0, [], (onPix (fun x => { x with reading := none }) (onChk (fun x => { x with pass := some (0, some [], 0) }) (dev .carriage [(F.CHK_CTL_IN_EN, 1)]))), by decide +kernel⟩,
   ⟨(onChk (fun x => { x with pass := none }) (dev .sender [])), by decide +kernel⟩⟩

/-- Witness of `Obligations.RunQuietIsLeft`. -/
theorem test_w_RunQuietIsLeft :
    (∃ (c : Fin 16) (s : Machine.State), (s.quiet = true) ∧ (1 ≤ ↑c) ∧ (↑c ≤ 8)) ∧
    (∃ (c : Fin 16) (s : Machine.State), (s.quiet = false ∨ c = 0 ∨ 8 < ↑c)) ∧
    (∃ (s : Machine.State), (s.quiet = true) ∧ (s.on F.PIX_QUIET_QUIET_MAX = true)) ∧
    (∃ (s : Machine.State), (s.on F.PIX_QUIET_QUIET_MAX = false ∨ s.quiet = false)) ∧
    (∃ (s : Machine.State), (s.rd F.PIX_QSTAT_STATE = 2)) ∧
    (∃ (s : Machine.State), (s.rd F.PIX_QSTAT_STATE ≠ 2)) :=
  ⟨⟨2, (dev .carriage [(F.PIX_QSTAT_STATE, 1), (F.PIX_QUIET_QUIET_MAX, 1)]), by decide +kernel⟩,
   ⟨0, (dev .sender []), by decide +kernel⟩,
   ⟨(dev .carriage [(F.PIX_QSTAT_STATE, 1), (F.PIX_QUIET_QUIET_MAX, 1)]), by decide +kernel⟩,
   ⟨(dev .carriage []), by decide +kernel⟩,
   ⟨(dev .carriage [(F.PIX_QSTAT_STATE, 2)]), by decide +kernel⟩,
   ⟨(dev .carriage []), by decide +kernel⟩⟩

/-- Witness of `Obligations.BlendPassesAndCaptures`. -/
theorem test_w_BlendPassesAndCaptures :
    (∃ (s : Machine.State), (passMayStart s = true)) ∧
    (∃ (s : Machine.State), (passMayStart s = false)) ∧
    (∃ (res : List (Fin 786432)) (w : PassSum) (s : Machine.State), (w = (passWalk s (List.map (fun r : Fin 786432 => r.val) res) 786432).snd) ∧ (s.rd F.CAL_LIM0_PLAUS_MAX < w.kept) ∧ (s.rd F.CAL_STAT_ENG = 1)) ∧
    (∃ (res : List (Fin 786432)) (w : PassSum) (s : Machine.State), (w = (passWalk s (List.map (fun r : Fin 786432 => r.val) res) 786432).snd) ∧ (w.kept ≤ s.rd F.CAL_LIM0_PLAUS_MAX) ∧ (s.rd F.CAL_STAT_ENG = 1)) ∧
    (∃ (s : Machine.State), (s.rd F.CAL_STAT_ENG ≠ 1)) ∧
    (∃ (path : Access) (s : Machine.State), (reaches s path = true) ∧ (addrOn s.strap.role R.CAL_CTL = true)) ∧
    (∃ (path : Access) (s : Machine.State), (reaches s path = true) ∧ (addrOn s.strap.role R.CAL_CTL = true) ∧ (s.on F.CAL_CTL_BLEND_EN = false)) ∧
    (∃ (path : Access) (s : Machine.State), (reaches s path = true) ∧ (addrOn s.strap.role R.CAL_CTL = true) ∧ (s.on F.CAL_CTL_BLEND_EN = true)) ∧
    (∃ (path : Access) (s : Machine.State), (reaches s path = true) ∧ (addrOn s.strap.role R.CAL_CTL = true) ∧ (s.on F.CAL_CTL_BLEND_EN = false)) ∧
    (∃ (path : Access) (s : Machine.State), (reaches s path = true) ∧ (addrOn s.strap.role R.CAL_CTL = true)) ∧
    (∃ (path : Access) (s : Machine.State), (reaches s path = true) ∧ (addrOn s.strap.role R.CAL_CTL = true)) ∧
    (∃ (path : Access) (s : Machine.State), (reaches s path = true) ∧ (addrOn s.strap.role R.CAL_CTL = true) ∧ (s.on F.CAL_CTL_AMB_EN = true)) ∧
    (∃ (s : Machine.State), (s.on F.CAL_CTL_LOOP_EN = true) ∧ (s.cal.capture = 0) ∧ (holdCause s = 0) ∧ (loopN s ≤ s.cal.seqs) ∧ (s.cal.newG = none)) ∧
    (∃ (s : Machine.State), (s.on F.CAL_CTL_LOOP_EN = false ∨ s.cal.capture ≠ 0 ∨ holdCause s ≠ 0 ∨ s.cal.seqs < loopN s ∨ s.cal.newG.isSome = true)) ∧
    (∃ (s : Machine.State), (s.cal.capture = 2) ∧ (loopN s ≤ s.cal.seqs)) ∧
    (∃ (s : Machine.State), (s.cal.capture ≠ 2 ∨ s.cal.seqs < loopN s)) :=
  ⟨⟨(dev .standalone [(F.CAL_CTL_BLEND_EN, 1), (F.SYS_MSTAT_MODE, 3), (F.CAL_STAT_SETS, 2), (F.CAL_MODE_MODE, 1)]), by decide +kernel⟩,
   ⟨(dev .standalone []), by decide +kernel⟩,
   ⟨[], (passWalk passKeeps (List.map (fun r : Fin 786432 => r.val) []) 786432).2, passKeeps, (rfl), (Nat.lt_of_lt_of_le (by decide +kernel) (passWalk_first passKeeps (List.map (fun r : Fin 786432 => r.val) []) 786432 0 ((presentLamps passKeeps).tail) (by decide +kernel)).1), by decide +kernel⟩,
   ⟨[], (passWalk passMoves (List.map (fun r : Fin 786432 => r.val) []) 786432).2, passMoves, (rfl), (Nat.le_trans (passWalk_first passMoves (List.map (fun r : Fin 786432 => r.val) []) 786432 0 ((presentLamps passMoves).tail) (by decide +kernel)).2.1 (by decide +kernel)), by decide +kernel⟩,
   ⟨(dev .standalone []), by decide +kernel⟩,
   ⟨.bar0, (dev .standalone []), by decide +kernel⟩,
   ⟨.bar0, (dev .standalone []), by decide +kernel⟩,
   ⟨.bar0, (dev .standalone [(F.CAL_CTL_BLEND_EN, 1)]), by decide +kernel⟩,
   ⟨.bar0, (dev .standalone []), by decide +kernel⟩,
   ⟨.bar0, (dev .standalone []), by decide +kernel⟩,
   ⟨.bar0, (dev .standalone []), by decide +kernel⟩,
   ⟨.bar0, (dev .standalone [(F.CAL_CTL_AMB_EN, 1)]), by decide +kernel⟩,
   ⟨(onCal (fun x => { x with seqs := 300 }) (dev .standalone [(F.CAL_CTL_LOOP_EN, 1), (F.CAL_REFSTAT_VALID, 1), (F.SYS_MSTAT_MODE, 3), (F.HK_STAT_THR, 16)])), by decide +kernel⟩,
   ⟨(dev .carriage []), by decide +kernel⟩,
   ⟨(onCal (fun x => { x with seqs := 300, capture := 2 }) (dev .standalone [])), by decide +kernel⟩,
   ⟨(dev .sender []), by decide +kernel⟩⟩

/-- Witness of `Obligations.DriveLinkRuns`. -/
theorem test_w_DriveLinkRuns :
    (∃ (path : Access) (s : Machine.State) (c : Nat), (reaches s path = true) ∧ (addrOn s.strap.role R.DRV_CTL = true) ∧ (s.on F.DRV_CTL_EN = false) ∧ (topoCheck s = some c)) ∧
    (∃ (path : Access) (s : Machine.State), (topoCheck s = none) ∧ (reaches s path = true) ∧ (addrOn s.strap.role R.DRV_CTL = true) ∧ (s.on F.DRV_CTL_EN = false)) ∧
    (∃ (path : Access) (s : Machine.State), (reaches s path = true) ∧ (addrOn s.strap.role R.DRV_CTL = true)) ∧
    (∃ (path : Access) (s : Machine.State), (reaches s path = true) ∧ (addrOn s.strap.role R.DRV_CTL = true)) ∧
    (∃ (path : Access) (s : Machine.State), (reaches s path = true) ∧ (addrOn s.strap.role R.DRV_LGCLR = true)) ∧
    (∃ (s : Machine.State), (drvRuns s = true)) ∧
    (∃ (s : Machine.State), (drvRuns s = true) ∧ (s.drv.sc < scanLines s)) ∧
    (∃ (s : Machine.State), (drvRuns s = true)) ∧
    (∃ (s : Machine.State), (drvRuns s = false)) ∧
    (∃ (s : Machine.State), (drvRuns s = false)) ∧
    (∃ (s : Machine.State), (drvRuns s = false)) ∧
    (∃ (s : Machine.State), (scanLines s ≤ s.drv.sc)) ∧
    (∃ (k : Nat) (lit : Bool) (s : Machine.State), (s.drv.gapSample = some (k, lit))) ∧
    (∃ (s : Machine.State), (s.drv.gapSample = none)) ∧
    (∃ (p : Fin 16) (b : BitVec 24) (crc : BitVec 6) (q : Nat) (d : Nat) (s : Machine.State), (q = Table.get 0 s.drv.request ↑p) ∧ (d = (q - 1) / 2) ∧ (q % 2 = 1) ∧ (replyOk b.toNat crc.toNat d = true)) ∧
    (∃ (p : Fin 16) (b : BitVec 24) (crc : BitVec 6) (q : Nat) (d : Nat) (s : Machine.State), (q = Table.get 0 s.drv.request ↑p) ∧ (d = (q - 1) / 2) ∧ (q ≠ 0) ∧ (q % 2 = 0) ∧ (replyOk b.toNat crc.toNat d = true)) ∧
    (∃ (p : Fin 16) (b : BitVec 24) (crc : BitVec 6) (q : Nat) (d : Nat) (s : Machine.State) (c : Instr), (c = Instr.retReplyTimeout p ∨ replyOk b.toNat crc.toNat d = false ∧ (c = Instr.statReplyRx p b crc ∧ q % 2 = 1 ∨ c = Instr.freadReplyRx p b crc ∧ q % 2 = 0)) ∧ (q = Table.get 0 s.drv.request ↑p) ∧ (d = (q - 1) / 2) ∧ (q ≠ 0)) ∧
    (∃ (p : Fin 16) (q : Nat) (d : Nat) (s : Machine.State), (q = Table.get 0 s.drv.request ↑p) ∧ (d = (q - 1) / 2) ∧ (q = 0)) ∧
    (∃ (p : Fin 16) (q : Nat) (d : Nat) (s : Machine.State), (q = Table.get 0 s.drv.request ↑p) ∧ (d = (q - 1) / 2) ∧ (q = 0 ∨ q % 2 = 0)) ∧
    (∃ (p : Fin 16) (q : Nat) (d : Nat) (s : Machine.State), (q = Table.get 0 s.drv.request ↑p) ∧ (d = (q - 1) / 2) ∧ (q = 0 ∨ q % 2 = 1)) :=
  ⟨⟨.bar0, (dev .standalone [(F.DRV_LINE_LINE_T, 0)]), 2, by decide +kernel⟩,
   ⟨.bar0, (State.fresh ⟨.standalone, 0, 1, 0x200⟩ []), (topoCheck_fresh), by decide +kernel⟩,
   ⟨.bar0, (dev .standalone []), by decide +kernel⟩,
   ⟨.bar0, (dev .standalone []), by decide +kernel⟩,
   ⟨.bar0, (dev .standalone []), by decide +kernel⟩,
   ⟨(dev .standalone [(F.DRV_STAT_STATE, 2)]), by decide +kernel⟩,
   ⟨(dev .standalone [(F.DRV_STAT_STATE, 2)]), by decide +kernel⟩,
   ⟨(dev .standalone [(F.DRV_STAT_STATE, 2)]), by decide +kernel⟩,
   ⟨(dev .standalone []), by decide +kernel⟩,
   ⟨(dev .standalone []), by decide +kernel⟩,
   ⟨(dev .standalone []), by decide +kernel⟩,
   ⟨(onDrv (fun x => { x with sc := 1000 }) (dev .standalone [])), by decide +kernel⟩,
   ⟨0, false, (onDrv (fun x => { x with gapSample := some (0, false) }) (dev .sender [])), by decide +kernel⟩,
   ⟨(dev .standalone []), by decide +kernel⟩,
   ⟨2, 0x080000#24, (BitVec.ofNat 6 (replyCrc 0x080000)), 3, 1, (onDrv (fun x => { x with request := [(2, 3)] }) (dev .standalone [])), by decide +kernel⟩,
   ⟨2, 0#24, (BitVec.ofNat 6 (replyCrc 0)), 2, 0, (onDrv (fun x => { x with request := [(2, 2)] }) (dev .standalone [])), by decide +kernel⟩,
   ⟨2, 0, 0, 3, 1, (onDrv (fun x => { x with request := [(2, 3)] }) (dev .standalone [])), (.retReplyTimeout 2), (Or.inl rfl), by decide +kernel⟩,
   ⟨0, 0, 0, (dev .sender []), by decide +kernel⟩,
   ⟨0, 0, 0, (dev .sender []), by decide +kernel⟩,
   ⟨0, 0, 0, (dev .sender []), by decide +kernel⟩⟩

/-- Witness of `Obligations.LampRailIsRegulated`. -/
theorem test_w_LampRailIsRegulated :
    (∃ (s : Machine.State), (railState s = 0 ∨ railState s = 4)) ∧
    (∃ (v : BitVec 10) (ref : Nat) (s : Machine.State) (u : Machine.State), (ref = if s.drv.rail.vref ≤ vSet s then min (vSet s) (s.drv.rail.vref + 250000 / clamp 25 200 (s.rd F.DRV_RAIL_CTL_FSW)) else max (vSet s) (s.drv.rail.vref - 250000 / clamp 25 200 (s.rd F.DRV_RAIL_CTL_FSW))) ∧ (u = s.modRail fun r => { vref := ref, acc := r.acc, e1 := r.e1, e2 := r.e2, duty := r.duty, ovr := r.ovr, lastRise := r.lastRise, good := r.good, run := r.run, maxTold := r.maxTold, uvTold := r.uvTold, sumV := r.sumV, sumI := r.sumI, n := r.n, headMin := r.headMin }) ∧ (railState s = 1 ∨ railState s = 2 ∨ railState s = 3) ∧ (6250 * v.toNat ≤ min 5300000 (vSet s + 25000 * s.rd F.DRV_RAIL_PROT_OV_MARGIN))) ∧
    (∃ (v : BitVec 10) (s : Machine.State), (railState s = 1 ∨ railState s = 2 ∨ railState s = 3) ∧ (min 5300000 (vSet s + 25000 * s.rd F.DRV_RAIL_PROT_OV_MARGIN) < 6250 * v.toNat) ∧ (s.drv.rail.ovr = 0)) ∧
    (∃ (v : BitVec 10) (s : Machine.State), (railState s = 1 ∨ railState s = 2 ∨ railState s = 3) ∧ (min 5300000 (vSet s + 25000 * s.rd F.DRV_RAIL_PROT_OV_MARGIN) < 6250 * v.toNat) ∧ (1 ≤ s.drv.rail.ovr)) ∧
    (∃ (v : BitVec 10) (s : Machine.State), (railState s = 3 ∨ railState s = 2 ∧ s.drv.rail.duty = s.rd F.DRV_RAIL_CTL_DMAX) ∧ (6250 * v.toNat + 25000 * s.rd F.DRV_RAIL_PROT_UV_MARGIN < vSet s) ∧ (s.drv.rail.uvTold = false)) ∧
    (∃ (v : BitVec 10) (s : Machine.State), (s.drv.rail.uvTold = true ∨ railState s ≠ 2 ∧ railState s ≠ 3 ∨ railState s = 2 ∧ s.drv.rail.duty ≠ s.rd F.DRV_RAIL_CTL_DMAX ∨ vSet s ≤ 6250 * v.toNat + 25000 * s.rd F.DRV_RAIL_PROT_UV_MARGIN)) ∧
    (∃ (path : Access) (s : Machine.State), (reaches s path = true) ∧ (addrOn s.strap.role R.DRV_RAIL_CTL = true)) :=
  ⟨⟨(dev .standalone [(F.DRV_RAIL_STAT_STATE, 0)]), by decide +kernel⟩,
   ⟨440, (if (onDrv (fun x => { x with rail := { x.rail with vref := 2800000 } }) (dev .standalone [(F.DRV_RAIL_STAT_STATE, 1), (F.DRV_RAIL_PROT_OV_MARGIN, 16)])).drv.rail.vref ≤ vSet (onDrv (fun x => { x with rail := { x.rail with vref := 2800000 } }) (dev .standalone [(F.DRV_RAIL_STAT_STATE, 1), (F.DRV_RAIL_PROT_OV_MARGIN, 16)])) then min (vSet (onDrv (fun x => { x with rail := { x.rail with vref := 2800000 } }) (dev .standalone [(F.DRV_RAIL_STAT_STATE, 1), (F.DRV_RAIL_PROT_OV_MARGIN, 16)]))) ((onDrv (fun x => { x with rail := { x.rail with vref := 2800000 } }) (dev .standalone [(F.DRV_RAIL_STAT_STATE, 1), (F.DRV_RAIL_PROT_OV_MARGIN, 16)])).drv.rail.vref + 250000 / clamp 25 200 ((onDrv (fun x => { x with rail := { x.rail with vref := 2800000 } }) (dev .standalone [(F.DRV_RAIL_STAT_STATE, 1), (F.DRV_RAIL_PROT_OV_MARGIN, 16)])).rd F.DRV_RAIL_CTL_FSW)) else max (vSet (onDrv (fun x => { x with rail := { x.rail with vref := 2800000 } }) (dev .standalone [(F.DRV_RAIL_STAT_STATE, 1), (F.DRV_RAIL_PROT_OV_MARGIN, 16)]))) ((onDrv (fun x => { x with rail := { x.rail with vref := 2800000 } }) (dev .standalone [(F.DRV_RAIL_STAT_STATE, 1), (F.DRV_RAIL_PROT_OV_MARGIN, 16)])).drv.rail.vref - 250000 / clamp 25 200 ((onDrv (fun x => { x with rail := { x.rail with vref := 2800000 } }) (dev .standalone [(F.DRV_RAIL_STAT_STATE, 1), (F.DRV_RAIL_PROT_OV_MARGIN, 16)])).rd F.DRV_RAIL_CTL_FSW))), (onDrv (fun x => { x with rail := { x.rail with vref := 2800000 } }) (dev .standalone [(F.DRV_RAIL_STAT_STATE, 1), (F.DRV_RAIL_PROT_OV_MARGIN, 16)])), ((onDrv (fun x => { x with rail := { x.rail with vref := 2800000 } }) (dev .standalone [(F.DRV_RAIL_STAT_STATE, 1), (F.DRV_RAIL_PROT_OV_MARGIN, 16)])).modRail fun r => { r with vref := (if (onDrv (fun x => { x with rail := { x.rail with vref := 2800000 } }) (dev .standalone [(F.DRV_RAIL_STAT_STATE, 1), (F.DRV_RAIL_PROT_OV_MARGIN, 16)])).drv.rail.vref ≤ vSet (onDrv (fun x => { x with rail := { x.rail with vref := 2800000 } }) (dev .standalone [(F.DRV_RAIL_STAT_STATE, 1), (F.DRV_RAIL_PROT_OV_MARGIN, 16)])) then min (vSet (onDrv (fun x => { x with rail := { x.rail with vref := 2800000 } }) (dev .standalone [(F.DRV_RAIL_STAT_STATE, 1), (F.DRV_RAIL_PROT_OV_MARGIN, 16)]))) ((onDrv (fun x => { x with rail := { x.rail with vref := 2800000 } }) (dev .standalone [(F.DRV_RAIL_STAT_STATE, 1), (F.DRV_RAIL_PROT_OV_MARGIN, 16)])).drv.rail.vref + 250000 / clamp 25 200 ((onDrv (fun x => { x with rail := { x.rail with vref := 2800000 } }) (dev .standalone [(F.DRV_RAIL_STAT_STATE, 1), (F.DRV_RAIL_PROT_OV_MARGIN, 16)])).rd F.DRV_RAIL_CTL_FSW)) else max (vSet (onDrv (fun x => { x with rail := { x.rail with vref := 2800000 } }) (dev .standalone [(F.DRV_RAIL_STAT_STATE, 1), (F.DRV_RAIL_PROT_OV_MARGIN, 16)]))) ((onDrv (fun x => { x with rail := { x.rail with vref := 2800000 } }) (dev .standalone [(F.DRV_RAIL_STAT_STATE, 1), (F.DRV_RAIL_PROT_OV_MARGIN, 16)])).drv.rail.vref - 250000 / clamp 25 200 ((onDrv (fun x => { x with rail := { x.rail with vref := 2800000 } }) (dev .standalone [(F.DRV_RAIL_STAT_STATE, 1), (F.DRV_RAIL_PROT_OV_MARGIN, 16)])).rd F.DRV_RAIL_CTL_FSW))) }), (rfl), (rfl), by decide +kernel⟩,
   ⟨1000, (onDrv (fun x => { x with rail := { x.rail with ovr := 0 } }) (dev .standalone [(F.DRV_RAIL_STAT_STATE, 1)])), by decide +kernel⟩,
   ⟨1000, (onDrv (fun x => { x with rail := { x.rail with ovr := 1 } }) (dev .standalone [(F.DRV_RAIL_STAT_STATE, 1)])), by decide +kernel⟩,
   ⟨0, (onDrv (fun x => { x with rail := { x.rail with uvTold := false } }) (dev .standalone [(F.DRV_RAIL_STAT_STATE, 3)])), by decide +kernel⟩,
   ⟨0, (dev .sender []), by decide +kernel⟩,
   ⟨.local, (dev .standalone []), by decide +kernel⟩⟩

/-- Witness of `Obligations.MirrorItemsAreTaken`. -/
theorem test_w_MirrorItemsAreTaken :
    (∃ (h : MHead) (s : Machine.State), (InOrder h s)) ∧
    (∃ (c : Instr) (h : MHead) (s : Machine.State), (mirrorHead c = some h) ∧ (NoHeadWaits s) ∧ (mirrorUp s = true) ∧ (s.pair.wasUp = true) ∧ (h.mseq.toNat ≠ (s.chan !h.chS).rx)) ∧
    (∃ (c : Instr) (h : MHead) (s : Machine.State), (mirrorHead c = some h) ∧ (NoHeadWaits s) ∧ (mirrorUp s = false) ∧ (linkCheck s = s) ∧ (s.hif.dirty = 0)) ∧
    (∃ (h : MHead) (r : RegSpec) (s : Machine.State), (InOrder h s) ∧ (s.pair.syncSource ≠ some 2) ∧ (findReg R.WT_FCFG = some r)) ∧
    (∃ (h : MHead) (s : Machine.State), (InOrder h s) ∧ (s.pair.wasUp = true) ∧ (s.pair.syncSource = some 2)) ∧
    (∃ (h : MHead) (s : Machine.State), (InOrder h s)) ∧
    (∃ (h : MHead) (s : Machine.State), (InOrder h s)) ∧
    (∃ (h : MHead) (s : Machine.State), (InOrder h s)) ∧
    (∃ (h : MHead) (r : Fin 8) (ctrl : List (BitVec 16)) (s : Machine.State), (∀ (q : BitVec 16), q ∈ ctrl → Table.get 0 (s.lease ↑r).pix q.toNat = 0) ∧ (InOrder h s) ∧ (holds s ↑r = false) ∧ ((s.lease ↑r).waitPix = []) ∧ ((s.lease ↑r).down = [])) ∧
    (∃ (h : MHead) (r : Fin 8) (ctrl : List (BitVec 16)) (s : Machine.State) (q : BitVec 16), (InOrder h s) ∧ (holds s ↑r = false) ∧ (q ∈ ctrl) ∧ (0 < (s.rd (F.RED_RSTAT_SEQ ↑r) + 65536 - q.toNat) % 65536) ∧ ((s.rd (F.RED_RSTAT_SEQ ↑r) + 65536 - q.toNat) % 65536 < 32768) ∧ (Table.get 0 (s.lease ↑r).pix q.toNat ≠ 0)) ∧
    (∃ (h : MHead) (c : Copy) (s : Machine.State), (InOrder h s) ∧ (c.up = true)) ∧
    (∃ (h : MHead) (f : Fin 32) (m : BitVec 64) (s : Machine.State), ((∃ o, o ∈ (s.flow ↑f).opens ∧ m.toNat ≤ o.media) ∨ ∃ c, (s.flow ↑f).lastClosed = some c ∧ m.toNat ≤ c) ∧ (InOrder h s) ∧ (flowEn s ↑f = true) ∧ (((s.flow ↑f).closing.any fun c => c.media == m.toNat) = false)) ∧
    (∃ (h : MHead) (f : Fin 32) (m : BitVec 64) (s : Machine.State) (c : PairFrame), (InOrder h s) ∧ (flowEn s ↑f = true) ∧ ((s.flow ↑f).closing = [c]) ∧ (c.media = m.toNat) ∧ (c.theirs = none) ∧ (c.alone = false) ∧ (c.buf.isSome = true) ∧ (c.missing ≠ []) ∧ (c.missing.length ≤ s.rd F.NI_CTL_CONCEAL_MAX)) ∧
    (∃ (h : MHead) (f : Fin 32) (m : BitVec 64) (row : BitVec 16) (c : PairFrame) (k : Nat) (s : Machine.State), (InOrder h s) ∧ ((s.flow ↑f).closing = [c]) ∧ (c.media = m.toNat) ∧ (c.alone = false) ∧ (c.buf = some k) ∧ (row.toNat ∈ c.wait) ∧ (∃ x, x ∈ c.wait ∧ x ≠ row.toNat)) ∧
    (∃ (h : MHead) (r : Fin 8) (l : Fin 16) (s : Machine.State), (InOrder h s) ∧ ((layerFlow s ↑r ↑l).isSome = true)) ∧
    (∃ (h : MHead) (s : Machine.State), (mirrorUp s = true) ∧ ((s.chan !h.chS).waiting = [])) :=
  ⟨⟨⟨false, 0, 0⟩, (mate []), by unfold InOrder; decide +kernel⟩,
   ⟨(.mirrorLink ⟨false, 9, 0⟩), ⟨false, 9, 0⟩, (onPair (fun x => { x with wasUp := true }) (mate [])), by unfold NoHeadWaits; decide +kernel⟩,
   ⟨(.mirrorLink ⟨false, 9, 0⟩), ⟨false, 9, 0⟩, (dev .sender []), by unfold NoHeadWaits; decide +kernel⟩,
   ⟨⟨false, 0, 0⟩, (specOf R.WT_FCFG), (mate []), by unfold InOrder; decide +kernel⟩,
   ⟨⟨false, 0, 0⟩, (onPair (fun x => { x with wasUp := true, syncSource := some 2 }) (mate [])), by unfold InOrder; decide +kernel⟩,
   ⟨⟨false, 0, 0⟩, (mate []), by unfold InOrder; decide +kernel⟩,
   ⟨⟨false, 0, 0⟩, (mate []), by unfold InOrder; decide +kernel⟩,
   ⟨⟨false, 0, 0⟩, (mate []), by unfold InOrder; decide +kernel⟩,
   ⟨⟨false, 0, 0⟩, 2, [], (mate []), (by simp), by unfold InOrder; decide +kernel⟩,
   ⟨⟨false, 0, 0⟩, 2, [2], (onPair (fun x => { x with lease := [(2, { Lease.init with pix := [(2, 1)] })] }) (mate [(F.RED_RSTAT_SEQ 2, 5)])), 2, by unfold InOrder; decide +kernel⟩,
   ⟨⟨false, 0, 0⟩, (raw 0x48 0 []), (mate []), by unfold InOrder; decide +kernel⟩,
   ⟨⟨false, 0, 0⟩, 3, 1000, (onNi (fun x => { x with flows := [(3, { Flow.init with opens := [⟨2000, none, [], false⟩] })] }) (mate [(F.NI_FCFG_EN 3, 1)])), (Or.inl ⟨⟨2000, none, [], false⟩, by decide +kernel, by decide +kernel⟩), by unfold InOrder; decide +kernel⟩,
   ⟨⟨false, 0, 0⟩, 3, 1000, (onNi (fun x => { x with flows := [(3, { Flow.init with closing := [⟨1000, some 0, [7], none, false, []⟩] })] }) (mate [(F.NI_FCFG_EN 3, 1), (F.NI_CTL_CONCEAL_MAX, 4)])), ⟨1000, some 0, [7], none, false, []⟩, by unfold InOrder; decide +kernel⟩,
   ⟨⟨false, 0, 0⟩, 3, 1000, 7, ⟨1000, some 0, [7, 8], none, false, [7, 8]⟩, 0, (onNi (fun x => { x with flows := [(3, { Flow.init with closing := [⟨1000, some 0, [7, 8], none, false, [7, 8]⟩] })] }) (mate [(F.NI_FCFG_EN 3, 1)])), by unfold InOrder; decide +kernel⟩,
   ⟨⟨false, 0, 0⟩, 1, 2, (mate []), by unfold InOrder; decide +kernel⟩,
   ⟨⟨false, 0, 0⟩, (mate []), by decide +kernel⟩⟩

/-- Witness of `Obligations.DecisionsClaimsAndResyncsCross`. -/
theorem test_w_DecisionsClaimsAndResyncsCross :
    (∃ (h : MHead) (s : Machine.State), (InOrder h s)) ∧
    (∃ (h : MHead) (q : BitVec 16) (e : Nat × Nat × Nat) (s : Machine.State), (InOrder h s) ∧ (NoHeadWaits s) ∧ (List.find? (fun e => e.fst == 11 && e.snd.fst == q.toNat) s.pair.owed = some e) ∧ ((s.xid e.snd.snd).st = XidSt.voting)) ∧
    (∃ (h : MHead) (s : Machine.State), (InOrder h s)) ∧
    (∃ (h : MHead) (s : Machine.State), (InOrder h s)) ∧
    (∃ (h : MHead) (s : Machine.State), (InOrder h s) ∧ (s.pair.syncSource ≠ some 1)) ∧
    (∃ (s : Machine.State), (mirrorUp s = true)) ∧
    (∃ (s : Machine.State), (mirrorUp s = false)) ∧
    (∃ (s : Machine.State), (mirrorUp s = true) ∧ (isSyncSource s = true)) ∧
    (∃ (s : Machine.State), (mirrorUp s = true) ∧ (isSyncSource s = false)) ∧
    (∃ (s : Machine.State), (mirrorUp s = false)) ∧
    (∃ (path : Access) (s : Machine.State), (reaches s path = true) ∧ (mirrorUp s = true) ∧ (s.pair.wasUp = true) ∧ (NoHeadWaits s) ∧ (isSyncSource s = true)) ∧
    (∃ (s : Machine.State), (pairEn s = true)) ∧
    (∃ (s : Machine.State), (pairEn s = false)) ∧
    (∃ (s : Machine.State), (mirrorUp s = true)) ∧
    (∃ (s : Machine.State), (mirrorUp s = false)) :=
  ⟨⟨⟨false, 0, 0⟩, (mate []), by unfold InOrder; decide +kernel⟩,
   ⟨⟨false, 0, 0⟩, 5, (11, 5, 3), (onPair (fun x => { x with owed := [(11, 5, 3)] }) (onXa (fun x => { x with xids := [(3, { Xid.init with st := .voting })] }) (mate []))), by unfold NoHeadWaits InOrder; decide +kernel⟩,
   ⟨⟨false, 0, 0⟩, (mate []), by unfold InOrder; decide +kernel⟩,
   ⟨⟨false, 0, 0⟩, (mate []), by unfold InOrder; decide +kernel⟩,
   ⟨⟨false, 0, 0⟩, (mate []), by unfold InOrder; decide +kernel⟩,
   ⟨(mate []), by decide +kernel⟩,
   ⟨(dev .sender []), by decide +kernel⟩,
   ⟨(mate [(F.CL_PCFG_EN 1, 1), (F.CL_PCFG_KIND 1, 1), (F.CL_PSTAT_STATE 1, 6), (F.RED_RSTAT_HELD 0, 1)]), by decide +kernel⟩,
   ⟨(heard (mate [(F.CL_PCFG_EN 1, 1), (F.CL_PCFG_KIND 1, 1), (F.CL_PSTAT_STATE 1, 6)])), by decide +kernel⟩,
   ⟨(dev .sender []), by decide +kernel⟩,
   ⟨.bar0, (onPair (fun x => { x with wasUp := true }) (mate [(F.CL_PCFG_EN 1, 1), (F.CL_PCFG_KIND 1, 1), (F.CL_PSTAT_STATE 1, 6), (F.RED_RSTAT_HELD 0, 1)])), by unfold NoHeadWaits; decide +kernel⟩,
   ⟨(mate []), by decide +kernel⟩,
   ⟨(dev .sender []), by decide +kernel⟩,
   ⟨(mate []), by decide +kernel⟩,
   ⟨(dev .sender []), by decide +kernel⟩⟩

/-- Witness of `Obligations.LeasesAreHeardAndMoved`. -/
theorem test_w_LeasesAreHeardAndMoved :
    (∃ (r : Fin 8) (s : Machine.State), (ringEnabled s ↑r = true)) ∧
    (∃ (r : Fin 8) (s : Machine.State), (ringEnabled s ↑r = false)) ∧
    (∃ (p : Fin 12) (q : Nat) (s : Machine.State), ((ringPorts s).contains ↑p = true) ∧ (forwardsTo s ↑p = some q) ∧ (s.isUp ↑p = true) ∧ (NoHeadWaits s)) ∧
    (∃ (p : Fin 12) (b : List Byte) (s : Machine.State), (NoHeadWaits s) ∧ (pairEn s = true) ∧ (s.isUp ↑p = true) ∧ (↑p = mport s ∧ s.portIs (↑p) 3 = true ∨ s.portIs (↑p) 1 = true) ∧ ((ringPorts s).contains ↑p = false) ∧ (whistleIntact b = true) ∧ (beAt b 1 1 % 2 = 1) ∧ (holds s (beAt b 6 1 % 8) = true) ∧ (s.rd (F.RED_REPOCH_EPOCH (beAt b 6 1 % 8)) < beAt b 2 4)) ∧
    (∃ (p : Fin 12) (s : Machine.State), (s.isUp ↑p = false) ∧ (NoHeadWaits s) ∧ (s.hif.dirty = 0)) ∧
    (∃ (s : Machine.State), (s.on F.RED_FSTAT_VALID = true)) ∧
    (∃ (s : Machine.State), (s.on F.RED_FSTAT_VALID = false)) ∧
    (∃ (r : Fin 8) (s : Machine.State), (pairEn s = true) ∧ (ringEnabled s ↑r = true) ∧ (holds s ↑r = false)) ∧
    (∃ (r : Fin 8) (s : Machine.State), (pairEn s = false ∨ ringEnabled s ↑r = false ∨ holds s ↑r = true)) ∧
    (∃ (r : Fin 8) (s : Machine.State) (c : Copy) (l : List Copy), ((s.lease ↑r).waitPix = c :: l) ∧ (mirrorUp s = true) ∧ (holds s ↑r = false) ∧ (s.rd (F.RED_RSTAT_SEQ ↑r) = (s.lease ↑r).mark)) ∧
    (∃ (r : Fin 8) (s : Machine.State), ((s.lease ↑r).waitPix = [] ∨ mirrorUp s = false ∨ holds s ↑r = true ∨ s.rd (F.RED_RSTAT_SEQ ↑r) ≠ (s.lease ↑r).mark)) ∧
    (∃ (s : Machine.State), (mirrorUp s = true) ∧ (s.on F.RED_CFG_REVERT_EN = true) ∧ (s.on F.RED_CFG_HOME = true) ∧ (s.pair.partnerHome ≠ some true) ∧ (redRole s = 2) ∧ (holdoffLeft s = 0) ∧ (s.on F.RED_STAT_HEALTHY = true) ∧ (s.pair.partnerUp = true) ∧ (s.pair.claimSent = none) ∧ (s.pair.grant = none) ∧ (enabledRings s ≠ [])) ∧
    (∃ (s : Machine.State), (mirrorUp s = false ∨ s.on F.RED_CFG_REVERT_EN = false ∨ s.on F.RED_CFG_HOME = false ∨ s.pair.partnerHome = some true ∨ redRole s ≠ 2 ∨ holdoffLeft s ≠ 0 ∨ s.on F.RED_STAT_HEALTHY = false ∨ s.pair.partnerUp = false ∨ s.pair.claimSent.isSome = true ∨ s.pair.grant.isSome = true)) ∧
    (∃ (s : Machine.State), (mirrorUp s = true) ∧ (countsHome s = false) ∧ (redRole s = 3) ∧ (s.pair.claimSent = none) ∧ (s.pair.grant = none) ∧ (ringMask (partnerRings s) ≠ 0)) ∧
    (∃ (s : Machine.State), (mirrorUp s = false ∨ countsHome s = true ∨ redRole s ≠ 3 ∨ s.pair.claimSent.isSome = true ∨ s.pair.grant.isSome = true)) ∧
    (∃ (path : Access) (s : Machine.State), (reaches s path = true) ∧ (mirrorUp s = true) ∧ (NoHeadWaits s)) ∧
    (∃ (path : Access) (s : Machine.State), (reaches s path = true) ∧ (mirrorUp s = true) ∧ (NoHeadWaits s) ∧ (redRole s = 1)) :=
  ⟨⟨0, (feeder []), by decide +kernel⟩,
   ⟨0, (dev .sender []), by decide +kernel⟩,
   ⟨0, 1, (dev .carriage [(F.CL_PSTAT_STATE 0, 6), (F.CL_PSTAT_STATE 1, 6)]), by unfold NoHeadWaits; decide +kernel⟩,
   ⟨0, (whistleBytes 1 9 0), (mate [(F.CL_PCFG_EN 1, 1), (F.CL_PCFG_KIND 1, 1), (F.CL_PSTAT_STATE 1, 6), (F.RED_RSTAT_HELD 0, 1)]), by unfold NoHeadWaits; decide +kernel⟩,
   ⟨0, (dev .sender []), by unfold NoHeadWaits; decide +kernel⟩,
   ⟨(dev .carriage [(F.RED_FSTAT_VALID, 1)]), by decide +kernel⟩,
   ⟨(dev .carriage []), by decide +kernel⟩,
   ⟨0, (mate [(F.CL_PCFG_EN 1, 1), (F.CL_PCFG_KIND 1, 1), (F.CL_PSTAT_STATE 1, 6)]), by decide +kernel⟩,
   ⟨0, (dev .sender []), by decide +kernel⟩,
   ⟨0, (onPair (fun x => { x with lease := [(0, { Lease.init with waitPix := [(raw 0x10 0 [])] })] }) (mate [(F.CL_PCFG_EN 1, 1), (F.CL_PCFG_KIND 1, 1), (F.CL_PSTAT_STATE 1, 6)])), (raw 0x10 0 []), [], by decide +kernel⟩,
   ⟨0, (dev .sender []), by decide +kernel⟩,
   ⟨(onPair (fun x => { x with partnerUp := true, healthySince := some 0 }) ({ (mate [(F.RED_CFG_REVERT_EN, 1), (F.RED_CFG_HOME, 1), (F.RED_STAT_HEALTHY, 1), (F.CL_PCFG_EN 1, 1), (F.CL_PCFG_KIND 1, 1), (F.CL_PSTAT_STATE 1, 6), (F.RED_REVERT_REVERT_HOLDOFF, 5)]) with now := 10000000000000 })), by decide +kernel⟩,
   ⟨(dev .sender []), by decide +kernel⟩,
   ⟨(heard (mate [(F.CL_PCFG_EN 1, 1), (F.CL_PCFG_KIND 1, 1), (F.CL_PSTAT_STATE 1, 6), (F.RED_RSTAT_HELD 0, 1), (F.CL_PCFG_EN 2, 1), (F.CL_PCFG_KIND 2, 1), (F.CL_PCFG_RING 2, 1)])), by decide +kernel⟩,
   ⟨(dev .sender []), by decide +kernel⟩,
   ⟨.bar0, (mate []), by unfold NoHeadWaits; decide +kernel⟩,
   ⟨.bar0, (mate [(F.CL_PCFG_EN 1, 1), (F.CL_PCFG_KIND 1, 1), (F.CL_PSTAT_STATE 1, 6), (F.RED_RSTAT_HELD 0, 1)]), by unfold NoHeadWaits; decide +kernel⟩⟩

/-- Witness of `Obligations.DoorbellsNeverMoveBack`. -/
theorem test_w_DoorbellsNeverMoveBack :
    (∃ (path : Access) (n : Fin 16) (s : Machine.State), (reaches s path = true) ∧ (addrOn s.strap.role (R.HIF_DB ↑n) = true) ∧ (Alone s)) :=
  ⟨.bar0, 3, (dev .sender []), by unfold Alone NoHeadWaits; decide +kernel⟩

/-- Witness of `Obligations.RingsConsumeAndReset`. -/
theorem test_w_RingsConsumeAndReset :
    (∃ (n : Fin 16) (d : List Byte) (s : Machine.State), (mayConsume s ↑n = true) ∧ (s.on (F.HIF_CR_STAT_WAITING ↑n) = false) ∧ (descStatus s (slice d 0 64) = none) ∧ (headWaits s (↑n) (slice d 0 64) = false)) ∧
    (∃ (n : Fin 16) (d : List Byte) (s : Machine.State), (mayConsume s ↑n = true) ∧ (s.on (F.HIF_CR_STAT_WAITING ↑n) = false) ∧ (descStatus s (slice d 0 64) = none) ∧ (headWaits s (↑n) (slice d 0 64) = true)) ∧
    (∃ (n : Fin 16) (d : List Byte) (s : Machine.State) (st : Nat), (mayConsume s ↑n = true) ∧ (s.on (F.HIF_CR_STAT_WAITING ↑n) = false) ∧ (descStatus s (slice d 0 64) = some st)) ∧
    (∃ (n : Fin 16) (s : Machine.State), (mayConsume s ↑n = true) ∧ (s.on (F.HIF_CR_STAT_WAITING ↑n) = false)) ∧
    (∃ (n : Fin 16) (s : Machine.State), (mayConsume s ↑n = false ∨ s.on (F.HIF_CR_STAT_WAITING ↑n) = true)) ∧
    (∃ (c : Instr) (n : Nat) (k : Nat) (s : Machine.State), (List.find? (fun j => j.ring % 16 == n && !j.ran) s.hif.jobs = none ∧ s.on (F.HIF_CR_STAT_WAITING n) = false ∨ ∃ j, List.find? (fun j => j.ring % 16 == n && !j.ran) s.hif.jobs = some j ∧ (j.type ≠ k ∨ behind s j = true)) ∧ (descRow c = some (n, k)) ∧ (linkCheck s = s)) ∧
    (∃ (c : Instr) (n : Nat) (k : Nat) (s : Machine.State) (j : Job), (descRow c = some (n, k)) ∧ (List.find? (fun j => j.ring % 16 == n && !j.ran) s.hif.jobs = some j) ∧ (j.ring = n) ∧ (j.type = k) ∧ (behind s j = false) ∧ (linkRefuses s k = true) ∧ (NoHeadWaits s)) ∧
    (∃ (n : Fin 16) (j : Job) (s : Machine.State), (InHand s (↑n) 1 j)) ∧
    (∃ (n : Fin 16) (j : Job) (s : Machine.State), (InHand s (↑n) 2 j)) ∧
    (∃ (r : Fin 8) (tag : BitVec 16) (q : Request) (j : Job) (s : Machine.State), (NoHeadWaits s) ∧ (List.find? (fun q => q.ring == ↑r && q.tag == tag.toNat) s.hif.reqs = some q) ∧ (s.job q.job = some j) ∧ (j.ring < 16) ∧ (j.type = 11)) ∧
    (∃ (r : Fin 8) (tag : BitVec 16) (q : Request) (j : Job) (s : Machine.State) (l : List Nat), (NoHeadWaits s) ∧ (List.find? (fun q => q.ring == ↑r && q.tag == tag.toNat) s.hif.reqs = some q) ∧ (s.job q.job = some j) ∧ (j.ring < 16) ∧ (j.type = 3) ∧ (q.owed = some l) ∧ (l ≠ [])) ∧
    (∃ (r : Fin 8) (tag : BitVec 16) (s : Machine.State), (NoHeadWaits s) ∧ (s.hif.dirty = 0) ∧ (List.find? (fun q => q.ring == ↑r && q.tag == tag.toNat) s.hif.reqs = none)) ∧
    (∃ (path : Access) (n : Fin 16) (s : Machine.State), (reaches s path = true) ∧ (addrOn s.strap.role (R.HIF_CP_CONS ↑n) = true) ∧ (Alone s)) ∧
    (∃ (path : Access) (n : Fin 16) (s : Machine.State), (reaches s path = true) ∧ (addrOn s.strap.role (R.HIF_CR_CTL ↑n) = true) ∧ (pairEn s = false) ∧ (s.on (F.HIF_CR_CTL_EN ↑n) = true)) ∧
    (∃ (c : Instr) (s : Machine.State), ((∃ a, c = Instr.bar0AccessErr a) ∨ (∃ o l n, c = Instr.bar2Access o l n) ∨ c = Instr.functionLevelReset ∨ c = Instr.hotReset ∨ c = Instr.pciePerstN ∨ c = Instr.pcieLinkDown ∨ ∃ w p b, c = Instr.pcieLinkUp w p b) ∧ (hasHost s = false)) ∧
    (∃ (s : Machine.State), (s.on F.HIF_STAT_LINK_UP = false)) ∧
    (∃ (s : Machine.State), (hasHost s = true)) ∧
    (∃ (off : BitVec 28) (len : BitVec 12) (s : Machine.State), (hasHost s = true) ∧ (installedRange s (s.rd F.HIF_BAR2_BASE * 2 ^ 28 + off.toNat) len.toNat = true)) ∧
    (∃ (off : BitVec 28) (len : BitVec 12) (s : Machine.State), (hasHost s = true) ∧ (installedRange s (s.rd F.HIF_BAR2_BASE * 2 ^ 28 + off.toNat) len.toNat = false)) ∧
    (∃ (off : BitVec 28) (l : List (Option Byte)) (s : Machine.State), (hasHost s = true) ∧ (installedRange s (s.rd F.HIF_BAR2_BASE * 2 ^ 28 + off.toNat) l.length = true)) ∧
    (∃ (off : BitVec 28) (l : List (Option Byte)) (s : Machine.State), (hasHost s = true) ∧ (installedRange s (s.rd F.HIF_BAR2_BASE * 2 ^ 28 + off.toNat) l.length = false)) ∧
    (∃ (c : Instr) (s : Machine.State), (c = Instr.functionLevelReset ∨ c = Instr.hotReset ∨ c = Instr.pciePerstN ∨ c = Instr.pcieLinkDown ∧ s.on F.HIF_STAT_LINK_UP = true) ∧ (hasHost s = true)) ∧
    (∃ (s : Machine.State), (hasHost s = true)) :=
  ⟨⟨3, [1], (dev .sender [(F.HIF_CR_CTL_EN 3, 1), (F.HIF_CP_CTL_EN 3, 1), (F.HIF_DB_PROD 3, 1)]), by decide +kernel⟩,
   ⟨3, [2], (onHif (fun x => { x with jobs := [{ jobOf 3 true [1] with id := 0 }] }) (dev .sender [(F.HIF_CR_CTL_EN 3, 1), (F.HIF_CP_CTL_EN 3, 1), (F.HIF_DB_PROD 3, 1)])), by decide +kernel⟩,
   ⟨3, [99], (dev .sender [(F.HIF_CR_CTL_EN 3, 1), (F.HIF_CP_CTL_EN 3, 1), (F.HIF_DB_PROD 3, 1)]), 0x80, by decide +kernel⟩,
   ⟨3, (dev .sender [(F.HIF_CR_CTL_EN 3, 1), (F.HIF_CP_CTL_EN 3, 1), (F.HIF_DB_PROD 3, 1)]), by decide +kernel⟩,
   ⟨0, (dev .sender [(F.HIF_CR_STAT_WAITING 0, 1)]), by decide +kernel⟩,
   ⟨(.nop 3), 3, 1, (dev .sender []), (Or.inl ⟨by decide +kernel, by decide +kernel⟩), by decide +kernel⟩,
   ⟨(.xaCommit 3), 3, 10, (onHif (fun x => { x with jobs := [(jobOf 3 false ([10] ++ List.replicate 15 0 ++ [3]))] }) (dev .sender [(F.RED_CFG_EN, 1)])), (jobOf 3 false ([10] ++ List.replicate 15 0 ++ [3])), by unfold NoHeadWaits; decide +kernel⟩,
   ⟨3, (jobOf 3 false [1]), (onHif (fun x => { x with jobs := [(jobOf 3 false [1])] }) (dev .sender [])), (inHand_of (by unfold NoHeadWaits; decide +kernel))⟩,
   ⟨3, (jobOf 3 false [2]), (onHif (fun x => { x with jobs := [(jobOf 3 false [2])] }) (dev .sender [])), (inHand_of (by unfold NoHeadWaits; decide +kernel))⟩,
   ⟨2, 5, ⟨1, 2, 5, 0, 0, none⟩, (jobOf 3 true [11]), (onHif (fun x => { x with reqs := [⟨1, 2, 5, 0, 0, none⟩], jobs := [(jobOf 3 true [11])] }) (dev .sender [])), by unfold NoHeadWaits; decide +kernel⟩,
   ⟨2, 5, ⟨1, 2, 5, 0, 0, some [1]⟩, (jobOf 3 true [3]), (onHif (fun x => { x with reqs := [⟨1, 2, 5, 0, 0, some [1]⟩], jobs := [(jobOf 3 true [3])] }) (dev .sender [])), [1], by unfold NoHeadWaits; decide +kernel⟩,
   ⟨0, 0, (dev .sender []), by unfold NoHeadWaits; decide +kernel⟩,
   ⟨.bar0, 3, (dev .sender []), by unfold Alone NoHeadWaits; decide +kernel⟩,
   ⟨.bar0, 3, (dev .sender [(F.HIF_CR_CTL_EN 3, 1)]), by decide +kernel⟩,
   ⟨.hotReset, (dev .carriage []), (Or.inr (Or.inr (Or.inr (Or.inl rfl)))), by decide +kernel⟩,
   ⟨(dev .sender []), by decide +kernel⟩,
   ⟨(dev .sender []), by decide +kernel⟩,
   ⟨0, 16, (dev .sender []), by decide +kernel⟩,
   ⟨0, 16, (dev .sender [(F.HIF_BAR2_BASE, 63)]), by decide +kernel⟩,
   ⟨0, [], (dev .sender []), by decide +kernel⟩,
   ⟨0, [some 1], (dev .sender [(F.HIF_BAR2_BASE, 63)]), by decide +kernel⟩,
   ⟨.hotReset, (dev .sender []), (Or.inr (Or.inl rfl)), by decide +kernel⟩,
   ⟨(dev .sender []), by decide +kernel⟩⟩

/-- Witness of `Obligations.DescriptorsActOnTheDevice`. -/
theorem test_w_DescriptorsActOnTheDevice :
    (∃ (n : Fin 16) (j : Job) (r : RegSpec) (s : Machine.State), (InHand s (↑n) 3 j) ∧ (pairEn s = false) ∧ (isLocal j = true) ∧ (leAt j.bytes 20 1 = 1) ∧ (leAt j.bytes 16 4 % 4 = 0) ∧ (addrOn s.strap.role (leAt j.bytes 16 4) = true) ∧ (leAt j.bytes 16 4 / 65536 = 5) ∧ (findReg (leAt j.bytes 16 4) = some r)) ∧
    (∃ (n : Fin 16) (j : Job) (s : Machine.State), (InHand s (↑n) 4 j) ∧ (isLocal j = true) ∧ (leAt j.bytes 20 1 = 1) ∧ (j.missing = 0) ∧ (leAt j.bytes 16 4 % 4 = 0) ∧ (addrOn s.strap.role (leAt j.bytes 16 4) = true) ∧ (leAt j.bytes 16 4 / 65536 = 5) ∧ (Table.get 0 s.latch (pathIdx Path.local * 33554432 + leAt j.bytes 16 4) = 0)) ∧
    (∃ (n : Fin 16) (j : Job) (s : Machine.State), (InHand s (↑n) 4 j) ∧ (isLocal j = false) ∧ (leAt j.bytes 20 1 ≤ 8) ∧ (routeOk s j.route j.rhb = false)) ∧
    (∃ (n : Fin 16) (j : Job) (s : Machine.State) (p : List Byte) (q : Nat), (InHand s (↑n) 4 j) ∧ (isLocal j = false) ∧ (leAt j.bytes 20 1 ≤ 8) ∧ (routeOk s j.route j.rhb = true) ∧ (p = bytesBE 4 (leAt j.bytes 16 4) ++ bytesBE 1 (leAt j.bytes 20 1) ++ bytesBE 1 (leAt j.bytes 21 1) ++ bytesBE 2 0) ∧ ((sendControl s (ringOfRoute s j.route j.rhb) (downPacket 3 j.rhb j.route p)).snd = some q)) ∧
    (∃ (n : Fin 16) (j : Job) (s : Machine.State), (InHand s (↑n) 3 j) ∧ (isLocal j = false) ∧ (leAt j.bytes 20 1 ≤ 8) ∧ (bitAt (leAt j.bytes 21 1) 0 = true) ∧ (linkCheck s = s) ∧ (routeOk s j.route j.rhb = false)) ∧
    (∃ (n : Fin 16) (j : Job) (s : Machine.State) (p : List Byte) (q : Nat), (InHand s (↑n) 3 j) ∧ (isLocal j = false) ∧ (leAt j.bytes 20 1 ≤ 8) ∧ (bitAt (leAt j.bytes 21 1) 0 = true) ∧ (linkCheck s = s) ∧ (routeOk s j.route j.rhb = true) ∧ (p = bytesBE 4 (leAt j.bytes 16 4) ++ bytesBE 1 (leAt j.bytes 20 1) ++ bytesBE 1 (leAt j.bytes 21 1) ++ bytesBE 2 0 ++ List.flatMap (bytesBE 4) (wordsLE (leAt j.bytes 20 1) (slice j.bytes 32 (4 * leAt j.bytes 20 1)))) ∧ ((sendControl s (ringOfRoute s j.route j.rhb) (downPacket 2 j.rhb j.route p)).snd = some q)) ∧
    (∃ (n : Fin 16) (j : Job) (r : RegSpec) (s : Machine.State), (InHand s (↑n) 5 j) ∧ (pairEn s = false) ∧ (isLocal j = true) ∧ (leAt j.bytes 20 4 = 8) ∧ (leAt j.bytes 16 4 % 8 = 0) ∧ (addrOn s.strap.role (leAt j.bytes 16 4) = true) ∧ (leAt j.bytes 16 4 / 65536 = 5) ∧ (findReg (leAt j.bytes 16 4) = some r)) ∧
    (∃ (n : Fin 16) (j : Job) (s : Machine.State), (InHand s (↑n) 6 j) ∧ (s.isStandalone = false) ∧ (flipCheck s (leAt j.bytes 16 1) (leAt j.bytes 17 1) (leAt j.bytes 24 8) (sealOf j.bytes) ≠ 0)) ∧
    (∃ (n : Fin 16) (j : Job) (s : Machine.State), (InHand s (↑n) 6 j) ∧ (s.isStandalone = false) ∧ (flipCheck s (leAt j.bytes 16 1) (leAt j.bytes 17 1) (leAt j.bytes 24 8) (sealOf j.bytes) = 0) ∧ (leAt j.bytes 16 1 ≠ 0)) ∧
    (∃ (n : Fin 16) (j : Job) (s : Machine.State), (InHand s (↑n) 6 j) ∧ (s.isStandalone = true) ∧ (leAt j.bytes 16 1 = 1) ∧ (leAt j.bytes 17 1 = 0) ∧ (leAt j.bytes 24 8 = fbAddr s (fbFill s) 0 0) ∧ (bitAt (leAt j.bytes 18 1) 0 = false)) ∧
    (∃ (n : Fin 16) (j : Job) (d : List Byte) (s : Machine.State), (InHand s (↑n) 7 j) ∧ (mapCheck s (leAt j.bytes 16 1) (slice d 0 992) ≠ 0)) ∧
    (∃ (n : Fin 16) (j : Job) (d : List Byte) (s : Machine.State), (InHand s (↑n) 7 j) ∧ (mapCheck s (leAt j.bytes 16 1) (slice d 0 992) = 0)) ∧
    (∃ (n : Fin 16) (j : Job) (s : Machine.State), (InHand s (↑n) 8 j)) ∧
    (∃ (n : Fin 16) (j : Job) (s : Machine.State), (InHand s (↑n) 9 j) ∧ ((s.xid (leAt j.bytes 16 1)).st ≠ XidSt.building)) ∧
    (∃ (n : Fin 16) (j : Job) (s : Machine.State), (InHand s (↑n) 9 j) ∧ ((s.xid (leAt j.bytes 16 1)).st = XidSt.building)) ∧
    (∃ (n : Fin 16) (j : Job) (s : Machine.State), (InHand s (↑n) 10 j) ∧ ((s.xid (leAt j.bytes 16 1)).st ≠ XidSt.building) ∧ ((s.xid (leAt j.bytes 16 1)).st ≠ XidSt.aborted ∨ (s.xid (leAt j.bytes 16 1)).early = false)) ∧
    (∃ (n : Fin 16) (j : Job) (s : Machine.State), (InHand s (↑n) 10 j) ∧ ((s.xid (leAt j.bytes 16 1)).st = XidSt.aborted) ∧ ((s.xid (leAt j.bytes 16 1)).early = true)) ∧
    (∃ (n : Fin 16) (j : Job) (s : Machine.State), (InHand s (↑n) 10 j) ∧ ((s.xid (leAt j.bytes 16 1)).st = XidSt.building) ∧ ((s.xid (leAt j.bytes 16 1)).dests = [])) ∧
    (∃ (n : Fin 16) (j : Job) (s : Machine.State) (f : Nat), (InHand s (↑n) 10 j) ∧ ((s.xid (leAt j.bytes 16 1)).st = XidSt.building) ∧ ((s.xid (leAt j.bytes 16 1)).dests ≠ []) ∧ (f = commitFrame s (leAt j.bytes 16 1) (if bitAt (leAt j.bytes 17 1) 0 = true then some (leAt j.bytes 24 6) else none) (leAt j.bytes 18 1))) ∧
    (∃ (n : Fin 16) (j : Job) (s : Machine.State), (InHand s (↑n) 11 j) ∧ (isLocal j = true)) :=
  ⟨⟨3, (jobOf 3 false ([3] ++ List.replicate 17 0 ++ [5, 0, 1])), (specOf 0x50000), (onHif (fun x => { x with jobs := [(jobOf 3 false ([3] ++ List.replicate 17 0 ++ [5, 0, 1]))] }) (dev .sender [])), (inHand_of (by unfold NoHeadWaits; decide +kernel)), by decide +kernel⟩,
   ⟨3, (jobOf 3 false ([4] ++ List.replicate 17 0 ++ [5, 0, 1])), (onHif (fun x => { x with jobs := [(jobOf 3 false ([4] ++ List.replicate 17 0 ++ [5, 0, 1]))] }) (dev .sender [])), (inHand_of (by unfold NoHeadWaits; decide +kernel)), by decide +kernel⟩,
   ⟨3, (jobOf 3 false ([4, 0, 0, 0, 0, 0, 0, 1] ++ List.replicate 10 0 ++ [5, 0, 1, 0, 0, 0])), (onHif (fun x => { x with jobs := [(jobOf 3 false ([4, 0, 0, 0, 0, 0, 0, 1] ++ List.replicate 10 0 ++ [5, 0, 1, 0, 0, 0]))] }) (dev .sender [])), (inHand_of (by unfold NoHeadWaits; decide +kernel)), by decide +kernel⟩,
   ⟨3, (jobOf 3 false ([4, 0, 0, 0, 0, 0, 0, 1] ++ List.replicate 10 0 ++ [5, 0, 1, 0, 0, 0])), (onHif (fun x => { x with jobs := [(jobOf 3 false ([4, 0, 0, 0, 0, 0, 0, 1] ++ List.replicate 10 0 ++ [5, 0, 1, 0, 0, 0]))] }) (feeder [])), (bytesBE 4 0x50000 ++ bytesBE 1 1 ++ bytesBE 1 0 ++ bytesBE 2 0), ((sendControl (onHif (fun x => { x with jobs := [(jobOf 3 false ([4, 0, 0, 0, 0, 0, 0, 1] ++ List.replicate 10 0 ++ [5, 0, 1, 0, 0, 0]))] }) (feeder [])) 0 (downPacket 3 0 0x01000000 (bytesBE 4 0x50000 ++ bytesBE 1 1 ++ bytesBE 1 0 ++ bytesBE 2 0))).2.getD 0), (inHand_of (by unfold NoHeadWaits; decide +kernel)), by decide +kernel⟩,
   ⟨3, (jobOf 3 false ([3, 0, 0, 0, 0, 0, 0, 1] ++ List.replicate 10 0 ++ [5, 0, 1, 1] ++ List.replicate 10 0 ++ [7, 0, 0, 0])), (linkCheck (onHif (fun x => { x with jobs := [(jobOf 3 false ([3, 0, 0, 0, 0, 0, 0, 1] ++ List.replicate 10 0 ++ [5, 0, 1, 1] ++ List.replicate 10 0 ++ [7, 0, 0, 0]))] }) (dev .sender []))), (inHand_of (by unfold NoHeadWaits; decide +kernel)), by decide +kernel⟩,
   ⟨3, (jobOf 3 false ([3, 0, 0, 0, 0, 0, 0, 1] ++ List.replicate 10 0 ++ [5, 0, 1, 1] ++ List.replicate 10 0 ++ [7, 0, 0, 0])), (linkCheck (onHif (fun x => { x with jobs := [(jobOf 3 false ([3, 0, 0, 0, 0, 0, 0, 1] ++ List.replicate 10 0 ++ [5, 0, 1, 1] ++ List.replicate 10 0 ++ [7, 0, 0, 0]))] }) (feeder []))), (bytesBE 4 0x50000 ++ bytesBE 1 1 ++ bytesBE 1 1 ++ bytesBE 2 0 ++ bytesBE 4 7), ((sendControl (onHif (fun x => { x with jobs := [(jobOf 3 false ([3, 0, 0, 0, 0, 0, 0, 1] ++ List.replicate 10 0 ++ [5, 0, 1, 1] ++ List.replicate 10 0 ++ [7, 0, 0, 0]))] }) (feeder [])) 0 (downPacket 2 0 0x01000000 (bytesBE 4 0x50000 ++ bytesBE 1 1 ++ bytesBE 1 1 ++ bytesBE 2 0 ++ bytesBE 4 7))).2.getD 0), (inHand_of (by unfold NoHeadWaits; decide +kernel)), by decide +kernel⟩,
   ⟨3, (jobOf 3 false ([5] ++ List.replicate 17 0 ++ [5, 0, 8, 0, 0, 0])), (specOf 0x50000), (onHif (fun x => { x with jobs := [(jobOf 3 false ([5] ++ List.replicate 17 0 ++ [5, 0, 8, 0, 0, 0]))] }) (dev .sender [])), (inHand_of (by unfold NoHeadWaits; decide +kernel)), by decide +kernel⟩,
   ⟨3, (jobOf 3 false ([6] ++ List.replicate 15 0 ++ [1, 0])), (onHif (fun x => { x with jobs := [(jobOf 3 false ([6] ++ List.replicate 15 0 ++ [1, 0]))] }) (dev .sender [])), (inHand_of (by unfold NoHeadWaits; decide +kernel)), by decide +kernel⟩,
   ⟨3, (jobOf 3 false ([6] ++ List.replicate 15 0 ++ [1, 0])), (onHif (fun x => { x with jobs := [(jobOf 3 false ([6] ++ List.replicate 15 0 ++ [1, 0]))] }) (dev .sender [(F.CMP_RCFG_EN 0, 1), (F.CMP_LCFG_KIND 0 0, 2)])), (inHand_of (by unfold NoHeadWaits; decide +kernel)), by decide +kernel⟩,
   ⟨3, (jobOf 3 false ([6] ++ List.replicate 15 0 ++ [1, 0])), (onHif (fun x => { x with jobs := [(jobOf 3 false ([6] ++ List.replicate 15 0 ++ [1, 0]))] }) (dev .standalone [(F.PIX_FBBASE_BASE, 0), (F.PIX_FBSTAT_FILL, 0)])), (inHand_of (by unfold NoHeadWaits; decide +kernel)), by decide +kernel⟩,
   ⟨3, (jobOf 3 false ([7] ++ List.replicate 16 0)), (List.replicate 8 0 ++ [4]), (onHif (fun x => { x with jobs := [(jobOf 3 false ([7] ++ List.replicate 16 0))] }) (dev .sender [])), (inHand_of (by unfold NoHeadWaits; decide +kernel)), by decide +kernel⟩,
   ⟨3, (jobOf 3 false ([7] ++ List.replicate 16 0)), [], (onHif (fun x => { x with jobs := [(jobOf 3 false ([7] ++ List.replicate 16 0))] }) (feeder [(F.CMP_RCFG_EN 0, 1)])), (inHand_of (by unfold NoHeadWaits; decide +kernel)), by decide +kernel⟩,
   ⟨3, (jobOf 3 false ([8] ++ List.replicate 15 0 ++ [3])), (onHif (fun x => { x with jobs := [(jobOf 3 false ([8] ++ List.replicate 15 0 ++ [3]))] }) (dev .sender [])), (inHand_of (by unfold NoHeadWaits; decide +kernel))⟩,
   ⟨3, (jobOf 3 false ([9] ++ List.replicate 15 0 ++ [3])), (onHif (fun x => { x with jobs := [(jobOf 3 false ([9] ++ List.replicate 15 0 ++ [3]))] }) (dev .sender [])), (inHand_of (by unfold NoHeadWaits; decide +kernel)), by decide +kernel⟩,
   ⟨3, (jobOf 3 false ([9] ++ List.replicate 15 0 ++ [3])), (onHif (fun x => { x with jobs := [(jobOf 3 false ([9] ++ List.replicate 15 0 ++ [3]))] }) (onXa (fun x => { x with xids := [(3, { Xid.init with st := .building })] }) (dev .sender []))), (inHand_of (by unfold NoHeadWaits; decide +kernel)), by decide +kernel⟩,
   ⟨3, (jobOf 3 false ([10] ++ List.replicate 15 0 ++ [3])), (onHif (fun x => { x with jobs := [(jobOf 3 false ([10] ++ List.replicate 15 0 ++ [3]))] }) (dev .sender [])), (inHand_of (by unfold NoHeadWaits; decide +kernel)), by decide +kernel⟩,
   ⟨3, (jobOf 3 false ([10] ++ List.replicate 15 0 ++ [3, 1])), (onHif (fun x => { x with jobs := [(jobOf 3 false ([10] ++ List.replicate 15 0 ++ [3, 1]))] }) (onXa (fun x => { x with xids := [(3, { Xid.init with st := .aborted, early := true })] }) (dev .sender []))), (inHand_of (by unfold NoHeadWaits; decide +kernel)), by decide +kernel⟩,
   ⟨3, (jobOf 3 false ([10] ++ List.replicate 15 0 ++ [3])), (onHif (fun x => { x with jobs := [(jobOf 3 false ([10] ++ List.replicate 15 0 ++ [3]))] }) (onXa (fun x => { x with xids := [(3, { Xid.init with st := .building })] }) (dev .sender []))), (inHand_of (by unfold NoHeadWaits; decide +kernel)), by decide +kernel⟩,
   ⟨3, (jobOf 3 false ([10] ++ List.replicate 15 0 ++ [3, 1])), (onHif (fun x => { x with jobs := [(jobOf 3 false ([10] ++ List.replicate 15 0 ++ [3, 1]))] }) (onXa (fun x => { x with xids := [(3, { Xid.init with st := .building, dests := [⟨0x01000000, 0, [], 0, 0, []⟩] })] }) (dev .sender []))), 0, (inHand_of (by unfold NoHeadWaits; decide +kernel)), by decide +kernel⟩,
   ⟨3, (jobOf 3 false [11]), (onHif (fun x => { x with jobs := [(jobOf 3 false [11])] }) (dev .sender [])), (inHand_of (by unfold NoHeadWaits; decide +kernel)), by decide +kernel⟩⟩

/-- Witness of `Obligations.EndOfInterruptPopsTheStack`. -/
theorem test_w_EndOfInterruptPopsTheStack :
    (∃ (path : Access) (n : Fin 4) (s : Machine.State), (reaches s path = true) ∧ (addrOn s.strap.role (R.EVC_TEOI ↑n) = true) ∧ (Alone s) ∧ (s.on F.WT_PAIR_ALIGNED = false)) :=
  ⟨.bar0, 2, (dev .sender []), by unfold Alone NoHeadWaits; decide +kernel⟩

/-- Witness of `Obligations.TargetsAndDramChannels`. -/
theorem test_w_TargetsAndDramChannels :
    (∃ (n : Fin 512) (s : Machine.State) (q : Nat), (blockOn s.strap.role (srcBlock ↑n) = true) ∧ (s.on (F.EVC_SRC_EN ↑n) = true) ∧ (s.isCarriage = false) ∧ (↑n < 504) ∧ (srcReserved ↑n = false) ∧ ((s.hsrc ↑n).st = SrcPhase.idle) ∧ (roomFor s (s.rd (F.EVC_SRC_TGT ↑n)) = some q)) ∧
    (∃ (n : Fin 512) (s : Machine.State), (blockOn s.strap.role (srcBlock ↑n) = true) ∧ (s.on (F.EVC_SRC_EN ↑n) = true) ∧ (s.isCarriage = false) ∧ (↑n < 504) ∧ (srcReserved ↑n = false) ∧ ((s.hsrc ↑n).st ≠ SrcPhase.idle)) ∧
    (∃ (n : Fin 512) (s : Machine.State), (srcReserved ↑n = true ∨ blockOn s.strap.role (srcBlock ↑n) = false)) ∧
    (∃ (n : Fin 512) (s : Machine.State), (blockOn s.strap.role (srcBlock ↑n) = true) ∧ (s.on (F.EVC_SRC_EN ↑n) = true) ∧ (s.isCarriage = true) ∧ (↑n < 504) ∧ (srcReserved ↑n = false) ∧ (↑n ≠ 191) ∧ (NoTrain s) ∧ (s.on F.CL_MYPOS_VALID = true) ∧ (s.obs.entering = []) ∧ ((s.usrc ↑n).st = SrcPhase.idle) ∧ (outqFree s 5 = true)) ∧
    (∃ (n : Fin 512) (s : Machine.State), (blockOn s.strap.role (srcBlock ↑n) = true) ∧ (s.on (F.EVC_SRC_EN ↑n) = true) ∧ (s.isCarriage = true) ∧ (↑n < 504) ∧ (srcReserved ↑n = false) ∧ (↑n ≠ 191) ∧ (NoTrain s) ∧ (s.on F.CL_MYPOS_VALID = true) ∧ (s.obs.entering = []) ∧ ((s.usrc ↑n).st ≠ SrcPhase.idle) ∧ (0 < (s.usrc ↑n).cnt) ∧ ((s.usrc ↑n).cnt ≤ 255)) ∧
    (∃ (path : Access) (n : Fin 4) (w : Word) (k : Nat) (r : Record) (s : Machine.State), (reaches s path = true) ∧ (addrOn s.strap.role (R.EVC_TCONS ↑n) = true) ∧ (Alone s) ∧ (tgtEn s ↑n = true) ∧ (releaseCount s (↑n) (BitVec.toNat w % 4096) = some (k + 1)) ∧ ((List.take (k + 1) (s.tgt ↑n).queue).getLast? = some r) ∧ ((s.tgt ↑n).stack.length < 8)) ∧
    (∃ (path : Access) (n : Fin 4) (w : Word) (s : Machine.State), (reaches s path = true) ∧ (addrOn s.strap.role (R.EVC_TCONS ↑n) = true) ∧ (Alone s) ∧ (tgtEn s ↑n = false ∨ releaseCount s (↑n) (BitVec.toNat w % 4096) = none)) ∧
    (∃ (path : Access) (n : Fin 4) (s : Machine.State), (reaches s path = true) ∧ (addrOn s.strap.role (R.EVC_TCTL ↑n) = true) ∧ (Alone s) ∧ (tgtEn s ↑n = false)) ∧
    (∃ (path : Access) (n : Fin 4) (s : Machine.State), (reaches s path = true) ∧ (addrOn s.strap.role (R.EVC_TCTL ↑n) = true) ∧ (Alone s) ∧ (tgtEn s ↑n = true)) ∧
    (∃ (path : Access) (n : Fin 4) (s : Machine.State), (reaches s path = true) ∧ (addrOn s.strap.role (R.EVC_TCTL ↑n) = true) ∧ (Alone s)) ∧
    (∃ (path : Access) (c : Fin 2) (s : Machine.State), (reaches s path = true) ∧ (addrOn s.strap.role (R.MC_CTL ↑c) = true) ∧ (Alone s) ∧ (s.on (F.MC_CTL_EN ↑c) = true)) ∧
    (∃ (path : Access) (c : Fin 2) (s : Machine.State), (reaches s path = true) ∧ (addrOn s.strap.role (R.MC_CTL ↑c) = true) ∧ (Alone s) ∧ (s.on (F.MC_CTL_EN ↑c) = false) ∧ (s.rd (F.MC_DEV_RATE ↑c) = 7)) ∧
    (∃ (path : Access) (c : Fin 2) (s : Machine.State), (reaches s path = true) ∧ (addrOn s.strap.role (R.MC_CTL ↑c) = true) ∧ (Alone s) ∧ (s.on (F.MC_CTL_EN ↑c) = false) ∧ (s.rd (F.MC_DEV_RATE ↑c) ≠ 7) ∧ (c ≠ 0 ∨ s.isSender = false ∨ s.reg (R.MC_DEV 0) = s.reg (R.MC_DEV 1))) ∧
    (∃ (path : Access) (c : Fin 2) (s : Machine.State), (reaches s path = true) ∧ (addrOn s.strap.role (R.MC_CTL ↑c) = true) ∧ (Alone s) ∧ (s.on (F.MC_CTL_EN ↑c) = true) ∧ (mcState s ↑c = 2)) ∧
    (∃ (path : Access) (c : Fin 2) (s : Machine.State), (reaches s path = true) ∧ (addrOn s.strap.role (R.MC_CTL ↑c) = true) ∧ (Alone s) ∧ (mcState s ↑c ≠ 2)) ∧
    (∃ (c : Fin 2) (s : Machine.State), (mcState s ↑c = 1)) ∧
    (∃ (c : Fin 2) (s : Machine.State), (mcState s ↑c = 1)) ∧
    (∃ (c : Fin 2) (s : Machine.State), (mcState s ↑c = 4)) ∧
    (∃ (c : Fin 2) (s : Machine.State), (mcState s ↑c = 4)) ∧
    (∃ (c : Fin 2) (s : Machine.State), (mcState s ↑c ≠ 1) ∧ (mcState s ↑c ≠ 4)) ∧
    (∃ (c : Fin 2) (s : Machine.State), (mcState s ↑c ≠ 2)) ∧
    (∃ (c : Fin 2) (s : Machine.State), (mcState s ↑c = 2) ∧ (s.on (F.MC_CTL_COMPAT_REF ↑c) = false)) ∧
    (∃ (c : Fin 2) (s : Machine.State), (mcState s ↑c = 2) ∧ (s.on (F.MC_CTL_COMPAT_REF ↑c) = true) ∧ (s.rd (F.MC_REF_OWED ↑c) < 8)) ∧
    (∃ (c : Fin 2) (s : Machine.State), (mcState s ↑c = 2) ∧ (s.on (F.MC_CTL_COMPAT_REF ↑c) = true) ∧ (s.rd (F.MC_REF_OWED ↑c) = 8)) ∧
    (∃ (c : Fin 2) (s : Machine.State), (s.rd (F.MC_PWR_SR_IDLE ↑c) = 0 ∨ mcState s ↑c ≠ 2)) ∧
    (∃ (c : Fin 2) (s : Machine.State), (s.rd (F.MC_PWR_SR_IDLE ↑c) ≠ 0) ∧ (mcState s ↑c = 2)) ∧
    (∃ (c : Fin 2) (s : Machine.State), (mcState s ↑c = 3)) ∧
    (∃ (c : Fin 2) (s : Machine.State), (mcState s ↑c ≠ 3)) ∧
    (∃ (c : Fin 2) (s : Machine.State), (mcState s ↑c = 2) ∧ (s.rd (F.MC_RECAL_RECAL_INT ↑c) ≠ 0)) ∧
    (∃ (c : Fin 2) (s : Machine.State), (mcState s ↑c = 2) ∧ (s.rd (F.MC_RECAL_RECAL_INT ↑c) ≠ 0)) ∧
    (∃ (c : Fin 2) (s : Machine.State), (mcState s ↑c ≠ 2 ∨ s.rd (F.MC_RECAL_RECAL_INT ↑c) = 0)) ∧
    (∃ (c : Fin 2) (s : Machine.State), (s.on (F.MC_CTL_SCRUB_EN ↑c) = false ∨ mcState s ↑c ≠ 2)) ∧
    (∃ (c : Fin 2) (s : Machine.State), (s.on (F.MC_CTL_SCRUB_EN ↑c) = true) ∧ (mcState s ↑c = 2)) ∧
    (∃ (path : Access) (c : Fin 2) (s : Machine.State), (reaches s path = true) ∧ (addrOn s.strap.role (R.MC_FREQ ↑c) = true) ∧ (Alone s)) ∧
    (∃ (c : Fin 2) (s : Machine.State), (s.on (F.MC_FREQ_BUSY ↑c) = true)) ∧
    (∃ (c : Fin 2) (s : Machine.State), (s.on (F.MC_FREQ_BUSY ↑c) = false)) ∧
    (∃ (c : Fin 2) (s : Machine.State), (s.on (F.MC_CTL_CAPAR_EN ↑c) = false)) ∧
    (∃ (c : Fin 2) (s : Machine.State), (s.on (F.MC_CTL_CAPAR_EN ↑c) = true)) :=
  ⟨⟨20, (dev .sender [(F.EVC_TCTL_EN 0, 1), (F.EVC_SRC_EN 20, 1)]), 0, by decide +kernel⟩,
   ⟨20, (onEvc (fun x => { x with src := [(20, { Source.init with st := .queued })] }) (dev .sender [(F.EVC_SRC_EN 20, 1)])), by decide +kernel⟩,
   ⟨5, (dev .sender []), by decide +kernel⟩,
   ⟨320, (dev .carriage [(F.EVC_SRC_EN 320, 1), (F.CL_MYPOS_VALID, 1)]), by unfold NoTrain; decide +kernel⟩,
   ⟨320, (onEvc (fun x => { x with up := [(320, { Source.init with st := .queued, cnt := 1 })] }) (dev .carriage [(F.EVC_SRC_EN 320, 1), (F.CL_MYPOS_VALID, 1)])), by unfold NoTrain; decide +kernel⟩,
   ⟨.bar0, 0, 1, 0, ⟨5, 0, 0, false, false, 1, 0, 0, []⟩, (onEvc (fun x => { x with tgt := [(0, { Target.init with prod := 1, queue := [⟨5, 0, 0, false, false, 1, 0, 0, []⟩] })] }) (dev .sender [(F.EVC_TCTL_EN 0, 1)])), by unfold Alone NoHeadWaits; decide +kernel⟩,
   ⟨.bar0, 0, 0, (dev .sender []), by unfold Alone NoHeadWaits; decide +kernel⟩,
   ⟨.bar0, 0, (dev .sender []), by unfold Alone NoHeadWaits; decide +kernel⟩,
   ⟨.bar0, 0, (dev .sender [(F.EVC_TCTL_EN 0, 1)]), by unfold Alone NoHeadWaits; decide +kernel⟩,
   ⟨.bar0, 0, (dev .sender []), by unfold Alone NoHeadWaits; decide +kernel⟩,
   ⟨.bar0, 0, (dev .sender [(F.MC_CTL_EN 0, 1)]), by unfold Alone NoHeadWaits; decide +kernel⟩,
   ⟨.bar0, 0, (dev .sender [(F.MC_DEV_RATE 0, 7)]), by unfold Alone NoHeadWaits; decide +kernel⟩,
   ⟨.bar0, 1, (dev .sender [(F.MC_DEV_RATE 1, 0)]), by unfold Alone NoHeadWaits; decide +kernel⟩,
   ⟨.bar0, 0, (dev .sender [(F.MC_CTL_EN 0, 1), (F.MC_STAT_STATE 0, 2)]), by unfold Alone NoHeadWaits; decide +kernel⟩,
   ⟨.bar0, 0, (dev .sender []), by unfold Alone NoHeadWaits; decide +kernel⟩,
   ⟨0, (dev .sender [(F.MC_STAT_STATE 0, 1)]), by decide +kernel⟩,
   ⟨0, (dev .sender [(F.MC_STAT_STATE 0, 1)]), by decide +kernel⟩,
   ⟨0, (dev .sender [(F.MC_STAT_STATE 0, 4)]), by decide +kernel⟩,
   ⟨0, (dev .sender [(F.MC_STAT_STATE 0, 4)]), by decide +kernel⟩,
   ⟨0, (dev .sender []), by decide +kernel⟩,
   ⟨0, (dev .sender []), by decide +kernel⟩,
   ⟨0, (dev .sender [(F.MC_STAT_STATE 0, 2), (F.MC_CTL_COMPAT_REF 0, 0)]), by decide +kernel⟩,
   ⟨0, (dev .sender [(F.MC_STAT_STATE 0, 2), (F.MC_CTL_COMPAT_REF 0, 1)]), by decide +kernel⟩,
   ⟨0, (dev .sender [(F.MC_STAT_STATE 0, 2), (F.MC_CTL_COMPAT_REF 0, 1), (F.MC_REF_OWED 0, 8)]), by decide +kernel⟩,
   ⟨0, (dev .sender []), by decide +kernel⟩,
   ⟨0, (dev .sender [(F.MC_STAT_STATE 0, 2), (F.MC_PWR_SR_IDLE 0, 3)]), by decide +kernel⟩,
   ⟨0, (dev .sender [(F.MC_STAT_STATE 0, 3)]), by decide +kernel⟩,
   ⟨0, (dev .sender []), by decide +kernel⟩,
   ⟨0, (dev .sender [(F.MC_STAT_STATE 0, 2), (F.MC_RECAL_RECAL_INT 0, 3)]), by decide +kernel⟩,
   ⟨0, (dev .sender [(F.MC_STAT_STATE 0, 2), (F.MC_RECAL_RECAL_INT 0, 3)]), by decide +kernel⟩,
   ⟨0, (dev .sender []), by decide +kernel⟩,
   ⟨0, (dev .sender []), by decide +kernel⟩,
   ⟨0, (dev .sender [(F.MC_STAT_STATE 0, 2), (F.MC_CTL_SCRUB_EN 0, 1)]), by decide +kernel⟩,
   ⟨.bar0, 0, (dev .sender []), by unfold Alone NoHeadWaits; decide +kernel⟩,
   ⟨0, (dev .sender [(F.MC_FREQ_BUSY 0, 1)]), by decide +kernel⟩,
   ⟨0, (dev .sender []), by decide +kernel⟩,
   ⟨0, (dev .sender [(F.MC_CTL_CAPAR_EN 0, 0)]), by decide +kernel⟩,
   ⟨0, (dev .sender [(F.MC_CTL_CAPAR_EN 0, 1)]), by decide +kernel⟩⟩

/-- Witness of `Obligations.RoundsAndUpdateSessions`. -/
theorem test_w_RoundsAndUpdateSessions :
    (∃ (s : Machine.State), (s.sys.low = 0) ∧ (s.mode ≠ mSentry)) ∧
    (∃ (s : Machine.State), (s.sys.low ≠ 0 ∨ s.mode = mSentry)) ∧
    (∃ (s : Machine.State), (s.hk.restart = false) ∧ (linkCheck s = s)) ∧
    (∃ (s : Machine.State), (s.upd.verifying = none)) ∧
    (∃ (s : Machine.State), (s.upd.verifying = none)) ∧
    (∃ (s : Machine.State), (s.upd.entries = [])) ∧
    (∃ (s : Machine.State), (s.upd.entries = [])) ∧
    (∃ (s : Machine.State), ((s.upd.session <|> s.upd.verifying).bind nextFlashOp = none)) ∧
    (∃ (s : Machine.State), ((s.upd.session <|> s.upd.verifying).bind nextFlashOp = none)) ∧
    (∃ (s : Machine.State), (s.hk.running = false) ∧ (linkCheck s = s)) ∧
    (∃ (c : Instr) (k : Nat) (s : Machine.State), (s.ring.ready = [] ∨ ∃ x l, s.ring.ready = x :: l ∧ (x.pkt.type ≠ 8 ∨ beAt x.pkt.data 0 1 ≠ k)) ∧ ((c, k) ∈ [(Instr.updateOpen, 1), (Instr.updateData, 2), (Instr.updateClose, 3), (Instr.updateAbort, 4), (Instr.updateQuery, 5)])) ∧
    (∃ (c : Instr) (k : Nat) (s : Machine.State) (x : Ready) (l : List Ready), ((c, k) ∈ [(Instr.updateOpen, 1), (Instr.updateData, 2), (Instr.updateClose, 3), (Instr.updateAbort, 4), (Instr.updateQuery, 5)]) ∧ (s.ring.ready = x :: l) ∧ (x.pkt.type = 8) ∧ (beAt x.pkt.data 0 1 = k) ∧ (s.on F.CL_MYPOS_VALID = true) ∧ (NoTrain s)) ∧
    (∃ (s : Machine.State), (s.hk.running = true)) ∧
    (∃ (s : Machine.State), (s.hk.restart = true)) ∧
    (∃ (x : Ready) (l : List Ready) (s : Machine.State), (s.ring.ready = x :: l) ∧ (x.pkt.type = 8) ∧ (beAt x.pkt.data 0 1 = 1) ∧ (s.upd.session = none) ∧ (s.upd.verifying = none) ∧ (beAt x.pkt.data 8 1 ≤ 1) ∧ (beAt x.pkt.data 12 4 ≠ 0) ∧ (beAt x.pkt.data 12 4 % 8 = 0) ∧ (beAt x.pkt.data 12 4 ≤ 50331648) ∧ (beAt x.pkt.data 8 1 ≠ s.rd F.UPD_STAT_RUNNING) ∧ (stagedActivate s (beAt x.pkt.data 8 1) = false)) ∧
    (∃ (x : Ready) (l : List Ready) (s : Machine.State) (y : Session), (s.ring.ready = x :: l) ∧ (x.pkt.type = 8) ∧ (beAt x.pkt.data 0 1 = 2) ∧ (s.upd.session = some y) ∧ (y.vodan = false) ∧ (y.number = beAt x.pkt.data 1 1) ∧ (y.fail = none) ∧ (y.last ≠ some (beAt x.pkt.data 2 4, (List.drop 8 x.pkt.data).length)) ∧ (beAt x.pkt.data 2 4 = y.next) ∧ (8 ≤ (List.drop 8 x.pkt.data).length) ∧ ((List.drop 8 x.pkt.data).length ≤ 8184) ∧ (y.next + (List.drop 8 x.pkt.data).length ≤ y.total) ∧ (y.buffer.length + (List.drop 8 x.pkt.data).length ≤ 65536)) ∧
    (∃ (x : Ready) (l : List Ready) (s : Machine.State) (y : Session), (s.ring.ready = x :: l) ∧ (x.pkt.type = 8) ∧ (beAt x.pkt.data 0 1 = 3) ∧ (s.upd.session = some y) ∧ (y.vodan = false) ∧ (y.number = beAt x.pkt.data 1 1) ∧ (y.fail = none) ∧ (y.next = y.total)) ∧
    (∃ (x : Ready) (l : List Ready) (s : Machine.State) (y : Session), (s.ring.ready = x :: l) ∧ (x.pkt.type = 8) ∧ (beAt x.pkt.data 0 1 = 4) ∧ (s.upd.session = some y) ∧ (y.vodan = false) ∧ (y.number = beAt x.pkt.data 1 1)) ∧
    (∃ (x : Ready) (l : List Ready) (s : Machine.State), (s.ring.ready = x :: l) ∧ (x.pkt.type = 8) ∧ (beAt x.pkt.data 0 1 = 5)) ∧
    (∃ (u : UpPkt) (l : List UpPkt) (q : Request) (j : Job) (s : Machine.State), (NoHeadWaits s) ∧ (s.ring.upReady = u :: l) ∧ (u.pkt.type = 8) ∧ (s.hif.reqs = [q]) ∧ (q.ring = u.ring) ∧ (q.route = BitVec.toNat u.pkt.route) ∧ (s.job q.job = some j) ∧ (j.ring < 16) ∧ (j.type = 11) ∧ (leAt j.bytes 16 1 = beAt u.pkt.data 9 1) ∧ (leAt j.bytes 17 1 = beAt u.pkt.data 1 1)) ∧
    (∃ (y : Session) (s : Machine.State), (s.upd.session = some y)) ∧
    (∃ (s : Machine.State), (s.upd.session = none)) ∧
    (∃ (y : Session) (er : Bool) (a : Nat) (n : Nat) (s : Machine.State), (s.upd.session = some y) ∧ (y.slot ≤ 1) ∧ (nextFlashOp y = some (er, a, n))) ∧
    (∃ (y : Session) (er : Bool) (a : Nat) (n : Nat) (s : Machine.State), (s.upd.session = some y) ∧ (y.slot ≤ 1) ∧ (nextFlashOp y = some (er, a, n))) ∧
    (∃ (y : Session) (s : Machine.State), (s.upd.session = none) ∧ (s.upd.verifying = some y) ∧ ((nextFlashOp y).isSome = true)) ∧
    (∃ (y : Session) (s : Machine.State), (s.upd.verifying = some y)) ∧
    (∃ (k : Nat) (m : Nat) (l : List (Nat × Nat)) (s : Machine.State), (s.upd.entries = (k, m) :: l)) ∧
    (∃ (path : Access) (s : Machine.State), (reaches s path = true) ∧ (addrOn s.strap.role R.UPD_ACT = true)) :=
  ⟨⟨(dev .sender []), by decide +kernel⟩,
   ⟨(onSys (fun x => { x with low := 1 }) (dev .sender [])), by decide +kernel⟩,
   ⟨(onHk (fun x => { x with restart := false }) (dev .sender [])), by decide +kernel⟩,
   ⟨(onUpd (fun x => { x with verifying := none }) (dev .sender [])), by decide +kernel⟩,
   ⟨(onUpd (fun x => { x with verifying := none }) (dev .sender [])), by decide +kernel⟩,
   ⟨(onUpd (fun x => { x with entries := [] }) (dev .sender [])), by decide +kernel⟩,
   ⟨(onUpd (fun x => { x with entries := [] }) (dev .sender [])), by decide +kernel⟩,
   ⟨(dev .sender []), by decide +kernel⟩,
   ⟨(dev .sender []), by decide +kernel⟩,
   ⟨(onHk (fun x => { x with running := false }) (dev .sender [])), by decide +kernel⟩,
   ⟨.updateData, 2, (dev .carriage []), (Or.inl rfl), by decide +kernel⟩,
   ⟨.updateQuery, 5, (onRing (fun x => { x with ready := [⟨raw 0x80#8 0x3F000000#32 [5, 1, 0, 0, 0, 0, 0, 0], false⟩] }) (dev .carriage [(F.CL_MYPOS_VALID, 1)])), ⟨raw 0x80#8 0x3F000000#32 [5, 1, 0, 0, 0, 0, 0, 0], false⟩, [], by unfold NoTrain; decide +kernel⟩,
   ⟨(onHk (fun x => { x with running := true }) (dev .sender [])), by decide +kernel⟩,
   ⟨(onHk (fun x => { x with restart := true }) (dev .sender [])), by decide +kernel⟩,
   ⟨⟨raw 0x80#8 0x3F000000#32 [1, 1, 0, 0, 0, 0, 0, 0, 1, 0, 0, 0, 0, 0, 16, 0], false⟩, [], (onRing (fun x => { x with ready := [⟨raw 0x80#8 0x3F000000#32 [1, 1, 0, 0, 0, 0, 0, 0, 1, 0, 0, 0, 0, 0, 16, 0], false⟩] }) (dev .carriage [])), by decide +kernel⟩,
   ⟨⟨raw 0x80#8 0x3F000000#32 ([2, 1, 0, 0, 0, 0, 0, 1] ++ List.replicate 8 0), false⟩, [], (onRing (fun x => { x with ready := [⟨raw 0x80#8 0x3F000000#32 ([2, 1, 0, 0, 0, 0, 0, 1] ++ List.replicate 8 0), false⟩] }) (onUpd (fun x => { x with session := some { vodan := false, number := 1, slot := 1, total := 4096, next := 0, last := none, erased := 0, fail := none, buffer := [] } }) (dev .carriage []))), { vodan := false, number := 1, slot := 1, total := 4096, next := 0, last := none, erased := 0, fail := none, buffer := [] }, by decide +kernel⟩,
   ⟨⟨raw 0x80#8 0x3F000000#32 [3, 1, 0, 0, 0, 0, 0, 0], false⟩, [], (onRing (fun x => { x with ready := [⟨raw 0x80#8 0x3F000000#32 [3, 1, 0, 0, 0, 0, 0, 0], false⟩] }) (onUpd (fun x => { x with session := some { vodan := false, number := 1, slot := 1, total := 4096, next := 4096, last := none, erased := 0, fail := none, buffer := [] } }) (dev .carriage []))), { vodan := false, number := 1, slot := 1, total := 4096, next := 4096, last := none, erased := 0, fail := none, buffer := [] }, by decide +kernel⟩,
   ⟨⟨raw 0x80#8 0x3F000000#32 [4, 1, 0, 0, 0, 0, 0, 0], false⟩, [], (onRing (fun x => { x with ready := [⟨raw 0x80#8 0x3F000000#32 [4, 1, 0, 0, 0, 0, 0, 0], false⟩] }) (onUpd (fun x => { x with session := some { vodan := false, number := 1, slot := 1, total := 4096, next := 0, last := none, erased := 0, fail := none, buffer := [] } }) (dev .carriage []))), { vodan := false, number := 1, slot := 1, total := 4096, next := 0, last := none, erased := 0, fail := none, buffer := [] }, by decide +kernel⟩,
   ⟨⟨raw 0x80#8 0x3F000000#32 [5, 1, 0, 0, 0, 0, 0, 0], false⟩, [], (onRing (fun x => { x with ready := [⟨raw 0x80#8 0x3F000000#32 [5, 1, 0, 0, 0, 0, 0, 0], false⟩] }) (dev .carriage [])), by decide +kernel⟩,
   ⟨⟨0, raw 0x88#8 0#32 [1, 1, 0, 0, 0, 0, 0, 0, 0, 4, 0, 0, 0, 0, 0, 0]⟩, [], ⟨1, 0, 0, 0, 0, none⟩, (jobOf 3 true ([11] ++ List.replicate 15 0 ++ [4, 1])), (onHif (fun x => { x with reqs := [⟨1, 0, 0, 0, 0, none⟩], jobs := [(jobOf 3 true ([11] ++ List.replicate 15 0 ++ [4, 1]))] }) (onRing (fun x => { x with upReady := [⟨0, raw 0x88#8 0#32 [1, 1, 0, 0, 0, 0, 0, 0, 0, 4, 0, 0, 0, 0, 0, 0]⟩] }) (feeder []))), by unfold NoHeadWaits; decide +kernel⟩,
   ⟨{ vodan := false, number := 1, slot := 1, total := 4096, next := 0, last := none, erased := 0, fail := none, buffer := [] }, (onUpd (fun x => { x with session := some { vodan := false, number := 1, slot := 1, total := 4096, next := 0, last := none, erased := 0, fail := none, buffer := [] } }) (dev .carriage [])), by decide +kernel⟩,
   ⟨(dev .carriage []), by decide +kernel⟩,
   ⟨{ vodan := false, number := 1, slot := 1, total := 4096, next := 8, last := none, erased := 0, fail := none, buffer := [1,2,3,4,5,6,7,8] }, true, 0x5000000, 65536, (onUpd (fun x => { x with session := some { vodan := false, number := 1, slot := 1, total := 4096, next := 8, last := none, erased := 0, fail := none, buffer := [1,2,3,4,5,6,7,8] } }) (dev .carriage [])), by decide +kernel⟩,
   ⟨{ vodan := false, number := 1, slot := 1, total := 4096, next := 8, last := none, erased := 0, fail := none, buffer := [1,2,3,4,5,6,7,8] }, true, 0x5000000, 65536, (onUpd (fun x => { x with session := some { vodan := false, number := 1, slot := 1, total := 4096, next := 8, last := none, erased := 0, fail := none, buffer := [1,2,3,4,5,6,7,8] } }) (dev .carriage [])), by decide +kernel⟩,
   ⟨{ vodan := false, number := 1, slot := 0, total := 8, next := 8, last := none, erased := 65536, fail := none, buffer := [1, 2, 3, 4, 5, 6, 7, 8] }, (onUpd (fun x => { x with verifying := some { vodan := false, number := 1, slot := 0, total := 8, next := 8, last := none, erased := 65536, fail := none, buffer := [1, 2, 3, 4, 5, 6, 7, 8] } }) (dev .carriage [])), by decide +kernel⟩,
   ⟨{ vodan := false, number := 1, slot := 1, total := 4096, next := 8, last := none, erased := 0, fail := none, buffer := [1,2,3,4,5,6,7,8] }, (onUpd (fun x => { x with verifying := some { vodan := false, number := 1, slot := 1, total := 4096, next := 8, last := none, erased := 0, fail := none, buffer := [1,2,3,4,5,6,7,8] } }) (dev .carriage [])), by decide +kernel⟩,
   ⟨0, 7, [], (onUpd (fun x => { x with entries := [(0, 7)] }) (dev .carriage [])), by decide +kernel⟩,
   ⟨.bar0, (dev .sender []), by decide +kernel⟩⟩

/-- Witness of `Obligations.ToolsTraceAndTestPort`. -/
theorem test_w_ToolsTraceAndTestPort :
    (∃ (a : BitVec 25) (w : Word) (n : Byte) (d : List Byte) (b : Bool) (c : Bool → Instr), ((c = fun k => Instr.vodanRead k a n) ∨ (c = fun k => Instr.vodanWrite k a w) ∨ (c = fun k => Instr.vodanOpen k n w n) ∨ (c = fun k => Instr.vodanData k w d) ∨ (c = fun k => Instr.vodanClose k) ∨ (c = fun k => Instr.vodanAbort k b) ∨ c = fun k => Instr.vodanQuery k)) ∧
    (∃ (a : BitVec 25) (w : Word) (n : Byte) (d : List Byte) (b : Bool) (c : Bool → Instr) (s : Machine.State), ((c = fun k => Instr.vodanRead k a n) ∨ (c = fun k => Instr.vodanWrite k a w) ∨ (c = fun k => Instr.vodanOpen k n w n) ∨ (c = fun k => Instr.vodanData k w d) ∨ (c = fun k => Instr.vodanClose k) ∨ (c = fun k => Instr.vodanAbort k b) ∨ c = fun k => Instr.vodanQuery k) ∧ (coreRuns s = false)) ∧
    (∃ (s : Machine.State), (s.sys.low ≠ 1) ∧ (s.mode ≠ mSentry ∨ s.on F.PWR_WAKE_SVC = false)) ∧
    (∃ (a : BitVec 25) (s : Machine.State), (coreRuns s = true) ∧ (a.toNat / 65536 = 17) ∧ (a.toNat % 4 = 0) ∧ (Table.get 0 s.latch (pathIdx Path.vodan * 33554432 + a.toNat) = 0)) ∧
    (∃ (s : Machine.State), (coreRuns s = true)) ∧
    (∃ (k : Byte) (n : Byte) (w : Word) (d : List Byte) (b : Bool) (s : Machine.State) (c : Instr), (c ∈ [Instr.vodanOpen true k w n, Instr.vodanData true w d, Instr.vodanClose true, Instr.vodanAbort true b, Instr.vodanQuery true]) ∧ (coreRuns s = true) ∧ (s.on F.UPD_STAT_SVC_PRESENT = false)) ∧
    (∃ (s : Machine.State), (coreRuns s = true) ∧ (s.on F.UPD_STAT_SVC_PRESENT = true)) ∧
    (∃ (s : Machine.State), (coreRuns s = true) ∧ (s.on F.UPD_STAT_SVC_PRESENT = true)) ∧
    (∃ (s : Machine.State), (coreRuns s = true) ∧ (s.on F.UPD_STAT_SVC_PRESENT = true)) ∧
    (∃ (s : Machine.State), (coreRuns s = true) ∧ (s.on F.UPD_STAT_SVC_PRESENT = true)) ∧
    (∃ (a : BitVec 25) (r : RegSpec) (s : Machine.State), (coreRuns s = true) ∧ (a.toNat / 65536 = 17) ∧ (a.toNat % 4 = 0) ∧ (findReg a.toNat = some r)) ∧
    (∃ (a : BitVec 25) (s : Machine.State), (coreRuns s = true) ∧ (vodanMayWrite a.toNat = false)) ∧
    (∃ (s : Machine.State) (k : Byte) (w : Word), (coreRuns s = true) ∧ (s.on F.UPD_STAT_SVC_PRESENT = true) ∧ (s.upd.session = none) ∧ (s.upd.verifying = none) ∧ (BitVec.toNat k ≤ 1) ∧ (BitVec.toNat w ≠ 0) ∧ (BitVec.toNat w % 8 = 0) ∧ (BitVec.toNat w ≤ 50331648) ∧ (BitVec.toNat k ≠ s.rd F.UPD_STAT_RUNNING) ∧ (stagedActivate s (BitVec.toNat k) = false)) ∧
    (∃ (s : Machine.State) (y : Session) (d : List Byte), (coreRuns s = true) ∧ (s.on F.UPD_STAT_SVC_PRESENT = true) ∧ (s.upd.session = some y) ∧ (y.vodan = true) ∧ (y.fail = none) ∧ (y.last ≠ some (y.next, d.length)) ∧ (8 ≤ d.length) ∧ (d.length ≤ 8184) ∧ (y.next + d.length ≤ y.total) ∧ (y.buffer.length + d.length ≤ 65536) ∧ (y.next < 2 ^ 32)) ∧
    (∃ (s : Machine.State) (y : Session), (coreRuns s = true) ∧ (s.on F.UPD_STAT_SVC_PRESENT = true) ∧ (s.upd.session = some y) ∧ (y.vodan = true) ∧ (y.fail = none) ∧ (y.next = y.total)) ∧
    (∃ (s : Machine.State) (y : Session), (coreRuns s = true) ∧ (s.on F.UPD_STAT_SVC_PRESENT = true) ∧ (s.upd.session = some y) ∧ (y.vodan = true)) ∧
    (∃ (s : Machine.State) (y : Session), (coreRuns s = true) ∧ (s.on F.UPD_STAT_SVC_PRESENT = true) ∧ (s.upd.session = some y) ∧ (y.vodan = false)) ∧
    (∃ (s : Machine.State) (y : Session), (coreRuns s = true) ∧ (s.on F.UPD_STAT_SVC_PRESENT = true) ∧ (s.upd.session = some y) ∧ (y.vodan = false)) ∧
    (∃ (s : Machine.State), (coreRuns s = true) ∧ (s.on F.UPD_STAT_SVC_PRESENT = true)) ∧
    (∃ (s : Machine.State), (s.upd.reply = [])) ∧
    (∃ (s : Machine.State), (s.upd.reply ≠ [])) ∧
    (∃ (path : Access) (s : Machine.State), (reaches s path = true) ∧ (addrOn s.strap.role R.OBS_TCTL = true) ∧ (Alone s) ∧ (s.on F.WT_PAIR_ALIGNED = false) ∧ (s.obs.entering = [])) ∧
    (∃ (path : Access) (s : Machine.State), (reaches s path = true) ∧ (addrOn s.strap.role R.OBS_TCTL = true) ∧ (Alone s) ∧ (s.on F.WT_PAIR_ALIGNED = false) ∧ (s.obs.entering = [])) :=
  ⟨⟨0, 0, 0, [], false, (fun k => Instr.vodanQuery k), (Or.inr (Or.inr (Or.inr (Or.inr (Or.inr (Or.inr rfl))))))⟩,
   ⟨0, 0, 0, [], false, (fun k => Instr.vodanQuery k), (dev .carriage []), (Or.inr (Or.inr (Or.inr (Or.inr (Or.inr (Or.inr rfl)))))), by decide +kernel⟩,
   ⟨(dev .carriage []), by decide +kernel⟩,
   ⟨0x110000, (dev .carriage [(F.CKG_STAT_LOCK, 1)]), by decide +kernel⟩,
   ⟨(dev .carriage [(F.CKG_STAT_LOCK, 1)]), by decide +kernel⟩,
   ⟨0, 0, 0, [], false, (dev .carriage [(F.CKG_STAT_LOCK, 1)]), (.vodanClose true), (by simp), by decide +kernel⟩,
   ⟨(dev .carriage [(F.CKG_STAT_LOCK, 1), (F.UPD_STAT_SVC_PRESENT, 1)]), by decide +kernel⟩,
   ⟨(dev .carriage [(F.CKG_STAT_LOCK, 1), (F.UPD_STAT_SVC_PRESENT, 1)]), by decide +kernel⟩,
   ⟨(dev .carriage [(F.CKG_STAT_LOCK, 1), (F.UPD_STAT_SVC_PRESENT, 1)]), by decide +kernel⟩,
   ⟨(dev .carriage [(F.CKG_STAT_LOCK, 1), (F.UPD_STAT_SVC_PRESENT, 1)]), by decide +kernel⟩,
   ⟨0x110000, (specOf 0x110000), (dev .carriage [(F.CKG_STAT_LOCK, 1)]), by decide +kernel⟩,
   ⟨0x50000, (dev .carriage [(F.CKG_STAT_LOCK, 1)]), by decide +kernel⟩,
   ⟨(dev .carriage [(F.CKG_STAT_LOCK, 1), (F.UPD_STAT_SVC_PRESENT, 1)]), 1, 4096, by decide +kernel⟩,
   ⟨(onUpd (fun x => { x with session := some { vodan := true, number := 1, slot := 1, total := 4096, next := 0, last := none, erased := 0, fail := none, buffer := [] } }) (dev .carriage [(F.CKG_STAT_LOCK, 1), (F.UPD_STAT_SVC_PRESENT, 1)])), { vodan := true, number := 1, slot := 1, total := 4096, next := 0, last := none, erased := 0, fail := none, buffer := [] }, [1,2,3,4,5,6,7,8], by decide +kernel⟩,
   ⟨(onUpd (fun x => { x with session := some { vodan := true, number := 1, slot := 1, total := 4096, next := 4096, last := none, erased := 0, fail := none, buffer := [] } }) (dev .carriage [(F.CKG_STAT_LOCK, 1), (F.UPD_STAT_SVC_PRESENT, 1)])), { vodan := true, number := 1, slot := 1, total := 4096, next := 4096, last := none, erased := 0, fail := none, buffer := [] }, by decide +kernel⟩,
   ⟨(onUpd (fun x => { x with session := some { vodan := true, number := 1, slot := 1, total := 4096, next := 0, last := none, erased := 0, fail := none, buffer := [] } }) (dev .carriage [(F.CKG_STAT_LOCK, 1), (F.UPD_STAT_SVC_PRESENT, 1)])), { vodan := true, number := 1, slot := 1, total := 4096, next := 0, last := none, erased := 0, fail := none, buffer := [] }, by decide +kernel⟩,
   ⟨(onUpd (fun x => { x with session := some { vodan := false, number := 1, slot := 1, total := 4096, next := 0, last := none, erased := 0, fail := none, buffer := [] } }) (dev .carriage [(F.CKG_STAT_LOCK, 1), (F.UPD_STAT_SVC_PRESENT, 1)])), { vodan := false, number := 1, slot := 1, total := 4096, next := 0, last := none, erased := 0, fail := none, buffer := [] }, by decide +kernel⟩,
   ⟨(onUpd (fun x => { x with session := some { vodan := false, number := 1, slot := 1, total := 4096, next := 0, last := none, erased := 0, fail := none, buffer := [] } }) (dev .carriage [(F.CKG_STAT_LOCK, 1), (F.UPD_STAT_SVC_PRESENT, 1)])), { vodan := false, number := 1, slot := 1, total := 4096, next := 0, last := none, erased := 0, fail := none, buffer := [] }, by decide +kernel⟩,
   ⟨(dev .carriage [(F.CKG_STAT_LOCK, 1), (F.UPD_STAT_SVC_PRESENT, 1)]), by decide +kernel⟩,
   ⟨(onUpd (fun x => { x with reply := [] }) (dev .sender [])), by decide +kernel⟩,
   ⟨(onUpd (fun x => { x with reply := [1] }) (dev .carriage [])), by decide +kernel⟩,
   ⟨.bar0, (dev .standalone []), by unfold Alone NoHeadWaits; decide +kernel⟩,
   ⟨.bar0, (dev .standalone []), by unfold Alone NoHeadWaits; decide +kernel⟩⟩

end Sys2Proof.Tests
end

section
/-! PROOF. The four kinds of command, and what each leaves of the straps and the queue (00_scope.md: O3, O5); one field of the register
file (O10). -/
namespace Sys2Proof.Machine

/-- The four kinds of command of Machine/Command.lean, by the outcome `o` of command `c`: PORST_N_RELEASE alone samples straps. -/
inductive CommandKind (c : Instr) (s : State) (o : Host.Outcome State Fault Refusal) : Prop where
  | ordinary (f : State → State) (run : o = ordinary f s)
  | flashing (f : State → State) (run : o = flashing f s)
  | poweredDown (run : o = powering porstLow s)
  | released (role dly : BitVec 2) (row : c = .porstNRelease role dly)
      (run : o = powering (fun s => porstHigh s role.toNat dly.toNat) s)
  | tapping (f : State → Tap) (run : o = tapping f s)

/-- Every command is of one of the four kinds: each arm of `exec` is one call of `ordinary` but for those named here. -/
theorem commandKind (c : Instr) (s : State) : CommandKind c s (exec c s) := by
  unfold exec
  cases c with
  | porstNAssert => exact .poweredDown rfl
  | supplyMonitorLow => exact .poweredDown rfl
  | porstNRelease role dly => exact .released role dly rfl rfl
  | updateBlock => exact .flashing _ rfl
  | imageLoad => exact .flashing _ rfl
  | updateOpen => exact .flashing _ rfl
  | verifyDone => exact .flashing _ rfl
  | flashWriteDone => exact .flashing _ rfl
  | actEntryProgrammed => exact .flashing _ rfl
  | vodanOpen => exact .flashing _ rfl
  | tapBypass => exact .tapping _ rfl
  | tapIdcode => exact .tapping _ rfl
  | tapSamplePreload => exact .tapping _ rfl
  | tapExtest => exact .tapping _ rfl
  | tapClamp => exact .tapping _ rfl
  | tapHighz => exact .tapping _ rfl
  | _ => exact .ordinary _ rfl

/-- A release of PORST_N samples ROLE and XO_DLY and keeps the rest of the straps (R1). -/
@[simp] theorem porstHigh_strap (s : State) (role dly : Nat) :
    (porstHigh s role dly).strap = { s.strap with role := Role.ofCode role, xoDly := dly } := by
  unfold porstHigh
  split <;> rfl

/-- Every command answers a next state that keeps the queue, the identity and the trim code, and all the straps unless it releases PORST_N. -/
theorem exec_keeps (c : Instr) (s : State) :
    ∃ t, exec c s = .next t ∧ t.pending = s.pending ∧ (t.strap = s.strap ∨ ∃ r d, c = .porstNRelease r d) ∧
      t.strap.uid = s.strap.uid ∧ t.strap.trim = s.strap.trim := by
  cases commandKind c s with
  | ordinary f run => exact ⟨_, run, rfl, .inl rfl, rfl, rfl⟩
  | flashing f run => exact ⟨_, run, rfl, .inl rfl, rfl, rfl⟩
  | poweredDown run => exact ⟨_, run, rfl, .inl rfl, rfl, rfl⟩
  | released role dly row run =>
    have straps : (settle s (porstHigh s role.toNat dly.toNat)).strap = _ := porstHigh_strap s role.toNat dly.toNat
    refine ⟨_, run, rfl, .inr ⟨role, dly, row⟩, ?_, ?_⟩ <;> simp only [straps]
  | tapping f run => exact ⟨_, run, rfl, .inl rfl, rfl, rfl⟩


/-- Settles O3: every row is of one of the four kinds, and each kind answers a next state with the queue it found. -/
theorem everyCommandCompletes : Obligations.EveryCommandCompletes := by
  have runs : ∀ (c : Instr) (s : State), Runs c s fun t => t.pending = s.pending := fun c s => by
    obtain ⟨t, run, queue, -⟩ := exec_keeps c s
    exact ⟨t, run, queue⟩
  refine ⟨fun s => ?_, runs⟩
  unfold step
  cases s.pending with
  | nil => exact ⟨_, rfl⟩
  | cons c l =>
    obtain ⟨t, run, -⟩ := runs c { s with pending := l }
    exact ⟨t, run⟩

/-- Settles O5: the front command keeps the straps by its kind, and a wall tick is an ordinary command. -/
theorem roleFixedUntilPorst : Obligations.RoleFixedUntilPorst := by
  intro s t h
  unfold step at h
  cases hq : s.pending with
  | nil =>
    simp only [hq, idle, ordinary, Host.Outcome.next.injEq] at h
    subst h
    exact ⟨.inl rfl, rfl, rfl⟩
  | cons c l =>
    simp only [hq] at h
    obtain ⟨u, run, -, strap, uid, trim⟩ := exec_keeps c { s with pending := l }
    obtain rfl : u = t := by simpa [run] using h
    refine ⟨strap.imp id ?_, uid, trim⟩
    rintro ⟨r, d, rfl⟩
    exact ⟨r, d, l, rfl⟩

/-- Settles O10: the register file's read after write of one field and its frame (R5, R7). -/
theorem registerReadsWhatWasWritten : Obligations.RegisterReadsWhatWasWritten := by
  intro s f g v hf _
  refine ⟨s.rd_wr_same f v hf, fun h => ?_⟩
  by_cases ha : g.addr = f.addr
  · exact s.rd_wr_other f g v ha hf (h.resolve_left (absurd ha))
  · exact s.rd_wr_ne f g v ha

end Sys2Proof.Machine
end

section
/-! PROOF. Reset: the state after reset (O8, O9), and what a release of PORST_N brings about (O12). -/
namespace Sys2Proof.Machine

/-- A register that nothing has written reads its reset word. -/
theorem State.reg_of_regs_nil {s : State} (h : s.regs = []) (a : Nat) : s.reg a = (resetWord s.strap a).toNat := by
  simp only [State.reg, h, Table.get]

/-- No role, identity or trim changes the reset word of SYS_MSTAT: BYPASS with cause 0 (R371). -/
theorem resetWord_SYS_MSTAT (st : Strap) : resetWord st R.SYS_MSTAT = 0#32 := rfl


/-- Settles O8: nothing is listed, waits or was sent at reset. -/
theorem resetIsCanonical : Obligations.ResetIsCanonical :=
  ⟨rfl, rfl, rfl, rfl, rfl⟩

/-- Settles O9: the register file of `State.reset` is empty, so that every field reads its Reset column. -/
theorem resetLeavesEveryRegisterAtItsReset : Obligations.ResetLeavesEveryRegisterAtItsReset := by
  refine ⟨State.reg_of_regs_nil rfl, ?_, ?_, ?_, ?_, rfl, ?_⟩
  · decide
  · decide
  · decide
  · decide
  · decide

end Sys2Proof.Machine
end

section
/-! PROOF. A release of PORST_N (O12): the device as every field at its reset value leaves it, start-up or cause 9h (R1, R357, R374). -/
namespace Sys2Proof.Machine

/-- A field written with the value it holds leaves its word as it stands. -/
theorem setBits_bits_self (x lo w : Nat) : setBits x lo w (bits x lo w) = x := by
  refine Nat.eq_of_testBit_eq fun i => ?_
  rw [testBit_setBits, testBit_bits]
  split
  · rfl
  · split
    · have : i - lo < w := by omega
      simp [this, show lo + (i - lo) = i by omega]
    · rfl

/-- A field written with the value it holds leaves every register as it reads. -/
theorem State.reg_wr_self (s : State) (f : FRef) (a : Nat) : (s.wr f (s.rd f)).reg a = s.reg a := by
  by_cases ha : a = f.addr
  · subst ha
    rw [State.wr, State.rd, setBits_bits_self, State.reg_setReg_same, Nat.mod_eq_of_lt (s.reg_lt _)]
  · exact s.reg_wr_ne f _ ha

/-- XO_OK resets to 0: ROLE, XO_DLY and STRAP_ERR fill the bits of SYS_STRAP below it (R9). -/
theorem rd_XO_OK_of_regs_nil {s : State} (h : s.regs = []) : s.rd F.SYS_STRAP_XO_OK = 0 := by
  have word : resetWord s.strap R.SYS_STRAP =
      BitVec.ofNat 32 (s.strap.role.code + 4 * (s.strap.xoDly % 4) + 16 * b2n (s.strap.role == .reserved)) := rfl
  rw [State.rd, State.reg_of_regs_nil h, word, BitVec.toNat_ofNat, bits, Nat.shiftRight_eq_div_pow]
  generalize s.strap.role = role
  cases role <;> simp [Role.code, b2n] <;> omega

/-- Start-up on an empty register file writes XO_OK as it resets, so that every register keeps its reset word (R374, R357). -/
theorem startUp_reg {s : State} (h : s.regs = []) (cause a : Nat) : (startUp s cause).reg a = (resetWord s.strap a).toNat := by
  have unchanged : s.rd F.SYS_STRAP_XO_OK &&& s.rd F.CKG_STAT_XO_OK = s.rd F.SYS_STRAP_XO_OK := by
    rw [rd_XO_OK_of_regs_nil h, Nat.zero_and]
  calc (startUp s cause).reg a = (s.wr F.SYS_STRAP_XO_OK (s.rd F.SYS_STRAP_XO_OK &&& s.rd F.CKG_STAT_XO_OK)).reg a := rfl
    _ = s.reg a := by rw [unchanged, s.reg_wr_self]
    _ = (resetWord s.strap a).toNat := State.reg_of_regs_nil h a

/-- A field of SYS_MSTAT reads 0 where the register holds its reset word. -/
theorem rd_SYS_MSTAT_of_reset {s : State} (h : s.reg R.SYS_MSTAT = (resetWord s.strap R.SYS_MSTAT).toNat) (lo w : Nat) :
    s.rd ⟨R.SYS_MSTAT, lo, w⟩ = 0 := by
  simp only [State.rd, h, resetWord_SYS_MSTAT]
  simp [bits]

/-- A release of PORST_N with ROLE 11b: CAUSE 9, nothing starts (R374). -/
theorem porstHigh_reserved (s : State) (dly : Nat) :
    let t := porstHigh s 3 dly
    t.rd F.SYS_MSTAT_CAUSE = 9 ∧ t.sys.low = 3 ∧ t.sys.starting = none ∧ t.rd F.SYS_MSTAT_MODE = 0 ∧
      ∀ a, a ≠ R.SYS_MSTAT → t.reg a = (resetWord t.strap a).toNat := by
  let u := coldReset s { s.strap with role := Role.ofCode 3, xoDly := dly }
  have reset : ∀ a, u.reg a = (resetWord u.strap a).toNat := State.reg_of_regs_nil rfl
  refine ⟨u.rd_wr_same F.SYS_MSTAT_CAUSE 9 (by decide), rfl, rfl, ?_, fun a ha => ?_⟩
  · exact (u.rd_wr_other F.SYS_MSTAT_CAUSE F.SYS_MSTAT_MODE 9 rfl (by decide) (by decide)).trans (rd_SYS_MSTAT_of_reset (reset _) 0 3)
  · exact (u.reg_wr_ne F.SYS_MSTAT_CAUSE 9 ha).trans (reset a)

/-- A release of PORST_N in a defined role: start-up is under way with cause 0, every register at its reset word (R374, R357). -/
theorem porstHigh_defined (s : State) {role : Nat} (h : role ≠ 3) (dly : Nat) :
    let t := porstHigh s role dly
    t.rd F.SYS_MSTAT_CAUSE = 0 ∧ t.sys.low = 0 ∧ t.sys.starting = some 0 ∧ t.rd F.SYS_MSTAT_MODE = 0 ∧
      ∀ a, t.reg a = (resetWord t.strap a).toNat := by
  have starts : porstHigh s role dly = startUp (coldReset s { s.strap with role := Role.ofCode role, xoDly := dly }) 0 := if_neg h
  have reset : ∀ a, (porstHigh s role dly).reg a = (resetWord (porstHigh s role dly).strap a).toNat := by
    rw [starts]
    exact startUp_reg rfl 0
  exact ⟨rd_SYS_MSTAT_of_reset (reset _) 12 4, by rw [starts]; rfl, by rw [starts]; rfl, rd_SYS_MSTAT_of_reset (reset _) 0 3, reset⟩

/-- What PORST_N_RELEASE answers: the registers, straps and mode engine of its effect, the flash kept, and the test port as it rises. -/
theorem porstNRelease_runs (role dly : BitVec 2) (s : State) :
    ∃ t, exec (.porstNRelease role dly) s = .next t ∧ t.strap = (porstHigh s role.toNat dly.toNat).strap ∧
      t.regs = (porstHigh s role.toNat dly.toNat).regs ∧ t.sys = (porstHigh s role.toNat dly.toNat).sys ∧ t.upd.flash = s.upd.flash ∧
      t.tap = if (porstHigh s role.toNat dly.toNat).sys.low = 1 then s.tap else tapReleased s.tap :=
  ⟨_, rfl, rfl, rfl, rfl, rfl, rfl⟩


/-- Settles O12: the release's effect with ROLE 11b and in a defined role; the end of the command only reports. -/
theorem porstReleaseSamplesTheStraps : Obligations.PorstReleaseSamplesTheStraps := by
  intro role dly s
  obtain ⟨t, run, straps, regs, sys, flash, tap⟩ := porstNRelease_runs role dly s
  refine ⟨t, run, straps.trans (porstHigh_strap _ _ _), flash, ?_⟩
  simp only [State.rd_congr straps regs, State.reg_congr straps regs, tap, sys, straps]
  by_cases h : role = 3#2
  · subst h
    obtain ⟨cause, low, starting, mode, reg⟩ := porstHigh_reserved s dly.toNat
    exact ⟨if_neg (by simp [low]), fun _ => ⟨cause, low, starting⟩, absurd rfl, mode, reg⟩
  · have code : role.toNat ≠ 3 := fun e => h (BitVec.eq_of_toNat_eq e)
    obtain ⟨cause, low, starting, mode, reg⟩ := porstHigh_defined s code dly.toNat
    exact ⟨if_neg (by simp [low]), fun e => absurd e h, fun _ => ⟨cause, low, starting⟩, mode, fun a _ => reg a⟩

end Sys2Proof.Machine
end

section
/-! PROOF. What follows a write of a LANE register or of SYS_COMMIT (O37): ports fall back, the switch falls, transmit heads complete, a wake
starts. None of it holds or releases a commit, writes a lane's control words, or takes a position. -/
namespace Sys2Proof.Machine

/-- What the consequences of such a write leave alone: straps, held commits, every LANE register but LANE_STAT; and no position is taken. -/
structure AccessKeeps (s t : State) : Prop where
  strap : t.strap = s.strap
  commit : t.commit = s.commit
  lane : ∀ a, a / 65536 = 5 → a % 4096 ≠ 4 → t.reg a = s.reg a
  pos : t.on F.CL_MYPOS_VALID = true → s.on F.CL_MYPOS_VALID = true

/-- A change outside the straps, the register file and the held commits. -/
theorem AccessKeeps.of_regs {s t : State} (strap : t.strap = s.strap) (regs : t.regs = s.regs) (commit : t.commit = s.commit) : AccessKeeps s t where
  strap := strap
  commit := commit
  lane := fun a _ _ => State.reg_congr strap regs a
  pos := fun h => by simpa only [State.on, State.rd_congr strap regs] using h

theorem AccessKeeps.refl (s : State) : AccessKeeps s s := .of_regs rfl rfl rfl

theorem AccessKeeps.trans {s t u : State} (h : AccessKeeps s t) (g : AccessKeeps t u) : AccessKeeps s u where
  strap := g.strap.trans h.strap
  commit := g.commit.trans h.commit
  lane := fun a ha hs => (g.lane a ha hs).trans (h.lane a ha hs)
  pos := fun k => h.pos (g.pos k)

/-- A change of the mirror link or of what waits reaches neither LANE nor CL. -/
theorem AccessKeeps.of_link {s t : State} (h : LinkKeeps s t) : AccessKeeps s t where
  strap := h.strap
  commit := h.commit
  lane := fun a ha _ => h.reg a (by simp only [linkBlock, R.WT_PAIR]; omega)
  pos := fun k => by simpa only [State.on, State.rd, h.reg R.CL_MYPOS (by simp [linkBlock])] using k

/-- A field write outside CL_MYPOS and, in LANE, of LANE_STAT alone. -/
theorem AccessKeeps.wr (s : State) (f : FRef) (v : Nat) (lane : f.addr / 65536 = 5 → f.addr % 4096 = 4) (pos : f.addr ≠ R.CL_MYPOS) :
    AccessKeeps s (s.wr f v) where
  strap := rfl
  commit := rfl
  lane := fun a ha hs => s.reg_wr_ne f v (by rintro rfl; exact hs (lane ha))
  pos := fun k => by simpa only [State.on, s.rd_wr_ne f F.CL_MYPOS_VALID v pos.symm] using k

/-- A write of a LANE_STAT field. -/
theorem AccessKeeps.wr_laneStat (s : State) (n lo w v : Nat) : AccessKeeps s (s.wr ⟨R.LANE_STAT n, lo, w⟩ v) :=
  .wr s _ v (fun _ => by simp only [R.LANE_STAT]; omega) (by simp only [R.LANE_STAT, R.CL_MYPOS]; omega)

/-- A write of a field of another block than LANE and CL. -/
theorem AccessKeeps.wr_block (s : State) (f : FRef) (v : Nat) (h : f.addr / 65536 ≠ 5 ∧ f.addr / 65536 ≠ 6) : AccessKeeps s (s.wr f v) :=
  .wr s f v (fun k => absurd k h.1) (fun k => h.2 (by simp [k]))

theorem AccessKeeps.foldl {β : Type} {f : State → β → State} (hf : ∀ s x, AccessKeeps s (f s x)) (l : List β) (s : State) :
    AccessKeeps s (l.foldl f s) := by
  induction l generalizing s with
  | nil => exact .refl s
  | cons x r ih => exact (hf s x).trans (ih _)

theorem AccessKeeps.ite {c : Prop} [Decidable c] {s t u : State} (ht : AccessKeeps s t) (hu : AccessKeeps s u) :
    AccessKeeps s (if c then t else u) := by
  split
  · exact ht
  · exact hu

theorem raise_access (s : State) (n : Nat) (d : List Byte) : AccessKeeps s (raise s n d) := .of_link (raise_keeps s n d)

theorem setPst_access (s : State) (p v : Nat) : AccessKeeps s (s.setPst p v) :=
  .wr s _ v (fun k => by simp only [R.CL_PSTAT] at k; omega) (by simp only [R.CL_PSTAT, R.CL_MYPOS]; omega)

theorem modPort_access (s : State) (p : Nat) (f : Port → Port) : AccessKeeps s (s.modPort p f) := .of_regs rfl rfl rfl

/-- A LANE_STAT condition of every lane of a port. -/
theorem lanesWr_access (s : State) (p lo w v : Nat) : AccessKeeps s (lanesWr s p (fun n => ⟨R.LANE_STAT n, lo, w⟩) v) :=
  .foldl (fun s n => .wr_laneStat s n lo w v) _ s

/-! A port leaves its state (PortOps.lean). -/

theorem lossEffects_access (s : State) : AccessKeeps s (lossEffects s) := by
  unfold lossEffects
  extract_lets rp _ s1 ringDead _ s2
  have emptied : AccessKeeps s s1 := .ite (.refl s) (.of_regs rfl rfl rfl)
  have windows : AccessKeeps s s2 := emptied.trans (.of_regs rfl rfl rfl)
  refine .ite windows (windows.trans ⟨rfl, rfl, fun a ha _ => ?_, fun k => ?_⟩)
  · have other : a ≠ R.CL_MYPOS := by rintro rfl; simp at ha
    exact ((s2.wr F.CL_MYPOS_POS 63).reg_wr_ne F.CL_MYPOS_VALID 0 other).trans (s2.reg_wr_ne F.CL_MYPOS_POS 63 other)
  · have given : ((s2.wr F.CL_MYPOS_POS 63).wr F.CL_MYPOS_VALID 0).on F.CL_MYPOS_VALID = true := k
    rw [State.on, State.rd_wr_same _ _ _ (by decide)] at given
    simp at given

theorem startFiller_access (s : State) (p : Nat) : AccessKeeps s (startFiller s p) := by
  unfold startFiller
  split
  · exact .refl s
  · exact .ite (.of_regs rfl rfl rfl) (.of_regs rfl rfl rfl)

theorem leaveTo_access (s : State) (p st : Nat) : AccessKeeps s (leaveTo s p st) := by
  unfold leaveTo
  extract_lets up s0 s1 s2
  have left : AccessKeeps s s0 :=
    .ite (setPst_access s p st) (((setPst_access s p st).trans (lanesWr_access _ p _ _ 0)).trans (modPort_access _ p _))
  have down : AccessKeeps s1 (s1.bump (F.CL_PDOWN_DOWNS p) 1) :=
    .wr s1 _ _ (fun k => by simp only [R.CL_PDOWN] at k; omega) (by simp only [R.CL_PDOWN, R.CL_MYPOS]; omega)
  have filled : AccessKeeps s1 s2 := .ite ((down.trans (raise_access _ 177 _)).trans (startFiller_access _ p)) (.refl s1)
  exact ((left.trans (modPort_access s0 p _)).trans filled).trans (lossEffects_access s2)

theorem fallBack_access (s : State) (p st : Nat) : AccessKeeps s (fallBack s p st) :=
  .ite (leaveTo_access s p st) (lossEffects_access s)

/-! The lane PLL's reference and the by-pass switch. -/

theorem followDir_access (s : State) : AccessKeeps s (followDir s) :=
  .ite (.of_regs rfl rfl rfl) (.ite (.wr_block s _ _ (by decide)) (.of_regs rfl rfl rfl))

theorem coreFollow_access (s : State) : AccessKeeps s (coreFollow s) :=
  .ite ((AccessKeeps.wr_block s F.CKG_STAT_CORE_SRC 0 (by decide)).trans (.of_regs rfl rfl rfl)) (.refl s)

theorem clkUpdate_access (s : State) : AccessKeeps s (clkUpdate s) := by
  have moved : AccessKeeps s (raise (s.wr F.CL_CLKSRC_REF (pllRef s)) 181 (d2 (pllRef s) 0)) :=
    (AccessKeeps.wr s F.CL_CLKSRC_REF _ (by decide) (by decide)).trans (raise_access _ 181 _)
  exact .ite (followDir_access s) ((moved.trans (coreFollow_access _)).trans (followDir_access _))

theorem driveBypass_access (s : State) (level cause : Nat) : AccessKeeps s (driveBypass s level cause) :=
  ((AccessKeeps.wr s F.CL_BYP_BYP_STATE level (by decide) (by decide)).trans (.of_link (out_keeps _ _))).trans (raise_access _ 180 _)

theorem tryRise_access (s : State) : AccessKeeps s (tryRise s) :=
  .ite ((driveBypass_access s 1 0).trans (.foldl (fun s p => .ite (.refl s) (setPst_access s p 7)) _ _)) (.refl s)

theorem bypassFall_access (s : State) (cause : Nat) : AccessKeeps s (bypassFall s cause) :=
  .ite (.refl s) ((driveBypass_access s 0 cause).trans (.foldl (fun s p => .ite (.refl s) (leaveTo_access s p 7)) _ _))

theorem laneLost_access (s : State) : AccessKeeps s (laneLost s) := .ite (bypassFall_access s 2) (.refl s)

theorem blockSettled_access (s : State) (p : Nat) : AccessKeeps s (blockSettled s p) :=
  .ite (.refl s) (.ite (tryRise_access s) (.ite (setPst_access s p 4) (.refl s)))

/-! A lane loses a condition (ModeOps.lean), and what a write of a LANE register brings about there. -/

theorem laneClear_access (s : State) (n k : Nat) (owner : Option Nat) : AccessKeeps s (laneClear s n k owner) := by
  unfold laneClear
  extract_lets s1 s2 s3
  have signal : AccessKeeps s s1 := .ite (.wr_laneStat s n _ _ 0) (.refl s)
  have lock : AccessKeeps s1 s2 := .ite (.wr_laneStat s1 n _ _ 0) (.refl s1)
  have cleared : AccessKeeps s s3 := ((signal.trans lock).trans (.wr_laneStat s2 n _ _ 0)).trans (.wr_laneStat _ n _ _ 0)
  split
  · exact cleared.trans (lanesWr_access s3 _ _ _ 0)
  · exact cleared

theorem laneLoss_access (s : State) (n k : Nat) (cut : Option Bool) : AccessKeeps s (laneLoss s n k cut) := by
  have settled : ∀ t, AccessKeeps t (laneLost (clkUpdate t)) := fun t => (clkUpdate_access t).trans (laneLost_access _)
  unfold laneLoss
  split
  · rename_i p _
    refine .ite (.refl s) (.ite ((laneClear_access s n k _).trans (settled _)) ?_)
    exact ((((laneClear_access s n k _).trans (modPort_access _ p _)).trans (raise_access _ _ _)).trans (fallBack_access _ p k)).trans (settled _)
  · exact .ite ((laneClear_access s n k none).trans (raise_access _ _ _)) (.refl s)

theorem hiberDown_access (s : State) (n : Nat) : AccessKeeps s (hiberDown s n) := by
  unfold hiberDown
  split
  · exact .ite ((raise_access s _ _).trans (fallBack_access _ _ 3)) (.refl s)
  · exact .ite (raise_access s _ _) (.refl s)

theorem laneWrote_access (s : State) (a old : Nat) : AccessKeeps s (laneWrote s a old) := by
  have settled : ∀ p, AccessKeeps s (if hasBlock s p then blockSettled s p else s) := fun p => .ite (blockSettled_access s p) (.refl s)
  unfold laneWrote
  dsimp only
  split
  · exact .ite (laneLoss_access s _ 1 none) (.refl s)
  · refine .ite (.refl s) (.ite (((hiberDown_access s _).trans (clkUpdate_access _)).trans (laneLost_access _)) ?_)
    split
    · exact settled _
    · exact .refl s
  · exact .refl s

/-- A write of LANE_STAT brings nothing about on the lanes. -/
theorem laneWrote_laneStat (s : State) {a : Nat} (old : Nat) (h : a % 4096 = 4) : laneWrote s a old = s := by
  simp [laneWrote, h]

/-! What a network port and the transmit ring do then (NiOps.lean): what a change of the mirror link may do as well. -/

theorem LinkKeeps.ite {c : Prop} [Decidable c] {s t u : State} (ht : LinkKeeps s t) (hu : LinkKeeps s u) : LinkKeeps s (if c then t else u) := by
  split
  · exact ht
  · exact hu

theorem modNi_keeps (s : State) (f : Ni → Ni) : LinkKeeps s (s.modNi f) := .parts rfl

theorem niTell_keeps (s : State) : LinkKeeps s (niTell s) := by
  have told : ∀ (s : State) (n : Nat) (f : Ni → Ni), LinkKeeps s (((raise s n (d2 0 0)).reported n).modNi f) := fun s n f =>
    ((raise_keeps s n _).trans (reported_keeps _ n)).trans (modNi_keeps _ f)
  unfold niTell
  extract_lets s1
  have received : LinkKeeps s s1 := .ite (told s 256 _) (.refl s)
  exact .ite (received.trans (told s1 259 _)) received

theorem htxComplete_keeps (s : State) (d : List Byte) (status : Nat) : LinkKeeps s (htxComplete s d status) :=
  (((modNi_keeps s _).trans (.wr _ F.NI_HTX_HEAD_HEAD _ (by simp [linkBlock]))).trans (out_keeps _ _)).trans (niTell_keeps _)

theorem htxRun_keeps (n : Nat) (s : State) : LinkKeeps s (htxRun n s) := by
  induction n generalizing s with
  | zero => exact .refl s
  | succ n ih =>
    unfold htxRun
    split
    · exact .refl s
    · exact .ite (.refl s) (.ite ((htxComplete_keeps s _ 2).trans (ih _)) (.ite ((htxComplete_keeps s _ 1).trans (ih _)) (.refl s)))

theorem niJudge_keeps (old s : State) : LinkKeeps s (niJudge old s) := by
  refine .forIdx (fun s n => .ite ?_ (.refl s)) _ _
  exact ((LinkKeeps.wr s (F.NI_PSTAT_LINK n) 0 (by simp [linkBlock])).trans (.wr _ (F.NI_PSTAT_FEC_LOCK n) 0 (by simp [linkBlock]))).trans
    (raise_keeps _ 241 _)

end Sys2Proof.Machine
end

section
/-! PROOF. Commits and register accesses (O37): a write and a read as a path brings them (R7, R10, R115 to R118, R300). -/
namespace Sys2Proof.Machine

/-! The outcome of an access. -/

/-- What an ordinary command that keeps the straps and takes no position answers: the commits and registers of its effect, and what it sent. -/
theorem ordinary_shows (f : State → State) (s : State) (strap : (f s).strap = s.strap)
    (pos : (f s).on F.CL_MYPOS_VALID = true → s.on F.CL_MYPOS_VALID = true) :
    ∃ t, ordinary f s = .next t ∧ t.commit = (f s).commit ∧ t.regs = (f s).regs ∧ (∀ a, t.reg a = (f s).reg a) ∧ (f s).out <+: t.out := by
  refine ⟨_, rfl, ?_, ?_, ordinary_reg f s _ rfl strap pos, ordinary_out f s _ rfl pos⟩ <;>
  · rw [placed_eq s (f s) pos]
    rfl

/-- An access by a path that does not reach the device only lets the core clock end. -/
theorem ordinary_idle (f : State → State) (s : State) (h : f s = s) : ∃ t, ordinary f s = .next t ∧ Reports s t := by
  obtain ⟨t, run, rep⟩ := ordinary_runs f s (by rw [h]) (by rw [h]) (by rw [h]) (by rw [h]) (by rw [h]; exact id)
  exact ⟨t, run, h ▸ rep⟩

theorem regWrite_unreached {s : State} {p : Access} (h : reaches s p = false) (a w : Nat) : regWrite s p a w = s := by
  simp [regWrite, h]

theorem regRead_unreached {s : State} {p : Access} (h : reaches s p = false) (a be : Nat) : regRead s p a be = s := by
  simp [regRead, h]

/-! A write. -/

/-- The second look at what waits, and the rules of the pair, follow a write that reaches the device. -/
theorem regWrite_keeps {s : State} {p : Access} (h : reaches s p = true) (a w : Nat) :
    LinkKeeps (busWrite s (accessPath p) a w).1 (regWrite s p a w) := by
  simp only [regWrite, h, if_true]
  exact (retryHeads_keeps _).trans (linkCheck_keeps _)

/-- A dropped Q write is reported and counted (R118). -/
theorem qReject_access (s : State) (a : Nat) : AccessKeeps s (qReject s a) :=
  (raise_access s 0 _).trans (.wr_block _ _ _ (by decide))

/-- The word of an admitted write, and whether the change of a Q field was dropped: SYS_COMMIT, or a register by its access and apply class. -/
def putAdmitted (s : State) (a w : Nat) : State × Bool :=
  if a = R.SYS_COMMIT then (if bitAt w 0 then (commitWrite s, false) else (s, false)) else putWord s a w false

/-- A write outside the picture blocks that no pair rule drops (R276, R292): the word, its report, and its copy to the partner. -/
theorem busWrite_admitted {s : State} {p : Access} {a : Nat} (w : Nat) (on : addrOn s.strap.role a = true) (aligned : a % 4 = 0)
    (drop : p = .packet ∨ mirrored a = false ∨ hostDrop s = none) (picture : pictureAddr a = false) :
    LinkKeeps (if (putAdmitted s a w).2 then qReject (putAdmitted s a w).1 a else (putAdmitted s a w).1) (busWrite s (accessPath p) a w).1 := by
  have admitted : (hostPath (accessPath p) && mirrored a && (hostDrop s).isSome) = false := by
    rcases drop with rfl | h | h
    · rfl
    · simp [h]
    · simp [h]
  have window : isWindow a = false := by simp_all [pictureAddr]
  have notNow : (accessPath p == .xa || accessPath p == .preload) = false := by cases p <;> rfl
  have notXa : (accessPath p != .xa) = true := by cases p <;> rfl
  unfold busWrite
  simp only [on, aligned, admitted, busTouch, picture, window, notNow, notXa, Bool.and_true, Bool.and_false, Bool.not_true, Bool.or_self,
    bne_self_eq_false, Bool.false_eq_true, if_false]
  exact .ite (mirrorSend_keeps _ _ _ _ _) (.refl _)

/-! SYS_COMMIT. -/

theorem judgeLayer_keeps (s : State) (r l : Nat) (own : Bool) : LinkKeeps s (judgeLayer s r l own) := by
  have shown : LinkKeeps s (s.wr (F.CMP_LSTAT_BAD r l) (layerCode s r l)) := .wr s _ _ (by simp [linkBlock])
  exact .ite (shown.trans (raise_keeps _ 282 _)) shown

theorem judgeTaken_keeps (s : State) : LinkKeeps s (judgeTaken s) :=
  (modCmp_keeps s _).trans (.forIdx (fun s r => .ite (.forIdx (fun s l => judgeLayer_keeps s r l _) 16 s) (.refl s)) 8 _)

theorem askSr_keeps (s : State) (c : Nat) (yes : Bool) : LinkKeeps s (askSr s c yes) :=
  .ite ((setDch_keeps s c _).trans (enterSr_keeps _ c)) ((setDch_keeps s c _).trans (exitSr_keeps _ c))

theorem modPix_access (s : State) (f : Pix → Pix) : AccessKeeps s (s.modPix f) := .of_regs rfl rfl rfl

theorem pixWake_access (s : State) (cause : Nat) : AccessKeeps s (pixWake s cause) := by
  unfold pixWake
  split
  · exact .refl s
  · extract_lets s1 s2
    have woken : AccessKeeps s s1 :=
      ((AccessKeeps.wr_block s F.PIX_QSTAT_STATE 2 (by decide)).trans (.wr_block _ F.PIX_QSTAT_CAUSE cause (by decide))).trans (.of_link (askSr_keeps _ 0 false))
    have counted : AccessKeeps s1 (s2.wr F.PIX_QSTAT_STEADY 0) :=
      (AccessKeeps.wr_block s1 F.SYS_MSTAT_QUIET 0 (by decide)).trans (.wr_block _ F.PIX_QSTAT_STEADY 0 (by decide))
    exact ((woken.trans counted).trans (modPix_access _ _)).trans (raise_access _ 328 _)

/-- SYS_COMMIT while a set is closed is refused (R117). -/
theorem commitWrite_closed {s : State} (h : s.commit.closed ≠ []) : commitWrite s = raise (s.wr F.SYS_CSTAT_REFUSED 1) 1 [] := by
  have closed : (!s.commit.closed.isEmpty) = true := by simpa using h
  simp only [commitWrite, closed, if_true]

/-- A fold that keeps the state and every element keeps the list. -/
theorem foldl_keepsAll {f : State × List SWrite → SWrite → State × List SWrite} {s : State} (l done : List SWrite)
    (h : ∀ x ∈ l, ∀ d, f (s, d) x = (s, d ++ [x])) : l.foldl f (s, done) = (s, done ++ l) := by
  induction l generalizing done with
  | nil => simp
  | cons x l ih => rw [List.foldl_cons, h x (by simp), ih _ fun y hy => h y (by simp [hy])]; simp

/-- Held writes of which none is the RATE of a sender's ring stay in the set (R135). -/
theorem splitRate_eq (s : State) (l : List SWrite) (h : s.isSender = false ∨ ∀ x ∈ l, x.addr / 65536 ≠ 7) : splitRate s l = (s, l) := by
  refine foldl_keepsAll l [] fun x hx d => if_neg ?_
  rcases h with h | h
  · simp [h]
  · simp [h x hx]

/-- A write that is tied to no ring is none of WT (R97). -/
theorem tiedRing_none {a : Nat} (h : tiedRing a = none) : a / 65536 ≠ 7 := by
  rintro e
  simp [tiedRing, e] at h

/-- The open set is closed at this time (R116). -/
def openClosed (s : State) : State := { s with commit := { opened := [], closed := s.commit.opened, closedAt := s.now } }

/-- Nothing to take over: the layers that a takeover marked are judged. -/
theorem takeOver_nil_keeps (s : State) : LinkKeeps s (takeOver s []) := judgeTaken_keeps s

/-- SYS_COMMIT where every held write has a fence to wait for closes the open set at this time (R116). -/
theorem commitWrite_waits {s : State} (h : s.commit.closed = []) (split : splitRate s s.commit.opened = (s, s.commit.opened))
    (fence : ∀ x ∈ s.commit.opened, hasFence s x.addr = true)
    (main : (follows s && folState s != 0) = true ∨ ((refGen s).isSome && !(follows s)) = true) :
    AccessKeeps (openClosed s) (commitWrite s) := by
  have closed : (!s.commit.closed.isEmpty) = false := by simp [h]
  have wait : s.commit.opened.filter (fun x => hasFence s x.addr) = s.commit.opened := List.filter_eq_self.2 fence
  have now_ : s.commit.opened.filter (fun x => !(hasFence s x.addr)) = [] := List.filter_eq_nil_iff.2 fun x hx => by simp [fence x hx]
  have taken : AccessKeeps (openClosed s)
      (takeOver (if s.commit.opened.any picturePart then pixWake (openClosed s) 3 else openClosed s) []) :=
    (AccessKeeps.ite (pixWake_access _ 3) (.refl _)).trans (.of_link (takeOver_nil_keeps _))
  unfold commitWrite
  simp only [closed, split, wait, now_]
  refine AccessKeeps.trans ?_ (.of_link (autoStart_keeps 8 _))
  split
  · exact taken
  · split
    · exact taken
    · rename_i noFollow noRef
      exact absurd main (not_or_intro noFollow noRef)

/-! REGISTER_WRITE of LANE and CHK. -/

/-- The open set that a write joins depends on the set alone. -/
theorem openWrite_commit {s t : State} (h : t.commit = s.commit) (a m v : Nat) : (openWrite t a m v).commit = (openWrite s a m v).commit := by
  unfold openWrite
  split
  · exact h
  · simp only [h]

theorem openWrite_strap (s : State) (a m v : Nat) : (openWrite s a m v).strap = s.strap := by
  unfold openWrite
  split <;> rfl

theorem openWrite_regs (s : State) (a m v : Nat) : (openWrite s a m v).regs = s.regs := by
  unfold openWrite
  split <;> rfl

/-- What follows a write of a LANE register holds no commit, takes no position and leaves the word written. -/
theorem wrote_lane_access (s : State) {a : Nat} (old acts : Nat) (h : a / 65536 = 5) :
    AccessKeeps s (wrote s a old acts) ∧ (wrote s a old acts).reg a = s.reg a := by
  have follows : wrote s a old acts = htxRun 4096 (niJudge (s.setReg a old) (laneWrote s a old)) := by simp only [wrote, clWrote, h, if_true]
  have net : LinkKeeps (laneWrote s a old) (wrote s a old acts) := by
    rw [follows]
    exact (niJudge_keeps _ _).trans (htxRun_keeps _ _)
  have all : AccessKeeps s (wrote s a old acts) := (laneWrote_access s a old).trans (.of_link net)
  refine ⟨all, ?_⟩
  by_cases stat : a % 4096 = 4
  · rw [net.reg a (by simp only [linkBlock, R.WT_PAIR]; omega), laneWrote_laneStat s old stat]
  · exact all.lane a h stat

/-- Nothing follows a write of a CHK register until its S fields are taken over. -/
theorem wrote_chk (s : State) {a : Nat} (old acts : Nat) (h : a / 65536 = 14) : wrote s a old acts = s := by
  simp only [wrote, h]

/-- No register of LANE or CHK narrows the word it admits. -/
theorem admittedWord_lane_chk (s : State) {a : Nat} (w : Nat) (h : a / 65536 = 5 ∨ a / 65536 = 14) : admittedWord s a w = w := by
  rcases h with h | h <;> simp only [admittedWord, h]

/-- What a word of a register does by its access and apply class: S fields wait for a commit (R10, R115, R118). -/
def busEffect (s : State) (a : Nat) (r : RegSpec) (w : Nat) : WordEffect := wordEffect r (s.reg a) w (!(blockDisabled s a)) false

/-- The device with a word's live fields in place and its S fields in the open set. -/
def written (s : State) (a : Nat) (e : WordEffect) : State := openWrite (s.setReg a e.live) a e.smask e.sval

theorem written_commit (s : State) (a : Nat) (e : WordEffect) : (written s a e).commit = (openWrite s a e.smask e.sval).commit :=
  openWrite_commit (s := s) (t := s.setReg a e.live) rfl a e.smask e.sval

theorem written_strap (s : State) (a : Nat) (e : WordEffect) : (written s a e).strap = s.strap := openWrite_strap _ a e.smask e.sval

theorem written_reg (s : State) (a : Nat) (e : WordEffect) (b : Nat) : (written s a e).reg b = (s.setReg a e.live).reg b :=
  State.reg_congr (openWrite_strap _ a e.smask e.sval) (openWrite_regs _ a e.smask e.sval) b

/-- A word of LANE or CHK: live fields at once, S fields into the open set; what follows leaves both, and the word of a LANE register. -/
theorem putWord_lane_chk (s : State) {a : Nat} {r : RegSpec} (w : Nat) (found : findReg a = some r) (h : a / 65536 = 5 ∨ a / 65536 = 14) :
    AccessKeeps (written s a (busEffect s a r w)) (putWord s a w false).1 ∧
      (a / 65536 = 5 → (putWord s a w false).1.reg a = (busEffect s a r w).live % 2 ^ 32) := by
  have noTile : a / 65536 ≠ 11 := by omega
  have noBank : a ≠ R.PIX_BANK := by rintro rfl; simp at h
  have put : ∃ acts, (putWord s a w false).1 = wrote (written s a (busEffect s a r w)) a (s.reg a) acts :=
    ⟨if r.fields.any (fun f => f.app == .s) then 0 else (busEffect s a r w).acts, by
      unfold putWord
      simp only [found, admittedWord_lane_chk s w h, noTile, noBank, decide_false, Bool.false_and, Bool.false_eq_true, if_false]
      rfl⟩
  obtain ⟨acts, put⟩ := put
  rw [put]
  rcases h with h | h
  · obtain ⟨keeps, word⟩ := wrote_lane_access (written s a (busEffect s a r w)) (s.reg a) acts h
    exact ⟨keeps, fun _ => by rw [word, written_reg, State.reg_setReg_same]⟩
  · rw [wrote_chk _ _ _ h]
    exact ⟨.refl _, fun k => by omega⟩

/-- The report of a dropped Q write reaches no register but SYS_CSTAT (R118). -/
theorem qReject_reg (s : State) (a : Nat) {b : Nat} (h : b ≠ R.SYS_CSTAT) : (qReject s a).reg b = s.reg b :=
  (State.reg_wr_ne _ F.SYS_CSTAT_QREJ_CNT _ h).trans ((raise_reports s 0 _).reg b)

/-- A LANE or CHK register as a command writes it. -/
theorem regWrite_lane_chk {s : State} {p : Access} {a : Nat} {r : RegSpec} (w : Nat) (reach : reaches s p = true)
    (on : addrOn s.strap.role a = true) (aligned : a % 4 = 0) (drop : p = .packet ∨ mirrored a = false ∨ hostDrop s = none)
    (found : findReg a = some r) (h : a / 65536 = 5 ∨ a / 65536 = 14) :
    AccessKeeps (written s a (busEffect s a r w)) (regWrite s p a w) ∧
      (a / 65536 = 5 → (regWrite s p a w).reg a = (busEffect s a r w).live % 2 ^ 32) := by
  have picture : pictureAddr a = false := by
    simp only [pictureAddr, isWindow, Bool.or_eq_false_iff, Bool.and_eq_false_iff, decide_eq_false_iff_not]
    omega
  have put : putAdmitted s a w = putWord s a w false := if_neg (by rintro rfl; simp at h)
  have bus : LinkKeeps _ (regWrite s p a w) := (busWrite_admitted w on aligned drop picture).trans (regWrite_keeps reach a w)
  rw [put] at bus
  obtain ⟨keeps, word⟩ := putWord_lane_chk s w found h
  refine ⟨(keeps.trans (.ite (qReject_access _ a) (.refl _))).trans (.of_link bus), fun lane => ?_⟩
  rw [bus.reg a (by simp only [linkBlock, R.WT_PAIR]; omega), ← word lane]
  split
  · exact qReject_reg _ a (by rintro rfl; simp at lane)
  · rfl

/-! REGISTER_READ. -/

/-- Words that a read latches for its path change the latch alone. -/
theorem latched_eq (s : State) (l : List Nat) (key val : Nat → Nat) :
    ∃ m, l.foldl (fun t x => { t with latch := Table.set 0 t.latch (key x) (val x) }) s = { s with latch := m } := by
  induction l generalizing s with
  | nil => exact ⟨_, rfl⟩
  | cons x l ih => exact ih { s with latch := Table.set 0 s.latch (key x) (val x) }

/-- CL_MYPOS has no field that a read clears. -/
theorem clearRc_CL_MYPOS (s : State) : clearRc s R.CL_MYPOS = s := by
  have none_ : ∀ r, findReg R.CL_MYPOS = some r → r.fields.any (fun f => f.acc == .rc) = false := by
    have : (findReg R.CL_MYPOS).all (fun r => !(r.fields.any fun f => f.acc == .rc)) = true := by decide
    intro r hr
    simpa [hr] using this
  unfold clearRc
  rw [if_neg (by decide), if_neg (by decide)]
  cases hr : findReg R.CL_MYPOS with
  | none => rfl
  | some r => simp only [none_ r hr, Bool.false_eq_true, if_false]

/-- A read that clears what it clears keeps the straps, the queue of what was sent, and a device without a position (R7). -/
theorem clearRc_frame (s : State) (a : Nat) : (clearRc s a).strap = s.strap ∧ (clearRc s a).out = s.out ∧
    (clearRc s a).reg R.CL_MYPOS = s.reg R.CL_MYPOS := by
  by_cases h : a = R.CL_MYPOS
  · rw [h, clearRc_CL_MYPOS]
    exact ⟨rfl, rfl, rfl⟩
  · unfold clearRc
    split
    · exact ⟨rfl, rfl, rfl⟩
    · split
      · exact ⟨rfl, rfl, rfl⟩
      · split
        · exact ⟨rfl, rfl, rfl⟩
        · split
          · exact ⟨rfl, rfl, s.reg_setReg_ne _ (Ne.symm h)⟩
          · exact ⟨rfl, rfl, rfl⟩

/-- The word that a path's latch holds of an address, one more than it; 0 where it holds none (R419). -/
def heldWord (s : State) (p : Access) (a : Nat) : Nat := Table.get 0 s.latch (pathIdx (accessPath p) * 0x2000000 + a)

/-- The word that a read of a register answers: the latched one if one is held, else what the register shows (R7, R419). -/
def answered (s : State) (p : Access) (a : Nat) : Nat := if heldWord s p a = 0 then shows s a else heldWord s p a - 1

/-- A read of a register keeps the straps, what was sent and a device without a position, and changes no register unless it clears what a
read clears (R7, R300). -/
theorem busRead_register {s : State} {p : Access} {a : Nat} (full : Bool) (on : addrOn s.strap.role a = true) (aligned : a % 4 = 0)
    (register : isWindow a = false) :
    ∃ u, busRead s (accessPath p) a full = (u, answered s p a) ∧ u.strap = s.strap ∧ u.out = s.out ∧
      u.reg R.CL_MYPOS = s.reg R.CL_MYPOS ∧ (full = false → u.regs = s.regs) := by
  obtain ⟨m, latched⟩ := latched_eq s (latchesOf a) (fun x => pathIdx (accessPath p) * 0x2000000 + x) fun x => content s x + 1
  have read : busRead s (accessPath p) a full =
      if heldWord s p a = 0 then (if full then clearRc { s with latch := m } a else { s with latch := m }, shows s a)
      else ({ s with latch := Table.set 0 m (pathIdx (accessPath p) * 0x2000000 + a) 0 }, heldWord s p a - 1) := by
    unfold busRead
    simp only [on, aligned, register, content, bne_self_eq_false, Bool.not_true, Bool.or_self, Bool.false_and, Bool.false_eq_true, if_false] at latched ⊢
    rw [latched]
    rfl
  by_cases held : heldWord s p a = 0
  · refine ⟨if full then clearRc { s with latch := m } a else { s with latch := m }, by rw [read, answered, if_pos held, if_pos held], ?_⟩
    cases full with
    | false => exact ⟨rfl, rfl, rfl, fun _ => rfl⟩
    | true =>
      obtain ⟨strap, out, pos⟩ := clearRc_frame { s with latch := m } a
      exact ⟨strap, out, pos, nofun⟩
  · exact ⟨{ s with latch := Table.set 0 m (pathIdx (accessPath p) * 0x2000000 + a) 0 }, by rw [read, answered, if_neg held, if_neg held],
      rfl, rfl, rfl, fun _ => rfl⟩

/-- A command's read of a register: the same with its answer sent, clearing where all four bytes are enabled (R7, R300). -/
theorem regRead_register {s : State} {p : Access} {a : Nat} (be : Nat) (reach : reaches s p = true) (on : addrOn s.strap.role a = true)
    (aligned : a % 4 = 0) (register : isWindow a = false) :
    (regRead s p a be).strap = s.strap ∧ (regRead s p a be).reg R.CL_MYPOS = s.reg R.CL_MYPOS ∧
      (regRead s p a be).out = s.out ++ [.readData (answered s p a)] ∧ (be ≠ 15 → (regRead s p a be).regs = s.regs) := by
  obtain ⟨u, read, strap, out, pos, regs⟩ := busRead_register (s := s) (p := p) (be == 15) on aligned register
  have answer : regRead s p a be = { u with out := u.out ++ [.readData (answered s p a)] } := by simp only [regRead, reach, read, if_true]
  rw [answer]
  exact ⟨strap, pos, congrArg (· ++ _) out, fun part => regs (beq_eq_false_iff_ne.2 part)⟩

/-! The obligation, clause by clause. -/

/-- SYS_COMMIT as a command reaches the device: the set is committed, and what follows keeps what `LinkKeeps` names. -/
theorem sysCommit_keeps {s : State} {p : Access} (w : Nat) (reach : reaches s p = true) (drop : p = .packet ∨ hostDrop s = none) :
    LinkKeeps (commitWrite s) (regWrite s p R.SYS_COMMIT (setBits w 0 1 1)) := by
  have on : addrOn s.strap.role R.SYS_COMMIT = true := by cases s.strap.role <;> rfl
  have bit : bitAt (setBits w 0 1 1) 0 = true := by rw [bitAt, testBit_setBits]; rfl
  have put : putAdmitted s R.SYS_COMMIT (setBits w 0 1 1) = (commitWrite s, false) := by simp [putAdmitted, bit]
  have bus := (busWrite_admitted (setBits w 0 1 1) on rfl (drop.imp_right .inr) rfl).trans (regWrite_keeps reach R.SYS_COMMIT (setBits w 0 1 1))
  rwa [put] at bus

/-- SYS_COMMIT while a set is closed (R117). -/
theorem sysCommit_refused {s : State} {p : Access} (w : Word) (reach : reaches s p = true) (drop : p = .packet ∨ hostDrop s = none)
    (closed : s.commit.closed ≠ []) :
    Runs (.sysCommit p w) s fun t => t.commit = s.commit ∧ t.on F.SYS_CSTAT_REFUSED = true := by
  have bus := sysCommit_keeps w.toNat reach drop
  rw [commitWrite_closed closed] at bus
  have keeps : AccessKeeps s (regWrite s p R.SYS_COMMIT (setBits w.toNat 0 1 1)) :=
    ((AccessKeeps.wr_block s F.SYS_CSTAT_REFUSED 1 (by decide)).trans (raise_access _ 1 [])).trans (.of_link bus)
  obtain ⟨t, run, commit, -, reg, -⟩ := ordinary_shows (fun s => regWrite s p R.SYS_COMMIT (setBits w.toNat 0 1 1)) s keeps.strap keeps.pos
  refine ⟨t, run, commit.trans keeps.commit, ?_⟩
  have word : t.reg R.SYS_CSTAT = (s.wr F.SYS_CSTAT_REFUSED 1).reg R.SYS_CSTAT :=
    (reg _).trans ((bus.reg _ (by simp [linkBlock])).trans ((raise_reports _ 1 []).reg _))
  have field : t.rd F.SYS_CSTAT_REFUSED = 1 := calc
    t.rd F.SYS_CSTAT_REFUSED = (s.wr F.SYS_CSTAT_REFUSED 1).rd F.SYS_CSTAT_REFUSED := by simp only [State.rd, word]
    _ = 1 := s.rd_wr_same F.SYS_CSTAT_REFUSED 1 (by decide)
  simp [State.on, field]

/-- SYS_COMMIT where no set is closed and every held write has a fence to wait for (R115, R116). -/
theorem sysCommit_closes {s : State} {p : Access} (w : Word) (reach : reaches s p = true) (drop : p = .packet ∨ hostDrop s = none)
    (closed : s.commit.closed = [])
    (fences : s.isCarriage = true ∧ folState s ≠ 0 ∨ follows s = false ∧ (refGen s).isSome = true ∧ ∀ x ∈ s.commit.opened, tiedRing x.addr = none) :
    Runs (.sysCommit p w) s fun t => t.commit = { opened := [], closed := s.commit.opened, closedAt := s.now } := by
  have keeps : AccessKeeps (openClosed s) (commitWrite s) := by
    rcases fences with ⟨carriage, locked⟩ | ⟨alone, running, untied⟩
    · have following : follows s = true := by simp [follows, carriage]
      have noSender : s.isSender = false := by
        have role : s.strap.role = .carriage := by simpa [State.isCarriage] using carriage
        simp [State.isSender, role]
      exact commitWrite_waits closed (splitRate_eq s _ (.inl noSender)) (fun x _ => by simp [hasFence, following, locked])
        (.inl (by simp [following, locked]))
    · exact commitWrite_waits closed (splitRate_eq s _ (.inr fun x hx => tiedRing_none (untied x hx)))
        (fun x hx => by simp [hasFence, alone, untied x hx, running]) (.inr (by simp [alone, running]))
  have all := keeps.trans (.of_link (sysCommit_keeps w.toNat reach drop))
  obtain ⟨t, run, commit, -⟩ := ordinary_shows (fun s => regWrite s p R.SYS_COMMIT (setBits w.toNat 0 1 1)) s all.strap all.pos
  exact ⟨t, run, commit.trans all.commit⟩

/-- REGISTER_WRITE of a LANE or CHK register (R10, R115, R118). -/
theorem registerWrite_lane_chk {s : State} {p : Access} {addr : BitVec 25} {r : RegSpec} (w : Word) (reach : reaches s p = true)
    (on : addrOn s.strap.role addr.toNat = true) (aligned : addr.toNat % 4 = 0)
    (drop : p = .packet ∨ mirrored addr.toNat = false ∨ hostDrop s = none) (found : findReg addr.toNat = some r)
    (h : addr.toNat / 65536 = 5 ∨ addr.toNat / 65536 = 14) :
    Runs (.registerWrite p addr w) s fun t =>
      t.commit = (openWrite s addr.toNat (busEffect s addr.toNat r w.toNat).smask (busEffect s addr.toNat r w.toNat).sval).commit ∧
      (addr.toNat / 65536 = 5 → t.reg addr.toNat = (busEffect s addr.toNat r w.toNat).live % 2 ^ 32) := by
  obtain ⟨keeps, word⟩ := regWrite_lane_chk w.toNat reach on aligned drop found h
  have pos : ∀ e, (written s addr.toNat e).on F.CL_MYPOS_VALID = s.on F.CL_MYPOS_VALID := fun e => by
    have other : R.CL_MYPOS ≠ addr.toNat := by rintro k; rw [← k] at h; simp at h
    simp only [State.on, State.rd, written_reg, State.reg_setReg_ne s _ other]
  obtain ⟨t, run, commit, -, reg, -⟩ := ordinary_shows (fun s => regWrite s p addr.toNat w.toNat) s (keeps.strap.trans (written_strap ..))
    (fun k => (pos _) ▸ keeps.pos k)
  exact ⟨t, run, (commit.trans keeps.commit).trans (written_commit ..), fun lane => (reg _).trans (word lane)⟩

/-- REGISTER_READ of a register that the role enables (R7, R300, R419). -/
theorem registerRead_answers {s : State} {p : Access} {addr : BitVec 25} (be : BitVec 4) (reach : reaches s p = true)
    (on : addrOn s.strap.role (addr.toNat / 4 * 4) = true) (register : isWindow (addr.toNat / 4 * 4) = false) :
    Runs (.registerRead p addr be) s fun t => (be ≠ 15#4 → t.regs = s.regs) ∧
      Sends s t [.readData (answered s p (addr.toNat / 4 * 4))] := by
  obtain ⟨strap, pos, out, regs⟩ := regRead_register be.toNat reach on (Nat.mul_mod_left _ 4) register
  obtain ⟨t, run, -, shown, -, rest, sent⟩ := ordinary_shows (fun s => regRead s p (addr.toNat / 4 * 4) be.toNat) s strap
    (fun k => by simpa only [State.on, State.rd, pos] using k)
  refine ⟨t, run, fun part => shown.trans (regs fun e => part (BitVec.eq_of_toNat_eq e)), rest, ?_⟩
  rw [← sent, out]

/-- Settles O37: a commit that is refused, one that closes the open set, a write, a read, and accesses that do not reach the device. -/
theorem commitsAndRegisterAccesses : Obligations.CommitsAndRegisterAccesses :=
  ⟨fun _ w _ reach drop closed => sysCommit_refused w reach drop closed,
   fun _ w _ reach drop closed _ fences => sysCommit_closes w reach drop closed fences,
   fun _ _ w _ _ reach on aligned drop found h => registerWrite_lane_chk w reach on aligned drop found h,
   fun _ _ be _ reach on register => registerRead_answers be reach on register,
   fun _ _ _ _ _ unreached =>
    ⟨ordinary_idle _ _ (regWrite_unreached unreached _ _), ordinary_idle _ _ (regWrite_unreached unreached _ _),
     ordinary_idle _ _ (regRead_unreached unreached _ _)⟩⟩

end Sys2Proof.Machine
end

section
/-! PROOF. A ring table that gives a position can lose it again in the same command (O30 fails): a request that waited for a position acts once
one is taken (R24), a request of BYPASS lowers the by-pass switch (R61, R62), and ring ports without block lock then give the position up (R25). -/
namespace Sys2Proof.Machine

/-- A ring table of zeros, by broadcast: 63 blocks to CL offset 0800h, LOCK = 0 (R86). -/
def zeroTable : Copy :=
  ⟨0x60#8, 0x3F000000#32, 0#16, [0, 6, 8, 0, 0, 63] ++ List.replicate 506 0, 0#8, 0#32, true⟩

/-- A carriage in STANDBY without a position: the switch is open, port 0 receives the eastbound stream from position 4, no lane holds block lock. -/
def unplaced : State :=
  [(F.SYS_MSTAT_MODE, 2), (F.CL_BYP_BYP_STATE, 1), (F.CL_PSTAT_STATE 0, 3), (F.CL_PSTAT_DIR_RX 0, 1), (F.CL_PSTAT_PARTNER_POS 0, 4)].foldl
    (fun s e => s.wr e.1 e.2) (State.fresh ⟨.carriage, 0, 1, 0x200⟩ [])

/-- That carriage with the table at the front of its ready queue, and a request of BYPASS that waits: one that came during an entry of SENTRY
waits on when a wake undoes the entry (R371, R373). -/
def bypassWaits : State :=
  { unplaced with ring := { unplaced.ring with ready := [⟨zeroTable, false⟩] }, sys := { unplaced.sys with waiting := some 0 } }

/-- The table executed there, before a request that waits acts. -/
def tableTaken : State := takeReady bypassWaits (fun c => c.type == 6 && isRingTable bypassWaits c) ringTableRun

/-- R24 gives position 5, next to position 4. -/
theorem tableTaken_position : ownPos tableTaken = 5 ∧ tableTaken.on F.CL_MYPOS_VALID = true := by
  decide +kernel

/-- The request of BYPASS acts on the position, and the position is given up. -/
theorem placed_givesUp : ownPos (placed bypassWaits tableTaken) = 63 ∧ (placed bypassWaits tableTaken).on F.CL_FRTAB_FLAGS_LOCK = false := by
  decide +kernel

/-- An ordinary command's registers are those of its effect once a request that waited for a position has acted. -/
theorem ordinary_rd_placed (f : State → State) {s t : State} (run : ordinary f s = .next t) (strap : (placed s (f s)).strap = s.strap) (g : FRef) :
    t.rd g = (placed s (f s)).rd g := by
  obtain rfl : _ = t := by simpa only [ordinary, Host.Outcome.next.injEq] using run
  apply State.rd_congr
  · exact strap.symm
  · exact (settle_reports s (placed s (f s))).regs

theorem ringTableRx_givesUp {t : State} (run : exec .ringTableRx bypassWaits = .next t) :
    ownPos t = 63 ∧ t.on F.CL_FRTAB_FLAGS_LOCK = false := by
  have rd := ordinary_rd_placed (fun s => takeReady s (fun c => c.type == 6 && isRingTable s c) ringTableRun) run (by decide +kernel)
  refine ⟨(rd _).trans placed_givesUp.1, ?_⟩
  rw [State.on, rd]
  exact placed_givesUp.2

/-- Refutes O30: with a request of BYPASS waiting, the table's position 5 is taken and given up in one command. -/
theorem not_ringTablesGiveThePosition : ¬ Obligations.RingTablesGiveThePosition := by
  intro h
  obtain ⟨t, run, -, -, -, -, -, -, next⟩ := h.1 bypassWaits ⟨zeroTable, false⟩ [] rfl (by decide +kernel) (by decide +kernel)
  obtain ⟨given, unlocked⟩ := ringTableRx_givesUp run
  obtain ⟨position, -⟩ := next (by decide +kernel) unlocked 0 (by decide +kernel) (by decide +kernel)
  have partner : bypassWaits.rd (F.CL_PSTAT_PARTNER_POS 0) = 4 := by decide +kernel
  omega

end Sys2Proof.Machine
end

section
/-! PROOF. The outbound queue (O40): an upward packet that owes both copies stays in the queue, or waits for an entry of it, through events, the
end of a command and all that leaves with it (R80, R81). -/
namespace Sys2Proof.Machine

/-- The upward packet is in the outbound queue or waits for an entry, and owes both copies: R80 removes no such entry. -/
def Owed (s : State) (c : Copy) : Prop := ∃ e ∈ s.ring.outq ++ s.ring.waiting, e.pkt = c ∧ e.owedE = true ∧ e.owedW = true

theorem Owed.queued {s : State} {c : Copy} (h : Owed s c) : Queued s c := by
  obtain ⟨e, mem, pkt, -⟩ := h
  exact ⟨e, mem, pkt⟩

/-- Every packet that owes both copies still does. -/
structure OwedStays (s t : State) : Prop where
  owed : ∀ c, Owed s c → Owed t c

theorem OwedStays.refl (s : State) : OwedStays s s := ⟨fun _ h => h⟩

theorem OwedStays.trans {s t u : State} (h : OwedStays s t) (g : OwedStays t u) : OwedStays s u := ⟨fun c k => g.owed c (h.owed c k)⟩

/-- Nothing leaves the queue or the wait. -/
theorem OwedStays.of_subset {s t : State} (h : s.ring.outq ++ s.ring.waiting ⊆ t.ring.outq ++ t.ring.waiting) : OwedStays s t := by
  refine ⟨fun c k => ?_⟩
  obtain ⟨e, mem, owed⟩ := k
  exact ⟨e, h mem, owed⟩

/-- A change outside the ring. -/
theorem OwedStays.of_ring {s t : State} (h : t.ring = s.ring) : OwedStays s t := .of_subset (by rw [h]; exact List.Subset.refl _)

/-- A change outside the ring, after one that leaves what is owed. -/
theorem OwedStays.then_ring {s t u : State} (h : OwedStays s t) (e : u.ring = t.ring) : OwedStays s u := h.trans (.of_ring e)

theorem OwedStays.foldl {β : Type} {f : State → β → State} (hf : ∀ s x, OwedStays s (f s x)) (l : List β) (s : State) : OwedStays s (l.foldl f s) := by
  induction l generalizing s with
  | nil => exact .refl s
  | cons x r ih => exact (hf s x).trans (ih _)

/-! A packet enters (R81). -/

/-- A packet whose class finds a free entry takes it. -/
theorem outqPut_enters {s : State} {e : OutPkt} (free : outqFree s e.cls = true) :
    (outqPut s e).1.ring.outq = s.ring.outq ++ [{ e with id := s.ring.outId }] ∧ (outqPut s e).1.ring.waiting = s.ring.waiting := by
  rw [outqPut, if_pos free]
  exact ⟨rfl, rfl⟩

theorem outqPut_stays (s : State) (e : OutPkt) : OwedStays s (outqPut s e).1 := by
  refine .of_subset fun x mem => ?_
  unfold outqPut
  split
  · simp only [List.mem_append] at mem ⊢
    exact mem.imp .inl id
  · dsimp only
    split
    · exact mem
    · simp only [List.mem_append] at mem ⊢
      exact mem.imp id .inl

/-- A packet of another class than EVENT enters the queue or waits. -/
theorem outqPut_owed (s : State) {e : OutPkt} (cls : e.cls ≠ 5) (east : e.owedE = true) (west : e.owedW = true) : Owed (outqPut s e).1 e.pkt := by
  unfold outqPut
  split
  · exact ⟨{ e with id := s.ring.outId }, by simp, rfl, east, west⟩
  · exact ⟨e, by simp, rfl, east, west⟩

/-! Events (R325, R328, R336). -/

theorem upTry_stays (s : State) (n : Nat) (q : Source) : OwedStays s (upTry s n q).1 := by
  unfold upTry
  split
  · exact .of_ring rfl
  · split
    · refine .trans ?_ (outqPut_stays _ _)
      exact .of_ring rfl
    · exact (outqPut_stays s _).trans (.of_ring rfl)

theorem upFire_stays (s : State) (n time : Nat) (d : List Byte) : OwedStays s (upFire s n time d).1 := by
  unfold upFire
  dsimp only
  split
  · exact upTry_stays s n _
  · exact .of_ring rfl

theorem evalTgt_ring (s : State) (t : Nat) : (evalTgt s t).ring = s.ring := by
  unfold evalTgt
  dsimp only
  split
  · split <;> rfl
  · rfl

theorem putRecord_ring (s : State) (t : Nat) (r : Record) : (putRecord s t r).ring = s.ring := evalTgt_ring _ t

theorem refuseAt_ring (s : State) (t : Nat) : (refuseAt s t).1.ring = s.ring := by
  unfold refuseAt
  split <;> rfl

/-- The host path of an event leaves the ring alone. -/
theorem hostFire_ring (s : State) (n time : Nat) (d : List Byte) : (hostFire s n time d).1.ring = s.ring := by
  unfold hostFire
  dsimp only
  split
  · unfold hostTry
    split
    · rfl
    · split
      · exact putRecord_ring _ _ _
      · exact refuseAt_ring s _
  · rfl

theorem addCounts_ring (l : List Nat) (a : State × List (Nat × List Byte)) :
    (l.foldl (fun a k => let r := addCount a.1 k 1; (r.1, a.2 ++ r.2)) a).1.ring = a.1.ring := by
  induction l generalizing a with
  | nil => rfl
  | cons x r ih => exact ih _

theorem trace_ring (s : State) (c i : Nat) (d : List Byte) : (trace s c i d).ring = s.ring := by
  unfold trace
  split <;> rfl

theorem fireOne_stays (s : State) (n : Nat) (d : List Byte) : OwedStays s (fireOne s n d).1 := by
  unfold fireOne
  split
  · exact .refl s
  · dsimp only
    have counted := addCounts_ring (selCounters s n) (s, [])
    generalize ((selCounters s n).foldl (fun a k => let r := addCount a.1 k 1; (r.1, a.2 ++ r.2)) (s, [])) = a at counted ⊢
    split
    · exact .of_ring counted
    · have traced : (if n < 504 && decide (a.1.rd F.OBS_TEVT_LO ≤ n) && decide (n ≤ a.1.rd F.OBS_TEVT_HI) then trace a.1 1 n d else a.1).ring = s.ring := by
        split
        · exact (trace_ring _ _ _ _).trans counted
        · exact counted
      generalize (if n < 504 && decide (a.1.rd F.OBS_TEVT_LO ≤ n) && decide (n ≤ a.1.rd F.OBS_TEVT_HI) then trace a.1 1 n d else a.1) = b at traced ⊢
      have told : OwedStays s (if b.isCarriage = true then (b, ([] : List (Nat × List Byte))) else hostFire b n (wallNs b) (pad16 d)).1 := by
        refine .of_ring ?_
        split
        · exact traced
        · exact (hostFire_ring _ _ _ _).trans traced
      split
      · exact told.trans (upFire_stays _ _ _ _)
      · exact told

theorem fireAll_stays (k : Nat) (s : State) (l : List (Nat × List Byte)) : OwedStays s (fireAll k s l) := by
  induction k generalizing s l with
  | zero => exact .refl s
  | succ k ih =>
    cases l with
    | nil => exact .refl s
    | cons e r => exact (fireOne_stays s e.1 e.2).trans (ih _ _)

/-- An event takes no packet out of the queue. -/
theorem raise_stays (s : State) (n : Nat) (d : List Byte) : OwedStays s (raise s n d) := ⟨(fireAll_stays 512 s [(n, d)]).owed⟩

/-- An event that tells of the trace or the counters. -/
theorem raise_obs_stays (s : State) (o : Obs) (n : Nat) (d : List Byte) : OwedStays s (raise { s with obs := o } n d) := by
  refine .trans ?_ (raise_stays _ n d)
  exact .of_ring rfl

theorem raises_stays (s : State) (l : List (Nat × List Byte)) : OwedStays s (raises s l) := by
  induction l generalizing s with
  | nil => exact .refl s
  | cons e r ih => exact (raise_stays s e.1 e.2).trans (ih _)

/-- A device with a position queues what it sends upward, but for an EVENT (R80, R84). -/
theorem sendUp_owed {s : State} {cls : Nat} (prio : Nat) (c : Copy) (placed : s.on F.CL_MYPOS_VALID = true) (h : cls ≠ 5) : Owed (sendUp s cls prio c) c := by
  rw [sendUp, placed]
  exact (raises_stays _ _).owed c (outqPut_owed s (e := { cls := cls, prio := prio, pkt := c, owedE := true, owedW := true, src := none }) h rfl rfl)

/-! The end of a command (R80, R81, R411). -/

theorem putTrace_stays (s : State) (t : Trace) : OwedStays s (putTrace s t) := by
  unfold putTrace
  dsimp only
  split
  · exact .refl s
  · split
    · split
      · exact raise_obs_stays s _ _ _
      · exact .of_ring rfl
    · exact .of_ring rfl

theorem flushTrace_stays (s : State) : OwedStays s (flushTrace s) := by
  unfold flushTrace
  dsimp only
  have put : ∀ (l : List Trace) (o : Obs), OwedStays s (l.foldl putTrace { s with obs := o }) :=
    fun l o => OwedStays.trans (t := { s with obs := o }) (.of_ring rfl) (.foldl putTrace_stays l _)
  specialize put ((s.obs.entering.foldl (fun a t => insertTrace t a) []).take 16) { s.obs with entering := [] }
  generalize List.foldl putTrace _ _ = u at put ⊢
  generalize List.length _ - 16 = n
  split
  · exact put
  · split
    · exact (put.trans (raise_obs_stays u _ 505 _)).then_ring rfl
    · exact put.then_ring rfl

theorem fillWaiting_stays (k : Nat) (s : State) : OwedStays s (fillWaiting k s) := by
  induction k generalizing s with
  | zero => exact .refl s
  | succ k ih =>
    unfold fillWaiting
    split
    · exact .refl s
    · rename_i e found
      refine .trans ⟨fun c k => ?_⟩ (ih _)
      obtain ⟨x, mem, owed⟩ := k
      have free : outqFree s e.cls = true := by simpa using List.find?_some found
      obtain ⟨queue, wait⟩ := outqPut_enters (s := { s with ring := { s.ring with waiting := s.ring.waiting.erase e } }) free
      by_cases same : x = e
      · exact ⟨{ e with id := s.ring.outId }, by simp [queue], same ▸ owed⟩
      · refine ⟨x, ?_, owed⟩
        simp only [queue, wait, List.mem_append] at mem ⊢
        exact mem.imp .inl (List.mem_erase_of_ne same).2

theorem drainUp_stays (k : Nat) (s : State) : OwedStays s (drainUp k s) := by
  induction k generalizing s with
  | zero => exact .refl s
  | succ k ih =>
    unfold drainUp
    split
    · exact .refl s
    · split
      · exact .refl s
      · exact (upTry_stays _ _ _).trans (ih _)

theorem upReleased_stays (s : State) (n : Nat) : OwedStays s (upReleased s n) := by
  unfold upReleased
  dsimp only
  split
  · exact .refl s
  · split
    · exact .of_ring rfl
    · exact upTry_stays _ _ _

/-- The sweep removes no entry that owes both copies. -/
theorem outqSweep_stays (s : State) : OwedStays s (outqSweep s) := by
  unfold outqSweep
  dsimp only
  split
  · exact .refl s
  · refine .trans (.trans ?_ (.foldl (fun u e => ?_) _ _)) ((fillWaiting_stays _ _).trans (drainUp_stays _ _))
    · refine ⟨fun c k => ?_⟩
      obtain ⟨e, mem, owed⟩ := k
      refine ⟨e, ?_, owed⟩
      simp only [List.mem_append, List.mem_filter] at mem ⊢
      refine mem.imp (fun k => ⟨k, ?_⟩) id
      obtain ⟨-, east, west⟩ := owed
      simp [east, west]
    · split
      · exact upReleased_stays _ _
      · exact .refl u

/-- The end of a command that leaves no train of the filler takes no packet that owes both copies out of the queue. -/
theorem settle_stays (s : State) {t : State} (quiet : NoTrain t) : OwedStays t (settle s t) := by
  have h := (outqSweep_stays t).trans (flushTrace_stays _)
  unfold settle
  rw [show owedTrains t = t from ?_]
  · generalize flushTrace (outqSweep t) = u at h ⊢
    dsimp only
    rw [transmit_line _ { u with out := _ }]
    exact h.then_ring rfl
  · refine List.foldlRecOn (motive := (· = t)) _ _ rfl fun u hu p mem => ?_
    subst hu
    exact if_neg (by simpa using quiet ⟨p, by simpa using mem⟩)

end Sys2Proof.Machine
end

section
/-! PROOF. The bytes of an XA packet and the control packets of a ring (O40): what the fields of R67 read, what sending a control packet leaves
alone (R71, R280), and that a device alone sends it out of every end that is UP (R27). -/
namespace Sys2Proof.Machine

/-! Bytes (R38, R64, R67). -/

@[simp] theorem length_bytesLE (n v : Nat) : (bytesLE n v).length = n := by
  induction n generalizing v with
  | zero => rfl
  | succ n ih => simp [bytesLE, ih]

@[simp] theorem length_bytesBE (n v : Nat) : (bytesBE n v).length = n := by simp [bytesBE]

/-- The bytes of a number read back as it, modulo their size. -/
theorem leNat_bytesLE (n v : Nat) : leNat (bytesLE n v) = v % 256 ^ n := by
  induction n generalizing v with
  | zero => simp [bytesLE, leNat, Nat.mod_one]
  | succ n ih => rw [bytesLE, leNat, ih, BitVec.toNat_ofNat, Nat.pow_succ' (m := 256), Nat.mod_mul]

/-- A field of a byte string reads what was put there. -/
theorem beAt_append (a c : List Byte) (n v : Nat) : beAt (a ++ (bytesBE n v ++ c)) a.length n = v % 256 ^ n := by
  have field : slice (a ++ (bytesBE n v ++ c)) a.length n = bytesBE n v := by
    have taken : (bytesBE n v ++ c).take n = bytesBE n v := by
      rw [List.take_append_of_le_length (by simp)]
      exact List.take_of_length_le (by simp)
    simp [slice, taken]
  rw [beAt, field, beNat, bytesBE, List.reverse_reverse, leNat_bytesLE]

/-- The SUB, the XID and the TARGET of an XA packet (R67, R121). -/
theorem xaHead_fields (sub x epoch part target : Nat) (rest : List Byte) :
    let data := xaHead sub x epoch part ++ bytesBE 6 target ++ rest
    beAt data 0 1 = sub % 256 ∧ beAt data 1 1 = x % 256 ∧ beAt data 8 6 = target % 2 ^ 48 := by
  simp only [xaHead, List.append_assoc]
  refine ⟨beAt_append [] _ 1 sub, ?_, ?_⟩
  · simpa using beAt_append (bytesBE 1 sub) (bytesBE 4 epoch ++ (bytesBE 2 part ++ (bytesBE 6 target ++ rest))) 1 x
  · simpa using beAt_append (bytesBE 1 sub ++ (bytesBE 1 x ++ (bytesBE 4 epoch ++ bytesBE 2 part))) rest 6 target

/-- What a downward XA packet of RHB 0 is on the line (R64, R67). -/
theorem downPacket_xa (route sub x epoch part target q : Nat) (rest : List Byte) :
    let c := downPacket 7 0 route (xaHead sub x epoch part ++ bytesBE 6 target ++ rest) q
    c.type = 7 ∧ c.route = BitVec.ofNat 32 route ∧ beAt c.data 0 1 = sub % 256 ∧ beAt c.data 1 1 = x % 256 ∧ beAt c.data 8 6 = target % 2 ^ 48 := by
  refine ⟨by simp [downPacket, mkCopy, Copy.type, b2n, bits], rfl, ?_⟩
  simp only [downPacket, mkCopy, List.append_assoc _ rest]
  exact xaHead_fields ..

/-! What a control packet leaves alone (R71, R280). -/

/-- What sending control packets leaves alone: all but RED, the pair and what reports; the transactions and the accepted packets stay. -/
structure ControlKeeps (s t : State) : Prop where
  link : LinkKeeps s t
  xa : t.xa = s.xa
  ready : t.ring.ready = s.ring.ready

theorem ControlKeeps.refl (s : State) : ControlKeeps s s := ⟨.refl s, rfl, rfl⟩

theorem ControlKeeps.trans {s t u : State} (h : ControlKeeps s t) (g : ControlKeeps t u) : ControlKeeps s u :=
  ⟨h.link.trans g.link, g.xa.trans h.xa, g.ready.trans h.ready⟩

theorem ControlKeeps.foldl {β : Type} {f : State → β → State} (hf : ∀ s x, ControlKeeps s (f s x)) (l : List β) (s : State) :
    ControlKeeps s (l.foldl f s) := by
  induction l generalizing s with
  | nil => exact .refl s
  | cons x r ih => exact (hf s x).trans (ih _)

theorem setLease_control (s : State) (r : Nat) (x : Lease) : ControlKeeps s (s.setLease r x) := ⟨setLease_keeps s r x, rfl, rfl⟩

theorem wr_control (s : State) (f : FRef) (v : Nat) (h : linkBlock f.addr) : ControlKeeps s (s.wr f v) := ⟨.wr s f v h, rfl, rfl⟩

theorem seq_control (s : State) (r v : Nat) : ControlKeeps s (s.wr (F.RED_RSTAT_SEQ r) v) := wr_control s _ v (by simp [linkBlock])

theorem takeSeq_control (s : State) (r : Nat) : ControlKeeps s (takeSeq s r).1 := seq_control s r _

theorem dropPix_control (s : State) (r q : Nat) : ControlKeeps s (dropPix s r q) := setLease_control s r _

theorem jumpSeq_control (s : State) (r : Nat) : ControlKeeps s (jumpSeq s r) := by
  unfold jumpSeq
  split
  · exact .refl s
  · exact (seq_control s r _).trans (setLease_control _ r _)

theorem mirrorSend_control (s : State) (u : Bool) (k a : Nat) (b : List Nat) : ControlKeeps s (mirrorSend s u k a b) := by
  suffices (mirrorSend s u k a b).xa = s.xa ∧ (mirrorSend s u k a b).ring.ready = s.ring.ready from ⟨mirrorSend_keeps s u k a b, this.1, this.2⟩
  unfold mirrorSend
  split
  · exact ⟨rfl, rfl⟩
  · dsimp only
    split
    · exact ⟨rfl, rfl⟩
    · split <;> exact ⟨rfl, rfl⟩

theorem sendSeqmark_control (s : State) (r : Nat) : ControlKeeps s (sendSeqmark s r) :=
  (setLease_control s r { s.lease r with unmarked := [] }).trans (mirrorSend_control ..)

theorem sendSeq_control (s : State) (r : Nat) (c : Copy) : ControlKeeps s (sendSeq s r c) := by
  unfold sendSeq
  split
  · exact (setLease_control s r _).trans ⟨emitDown_keeps _ r c, rfl, rfl⟩
  · exact .refl s

theorem sendControl_control (s : State) (r : Nat) (mk : Nat → Copy) : ControlKeeps s (sendControl s r mk).1 := by
  by_cases may : mayControl s r = true
  · simp only [sendControl, may, Bool.not_true, Bool.false_eq_true, if_false]
    have jumped : ControlKeeps s (if pairEn s && !(mirrorUp s) then jumpSeq s r else s) := by
      split
      · exact jumpSeq_control s r
      · exact .refl s
    generalize (if pairEn s && !(mirrorUp s) then jumpSeq s r else s) = s0 at jumped ⊢
    have sent := ((jumped.trans (takeSeq_control s0 r)).trans (dropPix_control _ r (takeSeq s0 r).2)).trans (sendSeq_control _ r (mk (takeSeq s0 r).2))
    generalize sendSeq (dropPix (takeSeq s0 r).1 r (takeSeq s0 r).2) r (mk (takeSeq s0 r).2) = s1 at sent ⊢
    split
    · exact ((sent.trans (mirrorSend_control ..)).trans (setLease_control ..)).trans (sendSeqmark_control ..)
    · exact sent
  · simp only [sendControl, may, Bool.not_false, if_true]
    exact .refl s

/-! A device alone (R27, R272). -/

/-- What a device alone leaves of what lets it send: whether it is one of a pair, its rings and their ends, and what silences it. -/
structure AloneKeeps (s t : State) : Prop where
  strap : t.strap = s.strap
  given : t.pair.given = s.pair.given
  enabled : t.rd F.RED_CFG_EN = s.rd F.RED_CFG_EN
  silent : ∀ r, t.rd (F.RED_RSTAT_SILENT r) = s.rd (F.RED_RSTAT_SILENT r)
  cl : ∀ a, a / 65536 = 6 → t.reg a = s.reg a
  out : s.out <+: t.out

theorem AloneKeeps.refl (s : State) : AloneKeeps s s := ⟨rfl, rfl, rfl, fun _ => rfl, fun _ _ => rfl, List.prefix_rfl⟩

theorem AloneKeeps.trans {s t u : State} (h : AloneKeeps s t) (g : AloneKeeps t u) : AloneKeeps s u where
  strap := g.strap.trans h.strap
  given := g.given.trans h.given
  enabled := g.enabled.trans h.enabled
  silent := fun r => (g.silent r).trans (h.silent r)
  cl := fun a ha => (g.cl a ha).trans (h.cl a ha)
  out := h.out.trans g.out

section
variable {s t : State} (h : AloneKeeps s t)
include h

/-- A field of CL. -/
theorem AloneKeeps.rd {f : FRef} (ha : f.addr / 65536 = 6) : t.rd f = s.rd f := by simp only [State.rd, h.cl _ ha]

theorem AloneKeeps.pairEn : pairEn t = pairEn s := by
  simp only [Machine.pairEn, State.isSender, State.on, h.strap, h.enabled]

theorem AloneKeeps.ringEnds (r : Nat) : ringEnds t r = ringEnds s r := by
  simp only [Machine.ringEnds, State.portIs, State.on, h.rd (f := F.CL_PCFG_EN _) (by simp), h.rd (f := F.CL_PCFG_KIND _) (by simp),
    h.rd (f := F.CL_PCFG_RING _) (by simp)]

theorem AloneKeeps.isUp (p : Nat) : t.isUp p = s.isUp p := by
  simp only [State.isUp, State.pst, h.rd (f := F.CL_PSTAT_STATE _) (by simp)]

theorem AloneKeeps.mayControl (alone : Machine.pairEn s = false) (r : Nat) : mayControl t r = mayControl s r := by
  simp only [Machine.mayControl, holds, h.pairEn, alone, ringEnabled, h.ringEnds, h.given, Bool.not_false, Bool.true_or, Bool.false_eq_true, if_false]

end

/-- A field outside CL that shares no bit with EN and SILENT. -/
theorem wr_alone (s : State) {f : FRef} (v : Nat) (cl : f.addr / 65536 ≠ 6) (enabled : (s.wr f v).rd F.RED_CFG_EN = s.rd F.RED_CFG_EN)
    (silent : ∀ r, (s.wr f v).rd (F.RED_RSTAT_SILENT r) = s.rd (F.RED_RSTAT_SILENT r)) : AloneKeeps s (s.wr f v) where
  strap := rfl
  given := rfl
  enabled := enabled
  silent := silent
  cl := fun a ha => s.reg_wr_ne f v (by rintro rfl; exact cl ha)
  out := List.prefix_rfl

/-- A field outside CL and RED. -/
theorem wr_alone_block (s : State) {f : FRef} (v : Nat) (h : f.addr / 65536 ≠ 6 ∧ f.addr / 65536 ≠ 15) : AloneKeeps s (s.wr f v) :=
  wr_alone s v h.1 (s.rd_wr_ne _ _ v (by rintro k; exact h.2 (by simp [← k]))) fun _ => s.rd_wr_ne _ _ v (by rintro k; exact h.2 (by simp [← k]))

/-- SEQ shares its register with SILENT, and RED_CFG is another. -/
theorem seq_alone (s : State) (r v : Nat) : AloneKeeps s (s.wr (F.RED_RSTAT_SEQ r) v) := by
  refine wr_alone s v (by simp) (s.rd_wr_ne _ _ v (by simp only [R.RED_CFG, R.RED_RSTAT]; omega)) fun i => ?_
  by_cases same : (F.RED_RSTAT_SILENT i).addr = (F.RED_RSTAT_SEQ r).addr
  · exact s.rd_wr_other _ _ v same (show 16 + 16 ≤ 32 by decide) (.inl (show 2 + 1 ≤ 16 by decide))
  · exact s.rd_wr_ne _ _ v same

theorem setLease_alone (s : State) (r : Nat) (x : Lease) : AloneKeeps s (s.setLease r x) := ⟨rfl, rfl, rfl, fun _ => rfl, fun _ _ => rfl, List.prefix_rfl⟩

theorem emitDown_alone (s : State) (r : Nat) (c : Copy) : AloneKeeps s (emitDown s r c) :=
  ⟨rfl, rfl, rfl, fun _ => rfl, fun _ _ => rfl, List.prefix_append _ _⟩

theorem sendSeq_alone (s : State) (r : Nat) (c : Copy) : AloneKeeps s (sendSeq s r c) := by
  unfold sendSeq
  split
  · exact (setLease_alone s r _).trans (emitDown_alone _ r c)
  · exact .refl s

/-- A member that may send at all sends a packet out of every end of the ring that is UP (R27). -/
theorem sendSeq_leaves {s : State} {r p : Nat} (c : Copy) (may : mayOriginate s r = true) (end_ : p ∈ ringEnds s r) (up : s.isUp p = true) :
    .packet p c ∈ (sendSeq s r c).out := by
  rw [sendSeq, if_pos may]
  have keeps := setLease_alone s r { s.lease r with originated := true }
  generalize s.setLease r { s.lease r with originated := true } = u at keeps ⊢
  rw [← keeps.ringEnds] at end_
  rw [← keeps.isUp] at up
  exact List.mem_append_right _ (List.mem_map.2 ⟨p, List.mem_filter.2 ⟨end_, up⟩, rfl⟩)

theorem takeSeq_alone (s : State) (r : Nat) : AloneKeeps s (takeSeq s r).1 := seq_alone s r _

theorem dropPix_alone (s : State) (r q : Nat) : AloneKeeps s (dropPix s r q) := setLease_alone s r _

/-- The next SEQ taken for a packet that is no PIXEL packet. -/
theorem seqTaken_alone (s : State) (r : Nat) : AloneKeeps s (dropPix (takeSeq s r).1 r (takeSeq s r).2) :=
  (takeSeq_alone s r).trans (dropPix_alone _ r _)

/-- Without a partner a control packet is sent, and nothing is mirrored (R280). -/
theorem sendControl_eq {s : State} {r : Nat} (mk : Nat → Copy) (alone : pairEn s = false) (may : mayControl s r = true) :
    (sendControl s r mk).1 = sendSeq (dropPix (takeSeq s r).1 r (takeSeq s r).2) r (mk (takeSeq s r).2) := by
  have keeps := (seqTaken_alone s r).trans (sendSeq_alone _ r (mk (takeSeq s r).2))
  have down : mirrorUp (sendSeq (dropPix (takeSeq s r).1 r (takeSeq s r).2) r (mk (takeSeq s r).2)) = false := by
    simp only [mirrorUp, keeps.pairEn, alone, Bool.false_and]
  simp only [sendControl, may, alone, Bool.not_true, Bool.false_eq_true, if_false, Bool.false_and, down]

theorem sendControl_alone (s : State) (r : Nat) (mk : Nat → Copy) (alone : pairEn s = false) : AloneKeeps s (sendControl s r mk).1 := by
  by_cases may : mayControl s r = true
  · rw [sendControl_eq mk alone may]
    exact (seqTaken_alone s r).trans (sendSeq_alone _ r _)
  · simp only [sendControl, may, Bool.not_false, if_true]
    exact .refl s

/-- A device alone that holds the ring and is not silent sends a control packet out of every end that is UP (R27). -/
theorem sendControl_leaves {s : State} {r p : Nat} (mk : Nat → Copy) (alone : pairEn s = false) (may : mayControl s r = true)
    (speaks : s.on (F.RED_RSTAT_SILENT r) = false) (end_ : p ∈ ringEnds s r) (up : s.isUp p = true) :
    .packet p (mk (s.rd (F.RED_RSTAT_SEQ r))) ∈ (sendControl s r mk).1.out := by
  rw [sendControl_eq mk alone may]
  have keeps := seqTaken_alone s r
  refine sendSeq_leaves _ ?_ (by rwa [keeps.ringEnds]) (by rwa [keeps.isUp])
  simp only [State.on] at speaks
  simp only [mayOriginate, State.on, keeps.silent, keeps.pairEn, alone, speaks, Bool.not_false, Bool.true_or, Bool.and_true]

end Sys2Proof.Machine
end

section
/-! PROOF. A follower's staging and vote (O40): a prepare part is staged or passed down, the close marks the use, and the vote goes out once
(R15, R122 to R125). -/
namespace Sys2Proof.Machine

/-! The accepted packet at the front, and what a follower's commands keep. -/

/-- The state with another list of accepted packets. -/
def State.withReady (s : State) (l : List Ready) : State := { s with ring := { s.ring with ready := l } }

theorem takeReady_front {s : State} {x : Ready} {l : List Ready} {ok : Copy → Bool} (g : State → Ready → State) (front : s.ring.ready = x :: l)
    (kind : ok x.pkt = true) : takeReady s ok g = g (s.withReady l) x := by
  simp only [takeReady, front, kind, if_true]
  rfl

theorem takeReady_none {s : State} (ok : Copy → Bool) (g : State → Ready → State) (none : s.ring.ready = []) : takeReady s ok g = s := by
  simp only [takeReady, none]

/-- What a follower's commands keep of what the end of an ordinary command rests on, and the accepted packets. -/
structure FollowKeeps (s t : State) : Prop where
  strap : t.strap = s.strap
  pending : t.pending = s.pending
  tap : t.tap = s.tap
  upd : t.upd = s.upd
  ready : t.ring.ready = s.ring.ready
  pos : t.rd F.CL_MYPOS_VALID = s.rd F.CL_MYPOS_VALID

theorem FollowKeeps.refl (s : State) : FollowKeeps s s := ⟨rfl, rfl, rfl, rfl, rfl, rfl⟩

theorem FollowKeeps.trans {s t u : State} (h : FollowKeeps s t) (g : FollowKeeps t u) : FollowKeeps s u :=
  ⟨g.strap.trans h.strap, g.pending.trans h.pending, g.tap.trans h.tap, g.upd.trans h.upd, g.ready.trans h.ready, g.pos.trans h.pos⟩

theorem FollowKeeps.of_reports {s t : State} (h : Reports s t) : FollowKeeps s t :=
  ⟨h.strap, h.pending, h.tap, h.upd, h.ring_ready, h.rd _⟩

theorem FollowKeeps.of_control {s t : State} (h : ControlKeeps s t) : FollowKeeps s t :=
  ⟨h.link.strap, h.link.pending, h.link.tap, h.link.upd, h.ready, by simp only [State.rd, h.link.reg R.CL_MYPOS (by simp [linkBlock])]⟩

theorem setXid_follow (s : State) (x : Nat) (v : Xid) : FollowKeeps s (s.setXid x v) := ⟨rfl, rfl, rfl, rfl, rfl, rfl⟩

/-- What an ordinary command answers whose effect `u` keeps that: `u` but for reports; what `u` sent, sent; what `u` queued upward, queued. -/
theorem ordinary_follow {f : State → State} {s u : State} (effect : f s = u) (keeps : FollowKeeps s u ∨ ∃ l, FollowKeeps (s.withReady l) u) :
    ∃ t, ordinary f s = .next t ∧ Reports u t ∧ u.out <+: t.out ∧ (NoTrain u → OwedStays u t) := by
  subst effect
  have kept : (f s).strap = s.strap ∧ (f s).pending = s.pending ∧ (f s).tap = s.tap ∧ (f s).upd = s.upd ∧
      (f s).rd F.CL_MYPOS_VALID = s.rd F.CL_MYPOS_VALID := by
    rcases keeps with k | ⟨l, k⟩ <;> exact ⟨k.strap, k.pending, k.tap, k.upd, k.pos⟩
  obtain ⟨strap, pending, tap, upd, pos⟩ := kept
  have place : (f s).on F.CL_MYPOS_VALID = true → s.on F.CL_MYPOS_VALID = true := by simp only [State.on, pos]; exact id
  obtain ⟨t, run, rep⟩ := ordinary_runs f s strap pending tap (by rw [upd]) place
  refine ⟨t, run, rep, ordinary_out f s t run place, fun quiet => ?_⟩
  obtain rfl : _ = t := by simpa only [ordinary, Host.Outcome.next.injEq] using run
  refine (settle_stays s quiet).then_ring ?_
  rw [placed_eq s (f s) place]

/-! The uses (R122). -/

theorem State.setUse_xa (s : State) (x : Nat) (u : Option Use) : (s.setUse x u).xa = { s.xa with uses := s.xa.uses.set none x u } := by
  simp only [State.setUse, State.wr_xa]

theorem State.use_setUse (s : State) (x : Nat) (u : Option Use) : (s.setUse x u).use x = u := by
  rw [State.use, s.setUse_xa]
  exact Table.get_set_same _ _ _ _

theorem State.xid_setUse (s : State) (x : Nat) (u : Option Use) (y : Nat) : (s.setUse x u).xid y = s.xid y := by
  rw [State.xid, s.setUse_xa, State.xid]

theorem State.setUse_out (s : State) (x : Nat) (u : Option Use) : (s.setUse x u).out = s.out :=
  (State.wr_out _ _ _).trans (State.wr_out _ _ _)

theorem State.setUse_ports (s : State) (x : Nat) (u : Option Use) : (s.setUse x u).ports = s.ports :=
  (State.wr_ports _ _ _).trans (State.wr_ports _ _ _)

/-- Only XA_STAGE shows what is staged. -/
theorem State.reg_setUse (s : State) (x : Nat) (u : Option Use) {a : Nat} (h : a ≠ R.XA_STAGE) : (s.setUse x u).reg a = s.reg a := by
  rw [State.setUse, State.reg_wr_ne _ _ _ h, State.reg_wr_ne _ _ _ h]
  rfl

theorem wr_follow (s : State) (f : FRef) (v : Nat) (h : R.CL_MYPOS ≠ f.addr) : FollowKeeps s (s.wr f v) :=
  ⟨rfl, rfl, rfl, rfl, rfl, s.rd_wr_ne f F.CL_MYPOS_VALID v h⟩

theorem setUse_follow (s : State) (x : Nat) (u : Option Use) : FollowKeeps s (s.setUse x u) := by
  have used : FollowKeeps s { s with xa := { s.xa with uses := s.xa.uses.set none x u } } := ⟨rfl, rfl, rfl, rfl, rfl, rfl⟩
  exact (used.trans (wr_follow _ F.XA_STAGE_USED _ (by decide))).trans (wr_follow _ F.XA_STAGE_HIWATER _ (by decide))

theorem setUse_alone (s : State) (x : Nat) (u : Option Use) : AloneKeeps s (s.setUse x u) := by
  have used : AloneKeeps s { s with xa := { s.xa with uses := s.xa.uses.set none x u } } :=
    ⟨rfl, rfl, rfl, fun _ => rfl, fun _ _ => rfl, List.prefix_rfl⟩
  exact (used.trans (wr_alone_block _ (f := F.XA_STAGE_USED) _ (by decide))).trans (wr_alone_block _ (f := F.XA_STAGE_HIWATER) _ (by decide))

theorem State.xid_setXid (s : State) (y : Nat) (v : Xid) : (s.setXid y v).xid y = v := Table.get_set_same _ _ _ _

theorem State.uses_modXid (s : State) (y : Nat) (f : Xid → Xid) : (s.modXid y f).xa.uses = s.xa.uses := rfl

/-- The entries staged are the sum over the uses. -/
theorem stagedAll_eq_sum (s : State) : stagedAll s = (s.xa.uses.map fun e => e.2.elim 0 fun u => u.entries.length).sum := by
  unfold stagedAll
  induction s.xa.uses using List.reverseRecOn with
  | nil => rfl
  | append_singleton l e ih =>
    rw [List.foldl_append, ih, List.map_append, List.sum_append]
    cases h : e.2 <;> simp [h]

/-- A use taken away leaves no more staged. -/
theorem stagedAll_drop (s : State) (x : Nat) : stagedAll (s.setUse x none) ≤ stagedAll s := by
  rw [stagedAll_eq_sum, stagedAll_eq_sum]
  have rest : (s.setUse x none).xa.uses = s.xa.uses.filter fun e => e.1 != x := by
    rw [s.setUse_xa]
    simp only [Table.set, if_true]
  rw [rest]
  exact (List.filter_sublist.map _).sum_le_sum fun _ _ => Nat.zero_le _

/-! A prepare part (R122, R123). -/

/-- The use that the first part of an XID begins (R122). -/
def firstUse (c : Copy) : Use :=
  { epoch := beAt c.data 2 4, target := beAt c.data 8 6, ops := beAt c.data 16 1, slot := beAt c.data 17 1, rate := beAt c.data 18 1,
    dlead := beAt c.data 20 4, parts := [(c.route.toNat, beAt c.data 14 2, [beAt c.data 6 2])], entries := [], closed := false, voted := false,
    refused := false, badParts := false, full := false, windowEnd := beAt c.data 8 6 + 3, sub := none, down := 0, into := [], mute := false }

theorem traceXa_reports (s : State) (x phase target : Nat) : Reports s (traceXa s x phase target) := trace_reports _ _ _ _

/-- The trace record of the first part. -/
def partTraced (s : State) (c : Copy) : State := traceXa s (beAt c.data 1 1 % 16) 1 (beAt c.data 8 6)

theorem partTraced_reports (s : State) (c : Copy) : Reports s (partTraced s c) := traceXa_reports _ _ _ _

/-- A part addressed here of an XID without a use is staged where it has room. -/
theorem prepareAccept_here {s : State} {c : Copy} (unused : s.use (beAt c.data 1 1 % 16) = none)
    (room : stagedAll s + (partEntries c).length ≤ 512) :
    prepareAccept s c none = (partTraced s c).setUse (beAt c.data 1 1 % 16) (some { firstUse c with entries := partEntries c }) := by
  have fits : stagedAll ((partTraced s c).setUse (beAt c.data 1 1 % 16) none) + (partEntries c).length ≤ 512 := by
    have less := stagedAll_drop (partTraced s c) (beAt c.data 1 1 % 16)
    have same : stagedAll (partTraced s c) = stagedAll s := by simp only [stagedAll, (partTraced_reports s c).xa]
    omega
  simp only [partTraced] at fits
  simp [prepareAccept, useFor, unused, fits, firstUse, partTraced, addPart]

/-- A part that passes through a coach into a ring whose rate lets it carry parent transactions goes to a sub-transaction. -/
theorem prepareAccept_through {s : State} {c : Copy} {r k : Nat} (unused : s.use (beAt c.data 1 1 % 16) = none)
    (rate : rateRatio (s.rd (F.WT_RCFG_RATE r)) (s.rd F.WT_FMARK_RATE) = some k) :
    prepareAccept s c (some r) = (xaRelay (partTraced s c) r c none).1.setUse (beAt c.data 1 1 % 16)
      (some { firstUse c with down := (partEntries c).length, into := [r], sub := (xaRelay (partTraced s c) r c none).2,
                              mute := (xaRelay (partTraced s c) r c none).2.isNone }) := by
  have traced := partTraced_reports s c
  rw [← traced.rd, ← traced.rd F.WT_FMARK_RATE] at rate
  simp only [partTraced] at rate
  simp [prepareAccept, useFor, unused, rate, firstUse, partTraced, addPart]

/-- The sub-transaction that a coach begins for the first part of parent XID `x` (R123). -/
def firstSub (x : Nat) : Xid := { Xid.init with st := .preparing, parent := some x }

/-- A part goes into a ring with a FREE XID: nothing holds it back. -/
theorem xaRelay_begins {s : State} {c : Copy} {r y : Nat} (free : freeXidBelow s (if s.on F.XA_AUTO_SWAP_SYNC then 15 else 16) = some y)
    (clear : relayCause s r c.route.toNat = none) :
    xaRelay s r c none = (subPart (s.setXid y (firstSub (beAt c.data 1 1 % 16))) y r c, some y) := by
  have lives : subLives (s.setXid y (firstSub (beAt c.data 1 1 % 16))) y (beAt c.data 1 1 % 16) = true := by
    simp [subLives, State.xid_setXid, firstSub]
  have open_ : relayCause (s.setXid y (firstSub (beAt c.data 1 1 % 16))) r c.route.toNat = none := clear
  simp only [firstSub] at lives open_
  simp only [xaRelay, free, lives, open_, firstSub, Bool.not_true, Bool.false_eq_true, if_false]

/-- A part for ring `r` goes down with XID and TARGET rewritten, and the first one fixes the ring's target (R123). -/
theorem subPart_sends (s : State) (y r : Nat) (c : Copy) :
    ∃ w epoch part rest, subPart s y r c =
        (sendControl (s.setXid y w) r (downPacket 7 0 c.route.toNat (xaHead 1 y epoch part ++ bytesBE 6 (parentRatio s r * beAt c.data 8 6) ++ rest))).1 ∧
      w.st = (s.xid y).st ∧ w.parent = (s.xid y).parent ∧ ((s.xid y).rings = [] → w.rings = [(r, parentRatio s r * beAt c.data 8 6)]) := by
  have body : ∀ epoch part guard, xaHead 1 y epoch part ++ bytesBE 6 (parentRatio s r * beAt c.data 8 6) ++ slice c.data 14 2 ++ slice c.data 16 4 ++
        bytesBE 4 guard ++ c.data.drop 24 =
      xaHead 1 y epoch part ++ bytesBE 6 (parentRatio s r * beAt c.data 8 6) ++
        (slice c.data 14 2 ++ (slice c.data 16 4 ++ (bytesBE 4 guard ++ c.data.drop 24))) := fun _ _ _ => by
    simp only [List.append_assoc]
  simp only [subPart, body]
  apply Exists.intro
  exact ⟨_, _, _, rfl, rfl, rfl, fun none => by simp [none]⟩

/-- Staging a part changes nothing but the uses and what reports. -/
theorem prepareAccept_follow_here {s : State} {c : Copy} (unused : s.use (beAt c.data 1 1 % 16) = none)
    (room : stagedAll s + (partEntries c).length ≤ 512) : FollowKeeps s (prepareAccept s c none) := by
  rw [prepareAccept_here unused room]
  exact (FollowKeeps.of_reports (partTraced_reports s c)).trans (setUse_follow _ _ _)

/-- A part that passes a coach whose ring `r` may take it, with a FREE XID `y` (R110, R123). -/
structure Passes (s : State) (c : Copy) (r y k : Nat) : Prop where
  unused : s.use (beAt c.data 1 1 % 16) = none
  rate : rateRatio (s.rd (F.WT_RCFG_RATE r)) (s.rd F.WT_FMARK_RATE) = some k
  free : freeXidBelow s (if s.on F.XA_AUTO_SWAP_SYNC then 15 else 16) = some y
  clear : relayCause s r c.route.toNat = none

/-- What the coach does with it: the sub-transaction stands for the part, which leaves with its XID and its target. -/
theorem Passes.sends {s : State} {c : Copy} {r y k : Nat} (h : Passes s c r y k) : ∃ s1 u epoch part rest,
    prepareAccept s c (some r) = (sendControl s1 r
        (downPacket 7 0 c.route.toNat (xaHead 1 y epoch part ++ bytesBE 6 (k * beAt c.data 8 6) ++ rest))).1.setUse (beAt c.data 1 1 % 16) (some u) ∧
      (AloneKeeps s s1 ∧ FollowKeeps s s1) ∧
      ((s1.xid y).st = .preparing ∧ (s1.xid y).parent = some (beAt c.data 1 1 % 16) ∧ (s1.xid y).rings = [(r, k * beAt c.data 8 6)]) ∧
      u.sub = some y ∧ u.entries = [] := by
  obtain ⟨o, traced⟩ : ∃ o, partTraced s c = { s with obs := o } := by
    unfold partTraced traceXa trace
    split
    · exact ⟨_, rfl⟩
    · exact ⟨s.obs, rfl⟩
  have begins := xaRelay_begins (s := { s with obs := o }) (c := c) (r := r) h.free h.clear
  obtain ⟨w, epoch, part, rest, sends, st, parent, rings⟩ :=
    subPart_sends (({ s with obs := o } : State).setXid y (firstSub (beAt c.data 1 1 % 16))) y r c
  have ratio : parentRatio (({ s with obs := o } : State).setXid y (firstSub (beAt c.data 1 1 % 16))) r = k := by
    simp only [parentRatio, State.setXid_rd]
    exact congrArg (Option.getD · 1) h.rate
  rw [State.xid_setXid] at st parent rings
  rw [ratio] at sends rings
  rw [prepareAccept_through h.unused h.rate, traced, begins, sends]
  refine ⟨_, _, epoch, part, rest, rfl, ⟨⟨rfl, rfl, rfl, fun _ => rfl, fun _ _ => rfl, List.prefix_rfl⟩, rfl, rfl, rfl, rfl, rfl, rfl⟩, ?_, rfl, rfl⟩
  rw [State.xid_setXid]
  exact ⟨st, parent, rings rfl⟩

/-- R123: the part leaves every end of the ring that is UP, at a device alone that holds the ring and is not silent. -/
theorem Passes.leaves {s : State} {c : Copy} {r y k : Nat} (h : Passes s c r y k) (alone : pairEn s = false) (may : mayControl s r = true)
    (speaks : s.on (F.RED_RSTAT_SILENT r) = false) :
    FollowKeeps s (prepareAccept s c (some r)) ∧
    (((prepareAccept s c (some r)).xid y).st = .preparing ∧ ((prepareAccept s c (some r)).xid y).parent = some (beAt c.data 1 1 % 16) ∧
      ((prepareAccept s c (some r)).xid y).rings = [(r, k * beAt c.data 8 6)]) ∧
    (∃ u, (prepareAccept s c (some r)).use (beAt c.data 1 1 % 16) = some u ∧ u.sub = some y ∧ u.entries = []) ∧
    ∀ p ∈ ringEnds s r, s.isUp p = true → ∃ d, .packet p d ∈ (prepareAccept s c (some r)).out ∧ d.type = 7 ∧ d.route = c.route ∧ beAt d.data 0 1 = 1 ∧
      beAt d.data 1 1 = y ∧ beAt d.data 8 6 = k * beAt c.data 8 6 % 2 ^ 48 := by
  obtain ⟨s1, u, epoch, part, rest, eq, ⟨keeps, follow⟩, sub, used⟩ := h.sends
  have control := sendControl_control s1 r (downPacket 7 0 c.route.toNat (xaHead 1 y epoch part ++ bytesBE 6 (k * beAt c.data 8 6) ++ rest))
  rw [eq]
  refine ⟨(follow.trans (.of_control control)).trans (setUse_follow _ _ _), ?_, ⟨u, State.use_setUse _ _ _, used⟩, fun p end_ up => ?_⟩
  · rw [State.xid_setUse, State.xid, control.xa]
    exact sub
  · have leaves := sendControl_leaves (downPacket 7 0 c.route.toNat (xaHead 1 y epoch part ++ bytesBE 6 (k * beAt c.data 8 6) ++ rest))
      (keeps.pairEn.trans alone) ((keeps.mayControl alone r).trans may) (by rw [State.on, keeps.silent]; exact speaks)
      (by rwa [keeps.ringEnds]) (by rwa [keeps.isUp])
    obtain ⟨type, route, kind, xid, target⟩ :=
      downPacket_xa c.route.toNat 1 y epoch part (k * beAt c.data 8 6) (s1.rd (F.RED_RSTAT_SEQ r)) rest
    have small : y < 16 := by
      have := List.mem_of_find?_eq_some h.free
      rw [List.mem_range] at this
      split at this <;> omega
    rw [State.setUse_out]
    exact ⟨_, leaves, type, by rw [route, BitVec.ofNat_toNat, BitVec.setWidth_eq], kind, xid.trans (Nat.mod_eq_of_lt (by omega)), target⟩

/-- A ring whose generator runs takes a part, by broadcast where its roster is locked (R120, R126). -/
theorem relayCause_clear {s : State} {r route : Nat} (runs : genRuns s r = true)
    (locked : posOfRoute s route = 63 → s.on (F.CL_RTAB_FLAGS_LOCK r) = true) : relayCause s r route = none := by
  by_cases broadcast : posOfRoute s route = 63 <;> simp [relayCause, runs, broadcast, locked]

/-! The prepare close (R123, R124). -/

/-- The close of one ring of sub-transaction `y`, `e` the ring with its target (R121, R123). -/
def closeRing (y : Nat) (s : State) (e : Nat × Nat) : State :=
  (sendControl s e.1 (downPacket 7 0 (ringRoute s e.1) (closeBody y (epochOf s e.1) e.2))).1

/-- A coach's close of a sub-transaction that is PREPARING: one close per ring, then VOTING. -/
theorem subClose_preparing {s : State} {y : Nat} (preparing : (s.xid y).st = .preparing) :
    subClose s y = ((s.xid y).rings.foldl (closeRing y) s).modXid y fun v => { v with st := .voting } := by
  simp only [subClose, preparing]
  rfl

theorem subClose_other {s : State} {y : Nat} (other : (s.xid y).st ≠ .preparing) : subClose s y = s := by
  simp [subClose, other]

theorem closeRings_control (y : Nat) (l : List (Nat × Nat)) (s : State) : ControlKeeps s (l.foldl (closeRing y) s) :=
  .foldl (fun s _ => sendControl_control s _ _) l s

/-- A sub-transaction that is PREPARING is VOTING then. -/
theorem subClose_voting {s : State} {y : Nat} (preparing : (s.xid y).st = .preparing) : ((subClose s y).xid y).st = .voting := by
  rw [subClose_preparing preparing, State.modXid, State.xid_setXid]

/-- A coach's close reaches no use. -/
theorem subClose_uses (s : State) (y : Nat) : (subClose s y).xa.uses = s.xa.uses := by
  by_cases preparing : (s.xid y).st = .preparing
  · rw [subClose_preparing preparing, State.uses_modXid, (closeRings_control y _ s).xa]
  · rw [subClose_other preparing]

theorem subClose_follow (s : State) (y : Nat) : FollowKeeps s (subClose s y) := by
  by_cases preparing : (s.xid y).st = .preparing
  · rw [subClose_preparing preparing]
    exact (FollowKeeps.of_control (closeRings_control y _ s)).trans (setXid_follow _ _ _)
  · rw [subClose_other preparing]
    exact .refl s

theorem closeRing_alone (y : Nat) {s : State} (e : Nat × Nat) (alone : pairEn s = false) : AloneKeeps s (closeRing y s e) :=
  sendControl_alone s e.1 _ alone

theorem closeRings_alone (y : Nat) (l : List (Nat × Nat)) {s : State} (alone : pairEn s = false) : AloneKeeps s (l.foldl (closeRing y) s) := by
  induction l generalizing s with
  | nil => exact .refl s
  | cons e l ih =>
    have keeps := closeRing_alone y e alone
    exact keeps.trans (ih (keeps.pairEn.trans alone))

/-- A device alone sends a ring's close out of every end of it that is UP, whatever closes come before. -/
theorem closeRings_leave {s : State} {y p : Nat} {e : Nat × Nat} {l : List (Nat × Nat)} (mem : e ∈ l) (alone : pairEn s = false)
    (may : mayControl s e.1 = true) (speaks : s.on (F.RED_RSTAT_SILENT e.1) = false) (end_ : p ∈ ringEnds s e.1) (up : s.isUp p = true) :
    ∃ route epoch q, .packet p (downPacket 7 0 route (closeBody y epoch e.2) q) ∈ (l.foldl (closeRing y) s).out := by
  induction l generalizing s with
  | nil => exact absurd mem List.not_mem_nil
  | cons x l ih =>
    have keeps := closeRing_alone y x alone
    rcases List.mem_cons.1 mem with rfl | later
    · have stays := (closeRings_alone y l (keeps.pairEn.trans alone)).out.subset
      exact ⟨_, _, _, stays (sendControl_leaves _ alone may speaks end_ up)⟩
    · exact ih later (keeps.pairEn.trans alone) ((keeps.mayControl alone _).trans may) (by rw [State.on, keeps.silent]; exact speaks)
        (by rwa [keeps.ringEnds]) (by rwa [keeps.isUp])

/-- The closes of a sub-transaction's rings leave. -/
theorem subClose_leaves {s : State} {y p : Nat} {e : Nat × Nat} (preparing : (s.xid y).st = .preparing) (mem : e ∈ (s.xid y).rings)
    (alone : pairEn s = false) (may : mayControl s e.1 = true) (speaks : s.on (F.RED_RSTAT_SILENT e.1) = false) (end_ : p ∈ ringEnds s e.1)
    (up : s.isUp p = true) : ∃ route epoch q, .packet p (downPacket 7 0 route (closeBody y epoch e.2) q) ∈ (subClose s y).out := by
  rw [subClose_preparing preparing]
  exact closeRings_leave mem alone may speaks end_ up

/-- What a close of a sub-transaction says (R121). -/
theorem closeBody_fields (route y epoch target q : Nat) :
    let c := downPacket 7 0 route (closeBody y epoch target) q
    c.type = 7 ∧ beAt c.data 0 1 = 4 ∧ beAt c.data 1 1 = y % 256 ∧ beAt c.data 8 6 = target % 2 ^ 48 := by
  obtain ⟨type, -, kind, xid, target⟩ := downPacket_xa route 4 y epoch 0 target q (bytesBE 2 0)
  exact ⟨type, kind, xid, target⟩

/-! The vote (R124, R125). -/

/-- A use that may not vote yet, or no more: it has voted, is mute, is not closed, or waits for parts that agree so far. -/
def VoteWaits (u : Use) : Prop := u.voted = true ∨ u.mute = true ∨ u.closed = false ∨ (partsWhole u = false ∧ u.badParts = false)

/-- No vote leaves, and nothing changes. -/
theorem tryVote_waits {s : State} {x : Nat} (waits : ∀ u, s.use x = some u → VoteWaits u) : tryVote s x = s := by
  unfold tryVote
  split
  · rfl
  · rename_i u held
    refine if_pos ?_
    rcases waits u held with h | h | h | ⟨h, k⟩ <;> simp [*]

/-- A close of a use's EPOCH and TARGET, a part still missing: the use is closed, and its sub-transaction, if any. -/
theorem closeAccept_closes {s : State} {c : Copy} {u : Use} (held : s.use (beAt c.data 1 1 % 16) = some u) (epoch : u.epoch = beAt c.data 2 4)
    (target : u.target = beAt c.data 8 6) (open_ : u.closed = false) (missing : partsWhole u = false) (agree : u.badParts = false) :
    closeAccept s c = u.sub.elim (s.setUse (beAt c.data 1 1 % 16) (some { u with closed := true }))
      (subClose (s.setUse (beAt c.data 1 1 % 16) (some { u with closed := true }))) := by
  have waits : VoteWaits { u with closed := true } := .inr (.inr (.inr ⟨missing, agree⟩))
  have quiet : ∀ t : State, t.xa.uses = (s.setUse (beAt c.data 1 1 % 16) (some { u with closed := true })).xa.uses → tryVote t (beAt c.data 1 1 % 16) = t :=
    fun t uses => tryVote_waits fun v hv => by
      have now : t.use (beAt c.data 1 1 % 16) = some { u with closed := true } := by
        rw [State.use, uses]
        exact State.use_setUse ..
      obtain rfl : _ = v := Option.some.inj (now.symm.trans hv)
      exact waits
  unfold closeAccept
  simp only [held]
  rw [if_neg (by simp [epoch, target, open_])]
  generalize ({ u with closed := true } : Use) = v at quiet ⊢
  cases u.sub with
  | none => exact quiet _ rfl
  | some y => exact quiet _ (subClose_uses _ y)

/-- The close of a sub-transaction, where there is one, keeps what ordinary commands keep, and the uses. -/
theorem closing_keeps (s : State) (sub : Option Nat) : FollowKeeps s (sub.elim s (subClose s)) ∧ (sub.elim s (subClose s)).xa.uses = s.xa.uses := by
  cases sub with
  | none => exact ⟨.refl s, rfl⟩
  | some y => exact ⟨subClose_follow s y, subClose_uses s y⟩

/-- Any other close changes nothing. -/
theorem closeAccept_other {s : State} {c : Copy}
    (other : ∀ u, s.use (beAt c.data 1 1 % 16) = some u → u.epoch ≠ beAt c.data 2 4 ∨ u.target ≠ beAt c.data 8 6 ∨ u.closed = true) : closeAccept s c = s := by
  unfold closeAccept
  dsimp only
  split
  · rfl
  · rename_i u held
    refine if_pos ?_
    rcases other u held with h | h | h <;> simp [h]

/-- A use that may vote: closed, complete or with parts that disagree, not voted, its sub-transaction, if any, ready (R124). -/
structure VoteDue (s : State) (x : Nat) (u : Use) : Prop where
  held : s.use x = some u
  unvoted : u.voted = false
  loud : u.mute = false
  closed : u.closed = true
  parts : partsWhole u = true ∨ u.badParts = true
  ready : ∀ y, u.sub = some y → subReady s y x = true

/-- A sub-transaction that is ready has not ended. -/
theorem subLives_of_ready {s : State} {y x : Nat} (ready : subReady s y x = true) : subLives s y x = true := by
  simp only [subReady, Bool.and_eq_true] at ready
  obtain ⟨⟨parent, voting⟩, -⟩ := ready
  simp [subLives, parent, voting]

/-- The parts do not hold the vote back. -/
theorem VoteDue.enough {s : State} {x : Nat} {u : Use} (due : VoteDue s x u) : (!(partsWhole u) && !(u.badParts)) = false := by
  rcases due.parts with whole | bad
  · simp [whole]
  · simp [bad]

/-- No check fails: READY (R124). -/
theorem VoteDue.ready_leaves {s : State} {x : Nat} {u : Use} (due : VoteDue s x u) (passes : refuseCode s u = none) :
    tryVote s x = sendXaUp ((traceXa s x 2 u.target).setUse x (some { u with voted := true })) 2 x
      ([1#8] ++ bytesBE 1 0 ++ bytesBE 2 (u.entries.length + u.down) ++ bytesBE 4 0) := by
  have enough := due.enough
  obtain ⟨held, unvoted, loud, closed, -, ready⟩ := due
  unfold tryVote
  simp only [held, passes]
  generalize ({ u with voted := true } : Use) = v
  cases sub : u.sub with
  | none => simp [unvoted, loud, closed, enough]
  | some y => simp [unvoted, loud, closed, enough, ready y sub, subLives_of_ready (ready y sub)]

/-- A check fails: REFUSED with the first code, and the entries are dropped (R125). -/
theorem VoteDue.refusal_leaves {s : State} {x c : Nat} {u : Use} (due : VoteDue s x u) (fails : refuseCode s u = some c) :
    tryVote s x = sendXaUp ((raise (traceXa s x 2 u.target) 226 (d2 x c)).setUse x (some { u with voted := true, refused := true, entries := [] })) 2 x
      ([2#8] ++ bytesBE 1 c ++ bytesBE 2 (u.entries.length + u.down) ++ bytesBE 4 0) := by
  have enough := due.enough
  obtain ⟨held, unvoted, loud, closed, -, ready⟩ := due
  unfold tryVote
  simp only [held, fails]
  generalize ({ u with voted := true, refused := true, entries := [] } : Use) = v
  cases sub : u.sub with
  | none => simp [unvoted, loud, closed, enough]
  | some y => simp [unvoted, loud, closed, enough, subLives_of_ready (ready y sub)]

/-- An XA packet of the follower is what it would be before reports and a change of the uses. -/
theorem sendXaUp_eq {s u : State} (reg : ∀ a, a ≠ R.XA_STAGE → u.reg a = s.reg a) (sub x : Nat) (body : List Byte) :
    sendXaUp u sub x body = sendUp u 1 0 (upPacket s 7 (xaHead sub x ((followedEpoch s).getD 0) 0 ++ body)) := by
  have rd : ∀ f : FRef, f.addr ≠ R.XA_STAGE → u.rd f = s.rd f := fun f h => by rw [State.rd, reg _ h, ← State.rd]
  have epoch : followedEpoch u = followedEpoch s := by
    rw [followedEpoch, State.on, rd _ (by decide), rd _ (by decide), ← State.on, ← followedEpoch]
  rw [sendXaUp, upPacket, rd _ (by decide), rd _ (by decide), epoch, ← upPacket]

/-- A vote sent: the use stands as `v`, and the vote is queued upward with both copies owed. -/
theorem voted_effect {s u : State} (rep : Reports s u) (x : Nat) (v : Use) (body : List Byte) (position : s.on F.CL_MYPOS_VALID = true) (quiet : NoTrain s) :
    FollowKeeps s (sendXaUp (u.setUse x (some v)) 2 x body) ∧ NoTrain (sendXaUp (u.setUse x (some v)) 2 x body) ∧
      (sendXaUp (u.setUse x (some v)) 2 x body).use x = some v ∧
      Owed (sendXaUp (u.setUse x (some v)) 2 x body) (upPacket s 7 (xaHead 2 x ((followedEpoch s).getD 0) 0 ++ body)) := by
  have reg : ∀ a, a ≠ R.XA_STAGE → (u.setUse x (some v)).reg a = s.reg a := fun a h => (u.reg_setUse x _ h).trans (rep.reg a)
  have ports : (u.setUse x (some v)).ports = s.ports := (u.setUse_ports x _).trans (rep.ports quiet)
  rw [sendXaUp_eq reg]
  have sent := sendUp_reports (u.setUse x (some v)) 1 0 (upPacket s 7 (xaHead 2 x ((followedEpoch s).getD 0) 0 ++ body))
  refine ⟨((FollowKeeps.of_reports rep).trans (setUse_follow u x _)).trans (.of_reports sent), ?_, ?_, ?_⟩
  · exact (quiet.of_ports ports).of_ports (sent.ports (quiet.of_ports ports))
  · rw [State.use, sent.xa]
    exact u.use_setUse x _
  · refine sendUp_owed 0 _ ?_ (by decide)
    rw [State.on, State.rd, reg R.CL_MYPOS (by decide)]
    exact position

/-- The vote of a use that may vote: what the command answers. -/
theorem xaVoteSend_votes {s : State} {x : Fin 16} {v : Use} {t : State} {body : List Byte} (rep : Reports s t)
    (votes : tryVote s x.val = sendXaUp (t.setUse x.val (some v)) 2 x.val body) (position : s.on F.CL_MYPOS_VALID = true) (quiet : NoTrain s) :
    Runs (.xaVoteSend x) s fun t => t.use x.val = some v ∧ Queued t (upPacket s 7 (xaHead 2 x.val ((followedEpoch s).getD 0) 0 ++ body)) := by
  obtain ⟨keeps, still, use, owed⟩ := voted_effect rep x.val v body position quiet
  obtain ⟨t, run, after, -, stays⟩ := ordinary_follow (f := fun s => tryVote s x.val) votes (.inl keeps)
  exact ⟨t, run, by rw [State.use, after.xa]; exact use, ((stays still).owed _ owed).queued⟩

/-! The obligation, clause by clause. -/

/-- The effect of XA_PREPARE_RX (R122). -/
def prepareRx (s : State) : State := takeReady s (fun c => c.type == 7 && beAt c.data 0 1 == 1) prepareRun

/-- The effect of XA_PREPARE_CLOSE_RX (R124). -/
def closeRx (s : State) : State := takeReady s (fun c => c.type == 7 && beAt c.data 0 1 == 4) fun s x => closeAccept s x.pkt

theorem exec_xaPrepareRx (s : State) : exec .xaPrepareRx s = ordinary prepareRx s := rfl

theorem exec_xaPrepareCloseRx (s : State) : exec .xaPrepareCloseRx s = ordinary closeRx s := rfl

section
variable {s : State} {r : Ready} {l : List Ready}

theorem prepareRx_front (front : s.ring.ready = r :: l) (type : r.pkt.type = 7) (kind : beAt r.pkt.data 0 1 = 1) :
    prepareRx s = prepareRun (s.withReady l) r :=
  takeReady_front _ front (by simp [type, kind])

theorem closeRx_front (front : s.ring.ready = r :: l) (type : r.pkt.type = 7) (kind : beAt r.pkt.data 0 1 = 4) :
    closeRx s = closeAccept (s.withReady l) r.pkt :=
  takeReady_front _ front (by simp [type, kind])

/-- A part addressed here, with room for its entries (R122). -/
theorem xaPrepareRx_stages {b : Bool} (front : s.ring.ready = r :: l) (type : r.pkt.type = 7) (kind : beAt r.pkt.data 0 1 = 1)
    (here : readRoute s r.pkt.route.toNat = .here b) (unused : s.use (beAt r.pkt.data 1 1 % 16) = none)
    (room : stagedAll s + (partEntries r.pkt).length ≤ 512) :
    Runs .xaPrepareRx s fun t => t.ring.ready = l ∧
      t.use (beAt r.pkt.data 1 1 % 16) = some { firstUse r.pkt with entries := partEntries r.pkt } := by
  have route : readRoute (s.withReady l) r.pkt.route.toNat = .here b := here
  have unused' : (s.withReady l).use (beAt r.pkt.data 1 1 % 16) = none := unused
  have room' : stagedAll (s.withReady l) + (partEntries r.pkt).length ≤ 512 := room
  have effect := prepareRx_front front type kind
  rw [show prepareRun (s.withReady l) r = prepareAccept (s.withReady l) r.pkt none by simp only [prepareRun, route]] at effect
  have keeps := prepareAccept_follow_here unused' room'
  obtain ⟨t, run, rep, -⟩ := ordinary_follow effect (.inr ⟨l, keeps⟩)
  refine ⟨t, (exec_xaPrepareRx s).trans run, rep.ring_ready.trans keeps.ready, ?_⟩
  rw [State.use, rep.xa, prepareAccept_here unused' room']
  exact State.use_setUse _ _ _

/-- A part that passes through a coach that is alone into a ring it holds (R110, R123). -/
theorem xaPrepareRx_passes {n y k : Nat} (front : s.ring.ready = r :: l) (type : r.pkt.type = 7) (kind : beAt r.pkt.data 0 1 = 1)
    (through : readRoute s r.pkt.route.toNat = .through n) (passes : Passes s r.pkt n y k) (alone : pairEn s = false) (may : mayControl s n = true)
    (speaks : s.on (F.RED_RSTAT_SILENT n) = false) :
    Runs .xaPrepareRx s fun t => t.ring.ready = l ∧ (t.xid y).st = .preparing ∧ (t.xid y).parent = some (beAt r.pkt.data 1 1 % 16) ∧
      (t.xid y).rings = [(n, k * beAt r.pkt.data 8 6)] ∧ (∃ u, t.use (beAt r.pkt.data 1 1 % 16) = some u ∧ u.sub = some y ∧ u.entries = []) ∧
      ∀ p ∈ ringEnds s n, s.isUp p = true → ∃ c, .packet p c ∈ t.out ∧ c.type = 7 ∧ c.route = r.pkt.route ∧ beAt c.data 0 1 = 1 ∧ beAt c.data 1 1 = y ∧
        beAt c.data 8 6 = k * beAt r.pkt.data 8 6 % 2 ^ 48 := by
  have route : readRoute (s.withReady l) r.pkt.route.toNat = .through n := through
  have passes' : Passes (s.withReady l) r.pkt n y k := ⟨passes.unused, passes.rate, passes.free, passes.clear⟩
  obtain ⟨keeps, ⟨st, parent, rings⟩, ⟨u, used, sub⟩, leaves⟩ := passes'.leaves alone may speaks
  have effect := prepareRx_front front type kind
  rw [show prepareRun (s.withReady l) r = prepareAccept (s.withReady l) r.pkt (some n) by simp only [prepareRun, route]] at effect
  obtain ⟨t, run, rep, sent, -⟩ := ordinary_follow effect (.inr ⟨l, keeps⟩)
  have xid : t.xid y = (prepareAccept (s.withReady l) r.pkt (some n)).xid y := by rw [State.xid, rep.xa, State.xid]
  refine ⟨t, (exec_xaPrepareRx s).trans run, rep.ring_ready.trans keeps.ready, by rw [xid, st], by rw [xid, parent], by rw [xid, rings], ⟨u, ?_, sub⟩,
    fun p end_ up => ?_⟩
  · rw [State.use, rep.xa]
    exact used
  · obtain ⟨d, out, shape⟩ := leaves p end_ up
    exact ⟨d, sent.subset out, shape⟩

/-- A close of a use's EPOCH and TARGET, a part still missing (R123, R124). -/
theorem xaPrepareCloseRx_closes {u : Use} (front : s.ring.ready = r :: l) (type : r.pkt.type = 7) (kind : beAt r.pkt.data 0 1 = 4)
    (held : s.use (beAt r.pkt.data 1 1 % 16) = some u) (epoch : u.epoch = beAt r.pkt.data 2 4) (target : u.target = beAt r.pkt.data 8 6)
    (open_ : u.closed = false) (missing : partsWhole u = false) (agree : u.badParts = false) :
    Runs .xaPrepareCloseRx s fun t => t.ring.ready = l ∧ t.use (beAt r.pkt.data 1 1 % 16) = some { u with closed := true } ∧
      ∀ y, u.sub = some y → (s.xid y).st = .preparing → (t.xid y).st = .voting ∧
        (pairEn s = false → ∀ e ∈ (s.xid y).rings, mayControl s e.1 = true → s.on (F.RED_RSTAT_SILENT e.1) = false → ∀ p ∈ ringEnds s e.1, s.isUp p = true →
          ∃ c, .packet p c ∈ t.out ∧ c.type = 7 ∧ beAt c.data 0 1 = 4 ∧ beAt c.data 1 1 = y % 256 ∧ beAt c.data 8 6 = e.2 % 2 ^ 48) := by
  have effect := closeRx_front front type kind
  rw [closeAccept_closes (s := s.withReady l) held epoch target open_ missing agree] at effect
  generalize ({ u with closed := true } : Use) = v at effect ⊢
  obtain ⟨keeps, uses⟩ := closing_keeps ((s.withReady l).setUse (beAt r.pkt.data 1 1 % 16) (some v)) u.sub
  obtain ⟨t, run, rep, sent, -⟩ := ordinary_follow effect (.inr ⟨l, (setUse_follow _ _ _).trans keeps⟩)
  refine ⟨t, (exec_xaPrepareCloseRx s).trans run, rep.ring_ready.trans ((setUse_follow _ _ _).trans keeps).ready, ?_, fun y sub preparing => ?_⟩
  · rw [State.use, rep.xa, uses]
    exact State.use_setUse _ _ _
  · rw [sub] at rep sent
    have preparing' : (((s.withReady l).setUse (beAt r.pkt.data 1 1 % 16) (some v)).xid y).st = .preparing := by
      rw [State.xid_setUse]
      exact preparing
    refine ⟨?_, fun alone e mem may speaks p end_ up => ?_⟩
    · rw [State.xid, rep.xa]
      exact subClose_voting preparing'
    · have popped : AloneKeeps s (s.withReady l) := ⟨rfl, rfl, rfl, fun _ => rfl, fun _ _ => rfl, List.prefix_rfl⟩
      have alike := popped.trans (setUse_alone (s.withReady l) (beAt r.pkt.data 1 1 % 16) (some v))
      obtain ⟨route, epoch, q, out⟩ := subClose_leaves preparing' (e := e) (by rw [State.xid_setUse]; exact mem) (alike.pairEn.trans alone)
        ((alike.mayControl alone _).trans may) (by rw [State.on, alike.silent]; exact speaks) (by rwa [alike.ringEnds]) (by rwa [alike.isUp])
      exact ⟨_, sent.subset out, closeBody_fields route y epoch e.2 q⟩

/-- Any other close leaves the queue and nothing else. -/
theorem xaPrepareCloseRx_other (front : s.ring.ready = r :: l) (type : r.pkt.type = 7) (kind : beAt r.pkt.data 0 1 = 4)
    (other : ∀ u, s.use (beAt r.pkt.data 1 1 % 16) = some u → u.epoch ≠ beAt r.pkt.data 2 4 ∨ u.target ≠ beAt r.pkt.data 8 6 ∨ u.closed = true) :
    Runs .xaPrepareCloseRx s (Reports (s.withReady l)) := by
  have effect := closeRx_front front type kind
  rw [closeAccept_other (s := s.withReady l) other] at effect
  obtain ⟨t, run, rep, -⟩ := ordinary_follow effect (.inr ⟨l, .refl _⟩)
  exact ⟨t, (exec_xaPrepareCloseRx s).trans run, rep⟩

end

/-- Settles O40: a part staged, a part passed down, a close, another close, the vote, no vote, and no packet at the front. -/
theorem followersStageAndVote : Obligations.FollowersStageAndVote := by
  refine ⟨?_, ?_, ?_, ?_, ?_, ?_, ?_⟩
  · intro s r l b front type kind here unused room
    obtain ⟨t, run, ready, use⟩ := xaPrepareRx_stages front type kind here unused room
    exact ⟨t, run, ready, _, use, rfl, rfl, rfl, rfl, rfl, rfl⟩
  · intro s r l n y k front type kind through unused may speaks alone rate runs locked free
    exact xaPrepareRx_passes front type kind through ⟨unused, rate, free, relayCause_clear runs locked⟩ alone may speaks
  · intro s r l u front type kind held epoch target open_ missing agree
    exact xaPrepareCloseRx_closes front type kind held epoch target open_ missing agree
  · intro s r l front type kind other
    exact xaPrepareCloseRx_other front type kind other
  · intro x s u held unvoted loud closed parts ready position quiet
    have due : VoteDue s x.val u := ⟨held, unvoted, loud, closed, parts, ready⟩
    cases verdict : refuseCode s u with
    | none =>
      obtain ⟨t, run, voted⟩ := xaVoteSend_votes (traceXa_reports ..) (due.ready_leaves verdict) position quiet
      exact ⟨t, run, fun _ => voted, fun c h => by simp at h⟩
    | some c =>
      obtain ⟨t, run, voted⟩ := xaVoteSend_votes ((traceXa_reports ..).trans (raise_reports ..)) (due.refusal_leaves verdict) position quiet
      refine ⟨t, run, fun h => by simp at h, fun d h => ?_⟩
      obtain rfl : c = d := by simpa using h
      exact voted
  · intro x s waits
    exact ordinary_idle (fun s => tryVote s x.val) s (tryVote_waits waits)
  · intro s empty
    exact ⟨ordinary_idle prepareRx s (takeReady_none _ _ empty), ordinary_idle closeRx s (takeReady_none _ _ empty)⟩

end Sys2Proof.Machine
end


section
/-! PROOF. PORST_N low and a low supply (O11): the device as every field at its reset value leaves it, held in reset (R9, R61, R429). -/
namespace Sys2Proof.Machine

/-- A command of the supply monitor or of a low PORST_N answers its effect, but for reports, with what it sent first. -/
theorem porstLow_runs (s : State) :
    ∃ t, powering porstLow s = .next t ∧ Reports (porstLow s) t ∧ (porstLow s).out <+: t.out := by
  have rep := settle_reports s (porstLow s)
  have low : (settle s (porstLow s)).sys.low = 1 := by rw [rep.sys]; rfl
  refine ⟨_, rfl, ?_, settle_out s (porstLow s)⟩
  have upd : (settle s (porstLow s)).upd = (porstLow s).upd := rep.upd
  rw [if_pos low, upd]
  obtain ⟨⟩ := rep
  constructor <;> assumption

/-- Settles O11: both commands bring the effect of PORST_N low, and the end of the command only reports. -/
theorem porstHoldsTheDeviceInReset : Obligations.PorstHoldsTheDeviceInReset := by
  intro c s row
  have run : exec c s = powering porstLow s := by rcases row with rfl | rfl <;> rfl
  obtain ⟨t, done, rep, sent⟩ := porstLow_runs s
  refine ⟨t, run.trans done, ?_, Reports.trans ?_ rep⟩
  · obtain ⟨r, sent⟩ := sent
    exact ⟨r, sent.symm⟩
  · constructor <;> (intros; rfl)

end Sys2Proof.Machine
end

section
/-! PROOF. Two statements of the lanes chapter that fail. PORT_ENABLE on a carriage (O21): LANE0 and LANE1 of CL_PCFG are read-only there, so that the lanes
which the written word names are not those that the port uses (R35). TRAIN_GROUP_RX (O23): a group can give the device a position, a request of BYPASS that
waited for one acts then (R24), and closing the by-pass switch takes the port on to SETTLE (R61, R62). -/
namespace Sys2Proof.Machine

/-! PORT_ENABLE on a carriage. -/

/-- A carriage in STANDBY whose ring ports search; port 2 is off, and its LANE0, as after reset, is lane 0, which port 0 uses. -/
def sharedLane : State :=
  [(F.SYS_MSTAT_MODE, 2), (F.CL_PSTAT_STATE 0, 1), (F.CL_PSTAT_STATE 1, 1)].foldl (fun s e => s.wr e.1 e.2) (State.fresh ⟨.carriage, 0, 1, 0x200⟩ [])

/-- CL_PCFG with LANE0 = 8 and LANE1 = 9, lanes that no port uses. -/
def freeLanes : Word := 0x98000#32

theorem exec_portEnable (path : Access) (p : Fin 12) (w : Word) (s : State) :
    exec (.portEnable path p w) s = ordinary (fun s => regWrite s path (R.CL_PCFG p.val) (setBits w.toNat 0 1 1)) s := rfl

/-- The write leaves port 2 in OFF: it keeps lane 0, which port 0 uses as well (R35). -/
theorem sharedLane_staysOff {t : State} (run : exec (.portEnable .packet 2 freeLanes) sharedLane = .next t) : t.pst 2 = 0 := by
  rw [exec_portEnable] at run
  rw [State.pst, ordinary_rd_placed _ run (by decide +kernel)]
  decide +kernel

/-- Refutes O21: a carriage keeps LANE0 of port 2 whatever the word says, and a port that shares its lane stays in OFF. -/
theorem not_portsComeUpStepByStep : ¬ Obligations.PortsComeUpStepByStep := by
  intro h
  obtain ⟨t, run, search, -⟩ := h.1 .packet 2 freeLanes sharedLane (by decide +kernel) (by decide +kernel) (by decide +kernel) (by decide +kernel)
    (by decide +kernel) (by decide +kernel) (by decide +kernel) (by decide +kernel)
  have off : t.pst 2 = 0 := sharedLane_staysOff run
  exact absurd (off.symm.trans search) (by decide)

/-! TRAIN_GROUP_RX with a request that waits for a position. -/

/-- A carriage in STANDBY without a position: the switch is open, port 0 is UP with block lock and receives the eastbound stream, the ring table is held,
and a request of BYPASS waits (R24, R371). -/
def upUnplaced : State :=
  let s := [(F.SYS_MSTAT_MODE, 2), (F.CL_BYP_BYP_STATE, 1), (F.CL_PSTAT_STATE 0, 6), (F.CL_PSTAT_DIR_RX 0, 1), (F.LANE_STAT_BLOCK_LOCK 0, 1)].foldl
    (fun s e => s.wr e.1 e.2) (State.fresh ⟨.carriage, 0, 1, 0x200⟩ [])
  { s with ring := { s.ring with tableHeld := true }, sys := { s.sys with waiting := some 0 } }

/-- The first 22 bytes of a group from device 2 at position 4 that sends eastbound (R48). -/
def groupBody : List Byte := bytesBE 4 0 ++ bytesBE 4 0 ++ bytesBE 4 0 ++ bytesBE 8 2 ++ bytesBE 1 1 ++ bytesBE 1 4

/-- That group with its CRC. -/
def neighbourGroup : List Byte := groupBody ++ bytesBE 2 (crc16 groupBody)

/-- The group in its four blocks. -/
def neighbourBlocks : List (BitVec 64) := (trainBlocks neighbourGroup).map fun x => x.block.payload

/-- The effect of TRAIN_GROUP_RX on a port with these blocks. -/
def trainTaken (p : Nat) (blocks : List (BitVec 64)) (t4 : Nat) : State → State := linked fun s => trainRx s p blocks t4

theorem exec_trainGroupRx (p : Fin 12) (blocks : List (BitVec 64)) (t4 : Word) (s : State) :
    exec (.trainGroupRx p blocks t4) s = ordinary (trainTaken p.val blocks t4.toNat) s := rfl

/-- The request of BYPASS acts on the position: the switch closes and the port goes to SETTLE. -/
theorem upUnplaced_settles {t : State} (run : exec (.trainGroupRx 0 neighbourBlocks 0#32) upUnplaced = .next t) : t.pst 0 = 7 := by
  rw [exec_trainGroupRx] at run
  rw [State.pst, ordinary_rd_placed _ run (by decide +kernel)]
  decide +kernel

/-- Refutes O23: a port in UP is left in SETTLE, not in TRAIN, where its group gives the position that a request of BYPASS waits for. -/
theorem not_trainGroupsAreExchanged : ¬ Obligations.TrainGroupsAreExchanged := by
  intro h
  obtain ⟨-, -, named, -⟩ := h
  obtain ⟨t, run, -, -, train⟩ := named 0 neighbourBlocks neighbourGroup 0#32 upUnplaced (by decide +kernel) (by decide +kernel) (by decide +kernel)
  have settle : t.pst 0 = 7 := upUnplaced_settles run
  exact absurd (settle.symm.trans (train (by decide +kernel))) (by decide)

end Sys2Proof.Machine
end

section
/-! PROOF. What follows a change of the mirror link (`linkCheck`) and a second look at what waits (`retryHeads`) only add to what was sent
(O25, O26). `simp -implicitDefEqProofs` keeps the steps of a setter in the proof: to check `t.out = s.out` by unfolding alone compares whole states. -/
namespace Sys2Proof.Machine

/-- What was sent stays sent, and more may follow. -/
structure Grows (s t : State) : Prop where
  out : s.out <+: t.out

theorem Grows.refl (s : State) : Grows s s := ⟨List.prefix_rfl⟩

theorem Grows.trans {s t u : State} (h : Grows s t) (g : Grows t u) : Grows s u := ⟨h.out.trans g.out⟩

/-- A change that only adds to what was sent. -/
theorem Grows.adds {s t : State} (h : s.out <+: t.out) : Grows s t := ⟨h⟩

/-- What follows such a change. -/
theorem Grows.after {s t u : State} (g : Grows t u) (h : s.out <+: t.out) : Grows s u := (Grows.adds h).trans g

theorem Grows.foldl {β : Type} {f : State → β → State} (hf : ∀ s x, Grows s (f s x)) (l : List β) (s : State) : Grows s (l.foldl f s) :=
  ⟨out_foldl f (fun s x => (hf s x).out) l s⟩

theorem Grows.forIdx {f : State → Nat → State} (hf : ∀ s x, Grows s (f s x)) (n : Nat) (s : State) : Grows s (forIdx n s f) :=
  Grows.foldl hf _ s

theorem Grows.ite {c : Prop} [Decidable c] {s t u : State} (ht : Grows s t) (hu : Grows s u) : Grows s (if c then t else u) := by
  split
  · exact ht
  · exact hu

theorem raise_grows (s : State) (n : Nat) (d : List Byte) : Grows s (raise s n d) := ⟨raise_out s n d⟩

/-- A report after a change that only adds to what was sent. -/
theorem Grows.reporting {s t : State} {n : Nat} {d : List Byte} (h : s.out <+: t.out) : Grows s (raise t n d) := (raise_grows t n d).after h

/-- A report after such a change. -/
theorem Grows.raised {s t : State} {n : Nat} {d : List Byte} (g : Grows s t) : Grows s (raise t n d) := g.trans (raise_grows t n d)

/-! The pair. -/

@[simp] theorem showMq_out (s : State) : (showMq s).out = s.out := by simp -implicitDefEqProofs [showMq]
@[simp] theorem mirrorReset_out (s : State) : (mirrorReset s).out = s.out := by simp -implicitDefEqProofs [mirrorReset]
@[simp] theorem dropPix_out (s : State) (r q : Nat) : (dropPix s r q).out = s.out := by simp -implicitDefEqProofs [dropPix]
@[simp] theorem notePixel_out (s : State) (r q : Nat) (c : Copy) : (notePixel s r q c).out = s.out := by simp -implicitDefEqProofs [notePixel]

theorem mirrorSend_grows (s : State) (u : Bool) (k a : Nat) (b : List Nat) : Grows s (mirrorSend s u k a b) := by
  unfold mirrorSend
  split
  · exact .refl s
  · dsimp only
    split
    · exact .adds (by simp [mirrorOut])
    · exact .ite (.reporting (by simp -implicitDefEqProofs)) (.adds (by simp -implicitDefEqProofs))

theorem redRefresh_grows (s : State) : Grows s (redRefresh s) := by
  have whistled : ∀ s r, Grows s (sendWhistle s r) := fun s r => ⟨List.prefix_append _ _⟩
  unfold redRefresh
  split
  · exact .refl s
  · exact (Grows.foldl (fun s r => .ite (.refl s) (whistled s r)) _ _).after (by simp -implicitDefEqProofs)

theorem emitDown_grows (s : State) (r : Nat) (c : Copy) : Grows s (emitDown s r c) := ⟨List.prefix_append _ _⟩

theorem sendSeq_grows (s : State) (r : Nat) (c : Copy) : Grows s (sendSeq s r c) := by
  unfold sendSeq
  split
  · exact (emitDown_grows _ r c).after (by simp -implicitDefEqProofs)
  · exact .refl s

theorem sendWaited_grows (s : State) (r q : Nat) (c : Copy) : Grows s (sendWaited s r q c) := by
  unfold sendWaited
  dsimp only
  split
  · exact (sendSeq_grows _ r _).after (by simp -implicitDefEqProofs)
  · exact .adds (by simp -implicitDefEqProofs)

theorem pumpStandby_grows (k : Nat) (s : State) (r : Nat) : Grows s (pumpStandby k s r) := by
  induction k generalizing s with
  | zero => exact .refl s
  | succ k ih =>
    unfold pumpStandby
    dsimp only
    split
    · exact .refl s
    · split
      · split
        · exact (((sendSeq_grows _ r _).after (by simp -implicitDefEqProofs))).trans (ih _)
        · exact .ite (.refl s) ((ih _).after (by simp -implicitDefEqProofs))
      · split
        · exact .refl s
        · exact (((sendWaited_grows _ r _ _).after (by simp -implicitDefEqProofs))).trans (ih _)

theorem endStream_grows (s : State) (r : Nat) : Grows s (endStream s r) := by
  refine ⟨?_⟩
  unfold endStream pump
  dsimp only
  rw [State.setLease_out]
  exact ((pumpStandby_grows _ s r).trans (.foldl (fun s _ => sendWaited_grows s r _ _) _ _)).out

theorem alignShow_grows (s : State) : Grows s (alignShow s) := by
  unfold alignShow
  exact .ite (.refl s) (.reporting (by simp -implicitDefEqProofs))

theorem sendSync_grows (s : State) (a : Nat) (h b : List Nat) : Grows s (sendSync s a h b) := .foldl (fun s _ => mirrorSend_grows s _ _ _ _) _ s

theorem sendContent_grows (s : State) (f : Nat) : Grows s (sendContent s f) := by
  unfold sendContent
  dsimp only
  refine Grows.trans (Grows.trans ?_ (.foldl (fun s i => .ite (sendSync_grows s _ _ _) (.refl s)) _ _)) (mirrorSend_grows _ _ _ _ _)
  exact ((((sendSync_grows s _ _ _).trans (.foldl (fun s _ => mirrorSend_grows s _ _ _ _) _ _)).trans (.foldl (fun s _ => sendSync_grows s _ _ _) _ _)).trans
    (.foldl (fun s _ => mirrorSend_grows s _ _ _ _) _ _)).trans (.foldl (fun s _ => mirrorSend_grows s _ _ _ _) _ _)

theorem startResync_grows (s : State) : Grows s (startResync s) := by
  unfold startResync becomeTarget
  exact .ite (.refl s) (.ite ((sendContent_grows _ _).after (by simp -implicitDefEqProofs)) ((redRefresh_grows _).after (by simp -implicitDefEqProofs)))

/-! The host interface and transactions. -/

theorem cplTell_grows (s : State) : Grows s (cplTell s) := by
  unfold cplTell
  split
  · exact .refl s
  · exact (raise_grows s 448 (bytesLE 2 s.hif.dirty)).trans (.adds (by simp -implicitDefEqProofs))

theorem postCpl_grows (s : State) (n : Nat) (r : CplRec) : Grows s (postCpl s n r) := by
  unfold postCpl
  exact .ite (.refl s) ((cplTell_grows _).after (by simp -implicitDefEqProofs))

theorem finishWith_grows (s : State) (j : Job) (r : CplRec) : Grows s (finishWith s j r) := (postCpl_grows _ _ r).after (by simp -implicitDefEqProofs)

theorem postXa_grows (s : State) (x n : Nat) : Grows s (postXa s x n) := by
  unfold postXa
  dsimp only
  split
  · exact .refl s
  · split
    · exact .adds (by simp -implicitDefEqProofs)
    · exact (finishWith_grows _ _ _).after (by simp -implicitDefEqProofs)

theorem abortXid_grows (s : State) (x a b c d : Nat) : Grows s (abortXid s x a b c d) := by
  have told : ∀ v : Xid, ∀ e : List Byte, Grows s (postXa (count (raise (traceXa (s.setXid x v) x 5 (s.xid x).target) 225 e) 36 1) x a) := fun v e =>
    ((Grows.reporting (by simp [traceXa, trace_out])).trans (.adds (count_out _ 36 1))).trans (postXa_grows _ x a)
  unfold abortXid
  dsimp only
  split
  · exact told _ _
  · split
    · exact told _ _
    · refine ⟨?_⟩
      rw [freeXid, State.setXid_out]
      exact (told _ _).out

theorem pairLink_grows (s : State) : Grows s (pairLink s) := by
  unfold pairLink
  split
  · exact redRefresh_grows s
  · dsimp only
    split
    · exact redRefresh_grows s
    · split
      · refine Grows.trans ?_ (redRefresh_grows _)
        have marked : ((enabledRings s).foldl (fun (s : State) r =>
            s.setLease r { s.lease r with mark := s.rd (F.RED_RSTAT_SEQ r), jumped := false }) s).out = s.out :=
          out_foldl_eq _ (fun _ _ => by simp) _ s
        have up : ∀ f : Pair → Pair, Grows s (raise (((enabledRings s).foldl (fun (s : State) r =>
            s.setLease r { s.lease r with mark := s.rd (F.RED_RSTAT_SEQ r), jumped := false }) s).modPair f) 436 (d2 0 0)) := fun f =>
          .reporting (by simp [marked])
        exact .ite ((up _).trans (startResync_grows _)) (up _)
      · refine Grows.trans ?_ (redRefresh_grows _)
        have down : ∀ f : Pair → Pair, Grows s
            (raise (mirrorReset (((enabledRings s).foldl (fun s r => if holds s r then s else endStream s r) s).modPair f)) 435 (d2 0 0)) := fun f => by
          refine .raised ⟨?_⟩
          rw [mirrorReset_out, State.modPair_out]
          exact (Grows.foldl (fun s r => .ite (.refl s) (endStream_grows s r)) _ s).out
        exact .ite (down _) ((down _).trans (.forIdx (fun s x => .ite (abortXid_grows s x _ _ _ _) (.refl s)) _ _))

theorem pairCheck_grows (s : State) : Grows s (pairCheck s) := (pairLink_grows s).trans (alignShow_grows _)

/-! DRAM and the network. -/

theorem dramCmd_grows (s : State) (c k a : Nat) : Grows s (dramCmd s c k a) := .adds (by simp [dramCmd])

theorem refreshes_grows (k : Nat) (s : State) (c : Nat) : Grows s (refreshes k s c) := by
  induction k generalizing s with
  | zero => exact .refl s
  | succ k ih =>
    refine Grows.trans ?_ (ih _)
    unfold refresh
    exact .ite (((dramCmd_grows _ c 1 0).after (by simp -implicitDefEqProofs)).trans (dramCmd_grows _ c 2 0))
      ((dramCmd_grows _ c 1 0).after (by simp -implicitDefEqProofs))

theorem enterSr_grows (s : State) (c : Nat) : Grows s (enterSr s c) := by
  unfold enterSr
  split
  · exact .refl s
  · refine Grows.trans ⟨?_⟩ (dramCmd_grows _ c 3 0)
    rw [State.wr_out, State.wr_out]
    refine (Grows.trans (.trans ⟨?_⟩ (dramCmd_grows _ c 5 0)) (dramCmd_grows _ c 6 _)).out
    rw [State.wr_out]
    exact (refreshes_grows _ s c).out

theorem touch_grows (s : State) (c : Nat) : Grows s (touch s c) := by
  have left : Grows s (exitSr s c) := .ite (.refl s) (((dramCmd_grows _ c 4 0).after (by simp -implicitDefEqProofs)).trans (dramCmd_grows _ c 2 0))
  unfold touch settleSr
  exact .ite (.refl s) (left.trans (.ite (enterSr_grows _ c) (.refl _)))

theorem recode_out (s : State) (a : Nat) (l : List (Option Byte)) : (recode s a l).out = s.out := by
  unfold recode
  refine out_foldl_eq _ (fun s p => ?_) _ s
  dsimp only
  split <;> rfl

theorem storeBytes_out (l : List (Option Byte)) (s : State) (a : Nat) : (storeBytes s a l).out = s.out := by
  induction l generalizing s a with
  | nil => rfl
  | cons b r ih =>
    unfold storeBytes
    rw [ih]
    split
    · split <;> rfl
    · rfl

theorem dramWrite_grows (s : State) (a : Nat) (l : List Byte) : Grows s (dramWrite s a l) :=
  ⟨by rw [dramWrite, dramStore, storeBytes_out, recode_out]; exact (touch_grows s _).out⟩

theorem conceal_grows (s : State) (f k : Nat) (l : List Nat) : Grows s (conceal s f k l) := .foldl (fun s _ => dramWrite_grows s _ _) _ s

theorem publishOne_grows (s : State) (f k m : Nat) : Grows s (publishOne s f k m) := by
  unfold publishOne
  exact .ite (.reporting (by simp -implicitDefEqProofs)) (.adds (by simp -implicitDefEqProofs))

theorem groupDrop_grows (s : State) (f m : Nat) : Grows s (groupDrop s f m) := by
  unfold groupDrop
  dsimp only
  split
  · exact .refl s
  · refine .raised ⟨?_⟩
    rw [State.modFlow, State.setFlow_out]
    exact (Grows.foldl (fun s m => .ite (.adds (by simp -implicitDefEqProofs)) (.refl s)) _ s).out

theorem groupSweep_grows (s : State) (f : Nat) : Grows s (groupSweep s f) :=
  .ite (.refl s) (.foldl (fun s _ => .ite (groupDrop_grows s f _) (.refl s)) _ s)

theorem groupReady_grows (s : State) (f k m : Nat) : Grows s (groupReady s f k m) := by
  unfold groupReady
  dsimp only
  split
  · exact .adds (by simp -implicitDefEqProofs)
  · split
    · exact (Grows.foldl (fun _ _ => ((publishOne_grows _ _ _ _).after (by simp -implicitDefEqProofs))) _ _).after (by simp -implicitDefEqProofs)
    · split
      · exact (groupDrop_grows _ _ _).after (by simp -implicitDefEqProofs)
      · exact .adds (by simp -implicitDefEqProofs)

theorem publish_grows (s : State) (f k m : Nat) : Grows s (publish s f k m) := .ite (groupReady_grows s f k m) (publishOne_grows s f k m)

theorem finishFrame_grows (s : State) (f k m : Nat) (l : List Nat) : Grows s (finishFrame s f k m l) :=
  Grows.trans (.ite (conceal_grows s f k l) ((conceal_grows s f k l).trans (.reporting (by simp -implicitDefEqProofs)))) (publish_grows _ f k m)

theorem dropFrame_grows (s : State) (f m k : Nat) : Grows s (dropFrame s f m k) :=
  Grows.trans (.reporting (by simp -implicitDefEqProofs)) (groupDrop_grows _ f k)

theorem unwritten_grows (s : State) (f m : Nat) : Grows s (unwritten s f m) := (groupDrop_grows _ f m).after (by simp -implicitDefEqProofs)

theorem decideFrame_grows (s : State) (f : Nat) (b : Option Nat) (m : Nat) (l : List Nat) : Grows s (decideFrame s f b m l) := by
  unfold decideFrame
  split
  · exact unwritten_grows s f m
  · exact .ite (finishFrame_grows s f _ m l) (dropFrame_grows s f _ m)

theorem pairRun_grows (n : Nat) (s : State) (f : Nat) : Grows s (pairRun n s f) := by
  induction n generalizing s with
  | zero => exact .refl s
  | succ n ih =>
    unfold pairRun
    split
    · exact .refl s
    · dsimp only
      split
      · exact (((decideFrame_grows _ f _ _ _).after (by simp -implicitDefEqProofs)).trans (groupSweep_grows _ f)).trans (ih _)
      · split
        · exact .refl s
        · split
          · exact .refl s
          · refine Grows.trans (Grows.trans ?_ (groupSweep_grows _ f)) (ih _)
            split
            · exact (unwritten_grows _ f _).after (by simp -implicitDefEqProofs)
            · exact .ite ((finishFrame_grows _ f _ _ _).after (by simp -implicitDefEqProofs)) ((dropFrame_grows _ f _ _).after (by simp -implicitDefEqProofs))

theorem pairFinishAll_grows (s : State) : Grows s (pairFinishAll s) :=
  .forIdx (fun s f => (Grows.foldl (fun s c => (Grows.reporting (by simp -implicitDefEqProofs))) _ s).trans (pairRun_grows 8 _ f)) _ s

/-! Composition. -/

@[simp] theorem showFlipPend_out (s : State) (r l : Nat) : (showFlipPend s r l).out = s.out := by simp -implicitDefEqProofs [showFlipPend]
@[simp] theorem showMapPend_out (s : State) (r : Nat) : (showMapPend s r).out = s.out := by simp -implicitDefEqProofs [showMapPend]
@[simp] theorem holdBuf_out (s : State) (r l f k m : Nat) : (holdBuf s r l f k m).out = s.out := by simp -implicitDefEqProofs [holdBuf]

theorem postFlip_grows (s : State) (f : Flip) (n : Nat) : Grows s (postFlip s f n) := by
  unfold postFlip
  split
  · exact .refl s
  · exact finishWith_grows s _ _

theorem flipAccepted_grows (s : State) (g : Flip) : Grows s (flipAccepted s g) := by
  have superseded : ∀ s m l, Grows s (supersede s m l) := fun s m l =>
    (Grows.foldl (fun s f => postFlip_grows s f 1) _ _).after (by simp -implicitDefEqProofs)
  have swept : ∀ s, Grows s (flipsSweep s) := fun s => (Grows.foldl (fun s f => postFlip_grows s f 0) _ _).after (by simp -implicitDefEqProofs)
  refine Grows.trans (.trans ⟨?_⟩ (.foldl (fun _ _ => (.adds (by simp -implicitDefEqProofs))) _ _)) (swept _)
  rw [State.modCmp_out]
  exact ((superseded _ _ g.layer).after (by simp -implicitDefEqProofs)).out

theorem cmpAck_grows (s : State) (j n : Nat) : Grows s (cmpAck s j n) := by
  have shown : ∀ (l : List Flip) (s : State), Grows s (l.foldl (fun s f => f.rings.foldl (fun s e => showFlipPend s e.1 f.layer) s) s) := fun l s =>
    .foldl (fun s f => .foldl (fun s _ => (.adds (by simp -implicitDefEqProofs))) _ s) l s
  have maps : ∀ s, Grows s (forIdx 8 s showMapPend) := fun s => .forIdx (fun s _ => (.adds (by simp -implicitDefEqProofs))) 8 s
  unfold cmpAck
  split
  · refine Grows.trans ⟨?_⟩ (maps _)
    rw [State.modCmp_out]
    exact (Grows.foldl (fun s f => flipAccepted_grows s f) _ s).out
  · dsimp only
    split
    · exact (((shown _ _).after (by simp -implicitDefEqProofs)).trans (maps _)).trans (finishWith_grows _ _ _)
    · exact ((shown _ _).after (by simp -implicitDefEqProofs)).trans (maps _)

theorem cmpMirrorDown_grows (s : State) : Grows s (cmpMirrorDown s) :=
  (Grows.foldl (fun s _ => cmpAck_grows s _ _) _ s).trans (.foldl (fun s _ => cmpAck_grows s _ _) _ _)

theorem staleLayer_grows (s : State) (r l f p : Nat) (h : Bool) (m : Nat) : Grows s (staleLayer s r l f p h m) := by
  have counted : ∀ (x : CLayer) (b : Bool) (v : Nat),
      Grows s ((if b = true then (s.setLayer r l x).bump (F.CMP_LCNT_STALE r l) 1 else s.setLayer r l x).wr (F.CMP_LSTAT_STALE r l) v) := fun x b v => by
    refine ⟨?_⟩
    rw [State.wr_out]
    exact (Grows.ite (.adds (by simp -implicitDefEqProofs)) (.adds (by simp -implicitDefEqProofs))).out
  unfold staleLayer
  exact .ite (counted _ _ _).raised (counted _ _ _)

theorem takeSample_grows (s : State) (r l f n m : Nat) : Grows s (takeSample s r l f n m) := by
  unfold takeSample
  dsimp only
  refine Grows.trans ?_ (staleLayer_grows _ r l f _ _ _)
  split
  · exact .adds (by simp -implicitDefEqProofs)
  · split
    · exact .adds (by simp -implicitDefEqProofs)
    · split
      · exact .ite (.adds (by simp -implicitDefEqProofs)) (.reporting (by simp -implicitDefEqProofs))
      · exact .reporting (by simp -implicitDefEqProofs)

theorem chooseLayer_grows (s : State) (r l f n : Nat) : Grows s (chooseLayer s r l f n) := by
  unfold chooseLayer
  dsimp only
  split
  · split
    · exact takeSample_grows s r l f n _
    · exact .adds (by simp -implicitDefEqProofs)
  · split
    · exact .ite (((staleLayer_grows _ r l f _ _ _).after (by simp -implicitDefEqProofs)).trans (mirrorSend_grows _ _ _ _ _))
        ((staleLayer_grows _ r l f _ _ _).after (by simp -implicitDefEqProofs))
    · exact .ite ((staleLayer_grows _ r l f _ _ _).trans (mirrorSend_grows _ _ _ _ _)) (staleLayer_grows _ r l f _ _ _)

theorem chooseAlone_grows (s : State) : Grows s (chooseAlone s) := by
  refine .forIdx (fun s r => .forIdx (fun s l => .ite (.refl s) ?_) _ s) _ s
  dsimp only
  split
  · exact .ite ((chooseLayer_grows _ _ _ _ _).after (by simp -implicitDefEqProofs)) (.adds (by simp -implicitDefEqProofs))
  · exact .adds (by simp -implicitDefEqProofs)

/-- What follows a change of the mirror link only adds to what was sent. -/
theorem linkCheck_grows (s : State) : Grows s (linkCheck s) := by
  unfold linkCheck
  dsimp only
  split
  · exact ((((pairCheck_grows s).trans (cmpMirrorDown_grows _)).trans (pairFinishAll_grows _)).trans (chooseAlone_grows _)).trans
      (.adds (by simp [digestSkip]))
  · exact pairCheck_grows s

/-! What waits for an XID. -/

theorem tryHead_grows (s : State) (n : Nat) : Grows s (tryHead s n) := by
  have taken : ∀ b, (takeHead (begun s b) n b).1.out = s.out := fun b => by
    unfold takeHead begun
    split <;> simp
  unfold tryHead
  dsimp only
  split
  · exact .refl s
  · split
    · exact (finishWith_grows _ _ _).after (by simp [taken])
    · exact (Grows.trans (.ite (mirrorSend_grows _ _ _ _ _) (.refl _)) (finishWith_grows _ _ _)).after (by simp [taken])
    · exact .adds (by simp [taken])

theorem startXid_grows (s : State) (x t : Nat) : Grows s (startXid s x t) := by
  unfold startXid planXid
  dsimp only
  split
  · rename_i h
    obtain ⟨rfl, -⟩ := Prod.mk.inj h
    exact (abortXid_grows _ _ _ _ _ _).after (by simp -implicitDefEqProofs)
  · rename_i h
    obtain ⟨rfl, -⟩ := Prod.mk.inj h
    exact .adds (by simp -implicitDefEqProofs)

theorem autoStart_grows (n : Nat) (s : State) : Grows s (autoStart n s) := by
  induction n generalizing s with
  | zero => exact .refl s
  | succ n ih =>
    unfold autoStart
    dsimp only
    split
    · exact ((startXid_grows _ _ _).after (by simp -implicitDefEqProofs)).trans (ih _)
    · exact .refl s

/-- A second look at what waits for an XID only adds to what was sent. -/
theorem retryHeads_grows (s : State) : Grows s (retryHeads s) :=
  ((autoStart_grows _ s).trans (.forIdx tryHead_grows _ _)).trans (cplTell_grows _)

end Sys2Proof.Machine
end

section
/-! PROOF. What a step of the lanes chapter may write, register bit by register bit (R43, R44, R61): ports and lanes move through `leaveTo`, `driveBypass`
and `clkUpdate`, and each of these leaves the state outside the lanes, and every other register bit, as it was. -/
namespace Sys2Proof.Machine

/-- Only the register bits of `W` change (address and bit); the state outside lanes, ring, time, transactions and the host interface stays, but for the
source of a PLL; what was sent stays sent. -/
structure Within (W : Nat → Nat → Prop) (s t : State) : Prop where
  strap : t.strap = s.strap
  now : t.now = s.now
  pix : t.pix = s.pix
  chk : t.chk = s.chk
  drv : t.drv = s.drv
  cal : t.cal = s.cal
  hk : t.hk = s.hk
  sys : t.sys = { s.sys with pllSrc := t.sys.pllSrc }
  upd : t.upd = s.upd
  commit : t.commit = s.commit
  pending : t.pending = s.pending
  tap : t.tap = s.tap
  bit : ∀ a i, ¬ W a i → (t.reg a).testBit i = (s.reg a).testBit i
  out : s.out <+: t.out

section
variable {W V : Nat → Nat → Prop} {s t u : State}

theorem Within.refl (W : Nat → Nat → Prop) (s : State) : Within W s s := by
  constructor <;> first | rfl | exact List.prefix_rfl | exact fun _ _ _ => rfl

theorem Within.trans (h : Within W s t) (g : Within W t u) : Within W s u where
  strap := g.strap.trans h.strap
  now := g.now.trans h.now
  pix := g.pix.trans h.pix
  chk := g.chk.trans h.chk
  drv := g.drv.trans h.drv
  cal := g.cal.trans h.cal
  hk := g.hk.trans h.hk
  sys := by rw [g.sys, h.sys]
  upd := g.upd.trans h.upd
  commit := g.commit.trans h.commit
  pending := g.pending.trans h.pending
  tap := g.tap.trans h.tap
  bit := fun a i k => (g.bit a i k).trans (h.bit a i k)
  out := h.out.trans g.out

theorem Within.mono (h : Within W s t) (sub : ∀ a i, W a i → V a i) : Within V s t :=
  { h with bit := fun a i k => h.bit a i fun w => k (sub a i w) }

/-- A report writes no register. -/
theorem Within.of_reports (h : Reports s t) (out : s.out <+: t.out) : Within W s t where
  strap := h.strap
  now := h.now
  pix := h.pix
  chk := h.chk
  drv := h.drv
  cal := h.cal
  hk := h.hk
  sys := by rw [h.sys]
  upd := h.upd
  commit := h.commit
  pending := h.pending
  tap := h.tap
  bit := fun a _ _ => by rw [State.reg_congr h.strap h.regs]
  out := out

/-- A change of the ports, the ring, wall time or what is sent. -/
theorem Within.parts (h : t = { s with ports := t.ports, ring := t.ring, wt := t.wt, free := t.free, out := t.out }) (out : s.out <+: t.out) :
    Within W s t := by
  constructor
  case out => exact out
  case bit => exact fun a i _ => by rw [h]; rfl
  all_goals rw [h]

theorem Within.wr (s : State) (f : FRef) (v : Nat) (h : ∀ i, f.lo ≤ i → i < f.lo + f.w → W f.addr i) : Within W s (s.wr f v) := by
  constructor
  case out => rw [State.wr_out]
  case bit =>
    intro a i k
    by_cases e : a = f.addr
    · subst e
      rw [State.wr, s.reg_setReg_same, Nat.testBit_mod_two_pow, testBit_setBits]
      by_cases small : i < 32
      · have off : i < f.lo ∨ f.lo + f.w ≤ i := by
          by_contra c
          exact k (h i (by omega) (by omega))
        rcases off with off | off
        · simp [small, off]
        · simp [small, Nat.not_lt.mpr off, Nat.not_lt.mpr (Nat.le_trans (Nat.le_add_right f.lo f.w) off)]
      · have big : (s.reg f.addr).testBit i = false :=
          Nat.testBit_lt_two_pow (Nat.lt_of_lt_of_le (s.reg_lt _) (Nat.pow_le_pow_right (by decide) (by omega)))
        simp [small, big]
    · rw [s.reg_wr_ne f v e]
  all_goals rfl

/-- A write of one bit. -/
theorem Within.wr_bit (s : State) (a j v : Nat) (h : W a j) : Within W s (s.wr ⟨a, j, 1⟩ v) := .wr s _ v fun i low high => by
  obtain rfl : i = j := Nat.le_antisymm (Nat.lt_succ_iff.mp high) low
  exact h

theorem Within.ite {c : Prop} [Decidable c] (ht : Within W s t) (hu : Within W s u) : Within W s (if c then t else u) := by
  split
  · exact ht
  · exact hu

theorem Within.foldl {β : Type} {f : State → β → State} (hf : ∀ s x, Within W s (f s x)) (l : List β) (s : State) : Within W s (l.foldl f s) := by
  induction l generalizing s with
  | nil => exact .refl W s
  | cons x r ih => exact (hf s x).trans (ih _)

/-- What follows a change of the mirror link stays off the registers of the lanes. -/
theorem Within.of_link (h : LinkKeeps s t) (out : s.out <+: t.out) : Within (fun a _ => linkBlock a) s t where
  strap := h.strap
  now := h.now
  pix := h.pix
  chk := h.chk
  drv := h.drv
  cal := h.cal
  hk := h.hk
  sys := by rw [h.sys]
  upd := h.upd
  commit := h.commit
  pending := h.pending
  tap := h.tap
  bit := fun a _ k => by rw [h.reg a k]
  out := out

/-- A field of which no bit changes reads as it did. -/
theorem Within.rd (h : Within W s t) {f : FRef} (k : ∀ i, f.lo ≤ i → i < f.lo + f.w → ¬ W f.addr i) : t.rd f = s.rd f := by
  simp only [State.rd]
  apply Nat.eq_of_testBit_eq
  intro i
  rw [testBit_bits, testBit_bits]
  by_cases c : i < f.w
  · rw [h.bit _ _ (k _ (by omega) (by omega))]
  · simp [c]

theorem Within.on (h : Within W s t) {f : FRef} (k : ∀ i, f.lo ≤ i → i < f.lo + f.w → ¬ W f.addr i) : t.on f = s.on f := by
  rw [State.on, h.rd k, State.on]

/-- A bit that does not change. -/
theorem Within.on_bit (h : Within W s t) {a j : Nat} (k : ¬ W a j) : t.on ⟨a, j, 1⟩ = s.on ⟨a, j, 1⟩ := h.on fun i low high => by
  obtain rfl : i = j := Nat.le_antisymm (Nat.lt_succ_iff.mp high) low
  exact k

/-- A register of which no bit changes. -/
theorem Within.reg (h : Within W s t) {a : Nat} (k : ∀ i, ¬ W a i) : t.reg a = s.reg a :=
  Nat.eq_of_testBit_eq fun i => h.bit a i (k i)

end

theorem raise_within (W : Nat → Nat → Prop) (s : State) (n : Nat) (d : List Byte) : Within W s (raise s n d) :=
  .of_reports (raise_reports s n d) (raise_out s n d)
theorem count_within (W : Nat → Nat → Prop) (s : State) (n k : Nat) : Within W s (count s n k) := .of_reports (count_reports s n k) (count_out s n k)
theorem modPort_within (W : Nat → Nat → Prop) (s : State) (p : Nat) (f : Port → Port) : Within W s (s.modPort p f) := .parts rfl List.prefix_rfl
theorem sent_within (W : Nat → Nat → Prop) (s : State) (l : List Output) : Within W s { s with out := s.out ++ l } := .parts rfl (List.prefix_append _ _)

theorem lanesWr_within {W : Nat → Nat → Prop} (s : State) (p j v : Nat) (h : ∀ n, W (R.LANE_STAT n) j) :
    Within W s (lanesWr s p (fun n => ⟨R.LANE_STAT n, j, 1⟩) v) := .foldl (fun s n => .wr_bit s _ j v (h n)) _ s

/-! A port that leaves its state. -/

theorem laneStat_addr (n : Nat) : R.LANE_STAT n / 65536 = 5 ∧ R.LANE_STAT n % 4096 = 4 := by
  simp only [R.LANE_STAT]
  omega

/-- CL_MYPOS, LANE_STAT.STABLE and the port registers CL_PDOWN. -/
def fallBits (a i : Nat) : Prop :=
  a = R.CL_MYPOS ∨ (a / 65536 = 5 ∧ a % 4096 = 4 ∧ i = 3) ∨ (R.CL_PCFG 0 ≤ a ∧ a < 0x60400 ∧ a % 64 = 32)

/-- CL_PSTAT.STATE of a port. -/
def stateBits (p a i : Nat) : Prop := a = R.CL_PSTAT p ∧ i < 3

/-- What a port writes that leaves its state. -/
def leaveBits (p a i : Nat) : Prop := fallBits a i ∨ stateBits p a i

theorem lossEffects_within (s : State) : Within fallBits s (lossEffects s) := by
  unfold lossEffects
  extract_lets rp _ s1 ringDead _ s2
  have emptied : Within fallBits s s1 := .ite (.refl _ s) (.parts rfl List.prefix_rfl)
  have windows : Within fallBits s1 s2 := .parts rfl List.prefix_rfl
  have lost := emptied.trans windows
  split
  · exact lost
  · have pos := (lost.trans (.wr s2 F.CL_MYPOS_POS 63 fun _ _ _ => .inl rfl)).trans (.wr _ F.CL_MYPOS_VALID 0 fun _ _ _ => .inl rfl)
    exact pos.trans (.parts rfl List.prefix_rfl)

theorem startFiller_within (W : Nat → Nat → Prop) (s : State) (p : Nat) : Within W s (startFiller s p) := by
  unfold startFiller
  split
  · exact .refl W s
  · dsimp only
    split
    · exact .parts rfl (by rw [List.append_assoc]; exact List.prefix_append _ _)
    · exact .parts rfl List.prefix_rfl

theorem setPst_within (s : State) (p v : Nat) : Within (stateBits p) s (s.setPst p v) := .wr s _ v fun _ _ h => ⟨rfl, h⟩

/-- After a port has left its state, everything but the state itself is `fallBits`. -/
theorem leaveTo_after (s : State) (p st : Nat) : Within fallBits (s.setPst p st) (leaveTo s p st) := by
  unfold leaveTo
  extract_lets up s0 s1 s2
  have stable : Within fallBits (s.setPst p st) (lanesWr (s.setPst p st) p F.LANE_STAT_STABLE 0) :=
    lanesWr_within _ p 3 0 fun n => .inr (.inl ⟨(laneStat_addr n).1, (laneStat_addr n).2, rfl⟩)
  have left : Within fallBits (s.setPst p st) s0 := .ite (.refl _ _) (stable.trans (modPort_within _ _ p _))
  have down : Within fallBits s1 (s1.bump (F.CL_PDOWN_DOWNS p) 1) := .wr s1 _ _ fun i _ _ => by
    simp only [R.CL_PDOWN, fallBits, R.CL_PCFG]
    omega
  have filled : Within fallBits s1 s2 := .ite ((down.trans (raise_within _ _ 177 _)).trans (startFiller_within _ _ p)) (.refl _ s1)
  exact ((left.trans (modPort_within _ s0 p _)).trans filled).trans (lossEffects_within s2)

theorem leaveTo_within (s : State) (p st : Nat) : Within (leaveBits p) s (leaveTo s p st) :=
  ((setPst_within s p st).mono fun _ _ h => .inr h).trans ((leaveTo_after s p st).mono fun _ _ h => .inl h)

theorem fallBits_not_state {p i : Nat} : ¬ fallBits (R.CL_PSTAT p) i := by
  simp only [fallBits, R.CL_PSTAT, R.CL_PCFG, R.CL_MYPOS]
  omega

/-- A step that writes no port state. -/
theorem Within.pst {W : Nat → Nat → Prop} {s t : State} (h : Within W s t) {q : Nat} (k : ∀ i < 3, ¬ W (R.CL_PSTAT q) i) : t.pst q = s.pst q :=
  h.rd fun i _ hi => k i (by simpa using hi)

@[simp] theorem setPst_pst_same (s : State) (p v : Nat) : (s.setPst p v).pst p = v % 8 := s.rd_wr_same (F.CL_PSTAT_STATE p) v (by simp)

theorem setPst_pst_ne (s : State) {p q : Nat} (v : Nat) (hp : p < 12) (hq : q < 12) (ne : q ≠ p) : (s.setPst p v).pst q = s.pst q :=
  s.rd_wr_ne _ _ v (by simp only [R.CL_PSTAT]; omega)

theorem leaveTo_pst_same (s : State) (p st : Nat) : (leaveTo s p st).pst p = st % 8 := by
  rw [(leaveTo_after s p st).pst fun _ _ => fallBits_not_state, setPst_pst_same]

theorem leaveTo_pst_ne (s : State) {p q : Nat} (st : Nat) (hp : p < 12) (hq : q < 12) (ne : q ≠ p) : (leaveTo s p st).pst q = s.pst q := by
  rw [(leaveTo_after s p st).pst fun _ _ => fallBits_not_state, setPst_pst_ne s st hp hq ne]

/-- A command whose effect is written by bits, and takes no position: it runs, and shows that effect with what follows a change of the mirror link. -/
theorem linked_runs {W : Nat → Nat → Prop} (f : State → State) (s : State) (h : Within W s (f s))
    (pos : (f s).on F.CL_MYPOS_VALID = true → s.on F.CL_MYPOS_VALID = true) :
    ∃ t, ordinary (linked f) s = .next t ∧ Within (fun a _ => linkBlock a) (f s) t := by
  have link : Within (fun a _ => linkBlock a) (f s) (linked f s) := .of_link (linkCheck_keeps (f s)) (linkCheck_grows (f s)).out
  have all : (linked f s).strap = s.strap ∧ (linked f s).pending = s.pending ∧ (linked f s).tap = s.tap ∧ (linked f s).upd = s.upd :=
    ⟨link.strap.trans h.strap, link.pending.trans h.pending, link.tap.trans h.tap, link.upd.trans h.upd⟩
  obtain ⟨strap, pending, tap, upd⟩ := all
  have place : (linked f s).on F.CL_MYPOS_VALID = true → s.on F.CL_MYPOS_VALID = true := by
    rw [link.on fun i _ _ => by simp [linkBlock]]
    exact pos
  obtain ⟨t, run, rep⟩ := ordinary_runs (linked f) s strap pending tap (by rw [upd]) place
  exact ⟨t, run, link.trans (.of_reports rep (ordinary_out _ s t run place))⟩

end Sys2Proof.Machine
end

section
/-! PROOF. CDR, BLOCK and TRAIN give up after their time (O22, R43). -/
namespace Sys2Proof.Machine

theorem exec_bringupStepTimeout (p : Fin 12) (s : State) :
    exec (.bringupStepTimeout p) s = ordinary (linked fun s => stepTimeout s p.val) s := rfl

theorem exec_trainTimeout (p : Fin 12) (s : State) : exec (.trainTimeout p) s = ordinary (linked fun s => trainTimeout s p.val) s := rfl

/-- What follows a change of the mirror link keeps the state of every port. -/
theorem pst_of_link {s t : State} (h : Within (fun a _ => linkBlock a) s t) (q : Nat) : t.pst q = s.pst q :=
  h.pst fun _ _ => by simp only [linkBlock, R.CL_PSTAT, R.WT_PAIR]; omega

/-- A command that, but for the mirror link, does nothing to this state. -/
theorem linked_idle (f : State → State) (s : State) (still : f s = s) (link : linkCheck s = s) : ∃ t, ordinary (linked f) s = .next t ∧ Reports s t :=
  ordinary_idle _ s (by rw [linked, still, link])

/-- A command that takes one port to another state, but for reports: the port ends there, the others stay. -/
theorem linked_leaves (f : State → State) (s : State) (p : Fin 12) (st : Nat) (h : Within fallBits (leaveTo s p.val st) (f s))
    (pos : AccessKeeps s (f s)) :
    ∃ t, ordinary (linked f) s = .next t ∧ t.pst p.val = st % 8 ∧ ∀ q : Fin 12, q ≠ p → t.pst q.val = s.pst q.val := by
  have within : Within (leaveBits p.val) s (f s) := (leaveTo_within s p.val st).trans (h.mono fun _ _ k => .inl k)
  obtain ⟨t, run, link⟩ := linked_runs f s within pos.pos
  have state : ∀ q, t.pst q = (leaveTo s p.val st).pst q := fun q => (pst_of_link link q).trans (h.pst fun _ _ => fallBits_not_state)
  refine ⟨t, run, ?_, fun q ne => ?_⟩
  · rw [state, leaveTo_pst_same]
  · rw [state, leaveTo_pst_ne s st p.isLt q.isLt (Fin.val_ne_of_ne ne)]

/-- Settles O22: each limit is `leaveTo` in its state and leaves the state as it is in any other. -/
theorem portsFallBackOnTimeouts : Obligations.PortsFallBackOnTimeouts := by
  refine ⟨fun p s cdr => ?_, fun p s block waits => ?_, fun p s link notCdr rest => ?_, fun p s train => ?_, fun p s link other => ?_⟩
  · exact linked_leaves _ s p 1 (by rw [stepTimeout, if_pos cdr]; exact .refl _ _) (by rw [stepTimeout, if_pos cdr]; exact leaveTo_access s _ 1)
  · have step : stepTimeout s p.val = leaveTo s p.val 2 := by simp [stepTimeout, block, waits]
    exact linked_leaves _ s p 2 (by rw [step]; exact .refl _ _) (by rw [step]; exact leaveTo_access s _ 2)
  · refine linked_idle _ s ?_ link
    rcases rest with notBlock | ready
    · simp [stepTimeout, notCdr, notBlock]
    · simp [stepTimeout, notCdr, ready]
  · have step : trainTimeout s p.val = raise (leaveTo s p.val 1) 179 (d2 p.val (s.port p.val).samples.length) := by rw [trainTimeout, if_pos train]
    refine linked_leaves _ s p 1 ?_ ?_
    · rw [step]
      exact raise_within _ _ 179 _
    · rw [step]
      exact (leaveTo_access s _ 1).trans (raise_access _ 179 _)
  · exact linked_idle _ s (by rw [trainTimeout, if_neg other]) link

end Sys2Proof.Machine
end

section
/-! PROOF. The by-pass switch and the lane PLL's reference (R54, R59, R61), by the register bits they write, and where the ring ports end. -/
namespace Sys2Proof.Machine

/-! What the lanes chapter reads of the port configuration. -/

/-- The registers CL_PCFG are not among the bits. -/
def OffCfg (W : Nat → Nat → Prop) : Prop := ∀ q i, ¬ W (R.CL_PCFG q) i

section
variable {W : Nat → Nat → Prop} {s t : State}

theorem Within.portLanes (h : Within W s t) (k : OffCfg W) (p : Nat) : portLanes t p = portLanes s p := by
  unfold Machine.portLanes
  rw [h.on fun i _ _ => k p i, h.rd fun i _ _ => k p i, h.rd fun i _ _ => k p i]

theorem Within.laneOwner (h : Within W s t) (k : OffCfg W) (n : Nat) : laneOwner t n = laneOwner s n := by
  unfold Machine.laneOwner
  simp only [h.portLanes k, h.on (f := F.CL_PCFG_EN _) fun i _ _ => k _ i]

theorem Within.ringPorts (h : Within W s t) (k : OffCfg W) : ringPorts t = ringPorts s := by
  unfold Machine.ringPorts State.isCarriage State.portIs
  simp only [h.strap, h.on (f := F.CL_PCFG_EN _) fun i _ _ => k _ i, h.rd (f := F.CL_PCFG_KIND _) fun i _ _ => k _ i]

end

theorem ringPorts_lt {s : State} {p : Nat} (h : p ∈ ringPorts s) : p < 12 := by
  unfold ringPorts at h
  split at h
  · simp only [List.mem_cons, List.not_mem_nil, or_false] at h
    omega
  · exact List.mem_range.mp (List.mem_filter.mp h).1

theorem laneOwner_lt {s : State} {n p : Nat} (h : laneOwner s n = some p) : p < 12 := by
  rw [laneOwner, firstIdx] at h
  exact List.mem_range.mp (List.mem_of_find?_eq_some h)

theorem pst_lt (s : State) (p : Nat) : s.pst p < 8 := Nat.mod_lt _ (Nat.two_pow_pos 3)

/-! The switch. -/

/-- CL_BYP.BYP_STATE. -/
def bypBits (a i : Nat) : Prop := a = R.CL_BYP ∧ i = 0

/-- What ports and the switch write when they move: a port's state as well. -/
def moveBits (a i : Nat) : Prop := fallBits a i ∨ (R.CL_PCFG 0 ≤ a ∧ a < 0x60400 ∧ a % 64 = 4 ∧ i < 3) ∨ bypBits a i

theorem moveBits_offCfg : OffCfg moveBits := fun q i h => by
  simp only [moveBits, fallBits, bypBits, R.CL_PCFG, R.CL_MYPOS, R.CL_BYP] at h
  omega

theorem Within.move_of_fall {s t : State} (h : Within fallBits s t) : Within moveBits s t := h.mono fun _ _ => .inl

theorem stateBits_move {p a i : Nat} (h : stateBits p a i) : moveBits a i := by
  obtain ⟨rfl, low⟩ := h
  refine .inr (.inl ?_)
  simp only [R.CL_PSTAT, R.CL_PCFG]
  omega

theorem leaveTo_moves (s : State) (p st : Nat) : Within moveBits s (leaveTo s p st) :=
  (leaveTo_within s p st).mono fun _ _ h => h.elim .inl stateBits_move

theorem setPst_moves (s : State) (p v : Nat) : Within moveBits s (s.setPst p v) := (setPst_within s p v).mono fun _ _ => stateBits_move

theorem driveBypass_within (s : State) (level cause : Nat) : Within bypBits s (driveBypass s level cause) := by
  have shown : Within bypBits s (s.wr F.CL_BYP_BYP_STATE level) := .wr_bit s R.CL_BYP 0 level ⟨rfl, rfl⟩
  exact (shown.trans (sent_within _ _ _)).trans (raise_within _ _ 180 _)

theorem driveBypass_shows (s : State) (level cause : Nat) : (driveBypass s level cause).rd F.CL_BYP_BYP_STATE = level % 2 := by
  have told : (driveBypass s level cause).rd F.CL_BYP_BYP_STATE = (s.wr F.CL_BYP_BYP_STATE level).rd F.CL_BYP_BYP_STATE :=
    ((sent_within (fun _ _ => False) (s.wr F.CL_BYP_BYP_STATE level) _).trans (raise_within _ _ 180 _)).rd fun _ _ _ => id
  exact told.trans (State.rd_wr_same _ _ _ (by decide))

theorem driveBypass_drives (s : State) (level cause : Nat) : Output.pin pinBypassOpen level ∈ (driveBypass s level cause).out :=
  (raise_out _ 180 _).subset (List.mem_append_right _ (List.mem_singleton.mpr rfl))

/-- A pass over ports that takes each from state `x` to `new x`, and again where a port stands twice. -/
theorem foldl_pst {g : State → Nat → State} {new : Nat → Nat} (same : ∀ s p, (g s p).pst p = new (s.pst p))
    (ne : ∀ s p q, p < 12 → q < 12 → q ≠ p → (g s p).pst q = s.pst q) (again : ∀ x, new (new x) = new x)
    (l : List Nat) (low : ∀ p ∈ l, p < 12) (s : State) {q : Nat} (hq : q < 12) :
    (l.foldl g s).pst q = if q ∈ l then new (s.pst q) else s.pst q := by
  induction l generalizing s with
  | nil => simp
  | cons p r ih =>
    rw [List.foldl_cons, ih (fun x hx => low x (List.mem_cons_of_mem p hx))]
    by_cases e : q = p
    · subst e
      simp [same, again]
    · simp [ne s p q (low p List.mem_cons_self) hq e, e]

/-- SETTLE, but for a port in OFF. -/
def settled (x : Nat) : Nat := if x = 0 then 0 else 7

theorem settled_settled (x : Nat) : settled (settled x) = settled x := by
  unfold settled
  split <;> simp

theorem bypassFall_open (s : State) (cause : Nat) (isOpen : s.on F.CL_BYP_BYP_STATE = true) :
    bypassFall s cause = (ringPorts s).foldl (fun s p => if s.pst p = 0 then s else leaveTo s p 7) (driveBypass s 0 cause) := by
  simp [bypassFall, isOpen]

theorem bypassFall_closed (s : State) (cause : Nat) (closed : s.on F.CL_BYP_BYP_STATE = false) : bypassFall s cause = s := by
  simp [bypassFall, closed]

theorem bypassFall_moves (s : State) (cause : Nat) : Within moveBits s (bypassFall s cause) :=
  .ite (.refl _ s) (((driveBypass_within s 0 cause).mono fun _ _ h => .inr (.inr h)).trans (.foldl (fun s p => .ite (.refl _ s) (leaveTo_moves s p 7)) _ _))

theorem driveBypass_pst (s : State) (level cause q : Nat) : (driveBypass s level cause).pst q = s.pst q :=
  (driveBypass_within s level cause).pst fun i _ h => by
    have e := h.1
    simp only [R.CL_PSTAT, R.CL_BYP] at e
    omega

/-- The switch falls: every ring port but those in OFF goes to SETTLE (R62). -/
theorem bypassFall_pst (s : State) (cause : Nat) {q : Nat} (hq : q < 12) (isOpen : s.on F.CL_BYP_BYP_STATE = true) :
    (bypassFall s cause).pst q = if q ∈ ringPorts s then settled (s.pst q) else s.pst q := by
  rw [bypassFall_open s cause isOpen, foldl_pst (new := settled) _ _ settled_settled _ (fun p => ringPorts_lt) _ hq, driveBypass_pst]
  · intro t p
    unfold settled
    split
    · assumption
    · exact leaveTo_pst_same t p 7
  · intro t p r hp hr ne
    split
    · rfl
    · exact leaveTo_pst_ne t 7 hp hr ne

theorem bypassFall_shows (s : State) (cause : Nat) (isOpen : s.on F.CL_BYP_BYP_STATE = true) :
    (bypassFall s cause).on F.CL_BYP_BYP_STATE = false ∧ Output.pin pinBypassOpen 0 ∈ (bypassFall s cause).out := by
  have left : ∀ (s : State) (l : List Nat), Within (fun a i => fallBits a i ∨ ∃ p, stateBits p a i) s
      (l.foldl (fun s p => if s.pst p = 0 then s else leaveTo s p 7) s) := fun s l =>
    .foldl (fun s p => .ite (.refl _ s) ((leaveTo_within s p 7).mono fun _ _ h => h.imp_right fun k => ⟨p, k⟩)) l s
  have fallen := left (driveBypass s 0 cause) (ringPorts s)
  rw [bypassFall_open s cause isOpen]
  refine ⟨?_, fallen.out.subset (driveBypass_drives s 0 cause)⟩
  rw [fallen.on, State.on, driveBypass_shows]
  · rfl
  · rintro i - - (h | ⟨p, h, -⟩)
    · simp only [fallBits, R.CL_BYP, R.CL_PCFG, R.CL_MYPOS] at h
      omega
    · simp only [R.CL_BYP, R.CL_PSTAT] at h
      omega

/-- The switch rises: every ring port but those in OFF goes to SETTLE, and BYPASS_OPEN is high (R59). -/
theorem bypassRise_pst (s : State) (cause : Nat) {q : Nat} (hq : q < 12) :
    (bypassRise s cause).pst q = if q ∈ ringPorts s then settled (s.pst q) else s.pst q := by
  rw [bypassRise, foldl_pst (new := settled) _ _ settled_settled _ (fun p => ringPorts_lt) _ hq, driveBypass_pst]
  · intro t p
    unfold settled
    split
    · assumption
    · exact setPst_pst_same t p 7
  · intro t p r hp hr ne
    split
    · rfl
    · exact setPst_pst_ne t 7 hp hr ne

theorem bypassRise_states (s : State) (l : List Nat) :
    Within (fun a i => ∃ p, stateBits p a i) s (l.foldl (fun s p => if s.pst p = 0 then s else s.setPst p 7) s) :=
  .foldl (fun s p => .ite (.refl _ s) ((setPst_within s p 7).mono fun _ _ h => ⟨p, h⟩)) l s

theorem bypassRise_shows (s : State) (cause : Nat) :
    (bypassRise s cause).on F.CL_BYP_BYP_STATE = true ∧ Output.pin pinBypassOpen 1 ∈ (bypassRise s cause).out := by
  have risen := bypassRise_states (driveBypass s 1 cause) (ringPorts s)
  unfold bypassRise
  refine ⟨?_, risen.out.subset (driveBypass_drives s 1 cause)⟩
  rw [risen.on, State.on, driveBypass_shows]
  · rfl
  · rintro i - - ⟨p, h, -⟩
    simp only [R.CL_BYP, R.CL_PSTAT] at h
    omega

theorem bypassRise_moves (s : State) (cause : Nat) : Within moveBits s (bypassRise s cause) :=
  ((driveBypass_within s 1 cause).mono fun _ _ h => .inr (.inr h)).trans ((bypassRise_states _ _).mono fun _ _ ⟨_, h⟩ => stateBits_move h)

theorem tryRise_moves (s : State) : Within moveBits s (tryRise s) := .ite (bypassRise_moves s 0) (.refl _ s)

theorem laneLost_moves (s : State) : Within moveBits s (laneLost s) := .ite (bypassFall_moves s 2) (.refl _ s)

theorem fallBack_moves (s : State) (p st : Nat) : Within moveBits s (fallBack s p st) := .ite (leaveTo_moves s p st) (lossEffects_within s).move_of_fall

theorem blockSettled_moves (s : State) (p : Nat) : Within moveBits s (blockSettled s p) :=
  .ite (.refl _ s) (.ite (tryRise_moves s) (.ite (setPst_moves s p 4) (.refl _ s)))

/-- A port falls back to a state below its own, and out of SETTLE stays. -/
theorem fallBack_pst (s : State) (p : Nat) {st : Nat} (h1 : 1 ≤ st) (h3 : st ≤ 3) (out : s.pst p ≠ 7) : (fallBack s p st).pst p = min (s.pst p) st := by
  have lt := pst_lt s p
  unfold fallBack
  dsimp only
  split
  · rename_i h
    simp only [Bool.and_eq_true, decide_eq_true_eq] at h
    rw [leaveTo_pst_same]
    omega
  · rename_i h
    simp only [Bool.and_eq_true, decide_eq_true_eq] at h
    rw [(lossEffects_within s).pst fun _ _ => fallBits_not_state]
    omega

/-- Where a port ends that a lost condition leaves where it was but for the switch. -/
theorem laneLost_pst (s : State) {p : Nat} (hp : p < 12) (off : s.pst p ≠ 0) :
    (laneLost s).pst p = s.pst p ∨ p ∈ ringPorts s ∧ (laneLost s).pst p = 7 := by
  unfold laneLost
  split
  · cases isOpen : s.on F.CL_BYP_BYP_STATE with
    | false => exact .inl (by rw [bypassFall_closed s 2 isOpen])
    | true =>
      rw [bypassFall_pst s 2 hp isOpen]
      split
      · rename_i ring
        exact .inr ⟨ring, if_neg off⟩
      · exact .inl rfl
  · exact .inl rfl

/-! The lane PLL's reference. -/

/-- CL_CLKSRC.REF, the direction of the wall time's follower, and the core's source. -/
def clkBits (a i : Nat) : Prop := (a = R.CL_CLKSRC ∧ i < 2) ∨ (a = R.WT_FSTAT ∧ 2 ≤ i ∧ i < 4) ∨ (a = R.CKG_STAT ∧ 8 ≤ i ∧ i < 10)

theorem clkBits_offCfg : OffCfg clkBits := fun q i h => by
  simp only [clkBits, R.CL_PCFG, R.CL_CLKSRC, R.WT_FSTAT, R.CKG_STAT] at h
  omega

/-- WT_FSTAT.DIR. -/
def dirBits (a i : Nat) : Prop := a = R.WT_FSTAT ∧ 2 ≤ i ∧ i < 4

theorem followDir_dir (s : State) : Within dirBits s (followDir s) :=
  .ite (.parts rfl List.prefix_rfl) (.ite (.wr s F.WT_FSTAT_DIR _ fun _ low high => ⟨rfl, low, high⟩) (.parts rfl List.prefix_rfl))

theorem followDir_within (s : State) : Within clkBits s (followDir s) := (followDir_dir s).mono fun _ _ h => .inr (.inl h)

theorem coreFollow_within (s : State) : Within clkBits s (coreFollow s) := by
  unfold coreFollow
  split
  · have shown : Within clkBits s (s.wr F.CKG_STAT_CORE_SRC 0) := .wr s _ 0 fun _ low high => .inr (.inr ⟨rfl, low, high⟩)
    exact { shown with sys := rfl, bit := shown.bit }
  · exact .refl _ s

theorem clkUpdate_within (s : State) : Within clkBits s (clkUpdate s) := by
  have moved : Within clkBits s (raise (s.wr F.CL_CLKSRC_REF (pllRef s)) 181 (d2 (pllRef s) 0)) :=
    (Within.wr s F.CL_CLKSRC_REF _ fun _ _ high => .inl ⟨rfl, by simpa using high⟩).trans (raise_within _ _ 181 _)
  exact .ite (followDir_within s) ((moved.trans (coreFollow_within _)).trans (followDir_within _))

theorem clkUpdate_pst (s : State) (q : Nat) : (clkUpdate s).pst q = s.pst q :=
  (clkUpdate_within s).pst fun _ _ h => by
    simp only [clkBits, R.CL_PSTAT, R.CL_CLKSRC, R.WT_FSTAT, R.CKG_STAT] at h
    omega

end Sys2Proof.Machine
end

section
/-! PROOF. A lane that loses signal, CDR lock or block lock, and the window of its invalid headers (O24; R44, R46, R47). -/
namespace Sys2Proof.Machine

theorem exec_lossOfSignal (n : Fin 16) (cut : Bool) (s : State) :
    exec (.lossOfSignal n cut) s = ordinary (linked fun s => laneLoss s n.val 1 (some cut)) s := rfl

theorem exec_lossOfLock (n : Fin 16) (cut : Bool) (s : State) :
    exec (.lossOfLock n cut) s = ordinary (linked fun s => laneLoss s n.val 2 (some cut)) s := rfl

theorem exec_blockLockLost (n : Fin 16) (cut : Bool) (s : State) :
    exec (.blockLockLost n cut) s = ordinary (linked fun s => laneLoss s n.val 3 (some cut)) s := rfl

/-- The effect of HIBER_WINDOW_END. -/
def windowEnd (n bad : Nat) (s : State) : State :=
  if (match laneOwner s n with | some p => s.pst p != 0 | none => netLane s n) then hiberWindow s n bad else s

theorem exec_hiberWindowEnd (n : Fin 16) (bad : Word) (s : State) :
    exec (.hiberWindowEnd n bad) s = ordinary (linked (windowEnd n.val bad.toNat)) s := rfl

/-! What the lane shows. -/

theorem wr_zero_off (s : State) (f : FRef) (h : f.lo + f.w ≤ 32) : (s.wr f 0).on f = false := by
  simp [State.on, State.rd_wr_same s f 0 h]

/-- The conditions of LANE_STAT that the loss of condition `k` takes: the bits from `k - 1` up to BLOCK_LOCK, and DESKEW_OK. -/
def lossBits (k a i : Nat) : Prop := a / 65536 = 5 ∧ a % 4096 = 4 ∧ (i = 5 ∨ k - 1 ≤ i ∧ i ≤ 2)

theorem lossBits_laneStat {k n i : Nat} (h : i = 5 ∨ k - 1 ≤ i ∧ i ≤ 2) : lossBits k (R.LANE_STAT n) i :=
  ⟨(laneStat_addr n).1, (laneStat_addr n).2, h⟩

theorem lossBits_offCfg (k : Nat) : OffCfg (lossBits k) := fun q i h => by
  simp only [lossBits, R.CL_PCFG] at h
  omega

/-- The bits below the lost condition stay. -/
theorem lossBits_below {k a i : Nat} (h : i ≠ 5 ∧ i < k - 1) : ¬ lossBits k a i := by
  simp only [lossBits]
  omega

theorem Within.loss_mono {s t : State} {j k : Nat} (le : j ≤ k) (h : Within (lossBits k) s t) : Within (lossBits j) s t :=
  h.mono fun _ _ ⟨block, stat, bit⟩ => ⟨block, stat, by omega⟩

/-- What follows the end of block lock: deskew ends on the lane and on the port's lanes. -/
theorem laneClear_three (s : State) (n : Nat) (o : Option Nat) : Within (lossBits 4) (s.wr (F.LANE_STAT_BLOCK_LOCK n) 0) (laneClear s n 3 o) := by
  have lane : Within (lossBits 4) (s.wr (F.LANE_STAT_BLOCK_LOCK n) 0) ((s.wr (F.LANE_STAT_BLOCK_LOCK n) 0).wr (F.LANE_STAT_DESKEW_OK n) 0) :=
    .wr_bit _ _ 5 0 (lossBits_laneStat (.inl rfl))
  cases o with
  | none => exact lane
  | some p => exact lane.trans (lanesWr_within _ p 5 0 fun m => lossBits_laneStat (.inl rfl))

theorem laneClear_two (s : State) (n : Nat) (o : Option Nat) : laneClear s n 2 o = laneClear (s.wr (F.LANE_STAT_CDR_LOCK n) 0) n 3 o := rfl

theorem laneClear_one (s : State) (n : Nat) (o : Option Nat) : laneClear s n 1 o = laneClear (s.wr (F.LANE_STAT_SIGDET n) 0) n 2 o := rfl

theorem laneClear_within_three (s : State) (n : Nat) (o : Option Nat) : Within (lossBits 3) s (laneClear s n 3 o) :=
  (Within.wr_bit s _ 2 0 (lossBits_laneStat (.inr (by decide)))).trans ((laneClear_three s n o).loss_mono (by decide))

theorem laneClear_within_two (s : State) (n : Nat) (o : Option Nat) : Within (lossBits 2) s (laneClear s n 2 o) :=
  (Within.wr_bit s _ 1 0 (lossBits_laneStat (.inr (by decide)))).trans ((laneClear_within_three _ n o).loss_mono (by decide))

theorem laneClear_within_one (s : State) (n : Nat) (o : Option Nat) : Within (lossBits 1) s (laneClear s n 1 o) :=
  (Within.wr_bit s _ 0 0 (lossBits_laneStat (.inr (by decide)))).trans ((laneClear_within_two _ n o).loss_mono (by decide))

theorem laneClear_within {k : Nat} (h : k = 1 ∨ k = 2 ∨ k = 3) (s : State) (n : Nat) (o : Option Nat) : Within (lossBits 1) s (laneClear s n k o) := by
  rcases h with rfl | rfl | rfl
  · exact laneClear_within_one s n o
  · exact (laneClear_within_two s n o).loss_mono (by decide)
  · exact (laneClear_within_three s n o).loss_mono (by decide)

theorem laneClear_block (s : State) (n : Nat) (o : Option Nat) : (laneClear s n 3 o).on (F.LANE_STAT_BLOCK_LOCK n) = false :=
  ((laneClear_three s n o).on_bit (lossBits_below (by decide))).trans (wr_zero_off s (F.LANE_STAT_BLOCK_LOCK n) (by simp))

theorem laneClear_cdr (s : State) (n : Nat) (o : Option Nat) : (laneClear s n 2 o).on (F.LANE_STAT_CDR_LOCK n) = false := by
  rw [laneClear_two]
  exact ((laneClear_within_three _ n o).on_bit (lossBits_below (by decide))).trans (wr_zero_off s (F.LANE_STAT_CDR_LOCK n) (by simp))

theorem laneClear_signal (s : State) (n : Nat) (o : Option Nat) : (laneClear s n 1 o).on (F.LANE_STAT_SIGDET n) = false := by
  rw [laneClear_one]
  exact ((laneClear_within_two _ n o).on_bit (lossBits_below (by decide))).trans (wr_zero_off s (F.LANE_STAT_SIGDET n) (by simp))

/-! The port. -/

/-- What follows the lane's own bits: the port falls back, the reference may move, the switch may fall. -/
def afterBits (a i : Nat) : Prop := moveBits a i ∨ clkBits a i

theorem clkUpdate_after (s : State) : Within afterBits s (clkUpdate s) := (clkUpdate_within s).mono fun _ _ => .inr
theorem Within.after_of_moves {s t : State} (h : Within moveBits s t) : Within afterBits s t := h.mono fun _ _ => .inl

theorem afterBits_offCfg : OffCfg afterBits := fun q i h => h.elim (moveBits_offCfg q i) (clkBits_offCfg q i)

theorem afterBits_lane {a i : Nat} (lane : a / 65536 = 5) (other : i ≠ 3) : ¬ afterBits a i := by
  simp only [afterBits, moveBits, fallBits, bypBits, clkBits, R.CL_PCFG, R.CL_MYPOS, R.CL_BYP, R.CL_CLKSRC, R.WT_FSTAT, R.CKG_STAT]
  omega

/-- What follows a change of the mirror link keeps LANE_STAT. -/
theorem lane_of_link {s t : State} (h : Within (fun a _ => linkBlock a) s t) (n j : Nat) : t.on ⟨R.LANE_STAT n, j, 1⟩ = s.on ⟨R.LANE_STAT n, j, 1⟩ :=
  h.on_bit (by
    simp only [linkBlock, R.LANE_STAT, R.WT_PAIR]
    omega)

/-- The state that a port of SETTLE, or of another state, has lost its condition in. -/
theorem laneLoss_settle (s : State) {n k p : Nat} (cut : Option Bool) (owner : laneOwner s n = some p) (settle : s.pst p = 7) :
    laneLoss s n k cut = laneLost (clkUpdate (laneClear s n k (some p))) := by
  simp [laneLoss, owner, settle]

theorem laneLoss_falls (s : State) {n k p : Nat} (cut : Option Bool) (owner : laneOwner s n = some p) (off : s.pst p ≠ 0) (out : s.pst p ≠ 7) :
    laneLoss s n k cut = laneLost (clkUpdate (fallBack
      (raise ((laneClear s n k (some p)).modPort p fun x => { x with inPacket := cut }) (laneSrc n (k - 1)) []) p k)) := by
  simp [laneLoss, owner, off, out]

theorem laneLoss_after (s : State) {n k p : Nat} (cut : Option Bool) (owner : laneOwner s n = some p) (off : s.pst p ≠ 0) :
    Within afterBits (laneClear s n k (some p)) (laneLoss s n k cut) := by
  have rest : ∀ t, Within afterBits t (laneLost (clkUpdate t)) := fun t => (clkUpdate_after t).trans (laneLost_moves _).after_of_moves
  by_cases settle : s.pst p = 7
  · rw [laneLoss_settle s cut owner settle]
    exact rest _
  · rw [laneLoss_falls s cut owner off settle]
    exact (((modPort_within _ _ p _).trans (raise_within _ _ _ _)).trans (fallBack_moves _ p k).after_of_moves).trans (rest _)

theorem laneClear_pst {k : Nat} (h : k = 1 ∨ k = 2 ∨ k = 3) (s : State) (n : Nat) (o : Option Nat) (q : Nat) : (laneClear s n k o).pst q = s.pst q :=
  (laneClear_within h s n o).pst fun i _ h => by
    simp only [lossBits, R.CL_PSTAT] at h
    omega

/-- Where the port of the lane ends. -/
theorem laneLoss_pst (s : State) {n k p : Nat} (cut : Option Bool) (hk : k = 1 ∨ k = 2 ∨ k = 3) (owner : laneOwner s n = some p) (off : s.pst p ≠ 0) :
    (s.pst p = 7 → (laneLoss s n k cut).pst p = 7) ∧
    (s.pst p ≠ 7 → (laneLoss s n k cut).pst p = min (s.pst p) k ∨ p ∈ ringPorts s ∧ (laneLoss s n k cut).pst p = 7) := by
  have low := laneOwner_lt owner
  constructor
  · intro settle
    rw [laneLoss_settle s cut owner settle]
    have before : (clkUpdate (laneClear s n k (some p))).pst p = 7 := by rw [clkUpdate_pst, laneClear_pst hk, settle]
    rcases laneLost_pst (clkUpdate (laneClear s n k (some p))) low (by simp [before]) with same | ⟨-, seven⟩
    · rw [same, before]
    · exact seven
  · intro out
    rw [laneLoss_falls s cut owner off out]
    generalize told : raise ((laneClear s n k (some p)).modPort p fun x => { x with inPacket := cut }) (laneSrc n (k - 1)) [] = u
    have cleared : Within (lossBits 1) s u := told ▸ ((laneClear_within hk s n _).trans (modPort_within _ _ p _)).trans (raise_within _ _ _ _)
    have stays : u.pst p = s.pst p := cleared.pst fun i _ h => by
      simp only [lossBits, R.CL_PSTAT] at h
      omega
    have fallen : (clkUpdate (fallBack u p k)).pst p = min (s.pst p) k := by
      rw [clkUpdate_pst, fallBack_pst u p (by omega) (by omega) (by rwa [stays]), stays]
    have ring : ringPorts (clkUpdate (fallBack u p k)) = ringPorts s := by
      rw [((fallBack_moves u p k).after_of_moves.trans (clkUpdate_after _)).ringPorts afterBits_offCfg, cleared.ringPorts (lossBits_offCfg 1)]
    rcases laneLost_pst (clkUpdate (fallBack u p k)) low (by omega) with same | ⟨mem, seven⟩
    · exact .inl (same.trans fallen)
    · exact .inr ⟨ring ▸ mem, seven⟩

/-- What a loss command ends in, but for the mirror link and reports. -/
theorem laneLoss_runs (s : State) {n k p : Nat} (cut : Option Bool) (hk : k = 1 ∨ k = 2 ∨ k = 3) (owner : laneOwner s n = some p) (off : s.pst p ≠ 0) :
    ∃ t, ordinary (linked fun s => laneLoss s n k cut) s = .next t ∧
      (∀ m j, j ≠ 3 → t.on ⟨R.LANE_STAT m, j, 1⟩ = (laneClear s n k (some p)).on ⟨R.LANE_STAT m, j, 1⟩) ∧
      (s.pst p = 7 → t.pst p = 7) ∧ (s.pst p ≠ 7 → t.pst p = min (s.pst p) k ∨ p ∈ ringPorts s ∧ t.pst p = 7) := by
  have after := laneLoss_after s (k := k) cut owner off
  have within : Within (fun a i => lossBits 1 a i ∨ afterBits a i) s (laneLoss s n k cut) :=
    ((laneClear_within hk s n (some p)).mono fun _ _ => .inl).trans (after.mono fun _ _ => .inr)
  obtain ⟨t, run, link⟩ := linked_runs (fun s => laneLoss s n k cut) s within (laneLoss_access s n k cut).pos
  refine ⟨t, run, fun m j other => ?_, ?_⟩
  · exact (lane_of_link link m j).trans (after.on_bit (afterBits_lane (laneStat_addr m).1 other))
  · rw [pst_of_link link]
    exact laneLoss_pst s cut hk owner off

theorem laneLoss_off (s : State) {n p : Nat} (k : Nat) (cut : Option Bool) (owner : laneOwner s n = some p) (off : s.pst p = 0) : laneLoss s n k cut = s := by
  simp [laneLoss, owner, off]

/-! The window of invalid headers. -/

/-- The headers counted, and HIBER, on every lane. -/
def headerBits (a i : Nat) : Prop := a / 65536 = 5 ∧ (a % 4096 = 8 ∨ a % 4096 = 4 ∧ i = 4)

theorem headerBits_offCfg : OffCfg headerBits := fun q i h => by
  simp only [headerBits, R.CL_PCFG] at h
  omega

theorem headerBits_hiber {n : Nat} : headerBits (R.LANE_STAT n) 4 :=
  ⟨(laneStat_addr n).1, .inr ⟨(laneStat_addr n).2, rfl⟩⟩

/-- The invalid headers of a window counted, HIBER and its event. -/
def hiberCounted (s : State) (n bad : Nat) : State :=
  let ovr := decide (s.rd1 (F.LANE_QUAL_BER_THR n) < bad)
  let s2 := (count (s.bump (F.LANE_SHERR_SH_ERR n) bad) n bad).wr (F.LANE_STAT_HIBER n) (b2n ovr)
  if ovr && !(s.on (F.LANE_STAT_HIBER n)) then raise s2 (laneSrc n 3) [] else s2

theorem hiberWindow_eq (s : State) (n bad : Nat) : hiberWindow s n bad =
    if !(s.on (F.LANE_QUAL_HIBER_DOWN n)) then hiberCounted s n bad
    else if decide (s.rd1 (F.LANE_QUAL_BER_THR n) < bad) then
      (if s.on (F.LANE_STAT_HIBER n) then hiberCounted s n bad else hiberDown (hiberCounted s n bad) n)
    else match laneOwner s n with
      | some p => if hasBlock (hiberCounted s n bad) p then blockSettled (hiberCounted s n bad) p else hiberCounted s n bad
      | none => hiberCounted s n bad := rfl

theorem hiberCounted_told (s : State) (n bad : Nat) (W : Nat → Nat → Prop) :
    Within W ((count (s.bump (F.LANE_SHERR_SH_ERR n) bad) n bad).wr (F.LANE_STAT_HIBER n) (b2n (decide (s.rd1 (F.LANE_QUAL_BER_THR n) < bad))))
      (hiberCounted s n bad) := .ite (raise_within _ _ _ _) (.refl _ _)

theorem hiberCounted_within (s : State) (n bad : Nat) : Within headerBits s (hiberCounted s n bad) := by
  have counted : Within headerBits s (s.bump (F.LANE_SHERR_SH_ERR n) bad) := .wr s _ _ fun i _ _ => by
    simp only [headerBits, R.LANE_SHERR]
    omega
  exact ((counted.trans (count_within _ _ n bad)).trans (.wr_bit _ _ 4 _ headerBits_hiber)).trans (hiberCounted_told s n bad _)

theorem hiberCounted_hiber (s : State) (n bad : Nat) :
    (hiberCounted s n bad).on (F.LANE_STAT_HIBER n) = decide (s.rd1 (F.LANE_QUAL_BER_THR n) < bad) := by
  rw [(hiberCounted_told s n bad fun _ _ => False).on fun _ _ _ => id, State.on, State.rd_wr_same _ _ _ (by simp)]
  cases decide (s.rd1 (F.LANE_QUAL_BER_THR n) < bad) <;> rfl

theorem satAdd_lt (w x k : Nat) : satAdd w x k < 2 ^ w := by
  have := Nat.two_pow_pos w
  unfold satAdd
  omega

/-- A count that saturates reads as the sum. -/
theorem bump_rd (s : State) (f : FRef) (k : Nat) (h : f.lo + f.w ≤ 32) : (s.bump f k).rd f = satAdd f.w (s.rd f) k := by
  rw [State.bump, State.rd_wr_same s f _ h, Nat.mod_eq_of_lt (satAdd_lt _ _ _)]

theorem hiberCounted_errors (s : State) (n bad : Nat) :
    (hiberCounted s n bad).rd (F.LANE_SHERR_SH_ERR n) = satAdd (F.LANE_SHERR_SH_ERR n).w (s.rd (F.LANE_SHERR_SH_ERR n)) bad := by
  have counted : ((count (s.bump (F.LANE_SHERR_SH_ERR n) bad) n bad).wr (F.LANE_STAT_HIBER n) (b2n (decide (s.rd1 (F.LANE_QUAL_BER_THR n) < bad)))).rd
      (F.LANE_SHERR_SH_ERR n) = (count (s.bump (F.LANE_SHERR_SH_ERR n) bad) n bad).rd (F.LANE_SHERR_SH_ERR n) :=
    State.rd_wr_ne _ _ _ _ (by simp only [R.LANE_SHERR, R.LANE_STAT]; omega)
  rw [(hiberCounted_told s n bad fun _ _ => False).rd fun _ _ _ => id, counted, (count_within (fun _ _ => False) _ n bad).rd fun _ _ _ => id,
    bump_rd _ _ _ (by simp)]

theorem hiberCounted_pst (s : State) (n bad q : Nat) : (hiberCounted s n bad).pst q = s.pst q :=
  (hiberCounted_within s n bad).pst fun i _ h => by
    simp only [headerBits, R.CL_PSTAT] at h
    omega

theorem hiberDown_moves (s : State) (n : Nat) : Within moveBits s (hiberDown s n) := by
  unfold hiberDown
  split
  · exact .ite ((raise_within _ s _ _).trans (fallBack_moves _ _ 3)) (.refl _ s)
  · exact .ite (raise_within _ s _ _) (.refl _ s)

/-- A port above BLOCK falls to it where HIBER takes it down; out of SETTLE only (R47, R60). -/
theorem hiberDown_pst (s : State) {n p : Nat} (owner : laneOwner s n = some p) (off : s.pst p ≠ 0) :
    (hiberDown s n).pst p = if s.pst p = 7 then 7 else min (s.pst p) 3 := by
  simp only [hiberDown, owner]
  by_cases settle : s.pst p = 7
  · simp [judged, settle]
  · have same : (raise s (laneSrc n 2) []).pst p = s.pst p := (raise_within (fun _ _ => False) s _ _).pst fun _ _ => id
    rw [if_pos (by simp [judged, off, settle]), if_neg settle, fallBack_pst _ p (by decide) (by decide) (by rwa [same]), same]

theorem hiberWindow_after (s : State) (n bad : Nat) : Within moveBits (hiberCounted s n bad) (hiberWindow s n bad) := by
  rw [hiberWindow_eq]
  refine .ite (.refl _ _) (.ite (.ite (.refl _ _) (hiberDown_moves _ n)) ?_)
  split
  · exact .ite (blockSettled_moves _ _) (.refl _ _)
  · exact .refl _ _

theorem hiberWindow_access (s : State) (n bad : Nat) : AccessKeeps (hiberCounted s n bad) (hiberWindow s n bad) := by
  rw [hiberWindow_eq]
  refine .ite (.refl _) (.ite (.ite (.refl _) (hiberDown_access _ n)) ?_)
  split
  · exact .ite (blockSettled_access _ _) (.refl _)
  · exact .refl _

/-- The window gives no position. -/
theorem hiberWindow_pos (s : State) (n bad : Nat) (held : (hiberWindow s n bad).on F.CL_MYPOS_VALID = true) : s.on F.CL_MYPOS_VALID = true := by
  rw [← (hiberCounted_within s n bad).on (f := F.CL_MYPOS_VALID) fun i _ _ => by simp [headerBits]]
  exact (hiberWindow_access s n bad).pos held

theorem moveBits_header {a i : Nat} (h : headerBits a i) : ¬ moveBits a i := by
  simp only [headerBits] at h
  simp only [moveBits, fallBits, bypBits, R.CL_PCFG, R.CL_MYPOS, R.CL_BYP]
  omega

/-- HIBER_DOWN off: no port moves. -/
theorem hiberWindow_stays (s : State) (n bad q : Nat) (off : s.on (F.LANE_QUAL_HIBER_DOWN n) = false) : (hiberWindow s n bad).pst q = s.pst q := by
  rw [hiberWindow_eq, off, if_pos (by rfl), hiberCounted_pst]

/-- HIBER_DOWN on and HIBER just set: the port of the lane falls to BLOCK. -/
theorem hiberWindow_falls (s : State) {n bad p : Nat} (owner : laneOwner s n = some p) (live : s.pst p ≠ 0) (down : s.on (F.LANE_QUAL_HIBER_DOWN n) = true)
    (clear : s.on (F.LANE_STAT_HIBER n) = false) (above : s.rd1 (F.LANE_QUAL_BER_THR n) < bad) :
    (hiberWindow s n bad).pst p = if s.pst p = 7 then 7 else min (s.pst p) 3 := by
  have own : laneOwner (hiberCounted s n bad) n = some p := ((hiberCounted_within s n bad).laneOwner headerBits_offCfg n).trans owner
  have falls := hiberDown_pst (hiberCounted s n bad) own (by rwa [hiberCounted_pst])
  rw [hiberCounted_pst] at falls
  rw [hiberWindow_eq, down, clear]
  simpa [above] using falls

/-- HIBER_WINDOW_END. -/
theorem hiberWindowEnd_clause (n : Fin 16) (bad : Word) (s : State) (p : Nat) (owner : laneOwner s n.val = some p) (off : s.pst p ≠ 0) :
    Runs (.hiberWindowEnd n bad) s fun t => t.on (F.LANE_STAT_HIBER n.val) = decide (s.rd1 (F.LANE_QUAL_BER_THR n.val) < bad.toNat) ∧
      t.rd (F.LANE_SHERR_SH_ERR n.val) = satAdd (F.LANE_SHERR_SH_ERR n.val).w (s.rd (F.LANE_SHERR_SH_ERR n.val)) bad.toNat ∧
      (s.on (F.LANE_QUAL_HIBER_DOWN n.val) = false → t.pst p = s.pst p) ∧
      (s.on (F.LANE_QUAL_HIBER_DOWN n.val) = true → s.on (F.LANE_STAT_HIBER n.val) = false → s.rd1 (F.LANE_QUAL_BER_THR n.val) < bad.toNat →
        t.pst p = if s.pst p = 7 then 7 else min (s.pst p) 3) := by
  have effect : windowEnd n.val bad.toNat s = hiberWindow s n.val bad.toNat := by simp [windowEnd, owner, off]
  have after := hiberWindow_after s n.val bad.toNat
  have within : Within (fun a i => headerBits a i ∨ moveBits a i) s (hiberWindow s n.val bad.toNat) :=
    ((hiberCounted_within s n.val bad.toNat).mono fun _ _ => .inl).trans (after.mono fun _ _ => .inr)
  obtain ⟨t, run, link⟩ := linked_runs (windowEnd n.val bad.toNat) s (effect ▸ within) (effect ▸ hiberWindow_pos s n.val bad.toNat)
  rw [effect] at link
  have onLane : ¬ linkBlock (R.LANE_SHERR n.val) := by
    simp only [linkBlock, R.LANE_SHERR, R.WT_PAIR]
    omega
  refine ⟨t, run, ?_, ?_, ?_, ?_⟩
  · exact ((lane_of_link link n.val 4).trans (after.on_bit (moveBits_header headerBits_hiber))).trans (hiberCounted_hiber s n.val bad.toNat)
  · rw [link.rd fun i _ _ => onLane, after.rd, hiberCounted_errors]
    intro i _ _
    refine moveBits_header ?_
    simp only [headerBits, R.LANE_SHERR]
    omega
  · intro down
    rw [pst_of_link link, hiberWindow_stays s n.val bad.toNat p down]
  · intro down clear above
    rw [pst_of_link link, hiberWindow_falls s owner off down clear above]

/-- Settles O24: the lane's own bits are `laneClear`'s, and what follows them writes none of them. -/
theorem laneLossesFallBack : Obligations.LaneLossesFallBack := by
  refine ⟨fun n cut s p owner off => ⟨?_, ?_, ?_⟩, fun n cut c s p owner off link row => ?_, fun n bad s p owner off => ?_⟩
  · obtain ⟨t, run, lane, port⟩ := laneLoss_runs s (k := 1) (some cut) (.inl rfl) owner off
    have lower := laneClear_one s n.val (some p)
    refine ⟨t, run, ?_, ?_, ?_, port⟩
    · exact (lane n.val 0 (by decide)).trans (laneClear_signal s n.val _)
    · exact (lane n.val 1 (by decide)).trans (by rw [lower]; exact laneClear_cdr _ n.val _)
    · exact (lane n.val 2 (by decide)).trans (by rw [lower, laneClear_two]; exact laneClear_block _ n.val _)
  · obtain ⟨t, run, lane, port⟩ := laneLoss_runs s (k := 2) (some cut) (.inr (.inl rfl)) owner off
    refine ⟨t, run, ?_, ?_, ?_, port⟩
    · exact (lane n.val 1 (by decide)).trans (laneClear_cdr s n.val _)
    · exact (lane n.val 2 (by decide)).trans (by rw [laneClear_two]; exact laneClear_block _ n.val _)
    · exact (lane n.val 0 (by decide)).trans ((laneClear_within_two s n.val _).on_bit (lossBits_below (by decide)))
  · obtain ⟨t, run, lane, port⟩ := laneLoss_runs s (k := 3) (some cut) (.inr (.inr rfl)) owner off
    refine ⟨t, run, ?_, ?_, port⟩
    · exact (lane n.val 2 (by decide)).trans (laneClear_block s n.val _)
    · exact (lane n.val 1 (by decide)).trans ((laneClear_within_three s n.val _).on_bit (lossBits_below (by decide)))
  · have still : ∀ k, ∃ t, ordinary (linked fun s => laneLoss s n.val k (some cut)) s = .next t ∧ Reports s t := fun k =>
      linked_idle _ s (laneLoss_off s k _ owner off) link
    rcases row with rfl | rfl | rfl
    · exact still 1
    · exact still 2
    · exact still 3
  · exact hiberWindowEnd_clause n bad s p owner off

end Sys2Proof.Machine
end

section
/-! PROOF. The by-pass switch (O26; R59 to R62). -/
namespace Sys2Proof.Machine

theorem exec_bypLoneExpire (s : State) : exec .bypLoneExpire s = ordinary (linked bypLone) s := rfl
theorem exec_bypSettleExpire (s : State) : exec .bypSettleExpire s = ordinary (linked bypSettle) s := rfl
theorem exec_bypassOpenFall (cut : Bool) (s : State) : exec (.bypassOpenFall cut) s = ordinary (linked fun s => openFall s cut) s := rfl
theorem exec_forceCloseWrite (path : Access) (w : Word) (s : State) :
    exec (.forceCloseWrite path w) s = ordinary (fun s => regWrite s path R.CL_BYP w.toNat) s := rfl

theorem linkBlock_byp : ¬ linkBlock R.CL_BYP := by simp [linkBlock]

theorem linkBlock_myPos : ¬ linkBlock R.CL_MYPOS := by simp [linkBlock]

theorem Within.of_eq {W : Nat → Nat → Prop} {s t : State} (h : t = s) : Within W s t := h ▸ .refl W t

theorem settled_live {x : Nat} (h : x ≠ 0) : settled x = 7 := if_neg h

theorem bypassRise_access (s : State) (cause : Nat) : AccessKeeps s (bypassRise s cause) :=
  (driveBypass_access s 1 cause).trans (.foldl (fun s p => .ite (.refl s) (setPst_access s p 7)) _ _)

/-- A command that ends in the rise of the switch. -/
theorem linked_rises (f : State → State) (s u : State) (cause : Nat) {W : Nat → Nat → Prop} (before : Within W s u) 
    (after : Within (fun a _ => linkBlock a) (bypassRise u cause) (f s))
    (pos : u.on F.CL_MYPOS_VALID = true → s.on F.CL_MYPOS_VALID = true) :
    ∃ t, ordinary (linked f) s = .next t ∧ Within (fun a _ => linkBlock a) (bypassRise u cause) t ∧ t.on F.CL_BYP_BYP_STATE = true ∧
      Output.pin pinBypassOpen 1 ∈ t.out ∧ ∀ r ∈ ringPorts u, u.pst r ≠ 0 → t.pst r = 7 := by
  have within : Within (fun a i => (W a i ∨ moveBits a i) ∨ linkBlock a) s (f s) :=
    (((before.mono fun _ _ => .inl).trans ((bypassRise_moves u cause).mono fun _ _ => .inr)).mono fun _ _ => .inl).trans (after.mono fun _ _ => .inr)
  have place : (f s).on F.CL_MYPOS_VALID = true → s.on F.CL_MYPOS_VALID = true := fun k =>
    pos ((bypassRise_access u cause).pos ((after.on (f := F.CL_MYPOS_VALID) fun _ _ _ => linkBlock_myPos) ▸ k))
  obtain ⟨t, run, link⟩ := linked_runs f s within place
  have link := after.trans link
  obtain ⟨risen, pin⟩ := bypassRise_shows u cause
  refine ⟨t, run, link, ?_, link.out.subset pin, fun r mem live => ?_⟩
  · rw [link.on fun _ _ _ => linkBlock_byp, risen]
  · rw [pst_of_link link, bypassRise_pst u cause (ringPorts_lt mem), if_pos mem, settled_live live]

/-- A command that ends in the fall of an open switch. -/
theorem linked_falls (f : State → State) (s u : State) (cause : Nat) {W : Nat → Nat → Prop} (before : Within W s u) 
    (after : Within (fun a _ => linkBlock a) (bypassFall u cause) (f s))
    (isOpen : u.on F.CL_BYP_BYP_STATE = true) (pos : u.on F.CL_MYPOS_VALID = true → s.on F.CL_MYPOS_VALID = true) :
    ∃ t, ordinary (linked f) s = .next t ∧ Within (fun a _ => linkBlock a) (bypassFall u cause) t ∧ t.on F.CL_BYP_BYP_STATE = false ∧
      Output.pin pinBypassOpen 0 ∈ t.out ∧ ∀ r ∈ ringPorts u, u.pst r ≠ 0 → t.pst r = 7 := by
  have within : Within (fun a i => (W a i ∨ moveBits a i) ∨ linkBlock a) s (f s) :=
    (((before.mono fun _ _ => .inl).trans ((bypassFall_moves u cause).mono fun _ _ => .inr)).mono fun _ _ => .inl).trans (after.mono fun _ _ => .inr)
  have place : (f s).on F.CL_MYPOS_VALID = true → s.on F.CL_MYPOS_VALID = true := fun k =>
    pos ((bypassFall_access u cause).pos ((after.on (f := F.CL_MYPOS_VALID) fun _ _ _ => linkBlock_myPos) ▸ k))
  obtain ⟨t, run, link⟩ := linked_runs f s within place
  have link := after.trans link
  obtain ⟨fallen, pin⟩ := bypassFall_shows u cause isOpen
  refine ⟨t, run, link, ?_, link.out.subset pin, fun r mem live => ?_⟩
  · rw [link.on fun _ _ _ => linkBlock_byp, fallen]
  · rw [pst_of_link link, bypassFall_pst u cause (ringPorts_lt mem) isOpen, if_pos mem, settled_live live]

/-! BYP_LONE and BYP_SETTLE. -/

/-- No lane of a port has a signal. -/
theorem silent_all {s : State} {q : Nat} (h : ∀ n ∈ portLanes s q, s.on (F.LANE_STAT_SIGDET n) = false) :
    ((portLanes s q).all fun l => !(s.on (F.LANE_STAT_SIGDET l))) = true := by
  simp only [List.all_eq_true, Bool.not_eq_true']
  exact h

theorem bypLone_rises (s : State) {p q : Nat} (ring : ringPorts s = [p, q] ∨ ringPorts s = [q, p]) (closed : s.on F.CL_BYP_BYP_STATE = false)
    (cause : closedCause s = false) (lone : s.on F.CL_TIMERS_BYP_LONE = true) (block : hasBlock s p = true)
    (silent : ∀ n ∈ portLanes s q, s.on (F.LANE_STAT_SIGDET n) = false) : bypLone s = bypassRise s 1 := by
  have quiet := silent_all silent
  unfold bypLone
  rcases ring with e | e <;> simp [e, closed, cause, lone, block, quiet]

theorem bypLone_stays (s : State) (h : s.on F.CL_TIMERS_BYP_LONE = false ∨ closedCause s = true) : bypLone s = s := by
  unfold bypLone
  split
  · rcases h with h | h <;> simp [h]
  · rfl

/-- SEARCH for a port in SETTLE. -/
def searching (x : Nat) : Nat := if x = 7 then 1 else x

theorem searching_searching (x : Nat) : searching (searching x) = searching x := by
  by_cases settle : x = 7
  · simp [searching, settle]
  · simp [searching, settle]

theorem bypSettle_states (s : State) : Within (fun a i => ∃ p, stateBits p a i) s (bypSettle s) :=
  .foldl (fun s p => .ite ((setPst_within s p 1).mono fun _ _ h => ⟨p, h⟩) (.refl _ s)) _ s

theorem bypSettle_access (s : State) : AccessKeeps s (bypSettle s) := .foldl (fun s p => .ite (setPst_access s p 1) (.refl s)) _ s

theorem bypSettle_pst (s : State) {q : Nat} (hq : q < 12) : (bypSettle s).pst q = if q ∈ ringPorts s then searching (s.pst q) else s.pst q := by
  rw [bypSettle, foldl_pst (new := searching) _ _ searching_searching _ (fun p => ringPorts_lt) s hq]
  · intro t p
    unfold searching
    split
    · exact setPst_pst_same t p 1
    · rfl
  · intro t p r hp hr ne
    split
    · exact setPst_pst_ne t 1 hp hr ne
    · rfl

/-! FORCE_CLOSE. -/

/-- CL_BYP.FORCE_CLOSE. -/
def forceBits (a i : Nat) : Prop := a = R.CL_BYP ∧ i = 1

theorem forceBits_offCfg : OffCfg forceBits := fun q i h => by
  simp only [forceBits, R.CL_PCFG, R.CL_BYP] at h
  omega

theorem force_within (s : State) (v : Nat) : Within forceBits s (s.wr F.CL_BYP_FORCE_CLOSE v) :=
  .wr_bit s R.CL_BYP 1 v ⟨rfl, rfl⟩

theorem force_pst (s : State) (v q : Nat) : (s.wr F.CL_BYP_FORCE_CLOSE v).pst q = s.pst q :=
  (force_within s v).pst fun i _ h => by
    simp only [forceBits, R.CL_PSTAT, R.CL_BYP] at h
    omega

theorem lanes_hasBlock {W : Nat → Nat → Prop} {s t : State} (h : Within W s t) (cfg : OffCfg W)
    (lane : ∀ a i, a / 65536 = 5 → ¬ W a i) (p : Nat) : hasBlock t p = hasBlock s p := by
  have field : ∀ (n lo w : Nat), t.on ⟨R.LANE_STAT n, lo, w⟩ = s.on ⟨R.LANE_STAT n, lo, w⟩ := fun n lo w =>
    h.on fun i _ _ => lane _ i (by simp only [R.LANE_STAT]; omega)
  have down : ∀ n, t.on (F.LANE_QUAL_HIBER_DOWN n) = s.on (F.LANE_QUAL_HIBER_DOWN n) := fun n =>
    h.on fun i _ _ => lane _ i (by simp only [R.LANE_QUAL]; omega)
  simp only [hasBlock, lanesHave, h.portLanes cfg, field, down]

/-- A word of CL_BYP: FORCE_CLOSE at once, BYP_STATE is read-only. -/
theorem putWord_byp (s : State) (w : Nat) :
    putWord s R.CL_BYP w false = (clWrote (s.wr F.CL_BYP_FORCE_CLOSE (bits w 1 1)) R.CL_BYP (s.reg R.CL_BYP), false) := rfl

theorem busWrite_byp (s : State) (path : Access) (w : Nat) (on : addrOn s.strap.role R.CL_BYP = true) :
    (busWrite s (accessPath path) R.CL_BYP w).1 = clWrote (s.wr F.CL_BYP_FORCE_CLOSE (bits w 1 1)) R.CL_BYP (s.reg R.CL_BYP) := by
  have bus : (accessPath path == .xa || accessPath path == .preload) = false := by cases path <;> rfl
  have mirror : mirrored R.CL_BYP = false := by decide
  have picture : pictureAddr R.CL_BYP = false := by decide
  have window : isWindow R.CL_BYP = false := by decide
  unfold busWrite busTouch
  simp only [on, mirror, picture, window, bus, putWord_byp, Bool.and_false, Bool.false_and, Bool.false_eq_true, if_false]
  rfl

theorem clWrote_byp (s : State) (old : Nat) : clWrote s R.CL_BYP old =
    if s.on F.CL_BYP_FORCE_CLOSE then (if s.on F.CL_BYP_BYP_STATE then bypassFall s 3 else s) else if bitAt old 1 then tryRise s else s := rfl

/-- What a write of CL_BYP by a path that reaches the device does, but for the mirror link. -/
def forceWrite (path : Access) (w : Nat) (s : State) : State := retryHeads (busWrite s (accessPath path) R.CL_BYP w).1

/-- A command depends on its effect on this state alone. -/
theorem ordinary_congr {f g : State → State} {s : State} (h : f s = g s) : ordinary f s = ordinary g s := by
  dsimp only [ordinary]
  rw [h]

theorem forceCloseWrite_runs (path : Access) (w : Word) (s : State) (reach : reaches s path = true) :
    exec (.forceCloseWrite path w) s = ordinary (linked (forceWrite path w.toNat)) s := by
  have same : regWrite s path R.CL_BYP w.toNat = linked (forceWrite path w.toNat) s := by
    rw [regWrite, if_pos reach]
    rfl
  rw [exec_forceCloseWrite]
  exact ordinary_congr same

theorem force_on (s : State) (w : Nat) : (s.wr F.CL_BYP_FORCE_CLOSE (bits w 1 1)).on F.CL_BYP_FORCE_CLOSE = w.testBit 1 := by
  have field : bits w 1 1 = w / 2 % 2 := by simp [bits, Nat.shiftRight_eq_div_pow]
  rw [State.on, State.rd_wr_same _ _ _ (by decide), field, Nat.testBit_eq_decide_div_mod_eq]
  rcases Nat.mod_two_eq_zero_or_one (w / 2) with zero | one
  · simp [zero]
  · simp [one]

/-- FORCE_CLOSE as written and the switch as it was. -/
theorem force_state (s : State) (w : Nat) : (s.wr F.CL_BYP_FORCE_CLOSE (bits w 1 1)).on F.CL_BYP_BYP_STATE = s.on F.CL_BYP_BYP_STATE :=
  (force_within s _).on_bit fun h => absurd h.2 (by decide)

theorem force_pos (s : State) (v : Nat) : (s.wr F.CL_BYP_FORCE_CLOSE v).on F.CL_MYPOS_VALID = s.on F.CL_MYPOS_VALID :=
  (force_within s v).on fun _ _ _ h => absurd h.1 (by decide)

theorem forceWrite_eq (s : State) (path : Access) (w : Nat) (on : addrOn s.strap.role R.CL_BYP = true) :
    forceWrite path w s = retryHeads (clWrote (s.wr F.CL_BYP_FORCE_CLOSE (bits w 1 1)) R.CL_BYP (s.reg R.CL_BYP)) := by
  rw [forceWrite, busWrite_byp s path w on]

/-- FORCE_CLOSE goes on: an open switch falls. -/
theorem forceWrite_falls (path : Access) (w : Nat) (s : State) (on : addrOn s.strap.role R.CL_BYP = true) (isOpen : s.on F.CL_BYP_BYP_STATE = true)
    (force : w.testBit 1 = true) : forceWrite path w s = retryHeads (bypassFall (s.wr F.CL_BYP_FORCE_CLOSE (bits w 1 1)) 3) := by
  rw [forceWrite_eq s path w on, clWrote_byp, if_pos ((force_on s w).trans force), if_pos ((force_state s w).trans isOpen)]

/-- FORCE_CLOSE goes off, as the last cause, with block lock on both ring ports: the switch rises. -/
theorem forceWrite_rises (path : Access) (w : Nat) (s : State) {p q : Nat} (on : addrOn s.strap.role R.CL_BYP = true) (ring : ringPorts s = [p, q])
    (closed : s.on F.CL_BYP_BYP_STATE = false) (was : s.on F.CL_BYP_FORCE_CLOSE = true) (force : w.testBit 1 = false)
    (cause : closedCause (s.wr F.CL_BYP_FORCE_CLOSE 0) = false) (ready : ∀ r ∈ ringPorts s, s.pst r = 3 ∧ hasBlock s r = true) :
    forceWrite path w s = retryHeads (bypassRise (s.wr F.CL_BYP_FORCE_CLOSE (bits w 1 1)) 0) := by
  have off : (s.wr F.CL_BYP_FORCE_CLOSE (bits w 1 1)).on F.CL_BYP_FORCE_CLOSE = false := (force_on s w).trans force
  have zero : bits w 1 1 = 0 := by
    have field := s.rd_wr_same F.CL_BYP_FORCE_CLOSE (bits w 1 1) (by decide)
    have small : bits w 1 1 < 2 := Nat.mod_lt _ (by decide)
    simp only [State.on, field, bne_eq_false_iff_eq] at off
    omega
  have old : bitAt (s.reg R.CL_BYP) 1 = true := by
    simp only [State.on, State.rd, bits, bne_iff_ne, ne_eq] at was
    rw [bitAt, Nat.testBit_eq_decide_div_mod_eq, decide_eq_true_eq, ← Nat.shiftRight_eq_div_pow]
    omega
  have held := fun r => lanes_hasBlock (force_within s (bits w 1 1)) forceBits_offCfg (fun a i lane h => by simp only [forceBits, R.CL_BYP] at h; omega) r
  have both : ∀ r ∈ [p, q], s.pst r = 3 ∧ hasBlock s r = true := ring ▸ ready
  have rise : tryRise (s.wr F.CL_BYP_FORCE_CLOSE (bits w 1 1)) = bypassRise (s.wr F.CL_BYP_FORCE_CLOSE (bits w 1 1)) 0 := by
    have none : closedCause (s.wr F.CL_BYP_FORCE_CLOSE (bits w 1 1)) = false := zero ▸ cause
    refine if_pos ?_
    simp only [(force_within s _).ringPorts forceBits_offCfg, ring, force_state, closed, none, force_pst, held]
    simpa using both
  rw [forceWrite_eq s path w on, clWrote_byp, off, old, if_neg Bool.false_ne_true, if_pos rfl, rise]

/-! BYPASS_OPEN falls. -/

/-- The device after what each ring port was receiving is noted. -/
def cutNoted (s : State) (cut : Bool) : State := (ringPorts s).foldl (fun t p => t.modPort p fun x => { x with inPacket := cut && s.isUp p }) s

theorem cutNoted_within (W : Nat → Nat → Prop) (s : State) (cut : Bool) : Within W s (cutNoted s cut) := .foldl (fun t p => modPort_within W t p _) _ s

theorem openFall_falls (s : State) (cut : Bool) (cause : closedCause s = true) :
    openFall s cut = bypassFall (cutNoted s cut) (if s.on F.CL_BYP_FORCE_CLOSE then 3 else 2) := by
  rw [openFall, if_pos cause]
  rfl

theorem retryHeads_within (s : State) : Within (fun a _ => linkBlock a) s (retryHeads s) := .of_link (retryHeads_keeps s) (retryHeads_grows s).out

theorem moveBits_force : ¬ moveBits R.CL_BYP 1 := by
  simp only [moveBits, fallBits, bypBits, R.CL_BYP, R.CL_MYPOS, R.CL_PCFG]
  omega

/-- Settles O26: the switch moves by `bypassRise` and `bypassFall`, which name the ports that settle. -/
theorem bypassSwitch : Obligations.BypassSwitch := by
  refine ⟨fun s p q ring closed cause lone block silent => ?_, fun s link h => ?_, fun s => ?_, fun path w s reach on => ⟨fun isOpen force => ?_,
    fun p q ring closed was force cause ready => ?_⟩, fun cut s isOpen cause => ?_, fun cut s cause link => ?_⟩
  · have effect := bypLone_rises s ring closed cause lone block silent
    obtain ⟨t, run, -, risen, pin, settle⟩ := linked_rises bypLone s s 1 (.refl moveBits s) (.of_eq effect) id
    exact ⟨t, run, risen, pin, settle⟩
  · exact linked_idle _ s (bypLone_stays s h) link
  · obtain ⟨t, run, link⟩ := linked_runs bypSettle s (bypSettle_states s) (bypSettle_access s).pos
    refine ⟨t, run, fun p mem settle => ?_, fun p other => ?_, ?_⟩
    · rw [pst_of_link link, bypSettle_pst s (ringPorts_lt mem), if_pos mem, settle]
      rfl
    · rw [pst_of_link link, bypSettle_pst s p.isLt]
      rcases other with off | awake
      · rw [if_neg off]
      · simp [searching, awake]
    · rw [link.on fun _ _ _ => linkBlock_byp, (bypSettle_states s).on]
      rintro i - - ⟨p, h, -⟩
      simp only [R.CL_BYP, R.CL_PSTAT] at h
      omega
  · have effect := forceWrite_falls path w.toNat s on isOpen force
    obtain ⟨t, run, link, fallen, pin, settle⟩ := linked_falls (forceWrite path w.toNat) s _ 3 (force_within s _) (effect ▸ retryHeads_within _)
      ((force_state s w.toNat).trans isOpen) (fun k => (force_pos s _) ▸ k)
    refine ⟨t, (forceCloseWrite_runs path w s reach).trans run, ?_, fallen, pin, fun r mem live => settle r ?_ ?_⟩
    · rw [link.on fun _ _ _ => linkBlock_byp, (bypassFall_moves _ 3).on_bit moveBits_force, force_on]
      exact force
    · rwa [(force_within s _).ringPorts forceBits_offCfg]
    · rwa [force_pst]
  · have effect := forceWrite_rises path w.toNat s on ring closed was force cause ready
    obtain ⟨t, run, link, risen, pin, settle⟩ := linked_rises (forceWrite path w.toNat) s _ 0 (force_within s _) (effect ▸ retryHeads_within _)
      (fun k => (force_pos s _) ▸ k)
    refine ⟨t, (forceCloseWrite_runs path w s reach).trans run, ?_, risen, pin, fun r mem => settle r ?_ ?_⟩
    · rw [link.on fun _ _ _ => linkBlock_byp, (bypassRise_moves _ 0).on_bit moveBits_force, force_on]
      exact force
    · rwa [(force_within s _).ringPorts forceBits_offCfg]
    · rw [force_pst, (ready r mem).1]
      decide
  · have effect := openFall_falls s cut cause
    have noted := cutNoted_within (fun _ _ => False) s cut
    obtain ⟨t, run, -, fallen, pin, settle⟩ := linked_falls (fun s => openFall s cut) s _ _ noted (.of_eq effect)
      ((noted.on fun _ _ _ => id).trans isOpen) (fun k => (noted.on fun _ _ _ => id) ▸ k)
    refine ⟨t, run, fallen, pin, fun r mem live => settle r ?_ ?_⟩
    · rwa [noted.ringPorts fun _ _ => id]
    · rwa [noted.pst fun _ _ => id]
  · exact linked_idle _ s (if_neg (by simp [cause])) link

end Sys2Proof.Machine
end

section
/-! PROOF. The scrambler, ALIGN pairs, invalid blocks, FAULT blocks and the filler (O25; R36 to R42, R56, R77, R82). -/
namespace Sys2Proof.Machine

/-! The scrambler (R42). -/

theorem descramble_scramble (k : BitVec 58) (l : List Bool) : (descramble k (scramble k l).1).1 = l := by
  induction l generalizing k with
  | nil => rfl
  | cons b r ih => simp only [scramble, descramble, ih, Bool.xor_assoc, Bool.xor_self, Bool.xor_false]

/-- The last `m` line bits that two receivers hold are the same. -/
def agreeTo (m : Nat) (j k : BitVec 58) : Prop := ∀ i < m, j.getLsbD i = k.getLsbD i

theorem getLsbD_scramShift (k : BitVec 58) (b : Bool) (i : Nat) (h : i < 58) :
    (scramShift k b).getLsbD i = if i = 0 then b else k.getLsbD (i - 1) := by
  cases i with
  | zero => simp [scramShift]
  | succ i => simp [scramShift, h, BitVec.getLsbD_eq_getElem (Nat.lt_of_succ_lt h)]

theorem agreeTo_shift {m : Nat} {j k : BitVec 58} (h : agreeTo m j k) (b : Bool) (low : m < 58) : agreeTo (m + 1) (scramShift j b) (scramShift k b) := by
  intro i hi
  rw [getLsbD_scramShift j b i (by omega), getLsbD_scramShift k b i (by omega)]
  split
  · rfl
  · exact h (i - 1) (by omega)

/-- Each line bit fixes one more bit of what the receivers hold. -/
theorem descramble_agree (l : List Bool) {m : Nat} {j k : BitVec 58} (low : m ≤ 58) (h : agreeTo m j k) :
    (descramble j l).1.drop (58 - m) = (descramble k l).1.drop (58 - m) := by
  induction l generalizing m j k with
  | nil => rfl
  | cons o r ih =>
    by_cases all : m = 58
    · subst all
      rw [BitVec.eq_of_getLsbD_eq fun i hi => h i hi]
    · have one : 58 - m = (58 - (m + 1)) + 1 := by omega
      simp only [descramble, one, List.drop_succ_cons]
      exact ih (by omega) (agreeTo_shift h o (by omega))

/-! The trains of the filler take no word of a port but its gap and what it owes. -/

/-- No port's feed is lost or comes back. -/
structure FeedKept (s t : State) : Prop where
  feed : ∀ q, (t.port q).feedLost = (s.port q).feedLost

theorem FeedKept.refl (s : State) : FeedKept s s := ⟨fun _ => rfl⟩
theorem FeedKept.trans {s t u : State} (h : FeedKept s t) (g : FeedKept t u) : FeedKept s u := ⟨fun q => (g.feed q).trans (h.feed q)⟩
theorem FeedKept.of_ports {s t : State} (h : t.ports = s.ports) : FeedKept s t := ⟨fun q => by rw [State.port, h, State.port]⟩

/-- A change that no port sees comes first. -/
theorem FeedKept.after {s t u : State} (g : FeedKept t u) (h : t.ports = s.ports) : FeedKept s u := (FeedKept.of_ports h).trans g

theorem FeedKept.modPort (s : State) (p : Nat) (f : Port → Port) (h : ∀ x, (f x).feedLost = x.feedLost) : FeedKept s (s.modPort p f) := by
  refine ⟨fun q => ?_⟩
  by_cases e : q = p
  · subst e
    rw [State.port, State.modPort, State.setPort, Table.get_set_same]
    exact h _
  · rw [State.port, State.modPort, State.setPort, Table.get_set_ne _ _ _ _ _ _ e, State.port]

theorem FeedKept.foldl {β : Type} {f : State → β → State} (hf : ∀ s x, FeedKept s (f s x)) (l : List β) (s : State) : FeedKept s (l.foldl f s) := by
  induction l generalizing s with
  | nil => exact .refl s
  | cons x r ih => exact (hf s x).trans (ih _)

theorem outqPut_ports (s : State) (e : OutPkt) : (outqPut s e).1.ports = s.ports := by
  unfold outqPut
  split
  · rfl
  · dsimp only
    split <;> rfl

theorem upTry_ports (s : State) (n : Nat) (q : Source) : (upTry s n q).1.ports = s.ports := by
  unfold upTry
  split
  · rfl
  · split
    · exact outqPut_ports _ _
    · exact outqPut_ports s _

theorem upReleased_feed (s : State) (n : Nat) : FeedKept s (upReleased s n) := by
  unfold upReleased
  dsimp only
  split
  · exact .refl s
  · split
    · exact .of_ports rfl
    · exact .of_ports (upTry_ports s n _)

theorem fillWaiting_feed (k : Nat) (s : State) : FeedKept s (fillWaiting k s) := by
  induction k generalizing s with
  | zero => exact .refl s
  | succ k ih =>
    unfold fillWaiting
    split
    · exact .refl s
    · exact (ih _).after (outqPut_ports _ _)

theorem drainUp_feed (k : Nat) (s : State) : FeedKept s (drainUp k s) := by
  induction k generalizing s with
  | zero => exact .refl s
  | succ k ih =>
    unfold drainUp
    split
    · exact .refl s
    · split
      · exact .refl s
      · exact (ih _).after (upTry_ports s _ _)

theorem outqSweep_feed (s : State) : FeedKept s (outqSweep s) := by
  unfold outqSweep
  dsimp only
  split
  · exact .refl s
  · refine FeedKept.trans (FeedKept.trans ?_ (fillWaiting_feed 64 _)) (drainUp_feed 64 _)
    refine FeedKept.after (.foldl (fun s e => ?_) _ _) rfl
    split
    · exact upReleased_feed s _
    · exact .refl s

theorem putTrace_ports (s : State) (t : Trace) : (putTrace s t).ports = s.ports := by
  unfold putTrace
  dsimp only
  split
  · rfl
  · split
    · split <;> rfl
    · rfl

theorem flushTrace_feed (s : State) : FeedKept s (flushTrace s) := by
  unfold flushTrace
  dsimp only
  have put : ∀ (l : List Trace) (o : Obs), FeedKept s (l.foldl putTrace { s with obs := o }) := fun l o =>
    FeedKept.after (.foldl (fun s t => .of_ports (putTrace_ports s t)) l _) rfl
  split
  · exact put _ _
  · split
    · exact (put _ _).trans (.of_ports rfl)
    · exact (put _ _).trans (.of_ports rfl)

theorem useTrain_feed (s : State) (p : Nat) (cut : Bool) : FeedKept s (useTrain s p cut) := by
  have gap : ∀ (u : State) (n : Nat), FeedKept u (u.modPort p fun x => { x with gapLeft := n }) := fun u n => .modPort u p _ fun _ => rfl
  unfold useTrain
  split
  · exact .refl s
  · dsimp only
    split
    · exact (gap s _).trans (.of_ports rfl)
    · split
      · exact .of_ports rfl
      · split
        · exact .of_ports rfl
        · refine FeedKept.trans ?_ (outqSweep_feed _)
          exact ⟨(gap s _).feed⟩

theorem owedTrains_feed (s : State) : FeedKept s (owedTrains s) := by
  refine .foldl (fun s p => ?_) _ s
  split
  · exact (FeedKept.modPort s p (fun x => { x with trainOwed := false }) fun _ => rfl).trans (useTrain_feed _ p false)
  · exact .refl s

/-- The end of a command takes no feed. -/
theorem settle_feed (s t : State) : FeedKept t (settle s t) := by
  have h := (owedTrains_feed t).trans ((outqSweep_feed _).trans (flushTrace_feed _))
  unfold settle
  generalize flushTrace (outqSweep (owedTrains t)) = u at h
  dsimp only
  rw [transmit_line _ { u with out := _ }]
  exact h.trans (.of_ports rfl)

theorem ordinary_feed (f : State → State) {s t : State} (run : ordinary f s = .next t)
    (pos : (f s).on F.CL_MYPOS_VALID = true → s.on F.CL_MYPOS_VALID = true) : FeedKept (f s) t := by
  simp only [ordinary, Host.Outcome.next.injEq] at run
  subst run
  rw [placed_eq s (f s) pos]
  exact (settle_feed s (f s)).trans (.of_ports rfl)

/-! What a write of a field of each lane of a port leaves on them. -/

/-- A field of LANE_STAT of a list of lanes, written one after another. -/
theorem lanesFold_rd (j v : Nat) (hj : j < 32) (l : List Nat) (s : State) {n : Nat} (h : n ∈ l) :
    (l.foldl (fun s n => s.wr ⟨R.LANE_STAT n, j, 1⟩ v) s).rd ⟨R.LANE_STAT n, j, 1⟩ = v % 2 := by
  have same : ∀ s : State, (s.wr ⟨R.LANE_STAT n, j, 1⟩ v).rd ⟨R.LANE_STAT n, j, 1⟩ = v % 2 := fun s => s.rd_wr_same _ v hj
  have stays : ∀ (l : List Nat) (s : State), s.rd ⟨R.LANE_STAT n, j, 1⟩ = v % 2 →
      (l.foldl (fun s n => s.wr ⟨R.LANE_STAT n, j, 1⟩ v) s).rd ⟨R.LANE_STAT n, j, 1⟩ = v % 2 := by
    intro l
    induction l with
    | nil => exact fun _ h => h
    | cons m r ih =>
      intro s h
      refine ih _ ?_
      dsimp only
      by_cases e : R.LANE_STAT n = R.LANE_STAT m
      · rw [← e]
        exact same s
      · rw [s.rd_wr_ne _ _ v e, h]
  induction l generalizing s with
  | nil => exact absurd h List.not_mem_nil
  | cons m r ih =>
    rcases List.mem_cons.mp h with rfl | rest
    · exact stays r _ (same s)
    · exact ih _ rest

theorem lanesWr_on (s : State) (p j v : Nat) (hj : j < 32) {n : Nat} (h : n ∈ portLanes s p) :
    (lanesWr s p (fun n => ⟨R.LANE_STAT n, j, 1⟩) v).on ⟨R.LANE_STAT n, j, 1⟩ = (v % 2 != 0) := by
  rw [State.on]
  exact congrArg (· != 0) (lanesFold_rd j v hj _ s h)

/-! The commands. -/

theorem exec_alignPairSend (p : Fin 12) (s : State) : exec (.alignPairSend p) s = ordinary (fun s => alignSend s p.val) s := rfl
theorem exec_alignPairRx (p : Fin 12) (paired near : Bool) (pairs : Word) (s : State) :
    exec (.alignPairRx p paired near pairs) s = ordinary (linked fun s => alignRx s p.val (paired && near) pairs.toNat) s := rfl
theorem exec_invalidBlockRx (p : Fin 12) (second : Bool) (header : BitVec 2) (line : BitVec 64) (prev : BitVec 58) (s : State) :
    exec (.invalidBlockRx p second header line prev) s = ordinary (fun s => rawBlock s p.val second header line prev) s := rfl
theorem exec_faultBlockRx (p : Fin 12) (reason : Byte) (pos : BitVec 6) (s : State) :
    exec (.faultBlockRx p reason pos) s = ordinary (fun s => faultRx s p.val reason.toNat pos.toNat) s := rfl
theorem exec_faultFillerSend (p : Fin 12) (s : State) : exec (.faultFillerSend p) s = ordinary (fun s => fillerSend s p.val) s := rfl

/-- A change off CL_MYPOS takes no position. -/
theorem Within.place {W : Nat → Nat → Prop} {s t : State} (h : Within W s t) (off : ∀ i, ¬ W R.CL_MYPOS i) :
    t.on F.CL_MYPOS_VALID = true → s.on F.CL_MYPOS_VALID = true :=
  fun k => (h.on (f := F.CL_MYPOS_VALID) fun i _ _ => off i) ▸ k

/-- A command whose effect is written by bits, and takes no position: it runs and only reports besides. -/
theorem within_runs {W : Nat → Nat → Prop} (f : State → State) (s : State) (h : Within W s (f s))
    (pos : (f s).on F.CL_MYPOS_VALID = true → s.on F.CL_MYPOS_VALID = true) :
    ∃ t, ordinary f s = .next t ∧ Reports (f s) t ∧ (f s).out <+: t.out := by
  obtain ⟨t, run, rep⟩ := ordinary_runs f s h.strap h.pending h.tap (by rw [h.upd]) pos
  exact ⟨t, run, rep, ordinary_out f s t run pos⟩

/-- More is sent and nothing else happens. -/
theorem sent_reports (s : State) (l : List Output) : Reports s { s with out := s.out ++ l } := by constructor <;> (intros; rfl)

/-! ALIGN pairs. -/

/-- An ALIGN pair leaves the port with its count. -/
def alignSent (s : State) (p : Nat) : State :=
  { (s.modPort p fun x => { x with alignCount := (x.alignCount + 1) % 2 ^ 32 }) with out := s.out ++ [.align p (s.port p).alignCount] }

theorem alignSent_reports (s : State) (p : Nat) : Reports (s.modPort p fun x => { x with alignCount := (x.alignCount + 1) % 2 ^ 32 }) (alignSent s p) := by
  constructor <;> (intros; rfl)

/-- The stream that the port carries is another port's (R36). -/
def carriesOther (s : State) (p : Nat) : Prop := ∃ q, otherPort s p = some q ∧ p ∈ ringPorts s ∧ forwardsTo s q = some p

theorem alignSend_sends {s : State} {p : Nat} (live : s.pst p ≠ 0) (bonded : s.on (F.CL_PCFG_WIDTH2 p) = true)
    (own : ∀ q, otherPort s p = some q → p ∈ ringPorts s → forwardsTo s q ≠ some p) : alignSend s p = alignSent s p := by
  unfold alignSend
  cases other : otherPort s p with
  | none => exact if_pos (by simp [live, bonded])
  | some q =>
    have free : p ∈ ringPorts s → ¬ forwardsTo s q = some p := own q other
    exact if_pos (by simpa [live, bonded, imp_iff_not_or] using free)

theorem alignSend_stays {s : State} {p : Nat} (h : s.pst p = 0 ∨ s.on (F.CL_PCFG_WIDTH2 p) = false ∨ carriesOther s p) : alignSend s p = s := by
  unfold alignSend
  rcases h with off | single | ⟨q, other, ring, carries⟩
  · simp [off]
  · simp [single]
  · simp [other, ring, carries]

theorem alignRx_near {s : State} {p : Nat} (pairs : Nat) (live : judged s p = true) (bonded : s.on (F.CL_PCFG_WIDTH2 p) = true)
    (block : lanesHave s p F.LANE_STAT_BLOCK_LOCK = true) :
    Within moveBits (lanesWr s p F.LANE_STAT_DESKEW_OK 1) (alignRx s p true pairs) ∧
      ∀ q, forwardsTo s p = some q → Output.align q pairs ∈ (alignRx s p true pairs).out := by
  have step : ∀ u, Within moveBits u (if hasBlock u p then blockSettled u p else u) := fun u => .ite (blockSettled_moves u p) (.refl _ u)
  rw [alignRx, if_pos (by simp [live, bonded, block]), if_pos rfl]
  dsimp only
  cases forwardsTo s p with
  | none => exact ⟨step _, fun q h => absurd h (by simp)⟩
  | some q =>
    refine ⟨(sent_within _ _ _).trans (step _), fun r h => (step _).out.subset (List.mem_append_right _ ?_)⟩
    obtain rfl : q = r := Option.some.inj h
    exact List.mem_singleton.mpr rfl

/-- The lanes of a port without deskew and block lock. -/
def lanesDropped (s : State) (p : Nat) : State := lanesWr (lanesWr s p F.LANE_STAT_DESKEW_OK 0) p F.LANE_STAT_BLOCK_LOCK 0

theorem alignRx_far {s : State} {p : Nat} (pairs : Nat) (live : judged s p = true) (bonded : s.on (F.CL_PCFG_WIDTH2 p) = true)
    (block : lanesHave s p F.LANE_STAT_BLOCK_LOCK = true) :
    alignRx s p false pairs = fallBack (raise (lanesDropped s p) (laneSrc (s.rd (F.CL_PCFG_LANE0 p)) 6) []) p 3 := by
  rw [alignRx, if_pos (by simp [live, bonded, block])]
  rfl

/-- LANE_STAT of every lane, but for STABLE. -/
def statBits (a i : Nat) : Prop := a / 65536 = 5 ∧ a % 4096 = 4 ∧ i ≠ 3

theorem statBits_offCfg : OffCfg statBits := fun q i h => by
  simp only [statBits, R.CL_PCFG] at h
  omega

theorem lanesWr_stat (s : State) (p j v : Nat) (h : j ≠ 3) : Within statBits s (lanesWr s p (fun n => ⟨R.LANE_STAT n, j, 1⟩) v) :=
  lanesWr_within s p j v fun n => ⟨(laneStat_addr n).1, (laneStat_addr n).2, h⟩

theorem statBits_pst {s t : State} (h : Within statBits s t) (q : Nat) : t.pst q = s.pst q :=
  h.pst fun i _ h => by
    simp only [statBits, R.CL_PSTAT] at h
    omega

theorem alignRx_access (s : State) (p : Nat) (ok : Bool) (pairs : Nat) : AccessKeeps s (alignRx s p ok pairs) := by
  unfold alignRx
  refine .ite (.ite ?_ ?_) (.refl s)
  · have held := lanesWr_access s p 5 1 1
    dsimp only
    split
    · exact (held.trans (.of_link (out_keeps _ _))).trans (.ite (blockSettled_access _ p) (.refl _))
    · exact held.trans (.ite (blockSettled_access _ p) (.refl _))
  · exact (((lanesWr_access s p 5 1 0).trans (lanesWr_access _ p 2 1 0)).trans (raise_access _ _ _)).trans (fallBack_access _ p 3)

theorem moveBits_lane {n i : Nat} (h : i ≠ 3) : ¬ moveBits (R.LANE_STAT n) i := fun k =>
  afterBits_lane (laneStat_addr n).1 h (.inl k)

theorem lane_of_moves {s t : State} (h : Within moveBits s t) (n j : Nat) (other : j ≠ 3) : t.on ⟨R.LANE_STAT n, j, 1⟩ = s.on ⟨R.LANE_STAT n, j, 1⟩ :=
  h.on_bit (moveBits_lane other)

/-! Invalid blocks, FAULT blocks and the filler. -/

/-- CL_PFAULT of the ports. -/
def faultBits (a _i : Nat) : Prop := R.CL_PCFG 0 ≤ a ∧ a < 0x60400 ∧ a % 64 = 0x1c

theorem pfault_within (s : State) (p lo w k : Nat) : Within faultBits s (s.bump ⟨R.CL_PFAULT p, lo, w⟩ k) := .wr s _ _ fun _ _ _ => by
  simp only [faultBits, R.CL_PFAULT, R.CL_PCFG]
  omega

theorem faultBits_place {s t : State} (h : Within faultBits s t) : t.on F.CL_MYPOS_VALID = true → s.on F.CL_MYPOS_VALID = true :=
  h.place fun i k => absurd k.2.1 (by decide)

theorem invalidBlock_counts {s : State} {p : Nat} (lane : Nat) (badType : Bool) (live : judged s p = true) :
    Reports (s.bump (F.CL_PFAULT_INVALID p) 1) (invalidBlock s p lane badType) ∧
      (s.bump (F.CL_PFAULT_INVALID p) 1).out <+: (invalidBlock s p lane badType).out ∧
      ∀ q, forwardsTo s p = some q → Output.faultBlock q 1 (ownPos s) ∈ (invalidBlock s p lane badType).out := by
  rw [invalidBlock, if_pos live]
  dsimp only
  generalize s.bump (F.CL_PFAULT_INVALID p) 1 = u
  have told : Reports u (if badType then raise u (laneSrc lane 5) [] else u) ∧ u.out <+: (if badType then raise u (laneSrc lane 5) [] else u).out := by
    split
    · exact ⟨raise_reports _ _ _, raise_out _ _ _⟩
    · exact ⟨.refl _, List.prefix_rfl⟩
  cases forwardsTo s p with
  | none => exact ⟨told.1, told.2, fun q h => absurd h (by simp)⟩
  | some q =>
    refine ⟨told.1.trans (sent_reports _ _), told.2.trans (List.prefix_append _ _), fun r h => List.mem_append_right _ ?_⟩
    obtain rfl : q = r := Option.some.inj h
    exact List.mem_singleton.mpr rfl

theorem invalidBlock_deaf {s : State} {p : Nat} (lane : Nat) (badType : Bool) (deaf : judged s p = false) : invalidBlock s p lane badType = s :=
  if_neg (by simp [deaf])

/-- A block judged on the lane it came in on. -/
theorem rawBlock_eq {s : State} {p n : Nat} {second : Bool} (lane : n = (portLanes s p).getD (b2n second) (s.rd (F.CL_PCFG_LANE0 p)))
    (h : BitVec 2) (l : BitVec 64) (prev : BitVec 58) : rawBlock s p second h l prev =
      if (rxBlock s n h l prev).kind.isSome then s else invalidBlock s p n ((rxBlock s n h l prev).header == 2#2) := by
  rw [lane]
  rfl

/-- A FAULT block counted and told. -/
def faultTold (s : State) (p reason : Nat) : State :=
  raise (s.bump (F.CL_PFAULT_FAULT_RX p) 1) 183 (d2 p (if 1 ≤ reason && reason ≤ 3 then reason else 1))

/-- A FAULT block counted, told and passed on. -/
def faultPassed (s : State) (p reason pos : Nat) : State :=
  match forwardsTo s p with
  | some q => { faultTold s p reason with out := (faultTold s p reason).out ++ [.faultBlock q reason pos] }
  | none => faultTold s p reason

theorem faultRx_up {s : State} {p : Nat} (reason pos : Nat) (up : s.isUp p = true) : faultRx s p reason pos =
    if reason = 2 && (ringPorts s).contains p && !((s.port p).feedLost) then
      raise ((faultPassed s p reason pos).modPort p fun x => { x with feedLost := true }) 194 (d2 (s.rd (F.CL_PSTAT_DIR_RX p)) 0)
    else faultPassed s p reason pos := by
  rw [faultRx, if_pos up]
  rfl

theorem faultPassed_within (s : State) (p reason pos : Nat) (W : Nat → Nat → Prop) :
    Within W (s.bump (F.CL_PFAULT_FAULT_RX p) 1) (faultPassed s p reason pos) := by
  unfold faultPassed
  split
  · exact (raise_within _ _ _ _).trans (sent_within _ (faultTold s p reason) _)
  · exact raise_within _ _ _ _

theorem faultRx_within {s : State} {p : Nat} (reason pos : Nat) (up : s.isUp p = true) (W : Nat → Nat → Prop) :
    Within W (faultPassed s p reason pos) (faultRx s p reason pos) := by
  rw [faultRx_up reason pos up]
  exact .ite ((modPort_within _ _ p _).trans (raise_within _ _ _ _)) (.refl _ _)

theorem faultPassed_sends {s : State} {p : Nat} (reason pos : Nat) {q : Nat} (h : forwardsTo s p = some q) :
    Output.faultBlock q reason pos ∈ (faultPassed s p reason pos).out := by
  simp only [faultPassed, h]
  exact List.mem_append_right _ (List.mem_singleton.mpr rfl)

theorem faultPassed_ports (s : State) (p reason pos : Nat) : (faultPassed s p reason pos).ports = s.ports := by
  have told : (faultTold s p reason).ports = s.ports := by rw [faultTold, raise_ports, State.bump_ports]
  unfold faultPassed
  split
  · dsimp only
    exact told
  · exact told

theorem faultRx_feed {s : State} {p : Nat} (pos : Nat) (up : s.isUp p = true) (ring : p ∈ ringPorts s) : ((faultRx s p 2 pos).port p).feedLost = true := by
  rw [faultRx_up 2 pos up]
  split
  · rw [State.port, raise_ports, State.modPort, State.setPort, Table.get_set_same]
  · rename_i h
    have same : (faultPassed s p 2 pos).port p = s.port p := by rw [State.port, faultPassed_ports, State.port]
    rw [same]
    simpa [ring] using h

/-- The filler's block goes out first. -/
def fillerSent (s : State) (p : Nat) : State := { s with out := s.out ++ [.faultBlock p 2 (ownPos s)] }

theorem fillerSend_sends {s : State} {p : Nat} (fills : (s.port p).filler = true) (live : s.isUp p = true ∨ s.pst p = 7) :
    fillerSend s p = match otherPort s p with | some q => useTrain (fillerSent s p) q false | none => fillerSent s p := by
  have on : ((s.port p).filler && (s.isUp p || s.pst p == 7)) = true := by
    rcases live with up | settle
    · simp [fills, up]
    · simp [fills, settle]
  rw [fillerSend, if_pos on]
  rfl

/-- A train writes no register: seen from a device that owes one, it only reports. -/
theorem useTrain_within (W : Nat → Nat → Prop) (s : State) (q : Nat) : Within W s (useTrain s q false) := by
  have owes : ¬ NoTrain (s.modPort 0 fun x => { x with trainOwed := true }) := fun none => by
    have owed : ((s.modPort 0 fun x => { x with trainOwed := true }).port 0).trainOwed = true := by
      rw [State.port, State.modPort, State.setPort, Table.get_set_same]
    exact absurd ((none 0).symm.trans owed) (by decide)
  have seen : Reports (s.modPort 0 fun x => { x with trainOwed := true }) s := by
    constructor <;> first | exact fun k => absurd k owes | rfl
  exact (modPort_within W s 0 _).trans (.of_reports (useTrain_reports _ s q false seen owes) (useTrain_out s q false))

theorem fillerSend_within {s : State} {p : Nat} (fills : (s.port p).filler = true) (live : s.isUp p = true ∨ s.pst p = 7) (W : Nat → Nat → Prop) :
    Within W (fillerSent s p) (fillerSend s p) := by
  rw [fillerSend_sends fills live]
  cases otherPort s p with
  | none => exact .refl W _
  | some q => exact useTrain_within W (fillerSent s p) q

/-! The clauses. -/

/-- ALIGN_PAIR_SEND. -/
theorem alignPairSend_clause (p : Fin 12) (s : State) :
    (s.pst p.val ≠ 0 → s.on (F.CL_PCFG_WIDTH2 p.val) = true →
      (∀ q, otherPort s p.val = some q → p.val ∈ ringPorts s → forwardsTo s q ≠ some p.val) →
      Runs (.alignPairSend p) s fun t => Sends s t [.align p.val (s.port p.val).alignCount] ∧
        Reports (s.modPort p.val fun x => { x with alignCount := (x.alignCount + 1) % 2 ^ 32 }) t) ∧
    (s.pst p.val = 0 ∨ s.on (F.CL_PCFG_WIDTH2 p.val) = false ∨
        (∃ q, otherPort s p.val = some q ∧ p.val ∈ ringPorts s ∧ forwardsTo s q = some p.val) →
      Runs (.alignPairSend p) s (Reports s)) := by
  refine ⟨fun live bonded own => ?_, fun h => ordinary_idle (fun s => alignSend s p.val) s (alignSend_stays h)⟩
  have effect := alignSend_sends live bonded own
  have within : Within (fun _ _ => False) s (alignSent s p.val) := (modPort_within _ s p.val _).trans (sent_within _ _ _)
  obtain ⟨t, run, rep, ⟨r, sent⟩⟩ := within_runs (fun s => alignSend s p.val) s (effect ▸ within) (effect ▸ within.place fun _ => id)
  rw [effect] at rep sent
  exact ⟨t, run, ⟨r, sent.symm⟩, (alignSent_reports s p.val).trans rep⟩

/-- ALIGN_PAIR_RX. -/
theorem alignPairRx_clause (p : Fin 12) (paired near : Bool) (pairs : Word) (s : State) (live : judged s p.val = true)
    (bonded : s.on (F.CL_PCFG_WIDTH2 p.val) = true) (block : lanesHave s p.val F.LANE_STAT_BLOCK_LOCK = true) :
    ((paired && near) = true → Runs (.alignPairRx p paired near pairs) s fun t => (∀ n ∈ portLanes s p.val, t.on (F.LANE_STAT_DESKEW_OK n) = true) ∧
      ∀ q, forwardsTo s p.val = some q → Output.align q pairs.toNat ∈ t.out) ∧
    ((paired && near) = false → Runs (.alignPairRx p paired near pairs) s fun t => t.pst p.val = min (s.pst p.val) 3 ∧
      ∀ n ∈ portLanes s p.val, t.on (F.LANE_STAT_DESKEW_OK n) = false ∧ t.on (F.LANE_STAT_BLOCK_LOCK n) = false) := by
  have place := fun ok => (alignRx_access s p.val ok pairs.toNat).pos
  constructor <;> intro ok
  · obtain ⟨moves, sends⟩ := alignRx_near pairs.toNat live bonded block
    have deskew : Within statBits s (lanesWr s p.val F.LANE_STAT_DESKEW_OK 1) := lanesWr_stat s p.val 5 1 (by decide)
    have within : Within (fun a i => statBits a i ∨ moveBits a i) s (alignRx s p.val true pairs.toNat) :=
      (deskew.mono fun _ _ => .inl).trans (moves.mono fun _ _ => .inr)
    obtain ⟨t, run, link⟩ := linked_runs (fun s => alignRx s p.val true pairs.toNat) s within (place true)
    refine ⟨t, by rw [exec_alignPairRx, ok]; exact run, fun n mem => ?_, fun q h => link.out.subset (sends q h)⟩
    exact ((lane_of_link link n 5).trans (lane_of_moves moves n 5 (by decide))).trans (lanesWr_on s p.val 5 1 (by decide) mem)
  · have first : Within statBits s (lanesWr s p.val F.LANE_STAT_DESKEW_OK 0) := lanesWr_stat s p.val 5 0 (by decide)
    have second : Within statBits _ (lanesDropped s p.val) := lanesWr_stat (lanesWr s p.val F.LANE_STAT_DESKEW_OK 0) p.val 2 0 (by decide)
    have told : Within statBits s (raise (lanesDropped s p.val) (laneSrc (s.rd (F.CL_PCFG_LANE0 p.val)) 6) []) :=
      (first.trans second).trans (raise_within _ _ _ _)
    have effect := alignRx_far pairs.toNat live bonded block
    have moves := fallBack_moves (raise (lanesDropped s p.val) (laneSrc (s.rd (F.CL_PCFG_LANE0 p.val)) 6) []) p.val 3
    have within : Within (fun a i => statBits a i ∨ moveBits a i) s (alignRx s p.val false pairs.toNat) :=
      effect ▸ (told.mono fun _ _ => .inl).trans (moves.mono fun _ _ => .inr)
    obtain ⟨t, run, link⟩ := linked_runs (fun s => alignRx s p.val false pairs.toNat) s within (place false)
    rw [effect] at link
    have awake : s.pst p.val ≠ 7 := by
      simp only [judged, Bool.and_eq_true, bne_iff_ne] at live
      exact live.2
    have same := statBits_pst told p.val
    refine ⟨t, by rw [exec_alignPairRx, ok]; exact run, ?_, fun n mem => ⟨?_, ?_⟩⟩
    · rw [pst_of_link link, fallBack_pst _ p.val (by decide) (by decide) (by rwa [same]), same]
    · refine (lane_of_link link n 5).trans ((lane_of_moves moves n 5 (by decide)).trans ?_)
      rw [(raise_within (fun _ _ => False) _ _ _).on fun _ _ _ => id]
      have kept : (lanesDropped s p.val).on (F.LANE_STAT_DESKEW_OK n) = (lanesWr s p.val F.LANE_STAT_DESKEW_OK 0).on (F.LANE_STAT_DESKEW_OK n) :=
        Within.on_bit (W := fun _ i => i = 2) (lanesWr_within _ p.val 2 0 fun _ => rfl) (by decide)
      exact kept.trans (lanesWr_on s p.val 5 0 (by decide) mem)
    · refine (lane_of_link link n 2).trans ((lane_of_moves moves n 2 (by decide)).trans ?_)
      rw [(raise_within (fun _ _ => False) _ _ _).on fun _ _ _ => id]
      exact lanesWr_on _ p.val 2 0 (by decide) (by rwa [first.portLanes statBits_offCfg])

/-- INVALID_BLOCK_RX. -/
theorem invalidBlockRx_clause (p : Fin 12) (second : Bool) (h : BitVec 2) (l : BitVec 64) (prev : BitVec 58) (n : Nat) (s : State)
    (lane : n = (portLanes s p.val).getD (b2n second) (s.rd (F.CL_PCFG_LANE0 p.val))) :
    ((rxBlock s n h l prev).kind = none → judged s p.val = true → Runs (.invalidBlockRx p second h l prev) s fun t =>
      Reports (s.bump (F.CL_PFAULT_INVALID p.val) 1) t ∧ ∀ q, forwardsTo s p.val = some q → Output.faultBlock q 1 (ownPos s) ∈ t.out) ∧
    ((rxBlock s n h l prev).kind ≠ none ∨ judged s p.val = false → Runs (.invalidBlockRx p second h l prev) s (Reports s)) := by
  have judge := rawBlock_eq lane h l prev
  constructor
  · intro invalid live
    obtain ⟨rep, grown, sends⟩ := invalidBlock_counts n ((rxBlock s n h l prev).header == 2#2) live
    have effect : rawBlock s p.val second h l prev = invalidBlock s p.val n ((rxBlock s n h l prev).header == 2#2) :=
      judge.trans (if_neg (by simp [invalid]))
    have within := (pfault_within s p.val 16 16 1).trans (.of_reports rep grown)
    obtain ⟨t, run, rest, out⟩ := within_runs (fun s => rawBlock s p.val second h l prev) s (effect ▸ within) (effect ▸ faultBits_place within)
    rw [effect] at rest out
    exact ⟨t, run, rep.trans rest, fun q forwards => out.subset (sends q forwards)⟩
  · intro still
    refine ordinary_idle (fun s => rawBlock s p.val second h l prev) s (judge.trans ?_)
    rcases still with valid | deaf
    · exact if_pos (Option.isSome_iff_ne_none.mpr valid)
    · rw [invalidBlock_deaf _ _ deaf, ite_self]

/-- FAULT_BLOCK_RX. -/
theorem faultBlockRx_clause (p : Fin 12) (reason : Byte) (pos : BitVec 6) (s : State) :
    (s.isUp p.val = true → Runs (.faultBlockRx p reason pos) s fun t =>
      t.rd (F.CL_PFAULT_FAULT_RX p.val) = satAdd (F.CL_PFAULT_FAULT_RX p.val).w (s.rd (F.CL_PFAULT_FAULT_RX p.val)) 1 ∧
      (∀ q, forwardsTo s p.val = some q → Output.faultBlock q reason.toNat pos.toNat ∈ t.out) ∧
      (reason = 2#8 → p.val ∈ ringPorts s → (t.port p.val).feedLost = true) ∧
      ∀ q : Fin 12, t.pst q.val = s.pst q.val) ∧
    (s.isUp p.val = false → Runs (.faultBlockRx p reason pos) s (Reports s)) := by
  constructor
  · intro up
    have passed := faultPassed_within s p.val reason.toNat pos.toNat faultBits
    have told := faultRx_within reason.toNat pos.toNat up faultBits
    have within := ((pfault_within s p.val 0 16 1).trans passed).trans told
    have place := faultBits_place within
    obtain ⟨t, run, rep, out⟩ := within_runs (fun s => faultRx s p.val reason.toNat pos.toNat) s within place
    have all : Within (fun _ _ => False) (s.bump (F.CL_PFAULT_FAULT_RX p.val) 1) t :=
      ((faultPassed_within s p.val _ _ _).trans (faultRx_within _ _ up _)).trans (.of_reports rep out)
    refine ⟨t, run, ?_, fun q forwards => ?_, fun two ring => ?_, fun q => ?_⟩
    · rw [all.rd fun _ _ _ => id, bump_rd _ _ _ (by simp)]
    · exact out.subset (told.out.subset (faultPassed_sends _ _ forwards))
    · rw [(ordinary_feed _ run place).feed, two]
      exact faultRx_feed pos.toNat up ring
    · refine (within.trans (.of_reports rep out)).pst fun i _ k => ?_
      simp only [faultBits, R.CL_PSTAT, R.CL_PCFG] at k
      omega
  · exact fun down => ordinary_idle (fun s => faultRx s p.val reason.toNat pos.toNat) s (if_neg (by simp [down]))

/-- FAULT_FILLER_SEND. -/
theorem faultFillerSend_clause (p : Fin 12) (s : State) :
    ((s.port p.val).filler = true → (s.isUp p.val = true ∨ s.pst p.val = 7) →
      Runs (.faultFillerSend p) s fun t => Sends s t [.faultBlock p.val 2 (ownPos s)]) ∧
    ((s.port p.val).filler = false → Runs (.faultFillerSend p) s (Reports s)) := by
  refine ⟨fun fills live => ?_, fun idle => ordinary_idle (fun s => fillerSend s p.val) s (if_neg (by simp [idle]))⟩
  have sent := fillerSend_within fills live fun _ _ => False
  have within := (sent_within (fun _ _ => False) s _).trans sent
  obtain ⟨t, run, -, out⟩ := within_runs (fun s => fillerSend s p.val) s within (within.place fun _ => id)
  obtain ⟨r, out⟩ := sent.out.trans out
  exact ⟨t, run, r, out.symm⟩

/-- Settles O25, one clause for each command of the statement. -/
theorem alignFaultAndFillerBlocks : Obligations.AlignFaultAndFillerBlocks := by
  refine ⟨descramble_scramble, fun j k l => ?_, alignPairSend_clause, alignPairRx_clause, invalidBlockRx_clause,
    faultBlockRx_clause, faultFillerSend_clause⟩
  exact descramble_agree l (m := 0) (by decide) fun i hi => absurd hi (Nat.not_lt_zero i)

end Sys2Proof.Machine
end

section
/-! PROOF. The events of lanes and ports stay in their chapter (O20; R43, R44, R46, R47, R56, R62, R358): every step of them writes registers of the lanes
and of what hangs on the link, and `clkUpdate` alone touches the core's source; a second `clkUpdate` in one command finds the reference settled. -/
namespace Sys2Proof.Machine

/-! The lane PLL's reference is settled after `clkUpdate`. -/

/-- The choice of R54 among the ring ports with CDR lock: the one that receives eastbound, else the present one, else the first, else none. -/
def pickRef (locked : List (Nat × Nat)) (east : Nat × Nat → Bool) (alone cur : Nat) : Nat :=
  match locked.find? east with
  | some e => e.2
  | none => if locked.any (fun e => e.2 == cur) then cur else match locked with | e :: _ => e.2 | [] => alone

/-- The ring ports with CDR lock, and the reference that each gives. -/
def refLocked (s : State) : List (Nat × Nat) := ((ringPorts s).zip [1, 2]).filter fun e => lanesHave s e.1 F.LANE_STAT_CDR_LOCK

/-- The port receives the eastbound stream. -/
def refEast (s : State) (e : Nat × Nat) : Bool := s.rd (F.CL_PSTAT_DIR_RX e.1) == 1

/-- The reference without a locked port. -/
def refAlone (s : State) : Nat := if s.isSender && s.on F.CKG_STAT_XO_OK then 3 else 0

theorem pllRef_eq (s : State) : pllRef s = pickRef (refLocked s) (refEast s) (refAlone s) (s.rd F.CL_CLKSRC_REF) := rfl

/-- Choosing again from the choice changes nothing. -/
theorem pickRef_again (locked : List (Nat × Nat)) (east : Nat × Nat → Bool) (alone cur : Nat) :
    pickRef locked east alone (pickRef locked east alone cur) = pickRef locked east alone cur := by
  cases found : locked.find? east with
  | some e => simp [pickRef, found]
  | none =>
    by_cases held : locked.any (fun e => e.2 == cur) = true
    · simp [pickRef, found, held]
    · cases locked with
      | nil => simp [pickRef]
      | cons e r => simp [pickRef, found, held]

theorem pickRef_lt {locked : List (Nat × Nat)} (east : Nat × Nat → Bool) {alone cur : Nat} (h : ∀ e ∈ locked, e.2 < 4) (ha : alone < 4) (hc : cur < 4) :
    pickRef locked east alone cur < 4 := by
  unfold pickRef
  split
  · rename_i e found
    exact h e (List.mem_of_find?_eq_some found)
  · split
    · exact hc
    · split
      · exact h _ List.mem_cons_self
      · exact ha

theorem pllRef_lt (s : State) : pllRef s < 4 := by
  rw [pllRef_eq]
  refine pickRef_lt _ (fun e mem => ?_) ?_ (Nat.mod_lt _ (by decide))
  · have ref := (List.of_mem_zip (List.mem_filter.mp mem).1).2
    simp only [List.mem_cons, List.not_mem_nil, or_false] at ref
    omega
  · unfold refAlone
    split <;> decide

/-- CL_PSTAT.STATE and CL_PDELAY: what a port writes that comes UP. -/
def upBits (a i : Nat) : Prop := R.CL_PCFG 0 ≤ a ∧ a < 0x60400 ∧ (a % 64 = 4 ∧ i < 3 ∨ a % 64 = 16)

/-- The bits that the choice does not read, but for the reference itself. -/
def refBits (a i : Nat) : Prop := upBits a i ∨ clkBits a i

theorem refBits_offCfg : OffCfg refBits := fun q i h => by
  simp only [refBits, upBits, clkBits, R.CL_PCFG, R.CL_CLKSRC, R.WT_FSTAT, R.CKG_STAT] at h
  omega

theorem ref_args {s t : State} (h : Within refBits s t) : refLocked t = refLocked s ∧ refEast t = refEast s ∧ refAlone t = refAlone s := by
  have lock : ∀ n, t.on (F.LANE_STAT_CDR_LOCK n) = s.on (F.LANE_STAT_CDR_LOCK n) := fun n => h.on fun i _ _ k => by
    simp only [refBits, upBits, clkBits, R.LANE_STAT, R.CL_PCFG, R.CL_CLKSRC, R.WT_FSTAT, R.CKG_STAT] at k
    omega
  have dir : ∀ p, t.rd (F.CL_PSTAT_DIR_RX p) = s.rd (F.CL_PSTAT_DIR_RX p) := fun p => h.rd fun i low _ k => by
    simp only [refBits, upBits, clkBits, R.CL_PSTAT, R.CL_PCFG, R.CL_CLKSRC, R.WT_FSTAT, R.CKG_STAT] at k
    have three : 3 ≤ i := low
    omega
  have xo : t.on F.CKG_STAT_XO_OK = s.on F.CKG_STAT_XO_OK := h.on_bit fun k => by
    simp only [refBits, upBits, clkBits, R.CKG_STAT, R.CL_PCFG, R.CL_CLKSRC, R.WT_FSTAT] at k
    omega
  refine ⟨?_, ?_, ?_⟩
  · simp only [refLocked, h.ringPorts refBits_offCfg, lanesHave, h.portLanes refBits_offCfg, lock]
  · funext e
    simp only [refEast, dir]
  · have sender : t.isSender = s.isSender := by rw [State.isSender, h.strap, State.isSender]
    rw [refAlone, sender, xo, refAlone]

theorem followDir_ref (s : State) : (followDir s).rd F.CL_CLKSRC_REF = s.rd F.CL_CLKSRC_REF :=
  (followDir_dir s).rd fun _ _ _ h => absurd h.1 (by decide)

theorem followDir_core (s : State) : (followDir s).reg R.CKG_STAT = s.reg R.CKG_STAT :=
  (followDir_dir s).reg fun _ h => absurd h.1 (by decide)

/-- CKG_STAT as it was, or with the core on Reed and no reference for the lane PLL. -/
def CoreKept (s t : State) : Prop :=
  t.reg R.CKG_STAT = s.reg R.CKG_STAT ∨ t.reg R.CKG_STAT = setBits (s.reg R.CKG_STAT) 8 2 0 ∧ t.rd F.CL_CLKSRC_REF = 0

theorem coreFollow_ref (s : State) : (coreFollow s).rd F.CL_CLKSRC_REF = s.rd F.CL_CLKSRC_REF := by
  unfold coreFollow
  split
  · exact s.rd_wr_ne F.CKG_STAT_CORE_SRC F.CL_CLKSRC_REF 0 (by decide)
  · rfl

theorem coreFollow_core (s : State) : CoreKept s (coreFollow s) := by
  by_cases h : (s.rd F.CL_CLKSRC_REF = 0 && s.sys.pllSrc.get 3 0 == 2) = true
  · refine .inr ⟨?_, ?_⟩
    · rw [coreFollow, if_pos h]
      exact (s.reg_setReg_same R.CKG_STAT _).trans (Nat.mod_eq_of_lt (setBits_lt (s.reg_lt _) (by decide)))
    · simp only [Bool.and_eq_true, decide_eq_true_eq] at h
      rw [coreFollow_ref, h.1]
  · exact .inl (by rw [coreFollow, if_neg h])

/-- The reference chosen and told, before the core and the follower take it. -/
def refMoved (s : State) : State := raise (s.wr F.CL_CLKSRC_REF (pllRef s)) 181 (d2 (pllRef s) 0)

theorem clkUpdate_same {s : State} (h : pllRef s = s.rd F.CL_CLKSRC_REF) : clkUpdate s = followDir s := if_pos h

theorem clkUpdate_moves {s : State} (h : pllRef s ≠ s.rd F.CL_CLKSRC_REF) : clkUpdate s = followDir (coreFollow (refMoved s)) := if_neg h

theorem refMoved_ref (s : State) : (refMoved s).rd F.CL_CLKSRC_REF = pllRef s := by
  rw [refMoved, (raise_within (fun _ _ => False) _ _ _).rd fun _ _ _ => id, State.rd_wr_same _ _ _ (by decide)]
  exact Nat.mod_eq_of_lt (pllRef_lt s)

theorem refMoved_core (s : State) : (refMoved s).reg R.CKG_STAT = s.reg R.CKG_STAT := by
  rw [refMoved, (raise_within (fun _ _ => False) _ _ _).reg fun _ => id, State.reg_wr_ne _ _ _ (by decide)]

theorem clkUpdate_ref (s : State) : (clkUpdate s).rd F.CL_CLKSRC_REF = pllRef s := by
  by_cases h : pllRef s = s.rd F.CL_CLKSRC_REF
  · rw [clkUpdate_same h, followDir_ref, h]
  · rw [clkUpdate_moves h, followDir_ref, coreFollow_ref, refMoved_ref]

theorem clkUpdate_core (s : State) : CoreKept s (clkUpdate s) := by
  by_cases h : pllRef s = s.rd F.CL_CLKSRC_REF
  · exact .inl (by rw [clkUpdate_same h, followDir_core])
  · rw [clkUpdate_moves h, CoreKept, followDir_core, followDir_ref, ← refMoved_core s]
    exact coreFollow_core (refMoved s)

/-- After `clkUpdate`, and a port that comes UP, the choice is the reference. -/
theorem clkUpdate_settled {s t : State} (h : Within upBits (clkUpdate s) t) : pllRef t = t.rd F.CL_CLKSRC_REF := by
  have all : Within refBits s t := ((clkUpdate_within s).mono fun _ _ => .inr).trans (h.mono fun _ _ => .inl)
  have ref : t.rd F.CL_CLKSRC_REF = pllRef s := by
    rw [h.rd, clkUpdate_ref]
    intro i _ _ k
    simp only [upBits, R.CL_CLKSRC, R.CL_PCFG] at k
    omega
  obtain ⟨locked, east, alone⟩ := ref_args all
  rw [pllRef_eq, locked, east, alone, ref, pllRef_eq s, pickRef_again]

/-! A step of the lanes chapter. -/

/-- The blocks of the lanes and of what hangs on the link. -/
def laneBlock (a : Nat) : Prop := 3 ≤ a / 65536 ∧ a / 65536 ≤ 10 ∨ a / 65536 = 14 ∨ a / 65536 = 15

/-- Those blocks, but for the lane PLL's reference. -/
def portBits (a _i : Nat) : Prop := laneBlock a ∧ a ≠ R.CL_CLKSRC

/-- Those blocks and CKG_STAT. -/
def stepBits (a _i : Nat) : Prop := laneBlock a ∨ a = R.CKG_STAT

/-- A step writes those blocks, and CKG_STAT by the exception alone. -/
structure LaneStep (s t : State) : Prop where
  within : Within stepBits s t
  core : CoreKept s t

section
variable {s t u : State}

theorem Within.core (h : Within portBits s t) : t.reg R.CKG_STAT = s.reg R.CKG_STAT := h.reg fun _ k => by
  simp only [portBits, laneBlock, R.CKG_STAT] at k
  omega

theorem Within.ref (h : Within portBits s t) : t.rd F.CL_CLKSRC_REF = s.rd F.CL_CLKSRC_REF := h.rd fun _ _ _ k => k.2 rfl

theorem Within.step (h : Within portBits s t) : Within stepBits s t := h.mono fun _ _ k => .inl k.1

theorem LaneStep.of_port (h : Within portBits s t) : LaneStep s t := ⟨h.step, .inl h.core⟩

theorem LaneStep.after (h : LaneStep s t) (g : Within portBits t u) : LaneStep s u := by
  refine ⟨h.within.trans g.step, ?_⟩
  rw [CoreKept, g.core, g.ref]
  exact h.core

theorem LaneStep.before (g : Within portBits s t) (h : LaneStep t u) : LaneStep s u := by
  refine ⟨g.step.trans h.within, ?_⟩
  rw [CoreKept, ← g.core]
  exact h.core

theorem LaneStep.ite {c : Prop} [Decidable c] (ht : LaneStep s t) (hu : LaneStep s u) : LaneStep s (if c then t else u) := by
  split
  · exact ht
  · exact hu

theorem LaneStep.of_eq (h : t = s) : LaneStep s t := .of_port (.of_eq h)

end

theorem clkUpdate_step (s : State) : LaneStep s (clkUpdate s) :=
  ⟨(clkUpdate_within s).mono fun a i h => by simp only [clkBits, stepBits, laneBlock, R.CL_CLKSRC, R.WT_FSTAT, R.CKG_STAT] at *; omega, clkUpdate_core s⟩

theorem portBits_of_move {a i : Nat} (h : moveBits a i) : portBits a i := by
  simp only [moveBits, fallBits, bypBits, portBits, laneBlock, R.CL_PCFG, R.CL_MYPOS, R.CL_BYP, R.CL_CLKSRC] at *
  omega

theorem Within.port_of_moves {s t : State} (h : Within moveBits s t) : Within portBits s t := h.mono fun _ _ => portBits_of_move

theorem portBits_of_link {a i : Nat} (h : linkBlock a) : portBits a i := by
  simp only [linkBlock, portBits, laneBlock, R.WT_PAIR, R.CL_CLKSRC] at *
  omega

/-- A register of the ports' part of CL. -/
theorem portBits_of_cl {a i : Nat} (low : R.CL_PCFG 0 ≤ a) (high : a < 0x70000) : portBits a i := by
  simp only [portBits, laneBlock, R.CL_PCFG, R.CL_CLKSRC] at *
  omega

theorem portBits_of_lane {a i : Nat} (h : a / 65536 = 5) : portBits a i := by
  simp only [portBits, laneBlock, R.CL_CLKSRC] at *
  omega

theorem wr_port (s : State) (f : FRef) (v : Nat) (low : R.CL_PCFG 0 ≤ f.addr) (high : f.addr < 0x70000) : Within portBits s (s.wr f v) :=
  .wr s f v fun _ _ _ => portBits_of_cl low high

theorem pstat_port (s : State) (p lo w v : Nat) : Within portBits s (s.wr ⟨R.CL_PSTAT p, lo, w⟩ v) :=
  wr_port s _ v (by simp only [R.CL_PSTAT, R.CL_PCFG]; omega) (by simp only [R.CL_PSTAT]; omega)

theorem lanesWr_port (s : State) (p j v : Nat) : Within portBits s (lanesWr s p (fun n => ⟨R.LANE_STAT n, j, 1⟩) v) :=
  lanesWr_within s p j v fun n => portBits_of_lane (laneStat_addr n).1

theorem setPst_port (s : State) (p v : Nat) : Within portBits s (s.setPst p v) := (setPst_moves s p v).port_of_moves

/-! What each command does. -/

theorem signalDetect_port (s : State) (p : Nat) : Within portBits s (signalDetect s p) := by
  have lit := lanesWr_port s p 0 1
  exact .ite (.ite (lit.trans (setPst_port _ p 2)) lit) (.refl _ s)

theorem cdrLock_step (s : State) (p : Nat) : LaneStep s (cdrLock s p) := by
  have locked := lanesWr_port s p 1 1
  have up := locked.trans (setPst_port _ p 3)
  exact .ite (.before (.ite (.ite (up.trans (blockSettled_moves _ p).port_of_moves) up) locked) (clkUpdate_step _)) (.of_eq rfl)

theorem blockLock_port (s : State) (p : Nat) (deskew : Bool) : Within portBits s (blockLock s p deskew) := by
  have locked := lanesWr_port s p 2 1
  exact .ite (Within.trans (.ite (locked.trans (lanesWr_port _ p 5 1)) locked) (blockSettled_moves _ p).port_of_moves) (.refl _ s)

theorem stepTimeout_port (s : State) (p : Nat) : Within portBits s (stepTimeout s p) :=
  .ite (leaveTo_moves s p 1).port_of_moves (.ite (leaveTo_moves s p 2).port_of_moves (.refl _ s))

theorem stableTime_port (s : State) (p : Nat) : Within portBits s (stableTime s p) :=
  .ite ((((setPst_port s p 5).trans (lanesWr_port _ p 3 1)).trans (modPort_within _ _ p _)).trans (.foldl (fun s _ => raise_within _ s _ _) _ _)) (.refl _ s)

theorem trainTimeout_port (s : State) (p : Nat) : Within portBits s (trainTimeout s p) :=
  .ite ((leaveTo_moves s p 1).port_of_moves.trans (raise_within _ _ 179 _)) (.refl _ s)

/-- The port UP with its delay, before the reference is looked at again. -/
def cameUp (s : State) (p : Nat) : State :=
  let s1 := ((s.setPst p 6).wr (F.CL_PDELAY_DELAY p) (toBits (delayPs (portRate s p) (s.port p).samples (s.rdS (F.CL_PASYM_ASYM p))) 32)).modPort p
    fun y => { y with samples := [], echo := [], candidate := none,
                      filler := match otherPort s p with | some q => !(s.isUp q) | none => false, trainK := 0, trainEnd := none }
  let due := if s.portIs p 1 then s.ring.tableDue ++ [s.rd (F.CL_PCFG_RING p)] else s.ring.tableDue
  let s2 := { s1 with ring := { s1.ring with tableDue := due } }
  raise s2 176 (d2 p (s2.rd (F.CL_PSTAT_DIR_RX p)))

theorem tryUp_cases (s : State) (p : Nat) : tryUp s p = s ∨ tryUp s p = clkUpdate (cameUp s p) := by
  unfold tryUp
  dsimp only
  split
  · exact .inr rfl
  · exact .inl rfl

theorem cameUp_within (s : State) (p : Nat) : Within upBits s (cameUp s p) := by
  have state : Within upBits s (s.setPst p 6) := (setPst_within s p 6).mono fun a i ⟨e, low⟩ => by
    simp only [e, upBits, R.CL_PSTAT, R.CL_PCFG]
    omega
  have delay : ∀ v, Within upBits (s.setPst p 6) ((s.setPst p 6).wr (F.CL_PDELAY_DELAY p) v) := fun v => .wr _ _ v fun _ _ _ => by
    simp only [upBits, R.CL_PDELAY, R.CL_PCFG]
    omega
  unfold cameUp
  extract_lets s1 due ring s2
  have told : Within upBits s s1 := (state.trans (delay _)).trans (modPort_within _ _ p _)
  have ringed : Within upBits s1 s2 := .parts rfl List.prefix_rfl
  exact (told.trans ringed).trans (raise_within _ s2 176 _)

theorem upBits_port {a i : Nat} (h : upBits a i) : portBits a i := portBits_of_cl h.1 (by have := h.2.1; omega)

theorem tryUp_step (s : State) (p : Nat) : LaneStep s (tryUp s p) := by
  rcases tryUp_cases s p with same | up
  · exact .of_eq same
  · rw [up]
    exact .before ((cameUp_within s p).mono fun _ _ => upBits_port) (clkUpdate_step _)

theorem followDir_port (s : State) : Within portBits s (followDir s) := (followDir_dir s).mono fun a _ h => by
  simp [h.1, portBits, laneBlock]

/-- A port that comes UP after `clkUpdate` finds the reference settled. -/
theorem tryUp_settled (s : State) (p : Nat) : Within portBits (clkUpdate s) (tryUp (clkUpdate s) p) := by
  rcases tryUp_cases (clkUpdate s) p with same | up
  · exact .of_eq same
  · have before := cameUp_within (clkUpdate s) p
    rw [up, clkUpdate_same (clkUpdate_settled before)]
    exact (before.mono fun _ _ => upBits_port).trans (followDir_port _)

theorem trainSend_step (s : State) (p stamp turn : Nat) : LaneStep s (trainSend s p stamp turn) :=
  .ite (.before (sent_within _ s _) (tryUp_step _ p)) (.of_eq rfl)

theorem faultBits_port {a i : Nat} (h : faultBits a i) : portBits a i := portBits_of_cl h.1 (by have := h.2.1; omega)

theorem trainDrop_port (s : State) (p : Nat) (crcBad : Bool) : Within portBits s (trainDrop s p crcBad) := by
  have counted : Within portBits s (s.bump (F.CL_PFAULT_INVALID p) 1) := (pfault_within s p 16 16 1).mono fun _ _ => faultBits_port
  exact .ite (counted.trans (raise_within _ _ _ _)) counted

theorem trainDir_port (s : State) (p d : Nat) : Within portBits s (trainDir s p d) := by
  unfold trainDir
  split
  · exact .ite (.refl _ s) ((modPort_within _ s p _).trans (raise_within _ _ 182 _))
  · exact (pstat_port s p 3 2 d).trans (modPort_within _ _ p _)

theorem trainSample_port (s : State) (p : Nat) (r : Option Nat) : Within portBits s (trainSample s p r) := by
  unfold trainSample
  split
  · exact .refl _ s
  · exact modPort_within _ s p _

theorem positionRules_port (s : State) : Within portBits s (positionRules s) := by
  have pos : ∀ u v, Within portBits u (u.wr F.CL_MYPOS_POS v) := fun u v => wr_port u _ v (by decide) (by decide)
  have valid : ∀ u, Within portBits u (u.wr F.CL_MYPOS_VALID 1) := fun u => wr_port u _ 1 (by decide) (by decide)
  have route : ∀ u v, Within portBits u (u.wr F.CL_MYROUTE_ROUTE v) := fun u v => wr_port u _ v (by decide) (by decide)
  have noted : ∀ (u : State) (r : Ring), Within portBits u { u with ring := r } := fun u r => .parts rfl List.prefix_rfl
  have drained : ∀ u, Within portBits u (drainUp 64 u) := fun u => .of_reports (drainUp_reports 64 u) (by rw [drainUp_out])
  unfold positionRules
  split
  · exact .refl _ s
  · split
    · exact .refl _ s
    · exact ((((pos s _).trans (valid _)).trans (route _ _)).trans (noted _ _)).trans (drained _)
    · exact .ite (.refl _ s) ((noted s _).trans (raise_within _ _ 185 _))

theorem neighbourPos_port (s : State) (p pos : Nat) : Within portBits s (neighbourPos s p pos) := by
  have told : Within portBits s (s.wr (F.CL_PSTAT_PARTNER_POS p) pos) := pstat_port s p 6 6 pos
  exact .ite (.refl _ s) (.ite (told.trans (positionRules_port _)) told)

theorem trainGood_step (s : State) (p : Nat) (g : List Byte) (t4 : Nat) : LaneStep s (trainGood s p g t4) := by
  have named : ∀ u v, Within portBits u (u.wr64 (F.CL_PUID_LO_PUID p) (F.CL_PUID_HI_PUID p) v) := fun u v =>
    (wr_port u _ _ (by simp only [R.CL_PUID_LO, R.CL_PCFG]; omega) (by simp only [R.CL_PUID_LO]; omega)).trans
      (wr_port _ _ _ (by simp only [R.CL_PUID_HI, R.CL_PCFG]; omega) (by simp only [R.CL_PUID_HI]; omega))
  unfold trainGood
  extract_lets s0 flags first s1 s2 bad s3 s4 s5 s6
  have left : Within portBits s s0 := .ite (leaveTo_moves s p 5).port_of_moves (.refl _ s)
  have known : Within portBits s s2 := ((left.trans (named s0 _)).trans (pstat_port _ p 12 2 _)).trans (modPort_within _ s1 p _)
  split
  · have refused : Within portBits s bad := (known.trans (pstat_port s2 p 5 1 1)).trans (neighbourPos_port _ p _)
    exact .of_port (.ite (refused.trans (raise_within _ bad 178 _)) refused)
  · have turned : Within portBits s s3 := (known.trans (pstat_port s2 p 5 1 0)).trans (trainDir_port _ p _)
    have placed : Within portBits s s4 := (turned.trans (neighbourPos_port s3 p _)).trans (positionRules_port _)
    have heard : Within portBits s s5 := placed.trans (modPort_within _ s4 p _)
    have sampled : Within portBits s s6 := .ite (heard.trans (trainSample_port s5 p _)) heard
    exact (LaneStep.before sampled (clkUpdate_step s6)).after (tryUp_settled s6 p)

theorem trainRx_step (s : State) (p : Nat) (blocks : List (BitVec 64)) (t4 : Nat) : LaneStep s (trainRx s p blocks t4) := by
  unfold trainRx
  refine .ite ?_ (.of_eq rfl)
  split
  · exact .ite (trainGood_step s p _ t4) (.of_port (trainDrop_port s p true))
  · exact .of_port (trainDrop_port s p false)

theorem laneLoss_step (s : State) (n : Nat) {k : Nat} (hk : k = 1 ∨ k = 2 ∨ k = 3) (cut : Option Bool) : LaneStep s (laneLoss s n k cut) := by
  have cleared : ∀ o, Within portBits s (laneClear s n k o) := fun o => (laneClear_within hk s n o).mono fun _ _ h => portBits_of_lane h.1
  have rest : ∀ u, Within portBits s u → LaneStep s (laneLost (clkUpdate u)) := fun u h =>
    (LaneStep.before h (clkUpdate_step u)).after (laneLost_moves _).port_of_moves
  unfold laneLoss
  split
  · rename_i p _
    refine .ite (.of_eq rfl) (.ite (rest _ (cleared _)) (rest _ ?_))
    exact (((cleared _).trans (modPort_within _ _ p _)).trans (raise_within _ _ _ _)).trans (fallBack_moves _ p k).port_of_moves
  · exact .ite (.of_port ((cleared _).trans (raise_within _ _ _ _))) (.of_eq rfl)

theorem windowEnd_port (s : State) (n bad : Nat) : Within portBits s (windowEnd n bad s) :=
  .ite (((hiberCounted_within s n bad).mono fun _ _ h => portBits_of_lane h.1).trans (hiberWindow_after s n bad).port_of_moves) (.refl _ s)

theorem alignSend_port (s : State) (p : Nat) : Within portBits s (alignSend s p) :=
  .ite ((modPort_within _ s p _).trans (sent_within _ _ _)) (.refl _ s)

theorem alignRx_port (s : State) (p : Nat) (ok : Bool) (pairs : Nat) : Within portBits s (alignRx s p ok pairs) := by
  have held := lanesWr_port s p 5 1
  have step : ∀ u, Within portBits u (if hasBlock u p then blockSettled u p else u) := fun u => .ite (blockSettled_moves u p).port_of_moves (.refl _ u)
  unfold alignRx
  refine .ite (.ite ?_ ?_) (.refl _ s)
  · dsimp only
    split
    · exact (held.trans (sent_within _ _ _)).trans (step _)
    · exact held.trans (step _)
  · exact (((lanesWr_port s p 5 0).trans (lanesWr_port _ p 2 0)).trans (raise_within _ _ _ _)).trans (fallBack_moves _ p 3).port_of_moves

theorem rawBlock_port (s : State) (p : Nat) (second : Bool) (h : BitVec 2) (l : BitVec 64) (prev : BitVec 58) :
    Within portBits s (rawBlock s p second h l prev) := by
  rw [rawBlock_eq rfl h l prev]
  refine .ite (.refl _ s) ?_
  cases live : judged s p with
  | false => rw [invalidBlock_deaf _ _ live]; exact .refl _ s
  | true =>
    obtain ⟨rep, grown, -⟩ := invalidBlock_counts ((portLanes s p).getD (b2n second) (s.rd (F.CL_PCFG_LANE0 p)))
      ((rxBlock s ((portLanes s p).getD (b2n second) (s.rd (F.CL_PCFG_LANE0 p))) h l prev).header == 2#2) live
    exact ((pfault_within s p 16 16 1).mono fun _ _ => faultBits_port).trans (.of_reports rep grown)

theorem faultRx_port (s : State) (p reason pos : Nat) : Within portBits s (faultRx s p reason pos) := by
  cases up : s.isUp p with
  | false => exact .of_eq (if_neg (by simp [up]))
  | true =>
    exact (((pfault_within s p 0 16 1).mono fun _ _ => faultBits_port).trans (faultPassed_within s p reason pos _)).trans (faultRx_within reason pos up _)

theorem fillerSend_port (s : State) (p : Nat) : Within portBits s (fillerSend s p) := by
  by_cases h : ((s.port p).filler && (s.isUp p || s.pst p == 7)) = true
  · have on := h
    simp only [Bool.and_eq_true, Bool.or_eq_true, beq_iff_eq] at on
    exact (sent_within _ s _).trans (fillerSend_within on.1 on.2 _)
  · exact .of_eq (if_neg h)

theorem bypLone_port (s : State) : Within portBits s (bypLone s) := by
  unfold bypLone
  split
  · exact .ite (bypassRise_moves s 1).port_of_moves (.refl _ s)
  · exact .refl _ s

theorem bypSettle_port (s : State) : Within portBits s (bypSettle s) :=
  ((bypSettle_states s).mono fun _ _ ⟨_, h⟩ => stateBits_move h).port_of_moves

theorem openFall_port (s : State) (cut : Bool) : Within portBits s (openFall s cut) := by
  cases cause : closedCause s with
  | false => exact .of_eq (if_neg (by simp [cause]))
  | true =>
    rw [openFall_falls s cut cause]
    exact (cutNoted_within _ s cut).trans (bypassFall_moves _ _).port_of_moves

/-! The end of the command. -/

/-- A command that changes no mode and keeps what only other chapters write: its end only reports. -/
theorem ordinary_reports (f : State → State) {s t : State} (run : ordinary f s = .next t) (place : placed s (f s) = f s) (strap : (f s).strap = s.strap)
    (pending : (f s).pending = s.pending) (tap : (f s).tap = s.tap) (upd : (f s).upd = s.upd) : Reports (f s) t := by
  have rep := settle_reports s (f s)
  have flash : { (settle s (f s)).upd with flash := s.upd.flash } = (f s).upd := by rw [rep.upd, upd]
  obtain rfl : _ = t := by simpa only [ordinary, Host.Outcome.next.injEq] using run
  rw [place]
  obtain ⟨⟩ := rep
  constructor <;> first | assumption | exact strap.symm | exact pending.symm | exact tap.symm

/-- Without a request that waits for a position, a step of the chapter keeps the rest. -/
theorem laneStep_frame (f : State → State) {s t : State} (run : ordinary f s = .next t) (waiting : s.sys.waiting = none) (h : LaneStep s (f s)) :
    LaneFrame s t := by
  obtain ⟨within, core⟩ := h
  have idle : (f s).sys.waiting = none := by
    rw [within.sys]
    exact waiting
  have place : placed s (f s) = f s := by
    unfold placed
    rw [idle, ite_self]
  have rep := ordinary_reports f run place within.strap within.pending within.tap within.upd
  have reg : ∀ a, t.reg a = (f s).reg a := State.reg_congr rep.strap rep.regs
  constructor
  case core =>
    rw [reg, State.rd_congr rep.strap rep.regs]
    exact core
  case reg =>
    intro a other block
    rw [reg]
    exact within.reg fun i k => by
      simp only [stepBits, laneBlock] at k
      omega
  case sys => rw [rep.sys, within.sys]
  case strap => exact rep.strap.trans within.strap
  case now => exact rep.now.trans within.now
  case pix => exact rep.pix.trans within.pix
  case chk => exact rep.chk.trans within.chk
  case drv => exact rep.drv.trans within.drv
  case cal => exact rep.cal.trans within.cal
  case hk => exact rep.hk.trans within.hk
  case upd => exact rep.upd.trans within.upd
  case commit => exact rep.commit.trans within.commit

/-- What follows a change of the mirror link stays in those blocks. -/
theorem LaneStep.linked {f : State → State} {s : State} (h : LaneStep s (f s)) : LaneStep s (linked f s) :=
  h.after ((Within.of_link (linkCheck_keeps (f s)) (linkCheck_grows (f s)).out).mono fun _ _ => portBits_of_link)

theorem exec_signalDetect (p : Fin 12) (s : State) : exec (.signalDetect p) s = ordinary (linked fun s => signalDetect s p.val) s := rfl
theorem exec_cdrLock (p : Fin 12) (s : State) : exec (.cdrLock p) s = ordinary (linked fun s => cdrLock s p.val) s := rfl
theorem exec_blockLock (p : Fin 12) (deskew : Bool) (s : State) :
    exec (.blockLock p deskew) s = ordinary (linked fun s => blockLock s p.val deskew) s := rfl
theorem exec_stableTimeExpire (p : Fin 12) (s : State) : exec (.stableTimeExpire p) s = ordinary (linked fun s => stableTime s p.val) s := rfl
theorem exec_trainGroupSend (p : Fin 12) (stamp turn : Word) (s : State) :
    exec (.trainGroupSend p stamp turn) s = ordinary (linked fun s => trainSend s p.val stamp.toNat turn.toNat) s := rfl

/-- The effect of a command of the chapter. -/
theorem laneRow_step {c : Instr} (row : laneRow c = true) (s : State) : ∃ f, exec c s = ordinary f s ∧ LaneStep s (f s) := by
  cases c
  case signalDetect p => exact ⟨_, exec_signalDetect p s, LaneStep.linked (.of_port (signalDetect_port s p.val))⟩
  case cdrLock p => exact ⟨_, exec_cdrLock p s, LaneStep.linked (f := fun s => cdrLock s p.val) (cdrLock_step s p.val)⟩
  case blockLock p d => exact ⟨_, exec_blockLock p d s, LaneStep.linked (.of_port (blockLock_port s p.val d))⟩
  case bringupStepTimeout p => exact ⟨_, exec_bringupStepTimeout p s, LaneStep.linked (.of_port (stepTimeout_port s p.val))⟩
  case stableTimeExpire p => exact ⟨_, exec_stableTimeExpire p s, LaneStep.linked (.of_port (stableTime_port s p.val))⟩
  case trainTimeout p => exact ⟨_, exec_trainTimeout p s, LaneStep.linked (.of_port (trainTimeout_port s p.val))⟩
  case trainGroupSend p a b =>
    exact ⟨_, exec_trainGroupSend p a b s, LaneStep.linked (f := fun s => trainSend s p.val a.toNat b.toNat) (trainSend_step s p.val _ _)⟩
  case trainGroupRx p b t4 => exact ⟨_, exec_trainGroupRx p b t4 s, LaneStep.linked (f := fun s => trainRx s p.val b t4.toNat) (trainRx_step s p.val b _)⟩
  case lossOfSignal n cut => exact ⟨_, exec_lossOfSignal n cut s, (laneLoss_step s n.val (.inl rfl) _).linked⟩
  case lossOfLock n cut => exact ⟨_, exec_lossOfLock n cut s, (laneLoss_step s n.val (.inr (.inl rfl)) _).linked⟩
  case blockLockLost n cut => exact ⟨_, exec_blockLockLost n cut s, (laneLoss_step s n.val (.inr (.inr rfl)) _).linked⟩
  case hiberWindowEnd n bad => exact ⟨_, exec_hiberWindowEnd n bad s, LaneStep.linked (.of_port (windowEnd_port s n.val _))⟩
  case alignPairSend p => exact ⟨_, exec_alignPairSend p s, .of_port (alignSend_port s p.val)⟩
  case alignPairRx p a b n => exact ⟨_, exec_alignPairRx p a b n s, LaneStep.linked (.of_port (alignRx_port s p.val _ _))⟩
  case invalidBlockRx p a h l k => exact ⟨_, exec_invalidBlockRx p a h l k s, .of_port (rawBlock_port s p.val a h l k)⟩
  case faultBlockRx p r k => exact ⟨_, exec_faultBlockRx p r k s, .of_port (faultRx_port s p.val _ _)⟩
  case faultFillerSend p => exact ⟨_, exec_faultFillerSend p s, .of_port (fillerSend_port s p.val)⟩
  case bypLoneExpire => exact ⟨_, exec_bypLoneExpire s, LaneStep.linked (.of_port (bypLone_port s))⟩
  case bypSettleExpire => exact ⟨_, exec_bypSettleExpire s, LaneStep.linked (.of_port (bypSettle_port s))⟩
  case bypassOpenFall cut => exact ⟨_, exec_bypassOpenFall cut s, LaneStep.linked (.of_port (openFall_port s cut))⟩
  all_goals exact absurd row Bool.false_ne_true

/-- Settles O20: each command is a step of the chapter, and its end only reports. -/
theorem laneEventsKeepTheRest : Obligations.LaneEventsKeepTheRest := by
  intro c s t row waiting run
  obtain ⟨f, effect, step⟩ := laneRow_step row s
  exact laneStep_frame f (effect.symm.trans run) waiting step

end Sys2Proof.Machine
end

section
/-! PROOF. What the ring holds beside its outbound queue stays through events, counts and the mirror link's channels (O28, O29). -/
namespace Sys2Proof.Machine

/-- The ring without its outbound queue and the upward SEQ: the windows, the packets held, ready and queued, the ring table. -/
def Ring.offQueue (g : Ring) : Ring :=
  { g with outq := [], waiting := [], fullTold := false, hiwater := 0, refused := 0, upSeq := 0, outId := 0 }

section
variable {g h : Ring} (e : g.offQueue = h.offQueue)
include e

theorem ready_of_offQueue : g.ready = h.ready := (congrArg Ring.ready e :)
theorem held_of_offQueue : g.held = h.held := (congrArg Ring.held e :)
theorem ups_of_offQueue : g.ups = h.ups := (congrArg Ring.ups e :)
theorem upReady_of_offQueue : g.upReady = h.upReady := (congrArg Ring.upReady e :)

end

@[simp] theorem raise_offQueue (s : State) (n : Nat) (d : List Byte) : (raise s n d).ring.offQueue = s.ring.offQueue := rfl

@[simp] theorem raises_offQueue (s : State) (l : List (Nat × List Byte)) : (raises s l).ring.offQueue = s.ring.offQueue := by
  induction l generalizing s with
  | nil => rfl
  | cons e r ih => exact (ih _).trans (raise_offQueue s e.1 e.2)

@[simp] theorem count_offQueue (s : State) (n k : Nat) : (count s n k).ring.offQueue = s.ring.offQueue := by
  unfold count
  rw [raises_offQueue]
  rfl

@[simp] theorem mirrorSend_offQueue (s : State) (u : Bool) (k a : Nat) (b : List Nat) : (mirrorSend s u k a b).ring.offQueue = s.ring.offQueue := by
  unfold mirrorSend
  split
  · rfl
  · dsimp only
    split
    · simp [mirrorOut, showMq]
    · split <;> simp [showMq]

end Sys2Proof.Machine
end

section
/-! PROOF. Upward copies at a ring end, and ORDER_WAIT (O28; R74, R75). -/
namespace Sys2Proof.Machine

/-- Every register but CL_MYPOS. -/
def offMyPos (a _i : Nat) : Prop := a ≠ R.CL_MYPOS

theorem offMyPos_place {s t : State} (h : Within offMyPos s t) : t.on F.CL_MYPOS_VALID = true → s.on F.CL_MYPOS_VALID = true :=
  h.place fun _ k => k rfl

theorem linkBlock_offMyPos {a i : Nat} (h : linkBlock a) : offMyPos a i := by
  rintro rfl
  exact linkBlock_myPos h

/-! A copy meets the window of its position (R74). -/

theorem mergeCount_within (s : State) (east : Bool) (p : Nat) : Within offMyPos s (mergeCount s east p) := by
  have first : ∀ f : FRef, f.addr ≠ R.CL_MYPOS → Within offMyPos s (s.bump f 1) := fun f h => .wr s f _ fun _ _ _ => h
  exact Within.trans (.ite (first _ (by decide)) (first _ (by decide))) (count_within _ _ _ _)

theorem mergeCount_offQueue (s : State) (east : Bool) (p : Nat) : (mergeCount s east p).ring.offQueue = s.ring.offQueue := by
  rw [mergeCount, count_offQueue]
  split <;> rw [State.bump_ring]

/-- The key of the window that a copy meets at ring `r`. -/
def upKey (s : State) (r : Nat) (c : Copy) : Nat := r * 64 + posOfRoute s c.route.toNat

/-- What the window of its position says of a copy, and the window then. -/
def upOffer (s : State) (r : Nat) (c : Copy) : Verdict × Window := (s.ring.ups.get Window.empty (upKey s r c)).offer 256 c.seq.toNat

/-- The window has moved. -/
def upNoted (s : State) (r : Nat) (c : Copy) : State :=
  { s with ring := { s.ring with ups := s.ring.ups.set Window.empty (upKey s r c) (upOffer s r c).2 } }

/-- An accepted copy counted on its port, and told to the partner (R281). -/
def upTold (s : State) (r : Nat) (east : Bool) (q : Nat) (c : Copy) : State :=
  let t := mergeCount (upNoted s r c) east q
  if pairEn t && mirrorUp t then mirrorSend t true 6 0 (copyBody r c ++ [b2n east]) else t

/-- A copy that is kept joins the upward queue. -/
def upQueued (s : State) (r : Nat) (c : Copy) : State := { s with ring := { s.ring with upReady := s.ring.upReady ++ [⟨r, c⟩] } }

theorem upMerge_eq (s : State) (r : Nat) (east : Bool) (q : Nat) (c : Copy) : upMerge s r east (some q) c =
    match (upOffer s r c).1 with
    | .accept => if upKeeps c then upQueued (upTold s r east q c) r c else upTold s r east q c
    | .duplicate => upNoted s r c
    | .stale => raise (upNoted s r c) 189 (d2 (if east then 1 else 2) c.type) := by
  simp only [upMerge, upTold, upNoted, upOffer, upKey, Option.isSome_some, Bool.and_true]
  rfl

theorem upTold_within (s : State) (r : Nat) (east : Bool) (q : Nat) (c : Copy) : Within offMyPos (upNoted s r c) (upTold s r east q c) := by
  have sent : ∀ t l, Within offMyPos t (mirrorSend t true 6 0 l) := fun t l =>
    (Within.of_link (mirrorSend_keeps t true 6 0 l) (mirrorSend_grows t true 6 0 l).out).mono fun _ _ => linkBlock_offMyPos
  exact (mergeCount_within _ east q).trans (.ite (sent _ _) (.refl _ _))

theorem upTold_offQueue (s : State) (r : Nat) (east : Bool) (q : Nat) (c : Copy) : (upTold s r east q c).ring.offQueue = (upNoted s r c).ring.offQueue := by
  unfold upTold
  dsimp only
  split
  · rw [mirrorSend_offQueue, mergeCount_offQueue]
  · exact mergeCount_offQueue _ _ _

theorem upNoted_within (s : State) (r : Nat) (c : Copy) : Within offMyPos s (upNoted s r c) := .parts rfl List.prefix_rfl

theorem upMerge_within (s : State) (r : Nat) (east : Bool) (q : Nat) (c : Copy) : Within offMyPos s (upMerge s r east (some q) c) := by
  have told := (upNoted_within s r c).trans (upTold_within s r east q c)
  rw [upMerge_eq]
  split
  · exact .ite (told.trans (.parts rfl List.prefix_rfl)) told
  · exact upNoted_within s r c
  · exact (upNoted_within s r c).trans (raise_within _ _ _ _)

/-- The upward packets that a copy adds to the queue. -/
def upAdds (s : State) (r : Nat) (c : Copy) : List UpPkt := if (upOffer s r c).1 = .accept ∧ upKeeps c = true then [⟨r, c⟩] else []

/-- The window moves, an accepted copy that is kept joins the queue, and nothing else is taken. -/
theorem upMerge_offQueue (s : State) (r : Nat) (east : Bool) (q : Nat) (c : Copy) : (upMerge s r east (some q) c).ring.offQueue =
    ({ (upNoted s r c).ring with upReady := s.ring.upReady ++ upAdds s r c } : Ring).offQueue := by
  have none_ : upAdds s r c = [] → (upNoted s r c).ring.offQueue = ({ (upNoted s r c).ring with upReady := s.ring.upReady ++ upAdds s r c } : Ring).offQueue := by
    intro h
    rw [h, List.append_nil]
    rfl
  have told := upTold_offQueue s r east q c
  rw [upMerge_eq]
  cases verdict : (upOffer s r c).1 with
  | accept =>
    by_cases keeps : upKeeps c = true
    · have joined := congrArg (fun g : Ring => ({ g with upReady := g.upReady ++ [⟨r, c⟩] } : Ring)) told
      simp only [keeps, if_true, upAdds, verdict, and_self]
      exact joined
    · simp only [keeps, Bool.false_eq_true, if_false]
      exact told.trans (none_ (if_neg fun h => keeps h.2))
  | duplicate => exact none_ (if_neg (by simp [verdict]))
  | stale => exact none_ (if_neg (by simp [verdict]))

/-- The effect of UP_PACKET_RX. -/
def upTaken (p : Nat) (c : Copy) (s : State) : State := if c.up then packetRx s p c else s

theorem exec_upPacketRx (p : Fin 12) (c : Copy) (s : State) : exec (.upPacketRx p c) s = ordinary (upTaken p.val c) s := rfl

theorem upTaken_end {s : State} {p : Nat} {c : Copy} (echo : c.type ≠ 10) (up : c.up = true) (whole : intact c = true) (live : s.isUp p = true)
    (end_ : s.portIs p 1 = true) (other : (ringPorts s).contains p = false) :
    upTaken p c s = upMerge s (s.rd (F.CL_PCFG_RING p)) (s.on (F.CL_PCFG_END p)) (some p) c := by
  have heard : (c.type == 10) = false := beq_false_of_ne echo
  have off : p ∉ ringPorts s := by simpa using other
  simp [upTaken, packetRx, ringEndRx, heard, up, whole, live, end_, off]

/-- UP_PACKET_RX at a ring end that is UP. -/
theorem upPacketRx_clause (p : Fin 12) (c : Copy) (s : State) (echo : c.type ≠ 10) (up : c.up = true) (whole : intact c = true) (live : s.isUp p.val = true)
    (end_ : s.portIs p.val 1 = true) (other : (ringPorts s).contains p.val = false) :
    Runs (.upPacketRx p c) s fun t =>
      (upOffer s (s.rd (F.CL_PCFG_RING p.val)) c).2 = t.ring.ups.get Window.empty (upKey s (s.rd (F.CL_PCFG_RING p.val)) c) ∧
      t.ring.upReady = s.ring.upReady ++ upAdds s (s.rd (F.CL_PCFG_RING p.val)) c ∧ t.ring.ready = s.ring.ready := by
  have effect := upTaken_end echo up whole live end_ other
  have within := upMerge_within s (s.rd (F.CL_PCFG_RING p.val)) (s.on (F.CL_PCFG_END p.val)) p.val c
  have ring := upMerge_offQueue s (s.rd (F.CL_PCFG_RING p.val)) (s.on (F.CL_PCFG_END p.val)) p.val c
  rw [← effect] at within ring
  obtain ⟨t, run, rep, -⟩ := within_runs (upTaken p.val c) s within (offMyPos_place within)
  refine ⟨t, run, ?_, ?_, ?_⟩
  · have ups : (upTaken p.val c s).ring.ups = (upNoted s (s.rd (F.CL_PCFG_RING p.val)) c).ring.ups := (ups_of_offQueue ring).trans rfl
    rw [rep.ring_ups, ups]
    exact (Table.get_set_same ..).symm
  · exact rep.ring_upReady.trans (upReady_of_offQueue ring)
  · exact rep.ring_ready.trans ((ready_of_offQueue ring).trans rfl)

/-! ORDER_WAIT (R75). -/

/-- Of packets held one is next. -/
theorem nextHeld_some {last : Nat} {l : List Copy} (h : l ≠ []) : ∃ c ∈ l, nextHeld last l = some c := by
  have fold : ∀ (l : List Copy) (x : Copy), ∃ c ∈ x :: l, l.foldl (fun b c => match b with
      | none => some c
      | some x => if (c.seq.toNat + 98304 - last) % 65536 < (x.seq.toNat + 98304 - last) % 65536 then some c else b) (some x) = some c := by
    intro l
    induction l with
    | nil => exact fun x => ⟨x, List.mem_singleton_self x, rfl⟩
    | cons y l ih =>
      intro x
      rw [List.foldl_cons]
      dsimp only
      split
      · obtain ⟨c, mem, next⟩ := ih y
        exact ⟨c, List.mem_cons_of_mem x mem, next⟩
      · obtain ⟨c, mem, next⟩ := ih x
        refine ⟨c, ?_, next⟩
        rcases List.mem_cons.mp mem with rfl | rest
        · exact List.mem_cons_self
        · exact List.mem_cons_of_mem x (List.mem_cons_of_mem y rest)
  cases l with
  | nil => exact absurd rfl h
  | cons x l => exact fold l x

theorem release_within (W : Nat → Nat → Prop) (s : State) (c : Copy) (gap : Bool) : Within W s (release s c gap) := .parts rfl List.prefix_rfl

theorem orderRun_within (W : Nat → Nat → Prop) (k : Nat) (s : State) : Within W s (orderRun k s) := by
  induction k generalizing s with
  | zero => exact .refl W s
  | succ k ih =>
    unfold orderRun
    split
    · split
      · exact .refl W s
      · exact (release_within W s _ false).trans (ih _)
    · split
      · exact .refl W s
      · split
        · exact (release_within W s _ _).trans (ih _)
        · exact .refl W s

/-- What executes joins the packets ready behind those already there. -/
theorem orderRun_ready (k : Nat) (s : State) : s.ring.ready <+: (orderRun k s).ring.ready := by
  have joins : ∀ c gap, s.ring.ready <+: (release s c gap).ring.ready := fun _ _ => List.prefix_append _ _
  induction k generalizing s with
  | zero => exact List.prefix_rfl
  | succ k ih =>
    unfold orderRun
    split
    · split
      · exact List.prefix_rfl
      · exact (joins _ _).trans (ih _ fun _ _ => List.prefix_append _ _)
    · split
      · exact List.prefix_rfl
      · split
        · exact (joins _ _).trans (ih _ fun _ _ => List.prefix_append _ _)
        · exact List.prefix_rfl

/-- Whether a gap is given up for a packet held. -/
def gapGivenUp (s : State) (c : Copy) : Bool :=
  match s.ring.last with
  | some l => (gapState s.ring.down s.ring.seenOut l c.seq.toNat) != some false
  | none => false

/-- A packet released by ORDER_WAIT, with the event of its gap if there is one. -/
def waitReleased (s : State) (c : Copy) : State :=
  if gapGivenUp s c then raise (release s c (gapGivenUp s c)) 190 (bytesLE 2 c.seq.toNat) else release s c (gapGivenUp s c)

theorem giveUp_next {q : Nat} {s : State} {c : Copy} (k : Nat) (next : nextHeld (s.ring.last.getD q) s.ring.held = some c) :
    giveUp (k + 1) q s = if c.seq.toNat = q then waitReleased s c else giveUp k q (waitReleased s c) := by
  rw [giveUp, next]
  rfl

theorem waitReleased_offQueue (s : State) (c : Copy) : (waitReleased s c).ring.offQueue = (release s c (gapGivenUp s c)).ring.offQueue := by
  unfold waitReleased
  split
  · exact raise_offQueue _ _ _
  · rfl

theorem waitReleased_within (W : Nat → Nat → Prop) (s : State) (c : Copy) : Within W s (waitReleased s c) :=
  .ite ((release_within W s c _).trans (raise_within W _ 190 _)) (release_within W s c _)

theorem giveUp_within (W : Nat → Nat → Prop) (k q : Nat) (s : State) : Within W s (giveUp k q s) := by
  induction k generalizing s with
  | zero => exact .refl W s
  | succ k ih =>
    cases next : nextHeld (s.ring.last.getD q) s.ring.held with
    | none =>
      rw [giveUp, next]
      exact .refl W s
    | some c =>
      rw [giveUp_next k next]
      exact .ite (waitReleased_within W s c) ((waitReleased_within W s c).trans (ih _))

/-- ORDER_WAIT releases held packets until one of SEQ `q` is among them. -/
theorem giveUp_releases {k q : Nat} {s : State} {c : Copy} (mem : c ∈ s.ring.held) (seq : c.seq.toNat = q) (fuel : s.ring.held.length ≤ k) :
    ∃ m, (giveUp k q s).ring.ready = s.ring.ready ++ m ∧ ∃ x ∈ m, x.pkt.seq.toNat = q := by
  induction k generalizing s with
  | zero => exact absurd (List.length_pos_of_mem mem) (by omega)
  | succ k ih =>
    obtain ⟨d, held, next⟩ := nextHeld_some (last := s.ring.last.getD q) (List.ne_nil_of_mem mem)
    have ready : (waitReleased s d).ring.ready = s.ring.ready ++ [⟨d, gapGivenUp s d⟩] := ready_of_offQueue (waitReleased_offQueue s d)
    have left : (waitReleased s d).ring.held = s.ring.held.erase d := held_of_offQueue (waitReleased_offQueue s d)
    rw [giveUp_next k next]
    by_cases last : d.seq.toNat = q
    · rw [if_pos last]
      exact ⟨_, ready, _, List.mem_singleton_self _, last⟩
    · rw [if_neg last]
      have still : c ∈ (waitReleased s d).ring.held := by
        rw [left]
        exact (List.mem_erase_of_ne fun e => last (by rw [← e, seq])).mpr mem
      have fewer : (waitReleased s d).ring.held.length ≤ k := by
        rw [left, List.length_erase_of_mem held]
        omega
      obtain ⟨m, more, x, xmem, found⟩ := ih still fewer
      exact ⟨⟨d, gapGivenUp s d⟩ :: m, by rw [more, ready, List.append_assoc, List.singleton_append], x, List.mem_cons_of_mem _ xmem, found⟩

/-- The effect of ORDER_WAIT_EXPIRE. -/
def orderExpired (s : State) : State := orderRun (orderWait s).ring.held.length (orderWait s)

theorem exec_orderWaitExpire (s : State) : exec .orderWaitExpire s = ordinary orderExpired s := rfl

theorem orderWait_held {s : State} {c : Copy} {l : List Copy} (held : s.ring.held = c :: l) :
    orderWait s = giveUp s.ring.held.length c.seq.toNat s := by
  unfold orderWait
  rw [held]

theorem orderExpired_none {s : State} (held : s.ring.held = []) : orderExpired s = s := by
  have wait : orderWait s = s := by
    unfold orderWait
    rw [held]
  rw [orderExpired, wait, held]
  rfl

/-- ORDER_WAIT_EXPIRE with packets held. -/
theorem orderWaitExpire_clause (s : State) (c : Copy) (l : List Copy) (held : s.ring.held = c :: l) :
    Runs .orderWaitExpire s fun t => ∃ m, t.ring.ready = s.ring.ready ++ m ∧ ∃ x ∈ m, x.pkt.seq = c.seq := by
  have wait := orderWait_held held
  have within : Within offMyPos s (orderExpired s) := by
    rw [orderExpired, wait]
    exact (giveUp_within _ _ _ s).trans (orderRun_within _ _ _)
  obtain ⟨t, run, rep, -⟩ := within_runs orderExpired s within (offMyPos_place within)
  obtain ⟨m, given, x, mem, seq⟩ := giveUp_releases (c := c) (by rw [held]; exact List.mem_cons_self) rfl (Nat.le_refl s.ring.held.length)
  obtain ⟨n, rest⟩ := orderRun_ready (orderWait s).ring.held.length (orderWait s)
  refine ⟨t, run, m ++ n, ?_, x, List.mem_append_left n mem, BitVec.eq_of_toNat_eq seq⟩
  rw [rep.ring_ready, orderExpired, ← rest, wait, given, List.append_assoc]

/-- Settles O28: the copy at a ring end, ORDER_WAIT with nothing held, and with packets held. -/
theorem upwardCopiesAreMergedAtTheEnd : Obligations.UpwardCopiesAreMergedAtTheEnd :=
  ⟨upPacketRx_clause, fun s held => ordinary_idle orderExpired s (orderExpired_none held), orderWaitExpire_clause⟩

end Sys2Proof.Machine
end

section
/-! PROOF. What follows a change of the mirror link (`linkCheck`) and a second look at what waits (`retryHeads`) change, of the ring, its
outbound queue alone (O29). -/
namespace Sys2Proof.Machine

/-- The packets that the ring has brought and that wait: those to execute, the upward queue and the picture's. -/
def Ring.taken (g : Ring) : List Ready × List UpPkt × List Copy := (g.ready, g.upReady, g.pixels)

/-- A part of the ring stays: `Ring.offQueue`, or the packets that wait alone, `Ring.taken`. -/
structure RingStays {α : Type} (part : Ring → α) (s t : State) : Prop where
  part : part t.ring = part s.ring

section
variable {α : Type} {part : Ring → α} {s t u : State}

theorem RingStays.refl (s : State) : RingStays part s s := ⟨rfl⟩

theorem RingStays.trans (h : RingStays part s t) (g : RingStays part t u) : RingStays part s u := ⟨g.part.trans h.part⟩

/-- A change that leaves the ring. -/
theorem RingStays.of_ring (h : t.ring = s.ring) : RingStays part s t := ⟨congrArg part h⟩

/-- What follows a change that leaves the ring. -/
theorem RingStays.after (g : RingStays part t u) (h : t.ring = s.ring) : RingStays part s u := (RingStays.of_ring h).trans g

theorem RingStays.ite {c : Prop} [Decidable c] (ht : RingStays part s t) (hu : RingStays part s u) : RingStays part s (if c then t else u) := by
  split
  · exact ht
  · exact hu

theorem RingStays.foldl {β : Type} {f : State → β → State} (hf : ∀ s x, RingStays part s (f s x)) (l : List β) (s : State) :
    RingStays part s (l.foldl f s) := by
  induction l generalizing s with
  | nil => exact .refl s
  | cons x l ih => exact (hf s x).trans (ih _)

theorem RingStays.forIdx {f : State → Nat → State} (hf : ∀ s x, RingStays part s (f s x)) (n : Nat) (s : State) : RingStays part s (forIdx n s f) :=
  .foldl hf _ s

end

theorem RingStays.taken {s t : State} (h : RingStays Ring.offQueue s t) : RingStays Ring.taken s t := ⟨(congrArg Ring.taken h.part :)⟩

theorem RingStays.ready {s t : State} (h : RingStays Ring.taken s t) : t.ring.ready = s.ring.ready := congrArg Prod.fst h.part

/-! Reports, counts and the mirror link's channels. -/

theorem raise_ringStays (s : State) (n : Nat) (d : List Byte) : RingStays Ring.offQueue s (raise s n d) := ⟨raise_offQueue s n d⟩

theorem count_ringStays (s : State) (n k : Nat) : RingStays Ring.offQueue s (count s n k) := ⟨count_offQueue s n k⟩

/-- A report after a change that leaves the ring. -/
theorem RingStays.reporting {s t : State} {n : Nat} {d : List Byte} (h : t.ring = s.ring) : RingStays Ring.offQueue s (raise t n d) :=
  (raise_ringStays t n d).after h

/-- A report after such a change. -/
theorem RingStays.raised {s t : State} {n : Nat} {d : List Byte} (g : RingStays Ring.offQueue s t) : RingStays Ring.offQueue s (raise t n d) :=
  g.trans (raise_ringStays t n d)

theorem ring_foldl {β : Type} (f : State → β → State) (hf : ∀ s x, (f s x).ring = s.ring) (l : List β) (s : State) : (l.foldl f s).ring = s.ring := by
  induction l generalizing s with
  | nil => rfl
  | cons x l ih => exact (ih _).trans (hf s x)

/-! The pair. -/

@[simp] theorem showMq_ring (s : State) : (showMq s).ring = s.ring := by simp -implicitDefEqProofs [showMq]
@[simp] theorem mirrorReset_ring (s : State) : (mirrorReset s).ring = s.ring := by simp -implicitDefEqProofs [mirrorReset]
@[simp] theorem dropPix_ring (s : State) (r q : Nat) : (dropPix s r q).ring = s.ring := by simp -implicitDefEqProofs [dropPix]
@[simp] theorem notePixel_ring (s : State) (r q : Nat) (c : Copy) : (notePixel s r q c).ring = s.ring := by simp -implicitDefEqProofs [notePixel]

theorem mirrorSend_ringStays (s : State) (u : Bool) (k a : Nat) (b : List Nat) : RingStays Ring.offQueue s (mirrorSend s u k a b) :=
  ⟨mirrorSend_offQueue s u k a b⟩

theorem redRefresh_ringStays (s : State) : RingStays Ring.offQueue s (redRefresh s) := by
  have whistled : ∀ s r, RingStays Ring.offQueue s (sendWhistle s r) := fun s r => .of_ring rfl
  unfold redRefresh
  split
  · exact .refl s
  · exact (RingStays.foldl (fun s r => .ite (.refl s) (whistled s r)) _ _).after (by simp -implicitDefEqProofs)

theorem emitDown_ringStays (s : State) (r : Nat) (c : Copy) : RingStays Ring.offQueue s (emitDown s r c) := .of_ring rfl

theorem sendSeq_ringStays (s : State) (r : Nat) (c : Copy) : RingStays Ring.offQueue s (sendSeq s r c) := by
  unfold sendSeq
  split
  · exact (emitDown_ringStays _ r c).after (by simp -implicitDefEqProofs)
  · exact .refl s

theorem sendWaited_ringStays (s : State) (r q : Nat) (c : Copy) : RingStays Ring.offQueue s (sendWaited s r q c) := by
  unfold sendWaited
  dsimp only
  split
  · exact (sendSeq_ringStays _ r _).after (by simp -implicitDefEqProofs)
  · exact .of_ring (by simp -implicitDefEqProofs)

theorem pumpStandby_ringStays (k : Nat) (s : State) (r : Nat) : RingStays Ring.offQueue s (pumpStandby k s r) := by
  induction k generalizing s with
  | zero => exact .refl s
  | succ k ih =>
    unfold pumpStandby
    dsimp only
    split
    · exact .refl s
    · split
      · split
        · exact (((sendSeq_ringStays _ r _).after (by simp -implicitDefEqProofs))).trans (ih _)
        · exact .ite (.refl s) ((ih _).after (by simp -implicitDefEqProofs))
      · split
        · exact .refl s
        · exact (((sendWaited_ringStays _ r _ _).after (by simp -implicitDefEqProofs))).trans (ih _)

theorem endStream_ringStays (s : State) (r : Nat) : RingStays Ring.offQueue s (endStream s r) := by
  refine ⟨?_⟩
  unfold endStream pump
  dsimp only
  rw [State.setLease_ring]
  exact ((pumpStandby_ringStays _ s r).trans (.foldl (fun s _ => sendWaited_ringStays s r _ _) _ _)).part

theorem alignShow_ringStays (s : State) : RingStays Ring.offQueue s (alignShow s) := by
  unfold alignShow
  exact .ite (.refl s) (.reporting (by simp -implicitDefEqProofs))

theorem sendSync_ringStays (s : State) (a : Nat) (h b : List Nat) : RingStays Ring.offQueue s (sendSync s a h b) :=
  .foldl (fun s _ => mirrorSend_ringStays s _ _ _ _) _ s

theorem sendContent_ringStays (s : State) (f : Nat) : RingStays Ring.offQueue s (sendContent s f) := by
  unfold sendContent
  dsimp only
  refine RingStays.trans (RingStays.trans ?_ (.foldl (fun s i => .ite (sendSync_ringStays s _ _ _) (.refl s)) _ _)) (mirrorSend_ringStays _ _ _ _ _)
  exact ((((sendSync_ringStays s _ _ _).trans (.foldl (fun s _ => mirrorSend_ringStays s _ _ _ _) _ _)).trans (.foldl (fun s _ => sendSync_ringStays s _ _ _) _ _)).trans
    (.foldl (fun s _ => mirrorSend_ringStays s _ _ _ _) _ _)).trans (.foldl (fun s _ => mirrorSend_ringStays s _ _ _ _) _ _)

theorem startResync_ringStays (s : State) : RingStays Ring.offQueue s (startResync s) := by
  unfold startResync becomeTarget
  exact .ite (.refl s) (.ite ((sendContent_ringStays _ _).after (by simp -implicitDefEqProofs)) ((redRefresh_ringStays _).after (by simp -implicitDefEqProofs)))

/-! The host interface and transactions. -/

theorem cplTell_ringStays (s : State) : RingStays Ring.offQueue s (cplTell s) := by
  unfold cplTell
  split
  · exact .refl s
  · exact (raise_ringStays s 448 (bytesLE 2 s.hif.dirty)).trans (.of_ring (by simp -implicitDefEqProofs))

theorem postCpl_ringStays (s : State) (n : Nat) (r : CplRec) : RingStays Ring.offQueue s (postCpl s n r) := by
  unfold postCpl
  exact .ite (.refl s) ((cplTell_ringStays _).after (by simp -implicitDefEqProofs))

theorem finishWith_ringStays (s : State) (j : Job) (r : CplRec) : RingStays Ring.offQueue s (finishWith s j r) :=
  (postCpl_ringStays _ _ r).after (by simp -implicitDefEqProofs)

theorem postXa_ringStays (s : State) (x n : Nat) : RingStays Ring.offQueue s (postXa s x n) := by
  unfold postXa
  dsimp only
  split
  · exact .refl s
  · split
    · exact .of_ring (by simp -implicitDefEqProofs)
    · exact (finishWith_ringStays _ _ _).after (by simp -implicitDefEqProofs)

theorem abortXid_ringStays (s : State) (x a b c d : Nat) : RingStays Ring.offQueue s (abortXid s x a b c d) := by
  have told : ∀ v : Xid, ∀ e : List Byte,
        RingStays Ring.offQueue s (postXa (count (raise (traceXa (s.setXid x v) x 5 (s.xid x).target) 225 e) 36 1) x a) := fun v e =>
    ((RingStays.reporting (by rw [traceXa, trace_ring, State.setXid_ring])).trans (count_ringStays _ 36 1)).trans (postXa_ringStays _ x a)
  unfold abortXid
  dsimp only
  split
  · exact told _ _
  · split
    · exact told _ _
    · refine ⟨?_⟩
      rw [freeXid, State.setXid_ring]
      exact (told _ _).part

theorem pairLink_ringStays (s : State) : RingStays Ring.offQueue s (pairLink s) := by
  unfold pairLink
  split
  · exact redRefresh_ringStays s
  · dsimp only
    split
    · exact redRefresh_ringStays s
    · split
      · refine RingStays.trans ?_ (redRefresh_ringStays _)
        have marked : ((enabledRings s).foldl (fun (s : State) r =>
            s.setLease r { s.lease r with mark := s.rd (F.RED_RSTAT_SEQ r), jumped := false }) s).ring = s.ring :=
          ring_foldl _ (fun _ _ => by simp) _ s
        have up : ∀ f : Pair → Pair, RingStays Ring.offQueue s (raise (((enabledRings s).foldl (fun (s : State) r =>
            s.setLease r { s.lease r with mark := s.rd (F.RED_RSTAT_SEQ r), jumped := false }) s).modPair f) 436 (d2 0 0)) := fun f =>
          .reporting (by simp [marked])
        exact .ite ((up _).trans (startResync_ringStays _)) (up _)
      · refine RingStays.trans ?_ (redRefresh_ringStays _)
        have down : ∀ f : Pair → Pair, RingStays Ring.offQueue s
            (raise (mirrorReset (((enabledRings s).foldl (fun s r => if holds s r then s else endStream s r) s).modPair f)) 435 (d2 0 0)) := fun f => by
          refine .raised ⟨?_⟩
          rw [mirrorReset_ring, State.modPair_ring]
          exact (RingStays.foldl (fun s r => .ite (.refl s) (endStream_ringStays s r)) _ s).part
        exact .ite (down _) ((down _).trans (.forIdx (fun s x => .ite (abortXid_ringStays s x _ _ _ _) (.refl s)) _ _))

theorem pairCheck_ringStays (s : State) : RingStays Ring.offQueue s (pairCheck s) := (pairLink_ringStays s).trans (alignShow_ringStays _)

/-! DRAM and the network. -/

theorem dramCmd_ringStays (s : State) (c k a : Nat) : RingStays Ring.offQueue s (dramCmd s c k a) := .of_ring (by simp [dramCmd])

theorem refreshes_ringStays (k : Nat) (s : State) (c : Nat) : RingStays Ring.offQueue s (refreshes k s c) := by
  induction k generalizing s with
  | zero => exact .refl s
  | succ k ih =>
    refine RingStays.trans ?_ (ih _)
    unfold refresh
    exact .ite (((dramCmd_ringStays _ c 1 0).after (by simp -implicitDefEqProofs)).trans (dramCmd_ringStays _ c 2 0))
      ((dramCmd_ringStays _ c 1 0).after (by simp -implicitDefEqProofs))

theorem enterSr_ringStays (s : State) (c : Nat) : RingStays Ring.offQueue s (enterSr s c) := by
  unfold enterSr
  split
  · exact .refl s
  · refine RingStays.trans ⟨?_⟩ (dramCmd_ringStays _ c 3 0)
    rw [State.wr_ring, State.wr_ring]
    refine (RingStays.trans (.trans ⟨?_⟩ (dramCmd_ringStays _ c 5 0)) (dramCmd_ringStays _ c 6 _)).part
    rw [State.wr_ring]
    exact (refreshes_ringStays _ s c).part

theorem touch_ringStays (s : State) (c : Nat) : RingStays Ring.offQueue s (touch s c) := by
  have left : RingStays Ring.offQueue s (exitSr s c) :=
      .ite (.refl s) (((dramCmd_ringStays _ c 4 0).after (by simp -implicitDefEqProofs)).trans (dramCmd_ringStays _ c 2 0))
  unfold touch settleSr
  exact .ite (.refl s) (left.trans (.ite (enterSr_ringStays _ c) (.refl _)))

theorem recode_ring (s : State) (a : Nat) (l : List (Option Byte)) : (recode s a l).ring = s.ring := by
  unfold recode
  refine ring_foldl _ (fun s p => ?_) _ s
  dsimp only
  split <;> rfl

theorem storeBytes_ring (l : List (Option Byte)) (s : State) (a : Nat) : (storeBytes s a l).ring = s.ring := by
  induction l generalizing s a with
  | nil => rfl
  | cons b r ih =>
    unfold storeBytes
    rw [ih]
    split
    · split <;> rfl
    · rfl

theorem dramWrite_ringStays (s : State) (a : Nat) (l : List Byte) : RingStays Ring.offQueue s (dramWrite s a l) :=
  ⟨by rw [dramWrite, dramStore, storeBytes_ring, recode_ring]; exact (touch_ringStays s _).part⟩

theorem conceal_ringStays (s : State) (f k : Nat) (l : List Nat) : RingStays Ring.offQueue s (conceal s f k l) :=
  .foldl (fun s _ => dramWrite_ringStays s _ _) _ s

theorem publishOne_ringStays (s : State) (f k m : Nat) : RingStays Ring.offQueue s (publishOne s f k m) := by
  unfold publishOne
  exact .ite (.reporting (by simp -implicitDefEqProofs)) (.of_ring (by simp -implicitDefEqProofs))

theorem groupDrop_ringStays (s : State) (f m : Nat) : RingStays Ring.offQueue s (groupDrop s f m) := by
  unfold groupDrop
  dsimp only
  split
  · exact .refl s
  · refine .raised ⟨?_⟩
    rw [State.modFlow, State.setFlow_ring]
    exact (RingStays.foldl (fun s m => .ite (.of_ring (by simp -implicitDefEqProofs)) (.refl s)) _ s).part

theorem groupSweep_ringStays (s : State) (f : Nat) : RingStays Ring.offQueue s (groupSweep s f) :=
  .ite (.refl s) (.foldl (fun s _ => .ite (groupDrop_ringStays s f _) (.refl s)) _ s)

theorem groupReady_ringStays (s : State) (f k m : Nat) : RingStays Ring.offQueue s (groupReady s f k m) := by
  unfold groupReady
  dsimp only
  split
  · exact .of_ring (by simp -implicitDefEqProofs)
  · split
    · exact (RingStays.foldl (fun _ _ => ((publishOne_ringStays _ _ _ _).after (by simp -implicitDefEqProofs))) _ _).after (by simp -implicitDefEqProofs)
    · split
      · exact (groupDrop_ringStays _ _ _).after (by simp -implicitDefEqProofs)
      · exact .of_ring (by simp -implicitDefEqProofs)

theorem publish_ringStays (s : State) (f k m : Nat) : RingStays Ring.offQueue s (publish s f k m) :=
  .ite (groupReady_ringStays s f k m) (publishOne_ringStays s f k m)

theorem finishFrame_ringStays (s : State) (f k m : Nat) (l : List Nat) : RingStays Ring.offQueue s (finishFrame s f k m l) :=
  RingStays.trans (.ite (conceal_ringStays s f k l) ((conceal_ringStays s f k l).trans (.reporting (by simp -implicitDefEqProofs)))) (publish_ringStays _ f k m)

theorem dropFrame_ringStays (s : State) (f m k : Nat) : RingStays Ring.offQueue s (dropFrame s f m k) :=
  RingStays.trans (.reporting (by simp -implicitDefEqProofs)) (groupDrop_ringStays _ f k)

theorem unwritten_ringStays (s : State) (f m : Nat) : RingStays Ring.offQueue s (unwritten s f m) :=
  (groupDrop_ringStays _ f m).after (by simp -implicitDefEqProofs)

theorem decideFrame_ringStays (s : State) (f : Nat) (b : Option Nat) (m : Nat) (l : List Nat) : RingStays Ring.offQueue s (decideFrame s f b m l) := by
  unfold decideFrame
  split
  · exact unwritten_ringStays s f m
  · exact .ite (finishFrame_ringStays s f _ m l) (dropFrame_ringStays s f _ m)

theorem pairRun_ringStays (n : Nat) (s : State) (f : Nat) : RingStays Ring.offQueue s (pairRun n s f) := by
  induction n generalizing s with
  | zero => exact .refl s
  | succ n ih =>
    unfold pairRun
    split
    · exact .refl s
    · dsimp only
      split
      · exact (((decideFrame_ringStays _ f _ _ _).after (by simp -implicitDefEqProofs)).trans (groupSweep_ringStays _ f)).trans (ih _)
      · split
        · exact .refl s
        · split
          · exact .refl s
          · refine RingStays.trans (RingStays.trans ?_ (groupSweep_ringStays _ f)) (ih _)
            split
            · exact (unwritten_ringStays _ f _).after (by simp -implicitDefEqProofs)
            · exact .ite ((finishFrame_ringStays _ f _ _ _).after (by simp -implicitDefEqProofs)) ((dropFrame_ringStays _ f _ _).after (by simp -implicitDefEqProofs))

theorem pairFinishAll_ringStays (s : State) : RingStays Ring.offQueue s (pairFinishAll s) :=
  .forIdx (fun s f => (RingStays.foldl (fun s c => (RingStays.reporting (by simp -implicitDefEqProofs))) _ s).trans (pairRun_ringStays 8 _ f)) _ s

/-! Composition. -/

@[simp] theorem showFlipPend_ring (s : State) (r l : Nat) : (showFlipPend s r l).ring = s.ring := by simp -implicitDefEqProofs [showFlipPend]
@[simp] theorem showMapPend_ring (s : State) (r : Nat) : (showMapPend s r).ring = s.ring := by simp -implicitDefEqProofs [showMapPend]
@[simp] theorem holdBuf_ring (s : State) (r l f k m : Nat) : (holdBuf s r l f k m).ring = s.ring := by simp -implicitDefEqProofs [holdBuf]

theorem postFlip_ringStays (s : State) (f : Flip) (n : Nat) : RingStays Ring.offQueue s (postFlip s f n) := by
  unfold postFlip
  split
  · exact .refl s
  · exact finishWith_ringStays s _ _

theorem flipAccepted_ringStays (s : State) (g : Flip) : RingStays Ring.offQueue s (flipAccepted s g) := by
  have superseded : ∀ s m l, RingStays Ring.offQueue s (supersede s m l) := fun s m l =>
    (RingStays.foldl (fun s f => postFlip_ringStays s f 1) _ _).after (by simp -implicitDefEqProofs)
  have swept : ∀ s, RingStays Ring.offQueue s (flipsSweep s) :=
      fun s => (RingStays.foldl (fun s f => postFlip_ringStays s f 0) _ _).after (by simp -implicitDefEqProofs)
  refine RingStays.trans (.trans ⟨?_⟩ (.foldl (fun _ _ => (.of_ring (by simp -implicitDefEqProofs))) _ _)) (swept _)
  rw [State.modCmp_ring]
  exact ((superseded _ _ g.layer).after (by simp -implicitDefEqProofs)).part

theorem cmpAck_ringStays (s : State) (j n : Nat) : RingStays Ring.offQueue s (cmpAck s j n) := by
  have shown : ∀ (l : List Flip) (s : State),
        RingStays Ring.offQueue s (l.foldl (fun s f => f.rings.foldl (fun s e => showFlipPend s e.1 f.layer) s) s) := fun l s =>
    .foldl (fun s f => .foldl (fun s _ => (.of_ring (by simp -implicitDefEqProofs))) _ s) l s
  have maps : ∀ s, RingStays Ring.offQueue s (forIdx 8 s showMapPend) := fun s => .forIdx (fun s _ => (.of_ring (by simp -implicitDefEqProofs))) 8 s
  unfold cmpAck
  split
  · refine RingStays.trans ⟨?_⟩ (maps _)
    rw [State.modCmp_ring]
    exact (RingStays.foldl (fun s f => flipAccepted_ringStays s f) _ s).part
  · dsimp only
    split
    · exact (((shown _ _).after (by simp -implicitDefEqProofs)).trans (maps _)).trans (finishWith_ringStays _ _ _)
    · exact ((shown _ _).after (by simp -implicitDefEqProofs)).trans (maps _)

theorem cmpMirrorDown_ringStays (s : State) : RingStays Ring.offQueue s (cmpMirrorDown s) :=
  (RingStays.foldl (fun s _ => cmpAck_ringStays s _ _) _ s).trans (.foldl (fun s _ => cmpAck_ringStays s _ _) _ _)

theorem staleLayer_ringStays (s : State) (r l f p : Nat) (h : Bool) (m : Nat) : RingStays Ring.offQueue s (staleLayer s r l f p h m) := by
  have counted : ∀ (x : CLayer) (b : Bool) (v : Nat),
      RingStays Ring.offQueue s ((if b = true then (s.setLayer r l x).bump (F.CMP_LCNT_STALE r l) 1 else s.setLayer r l x).wr (F.CMP_LSTAT_STALE r l) v) :=
          fun x b v => by
    refine ⟨?_⟩
    rw [State.wr_ring]
    exact (RingStays.ite (.of_ring (by simp -implicitDefEqProofs)) (.of_ring (by simp -implicitDefEqProofs))).part
  unfold staleLayer
  exact .ite (counted _ _ _).raised (counted _ _ _)

theorem takeSample_ringStays (s : State) (r l f n m : Nat) : RingStays Ring.offQueue s (takeSample s r l f n m) := by
  unfold takeSample
  dsimp only
  refine RingStays.trans ?_ (staleLayer_ringStays _ r l f _ _ _)
  split
  · exact .of_ring (by simp -implicitDefEqProofs)
  · split
    · exact .of_ring (by simp -implicitDefEqProofs)
    · split
      · exact .ite (.of_ring (by simp -implicitDefEqProofs)) (.reporting (by simp -implicitDefEqProofs))
      · exact .reporting (by simp -implicitDefEqProofs)

theorem chooseLayer_ringStays (s : State) (r l f n : Nat) : RingStays Ring.offQueue s (chooseLayer s r l f n) := by
  unfold chooseLayer
  dsimp only
  split
  · split
    · exact takeSample_ringStays s r l f n _
    · exact .of_ring (by simp -implicitDefEqProofs)
  · split
    · exact .ite (((staleLayer_ringStays _ r l f _ _ _).after (by simp -implicitDefEqProofs)).trans (mirrorSend_ringStays _ _ _ _ _))
        ((staleLayer_ringStays _ r l f _ _ _).after (by simp -implicitDefEqProofs))
    · exact .ite ((staleLayer_ringStays _ r l f _ _ _).trans (mirrorSend_ringStays _ _ _ _ _)) (staleLayer_ringStays _ r l f _ _ _)

theorem chooseAlone_ringStays (s : State) : RingStays Ring.offQueue s (chooseAlone s) := by
  refine .forIdx (fun s r => .forIdx (fun s l => .ite (.refl s) ?_) _ s) _ s
  dsimp only
  split
  · exact .ite ((chooseLayer_ringStays _ _ _ _ _).after (by simp -implicitDefEqProofs)) (.of_ring (by simp -implicitDefEqProofs))
  · exact .of_ring (by simp -implicitDefEqProofs)

/-- What follows a change of the mirror link changes, of the ring, its outbound queue alone. -/
theorem linkCheck_ringStays (s : State) : RingStays Ring.offQueue s (linkCheck s) := by
  unfold linkCheck
  dsimp only
  split
  · exact ((((pairCheck_ringStays s).trans (cmpMirrorDown_ringStays _)).trans (pairFinishAll_ringStays _)).trans (chooseAlone_ringStays _)).trans
      (.of_ring (by simp [digestSkip]))
  · exact pairCheck_ringStays s

/-! What waits for an XID. -/

theorem tryHead_ringStays (s : State) (n : Nat) : RingStays Ring.offQueue s (tryHead s n) := by
  have taken : ∀ b, (takeHead (begun s b) n b).1.ring = s.ring := fun b => by
    unfold takeHead begun
    split <;> simp
  unfold tryHead
  dsimp only
  split
  · exact .refl s
  · split
    · exact (finishWith_ringStays _ _ _).after (by simp [taken])
    · exact (RingStays.trans (.ite (mirrorSend_ringStays _ _ _ _ _) (.refl _)) (finishWith_ringStays _ _ _)).after (by simp [taken])
    · exact .of_ring (by simp [taken])

theorem startXid_ringStays (s : State) (x t : Nat) : RingStays Ring.offQueue s (startXid s x t) := by
  unfold startXid planXid
  dsimp only
  split
  · rename_i h
    obtain ⟨rfl, -⟩ := Prod.mk.inj h
    exact (abortXid_ringStays _ _ _ _ _ _).after (by simp -implicitDefEqProofs)
  · rename_i h
    obtain ⟨rfl, -⟩ := Prod.mk.inj h
    exact .of_ring (by simp -implicitDefEqProofs)

theorem autoStart_ringStays (n : Nat) (s : State) : RingStays Ring.offQueue s (autoStart n s) := by
  induction n generalizing s with
  | zero => exact .refl s
  | succ n ih =>
    unfold autoStart
    dsimp only
    split
    · exact ((startXid_ringStays _ _ _).after (by simp -implicitDefEqProofs)).trans (ih _)
    · exact .refl s

/-- A second look at what waits for an XID changes, of the ring, its outbound queue alone. -/
theorem retryHeads_ringStays (s : State) : RingStays Ring.offQueue s (retryHeads s) :=
  ((autoStart_ringStays _ s).trans (.forIdx tryHead_ringStays _ _)).trans (cplTell_ringStays _)

end Sys2Proof.Machine
end


section
/-! PROOF. What a packet's write of a LANE register keeps (O29; R10, R44, R47): the picture, the drive, the straps and the packets that wait. -/
namespace Sys2Proof.Machine

theorem RingStays.of_reports {s t : State} (h : Reports s t) : RingStays Ring.taken s t :=
  ⟨congrArg₂ Prod.mk h.ring_ready (congrArg₂ Prod.mk h.ring_upReady h.ring_pixels)⟩

theorem raise_taken (s : State) (n : Nat) (d : List Byte) : RingStays Ring.taken s (raise s n d) := (raise_ringStays s n d).taken

/-! Ports and the by-pass switch take no packet that waits. -/

theorem wr_taken (s : State) (f : FRef) (v : Nat) : RingStays Ring.taken s (s.wr f v) := .of_ring (by rw [State.wr_ring])

theorem lanesWr_taken (s : State) (p : Nat) (f : Nat → FRef) (v : Nat) : RingStays Ring.taken s (lanesWr s p f v) := .foldl (fun s n => wr_taken s (f n) v) _ s

theorem setPst_taken (s : State) (p v : Nat) : RingStays Ring.taken s (s.setPst p v) := .of_ring (by rw [State.setPst_ring])

theorem modPort_taken (s : State) (p : Nat) (f : Port → Port) : RingStays Ring.taken s (s.modPort p f) := .of_ring (by rw [State.modPort_ring])

theorem sent_taken (s : State) (l : List Output) : RingStays Ring.taken s { s with out := l } := ⟨rfl⟩

theorem lossEffects_taken (s : State) : RingStays Ring.taken s (lossEffects s) := by
  unfold lossEffects
  extract_lets rp _ s1 ringDead _ s2
  have emptied : RingStays Ring.taken s s1 := .ite (.refl s) ⟨rfl⟩
  have lost : RingStays Ring.taken s s2 := emptied.trans ⟨rfl⟩
  exact .ite lost (lost.trans ⟨rfl⟩)

theorem startFiller_taken (s : State) (p : Nat) : RingStays Ring.taken s (startFiller s p) := by
  unfold startFiller
  split
  · exact .refl s
  · exact .ite ⟨rfl⟩ ⟨rfl⟩

theorem leaveTo_taken (s : State) (p st : Nat) : RingStays Ring.taken s (leaveTo s p st) := by
  unfold leaveTo
  extract_lets up s0 s1 s2
  have left : RingStays Ring.taken s s0 :=
    .ite (setPst_taken s p st) (((setPst_taken s p st).trans (lanesWr_taken _ p _ 0)).trans (modPort_taken _ p _))
  have down : RingStays Ring.taken s1 (s1.bump (F.CL_PDOWN_DOWNS p) 1) := wr_taken s1 _ _
  have filled : RingStays Ring.taken s1 s2 := .ite ((down.trans (raise_taken _ 177 _)).trans (startFiller_taken _ p)) (.refl s1)
  exact ((left.trans (modPort_taken s0 p _)).trans filled).trans (lossEffects_taken s2)

theorem fallBack_taken (s : State) (p st : Nat) : RingStays Ring.taken s (fallBack s p st) := .ite (leaveTo_taken s p st) (lossEffects_taken s)

theorem followDir_taken (s : State) : RingStays Ring.taken s (followDir s) := .ite ⟨rfl⟩ (.ite (wr_taken s _ _) ⟨rfl⟩)

theorem clkUpdate_taken (s : State) : RingStays Ring.taken s (clkUpdate s) := by
  have core : ∀ u, RingStays Ring.taken u (coreFollow u) := fun u => .ite ⟨rfl⟩ (.refl u)
  exact .ite (followDir_taken s) ((((wr_taken s _ _).trans (raise_taken _ 181 _)).trans (core _)).trans (followDir_taken _))

theorem driveBypass_taken (s : State) (level cause : Nat) : RingStays Ring.taken s (driveBypass s level cause) :=
  ((wr_taken s _ level).trans (sent_taken _ _)).trans (raise_taken _ 180 _)

theorem tryRise_taken (s : State) : RingStays Ring.taken s (tryRise s) :=
  .ite ((driveBypass_taken s 1 0).trans (.foldl (fun s p => .ite (.refl s) (setPst_taken s p 7)) _ _)) (.refl s)

theorem laneLost_taken (s : State) : RingStays Ring.taken s (laneLost s) :=
  .ite (.ite (.refl s) ((driveBypass_taken s 0 2).trans (.foldl (fun s p => .ite (.refl s) (leaveTo_taken s p 7)) _ _))) (.refl s)

theorem blockSettled_taken (s : State) (p : Nat) : RingStays Ring.taken s (blockSettled s p) :=
  .ite (.refl s) (.ite (tryRise_taken s) (.ite (setPst_taken s p 4) (.refl s)))

/-! A lane that loses its signal or acts on HIBER_DOWN. -/

theorem laneClear_taken (s : State) (n k : Nat) (owner : Option Nat) : RingStays Ring.taken s (laneClear s n k owner) := by
  unfold laneClear
  extract_lets s1 s2 s3
  have signal : RingStays Ring.taken s s1 := .ite (wr_taken s _ 0) (.refl s)
  have lock : RingStays Ring.taken s1 s2 := .ite (wr_taken s1 _ 0) (.refl s1)
  have cleared : RingStays Ring.taken s s3 := ((signal.trans lock).trans (wr_taken s2 _ 0)).trans (wr_taken _ _ 0)
  split
  · exact cleared.trans (lanesWr_taken s3 _ _ 0)
  · exact cleared

/-- What a LANE register's write keeps of the state: what the end of a command rests on, the picture, the drive and the packets that wait. -/
structure WriteKeeps (s t : State) : Prop where
  strap : t.strap = s.strap
  pending : t.pending = s.pending
  tap : t.tap = s.tap
  upd : t.upd = s.upd
  pix : t.pix = s.pix
  drv : t.drv = s.drv
  taken : RingStays Ring.taken s t

theorem WriteKeeps.refl (s : State) : WriteKeeps s s := ⟨rfl, rfl, rfl, rfl, rfl, rfl, .refl s⟩

theorem WriteKeeps.trans {s t u : State} (h : WriteKeeps s t) (g : WriteKeeps t u) : WriteKeeps s u :=
  ⟨g.strap.trans h.strap, g.pending.trans h.pending, g.tap.trans h.tap, g.upd.trans h.upd, g.pix.trans h.pix, g.drv.trans h.drv, h.taken.trans g.taken⟩

theorem WriteKeeps.ite {c : Prop} [Decidable c] {s t u : State} (ht : WriteKeeps s t) (hu : WriteKeeps s u) : WriteKeeps s (if c then t else u) := by
  split
  · exact ht
  · exact hu

theorem Within.writeKeeps {W : Nat → Nat → Prop} {s t : State} (h : Within W s t) (taken : RingStays Ring.taken s t) : WriteKeeps s t :=
  ⟨h.strap, h.pending, h.tap, h.upd, h.pix, h.drv, taken⟩

theorem LinkKeeps.writeKeeps {s t : State} (h : LinkKeeps s t) (taken : RingStays Ring.taken s t) : WriteKeeps s t :=
  ⟨h.strap, h.pending, h.tap, h.upd, h.pix, h.drv, taken⟩

theorem WriteKeeps.of_reports {s t : State} (h : Reports s t) : WriteKeeps s t := (LinkKeeps.of_reports h).writeKeeps (.of_reports h)

theorem raise_writeKeeps (s : State) (n : Nat) (d : List Byte) : WriteKeeps s (raise s n d) := .of_reports (raise_reports s n d)

/-- The lane PLL's reference and the switch after a lane's loss. -/
theorem laneLost_writeKeeps (s : State) : WriteKeeps s (laneLost (clkUpdate s)) :=
  ((clkUpdate_within s).writeKeeps (clkUpdate_taken s)).trans ((laneLost_moves _).writeKeeps (laneLost_taken _))

theorem fallBack_writeKeeps (s : State) (p st : Nat) : WriteKeeps s (fallBack s p st) := (fallBack_moves s p st).writeKeeps (fallBack_taken s p st)

theorem laneLoss_writeKeeps (s : State) (n : Nat) : WriteKeeps s (laneLoss s n 1 none) := by
  have cleared : ∀ o, WriteKeeps s (laneClear s n 1 o) := fun o => (laneClear_within_one s n o).writeKeeps (laneClear_taken s n 1 o)
  have noted : ∀ (u : State) p (f : Port → Port), WriteKeeps u (u.modPort p f) := fun u p f =>
    (modPort_within (fun _ _ => False) u p f).writeKeeps (modPort_taken u p f)
  unfold laneLoss
  split
  · rename_i p _
    have falls := (((cleared (some p)).trans (noted _ p fun x => { x with inPacket := none })).trans (raise_writeKeeps _ (laneSrc n 0) [])).trans
      (fallBack_writeKeeps _ p 1)
    exact .ite (.refl s) (.ite ((cleared _).trans (laneLost_writeKeeps _)) (falls.trans (laneLost_writeKeeps _)))
  · exact .ite ((cleared none).trans (raise_writeKeeps _ _ _)) (.refl s)

theorem hiberDown_taken (s : State) (n : Nat) : RingStays Ring.taken s (hiberDown s n) := by
  unfold hiberDown
  split
  · exact .ite ((raise_taken s _ _).trans (fallBack_taken _ _ 3)) (.refl s)
  · exact .ite (raise_taken s _ _) (.refl s)

theorem laneWrote_writeKeeps (s : State) (a old : Nat) : WriteKeeps s (laneWrote s a old) := by
  have settles : ∀ p, WriteKeeps s (if hasBlock s p then blockSettled s p else s) := fun p =>
    .ite ((blockSettled_moves s p).writeKeeps (blockSettled_taken s p)) (.refl s)
  unfold laneWrote
  dsimp only
  split
  · exact .ite (laneLoss_writeKeeps s _) (.refl s)
  · refine .ite (.refl s) (.ite (((hiberDown_moves s _).writeKeeps (hiberDown_taken s _)).trans (laneLost_writeKeeps _)) ?_)
    split
    · exact settles _
    · exact .refl s
  · exact .refl s

/-! What a network port and the transmit ring do then. -/

theorem niTell_taken (s : State) : RingStays Ring.taken s (niTell s) := by
  have told : ∀ (s : State) (n : Nat) (f : Ni → Ni), RingStays Ring.taken s (((raise s n (d2 0 0)).reported n).modNi f) := fun s n f =>
    (raise_taken s n _).trans (.of_ring (by rw [State.modNi_ring, State.reported_ring]))
  unfold niTell
  extract_lets s1
  have received : RingStays Ring.taken s s1 := .ite (told s 256 _) (.refl s)
  exact .ite (received.trans (told s1 259 _)) received

theorem htxRun_taken (n : Nat) (s : State) : RingStays Ring.taken s (htxRun n s) := by
  have completed : ∀ s d k, RingStays Ring.taken s (htxComplete s d k) := fun s d k =>
    (niTell_taken _).after (by dsimp only; rw [State.wr_ring, State.modNi_ring])
  induction n generalizing s with
  | zero => exact .refl s
  | succ _ ih =>
    unfold htxRun
    split
    · exact .refl s
    · exact .ite (.refl s) (.ite ((completed s _ 2).trans (ih _)) (.ite ((completed s _ 1).trans (ih _)) (.refl s)))

theorem niJudge_taken (old s : State) : RingStays Ring.taken s (niJudge old s) :=
  .forIdx (fun s _ => .ite (((wr_taken s _ 0).trans (wr_taken _ _ 0)).trans (raise_taken _ 241 _)) (.refl s)) _ _

/-! A word of a LANE register. -/

theorem wrote_lane_writeKeeps (s : State) {a : Nat} (old acts : Nat) (h : a / 65536 = 5) : WriteKeeps s (wrote s a old acts) := by
  have follows : wrote s a old acts = htxRun 4096 (niJudge (s.setReg a old) (laneWrote s a old)) := by simp only [wrote, clWrote, h, if_true]
  rw [follows]
  exact ((laneWrote_writeKeeps s a old).trans ((niJudge_keeps _ _).writeKeeps (niJudge_taken _ _))).trans
    ((htxRun_keeps _ _).writeKeeps (htxRun_taken _ _))

theorem written_writeKeeps (s : State) (a : Nat) (e : WordEffect) : WriteKeeps s (written s a e) := by
  unfold written openWrite
  split
  · exact ⟨rfl, rfl, rfl, rfl, rfl, rfl, ⟨rfl⟩⟩
  · exact ⟨rfl, rfl, rfl, rfl, rfl, rfl, ⟨rfl⟩⟩

end Sys2Proof.Machine
end

section
/-! PROOF. REGWR, TABLE and REGRD at the front of the queue (O29; R7, R10, R70, R83). -/
namespace Sys2Proof.Machine

/-! A packet's write of a word of block LANE. -/

/-- What a packet's write to a LANE address keeps: it takes no position, and of LANE it changes its own word and LANE_STAT. -/
structure LaneWritten (a : Nat) (s t : State) : Prop where
  keeps : WriteKeeps s t
  pos : t.on F.CL_MYPOS_VALID = true → s.on F.CL_MYPOS_VALID = true
  lane : ∀ b, b / 65536 = 5 → b % 4096 ≠ 4 → b ≠ a → t.reg b = s.reg b

theorem LaneWritten.refl (a : Nat) (s : State) : LaneWritten a s s := ⟨.refl s, id, fun _ _ _ _ => rfl⟩

theorem written_mypos (s : State) {a : Nat} (e : WordEffect) (h : a / 65536 = 5) : (written s a e).on F.CL_MYPOS_VALID = s.on F.CL_MYPOS_VALID := by
  have other : R.CL_MYPOS ≠ a := by
    rintro rfl
    exact absurd h (by decide)
  simp only [State.on, State.rd, written_reg, s.reg_setReg_ne _ other]

/-- A register of LANE takes its word, and what the write brings about follows. -/
theorem putWord_lane (s : State) {a : Nat} {r : RegSpec} (w : Nat) (found : findReg a = some r) (h : a / 65536 = 5) :
    ∃ acts, (putWord s a w false).1 = wrote (written s a (busEffect s a r w)) a (s.reg a) acts := by
  have noTile : a / 65536 ≠ 11 := by omega
  have noBank : a ≠ R.PIX_BANK := by
    rintro rfl
    simp at h
  refine ⟨if r.fields.any (fun f => f.app == .s) then 0 else (busEffect s a r w).acts, ?_⟩
  unfold putWord
  simp only [found, admittedWord_lane_chk s w (.inl h), noTile, noBank, decide_false, Bool.false_and, Bool.false_eq_true, if_false]
  rfl

theorem putWord_laneWritten (s : State) {a : Nat} (w : Nat) (h : a / 65536 = 5) : LaneWritten a s (putWord s a w false).1 := by
  cases found : findReg a with
  | none =>
    have nothing : putWord s a w false = (s, false) := by
      have offMask : ¬ (0x30800 ≤ a ∧ a < 0x30840 ∧ a % 4 = 0) := by omega
      simp only [putWord, found]
      rw [if_neg (by simpa using offMask)]
    rw [nothing]
    exact .refl a s
  | some r =>
    obtain ⟨acts, put⟩ := putWord_lane s w found h
    have after := (wrote_lane_access (written s a (busEffect s a r w)) (s.reg a) acts h).1
    rw [put]
    refine ⟨(written_writeKeeps s a _).trans (wrote_lane_writeKeeps _ _ _ h), fun k => ?_, fun b block stat other => ?_⟩
    · exact (written_mypos s _ h).symm.trans (after.pos k)
    · rw [after.lane b block stat, written_reg, State.reg_setReg_ne _ _ other]

theorem qReject_laneWritten (s : State) (a : Nat) : LaneWritten a s (qReject s a) := by
  have told : WriteKeeps s (raise s 0 (bytesLE 4 a)) := raise_writeKeeps s 0 _
  have counted : WriteKeeps (raise s 0 (bytesLE 4 a)) (qReject s a) := ⟨rfl, rfl, rfl, rfl, rfl, rfl, wr_taken _ _ _⟩
  refine ⟨told.trans counted, (qReject_access s a).pos, fun b block _ _ => qReject_reg s a ?_⟩
  rintro rfl
  exact absurd block (by decide)

theorem LaneWritten.trans {a : Nat} {s t u : State} (h : LaneWritten a s t) (g : LaneWritten a t u) : LaneWritten a s u :=
  ⟨h.keeps.trans g.keeps, fun k => h.pos (g.pos k), fun b block stat other => (g.lane b block stat other).trans (h.lane b block stat other)⟩

/-- A write to a LANE address by a packet, on a device that has the block. -/
theorem busWrite_lane {s : State} {a : Nat} (w : Nat) (on : addrOn s.strap.role a = true) (aligned : a % 4 = 0) (h : a / 65536 = 5) :
    (busWrite s .packet a w).1 = if (putWord s a w false).2 then qReject (putWord s a w false).1 a else (putWord s a w false).1 := by
  have window : isWindow a = false := by
    simp only [isWindow, decide_eq_false_iff_not]
    omega
  have picture : pictureAddr a = false := by
    simp only [pictureAddr, window, Bool.false_or, Bool.and_eq_false_iff, decide_eq_false_iff_not]
    omega
  have commit : a ≠ R.SYS_COMMIT := by
    rintro rfl
    simp at h
  have path : (hostPath .packet) = false := rfl
  have notXa : (Path.packet != .xa) = true := rfl
  have notNow : (Path.packet == .xa || Path.packet == .preload) = false := rfl
  unfold busWrite busTouch
  simp only [on, aligned, path, picture, window, commit, notNow, notXa, Bool.and_true, Bool.and_false, Bool.false_and, Bool.not_true,
    Bool.or_self, bne_self_eq_false, Bool.false_eq_true, if_false]

theorem busWrite_laneWritten (s : State) {a : Nat} (w : Nat) (h : a / 65536 = 5) : LaneWritten a s (busWrite s .packet a w).1 := by
  by_cases on : addrOn s.strap.role a = true ∧ a % 4 = 0
  · rw [busWrite_lane w on.1 on.2 h]
    have put := putWord_laneWritten s w h
    split
    · exact put.trans (qReject_laneWritten _ a)
    · exact put
  · have nothing : busWrite s .packet a w = (s, false) := if_pos (by simpa [Decidable.not_and_iff_not_or_not, imp_iff_not_or] using on)
    rw [nothing]
    exact .refl a s

/-- The word that the register then holds. -/
theorem busWrite_lane_reg {s : State} {a : Nat} {r : RegSpec} (w : Nat) (on : addrOn s.strap.role a = true) (aligned : a % 4 = 0) (h : a / 65536 = 5)
    (found : findReg a = some r) : (busWrite s .packet a w).1.reg a = (busEffect s a r w).live % 2 ^ 32 := by
  rw [busWrite_lane w on aligned h, ← (putWord_lane_chk s w found (.inl h)).2 h]
  split
  · exact qReject_reg _ a (by rintro rfl; simp at h)
  · rfl

/-! What follows the write: what waits, the mirror link, and the REGRSP if one is asked for. -/

theorem respond_reports (s : State) (addr cnt status tag : Nat) (words : List Nat) : Reports s (respond s addr cnt status tag words) := by
  unfold respond answer
  split
  · exact sendUp_reports _ _ _ _
  · exact .refl s

/-- A write's end, in the command that the mirror link may follow. -/
def writeEnd (u : State) (reply : Bool) (addr cnt status tag : Nat) : State :=
  let v := linkCheck (retryHeads u)
  linkCheck (if reply then respond v addr cnt status tag [] else v)

theorem writeEnd_keeps (u : State) (reply : Bool) (addr cnt status tag : Nat) :
    LinkKeeps u (writeEnd u reply addr cnt status tag) ∧ RingStays Ring.taken u (writeEnd u reply addr cnt status tag) := by
  have first : LinkKeeps u (linkCheck (retryHeads u)) := (retryHeads_keeps u).trans (linkCheck_keeps _)
  have firstTaken : RingStays Ring.taken u (linkCheck (retryHeads u)) := (retryHeads_ringStays u).taken.trans (linkCheck_ringStays _).taken
  unfold writeEnd
  dsimp only
  split
  · have told := respond_reports (linkCheck (retryHeads u)) addr cnt status tag []
    exact ⟨(first.trans (.of_reports told)).trans (linkCheck_keeps _), (firstTaken.trans (.of_reports told)).trans (linkCheck_ringStays _).taken⟩
  · exact ⟨first.trans (linkCheck_keeps _), firstTaken.trans (linkCheck_ringStays _).taken⟩

theorem not_linkBlock_lane {a : Nat} (h : a / 65536 = 5) : ¬ linkBlock a := by
  simp only [linkBlock, R.WT_PAIR]
  omega

/-- A packet's write of words, with its end: the packet leaves the front, the picture and the drive stay, and LANE holds what the words gave. -/
theorem write_runs (f : State → State) (s u : State) (l : List Ready) {reply : Bool} {addr cnt status tag : Nat}
    (effect : f s = writeEnd u reply addr cnt status tag) (keeps : WriteKeeps (s.withReady l) u)
    (pos : u.on F.CL_MYPOS_VALID = true → s.on F.CL_MYPOS_VALID = true) :
    ∃ t, ordinary f s = .next t ∧ t.ring.ready = l ∧ t.pix = s.pix ∧ t.drv = s.drv ∧ ∀ a, a / 65536 = 5 → t.reg a = u.reg a := by
  obtain ⟨link, taken⟩ := writeEnd_keeps u reply addr cnt status tag
  rw [← effect] at link taken
  have all := keeps.trans (link.writeKeeps taken)
  have place : (f s).on F.CL_MYPOS_VALID = true → s.on F.CL_MYPOS_VALID = true := fun k => pos ((AccessKeeps.of_link link).pos k)
  obtain ⟨t, run, rep⟩ := ordinary_runs f s all.strap all.pending all.tap (congrArg Upd.flash all.upd) place
  refine ⟨t, run, ?_, ?_, ?_, fun a lane => ?_⟩
  · exact rep.ring_ready.trans all.taken.ready
  · exact rep.pix.trans all.pix
  · exact rep.drv.trans all.drv
  · rw [rep.reg, link.reg a (not_linkBlock_lane lane)]

/-! REGWR. -/

/-- The effect of REGWR. -/
def regwrTaken : State → State := linked fun s => takeReady s (fun c => c.type == 2) regwrRun

theorem exec_regwr (s : State) : exec .regwr s = ordinary regwrTaken s := rfl

/-- REGWR of one word. -/
theorem regwrTaken_one {s : State} {x : Ready} {l : List Ready} (front : s.ring.ready = x :: l) (type : x.pkt.type = 2) (one : beAt x.pkt.data 4 1 = 1) :
    ∃ reply status, regwrTaken s = writeEnd (busWrite (s.withReady l) .packet (pktAddr x.pkt) (beAt x.pkt.data 8 4)).1 reply (beAt x.pkt.data 0 4) 1 status
      x.pkt.seq.toNat := by
  refine ⟨(beAt x.pkt.data 5 1).testBit 0,
    rspStatus (busWrite (s.withReady l) .packet (pktAddr x.pkt) (beAt x.pkt.data 8 4)).2 x.gap, ?_⟩
  rw [regwrTaken, linked, takeReady_front regwrRun front (by simp [type])]
  simp only [regwrRun, one]
  rfl

theorem withReady_mypos (s : State) (l : List Ready) : (s.withReady l).on F.CL_MYPOS_VALID = s.on F.CL_MYPOS_VALID := rfl

theorem regwr_clause (s : State) (x : Ready) (l : List Ready) (r : RegSpec) (front : s.ring.ready = x :: l) (type : x.pkt.type = 2)
    (one : beAt x.pkt.data 4 1 = 1) (on : addrOn s.strap.role (pktAddr x.pkt) = true) (lane : pktAddr x.pkt / 65536 = 5)
    (found : findReg (pktAddr x.pkt) = some r) :
    Runs .regwr s fun t => t.reg (pktAddr x.pkt) =
      (wordEffect r (s.reg (pktAddr x.pkt)) (beAt x.pkt.data 8 4) (!(blockDisabled s (pktAddr x.pkt))) false).live % 2 ^ 32 ∧
      t.ring.ready = l ∧ t.pix = s.pix ∧ t.drv = s.drv := by
  obtain ⟨reply, status, effect⟩ := regwrTaken_one front type one
  have wrote := busWrite_laneWritten (s.withReady l) (beAt x.pkt.data 8 4) lane
  have word := busWrite_lane_reg (s := s.withReady l) (beAt x.pkt.data 8 4) on (Nat.mul_mod_left _ 4) lane found
  obtain ⟨t, run, ready, pix, drv, regs⟩ := write_runs regwrTaken s _ l effect wrote.keeps wrote.pos
  exact ⟨t, run, (regs _ lane).trans word, ready, pix, drv⟩

/-! TABLE. -/

/-- Two words, one after the other. -/
theorem writeWords_two (s : State) (p : Path) (a inc v w : Nat) : writeWords s p a inc [v, w] =
    ((busWrite (busWrite s p a v).1 p (a + inc) w).1, (busWrite s p a v).2 || (busWrite (busWrite s p a v).1 p (a + inc) w).2) := by
  simp only [writeWords, List.foldl_cons, List.foldl_nil, Bool.false_or]

/-- The effect of TABLE. -/
def blockTaken : State → State := linked fun s => takeReady s (fun c => c.type == 6 && !(isRingTable s c)) tableRun

theorem exec_table (s : State) : exec .table s = ordinary blockTaken s := rfl

/-- The address that a TABLE begins at. -/
def tableAddr (c : Copy) : Nat := beAt c.data 0 4 % 2 ^ 25 / 8 * 8

/-- TABLE of one block: its two words, one after the other. -/
theorem blockTaken_one {s : State} {x : Ready} {l : List Ready} (front : s.ring.ready = x :: l) (type : x.pkt.type = 6)
    (other : isRingTable s x.pkt = false) (one : beAt x.pkt.data 4 2 = 1) :
    ∃ reply status, blockTaken s = writeEnd
      (busWrite (busWrite (s.withReady l) .packet (tableAddr x.pkt) (beAt x.pkt.data 8 4)).1 .packet (tableAddr x.pkt + 4) (beAt x.pkt.data 12 4)).1
      reply (beAt x.pkt.data 0 4) 0 status x.pkt.seq.toNat := by
  have words : wordsBE (2 * 1) (x.pkt.data.drop 8) = [beAt x.pkt.data 8 4, beAt x.pkt.data 12 4] := by
    simp [wordsBE, beAt, slice, List.drop_drop]
  have address : beAt x.pkt.data 0 4 % 2 ^ 25 / 8 * 8 = tableAddr x.pkt := rfl
  rw [blockTaken, linked, takeReady_front tableRun front (by simp [type, other])]
  simp only [tableRun, one, words, address, writeWords_two]
  exact ⟨_, _, rfl⟩

theorem table_clause (s : State) (x : Ready) (l : List Ready) (r : RegSpec) (front : s.ring.ready = x :: l) (type : x.pkt.type = 6)
    (other : isRingTable s x.pkt = false) (one : beAt x.pkt.data 4 2 = 1) (on : addrOn s.strap.role (tableAddr x.pkt) = true)
    (lane : tableAddr x.pkt / 65536 = 5) (found : findReg (tableAddr x.pkt) = some r) :
    Runs .table s fun t => t.ring.ready = l ∧ t.reg (tableAddr x.pkt) =
      (wordEffect r (s.reg (tableAddr x.pkt)) (beAt x.pkt.data 8 4) (!(blockDisabled s (tableAddr x.pkt))) false).live % 2 ^ 32 := by
  obtain ⟨reply, status, effect⟩ := blockTaken_one front type other one
  have block : tableAddr x.pkt % 8 = 0 := Nat.mul_mod_left _ 8
  generalize tableAddr x.pkt = a at *
  have first := busWrite_laneWritten (s.withReady l) (beAt x.pkt.data 8 4) lane
  have second := busWrite_laneWritten (busWrite (s.withReady l) .packet a (beAt x.pkt.data 8 4)).1 (a := a + 4) (beAt x.pkt.data 12 4) (by omega)
  have word := busWrite_lane_reg (s := s.withReady l) (beAt x.pkt.data 8 4) on (by omega) lane found
  obtain ⟨t, run, ready, -, -, regs⟩ := write_runs blockTaken s _ l effect (first.keeps.trans second.keeps) fun k => first.pos (second.pos k)
  exact ⟨t, run, ready, (regs a lane).trans ((second.lane a lane (by omega) (by omega)).trans word)⟩

/-! REGRD. -/

/-- The effect of REGRD. -/
def regrdTaken (s : State) : State := takeReady s (fun c => c.type == 3) regrdRun

theorem exec_regrd (s : State) : exec .regrd s = ordinary regrdTaken s := rfl

/-- What a read of the register at `a` may change: latches and the register itself. -/
structure ReadKeeps (a : Nat) (s t : State) : Prop where
  rest : t = { s with latch := t.latch, regs := t.regs }
  reg : ∀ b, b ≠ a → t.reg b = s.reg b

theorem clearRc_lane (s : State) {a : Nat} (h : a / 65536 = 5) : ReadKeeps a s (clearRc s a) := by
  have noTrace : a ≠ R.OBS_TSTAT := by
    rintro rfl
    simp at h
  have noQueue : a ≠ R.CL_OUTQ := by
    rintro rfl
    simp at h
  rw [clearRc, if_neg noTrace, if_neg noQueue]
  split
  · exact ⟨rfl, fun _ _ => rfl⟩
  · split
    · exact ⟨rfl, fun b other => s.reg_setReg_ne _ other⟩
    · exact ⟨rfl, fun _ _ => rfl⟩

/-- A packet's read of a LANE register with no latch pending answers the word that it shows. -/
theorem busRead_lane {s : State} {a : Nat} (on : addrOn s.strap.role a = true) (aligned : a % 4 = 0) (h : a / 65536 = 5)
    (free : Table.get 0 s.latch (0x2000000 + a) = 0) : ∃ u, busRead s .packet a true = (u, shows s a) ∧ ReadKeeps a s u := by
  have register : isWindow a = false := by
    simp only [isWindow, decide_eq_false_iff_not]
    omega
  obtain ⟨m, latched⟩ := latched_eq s (latchesOf a) (fun x => pathIdx .packet * 0x2000000 + x) fun x => content s x + 1
  have cleared := clearRc_lane { s with latch := m } h
  refine ⟨clearRc { s with latch := m } a, ?_, ?_, fun b other => cleared.reg b other⟩
  · have key : pathIdx .packet * 0x2000000 + a = 0x2000000 + a := by simp [pathIdx]
    unfold busRead
    simp only [on, aligned, register, content, key, free, bne_self_eq_false, Bool.not_true, Bool.or_self, Bool.false_and, Bool.false_eq_true, if_false,
      if_true] at latched ⊢
    rw [latched]
  · rw [cleared.rest]

/-- What a LANE address shows is its register's alone. -/
theorem shows_withReady (s : State) (l : List Ready) {a : Nat} (h : a / 65536 = 5) : shows (s.withReady l) a = shows s a := by
  have plain : ∀ s : State, view s a = none := fun s => by simp only [view, h]
  simp only [shows, plain]
  rfl

/-- The upward packet that a device sends depends on its position, route and RHB. -/
theorem upPacket_congr {s t : State} (pos : t.reg R.CL_MYPOS = s.reg R.CL_MYPOS) (route : t.reg R.CL_MYROUTE = s.reg R.CL_MYROUTE) (type : Nat)
    (body : List Byte) : upPacket t type body = upPacket s type body := by
  simp only [upPacket, State.rd, pos, route]

theorem answer_owed {s : State} (addr cnt status tag : Nat) (words : List Nat) (placed : s.on F.CL_MYPOS_VALID = true) :
    Owed (respond s addr cnt status tag words)
      (upPacket s 4 (bytesBE 4 addr ++ bytesBE 1 cnt ++ bytesBE 1 status ++ bytesBE 2 tag ++ words.flatMap (bytesBE 4))) := by
  rw [respond, if_pos placed]
  exact sendUp_owed 0 _ placed (by decide)

/-- A request's answer, from a device that has read its registers: the packet leaves the front and the REGRSP is queued upward. -/
theorem respond_runs (f : State → State) (s u : State) (l : List Ready) {addr cnt status tag : Nat} {words : List Nat}
    (effect : f s = respond u addr cnt status tag words) (keeps : FollowKeeps (s.withReady l) u) (ports : u.ports = s.ports)
    (mypos : u.reg R.CL_MYPOS = s.reg R.CL_MYPOS) (route : u.reg R.CL_MYROUTE = s.reg R.CL_MYROUTE) (placed : s.on F.CL_MYPOS_VALID = true)
    (quiet : NoTrain s) :
    ∃ t, ordinary f s = .next t ∧ t.ring.ready = l ∧ t.regs = u.regs ∧
      Queued t (upPacket s 4 (bytesBE 4 addr ++ bytesBE 1 cnt ++ bytesBE 1 status ++ bytesBE 2 tag ++ words.flatMap (bytesBE 4))) := by
  have told := respond_reports u addr cnt status tag words
  have still : NoTrain u := fun p => by rw [State.port, ports, ← State.port, quiet p]
  have after : NoTrain (respond u addr cnt status tag words) := fun p => by rw [State.port, told.ports still, ← State.port, still p]
  obtain ⟨t, run, rep, -, stays⟩ := ordinary_follow effect (.inr ⟨l, keeps.trans (.of_reports told)⟩)
  have owed := answer_owed (s := u) addr cnt status tag words (by simpa only [State.on, State.rd, mypos] using placed)
  rw [upPacket_congr mypos route] at owed
  exact ⟨t, run, rep.ring_ready.trans (told.ring_ready.trans keeps.ready), rep.regs.trans told.regs, ((stays after).owed _ owed).queued⟩

theorem regrdTaken_front {s : State} {x : Ready} {l : List Ready} (front : s.ring.ready = x :: l) (type : x.pkt.type = 3) :
    regrdTaken s = regrdRun (s.withReady l) x :=
  takeReady_front regrdRun front (by simp [type])

/-- REGRD of one word of a LANE register. -/
theorem regrd_clause (s : State) (x : Ready) (l : List Ready) (front : s.ring.ready = x :: l) (type : x.pkt.type = 3)
    (one : beAt x.pkt.data 4 1 = 1) (placed : s.on F.CL_MYPOS_VALID = true) (on : addrOn s.strap.role (pktAddr x.pkt) = true)
    (free : Table.get 0 s.latch (0x2000000 + pktAddr x.pkt) = 0) (lane : pktAddr x.pkt / 65536 = 5) (quiet : NoTrain s) :
    Runs .regrd s fun t => t.ring.ready = l ∧ Queued t (upPacket s 4 (bytesBE 4 (beAt x.pkt.data 0 4) ++ bytesBE 1 1 ++ bytesBE 1 (rspStatus false x.gap) ++
      bytesBE 2 x.pkt.seq.toNat ++ bytesBE 4 (shows s (pktAddr x.pkt)))) := by
  obtain ⟨u, read, keeps⟩ := busRead_lane (s := s.withReady l) on (Nat.mul_mod_left _ 4) lane free
  have effect : regrdTaken s =
      respond (retryHeads u) (beAt x.pkt.data 0 4) 1 (rspStatus false x.gap) x.pkt.seq.toNat [shows (s.withReady l) (pktAddr x.pkt)] := by
    have words : readWords (s.withReady l) .packet (pktAddr x.pkt) (if (beAt x.pkt.data 5 1).testBit 1 then 4 else 0) 1 =
        (u, [shows (s.withReady l) (pktAddr x.pkt)]) := by
      simp [readWords, read]
    rw [regrdTaken_front front type, regrdRun]
    simp only [one, words, Nat.le_refl, Nat.reduceLeDiff, decide_true, Bool.and_self, if_true]
  have retried := retryHeads_keeps u
  have reg : ∀ b, b / 65536 = 6 → (retryHeads u).reg b = s.reg b := fun b block => by
    have other : b ≠ pktAddr x.pkt := by
      rintro rfl
      omega
    have off : ¬ linkBlock b := by
      simp only [linkBlock, R.WT_PAIR]
      omega
    rw [retried.reg b off, keeps.reg b other]
    rfl
  have ring : u.ring = (s.withReady l).ring := by rw [keeps.rest]
  have same : u.strap = s.strap ∧ u.pending = s.pending ∧ u.tap = s.tap ∧ u.upd = s.upd ∧ u.ports = s.ports := by
    rw [keeps.rest]
    exact ⟨rfl, rfl, rfl, rfl, rfl⟩
  obtain ⟨strap, pending, tap, upd, ports⟩ := same
  have follow : FollowKeeps (s.withReady l) (retryHeads u) :=
    ⟨retried.strap.trans strap, retried.pending.trans pending, retried.tap.trans tap, retried.upd.trans upd,
      (retryHeads_ringStays u).taken.ready.trans (congrArg Ring.ready ring), by simp only [State.rd, reg R.CL_MYPOS rfl]; rfl⟩
  have still : NoTrain u := fun p => by rw [State.port, ports, ← State.port, quiet p]
  obtain ⟨t, run, ready, -, queued⟩ := respond_runs regrdTaken s (retryHeads u) l effect follow ((retried.ports still).trans ports)
    (reg _ rfl) (reg _ rfl) placed quiet
  rw [shows_withReady s l lane] at queued
  exact ⟨t, run, ready, by simpa using queued⟩

/-- REGRD of no word or of more than eight. -/
theorem regrd_refused_clause (s : State) (x : Ready) (l : List Ready) (front : s.ring.ready = x :: l) (type : x.pkt.type = 3)
    (count : beAt x.pkt.data 4 1 = 0 ∨ 8 < beAt x.pkt.data 4 1) (placed : s.on F.CL_MYPOS_VALID = true) (quiet : NoTrain s) :
    Runs .regrd s fun t => t.ring.ready = l ∧ t.regs = s.regs ∧ Queued t (upPacket s 4 (bytesBE 4 (beAt x.pkt.data 0 4) ++ bytesBE 1 0 ++
      bytesBE 1 3 ++ bytesBE 2 x.pkt.seq.toNat)) := by
  have effect : regrdTaken s = respond (s.withReady l) (beAt x.pkt.data 0 4) 0 3 x.pkt.seq.toNat [] := by
    have refused : ¬ (1 ≤ beAt x.pkt.data 4 1 ∧ beAt x.pkt.data 4 1 ≤ 8) := by omega
    rw [regrdTaken_front front type, regrdRun]
    exact if_neg (by simpa using refused)
  obtain ⟨t, run, ready, regs, queued⟩ := respond_runs regrdTaken s (s.withReady l) l effect (.refl _) rfl rfl rfl placed quiet
  exact ⟨t, run, ready, regs, by simpa using queued⟩

/-- No packet is ready. -/
theorem control_idle_clause (c : Instr) (s : State) (empty : s.ring.ready = []) (link : linkCheck s = s) (h : c = .regwr ∨ c = .regrd ∨ c = .table) :
    Runs c s (Reports s) := by
  rcases h with rfl | rfl | rfl
  · exact linked_idle _ s (takeReady_none _ regwrRun empty) link
  · exact ordinary_idle regrdTaken s (takeReady_none _ regrdRun empty)
  · exact linked_idle _ s (takeReady_none _ tableRun empty) link

/-- Settles O29: REGWR and TABLE through a packet's write of LANE and its end, REGRD through a read and its answer. -/
theorem controlPacketsExecute : Obligations.ControlPacketsExecute :=
  ⟨regwr_clause, fun s x l r front type other one _ on lane found => table_clause s x l r front type other one on lane found,
    fun s x l front type one placed on _ free lane quiet => regrd_clause s x l front type one placed on free lane quiet,
    regrd_refused_clause, control_idle_clause⟩

end Sys2Proof.Machine
end

section
/-! PROOF. Two statements of the traffic chapter that fail. DOWN_PACKET_RX (O27): the statement takes as the last SEQ executed any number, and one beyond
SEQ's 16 bits lies after every SEQ, so the packet next in order executes and is not noted (R75). ECHO_RX (O32): an ECHO can give the device a position, a
request of BYPASS that waited for one acts then (R24), and the by-pass switch takes the port out of UP, without its stamp (R61, R62). -/
namespace Sys2Proof.Machine

/-! DOWN_PACKET_RX with a last SEQ that no packet carries. -/

/-- A carriage whose ring ports are UP; the last SEQ executed stands at 131,072, two rounds of SEQ from 0. -/
def lastBeyond : State :=
  let s := [(F.CL_PSTAT_STATE 0, 6), (F.CL_PSTAT_STATE 1, 6)].foldl (fun s e => s.wr e.1 e.2) (State.fresh ⟨.carriage, 0, 1, 0x200⟩ [])
  { s with ring := { s.ring with last := some 131072 } }

/-- A REGWR of one word to every device of the ring, SEQ 1 (R67). -/
def nextRegwr : Copy := mkCopy 2 false 0 0x3F000000 1 (bytesBE 4 0x50000 ++ bytesBE 1 1 ++ List.replicate 11 0)

/-- The effect of DOWN_PACKET_RX. -/
def downTaken (p : Nat) (c : Copy) (s : State) : State := if c.up then s else packetRx s p c

theorem exec_downPacketRx (p : Fin 12) (c : Copy) (s : State) : exec (.downPacketRx p c) s = ordinary (downTaken p.val c) s := rfl

/-- The last SEQ executed stays through the end of a command. -/
theorem ordinary_last (f : State → State) {s t : State} (run : ordinary f s = .next t) : t.ring.last = (placed s (f s)).ring.last := by
  obtain rfl : _ = t := by simpa only [ordinary, Host.Outcome.next.injEq] using run
  exact (settle_reports s (placed s (f s))).ring_last

theorem lastBeyond_stays {t : State} (run : exec (.downPacketRx 0 nextRegwr) lastBeyond = .next t) : t.ring.last = some 131072 := by
  rw [exec_downPacketRx] at run
  rw [ordinary_last _ run]
  decide +kernel

/-- Refutes O27: the packet of SEQ 1, next after 131,072, executes, and 131,072 stays the last SEQ executed. -/
theorem not_downwardCopiesAreMergedAndForwarded : ¬ Obligations.DownwardCopiesAreMergedAndForwarded := by
  intro h
  obtain ⟨t, run, -, -, -, here⟩ := h.1 0 1 nextRegwr lastBeyond (by decide +kernel) (by decide +kernel) (by decide +kernel) (by decide +kernel)
    (by decide +kernel) (by decide +kernel)
  obtain ⟨-, ordered⟩ := here true (by decide +kernel) (by decide +kernel) (by decide +kernel)
  obtain ⟨-, -, last, -⟩ := ordered (by decide +kernel) (by decide +kernel) (by decide +kernel) (.inr ⟨131072, by decide +kernel, by decide +kernel⟩)
  have kept : t.ring.last = some 131072 := lastBeyond_stays run
  exact absurd (kept.symm.trans last) (by decide +kernel)

/-! ECHO_RX with a request that waits for a position. -/

/-- `upUnplaced` with ECHO on. -/
def echoUnplaced : State := upUnplaced.wr F.CL_ECHO_ECHO_INT 1

/-- An ECHO of stamp 0 from a neighbour at position 4 (R67, R85). -/
def neighbourEcho : Copy := mkCopy 10 false 0 0 0 (bytesBE 4 0 ++ bytesBE 4 0 ++ bytesBE 4 0 ++ bytesBE 1 4 ++ [0, 0, 0])

/-- The effect of ECHO_RX. -/
def echoTaken (p : Nat) (c : Copy) (t4 : Nat) (s : State) : State := echoRx s p c t4

theorem exec_echoRx (p : Fin 12) (c : Copy) (t4 : Word) (s : State) : exec (.echoRx p c t4) s = ordinary (echoTaken p.val c t4.toNat) s := rfl

/-- The ports of a device that owes no train of the filler stay through the end of a command. -/
theorem ordinary_ports (f : State → State) {s t : State} (run : ordinary f s = .next t) (quiet : NoTrain (placed s (f s))) :
    t.ports = (placed s (f s)).ports := by
  obtain rfl : _ = t := by simpa only [ordinary, Host.Outcome.next.injEq] using run
  exact (settle_reports s (placed s (f s))).ports quiet

/-- The request of BYPASS acts on the position that the ECHO gives: the port leaves UP, and its stamp is forgotten. -/
theorem echoUnplaced_forgets {t : State} (run : exec (.echoRx 0 neighbourEcho 5#32) echoUnplaced = .next t) : (t.port 0).lastStamp = none := by
  rw [exec_echoRx] at run
  rw [State.port, ordinary_ports _ run (by unfold NoTrain; decide +kernel), ← State.port]
  decide +kernel

/-- Refutes O32: the stamp and the sample of an ECHO are lost where it gives the position that a request of BYPASS waits for. -/
theorem not_echoAndSlots : ¬ Obligations.EchoAndSlots := by
  intro h
  obtain ⟨-, sampled, -⟩ := h
  obtain ⟨t, run, stamp, -⟩ := sampled 0 neighbourEcho 5#32 5 echoUnplaced (by decide +kernel) (by decide +kernel) (by decide +kernel) (by decide +kernel)
    (by decide +kernel) (by decide +kernel)
  have forgotten : (t.port 0).lastStamp = none := echoUnplaced_forgets run
  exact absurd (forgotten.symm.trans stamp) (by decide +kernel)

end Sys2Proof.Machine
end

section
/-! PROOF. A step of the chapter *Wall time* leaves the straps, the queue, the test port, the images and the position of the device (`OffTime`), so that as an
ordinary command it answers its effect but for reports; the wall tick of an idle step (O2; R89). -/
namespace Sys2Proof.Machine

/-- What no step of wall time reaches: the straps, the queue, the test port, the images and CL_MYPOS. -/
structure OffTime (s t : State) : Prop where
  strap : t.strap = s.strap
  pending : t.pending = s.pending
  tap : t.tap = s.tap
  upd : t.upd = s.upd
  position : t.reg R.CL_MYPOS = s.reg R.CL_MYPOS

section
variable {s t u : State}

theorem OffTime.refl (s : State) : OffTime s s := ⟨rfl, rfl, rfl, rfl, rfl⟩

theorem OffTime.trans (h : OffTime s t) (g : OffTime t u) : OffTime s u :=
  ⟨g.strap.trans h.strap, g.pending.trans h.pending, g.tap.trans h.tap, g.upd.trans h.upd, g.position.trans h.position⟩

theorem OffTime.of_link (h : LinkKeeps s t) : OffTime s t := ⟨h.strap, h.pending, h.tap, h.upd, h.reg _ linkBlock_myPos⟩

theorem OffTime.of_reports (h : Reports s t) : OffTime s t := .of_link (.of_reports h)

/-- A change of the clock. -/
theorem OffTime.of_wt (s : State) (wt : Wt) : OffTime s { s with wt := wt } := ⟨rfl, rfl, rfl, rfl, rfl⟩

/-- A word of another register than CL_MYPOS. -/
theorem OffTime.setReg (s : State) (a v : Nat) (h : R.CL_MYPOS ≠ a) : OffTime s (s.setReg a v) := ⟨rfl, rfl, rfl, rfl, s.reg_setReg_ne v h⟩

theorem OffTime.wr (s : State) (f : FRef) (v : Nat) (h : R.CL_MYPOS ≠ f.addr) : OffTime s (s.wr f v) := .setReg s f.addr _ h

theorem OffTime.ite {c : Prop} [Decidable c] (ht : OffTime s t) (hu : OffTime s u) : OffTime s (if c then t else u) := by
  split
  · exact ht
  · exact hu

theorem OffTime.mypos (h : OffTime s t) : t.on F.CL_MYPOS_VALID = s.on F.CL_MYPOS_VALID := by
  simp only [State.on, State.rd, h.position]

/-- An ordinary command that stays off these parts answers its effect but for reports, and sends what its effect sends first. -/
theorem OffTime.runs {f : State → State} (h : OffTime s (f s)) :
    ∃ t, ordinary f s = .next t ∧ Reports (f s) t ∧ (f s).out <+: t.out := by
  have place : (f s).on F.CL_MYPOS_VALID = true → s.on F.CL_MYPOS_VALID = true := h.mypos ▸ id
  obtain ⟨t, run, rep⟩ := ordinary_runs f s h.strap h.pending h.tap (by rw [h.upd]) place
  exact ⟨t, run, rep, ordinary_out f s t run place⟩

end

/-! The wall tick (R89). -/

/-- A wall tick moves the PTP clock alone. -/
theorem wallTicks_wt (s : State) (k : Nat) : wallTicks s k = { s with wt := (wallTicks s k).wt } := by
  unfold wallTicks
  split <;> rfl

theorem wallTicks_off (s : State) (k : Nat) : OffTime s (wallTicks s k) := by
  rw [wallTicks_wt]
  exact .of_wt s _

theorem countMs_reports (s : State) (before : Nat) : Reports s (countMs s before) := by
  unfold countMs
  split
  · exact .refl s
  · extract_lets s1 s2
    have mode : Reports s s1 := count_reports s _ 1
    have quiet : Reports s1 s2 := by
      unfold s2
      split
      · exact count_reports s1 54 1
      · exact .refl s1
    split
    · exact (mode.trans quiet).trans (count_reports s2 55 1)
    · exact mode.trans quiet

/-- After the clock has moved, the notices of an idle step keep local time. -/
theorem tick_keeps (s : State) : LinkKeeps (wallTicks { s with now := s.now + 4000 } 1) (tick s) :=
  ((cplTell_keeps _).trans (niTell_keeps _)).trans (.of_reports (countMs_reports _ s.now))

theorem tick_now (s : State) : (tick s).now = s.now + 4000 := by rw [(tick_keeps s).now, wallTicks_wt]

theorem tick_off (s : State) : OffTime s (tick s) := by
  have later : OffTime s { s with now := s.now + 4000 } := ⟨rfl, rfl, rfl, rfl, rfl⟩
  exact (later.trans (wallTicks_off _ 1)).trans (.of_link (tick_keeps s))

theorem step_idle {s : State} (idle : s.pending = []) : step s = ordinary tick s := by
  unfold step
  rw [idle]
  rfl

/-- Settles O2: an idle step is a wall tick, after which only notices and counts follow. -/
theorem idleStepTicks : Obligations.IdleStepTicks := by
  intro s idle
  obtain ⟨t, run, rep, -⟩ := (tick_off s).runs
  exact ⟨t, (step_idle idle).trans run, rep.now.trans (tick_now s), (rep.pending.trans (tick_off s).pending).trans idle⟩

end Sys2Proof.Machine
end

section
/-! PROOF. The wall clock is steered (O33; R89 to R91): a register of WT takes its word as `putWord` says, and after it follow the second look at what waits and
the rules of the pair, which keep the clock. -/
namespace Sys2Proof.Machine

/-! A register of WT (R7, R10, R118). -/

/-- What a word does, its report where a Q field was dropped included (R118). -/
def reportedPut (s : State) (a w : Nat) : State := if (putWord s a w false).2 then qReject (putWord s a w false).1 a else (putWord s a w false).1

/-- A write of a register of WT that no pair rule drops does what its word does, but for what follows of the pair and of what waits. -/
theorem regWrite_wt {s : State} {p : Access} {a : Nat} (w : Nat) (reach : reaches s p = true) (on : addrOn s.strap.role a = true) (block : a / 65536 = 7)
    (aligned : a % 4 = 0) (drop : p = .packet ∨ mirrored a = false ∨ hostDrop s = none) : LinkKeeps (reportedPut s a w) (regWrite s p a w) := by
  have picture : pictureAddr a = false := by
    simp only [pictureAddr, isWindow, Bool.or_eq_false_iff, Bool.and_eq_false_iff, decide_eq_false_iff_not]
    omega
  have put : putAdmitted s a w = putWord s a w false := if_neg (by rintro rfl; simp at block)
  have bus := busWrite_admitted w on aligned drop picture
  rw [put] at bus
  exact bus.trans (regWrite_keeps reach a w)

theorem reportedPut_taken {s : State} {a w : Nat} {t : State} (put : putWord s a w false = (t, false)) : reportedPut s a w = t := by
  simp [reportedPut, put]

theorem reportedPut_dropped {s : State} {a w : Nat} {t : State} (put : putWord s a w false = (t, true)) : reportedPut s a w = qReject t a := by
  simp [reportedPut, put]

theorem qReject_off (s : State) (a : Nat) : OffTime s (qReject s a) :=
  (OffTime.of_reports (raise_reports s 0 _)).trans (.wr _ F.SYS_CSTAT_QREJ_CNT _ (by decide))

/-- A command that ends in a write of WT: what the word did, with the parts that no step of wall time reaches. -/
theorem ordinary_wt {f : State → State} {s u : State} (off : OffTime s u) (after : LinkKeeps u (f s)) : ∃ t, ordinary f s = .next t ∧ LinkKeeps u t := by
  obtain ⟨t, run, rep, -⟩ := (off.trans (.of_link after)).runs
  exact ⟨t, run, after.trans (.of_reports rep)⟩

/-- The clock of a device depends on the straps and WT_CTL (R93). -/
theorem ptpRuns_congr {s t : State} (strap : t.strap = s.strap) (ctl : t.reg R.WT_CTL = s.reg R.WT_CTL) : ptpRuns t = ptpRuns s := by
  simp only [ptpRuns, State.isStandalone, State.isSender, State.rd, strap, ctl]

/-- Generators are enabled by WT_RCFG (R91). -/
theorem wtEnabled_congr {s t : State} (cfg : ∀ n, t.reg (R.WT_RCFG n) = s.reg (R.WT_RCFG n)) : wtEnabled t = wtEnabled s := by
  simp only [wtEnabled, State.on, State.rd, cfg]

theorem linkBlock_wt {a : Nat} (h : a / 65536 = 7) (pair : a ≠ R.WT_PAIR) : ¬ linkBlock a := by
  simp only [linkBlock, not_or]
  omega

/-- A word of WT: live fields at once, S fields into the open set, and what follows. -/
theorem putWord_wt (s : State) {a : Nat} {r : RegSpec} {e : WordEffect} (w : Nat) (found : findReg a = some r) (block : a / 65536 = 7)
    (effect : busEffect s a r (admittedWord s a w) = e) :
    putWord s a w false = (wtWrote (written s a e) a (s.reg a) (if r.fields.any (fun f => f.app == .s) then 0 else e.acts), e.rej) := by
  have noBank : a ≠ R.PIX_BANK := by
    rintro rfl
    simp at block
  subst effect
  unfold putWord
  simp only [found, noBank, decide_false, Bool.false_and, Bool.false_eq_true, if_false, wrote, block]
  rfl

/-- A word without S fields leaves the open set. -/
theorem written_live (s : State) (a : Nat) {e : WordEffect} (none : e.smask = 0) : written s a e = s.setReg a e.live := if_pos none

/-! WT_INC (R89, R90). -/

/-- A whole word written as a field. -/
theorem setBits_word (x : Nat) {w : Nat} (h : w < 2 ^ 32) : setBits x 0 32 w % 2 ^ 32 = w := by
  have field := bits_setBits x 0 32 w
  simp only [bits, Nat.shiftRight_zero] at field
  rw [field, Nat.mod_eq_of_lt h]

theorem bits_word {w : Nat} (h : w < 2 ^ 32) : bits w 0 32 = w := by
  simp only [bits, Nat.shiftRight_zero, Nat.mod_eq_of_lt h]

theorem findReg_inc : findReg R.WT_INC = some ⟨0x70004, [], [⟨0, 32, .rw, .l, 0x40000000, none, false⟩]⟩ := by decide

/-- The device with a word in WT_INC. -/
def incHeld (s : State) (w : Nat) : State := s.setReg R.WT_INC (setBits (s.reg R.WT_INC) 0 32 w)

theorem incHeld_reg (s : State) {w : Nat} (h : w < 2 ^ 32) : (incHeld s w).reg R.WT_INC = w := by
  rw [incHeld, State.reg_setReg_same, setBits_word _ h]

theorem wtWrote_inc (s : State) (old acts : Nat) : wtWrote s R.WT_INC old acts = incWrite s (s.reg R.WT_INC) old := by
  have other : R.WT_INC ≠ R.WT_CTL := by decide
  simp only [wtWrote, other, if_false, if_true]

theorem putWord_inc (s : State) {w : Nat} (h : w < 2 ^ 32) : putWord s R.WT_INC w false = (incWrite (incHeld s w) w (s.reg R.WT_INC), false) := by
  have effect : busEffect s R.WT_INC ⟨0x70004, [], [⟨0, 32, .rw, .l, 0x40000000, none, false⟩]⟩ (admittedWord s R.WT_INC w) =
      ⟨setBits (s.reg R.WT_INC) 0 32 (bits w 0 32), 0, 0, 0, false⟩ := rfl
  rw [putWord_wt s w findReg_inc (by simp) effect, written_live s _ rfl, bits_word h, wtWrote_inc, ← incHeld, incHeld_reg s h]

/-- The increment within LIM ppm of 4000_0000h (R89). -/
def incClamped (s : State) (v : Nat) : Nat :=
  clamp (0x40000000 - 0x40000000 * s.rd F.WT_INC_LIM_LIM / 1000000) (0x40000000 + 0x40000000 * s.rd F.WT_INC_LIM_LIM / 1000000) v

/-- WT_INC in a device whose clock does not run keeps its word (R93). -/
theorem incWrite_ignored {s : State} (v old : Nat) (stands : ptpRuns s = false) : incWrite s v old = s.setReg R.WT_INC old := by
  simp [incWrite, stands]

/-- The registers of the clamped increment, FREERUN of an expired watchdog ended (R90). -/
def incShown (s : State) (v : Nat) : State :=
  let t := (s.setReg R.WT_INC (incClamped s v)).wr F.WT_STAT_CLAMPED (b2n (incClamped s v != v))
  if s.wt.wdFree then t.wr F.WT_STAT_FREERUN 0 else t

/-- The increment that waits for the next wall tick, and the watchdog's note gone. -/
def incNoted (s : State) (v : Nat) : State := { incShown s v with wt := { s.wt with incNext := some (incClamped s v), wdFree := false } }

theorem incShown_wt (s : State) (v : Nat) : (incShown s v).wt = s.wt := by
  unfold incShown
  dsimp only
  split <;> rfl

/-- WT_INC where the clock runs (R89, R90). -/
theorem incWrite_runs {s : State} (v old : Nat) (clock : ptpRuns s = true) : Reports (incNoted s v) (incWrite s v old) := by
  have same : incWrite s v old = if incClamped s v = v then incNoted s v else raise (incNoted s v) 209 (d2 0 0 ++ bytesLE 4 v) := by
    have wt := incShown_wt s v
    simp only [incWrite, clock, Bool.not_true, Bool.false_eq_true, if_false, incNoted, ← wt]
    rfl
  rw [same]
  split
  · exact .refl _
  · exact raise_reports _ 209 _

theorem incShown_off (s : State) (v : Nat) : OffTime s (incShown s v) := by
  have shown : OffTime s ((s.setReg R.WT_INC (incClamped s v)).wr F.WT_STAT_CLAMPED (b2n (incClamped s v != v))) :=
    (OffTime.setReg s R.WT_INC _ (by decide)).trans (.wr _ F.WT_STAT_CLAMPED _ (by decide))
  exact .ite (shown.trans (.wr _ F.WT_STAT_FREERUN 0 (by decide))) shown

theorem incNoted_off (s : State) (v : Nat) : OffTime s (incNoted s v) := by
  have noted : OffTime (incShown s v) (incNoted s v) := ⟨rfl, rfl, rfl, rfl, rfl⟩
  exact (incShown_off s v).trans noted

/-- FREERUN stays but for the one that the watchdog set (R90). -/
theorem incShown_freerun (s : State) (v : Nat) : (incShown s v).on F.WT_STAT_FREERUN = (s.on F.WT_STAT_FREERUN && !s.wt.wdFree) := by
  have kept : ((s.setReg R.WT_INC (incClamped s v)).wr F.WT_STAT_CLAMPED (b2n (incClamped s v != v))).on F.WT_STAT_FREERUN = s.on F.WT_STAT_FREERUN := by
    rw [State.on, State.rd_wr_other _ F.WT_STAT_CLAMPED F.WT_STAT_FREERUN _ rfl (by decide) (by decide), State.rd, s.reg_setReg_ne _ (by decide)]
    rfl
  unfold incShown
  split
  · rename_i expired
    rw [State.on, State.rd_wr_same _ F.WT_STAT_FREERUN 0 (by decide)]
    simp [expired]
  · rename_i quiet
    simp [kept, quiet]

theorem incHeld_strap (s : State) (w : Nat) : (incHeld s w).strap = s.strap := by rw [incHeld, State.setReg_strap]
theorem incHeld_wt (s : State) (w : Nat) : (incHeld s w).wt = s.wt := by rw [incHeld, State.setReg_wt]
theorem incHeld_reg_ne (s : State) (w : Nat) {a : Nat} (h : a ≠ R.WT_INC) : (incHeld s w).reg a = s.reg a := by rw [incHeld, State.reg_setReg_ne _ _ h]
theorem incHeld_off (s : State) (w : Nat) : OffTime s (incHeld s w) := .setReg s R.WT_INC _ (by decide)
theorem incHeld_clock (s : State) (w : Nat) : ptpRuns (incHeld s w) = ptpRuns s := ptpRuns_congr (incHeld_strap s w) (incHeld_reg_ne s w (by decide))

theorem mirrored_inc : mirrored R.WT_INC = false := by decide

/-- WT_INC_WRITE by a path that reaches the device. -/
theorem wtIncWrite_runs {path : Access} {w : Word} {s u : State} (reach : reaches s path = true) (on : addrOn s.strap.role R.WT_INC = true)
    (off : OffTime s u) (taken : LinkKeeps u (incWrite (incHeld s w.toNat) w.toNat (s.reg R.WT_INC))) :
    ∃ t, exec (.wtIncWrite path w) s = .next t ∧ LinkKeeps u t := by
  have put := reportedPut_taken (putWord_inc s w.isLt)
  have bus := regWrite_wt w.toNat reach on (by simp) (by decide) (.inr (.inl mirrored_inc))
  rw [put] at bus
  exact ordinary_wt off (taken.trans bus)

/-- WT_INC_WRITE where the clock runs. -/
theorem wtIncWrite_steers (path : Access) (w : Word) (s : State) (reach : reaches s path = true) (on : addrOn s.strap.role R.WT_INC = true)
    (clock : ptpRuns s = true) :
    Runs (.wtIncWrite path w) s fun t => t.wt.incNext = some (incClamped s w.toNat) ∧ t.wt.ptp = s.wt.ptp ∧ t.wt.inc = s.wt.inc ∧ t.wt.wdFree = false ∧
      t.on F.WT_STAT_FREERUN = (s.on F.WT_STAT_FREERUN && !s.wt.wdFree) := by
  have taken := incWrite_runs w.toNat (s.reg R.WT_INC) ((incHeld_clock s w.toNat).trans clock)
  obtain ⟨t, run, link⟩ := wtIncWrite_runs reach on ((incHeld_off s _).trans (incNoted_off _ w.toNat)) (.of_reports taken)
  have limit : incClamped (incHeld s w.toNat) w.toNat = incClamped s w.toNat := by
    simp only [incClamped, State.rd, incHeld_reg_ne s w.toNat (a := R.WT_INC_LIM) (by decide)]
  have wt : t.wt = { s.wt with incNext := some (incClamped s w.toNat), wdFree := false } := by rw [link.wt, incNoted, limit, incHeld_wt]
  have free : t.on F.WT_STAT_FREERUN = (incShown (incHeld s w.toNat) w.toNat).on F.WT_STAT_FREERUN := by
    simp only [State.on, State.rd, link.reg R.WT_STAT (linkBlock_wt (by simp) (by decide))]
    rfl
  have before : (incHeld s w.toNat).on F.WT_STAT_FREERUN = s.on F.WT_STAT_FREERUN := by
    simp only [State.on, State.rd, incHeld_reg_ne s w.toNat (a := R.WT_STAT) (by decide)]
  exact ⟨t, run, by rw [wt], by rw [wt], by rw [wt], by rw [wt], by rw [free, incShown_freerun, before, incHeld_wt]⟩

/-- WT_INC_WRITE where the clock does not run. -/
theorem wtIncWrite_ignored (path : Access) (w : Word) (s : State) (reach : reaches s path = true) (on : addrOn s.strap.role R.WT_INC = true)
    (stands : ptpRuns s = false) : Runs (.wtIncWrite path w) s fun t => t.wt = s.wt ∧ t.reg R.WT_INC = s.reg R.WT_INC := by
  have taken : LinkKeeps ((incHeld s w.toNat).setReg R.WT_INC (s.reg R.WT_INC)) (incWrite (incHeld s w.toNat) w.toNat (s.reg R.WT_INC)) := by
    rw [incWrite_ignored _ _ ((incHeld_clock s _).trans stands)]
    exact .refl _
  obtain ⟨t, run, link⟩ := wtIncWrite_runs reach on ((incHeld_off s _).trans (.setReg _ R.WT_INC _ (by decide))) taken
  refine ⟨t, run, ?_, ?_⟩
  · rw [link.wt, State.setReg_wt, incHeld_wt]
  · rw [link.reg R.WT_INC (linkBlock_wt (by simp) (by decide)), State.reg_setReg_same, Nat.mod_eq_of_lt (s.reg_lt _)]

/-! WT_STEP (R91). -/

/-- A write-only Q field of a whole word: an action while no generator is enabled, dropped while one is (R91, R118). -/
def stepSpec (base : Nat) : RegSpec := ⟨base, [], [⟨0, 32, .wo, .q, 0, none, false⟩]⟩

theorem findReg_stepLo : findReg R.WT_STEP_LO = some (stepSpec R.WT_STEP_LO) := by decide
theorem findReg_stepHi : findReg R.WT_STEP_HI = some (stepSpec R.WT_STEP_HI) := by decide

theorem blockDisabled_wt (s : State) {a : Nat} (block : a / 65536 = 7) : blockDisabled s a = !(wtEnabled s) := by
  simp only [blockDisabled, block]

theorem admittedWord_wt (s : State) {a : Nat} (w : Nat) (block : a / 65536 = 7) (ctl : a ≠ R.WT_CTL) : admittedWord s a w = w := by
  simp only [admittedWord, block, ctl, decide_false, Bool.false_and, Bool.false_eq_true, if_false]

/-- A word of WT_STEP (R91, R118). -/
theorem putWord_step (s : State) {a w : Nat} (found : findReg a = some (stepSpec a)) (block : a / 65536 = 7) (ctl : a ≠ R.WT_CTL) (h : w < 2 ^ 32) :
    putWord s a w false = (wtWrote (s.setReg a (s.reg a)) a (s.reg a) (if wtEnabled s then 0 else w), wtEnabled s) := by
  have effect : busEffect s a (stepSpec a) (admittedWord s a w) = ⟨s.reg a, 0, 0, if wtEnabled s then 0 else w, wtEnabled s⟩ := by
    rw [admittedWord_wt s w block ctl, busEffect, blockDisabled_wt s block, Bool.not_not]
    cases wtEnabled s <;> simp [wordEffect, fieldEffect, stepSpec, bits_word h]
  rw [putWord_wt s w found block effect, written_live s a rfl]
  rfl

/-- What a write of a step does where no generator is enabled (R91). -/
def stepTaken (s : State) (a w : Nat) : State := if a = R.WT_STEP_LO then { s with wt := { s.wt with stepLo := w } } else stepWrite s w

theorem wtWrote_step {a : Nat} (step : a = R.WT_STEP_LO ∨ a = R.WT_STEP_HI) (s : State) (old acts : Nat) :
    wtWrote s a old acts = if wtEnabled s then s else stepTaken s a acts := by
  rcases step with rfl | rfl <;> rfl

/-- A write of a step changes the clock alone, and by the clock alone. -/
theorem stepTaken_wt {s t : State} (wt : t.wt = s.wt) (clock : ptpRuns t = ptpRuns s) (a w : Nat) :
    stepTaken t a w = { t with wt := (stepTaken s a w).wt } := by
  unfold stepTaken stepWrite
  rw [wt, clock]
  split
  · rfl
  · cases ptpRuns s with
    | true => rfl
    | false =>
      rw [if_neg Bool.false_ne_true, if_neg Bool.false_ne_true, ← wt]

/-- What a write of a step leaves alone beside the clock: the registers of WT and of the ports (R13, R91). -/
structure StepKeeps (s t : State) : Prop extends OffTime s t where
  reg : ∀ a, a / 65536 = 6 ∨ a / 65536 = 7 → a ≠ R.WT_PAIR → t.reg a = s.reg a

theorem StepKeeps.trans {s t u : State} (h : StepKeeps s t) (g : StepKeeps t u) : StepKeeps s u where
  toOffTime := h.toOffTime.trans g.toOffTime
  reg := fun a block pair => (g.reg a block pair).trans (h.reg a block pair)

theorem StepKeeps.of_link {s t : State} (h : LinkKeeps s t) : StepKeeps s t where
  toOffTime := .of_link h
  reg := fun a block pair => h.reg a (by simp only [linkBlock, not_or]; omega)

theorem StepKeeps.of_wt (s : State) (wt : Wt) : StepKeeps s { s with wt := wt } := ⟨⟨rfl, rfl, rfl, rfl, rfl⟩, fun _ _ _ => rfl⟩

/-- A register written with its own word. -/
theorem StepKeeps.same (s : State) (a : Nat) : StepKeeps s (s.setReg a (s.reg a)) := by
  have word : ∀ b, (s.setReg a (s.reg a)).reg b = s.reg b := fun b => by
    by_cases h : b = a
    · rw [h, State.reg_setReg_same, Nat.mod_eq_of_lt (s.reg_lt a)]
    · exact s.reg_setReg_ne _ h
  exact ⟨⟨rfl, rfl, rfl, rfl, word _⟩, fun b _ _ => word b⟩

theorem StepKeeps.rejected (s : State) (a : Nat) : StepKeeps s (qReject s a) where
  toOffTime := qReject_off s a
  reg := fun b block _ => qReject_reg s a (by rintro rfl; simp at block)

theorem StepKeeps.enabled {s t : State} (h : StepKeeps s t) : wtEnabled t = wtEnabled s :=
  wtEnabled_congr fun n => h.reg _ (.inr (by simp)) (by simp only [R.WT_RCFG, R.WT_PAIR]; omega)

theorem StepKeeps.clock {s t : State} (h : StepKeeps s t) : ptpRuns t = ptpRuns s :=
  ptpRuns_congr h.strap (h.reg _ (.inr (by simp)) (by decide))

theorem StepKeeps.reaches {s t : State} (h : StepKeeps s t) (p : Access) : reaches t p = reaches s p := by
  have port : ∀ q k, t.portIs q k = s.portIs q k := fun q k => by
    simp only [State.portIs, State.on, State.rd, h.reg (R.CL_PCFG q) (.inl (by simp)) (by simp only [R.CL_PCFG, R.WT_PAIR]; omega)]
  cases p <;> simp only [Machine.reaches, follows, State.isCarriage, State.isCoach, State.isSender, h.strap, port]

/-- A write of a step: taken while no generator is enabled, else dropped (R91, R118). -/
theorem regWrite_step {s : State} {p : Access} {a w : Nat} (step : a = R.WT_STEP_LO ∨ a = R.WT_STEP_HI) (h : w < 2 ^ 32) (reach : reaches s p = true)
    (on : addrOn s.strap.role a = true) :
    StepKeeps s (regWrite s p a w) ∧ (regWrite s p a w).wt = if wtEnabled s then s.wt else (stepTaken s a w).wt := by
  have found : findReg a = some (stepSpec a) := by
    rcases step with rfl | rfl
    · exact findReg_stepLo
    · exact findReg_stepHi
  have facts : a / 65536 = 7 ∧ a % 4 = 0 ∧ a ≠ R.WT_CTL ∧ mirrored a = false := by rcases step with rfl | rfl <;> decide
  obtain ⟨block, aligned, ctl, apart⟩ := facts
  have bus := regWrite_wt w reach on block aligned (.inr (.inl apart))
  have put := putWord_step s found block ctl h
  have same := StepKeeps.same s a
  rw [wtWrote_step step, same.enabled] at put
  cases enabled : wtEnabled s with
  | true =>
    simp only [enabled, if_true] at put
    rw [reportedPut_dropped put] at bus
    exact ⟨(same.trans (.rejected _ a)).trans (.of_link bus), bus.wt⟩
  | false =>
    simp only [enabled, Bool.false_eq_true, if_false] at put
    rw [reportedPut_taken put, stepTaken_wt (State.setReg_wt s a _) same.clock] at bus
    exact ⟨(same.trans (.of_wt _ _)).trans (.of_link bus), bus.wt⟩

/-- A device that has WT_STEP_LO has WT_STEP_HI. -/
theorem addrOn_step {r : Role} (on : addrOn r R.WT_STEP_LO = true) : addrOn r R.WT_STEP_HI = true := by
  revert on
  cases r <;> decide

/-- WT_STEP: both words, one after the other. -/
theorem wtStep_runs (path : Access) (lo hi : Word) (s : State) (reach : reaches s path = true) (on : addrOn s.strap.role R.WT_STEP_LO = true) :
    Runs (.wtStep path lo hi) s fun t => t.wt =
      if wtEnabled s then s.wt else if ptpRuns s then { s.wt with stepLo := lo.toNat, stepNext := some (signed (lo.toNat + 2 ^ 32 * hi.toNat) 64) }
      else { s.wt with stepLo := lo.toNat } := by
  obtain ⟨low, lowWt⟩ := regWrite_step (.inl rfl) lo.isLt reach on
  obtain ⟨high, highWt⟩ := regWrite_step (w := hi.toNat) (.inr rfl) hi.isLt ((low.reaches path).trans reach) (by rw [low.strap]; exact addrOn_step on)
  obtain ⟨t, run, rep, -⟩ := (low.trans high).toOffTime.runs (f := fun s => regWrite (regWrite s path R.WT_STEP_LO lo.toNat) path R.WT_STEP_HI hi.toNat)
  refine ⟨t, run, rep.wt.trans (highWt.trans ?_)⟩
  rw [low.enabled]
  cases enabled : wtEnabled s with
  | true => simp only [lowWt, enabled, if_true]
  | false =>
    have held : (regWrite s path R.WT_STEP_LO lo.toNat).wt = { s.wt with stepLo := lo.toNat } := by
      rw [lowWt, enabled, if_neg Bool.false_ne_true, stepTaken, if_pos rfl]
    have other : R.WT_STEP_HI ≠ R.WT_STEP_LO := by decide
    simp only [stepTaken, stepWrite, other, low.clock, if_false, Bool.false_eq_true]
    split <;> simp only [held]

/-! FREERUN (R90). -/

/-- WT_CTL (R90, R93). -/
def ctlSpec : RegSpec := ⟨0x70000, [], [⟨0, 2, .rw, .q, 0, none, false⟩, ⟨2, 1, .wo, .l, 0, none, false⟩, ⟨3, 1, .wo, .l, 0, none, false⟩]⟩

theorem findReg_ctl : findReg R.WT_CTL = some ctlSpec := by decide

/-- The bits that a word of WT_CTL keeps outside a sender (R93). -/
theorem keepBits_three (old w : Nat) : keepBits old w 3 = 4 * (w / 4) + old % 4 := by
  have low : ∀ x, x &&& 3 = x % 4 := fun x => Nat.and_two_pow_sub_one_eq_mod x 2
  have joined : 4 * (w / 4) ||| old % 4 = 4 * (w / 4) + old % 4 := (Nat.two_pow_add_eq_or_of_lt (i := 2) (Nat.mod_lt old (by decide)) (w / 4)).symm
  have high : w - w % 4 = 4 * (w / 4) := by omega
  rw [keepBits, low, low, high, joined]

/-- A word of WT_CTL that asks for SRC as it is: SRC as it was, in every role. -/
theorem admittedWord_ctl (s : State) {w : Nat} (src : bits w 0 2 = bits (s.reg R.WT_CTL) 0 2) :
    bits (admittedWord s R.WT_CTL w) 0 2 = bits (s.reg R.WT_CTL) 0 2 ∧ bits (admittedWord s R.WT_CTL w) 2 1 = bits w 2 1 ∧
      bits (admittedWord s R.WT_CTL w) 3 1 = bits w 3 1 := by
  have word : admittedWord s R.WT_CTL w = w ∨ admittedWord s R.WT_CTL w = keepBits (s.reg R.WT_CTL) w 3 := by
    simp only [admittedWord, R.WT_CTL_block]
    split
    · exact .inr rfl
    · exact .inl rfl
  rcases word with same | kept
  · rw [same]
    exact ⟨src, rfl, rfl⟩
  · rw [kept, keepBits_three]
    simp only [bits, Nat.shiftRight_eq_div_pow]
    omega

/-- FREERUN_SET and FREERUN_CLR as a word of WT_CTL asks for them. -/
def ctlActs (w : Nat) : Nat := bits w 2 1 * 2 ^ 2 + bits w 3 1 * 2 ^ 3

/-- The requests of a word of WT_CTL that leaves SRC. -/
theorem effect_ctl (s : State) {w : Nat} (src : bits w 0 2 = bits (s.reg R.WT_CTL) 0 2) :
    busEffect s R.WT_CTL ctlSpec (admittedWord s R.WT_CTL w) =
      ⟨setBits (s.reg R.WT_CTL) 0 2 (bits w 0 2), 0, 0, ctlActs w, false⟩ := by
  obtain ⟨mode, set, clr⟩ := admittedWord_ctl s src
  simp [busEffect, wordEffect, fieldEffect, ctlSpec, limited, ctlActs, mode, set, clr, src]

/-- The device with SRC of WT_CTL written as it was. -/
def srcHeld (s : State) : State := s.setReg R.WT_CTL (setBits (s.reg R.WT_CTL) 0 2 (bits (s.reg R.WT_CTL) 0 2))

theorem srcHeld_off (s : State) : OffTime s (srcHeld s) := .setReg s R.WT_CTL _ (by decide)
theorem srcHeld_wt (s : State) : (srcHeld s).wt = s.wt := by rw [srcHeld, State.setReg_wt]

/-- What the requests of WT_CTL do (R90). -/
def freerunTaken (s : State) (acts : Nat) : State :=
  let s1 := if bitAt acts 2 then setFreerun s 2 else s
  if bitAt acts 3 then clrFreerun s1 else s1

theorem wtWrote_ctl (s : State) (old acts : Nat) : wtWrote s R.WT_CTL old acts = freerunTaken s acts := by
  simp only [wtWrote, if_true]
  rfl

theorem putWord_ctl (s : State) {w : Nat} (src : bits w 0 2 = bits (s.reg R.WT_CTL) 0 2) :
    putWord s R.WT_CTL w false = (freerunTaken (srcHeld s) (ctlActs w), false) := by
  have noS : ctlSpec.fields.any (fun f => f.app == .s) = false := rfl
  rw [putWord_wt s w findReg_ctl (by simp) (effect_ctl s src), written_live s _ rfl, wtWrote_ctl, noS, if_neg Bool.false_ne_true, src, ← srcHeld]

/-- The state that sets FREERUN, for the watchdog (cause 1) or the host. -/
def freerunSet (s : State) (cause : Nat) : State := { s.wr F.WT_STAT_FREERUN 1 with wt := { s.wt with wdFree := s.wt.wdFree || cause == 1 } }

theorem setFreerun_reports (s : State) (cause : Nat) : Reports (freerunSet s cause) (setFreerun s cause) := raise_reports _ 208 _

theorem freerun_off (s : State) (v : Nat) (wt : Wt) : OffTime s { s.wr F.WT_STAT_FREERUN v with wt := wt } := by
  have shown : OffTime s (s.wr F.WT_STAT_FREERUN v) := .wr s _ v (by decide)
  exact shown.trans ⟨rfl, rfl, rfl, rfl, rfl⟩

/-- A write of WT_CTL with SRC as it is. -/
theorem ctlWrite_runs {path : Access} {s u : State} {f : FRef} {acts : Nat} (reach : reaches s path = true) (on : addrOn s.strap.role R.WT_CTL = true)
    (ctl : f.addr = R.WT_CTL) (src : bits (setBits (s.reg R.WT_CTL) f.lo f.w 1) 0 2 = bits (s.reg R.WT_CTL) 0 2)
    (asked : ctlActs (setBits (s.reg R.WT_CTL) f.lo f.w 1) = acts) (off : OffTime (srcHeld s) u) (taken : LinkKeeps u (freerunTaken (srcHeld s) acts)) :
    ∃ t, ordinary (fun s => fieldWrite s path f 1) s = .next t ∧ LinkKeeps u t := by
  have bus := regWrite_wt (setBits (s.reg R.WT_CTL) f.lo f.w 1) reach on (by simp) (by decide) (.inr (.inl (by decide)))
  rw [reportedPut_taken (putWord_ctl s src), asked] at bus
  refine ordinary_wt ((srcHeld_off s).trans off) (taken.trans ?_)
  rw [fieldWrite, ctl]
  exact bus

theorem freerun_shown {s t : State} {v : Nat} {wt : Wt} (link : LinkKeeps { s.wr F.WT_STAT_FREERUN v with wt := wt } t) :
    t.on F.WT_STAT_FREERUN = (v % 2 != 0) ∧ t.wt = wt := by
  refine ⟨?_, link.wt⟩
  rw [State.on, State.rd, link.reg R.WT_STAT (linkBlock_wt (by simp) (by decide))]
  exact congrArg (· != 0) (s.rd_wr_same F.WT_STAT_FREERUN v (by decide))

/-- FREERUN_SET by a path that reaches the device. -/
theorem freerunSet_sets (path : Access) (s : State) (reach : reaches s path = true) (on : addrOn s.strap.role R.WT_CTL = true)
    (noClr : s.on F.WT_CTL_FREERUN_CLR = false) : Runs (.freerunSet path) s fun t => t.on F.WT_STAT_FREERUN = true ∧ t.wt = s.wt := by
  have clr : bits (s.reg R.WT_CTL) 3 1 = 0 := by simpa [State.on, State.rd] using noClr
  have asked : ctlActs (setBits (s.reg R.WT_CTL) 2 1 1) = 4 := by simp [ctlActs, bits_setBits, bits_setBits_ne, clr]
  obtain ⟨t, run, link⟩ := ctlWrite_runs (f := F.WT_CTL_FREERUN_SET) reach on rfl (bits_setBits_ne _ _ _ _ _ _ (by decide)) asked (freerun_off _ 1 _)
    (.of_reports (setFreerun_reports _ 2))
  obtain ⟨set, wt⟩ := freerun_shown link
  exact ⟨t, run, set, wt.trans (by simp [srcHeld_wt])⟩

/-- FREERUN_CLR by a path that reaches the device. -/
theorem freerunClr_clears (path : Access) (s : State) (reach : reaches s path = true) (on : addrOn s.strap.role R.WT_CTL = true)
    (noSet : s.on F.WT_CTL_FREERUN_SET = false) :
    Runs (.freerunClr path) s fun t => t.on F.WT_STAT_FREERUN = false ∧ t.wt = { s.wt with wdFree := false } := by
  have set : bits (s.reg R.WT_CTL) 2 1 = 0 := by simpa [State.on, State.rd] using noSet
  have asked : ctlActs (setBits (s.reg R.WT_CTL) 3 1 1) = 8 := by simp [ctlActs, bits_setBits, bits_setBits_ne, set]
  have taken : LinkKeeps (clrFreerun (srcHeld s)) (freerunTaken (srcHeld s) 8) := .refl _
  obtain ⟨t, run, link⟩ := ctlWrite_runs (f := F.WT_CTL_FREERUN_CLR) reach on rfl (bits_setBits_ne _ _ _ _ _ _ (by decide)) asked (freerun_off _ 0 _) taken
  obtain ⟨clear, wt⟩ := freerun_shown link
  exact ⟨t, run, clear, wt.trans (by rw [State.wr_wt, srcHeld_wt])⟩

/-- The servo's watchdog expires where the clock runs and it is on, for the first time. -/
theorem servoWdExpire_frees (s : State) (clock : ptpRuns s = true) (wd : s.on F.WT_SERVO_SERVO_WD = true) (first : s.wt.wdFree = false) :
    Runs .servoWdExpire s (Reports { s.wr F.WT_STAT_FREERUN 1 with wt := { s.wt with wdFree := true } }) := by
  have taken : servoWd s = setFreerun s 1 := if_pos (by simp [clock, wd, first])
  have noted : Reports { s.wr F.WT_STAT_FREERUN 1 with wt := { s.wt with wdFree := true } } (servoWd s) := by
    have set := setFreerun_reports s 1
    rwa [freerunSet, first, ← taken] at set
  obtain ⟨t, run, rep, -⟩ := OffTime.runs ((freerun_off s 1 _).trans (.of_reports noted))
  exact ⟨t, run, noted.trans rep⟩

/-- Elsewhere it changes nothing. -/
theorem servoWdExpire_ignored (s : State) (h : ptpRuns s = false ∨ s.on F.WT_SERVO_SERVO_WD = false ∨ s.wt.wdFree = true) :
    Runs .servoWdExpire s (Reports s) :=
  ordinary_idle servoWd s (if_neg (by rcases h with h | h | h <;> simp [h]))

/-- Settles O33: each register of the clock takes its word, and what follows a write keeps the clock. -/
theorem wallClockIsSteered : Obligations.WallClockIsSteered := by
  refine ⟨fun path w s reach on => ⟨wtIncWrite_steers path w s reach on, wtIncWrite_ignored path w s reach on⟩, fun path lo hi s reach on => ?_,
    fun path s reach on => ⟨freerunSet_sets path s reach on, freerunClr_clears path s reach on⟩,
    fun s => ⟨servoWdExpire_frees s, servoWdExpire_ignored s⟩⟩
  obtain ⟨t, run, wt⟩ := wtStep_runs path lo hi s reach on
  refine ⟨fun clock disabled => ⟨t, run, wt.trans ?_⟩, fun enabled => ⟨t, run, wt.trans ?_⟩⟩
  · rw [disabled, clock, if_neg Bool.false_ne_true, if_pos rfl]
  · rw [enabled, if_pos rfl]

end Sys2Proof.Machine
end

section
/-! PROOF. Event inputs and ring generators (O34; R94 to R96, R98, R100): an accepted edge is stamped; a generator starts with the write of its EN; a copy of a
mark leaves every end of its ring that is UP, with the bytes of R98. -/
namespace Sys2Proof.Machine

/-! EVT_IN (R94). -/

/-- The stamp of an edge: wall time less the filter time of its pin. -/
def edgeStamp (s : State) (n : Nat) : Nat := stampNs s - bits (s.reg R.WT_EVTIN_CFG) (8 * n) 8 / 4 * 10

/-- The device with the stamp of an edge in WT_EVTIN_TS. -/
def edgeShown (s : State) (n : Nat) : State := s.wr64 (F.WT_EVTIN_TS_LO_TS n) (F.WT_EVTIN_TS_HI_TS n) (edgeStamp s n)

/-- The device with one more edge in the queue of the pin. -/
def edgeQueued (s : State) (n : Nat) : State :=
  { edgeShown s n with wt := { (edgeShown s n).wt with evtin := (edgeShown s n).wt.evtin.set 0 n (Table.get 0 s.wt.evtin n + 1) } }

/-- The device with one more edge lost. -/
def edgeLost (s : State) (n : Nat) : State := (edgeShown s n).bump ⟨R.WT_EVTIN_CNT, 8 * n, 8⟩ 1

/-- An edge that WT_EVTIN_CFG does not select. -/
theorem evtIn_ignored {s : State} {n : Nat} {rising : Bool} (off : bitAt (bits (s.reg R.WT_EVTIN_CFG) (8 * n) 8) (if rising then 0 else 1) = false) :
    evtIn s n rising = s := by
  simp only [evtIn, off, Bool.not_false, if_true]

/-- An edge that it selects counts where four are queued (R94). -/
theorem evtIn_full {s : State} {n : Nat} {rising : Bool} (on : bitAt (bits (s.reg R.WT_EVTIN_CFG) (8 * n) 8) (if rising then 0 else 1) = true)
    (full : 4 ≤ Table.get 0 s.wt.evtin n) : evtIn s n rising = raise (edgeLost s n) 218 (d2 n 0) := by
  simp only [evtIn, on, full, Bool.not_true, Bool.false_eq_true, if_false, if_true, edgeStamp, edgeShown, edgeLost]

/-- Else it is queued (R94). -/
theorem evtIn_room {s : State} {n : Nat} {rising : Bool} (on : bitAt (bits (s.reg R.WT_EVTIN_CFG) (8 * n) 8) (if rising then 0 else 1) = true)
    (room : ¬ 4 ≤ Table.get 0 s.wt.evtin n) :
    evtIn s n rising = raise (edgeQueued s n) (220 + n) (bytesLE 8 (edgeStamp s n) ++ bytesLE 1 (if rising then 1 else 2)) := by
  simp only [evtIn, on, room, Bool.not_true, Bool.false_eq_true, if_false, edgeStamp, edgeShown, edgeQueued]

/-- A 64-bit value reads as what was written. -/
theorem rd64_wr64 (s : State) {a b : Nat} (v : Nat) (h : a ≠ b) : (s.wr64 ⟨a, 0, 32⟩ ⟨b, 0, 32⟩ v).rd64 ⟨a, 0, 32⟩ ⟨b, 0, 32⟩ = v % 2 ^ 64 := by
  have low : ((s.wr ⟨a, 0, 32⟩ (v % 2 ^ 32)).wr ⟨b, 0, 32⟩ (v / 2 ^ 32)).rd ⟨a, 0, 32⟩ = v % 2 ^ 32 % 2 ^ 32 :=
    (State.rd_wr_ne _ ⟨b, 0, 32⟩ ⟨a, 0, 32⟩ _ h).trans (s.rd_wr_same ⟨a, 0, 32⟩ _ (Nat.le_refl 32))
  have high : ((s.wr ⟨a, 0, 32⟩ (v % 2 ^ 32)).wr ⟨b, 0, 32⟩ (v / 2 ^ 32)).rd ⟨b, 0, 32⟩ = v / 2 ^ 32 % 2 ^ 32 :=
    State.rd_wr_same _ ⟨b, 0, 32⟩ _ (Nat.le_refl 32)
  rw [State.rd64, State.wr64, low, high]
  omega

theorem wr64_reg_ne (s : State) {f g : FRef} (v : Nat) {a : Nat} (low : a ≠ f.addr) (high : a ≠ g.addr) : (s.wr64 f g v).reg a = s.reg a := by
  rw [State.wr64, State.reg_wr_ne _ g _ high, s.reg_wr_ne f _ low]

theorem edgeShown_reg (s : State) (n : Nat) {a : Nat} (h : a < 0x70080 ∨ 0x700A0 ≤ a) : (edgeShown s n).reg a = s.reg a :=
  wr64_reg_ne s _ (by simp only [R.WT_EVTIN_TS_LO]; omega) (by simp only [R.WT_EVTIN_TS_HI]; omega)

theorem edgeShown_stamp (s : State) (n : Nat) : (edgeShown s n).rd64 (F.WT_EVTIN_TS_LO_TS n) (F.WT_EVTIN_TS_HI_TS n) = edgeStamp s n % 2 ^ 64 :=
  rd64_wr64 s _ (by simp only [R.WT_EVTIN_TS_LO, R.WT_EVTIN_TS_HI]; omega)

theorem edgeShown_off (s : State) (n : Nat) : OffTime s (edgeShown s n) := by
  unfold edgeShown State.wr64
  exact (OffTime.wr s _ _ (by simp only [R.CL_MYPOS, R.WT_EVTIN_TS_LO]; omega)).trans (.wr _ _ _ (by simp only [R.CL_MYPOS, R.WT_EVTIN_TS_HI]; omega))

/-- The clock is no register. -/
theorem reg_withWt (s : State) (wt : Wt) (a : Nat) : ({ s with wt := wt } : State).reg a = s.reg a := rfl

theorem edgeQueued_reg (s : State) (n a : Nat) : (edgeQueued s n).reg a = (edgeShown s n).reg a := reg_withWt (edgeShown s n) _ a

theorem edgeShown_wt (s : State) (n : Nat) : (edgeShown s n).wt = s.wt := by rw [edgeShown, State.wr64_wt]

/-- The stamp depends on its two registers. -/
theorem rd64_congr {s t : State} {f g : FRef} (low : t.reg f.addr = s.reg f.addr) (high : t.reg g.addr = s.reg g.addr) : t.rd64 f g = s.rd64 f g := by
  simp only [State.rd64, State.rd, low, high]

/-- An edge that counts. -/
theorem evtInEdge_counts (n : Fin 4) (rising : Bool) (s : State)
    (on : bitAt (bits (s.reg R.WT_EVTIN_CFG) (8 * n.val) 8) (if rising then 0 else 1) = true) (full : 4 ≤ Table.get 0 s.wt.evtin n.val) :
    Runs (.evtInEdge n rising) s fun t =>
      t.rd64 (F.WT_EVTIN_TS_LO_TS n.val) (F.WT_EVTIN_TS_HI_TS n.val) = edgeStamp s n.val % 2 ^ 64 ∧ t.wt = s.wt ∧
      t.rd ⟨R.WT_EVTIN_CNT, 8 * n.val, 8⟩ = satAdd 8 (s.rd ⟨R.WT_EVTIN_CNT, 8 * n.val, 8⟩) 1 := by
  have taken : Reports (edgeLost s n.val) (evtIn s n.val rising) := by
    rw [evtIn_full on full]
    exact raise_reports _ 218 _
  have off : OffTime s (edgeLost s n.val) := (edgeShown_off s n.val).trans (.wr _ ⟨R.WT_EVTIN_CNT, 8 * n.val, 8⟩ _ (by decide : R.CL_MYPOS ≠ R.WT_EVTIN_CNT))
  obtain ⟨t, run, rep, -⟩ := OffTime.runs (f := fun s => evtIn s n.val rising) (off.trans (.of_reports taken))
  have rep := taken.trans rep
  have lost : ∀ {a : Nat}, a ≠ R.WT_EVTIN_CNT → (edgeLost s n.val).reg a = (edgeShown s n.val).reg a := fun h => State.reg_wr_ne _ _ _ h
  have count : (edgeShown s n.val).rd ⟨R.WT_EVTIN_CNT, 8 * n.val, 8⟩ = s.rd ⟨R.WT_EVTIN_CNT, 8 * n.val, 8⟩ := by
    simp only [State.rd, edgeShown_reg s n.val (a := R.WT_EVTIN_CNT) (by decide)]
  refine ⟨t, run, ?_, ?_, ?_⟩
  · rw [← edgeShown_stamp]
    exact rd64_congr ((rep.reg _).trans (lost (by simp only [R.WT_EVTIN_TS_LO, R.WT_EVTIN_CNT]; omega)))
      ((rep.reg _).trans (lost (by simp only [R.WT_EVTIN_TS_HI, R.WT_EVTIN_CNT]; omega)))
  · rw [rep.wt, edgeLost, State.bump_wt, edgeShown_wt]
  · rw [rep.rd, edgeLost, bump_rd _ _ _ (by dsimp only; omega), count]

/-- An edge that is queued. -/
theorem evtInEdge_queues (n : Fin 4) (rising : Bool) (s : State)
    (on : bitAt (bits (s.reg R.WT_EVTIN_CFG) (8 * n.val) 8) (if rising then 0 else 1) = true) (room : ¬ 4 ≤ Table.get 0 s.wt.evtin n.val) :
    Runs (.evtInEdge n rising) s fun t =>
      t.rd64 (F.WT_EVTIN_TS_LO_TS n.val) (F.WT_EVTIN_TS_HI_TS n.val) = edgeStamp s n.val % 2 ^ 64 ∧
      Table.get 0 t.wt.evtin n.val = Table.get 0 s.wt.evtin n.val + 1 ∧ t.reg R.WT_EVTIN_CNT = s.reg R.WT_EVTIN_CNT := by
  have taken : Reports (edgeQueued s n.val) (evtIn s n.val rising) := by
    rw [evtIn_room on room]
    exact raise_reports _ _ _
  have queued : OffTime (edgeShown s n.val) (edgeQueued s n.val) := .of_wt _ _
  obtain ⟨t, run, rep, -⟩ := OffTime.runs (f := fun s => evtIn s n.val rising) (((edgeShown_off s n.val).trans queued).trans (.of_reports taken))
  have rep := taken.trans rep
  have word : ∀ a, t.reg a = (edgeShown s n.val).reg a := fun a => (rep.reg a).trans (edgeQueued_reg s n.val a)
  refine ⟨t, run, ?_, ?_, (word _).trans (edgeShown_reg s n.val (by decide))⟩
  · rw [← edgeShown_stamp]
    exact rd64_congr (word _) (word _)
  · rw [rep.wt, edgeQueued, Table.get_set_same]

/-! The register of a generator (R95, R96). -/

/-- WT_RCFG (R96). -/
def rcfgSpec : RegSpec :=
  ⟨0x70100, [(8, 0x20)], [⟨0, 1, .rw, .l, 0, none, false⟩, ⟨8, 8, .rw, .s, 0x24, none, false⟩, ⟨16, 8, .rw, .s, 0x28, some (10, 160), false⟩]⟩

theorem findReg_rcfg : ∀ n : Fin 8, findReg (R.WT_RCFG n.val) = some rcfgSpec := by decide

/-- The effect of a word of WT_RCFG with EN = 1. -/
def rcfgEffect (s : State) (n w : Nat) : WordEffect := busEffect s (R.WT_RCFG n) rcfgSpec (admittedWord s (R.WT_RCFG n) (setBits w 0 1 1))

/-- It sets EN at once; RATE and LEAD wait for a commit (R115). -/
theorem rcfgEffect_live (s : State) (n w : Nat) :
    (rcfgEffect s n w).live = setBits (s.reg (R.WT_RCFG n)) 0 1 1 ∧ (rcfgEffect s n w).rej = false := by
  rw [rcfgEffect, admittedWord_wt s _ (by simp) (by simp only [R.WT_RCFG, R.WT_CTL]; omega)]
  have field : (busEffect s (R.WT_RCFG n) rcfgSpec (setBits w 0 1 1)).live = setBits (s.reg (R.WT_RCFG n)) 0 1 (bits (setBits w 0 1 1) 0 1) := rfl
  exact ⟨by rw [field, bits_setBits, Nat.mod_eq_of_lt (by decide)], rfl⟩

/-- What follows a write of WT_RCFG that raises EN (R96). -/
theorem wtWrote_rcfg (s : State) (n : Fin 8) (old acts : Nat) (rises : rose old (s.reg (R.WT_RCFG n.val)) = true) :
    wtWrote s (R.WT_RCFG n.val) old acts = rateChanged (genEnable s n.val) s n.val := by
  have offset : R.WT_RCFG n.val % 0x10000 = 0x100 + 32 * n.val := by
    simp only [R.WT_RCFG]
    omega
  have others : R.WT_RCFG n.val ≠ R.WT_CTL ∧ R.WT_RCFG n.val ≠ R.WT_INC ∧ R.WT_RCFG n.val ≠ R.WT_STEP_LO ∧ R.WT_RCFG n.val ≠ R.WT_STEP_HI := by
    simp only [R.WT_RCFG, R.WT_CTL, R.WT_INC, R.WT_STEP_LO, R.WT_STEP_HI]
    omega
  obtain ⟨ctl, inc, lo, hi⟩ := others
  have ring : (0x100 + 32 * n.val - 0x100) / 32 = n.val := by omega
  have inside : (decide (0x100 ≤ 0x100 + 32 * n.val) && decide (0x100 + 32 * n.val < 0x200) && decide ((0x100 + 32 * n.val) % 32 = 0)) = true := by
    simp only [Bool.and_eq_true, decide_eq_true_eq]
    omega
  simp only [wtWrote, ctl, inc, lo, hi, offset, ring, rises, if_false, if_true]
  exact if_pos (by simpa using inside)

/-- A device whose generator has EN = 1, with an open set. -/
def genOn (s : State) (n : Nat) (c : Commit) : State := { s.wr (F.WT_RCFG_EN n) 1 with commit := c }

theorem genOn_reg_ne (s : State) (n : Nat) (c : Commit) {a : Nat} (h : a ≠ R.WT_RCFG n) : (genOn s n c).reg a = s.reg a := s.reg_wr_ne _ _ h

theorem genOn_rate (s : State) (n : Nat) (c : Commit) : (genOn s n c).rd (F.WT_RCFG_RATE n) = s.rd (F.WT_RCFG_RATE n) :=
  s.rd_wr_other (F.WT_RCFG_EN n) (F.WT_RCFG_RATE n) 1 rfl (by simp) (.inr (by simp : 1 ≤ 8))

theorem genOn_lead (s : State) (n : Nat) (c : Commit) : (genOn s n c).rd (F.WT_RCFG_LEAD n) = s.rd (F.WT_RCFG_LEAD n) :=
  s.rd_wr_other (F.WT_RCFG_EN n) (F.WT_RCFG_LEAD n) 1 rfl (by simp) (.inr (by simp : 1 ≤ 16))

theorem genOn_on (s : State) (n : Nat) (c : Commit) : (genOn s n c).on (F.WT_RCFG_EN n) = true :=
  congrArg (· != 0) (s.rd_wr_same (F.WT_RCFG_EN n) 1 (by simp))

theorem genOn_off (s : State) (n : Nat) (c : Commit) : OffTime s (genOn s n c) :=
  ⟨rfl, rfl, rfl, rfl, genOn_reg_ne s n c (by simp only [R.CL_MYPOS, R.WT_RCFG]; omega)⟩

/-- The flywheel's period depends on the follower and the RATE that it hears (R107). -/
theorem flyPs_congr {s t : State} (wt : t.wt = s.wt) (mark : t.reg R.WT_FMARK = s.reg R.WT_FMARK) : flyPs t = flyPs s := by
  rw [flyPs, flyPs, wt, State.rd, State.rd, mark]

/-- The reconstructed wall time depends on the follower, the RATE that it hears and local time (R108). -/
theorem folTimeNs_congr {s t : State} (now : t.now = s.now) (wt : t.wt = s.wt) (mark : t.reg R.WT_FMARK = s.reg R.WT_FMARK) : folTimeNs t = folTimeNs s := by
  have rate : t.rd F.WT_FMARK_RATE = s.rd F.WT_FMARK_RATE := by rw [State.rd, State.rd, mark]
  rw [folTimeNs, folTimeNs, flyPs_congr wt mark, rate, wt, now]

/-- Wall time depends on the clock, the follower's marks and local time (R93, R108). -/
theorem wallNs_congr {s t : State} (strap : t.strap = s.strap) (now : t.now = s.now) (wt : t.wt = s.wt) (ctl : t.reg R.WT_CTL = s.reg R.WT_CTL)
    (mark : t.reg R.WT_FMARK = s.reg R.WT_FMARK) : wallNs t = wallNs s := by
  have src : t.rd F.WT_CTL_SRC = s.rd F.WT_CTL_SRC := by rw [State.rd, State.rd, ctl]
  rw [wallNs, wallNs, folTimeNs_congr now wt mark, src, wt, State.isStandalone, State.isStandalone, State.isSender, State.isSender, strap]

theorem genOn_wallNs (s : State) (n : Nat) (c : Commit) : wallNs (genOn s n c) = wallNs s :=
  wallNs_congr rfl rfl rfl (genOn_reg_ne s n c (by simp only [R.WT_CTL, R.WT_RCFG]; omega)) (genOn_reg_ne s n c (by simp only [R.WT_FMARK, R.WT_RCFG]; omega))

/-- The word of WT_RCFG as it is written. -/
theorem rcfgWritten_eq (s : State) (n w : Nat) : ∃ c, written s (R.WT_RCFG n) (rcfgEffect s n w) = genOn s n c := by
  have word : (rcfgEffect s n w).live = setBits (s.reg (R.WT_RCFG n)) 0 1 1 := (rcfgEffect_live s n w).1
  unfold written openWrite
  rw [word]
  split
  · exact ⟨s.commit, rfl⟩
  · exact ⟨_, rfl⟩

theorem genOn_rises (s : State) (n : Nat) (c : Commit) (off : s.on (F.WT_RCFG_EN n) = false) :
    rose (s.reg (R.WT_RCFG n)) ((genOn s n c).reg (R.WT_RCFG n)) = true := by
  have bit : ∀ t : State, bitAt (t.reg (R.WT_RCFG n)) 0 = t.on (F.WT_RCFG_EN n) := fun t => by
    rw [bitAt, Nat.testBit_zero, State.on, State.rd, bits, Nat.shiftRight_zero]
    rcases Nat.mod_two_eq_zero_or_one (t.reg (R.WT_RCFG n)) with zero | one
    · simp [zero]
    · simp [one]
  rw [rose, bit s, bit (genOn s n c), off, genOn_on]
  rfl

/-! The generator (R95, R96). -/

theorem showUsed_keeps (s : State) : LinkKeeps s (showUsed s) := .wr s F.CMP_STAT_USED _ (by simp [linkBlock])

theorem recheckMaps_keeps (s : State) : LinkKeeps s (recheckMaps s) := by
  refine (LinkKeeps.forIdx (fun s r => ?_) 8 s).trans (showUsed_keeps _)
  exact .ite (.refl s) (.ite (raise_keeps s 286 _) (.ite (raise_keeps s 286 _) (.refl s)))

/-- A rate that changed re-runs the checks of R178 alone. -/
theorem rateChanged_keeps (t s : State) (n : Nat) : LinkKeeps t (rateChanged t s n) := .ite (.refl t) (recheckMaps_keeps t)

/-- What GENERATOR_ENABLE does where EN was 0. -/
theorem generatorEnable_runs (path : Access) (n : Fin 8) (w : Word) (s : State) (reach : reaches s path = true)
    (on : addrOn s.strap.role (R.WT_RCFG n.val) = true) (drop : path = .packet ∨ hostDrop s = none) (was : s.on (F.WT_RCFG_EN n.val) = false) :
    ∃ c, ∀ u, OffTime (genOn s n.val c) u → LinkKeeps u (genEnable (genOn s n.val c) n.val) →
      ∃ t, exec (.generatorEnable path n w) s = .next t ∧ LinkKeeps u t := by
  obtain ⟨c, word⟩ := rcfgWritten_eq s n.val w.toNat
  have put := putWord_wt s (setBits w.toNat 0 1 1) (findReg_rcfg n) (by simp) rfl
  rw [← rcfgEffect, (rcfgEffect_live s n.val w.toNat).2, word, wtWrote_rcfg _ n _ _ (genOn_rises s n.val c was)] at put
  have bus := regWrite_wt (setBits w.toNat 0 1 1) reach on (by simp) (by simp only [R.WT_RCFG]; omega) (drop.imp id .inr)
  rw [reportedPut_taken put] at bus
  refine ⟨c, fun u off taken => ?_⟩
  exact ordinary_wt (f := fun s => regWrite s path (R.WT_RCFG n.val) (setBits w.toNat 0 1 1)) ((genOn_off s n.val c).trans off)
    ((taken.trans (rateChanged_keeps _ _ _)).trans bus)

theorem gen_setGen_same (s : State) (n : Nat) (g : Gen) : (s.setGen n g).gen n = g := Table.get_set_same ..

theorem gen_congr {s t : State} (wt : t.wt = s.wt) (n : Nat) : t.gen n = s.gen n := by rw [State.gen, State.gen, wt]

/-- A generator that starts with `c` as its first frame, at the rate `code`. -/
def genStart (s : State) (n code c : Nat) : State := s.setGen n { Gen.init with started := true, next := c, mark := c, markRate := code, rate := code }

theorem genStart_gen (s : State) (n code c : Nat) :
    (genStart s n code c).gen n = { Gen.init with started := true, next := c, mark := c, markRate := code, rate := code } := gen_setGen_same s n _

/-- A defined rate starts the generator (R95, R96). -/
theorem genEnable_starts {s : State} {n : Nat} (defined : (rateFrac (s.rd (F.WT_RCFG_RATE n))).isSome = true) :
    genEnable s n =
      showGen (genStart s n (s.rd (F.WT_RCFG_RATE n)) (firstCount (s.rd (F.WT_RCFG_RATE n)) (wallNs s + s.rd (F.WT_RCFG_LEAD n) * 50000))) n := by
  unfold genEnable
  dsimp only
  split
  · next reserved =>
    rw [reserved] at defined
    cases defined
  · rfl

/-- A reserved rate leaves it stopped (R95). -/
theorem genEnable_stops {s : State} {n : Nat} (reserved : rateFrac (s.rd (F.WT_RCFG_RATE n)) = none) :
    genEnable s n = raise (s.setGen n { s.gen n with started := false }) 219 (d2 n (s.rd (F.WT_RCFG_RATE n))) := by
  unfold genEnable
  dsimp only
  split
  · rfl
  · next defined =>
    rw [reserved] at defined
    cases defined

theorem showGen_wt (s : State) (n : Nat) : (showGen s n).wt = s.wt := by
  unfold showGen
  dsimp only
  rw [State.wr64_wt, State.wr_wt, State.wr_wt]

/-- WT_RFRAME and WT_RFLIP alone are written. -/
theorem showGen_reg (s : State) (n : Nat) {a : Nat} (frameLo : a ≠ R.WT_RFRAME_LO n) (frameHi : a ≠ R.WT_RFRAME_HI n) (flipLo : a ≠ R.WT_RFLIP_LO n)
    (flipHi : a ≠ R.WT_RFLIP_HI n) : (showGen s n).reg a = s.reg a := by
  unfold showGen
  dsimp only
  rw [wr64_reg_ne _ _ flipLo flipHi, State.reg_wr_ne _ _ _ frameHi, State.reg_wr_ne _ _ _ frameLo]

theorem showGen_cfg (s : State) (n : Nat) : (showGen s n).reg (R.WT_RCFG n) = s.reg (R.WT_RCFG n) :=
  showGen_reg s n (by simp only [R.WT_RCFG, R.WT_RFRAME_LO]; omega) (by simp only [R.WT_RCFG, R.WT_RFRAME_HI]; omega)
    (by simp only [R.WT_RCFG, R.WT_RFLIP_LO]; omega) (by simp only [R.WT_RCFG, R.WT_RFLIP_HI]; omega)

theorem showGen_off (s : State) (n : Nat) : OffTime s (showGen s n) := by
  unfold showGen State.wr64
  exact (((OffTime.wr s _ _ (by simp only [R.CL_MYPOS, R.WT_RFRAME_LO]; omega)).trans (.wr _ _ _ (by simp only [R.CL_MYPOS, R.WT_RFRAME_HI]; omega))).trans
    (.wr _ _ _ (by simp only [R.CL_MYPOS, R.WT_RFLIP_LO]; omega))).trans (.wr _ _ _ (by simp only [R.CL_MYPOS, R.WT_RFLIP_HI]; omega))

theorem setGen_off (s : State) (n : Nat) (g : Gen) : OffTime s (s.setGen n g) := .of_wt s _

theorem linkBlock_rcfg (n : Fin 8) : ¬ linkBlock (R.WT_RCFG n.val) :=
  linkBlock_wt (by simp only [R.WT_RCFG]; omega) (by simp only [R.WT_RCFG, R.WT_PAIR]; omega)

section
variable {path : Access} {n : Fin 8} {w : Word} {s : State} (reach : reaches s path = true) (on : addrOn s.strap.role (R.WT_RCFG n.val) = true)
  (drop : path = .packet ∨ hostDrop s = none) (was : s.on (F.WT_RCFG_EN n.val) = false)
include reach on drop was

/-- GENERATOR_ENABLE with a defined RATE (R95, R96). -/
theorem generatorEnable_starts (defined : (rateFrac (s.rd (F.WT_RCFG_RATE n.val))).isSome = true) : Runs (.generatorEnable path n w) s fun t =>
    genRuns t n.val = true ∧ (t.gen n.val).rate = s.rd (F.WT_RCFG_RATE n.val) ∧
    (t.gen n.val).next = firstCount (s.rd (F.WT_RCFG_RATE n.val)) (wallNs s + t.rd (F.WT_RCFG_LEAD n.val) * 50000) := by
  obtain ⟨c, runs⟩ := generatorEnable_runs path n w s reach on drop was
  have starts := genEnable_starts (s := genOn s n.val c) (n := n.val) (by rwa [genOn_rate])
  rw [genOn_wallNs, genOn_rate, genOn_lead] at starts
  rw [starts] at runs
  obtain ⟨t, run, link⟩ := runs _ ((setGen_off _ _ _).trans (showGen_off _ _)) (.refl _)
  have word : t.reg (R.WT_RCFG n.val) = (genOn s n.val c).reg (R.WT_RCFG n.val) := (link.reg _ (linkBlock_rcfg n)).trans (showGen_cfg _ _)
  have gen := (gen_congr (link.wt.trans (showGen_wt _ _)) n.val).trans (genStart_gen _ _ _ _)
  have enabled : t.on (F.WT_RCFG_EN n.val) = true := by
    rw [← genOn_on s n.val c, State.on, State.on, State.rd, State.rd, word]
  have lead : t.rd (F.WT_RCFG_LEAD n.val) = s.rd (F.WT_RCFG_LEAD n.val) := by
    rw [← genOn_lead s n.val c, State.rd, State.rd, word]
  have running : genRuns t n.val = true := by
    rw [genRuns, enabled, gen]
    rfl
  exact ⟨t, run, running, by rw [gen], by rw [gen, lead]⟩

/-- GENERATOR_ENABLE with a reserved RATE (R95). -/
theorem generatorEnable_stops (reserved : rateFrac (s.rd (F.WT_RCFG_RATE n.val)) = none) :
    Runs (.generatorEnable path n w) s fun t => genRuns t n.val = false := by
  obtain ⟨c, runs⟩ := generatorEnable_runs path n w s reach on drop was
  have stops := genEnable_stops (s := genOn s n.val c) (n := n.val) (by rwa [genOn_rate])
  rw [stops] at runs
  obtain ⟨t, run, link⟩ := runs _ (setGen_off _ _ _) (raise_keeps _ 219 _)
  have stopped : genRuns t n.val = false := by
    rw [genRuns, gen_congr link.wt, gen_setGen_same]
    exact Bool.and_false _
  exact ⟨t, run, stopped⟩

end

end Sys2Proof.Machine
end

section
/-! PROOF. BUGLE_SEND (O34; R98, R100): what the generator becomes, where its runs leave and the bytes of a run. -/
namespace Sys2Proof.Machine

/-! The bytes of a run (R98). -/

/-- A run has 32 bytes; its frame count and CORR read back modulo their size. -/
theorem length_bugleBytes (flags frame flip corr rate lead commit rep : Nat) : (bugleBytes flags frame flip corr rate lead commit rep).length = 32 := by
  simp only [bugleBytes, List.length_append, length_bytesBE, List.length_cons, List.length_nil]

theorem beAt_bugleBytes_frame (flags frame flip corr rate lead commit rep : Nat) :
    beAt (bugleBytes flags frame flip corr rate lead commit rep) 2 6 = frame % 2 ^ 48 := by
  have field := fun c => beAt_append ([0xA5#8] ++ bytesBE 1 flags) c 6 frame
  simp only [List.length_append, length_bytesBE, List.length_cons, List.length_nil, List.append_assoc] at field
  simp only [bugleBytes, List.append_assoc]
  exact field _

theorem beAt_bugleBytes_corr (flags frame flip corr rate lead commit rep : Nat) :
    beAt (bugleBytes flags frame flip corr rate lead commit rep) 20 4 = corr % 2 ^ 32 := by
  have field := fun c => beAt_append ([0xA5#8] ++ bytesBE 1 flags ++ bytesBE 6 frame ++ [0xA5#8] ++ bytesBE 1 (64 + rep / 1024) ++ bytesBE 6 (flip / 65536) ++
    [0xA5#8] ++ bytesBE 1 (128 + (rep / 16) % 64) ++ bytesBE 2 (flip % 65536)) c 4 corr
  simp only [List.length_append, length_bytesBE, List.length_cons, List.length_nil, List.append_assoc] at field
  simp only [bugleBytes, List.append_assoc]
  exact field _

/-! The generator before a copy (R100). -/

theorem forIdx_reports {f : State → Nat → State} (hf : ∀ s x, Reports s (f s x)) (n : Nat) (s : State) : Reports s (forIdx n s f) :=
  foldl_reports f (List.range n) (fun s x _ => hf s x) s

theorem tellHolds_reports (s : State) (commit rep : Nat) : Reports s (tellHolds s commit rep) := by
  refine forIdx_reports (fun u y => ?_) 16 s
  split
  · split
    · exact raise_reports u 229 _
    · exact .refl u
  · exact .refl u

/-- Before a copy only the generator changes: the frames whose fence has fallen are passed over (R100). -/
theorem markNext_gen (s : State) (n : Nat) (still : (s.gen n).turned = none) : ∃ g, Reports (s.setGen n g) (markNext s n) ∧
    g.mark = max (s.gen n).mark (s.gen n).next ∧ g.copy = (if (s.gen n).mark < (s.gen n).next then 0 else (s.gen n).copy) ∧
    g.newRate = (s.gen n).newRate ∧ g.markRate = (if (s.gen n).mark < (s.gen n).next then (s.gen n).rate else (s.gen n).markRate) := by
  unfold markNext
  dsimp only
  rw [still]
  by_cases passed : (s.gen n).mark < (s.gen n).next
  · simp only [passed, Option.isNone_none, Bool.true_and, decide_true, if_true]
    exact ⟨_, tellHolds_reports _ _ _, by dsimp only; omega, rfl, rfl, rfl⟩
  · simp only [passed, Option.isNone_none, Bool.true_and, decide_false, Bool.false_eq_true, if_false]
    split
    · exact ⟨_, tellHolds_reports _ _ _, by dsimp only; omega, rfl, rfl, rfl⟩
    · exact ⟨_, .refl _, by omega, rfl, rfl, rfl⟩

/-! The copy (R100). -/

/-- The next copy is due; after copy 2 the mark is the next frame's. -/
theorem markSent_copy {g : Gen} {k : Nat} {passed : Prop} [Decidable passed] (same : g.newRate = none) (copy : g.copy = if passed then 0 else k) :
    (markSent g).copy = if passed then 1 else if k < 2 then k + 1 else 0 := by
  unfold markSent
  rw [same]
  by_cases passed
  · next h => simp [h, copy]
  · next h =>
    by_cases more : k < 2
    · simp [h, copy, more]
    · simp [h, copy, more]

theorem advanceTo_off (s : State) (t : Nat) : OffTime s (advanceTo s t) := by
  unfold advanceTo
  split
  · exact .refl s
  · have later : OffTime s { s with now := t } := ⟨rfl, rfl, rfl, rfl, rfl⟩
    exact later.trans (wallTicks_off _ _)

theorem advanceTo_now (s : State) (t : Nat) : s.now ≤ (advanceTo s t).now := by
  unfold advanceTo
  split
  · exact Nat.le_refl _
  · next later =>
    rw [wallTicks_wt]
    exact Nat.le_of_not_ge later

/-- The run of a copy that leaves `late` ps after its nominal departure. -/
def markRun (g : Gen) (late : Nat) : List Byte :=
  bugleBytes g.flags (g.mark % 2 ^ 48) (flipOf g.markRate g.mark) (late + g.copy * 100000000) g.markRate g.lead g.commit g.rep

/-- Of a generator that does not run, or in a standalone device, no copy leaves. -/
theorem markSend_idle {s : State} {n low high mirror : Nat} (idle : genRuns s n = false ∨ s.isStandalone = true) : markSend s n low high mirror = s := by
  unfold markSend
  exact if_pos (by rcases idle with stopped | single <;> simp [*])

/-- A copy of a running generator: its runs leave, and the generator goes on. -/
theorem markSend_sends {s : State} {n : Nat} (low high mirror : Nat) (running : genRuns s n = true) (ring : s.isStandalone = false)
    (defined : (rateFrac ((markNext s n).gen n).markRate).isSome = true) (next : OffTime s (markNext s n)) (now : (markNext s n).now = s.now) :
    ∃ u, OffTime s u ∧ s.now ≤ u.now ∧ u.gen n = markSent ((markNext s n).gen n) ∧
      markSend s n low high mirror =
        { u with out := u.out ++ (markPorts (markNext s n) n low high mirror).map fun e => .bugle e.1 (markRun ((markNext s n).gen n) e.2) } := by
  have known : (rateFrac ((markNext s n).gen n).markRate).isNone = false := by
    rw [← Option.not_isSome, defined]
    rfl
  unfold markSend
  simp only [running, ring, known, Bool.not_true, Bool.or_false, Bool.false_eq_true, if_false]
  generalize markNext s n = s1 at *
  generalize Int.toNat _ = late
  have gone : OffTime s ((advanceTo s1 late).setGen n (markSent (s1.gen n))) := (next.trans (advanceTo_off s1 late)).trans (setGen_off _ _ _)
  have later : s.now ≤ ((advanceTo s1 late).setGen n (markSent (s1.gen n))).now := now ▸ advanceTo_now s1 late
  have sent := gen_setGen_same (advanceTo s1 late) n (markSent (s1.gen n))
  generalize (advanceTo s1 late).setGen n (markSent (s1.gen n)) = s2 at *
  split
  · next first =>
    have rep := trace_reports s2 2 (4 * bits (s1.gen n).flags 1 1 + 8 * bits (s1.gen n).flags 2 3) (bytesLE 6 (s1.gen n).mark)
    exact ⟨_, gone.trans (.of_reports rep), later.trans_eq rep.now.symm, (gen_congr rep.wt n).trans sent, rfl⟩
  · exact ⟨s2, gone, later, sent, rfl⟩

theorem ringEnds_reports {s t : State} (h : Reports s t) (r : Nat) : ringEnds t r = ringEnds s r := by
  simp only [Machine.ringEnds, State.portIs, h.on, h.rd]

theorem isUp_reports {s t : State} (h : Reports s t) (p : Nat) : t.isUp p = s.isUp p := by
  simp only [State.isUp, State.pst, h.rd]

/-- BUGLE_SEND of a running generator whose rate does not change (R98, R100). -/
theorem bugleSend_sends (n : Fin 8) (low high mirror : Word) (s : State) (running : genRuns s n.val = true) (ring : s.isStandalone = false)
    (same : (s.gen n.val).newRate = none) (still : (s.gen n.val).turned = none) (rate : (rateFrac (s.gen n.val).rate).isSome = true)
    (markRate : (rateFrac (s.gen n.val).markRate).isSome = true) :
    Runs (.bugleSend n low high mirror) s fun t =>
      (∀ e ∈ (ringEnds s n.val).zip [low.toNat, high.toNat], s.isUp e.1 = true → ∃ b, .bugle e.1 b ∈ t.out ∧ b.length = 32 ∧
        beAt b 2 6 = max (s.gen n.val).mark (s.gen n.val).next % 2 ^ 48 ∧
        beAt b 20 4 = (e.2 + (if (s.gen n.val).mark < (s.gen n.val).next then 0 else (s.gen n.val).copy) * 100000000) % 2 ^ 32) ∧
      (t.gen n.val).copy = (if (s.gen n.val).mark < (s.gen n.val).next then 1 else if (s.gen n.val).copy < 2 then (s.gen n.val).copy + 1 else 0) ∧
      s.now ≤ t.now := by
  obtain ⟨g, next, mark, copy, newRate, sentRate⟩ := markNext_gen s n.val still
  have gen : (markNext s n.val).gen n.val = g := (gen_congr next.wt n.val).trans (gen_setGen_same s n.val g)
  have defined : (rateFrac ((markNext s n.val).gen n.val).markRate).isSome = true := by
    rw [gen, sentRate]
    split
    · exact rate
    · exact markRate
  have before : OffTime s (markNext s n.val) := (setGen_off s n.val g).trans (.of_reports next)
  obtain ⟨u, off, now, sent, sends⟩ := markSend_sends low.toNat high.toNat mirror.toNat running ring defined before next.now
  rw [gen] at sent sends
  have gone : OffTime s (markSend s n.val low.toNat high.toNat mirror.toNat) := by
    rw [sends]
    exact off.trans ⟨rfl, rfl, rfl, rfl, rfl⟩
  obtain ⟨t, run, rep, out⟩ := OffTime.runs (f := fun s => markSend s n.val low.toNat high.toNat mirror.toNat) gone
  rw [sends] at rep out
  refine ⟨t, run, fun e inside up => ⟨markRun g e.2, ?_, length_bugleBytes .., ?_, ?_⟩, ?_, now.trans_eq rep.now.symm⟩
  · have leaves : e ∈ markPorts (markNext s n.val) n.val low.toNat high.toNat mirror.toNat := by
      rw [markPorts, ringEnds_reports next]
      exact List.mem_append_left _ (List.mem_filter.mpr ⟨inside, (isUp_reports next e.1).trans up⟩)
    exact out.subset (List.mem_append_right _ (List.mem_map_of_mem leaves))
  · rw [markRun, beAt_bugleBytes_frame, mark, Nat.mod_mod]
  · rw [markRun, beAt_bugleBytes_corr, copy]
  · rw [gen_congr rep.wt n.val]
    exact (congrArg Gen.copy sent).trans (markSent_copy (newRate.trans same) copy)

/-- Settles O34: each clause is the rule of its command. -/
theorem eventInputsAndGenerators : Obligations.EventInputsAndGenerators := by
  refine ⟨fun n rising s off => ?_, fun n rising s on => ?_, fun path n w s reach on drop was => ?_, fun n low high mirror s => ?_⟩
  · exact ordinary_idle (fun s => evtIn s n.val rising) s (evtIn_ignored off)
  · by_cases full : 4 ≤ Table.get 0 s.wt.evtin n.val
    · simp only [if_pos full]
      exact evtInEdge_counts n rising s on full
    · simp only [if_neg full]
      exact evtInEdge_queues n rising s on full
  · exact ⟨generatorEnable_starts reach on drop was, generatorEnable_stops reach on drop was⟩
  · exact ⟨bugleSend_sends n low high mirror s, fun idle => ordinary_idle (fun s => markSend s n.val low.toNat high.toNat mirror.toNat) s (markSend_idle idle)⟩

end Sys2Proof.Machine
end

section
/-! PROOF. What the first copy of a mark brings besides the mark itself (R109, R129, R205, R245): the Drive Link timing, a wake, a coach's decisions and
marks leave the follower and its registers alone (`CopyKeeps`). -/
namespace Sys2Proof.Machine

/-- What the first copy of a mark leaves alone: all that wall time leaves (`OffTime`), the follower, WT_FSTAT and WT_FMARK, and what was sent. -/
structure CopyKeeps (s t : State) : Prop where
  off : OffTime s t
  fol : t.wt.fol = s.wt.fol
  stat : t.reg R.WT_FSTAT = s.reg R.WT_FSTAT
  mark : t.reg R.WT_FMARK = s.reg R.WT_FMARK
  out : s.out <+: t.out

section
variable {s t u : State}

theorem CopyKeeps.refl (s : State) : CopyKeeps s s := ⟨.refl s, rfl, rfl, rfl, List.prefix_rfl⟩

theorem CopyKeeps.trans (h : CopyKeeps s t) (g : CopyKeeps t u) : CopyKeeps s u :=
  ⟨h.off.trans g.off, g.fol.trans h.fol, g.stat.trans h.stat, g.mark.trans h.mark, h.out.trans g.out⟩

theorem CopyKeeps.of_link (h : LinkKeeps s t) (out : s.out <+: t.out) : CopyKeeps s t where
  off := .of_link h
  fol := congrArg Wt.fol h.wt
  stat := h.reg _ (linkBlock_wt (by simp) (by simp))
  mark := h.reg _ (linkBlock_wt (by simp) (by simp))
  out := out

theorem CopyKeeps.of_reports (h : Reports s t) (out : s.out <+: t.out) : CopyKeeps s t := .of_link (.of_reports h) out

/-- A change of wall time beside the follower. -/
theorem CopyKeeps.of_wt (s : State) {wt : Wt} (fol : wt.fol = s.wt.fol) : CopyKeeps s { s with wt := wt } := ⟨.of_wt s wt, fol, rfl, rfl, List.prefix_rfl⟩

/-- A field of another register. -/
theorem CopyKeeps.wr (s : State) (f : FRef) (v : Nat) (position : R.CL_MYPOS ≠ f.addr) (stat : R.WT_FSTAT ≠ f.addr) (mark : R.WT_FMARK ≠ f.addr) :
    CopyKeeps s (s.wr f v) :=
  ⟨.wr s f v position, rfl, s.reg_wr_ne f v stat, s.reg_wr_ne f v mark, List.prefix_rfl⟩

theorem CopyKeeps.ite {c : Prop} [Decidable c] (ht : CopyKeeps s t) (hu : CopyKeeps s u) : CopyKeeps s (if c then t else u) := by
  split
  · exact ht
  · exact hu

theorem CopyKeeps.foldl {β : Type} {f : State → β → State} (hf : ∀ s x, CopyKeeps s (f s x)) (l : List β) (s : State) : CopyKeeps s (l.foldl f s) := by
  induction l generalizing s with
  | nil => exact .refl s
  | cons x r ih => exact (hf s x).trans (ih _)

theorem CopyKeeps.forIdx {f : State → Nat → State} (hf : ∀ s x, CopyKeeps s (f s x)) (n : Nat) (s : State) : CopyKeeps s (forIdx n s f) := .foldl hf _ s

end

theorem raise_copy (s : State) (n : Nat) (d : List Byte) : CopyKeeps s (raise s n d) := .of_reports (raise_reports s n d) (raise_out s n d)

theorem count_copy (s : State) (n k : Nat) : CopyKeeps s (count s n k) := .of_reports (count_reports s n k) (count_out s n k)

theorem setXid_copy (s : State) (x : Nat) (v : Xid) : CopyKeeps s (s.setXid x v) := .of_link (setXid_keeps s x v) List.prefix_rfl

theorem freeXid_copy (s : State) (x : Nat) : CopyKeeps s (freeXid s x) := setXid_copy s x _

theorem traceXa_copy (s : State) (x phase target : Nat) : CopyKeeps s (traceXa s x phase target) :=
  .of_reports (traceXa_reports s x phase target) (trace_out s _ _ _ ▸ List.prefix_rfl)

theorem setGen_copy (s : State) (n : Nat) (g : Gen) : CopyKeeps s (s.setGen n g) := .of_wt s rfl

theorem modPix_copy (s : State) (f : Pix → Pix) : CopyKeeps s (s.modPix f) := ⟨⟨rfl, rfl, rfl, rfl, rfl⟩, rfl, rfl, rfl, List.prefix_rfl⟩

theorem modDrv_copy (s : State) (f : Drv → Drv) : CopyKeeps s (s.modDrv f) := ⟨⟨rfl, rfl, rfl, rfl, rfl⟩, rfl, rfl, rfl, List.prefix_rfl⟩

/-! The Drive Link timing and a wake (R205, R245). -/

theorem adaptTiming_copy (s : State) : CopyKeeps s (adaptTiming s) := by
  unfold adaptTiming
  extract_lets need slotBad per lightBad want s1 s2
  have adapted : CopyKeeps s s1 := (modDrv_copy s _).trans (.wr _ F.DRV_STAT_ADAPTED _ (by simp) (by simp) (by simp))
  have slot : CopyKeeps s1 s2 := .ite (raise_copy s1 379 _) (.refl s1)
  exact .ite (.refl s) ((adapted.trans slot).trans (.ite (raise_copy s2 379 _) (.refl s2)))

theorem exitSr_grows (s : State) (c : Nat) : Grows s (exitSr s c) :=
  .ite (.refl s) (((dramCmd_grows _ c 4 0).after (by simp -implicitDefEqProofs)).trans (dramCmd_grows _ c 2 0))

theorem askSr_grows (s : State) (c : Nat) (yes : Bool) : Grows s (askSr s c yes) :=
  .ite ((enterSr_grows _ c).after (by simp -implicitDefEqProofs)) ((exitSr_grows _ c).after (by simp -implicitDefEqProofs))

theorem pixWake_copy (s : State) (cause : Nat) : CopyKeeps s (pixWake s cause) := by
  unfold pixWake
  split
  · exact .refl s
  · extract_lets s1 s2
    have asked : CopyKeeps s ((s.wr F.PIX_QSTAT_STATE 2).wr F.PIX_QSTAT_CAUSE cause) :=
      (CopyKeeps.wr s F.PIX_QSTAT_STATE 2 (by simp) (by simp) (by simp)).trans (.wr _ F.PIX_QSTAT_CAUSE cause (by simp) (by simp) (by simp))
    have woken : CopyKeeps s s1 := asked.trans (.of_link (askSr_keeps _ 0 false) (askSr_grows _ 0 false).out)
    have counted : CopyKeeps s1 (s2.wr F.PIX_QSTAT_STEADY 0) :=
      (CopyKeeps.wr s1 F.SYS_MSTAT_QUIET 0 (by simp) (by simp) (by simp)).trans (.wr _ F.PIX_QSTAT_STEADY 0 (by simp) (by simp) (by simp))
    exact ((woken.trans counted).trans (modPix_copy _ _)).trans (raise_copy _ 328 _)

/-! A coach's sub-transactions (R129). -/

theorem postXa_copy (s : State) (x status : Nat) : CopyKeeps s (postXa s x status) := .of_link (postXa_keeps s x status) (postXa_grows s x status).out

theorem fire_copy (s : State) (x : Nat) : CopyKeeps s (fire s x) := by
  unfold fire
  extract_lets v s1 s2 gen s3 s4
  have fired : CopyKeeps s s1 := ((setXid_copy s x _).trans (traceXa_copy _ x 3 _)).trans (raise_copy _ 224 _)
  have counted : CopyKeeps s1 s2 := count_copy s1 35 1
  have turned : CopyKeeps s2 s3 := .ite (setGen_copy s2 _ _) (.refl s2)
  have posted : CopyKeeps s3 s4 := .ite (postXa_copy s3 x 0) (.refl s3)
  exact (((fired.trans counted).trans turned).trans posted).trans (.ite (.refl s4) (freeXid_copy s4 x))

theorem dropSub_copy (s : State) (y : Nat) : CopyKeeps s (dropSub s y) := by
  unfold dropSub
  extract_lets v s1
  have dropped : CopyKeeps s s1 := (setXid_copy s y _).trans (traceXa_copy _ y 5 _)
  exact dropped.trans (.ite (.refl s1) (freeXid_copy s1 y))

theorem subDecide_copy (s : State) (m : Mark) : CopyKeeps s (subDecide s m) := by
  refine .forIdx (fun u x => ?_) 16 s
  split
  · exact .refl u
  · split
    · exact .refl u
    · exact .ite (.refl u) (.ite ((setXid_copy u _ _).trans (fire_copy _ _)) (.ite (dropSub_copy u _) (.refl u)))

/-- A coach's rings take LEAD from the copy (R109, R110). -/
theorem regenerate_copy (s : State) (d : Nat) (m : Mark) (remain : Nat) : CopyKeeps s (regenerate s d m remain) := by
  refine .forIdx (fun u n => .ite ?_ (.refl u)) 8 s
  extract_lets lead wt s1
  have held : CopyKeeps u s1 := .of_wt u rfl
  exact .ite (held.trans (raise_copy s1 215 _)) held

theorem firstCopy_copy (s : State) (p d : Nat) (b : List Byte) : CopyKeeps s (firstCopy s p d b) := by
  unfold firstCopy
  extract_lets m s1 remain
  have timed : CopyKeeps s s1 := adaptTiming_copy s
  exact .ite (.ite (timed.trans (pixWake_copy s1 2)) timed) (.ite ((subDecide_copy s m).trans (regenerate_copy _ d m _)) (.refl s))

end Sys2Proof.Machine
end

section
/-! PROOF. The marks of a follower (O35; R101 to R104, R106, R111): what a run brings to the follower, and where it goes. -/
namespace Sys2Proof.Machine

/-! The bytes of a run. -/

theorem leNat_lt (l : List Byte) : leNat l < 256 ^ l.length := by
  induction l with
  | nil => exact Nat.one_pos
  | cons b r ih =>
    have byte : b.toNat < 256 := b.isLt
    rw [leNat, List.length_cons, Nat.pow_succ]
    omega

theorem length_slice (b : List Byte) (o n : Nat) : (slice b o n).length = n := by
  unfold slice
  simp only [List.length_append, List.length_replicate]
  have taken := List.length_take_le n (b.drop o)
  omega

/-- A byte of a run. -/
theorem beAt_byte (b : List Byte) (o : Nat) : beAt b o 1 < 256 := by
  rw [beAt, beNat]
  simpa [length_slice] using leNat_lt (slice b o 1).reverse

/-! A run goes on (R56, R101). -/

/-- What a run leaves alone, wherever it goes, and what was sent. -/
structure RunKeeps (s t : State) : Prop where
  off : OffTime s t
  out : s.out <+: t.out

section
variable {s t u : State}

theorem RunKeeps.refl (s : State) : RunKeeps s s := ⟨.refl s, List.prefix_rfl⟩

theorem RunKeeps.trans (h : RunKeeps s t) (g : RunKeeps t u) : RunKeeps s u := ⟨h.off.trans g.off, h.out.trans g.out⟩

theorem RunKeeps.ite {c : Prop} [Decidable c] (ht : RunKeeps s t) (hu : RunKeeps s u) : RunKeeps s (if c then t else u) := by
  split
  · exact ht
  · exact hu

theorem CopyKeeps.run (h : CopyKeeps s t) : RunKeeps s t := ⟨h.off, h.out⟩

theorem RunKeeps.of_wt (s : State) (wt : Wt) : RunKeeps s { s with wt := wt } := ⟨.of_wt s wt, List.prefix_rfl⟩

theorem RunKeeps.wr (s : State) (f : FRef) (v : Nat) (h : R.CL_MYPOS ≠ f.addr) : RunKeeps s (s.wr f v) := ⟨.wr s f v h, List.prefix_rfl⟩

end

theorem raise_run (s : State) (n : Nat) (d : List Byte) : RunKeeps s (raise s n d) := (raise_copy s n d).run

/-- The device after a ring port has sent a run on (R101). -/
def passedOn (s : State) (p : Nat) (b : List Byte) : State :=
  match forwardsTo (resume s p) p with
  | some q => { resume s p with out := (resume s p).out ++ [.bugle q (bugleForward s p b)] }
  | none => resume s p

/-- Only the ports and what is sent change. -/
theorem resume_ports (s : State) (p : Nat) : ∃ ports, resume s p = { s with ports := ports } := by
  unfold resume
  split
  · split
    · exact ⟨_, rfl⟩
    · exact ⟨s.ports, rfl⟩
  · exact ⟨s.ports, rfl⟩

theorem passedOn_parts (s : State) (p : Nat) (b : List Byte) : ∃ ports l, passedOn s p b = { s with ports := ports, out := s.out ++ l } := by
  obtain ⟨ports, resumed⟩ := resume_ports s p
  unfold passedOn
  rw [resumed]
  split
  · exact ⟨ports, _, rfl⟩
  · exact ⟨ports, [], by rw [List.append_nil]⟩

/-- A transmitter that does not fill forwards at once (R52, R56). -/
theorem forwardsTo_up {s : State} {p q : Nat} (h : forwardsTo s p = some q) : s.isUp p = true ∧ resume s p = s := by
  unfold forwardsTo at h
  split at h
  · next up =>
    obtain ⟨other, waits⟩ := Option.filter_eq_some_iff.mp h
    have filler : (s.port q).filler = false := by
      rcases hf : (s.port q).filler
      · rfl
      · simp [hf] at waits
    refine ⟨up, ?_⟩
    simp only [resume, other, filler, Bool.and_false, Bool.false_eq_true, if_false]
  · cases h

theorem passedOn_eq {s : State} {p q : Nat} (b : List Byte) (h : forwardsTo s p = some q) :
    passedOn s p b = { s with out := s.out ++ [.bugle q (bugleForward s p b)] } := by
  unfold passedOn
  rw [(forwardsTo_up h).2, h]

theorem bugleRx_down {s : State} {p : Nat} (b : List Byte) (down : s.isUp p = false) : bugleRx s p b = s := by
  unfold bugleRx
  exact if_pos (by rw [down]; rfl)

/-- A run on a ring port. -/
theorem bugleRx_ring {s : State} {p : Nat} (b : List Byte) (up : s.isUp p = true) (ring : (ringPorts s).contains p = true) :
    bugleRx s p b = if bugleIntact b then followRun (passedOn s p b) p (s.rd (F.CL_PSTAT_DIR_RX p)) b else passedOn s p b := by
  unfold bugleRx
  rw [if_neg (by simp [up]), if_pos ring]
  rfl

/-- An intact run on the mirror port of a standby that aligns (R111). -/
theorem bugleRx_mirror {s : State} {p : Nat} {b : List Byte} (up : s.isUp p = true) (ring : ¬ (ringPorts s).contains p = true)
    (kind : s.portIs p 3 = true) (port : p = mport s) (standby : aligns s = true) (sound : bugleIntact b = true) : bugleRx s p b = followRun s p 3 b := by
  unfold bugleRx
  rw [if_neg (by simp [up]), if_neg ring, if_pos (by rw [kind, standby, sound, ← port]; simp)]

/-! The follower (R102 to R104, R106). -/

/-- What hearing a copy changes: only the follower's list of frames seen. -/
structure HeardKeeps (s t : State) : Prop where
  run : RunKeeps s t
  reg : ∀ a, t.reg a = s.reg a
  marks : t.wt.fol.marks = s.wt.fol.marks
  taken : t.wt.fol.taken = s.wt.fol.taken

theorem HeardKeeps.refl (s : State) : HeardKeeps s s := ⟨.refl s, fun _ => rfl, rfl, rfl⟩

theorem HeardKeeps.trans {s t u : State} (h : HeardKeeps s t) (g : HeardKeeps t u) : HeardKeeps s u :=
  ⟨h.run.trans g.run, fun a => (g.reg a).trans (h.reg a), g.marks.trans h.marks, g.taken.trans h.taken⟩

theorem HeardKeeps.raised (s : State) (n : Nat) (d : List Byte) : HeardKeeps s (raise s n d) :=
  ⟨raise_run s n d, (raise_reports s n d).reg, congrArg (·.fol.marks) (raise_reports s n d).wt, congrArg (·.fol.taken) (raise_reports s n d).wt⟩

theorem copyConflict_heard (s : State) (m : Mark) : HeardKeeps s (copyConflict s m) := by
  unfold copyConflict
  split
  · split
    · exact .raised s 214 _
    · exact .refl s
  · exact .refl s

theorem noteSeen_heard (s : State) (m : Mark) : HeardKeeps s (noteSeen s m) := by
  unfold noteSeen
  split
  · exact .refl s
  · exact ⟨.of_wt s _, reg_withWt s _, rfl, rfl⟩

/-- The device that has heard a copy. -/
def heardCopy (s : State) (own : Mark) : State := noteSeen (copyConflict s own) own

theorem heardCopy_heard (s : State) (own : Mark) : HeardKeeps s (heardCopy s own) := (copyConflict_heard s own).trans (noteSeen_heard _ own)

/-- The parameters of a first copy, in WT_FSTAT and WT_FMARK (R103). -/
def markShown (s : State) (m : Mark) : State :=
  ((((s.wr F.WT_FSTAT_TIER (bits m.flags 2 3)).wr F.WT_FSTAT_HOLD (bits m.flags 0 1)).wr F.WT_FSTAT_FLY (bits m.flags 1 1)).wr F.WT_FMARK_RATE m.rate).wr
    F.WT_FMARK_LEAD m.lead

/-- A follower in SEEK locks (R106). -/
def seekLocks (s : State) (m : Mark) (d : Nat) : State :=
  if folState s = 0 then
    let s4 := if s.rd F.WT_FSTAT_DIR = 0 then s.wr F.WT_FSTAT_DIR d else s
    raise (s4.wr F.WT_FSTAT_STATE 1) 210 (d2 (s4.rd F.WT_FSTAT_DIR) (bits m.flags 2 3))
  else s

theorem markShown_run (s : State) (m : Mark) : RunKeeps s (markShown s m) :=
  ((((RunKeeps.wr s F.WT_FSTAT_TIER _ (by simp)).trans (.wr _ F.WT_FSTAT_HOLD _ (by simp))).trans (.wr _ F.WT_FSTAT_FLY _ (by simp))).trans
    (.wr _ F.WT_FMARK_RATE _ (by simp))).trans (.wr _ F.WT_FMARK_LEAD _ (by simp))

theorem markShown_wt (s : State) (m : Mark) : (markShown s m).wt = s.wt := by simp only [markShown, State.wr_wt]

theorem markShown_rate (s : State) (m : Mark) : (markShown s m).rd F.WT_FMARK_RATE = m.rate % 2 ^ 8 := by
  unfold markShown
  rw [State.rd_wr_other _ F.WT_FMARK_LEAD F.WT_FMARK_RATE m.lead rfl (by simp) (.inl (by simp)), State.rd_wr_same _ F.WT_FMARK_RATE _ (by simp)]

theorem markShown_lead (s : State) (m : Mark) : (markShown s m).rd F.WT_FMARK_LEAD = m.lead % 2 ^ 8 := State.rd_wr_same _ F.WT_FMARK_LEAD _ (by simp)

theorem markShown_state (s : State) (m : Mark) : folState (markShown s m) = folState s := by
  unfold folState markShown
  rw [State.rd_wr_ne _ _ _ _ (by simp), State.rd_wr_ne _ _ _ _ (by simp), State.rd_wr_other _ F.WT_FSTAT_FLY F.WT_FSTAT_STATE _ rfl (by simp) (.inl (by simp)),
    State.rd_wr_other _ F.WT_FSTAT_HOLD F.WT_FSTAT_STATE _ rfl (by simp) (.inl (by simp)),
    State.rd_wr_other _ F.WT_FSTAT_TIER F.WT_FSTAT_STATE _ rfl (by simp) (.inl (by simp))]

/-- Locking writes WT_FSTAT alone. -/
structure Locks (s t : State) : Prop where
  run : RunKeeps s t
  wt : t.wt = s.wt
  mark : t.reg R.WT_FMARK = s.reg R.WT_FMARK

theorem Locks.refl (s : State) : Locks s s := ⟨.refl s, rfl, rfl⟩

theorem Locks.trans {s t u : State} (h : Locks s t) (g : Locks t u) : Locks s u := ⟨h.run.trans g.run, g.wt.trans h.wt, g.mark.trans h.mark⟩

theorem Locks.wr (s : State) (lo w v : Nat) : Locks s (s.wr ⟨R.WT_FSTAT, lo, w⟩ v) :=
  ⟨.wr s _ v (by simp), s.wr_wt _ _, s.reg_wr_ne _ v (by simp)⟩

theorem Locks.raised (s : State) (n : Nat) (d : List Byte) : Locks s (raise s n d) :=
  ⟨raise_run s n d, (raise_reports s n d).wt, (raise_reports s n d).reg _⟩

theorem seekLocks_locks (s : State) (m : Mark) (d : Nat) : Locks s (seekLocks s m d) := by
  unfold seekLocks
  split
  · extract_lets s4
    have turned : Locks s s4 := by
      unfold s4
      split
      · exact .wr s 2 2 d
      · exact .refl s
    exact (turned.trans (.wr s4 0 2 1)).trans (.raised _ 210 _)
  · exact .refl s

theorem seekLocks_state (s : State) (m : Mark) (d : Nat) : folState (seekLocks s m d) = if folState s = 0 then 1 else folState s := by
  by_cases seek : folState s = 0
  · unfold seekLocks
    rw [if_pos seek, if_pos seek, folState, (raise_reports _ 210 _).rd, State.rd_wr_same _ F.WT_FSTAT_STATE 1 (by simp)]
    rfl
  · rw [seekLocks, if_neg seek, if_neg seek]

/-- The first copy of a frame joins the pending marks where fewer than three are pending (R103, R108). -/
theorem addCopy_first {l : List Mark} {m : Mark} (d fence : Nat) (fresh : ∀ x ∈ l, x.frame ≠ m.frame) (room : l.length < 3) :
    ∃ x, addCopy l m d fence = (l ++ [x], true) ∧ x.frame = m.frame ∧ x.flip = m.flip := by
  have none : (l.find? fun x => x.frame == m.frame) = none := List.find?_eq_none.mpr fun x h => by simpa using fresh x h
  unfold addCopy
  dsimp only
  rw [none]
  dsimp only
  rw [if_pos room]
  split
  · split <;> exact ⟨_, rfl, rfl, rfl⟩
  · split <;> exact ⟨_, rfl, rfl, rfl⟩

/-- The time that a run leaves until its fence, in ps (R102). -/
def timeLeft (s : State) (p : Nat) (b : List Byte) : Int := (((parseMark b).lead * 50000000 : Nat) : Int) - bugleCorr b - s.rdS (F.CL_PDELAY_DELAY p)

/-- The device with its pending marks. -/
def withMarks (s : State) (l : List Mark) : State := { s with wt := { s.wt with fol := { s.wt.fol with marks := l } } }

/-- The mark that a run spells, with what the picture says of its bank. -/
def runMark (b : List Byte) (ready : Bool) : Mark := { parseMark b with bankReady := ready }

/-- The device with a run's mark among the pending ones and its parameters shown. -/
def joinedBy (s : State) (b : List Byte) (ready : Bool) (x : Mark) : State :=
  markShown (withMarks (heardCopy s (runMark b ready)) (s.wt.fol.marks ++ [x])) (runMark b ready)

theorem joinedBy_marks (s : State) (b : List Byte) (ready : Bool) (x : Mark) : (joinedBy s b ready x).wt.fol.marks = s.wt.fol.marks ++ [x] := by
  rw [joinedBy, markShown_wt, withMarks]

theorem joinedBy_state (s : State) (b : List Byte) (ready : Bool) (x : Mark) : folState (joinedBy s b ready x) = folState s := by
  rw [joinedBy, markShown_state, folState, folState, State.rd, State.rd, withMarks, reg_withWt, (heardCopy_heard s _).reg]

/-- A copy with no time left is only heard (R102). -/
theorem followCopy_late {s : State} {p : Nat} {b : List Byte} (d : Nat) (ready : Bool) (late : timeLeft s p b ≤ 0) :
    followCopy s p d b ready = (raise (heardCopy s (runMark b ready)) 215 (d2 d 1), false) := by
  unfold followCopy
  exact if_pos late

/-- Whatever a copy finds, it leaves what a run leaves alone. -/
theorem followCopy_run (s : State) (p d : Nat) (b : List Byte) (ready : Bool) : RunKeeps s (followCopy s p d b ready).1 := by
  unfold followCopy
  extract_lets src own m remain s0 a wt fol s1 s2 s3
  have heard : RunKeeps s s0 := (heardCopy_heard s own).run
  have joined : RunKeeps s s1 := heard.trans (.of_wt s0 _)
  split
  · exact heard.trans (raise_run s0 215 _)
  · split
    · exact heard
    · split
      · exact joined
      · have shown : RunKeeps s s3 := joined.trans (markShown_run s1 m)
        have locked := shown.trans (seekLocks_locks s3 m d).run
        unfold seekLocks at locked
        split
        · next seek => rwa [if_pos seek] at locked
        · exact shown

/-- The first copy of a frame, with time left and room, is a pending mark; its parameters show, and a follower in SEEK locks (R103, R106). -/
theorem followCopy_first {s : State} {p : Nat} {b : List Byte} (d : Nat) (ready : Bool) (time : 0 < timeLeft s p b)
    (new : seenMark s (parseMark b).frame = none) (fresh : ∀ m ∈ s.wt.fol.marks, m.frame ≠ (parseMark b).frame)
    (untaken : ∀ m, s.wt.fol.taken = some m → m.frame ≠ (parseMark b).frame) (room : s.wt.fol.marks.length < 3) :
    ∃ x, x.frame = (parseMark b).frame ∧ x.flip = (parseMark b).flip ∧
      followCopy s p d b ready = (seekLocks (joinedBy s b ready x) (runMark b ready) d, true) := by
  have heard := heardCopy_heard s (runMark b ready)
  have first : (seenMark s (runMark b ready).frame).getD (runMark b ready) = runMark b ready := by
    rw [show (runMark b ready).frame = (parseMark b).frame from rfl, new]
    rfl
  have other : (heardCopy s (runMark b ready)).wt.fol.taken.any (fun x => x.frame == (runMark b ready).frame) = false := by
    rw [heard.taken]
    rcases taken : s.wt.fol.taken with _ | m
    · rfl
    · exact beq_false_of_ne (untaken m taken)
  obtain ⟨x, joins, frame, flip⟩ := addCopy_first (m := runMark b ready) d ((heardCopy s (runMark b ready)).now + (timeLeft s p b).toNat)
    (heard.marks ▸ fresh) (heard.marks ▸ room)
  refine ⟨x, frame, flip, ?_⟩
  rw [joinedBy, ← heard.marks]
  unfold followCopy
  extract_lets src own m remain s0 a wt fol s1 s2 s3
  have same : m = own := first
  clear_value m
  subst same
  have added : a = (s0.wt.fol.marks ++ [x], true) := joins
  clear_value a
  subst added
  refine (if_neg (not_le.mpr time)).trans ((if_neg (by rw [Bool.not_eq_true]; exact other)).trans ((if_neg (by simp)).trans ?_))
  unfold seekLocks
  by_cases seek : folState s3 = 0
  · exact (if_pos seek).trans (congrArg (·, true) (if_pos seek).symm)
  · exact (if_neg seek).trans (congrArg (·, true) (if_neg seek).symm)

/-! An intact run (R102). -/

theorem followRun_run (s : State) (p d : Nat) (b : List Byte) : RunKeeps s (followRun s p d b) := by
  have copied := followCopy_run s p d b (readyNow s)
  exact .ite (copied.trans (firstCopy_copy _ p d b).run) copied

/-- With no time left no mark joins. -/
theorem followRun_late {s : State} {p : Nat} {b : List Byte} (d : Nat) (late : timeLeft s p b ≤ 0) : HeardKeeps s (followRun s p d b) := by
  unfold followRun
  rw [followCopy_late d (readyNow s) late]
  exact (heardCopy_heard s _).trans (.raised _ 215 _)

/-- The first copy of a frame, with time left and room: what the follower and its registers show then. -/
theorem followRun_first {s : State} {p : Nat} {b : List Byte} (d : Nat) (time : 0 < timeLeft s p b)
    (new : seenMark s (parseMark b).frame = none) (fresh : ∀ m ∈ s.wt.fol.marks, m.frame ≠ (parseMark b).frame)
    (untaken : ∀ m, s.wt.fol.taken = some m → m.frame ≠ (parseMark b).frame) (room : s.wt.fol.marks.length < 3) :
    (∃ m, (followRun s p d b).wt.fol.marks = s.wt.fol.marks ++ [m] ∧ m.frame = (parseMark b).frame ∧ m.flip = (parseMark b).flip) ∧
      (followRun s p d b).rd F.WT_FMARK_RATE = (parseMark b).rate ∧ (followRun s p d b).rd F.WT_FMARK_LEAD = (parseMark b).lead ∧
      folState (followRun s p d b) = if folState s = 0 then 1 else folState s := by
  obtain ⟨x, frame, flip, copied⟩ := followCopy_first d (readyNow s) time new fresh untaken room
  have went : followRun s p d b = firstCopy (followCopy s p d b (readyNow s)).1 p d b := by
    unfold followRun
    exact if_pos (by rw [copied])
  rw [copied] at went
  have locks := seekLocks_locks (joinedBy s b (readyNow s) x) (runMark b (readyNow s)) d
  have state := seekLocks_state (joinedBy s b (readyNow s) x) (runMark b (readyNow s)) d
  have keeps := firstCopy_copy (seekLocks (joinedBy s b (readyNow s) x) (runMark b (readyNow s)) d) p d b
  rw [← went] at keeps
  rw [joinedBy_state] at state
  have word : (followRun s p d b).reg R.WT_FMARK = (joinedBy s b (readyNow s) x).reg R.WT_FMARK := keeps.mark.trans locks.mark
  refine ⟨⟨x, ?_, frame, flip⟩, ?_, ?_, ?_⟩
  · rw [keeps.fol, locks.wt, joinedBy_marks]
  · exact ((congrArg (bits · 0 8) word).trans (markShown_rate _ _)).trans (Nat.mod_eq_of_lt (beAt_byte b 26))
  · exact ((congrArg (bits · 8 8) word).trans (markShown_lead _ _)).trans (Nat.mod_eq_of_lt (beAt_byte b 29))
  · exact (congrArg (bits · 0 2) keeps.stat).trans state

/-- An intact run that the device follows reaches its follower, whatever goes on first (R102, R111). -/
theorem bugleRx_follows {s : State} {p : Nat} {b : List Byte} (up : s.isUp p = true) (sound : bugleIntact b = true)
    (port : (ringPorts s).contains p = true ∨ (s.portIs p 3 = true ∧ p = mport s ∧ aligns s = true)) :
    ∃ ports l d, bugleRx s p b = followRun { s with ports := ports, out := s.out ++ l } p d b := by
  by_cases ring : (ringPorts s).contains p = true
  · obtain ⟨ports, l, passed⟩ := passedOn_parts s p b
    refine ⟨ports, l, s.rd (F.CL_PSTAT_DIR_RX p), ?_⟩
    rw [bugleRx_ring b up ring, if_pos sound, passed]
  · obtain ⟨kind, mirror, standby⟩ := port.resolve_left ring
    refine ⟨s.ports, [], 3, ?_⟩
    rw [bugleRx_mirror up ring kind mirror standby sound, List.append_nil]

theorem passed_run (s : State) (ports : Table Port) (l : List Output) : RunKeeps s { s with ports := ports, out := s.out ++ l } :=
  ⟨⟨rfl, rfl, rfl, rfl, rfl⟩, List.prefix_append _ _⟩

/-! The commands. -/

/-- BUGLE_RX on a ring port that forwards (R101). -/
theorem bugleRx_forwards (p : Fin 12) (q : Nat) (b : List Byte) (s : State) (ring : (ringPorts s).contains p.val = true) (h : forwardsTo s p.val = some q) :
    Runs (.bugleRx p b) s fun t => Sends s t [.bugle q (bugleForward s p.val b)] ∧ (bugleIntact b = false → Reports s t) := by
  have passed := passedOn_eq b h
  have rx := bugleRx_ring b (forwardsTo_up h).1 ring
  have keeps : RunKeeps (passedOn s p.val b) (bugleRx s p.val b) := by
    rw [rx]
    exact .ite (followRun_run _ _ _ b) (.refl _)
  have sent : (passedOn s p.val b).out = s.out ++ [.bugle q (bugleForward s p.val b)] := by rw [passed]
  have gone : RunKeeps s (passedOn s p.val b) := by
    rw [passed]
    exact passed_run s s.ports _
  obtain ⟨t, run, rep, out⟩ := (gone.trans keeps).off.runs (f := fun s => bugleRx s p.val b)
  refine ⟨t, run, ?_, fun broken => ?_⟩
  · obtain ⟨r, rest⟩ := keeps.out.trans out
    exact ⟨r, by rw [← rest, sent]⟩
  · have only : bugleRx s p.val b = passedOn s p.val b := by rw [rx, broken, if_neg Bool.false_ne_true]
    have silent : Reports s (passedOn s p.val b) := by
      rw [passed]
      constructor <;> (intros; rfl)
    rw [only] at rep
    exact silent.trans rep

section
variable (p : Fin 12) (b : List Byte) (s : State) (up : s.isUp p.val = true) (sound : bugleIntact b = true)
  (port : (ringPorts s).contains p.val = true ∨ (s.portIs p.val 3 = true ∧ p.val = mport s ∧ aligns s = true))
include up sound port

/-- BUGLE_RX of the first copy of a frame with time left (R102, R103, R106). -/
theorem bugleRx_joins (time : bugleCorr b + s.rdS (F.CL_PDELAY_DELAY p.val) < (((parseMark b).lead * 50000000 : Nat) : Int))
    (new : seenMark s (parseMark b).frame = none) (fresh : ∀ m ∈ s.wt.fol.marks, m.frame ≠ (parseMark b).frame)
    (untaken : ∀ m, s.wt.fol.taken = some m → m.frame ≠ (parseMark b).frame) (room : s.wt.fol.marks.length < 3) :
    Runs (.bugleRx p b) s fun t => (∃ m, t.wt.fol.marks = s.wt.fol.marks ++ [m] ∧ m.frame = (parseMark b).frame ∧ m.flip = (parseMark b).flip) ∧
      t.rd F.WT_FMARK_RATE = (parseMark b).rate ∧ t.rd F.WT_FMARK_LEAD = (parseMark b).lead ∧
      t.rd F.WT_FSTAT_STATE = (if s.rd F.WT_FSTAT_STATE = 0 then 1 else s.rd F.WT_FSTAT_STATE) := by
  obtain ⟨ports, l, d, follows⟩ := bugleRx_follows up sound port
  have keeps : RunKeeps s (bugleRx s p.val b) := follows ▸ (passed_run s ports l).trans (followRun_run _ _ _ b)
  obtain ⟨t, run, rep, -⟩ := keeps.off.runs (f := fun s => bugleRx s p.val b)
  have left : 0 < timeLeft { s with ports := ports, out := s.out ++ l } p.val b := by
    have same : timeLeft { s with ports := ports, out := s.out ++ l } p.val b = timeLeft s p.val b := rfl
    rw [same, timeLeft]
    omega
  obtain ⟨marks, rate, lead, state⟩ := followRun_first d left new fresh untaken room
  rw [← follows] at marks rate lead state
  refine ⟨t, run, ?_, (rep.rd _).trans rate, (rep.rd _).trans lead, (rep.rd _).trans state⟩
  rw [rep.wt]
  exact marks

/-- BUGLE_RX with no time left (R102). -/
theorem bugleRx_late (late : (((parseMark b).lead * 50000000 : Nat) : Int) ≤ bugleCorr b + s.rdS (F.CL_PDELAY_DELAY p.val)) :
    Runs (.bugleRx p b) s fun t => t.wt.fol.marks = s.wt.fol.marks := by
  obtain ⟨ports, l, d, follows⟩ := bugleRx_follows up sound port
  have none : timeLeft { s with ports := ports, out := s.out ++ l } p.val b ≤ 0 := by
    have same : timeLeft { s with ports := ports, out := s.out ++ l } p.val b = timeLeft s p.val b := rfl
    rw [same, timeLeft]
    omega
  have heard := followRun_late d none
  rw [← follows] at heard
  obtain ⟨t, run, rep, -⟩ := ((passed_run s ports l).trans heard.run).off.runs (f := fun s => bugleRx s p.val b)
  exact ⟨t, run, (congrArg (·.fol.marks) rep.wt).trans heard.marks⟩

end

/-- OTHER_DIRECTION_FALLBACK with a mark that waits for the timing direction (R103). -/
theorem otherDirection_taken {s : State} {m : Mark} {f : Nat}
    (h : earliest (s.wt.fol.marks.filter fun m => (if s.rd F.WT_FSTAT_DIR = 2 then m.fenceW else m.fenceE).isNone) (s.rd F.WT_FSTAT_DIR) = some (m, f)) :
    otherDirection s = withMarks s (s.wt.fol.marks.map fun x => if x.frame == m.frame then { x with other := true } else x) := by
  unfold otherDirection
  dsimp only
  rw [h]
  rfl

theorem otherDirection_idle {s : State}
    (h : (s.wt.fol.marks.all fun m => (if s.rd F.WT_FSTAT_DIR = 2 then m.fenceW else m.fenceE).isSome) = true) : otherDirection s = s := by
  have nothing : (s.wt.fol.marks.filter fun m => (if s.rd F.WT_FSTAT_DIR = 2 then m.fenceW else m.fenceE).isNone) = [] :=
    List.filter_eq_nil_iff.mpr fun m inside => by
      rw [Option.isNone_iff_eq_none]
      exact Option.isSome_iff_ne_none.mp (List.all_eq_true.mp h m inside)
  unfold otherDirection
  dsimp only
  rw [nothing]
  rfl

/-- Settles O35: each clause is the rule of its command. -/
theorem marksAreFollowed : Obligations.MarksAreFollowed := by
  refine ⟨fun p q b s ring h => bugleRx_forwards p q b s ring h, fun p b s up sound port => ⟨bugleRx_joins p b s up sound port, fun late _ => ?_⟩,
    fun p b s down => ?_, fun s m f h => ?_, fun s h => ?_⟩
  · exact bugleRx_late p b s up sound port late
  · exact ordinary_idle (fun s => bugleRx s p.val b) s (bugleRx_down b down)
  · have taken := otherDirection_taken h
    have off : OffTime s (otherDirection s) := by
      rw [taken]
      exact .of_wt s _
    obtain ⟨t, run, rep, -⟩ := off.runs
    rw [taken] at rep
    exact ⟨t, run, rep⟩
  · exact ordinary_idle otherDirection s (otherDirection_idle h)

end Sys2Proof.Machine
end

section
/-! PROOF. Rings consume and reset (O55): UPDATE_BLOCK, whose row also keeps the golden image (R388), lists the flash anew although nothing is in hand. -/
namespace Sys2Proof.Machine

theorem redRefresh_notSender {s : State} (h : s.isSender = false) : redRefresh s = s := by
  rw [redRefresh, h]
  rfl

theorem pairEn_notSender {s : State} (h : s.isSender = false) : pairEn s = false := by rw [pairEn, h, Bool.false_and]

/-- The mirror link concerns no device but a sender, once WT_PAIR shows none aligned (R111, R272). -/
theorem linkCheck_notSender {s : State} (h : s.isSender = false) (aligned : s.on F.WT_PAIR_ALIGNED = false) : linkCheck s = s := by
  simp only [linkCheck, pairCheck, pairLink, alignShow, pairEn_notSender h, redRefresh_notSender h, aligned, Bool.false_and, Bool.not_false, if_true,
    Bool.false_eq_true, if_false, beq_self_eq_true]

/-- Without a head that waits there is none to try (R305). -/
theorem tryHead_awake {s : State} {n : Nat} (h : s.on (F.HIF_CR_STAT_WAITING n) = false) : tryHead s n = s := by
  rw [tryHead, h]
  rfl

/-- A ring without a descriptor in hand looks at its head. -/
theorem runDesc_none {s : State} {n t : Nat} (h : (s.hif.jobs.find? fun j => j.ring % 16 == n && !j.ran) = none) (f : State → Job → State) :
    runDesc s n t f = tryHead s n := by
  rw [runDesc, h]

/-- A carriage as reset leaves it, but for two bytes of flash, the one past the golden image listed first. -/
def mixedFlash : State := { State.reset with upd := { State.reset.upd with flash := [(goldenEnd, 0#8), (0, 0#8)] } }

theorem exec_updateBlock (n : Fin 16) (d : Option (List Byte)) (s : State) :
    exec (.updateBlock n d) s = flashing (fun s => runDesc s n.val 11 fun s j => runUpdate s j d) s := rfl

/-- Refutes O55: with nothing in hand UPDATE_BLOCK is said to leave all but its reports, but it lists the flash anew where the golden image is not listed
first. -/
theorem not_ringsConsumeAndReset : ¬ Obligations.RingsConsumeAndReset := by
  unfold Obligations.RingsConsumeAndReset
  rintro ⟨-, -, rows, -⟩
  obtain ⟨stays, -⟩ := rows (.updateBlock 0 none) 0 11 mixedFlash rfl
  have waits : mixedFlash.on (F.HIF_CR_STAT_WAITING 0) = false := by decide
  have link : linkCheck mixedFlash = mixedFlash := linkCheck_notSender (by decide) (by decide)
  obtain ⟨t, run, rep⟩ := stays (.inl ⟨rfl, waits⟩) link
  have flash : t.upd.flash = keepGolden mixedFlash.upd.flash mixedFlash.upd.flash := by
    have idle : runDesc mixedFlash 0 11 (fun s j => runUpdate s j none) = mixedFlash := (runDesc_none rfl _).trans (tryHead_awake waits)
    rw [exec_updateBlock, flashing] at run
    obtain rfl := Host.Outcome.next.inj run
    exact congrArg (keepGolden mixedFlash.upd.flash) (congrArg (fun s : State => s.upd.flash) idle)
  rw [rep.upd] at flash
  exact absurd flash (by decide)

end Sys2Proof.Machine
end

section
/-! PROOF. What completion records and the phases of a transaction leave alone (O38, O39, O52, O56; R119, R128, R132, R133, R305, R307): a record writes
HIF_CP_PROD and what it sends, a phase the XID itself. -/
namespace Sys2Proof.Machine

/-- HIF_CP_PROD of a completion ring, the one register that a record writes (R307). -/
def recordRegs (a _ : Nat) : Prop := ∃ n, a = R.HIF_CP_PROD n

/-- A change outside the register file and what a command keeps. -/
theorem Within.offRegs {W : Nat → Nat → Prop} {s t : State}
    (h : t = { s with lastAt := t.lastAt, evc := t.evc, obs := t.obs, ring := t.ring, wt := t.wt, xa := t.xa, hif := t.hif, dram := t.dram, pair := t.pair,
                      ni := t.ni, cmp := t.cmp, out := t.out }) (out : s.out <+: t.out) : Within W s t := by
  constructor
  case out => exact out
  case bit => exact fun a i _ => by rw [h]; rfl
  all_goals rw [h]

/-- What completions and phases leave alone: every register but HIF_CP_PROD, the pair, composition, which rate changes and which upward packets wait, which
generators run; no job is added. -/
structure PhaseKeeps (s t : State) : Prop extends Within recordRegs s t where
  pair : t.pair = s.pair
  cmp : t.cmp = s.cmp
  autoWait : t.xa.autoWait = s.xa.autoWait
  upReady : t.ring.upReady = s.ring.upReady
  started : ∀ n, (t.gen n).started = (s.gen n).started
  jobs : ∀ j ∈ t.hif.jobs, j ∈ s.hif.jobs

theorem PhaseKeeps.refl (s : State) : PhaseKeeps s s := ⟨.refl _ s, rfl, rfl, rfl, rfl, fun _ => rfl, fun _ => id⟩

theorem PhaseKeeps.trans {s t u : State} (h : PhaseKeeps s t) (g : PhaseKeeps t u) : PhaseKeeps s u where
  toWithin := h.toWithin.trans g.toWithin
  pair := g.pair.trans h.pair
  cmp := g.cmp.trans h.cmp
  autoWait := g.autoWait.trans h.autoWait
  upReady := g.upReady.trans h.upReady
  started := fun n => (g.started n).trans (h.started n)
  jobs := fun j k => h.jobs j (g.jobs j k)

theorem PhaseKeeps.ite {c : Prop} [Decidable c] {s t u : State} (ht : PhaseKeeps s t) (hu : PhaseKeeps s u) : PhaseKeeps s (if c then t else u) := by
  split
  · exact ht
  · exact hu

theorem PhaseKeeps.of_reports {s t : State} (h : Reports s t) (out : s.out <+: t.out) : PhaseKeeps s t where
  toWithin := .of_reports h out
  pair := h.pair
  cmp := h.cmp
  autoWait := by rw [h.xa]
  upReady := h.ring_upReady
  started := fun n => by rw [State.gen, h.wt, State.gen]
  jobs := fun j k => h.hif ▸ k

theorem raise_phase (s : State) (n : Nat) (d : List Byte) : PhaseKeeps s (raise s n d) := .of_reports (raise_reports s n d) (raise_out s n d)

theorem count_phase (s : State) (n k : Nat) : PhaseKeeps s (count s n k) := .of_reports (count_reports s n k) (count_out s n k)

theorem traceXa_phase (s : State) (x phase target : Nat) : PhaseKeeps s (traceXa s x phase target) :=
  .of_reports (traceXa_reports s x phase target) (by rw [traceXa, trace_out])

theorem setXid_phase (s : State) (x : Nat) (v : Xid) : PhaseKeeps s (s.setXid x v) :=
  ⟨.offRegs rfl List.prefix_rfl, rfl, rfl, rfl, rfl, fun _ => rfl, fun _ => id⟩

theorem modXid_phase (s : State) (x : Nat) (f : Xid → Xid) : PhaseKeeps s (s.modXid x f) := setXid_phase s x _

theorem freeXid_phase (s : State) (x : Nat) : PhaseKeeps s (freeXid s x) := setXid_phase s x _

/-- A change of the host interface that adds no job. -/
theorem modHif_phase (s : State) (f : Hif → Hif) (h : ∀ j ∈ (f s.hif).jobs, j ∈ s.hif.jobs) : PhaseKeeps s (s.modHif f) :=
  ⟨.offRegs rfl List.prefix_rfl, rfl, rfl, rfl, rfl, fun _ => rfl, h⟩

theorem recordWr_phase (s : State) {f : FRef} (v : Nat) (h : ∃ n, f.addr = R.HIF_CP_PROD n) : PhaseKeeps s (s.wr f v) :=
  ⟨.wr s f v fun _ _ _ => h, rfl, rfl, rfl, rfl, fun _ => rfl, fun _ => id⟩

/-! Records (R305, R307). -/

/-- HIF_CPL_READY tells of records, and changes nothing but that they are told. -/
theorem cplTell_eq (s : State) : ∃ u, cplTell s = { u with hif := { u.hif with dirty := (cplTell s).hif.dirty } } ∧ Reports s u ∧ s.out <+: u.out := by
  unfold cplTell
  split
  · exact ⟨s, rfl, .refl s, List.prefix_rfl⟩
  · exact ⟨(raise s 448 (bytesLE 2 s.hif.dirty)).reported 448, rfl, (raise_reports ..).trans (reported_reports ..), raise_out ..⟩

theorem cplTell_phase (s : State) : PhaseKeeps s (cplTell s) := by
  unfold cplTell
  refine .ite (.refl s) (((raise_phase s 448 _).trans (modHif_phase _ _ fun _ => id)).trans (.of_reports (reported_reports ..) ?_))
  exact List.prefix_rfl

theorem sent_phase (s : State) (l : List Output) : PhaseKeeps s { s with out := s.out ++ l } :=
  ⟨.offRegs rfl (List.prefix_append _ _), rfl, rfl, rfl, rfl, fun _ => rfl, fun _ => id⟩

theorem postCpl_phase (s : State) (n : Nat) (r : CplRec) : PhaseKeeps s (postCpl s n r) := by
  unfold postCpl
  split
  · exact .refl s
  · extract_lets p ph base p1 s1 s2
    have slot : PhaseKeeps s s1 := (recordWr_phase s _ ⟨n, rfl⟩).trans (recordWr_phase _ _ ⟨n, rfl⟩)
    exact ((slot.trans (sent_phase s1 _)).trans (modHif_phase s2 _ fun _ => id)).trans (cplTell_phase _)

theorem finishWith_phase (s : State) (j : Job) (r : CplRec) : PhaseKeeps s (finishWith s j r) :=
  (modHif_phase s _ fun _ k => List.mem_of_mem_filter k).trans (postCpl_phase _ _ r)

theorem finish_phase (s : State) (j : Job) (n : Nat) : PhaseKeeps s (finish s j n) := finishWith_phase s j _

/-- A record changes no transaction. -/
@[simp] theorem cplTell_xa (s : State) : (cplTell s).xa = s.xa := by
  obtain ⟨u, eq, rep, -⟩ := cplTell_eq s
  rw [eq]
  exact rep.xa

@[simp] theorem finishWith_xa (s : State) (j : Job) (r : CplRec) : (finishWith s j r).xa = s.xa := by
  unfold finishWith postCpl
  split
  · exact State.modHif_xa s _
  · simp only [cplTell_xa, State.modHif_xa, State.wr_xa]

/-! The phases of a transaction (R119, R128, R133). -/

@[simp] theorem State.xid_congr {s t : State} (h : t.xa = s.xa) (x : Nat) : t.xid x = s.xid x := by rw [State.xid, h, State.xid]

@[simp] theorem State.xid_setXid_ne (s : State) {x y : Nat} (v : Xid) (h : y ≠ x) : (s.setXid x v).xid y = s.xid y := Table.get_set_ne _ _ _ _ _ _ h

@[simp] theorem raise_xid (s : State) (n : Nat) (d : List Byte) (x : Nat) : (raise s n d).xid x = s.xid x := rfl

@[simp] theorem count_xid (s : State) (n k x : Nat) : (count s n k).xid x = s.xid x := State.xid_congr (count_reports s n k).xa x

@[simp] theorem traceXa_xid (s : State) (y phase target x : Nat) : (traceXa s y phase target).xid x = s.xid x :=
  State.xid_congr (traceXa_reports s y phase target).xa x

theorem postXa_phase (s : State) (x status : Nat) : PhaseKeeps s (postXa s x status) := by
  unfold postXa
  dsimp only
  split
  · exact .refl s
  · split
    · exact modXid_phase s x _
    · exact (modXid_phase s x _).trans (finishWith_phase _ _ _)

/-- What the completion of an XA_COMMIT changes of its XID: it names no job any more (R317). -/
theorem postXa_xid (s : State) (x status : Nat) : (postXa s x status).xid x = { s.xid x with completion := none } := by
  unfold postXa
  dsimp only
  split
  case h_1 none => rw [← none]
  case h_2 =>
    split
    · exact State.xid_setXid s x _
    · rw [State.xid_congr (finishWith_xa _ _ _)]
      exact State.xid_setXid s x _

theorem postXa_xid_ne (s : State) {x y : Nat} (status : Nat) (h : y ≠ x) : (postXa s x status).xid y = s.xid y := by
  unfold postXa
  dsimp only
  split
  · rfl
  · split
    · exact State.xid_setXid_ne s _ h
    · rw [State.xid_congr (finishWith_xa _ _ _)]
      exact State.xid_setXid_ne s _ h

theorem PhaseKeeps.reg {s t : State} (h : PhaseKeeps s t) {a : Nat} (off : ∀ n, a ≠ R.HIF_CP_PROD n) : t.reg a = s.reg a :=
  h.toWithin.reg fun _ ⟨n, eq⟩ => off n eq

theorem PhaseKeeps.rd {s t : State} (h : PhaseKeeps s t) {f : FRef} (off : ∀ n, f.addr ≠ R.HIF_CP_PROD n) : t.rd f = s.rd f := by
  rw [State.rd, h.reg off, State.rd]

theorem PhaseKeeps.on {s t : State} (h : PhaseKeeps s t) {f : FRef} (off : ∀ n, f.addr ≠ R.HIF_CP_PROD n) : t.on f = s.on f := by
  rw [State.on, h.rd off, State.on]

theorem PhaseKeeps.genRuns {s t : State} (h : PhaseKeeps s t) (n : Nat) : genRuns t n = genRuns s n := by
  rw [Machine.genRuns, h.started, h.on fun _ => by simp only [R.WT_RCFG, R.HIF_CP_PROD]; omega, Machine.genRuns]

/-- An XID that is aborted: the phase, the reason and the route it names. -/
def Xid.abort (v : Xid) (reason route rhb code : Nat) : Xid :=
  { v with st := .aborted, reason := reason, offender := route, offRhb := rhb, offCode := code, early := v.st == .building && v.completion.isNone }

/-- What stays to be read of an XID that is FREE again (R133). -/
def Xid.freed (v : Xid) : Xid := { Xid.init with reason := v.reason, target := v.target, voters := v.voters }

theorem freeXid_xid (s : State) (x : Nat) : (freeXid s x).xid x = (s.xid x).freed := State.xid_setXid s x _

theorem freeXid_xid_ne (s : State) {x y : Nat} (h : y ≠ x) : (freeXid s x).xid y = s.xid y := State.xid_setXid_ne s _ h

/-- The abort of an XID up to its completion. -/
def aborting (s : State) (x reason route rhb code : Nat) : State :=
  let v1 := (s.xid x).abort reason route rhb code
  postXa (count (raise (traceXa (s.setXid x v1) x 5 (s.xid x).target) 225
    (d2 x reason ++ bytesLE 4 route ++ bytesLE 1 rhb ++ bytesLE 1 code ++ bytesLE 1 (b2n (s.xid x).auto))) 36 1) x reason

theorem aborting_phase (s : State) (x reason route rhb code : Nat) : PhaseKeeps s (aborting s x reason route rhb code) :=
  ((((setXid_phase s x _).trans (traceXa_phase ..)).trans (raise_phase _ 225 _)).trans (count_phase _ 36 1)).trans (postXa_phase ..)

theorem aborting_xid (s : State) (x reason route rhb code : Nat) :
    (aborting s x reason route rhb code).xid x = { (s.xid x).abort reason route rhb code with completion := none } := by
  simp only [aborting, postXa_xid, count_xid, raise_xid, traceXa_xid, State.xid_setXid]

theorem aborting_xid_ne (s : State) {x y : Nat} (reason route rhb code : Nat) (h : y ≠ x) : (aborting s x reason route rhb code).xid y = s.xid y := by
  simp only [aborting, postXa_xid_ne _ _ h, count_xid, raise_xid, traceXa_xid, State.xid_setXid_ne s _ h]

/-- An XID that is aborted waits for its XA_COMMIT where it was BUILDING and for T + 3 where its prepares went out, and is FREE else (R119, R133). -/
theorem abortXid_eq (s : State) (x reason route rhb code : Nat) : abortXid s x reason route rhb code =
    if ((s.xid x).st == .building && (s.xid x).completion.isNone) || ((s.xid x).sent && genRuns s (s.xid x).refRing)
    then aborting s x reason route rhb code else freeXid (aborting s x reason route rhb code) x := by
  have runs : refRuns (aborting s x reason route rhb code) (s.xid x) = genRuns s (s.xid x).refRing := (aborting_phase ..).genRuns _
  rw [← runs]
  unfold abortXid
  by_cases early : ((s.xid x).st == .building && (s.xid x).completion.isNone) = true
  · simp only [early, Bool.true_or, if_true]
    simp only [aborting, Xid.abort, early]
  · simp only [Bool.not_eq_true] at early
    simp only [early, Bool.false_or, Bool.false_eq_true, if_false]
    simp only [aborting, Xid.abort, early]

theorem abortXid_phase (s : State) (x reason route rhb code : Nat) : PhaseKeeps s (abortXid s x reason route rhb code) := by
  rw [abortXid_eq]
  exact .ite (aborting_phase ..) ((aborting_phase ..).trans (freeXid_phase ..))

theorem abortXid_xid_ne (s : State) {x y : Nat} (reason route rhb code : Nat) (h : y ≠ x) : (abortXid s x reason route rhb code).xid y = s.xid y := by
  rw [abortXid_eq]
  split
  · exact aborting_xid_ne s _ _ _ _ h
  · rw [freeXid_xid_ne _ h, aborting_xid_ne s _ _ _ _ h]

/-- The reason is read after an abort, whatever the XID waits for (R133). -/
theorem abortXid_reason (s : State) (x reason route rhb code : Nat) : ((abortXid s x reason route rhb code).xid x).reason = reason := by
  rw [abortXid_eq]
  split
  · rw [aborting_xid]; rfl
  · rw [freeXid_xid, aborting_xid]; rfl

/-- An XID whose abort has to be told over its ring, or that waits for its XA_COMMIT, stays ABORTED with what it names. -/
theorem abortXid_aborted {s : State} {x : Nat} (reason route rhb code : Nat)
    (h : (s.xid x).st = .building ∧ (s.xid x).completion = none ∨ (s.xid x).sent = true ∧ genRuns s (s.xid x).refRing = true) :
    (abortXid s x reason route rhb code).xid x = { (s.xid x).abort reason route rhb code with completion := none } := by
  rw [abortXid_eq, if_pos, aborting_xid]
  rcases h with ⟨st, none⟩ | ⟨sent, runs⟩
  · simp [st, none]
  · simp [sent, runs]

/-- An XID that was not BUILDING, and of which nothing went out or whose generator stands, is FREE. -/
theorem abortXid_freed {s : State} {x : Nat} (reason route rhb code : Nat) (st : (s.xid x).st ≠ .building)
    (h : ¬ ((s.xid x).sent = true ∧ genRuns s (s.xid x).refRing = true)) :
    (abortXid s x reason route rhb code).xid x = ({ (s.xid x).abort reason route rhb code with completion := none } : Xid).freed := by
  rw [abortXid_eq, if_neg, freeXid_xid, aborting_xid]
  rw [← Bool.and_eq_true, Bool.not_eq_true] at h
  simp [st, h]

/-- An XID that is FIRED. -/
def Xid.fire (v : Xid) : Xid := { v with st := .fired }

/-- The firing of an XID up to what it brings about. -/
def firing (s : State) (x : Nat) : State :=
  let v := s.xid x
  let s2 := count (raise (traceXa (s.setXid x v.fire) x 3 v.target) 224 (d2 x 0 ++ bytesLE 6 v.target)) 35 1
  if v.auto then s2.setGen v.refRing { s2.gen v.refRing with newRate := some (v.rate, v.target) } else s2

theorem setRate_phase (s : State) (n : Nat) (r : Option (Nat × Nat)) : PhaseKeeps s (s.setGen n { s.gen n with newRate := r }) := by
  refine ⟨.offRegs rfl List.prefix_rfl, rfl, rfl, rfl, rfl, fun m => ?_, fun _ => id⟩
  by_cases h : m = n
  · rw [h, State.gen, State.setGen, Table.get_set_same]
  · rw [State.gen, State.setGen, Table.get_set_ne _ _ _ _ _ _ h, State.gen]

theorem firing_phase (s : State) (x : Nat) : PhaseKeeps s (firing s x) := by
  have told := (((setXid_phase s x (s.xid x).fire).trans (traceXa_phase _ x 3 (s.xid x).target)).trans
    (raise_phase _ 224 (d2 x 0 ++ bytesLE 6 (s.xid x).target))).trans (count_phase _ 35 1)
  exact .ite (told.trans (setRate_phase ..)) told

@[simp] theorem State.xid_setGen (s : State) (n : Nat) (g : Gen) (x : Nat) : (s.setGen n g).xid x = s.xid x := rfl

theorem firing_xid (s : State) (x : Nat) : (firing s x).xid x = (s.xid x).fire := by
  unfold firing
  dsimp only
  split <;> simp only [State.xid_setGen, count_xid, raise_xid, traceXa_xid, State.xid_setXid]

/-- A transaction whose reference ring runs is FIRED (R128). -/
theorem fire_eq (s : State) (x : Nat) : fire s x =
    let t := if (s.xid x).voters.isEmpty || !(genRuns s (s.xid x).refRing) then postXa (firing s x) x 0 else firing s x
    if genRuns s (s.xid x).refRing then t else freeXid t x := by
  have runs : refRuns (firing s x) (s.xid x) = genRuns s (s.xid x).refRing := (firing_phase s x).genRuns _
  rw [← runs]
  rfl

theorem fire_phase (s : State) (x : Nat) : PhaseKeeps s (fire s x) := by
  rw [fire_eq]
  have posted : PhaseKeeps s (if (s.xid x).voters.isEmpty || !(genRuns s (s.xid x).refRing) then postXa (firing s x) x 0 else firing s x) :=
    .ite ((firing_phase s x).trans (postXa_phase ..)) (firing_phase s x)
  exact .ite posted (posted.trans (freeXid_phase ..))

theorem fire_fired {s : State} {x : Nat} (runs : genRuns s (s.xid x).refRing = true) :
    ((fire s x).xid x).st = .fired := by
  rw [fire_eq, runs]
  dsimp only
  rw [if_pos rfl]
  split
  · rw [postXa_xid, firing_xid, Xid.fire]
  · rw [firing_xid, Xid.fire]

/-- The votes of a transaction stay to be read as it fires. -/
theorem fire_voters (s : State) (x : Nat) : ((fire s x).xid x).voters = (s.xid x).voters := by
  have fired : ((firing s x).xid x).voters = (s.xid x).voters := by rw [firing_xid, Xid.fire]
  have posted : ((postXa (firing s x) x 0).xid x).voters = (s.xid x).voters := by rw [postXa_xid, fired]
  have freed : ∀ t : State, ((freeXid t x).xid x).voters = (t.xid x).voters := fun t => by rw [freeXid_xid, Xid.freed]
  rw [fire_eq]
  dsimp only
  split <;> split <;> simp only [freed, fired, posted]

end Sys2Proof.Machine
end

section
/-! PROOF. A second look at what waits where nothing waits (O38, O39, O52, O56; R119, R305), the record that ends a job (R307), and a device alone (R272). -/
namespace Sys2Proof.Machine

theorem OffTime.of_within {W : Nat → Nat → Prop} {s t : State} (h : Within W s t) (pos : ∀ i, ¬ W R.CL_MYPOS i) : OffTime s t :=
  ⟨h.strap, h.pending, h.tap, h.upd, h.reg pos⟩

theorem PhaseKeeps.off {s t : State} (h : PhaseKeeps s t) : OffTime s t :=
  .of_within h.toWithin fun _ ⟨n, eq⟩ => by simp only [R.CL_MYPOS, R.HIF_CP_PROD] at eq; omega

/-! What waits (R119, R305). -/

theorem autoStart_none {s : State} (h : s.xa.autoWait = []) (k : Nat) : autoStart k s = s := by
  cases k with
  | zero => rfl
  | succ k => rw [autoStart, h]

theorem forIdx_still {f : State → Nat → State} {s : State} {n : Nat} (h : ∀ i < n, f s i = s) : forIdx n s f = s :=
  List.foldlRecOn (motive := (· = s)) _ _ rfl fun _ eq i mem => eq.symm ▸ h i (List.mem_range.mp mem)

/-- Where no head and no rate change waits, a second look tells of the records that are still to be told. -/
theorem retryHeads_idle {s : State} (h : NoHeadWaits s) : retryHeads s = cplTell s := by
  obtain ⟨heads, rates⟩ := h
  rw [retryHeads, autoStart_none rates, forIdx_still fun i small => tryHead_awake (heads ⟨i, small⟩)]

theorem cplTell_told {s : State} (h : s.hif.dirty = 0) : cplTell s = s := by simp [cplTell, h]

theorem retryHeads_still {s : State} (h : NoHeadWaits s) (told : s.hif.dirty = 0) : retryHeads s = s :=
  (retryHeads_idle h).trans (cplTell_told told)

theorem noHeadWaits_congr {s t : State} (h : NoHeadWaits s) (reg : ∀ n, t.reg (R.HIF_CR_STAT n) = s.reg (R.HIF_CR_STAT n)) (wait : t.xa.autoWait = s.xa.autoWait) :
    NoHeadWaits t :=
  ⟨fun n => by rw [State.on, State.rd, reg]; exact h.1 n, wait.trans h.2⟩

theorem noHeadWaits_phase {s t : State} (h : NoHeadWaits s) (k : PhaseKeeps s t) : NoHeadWaits t :=
  noHeadWaits_congr h (fun n => k.reg fun m => by simp only [R.HIF_CR_STAT, R.HIF_CP_PROD]; omega) k.autoWait

/-- A step that ends in a second look where nothing waits: its effect, but for what is told of records. -/
theorem retryHeads_phase {s u : State} (waits : NoHeadWaits s) (h : PhaseKeeps s u) : PhaseKeeps s (retryHeads u) := by
  rw [retryHeads_idle (noHeadWaits_phase waits h)]
  exact h.trans (cplTell_phase u)

theorem retryHeads_xid {s u : State} (waits : NoHeadWaits s) (h : PhaseKeeps s u) (x : Nat) : (retryHeads u).xid x = u.xid x := by
  rw [retryHeads_idle (noHeadWaits_phase waits h)]
  exact State.xid_congr (cplTell_xa u) x

/-! A job that ends (R307). -/

/-- A completion ring as the end of a job reads it. -/
structure RecordBase (s t : State) (n : Nat) : Prop where
  ctl : t.reg (R.HIF_CP_CTL n) = s.reg (R.HIF_CP_CTL n)
  prod : t.reg (R.HIF_CP_PROD n) = s.reg (R.HIF_CP_PROD n)
  low : t.reg (R.HIF_CP_BASE_LO n) = s.reg (R.HIF_CP_BASE_LO n)
  high : t.reg (R.HIF_CP_BASE_HI n) = s.reg (R.HIF_CP_BASE_HI n)

theorem RecordBase.of_reg {s t : State} {n : Nat} (h : ∀ a, a / 65536 = 3 → a ≠ R.HIF_CNT2 → t.reg a = s.reg a) : RecordBase s t n :=
  ⟨h _ (by simp) (by simp only [R.HIF_CP_CTL, R.HIF_CNT2]; omega), h _ (by simp) (by simp only [R.HIF_CP_PROD, R.HIF_CNT2]; omega),
    h _ (by simp) (by simp only [R.HIF_CP_BASE_LO, R.HIF_CNT2]; omega), h _ (by simp) (by simp only [R.HIF_CP_BASE_HI, R.HIF_CNT2]; omega)⟩

/-- A job that ends after a step that leaves its completion ring ends from the state before it. -/
theorem completes_since {s u t : State} {n : Nat} {j : Job} {r : CplRec} (h : Completes u t n j r) (base : RecordBase s u n) : Completes s t n j r := by
  have on : u.on (F.HIF_CP_CTL_EN n) = s.on (F.HIF_CP_CTL_EN n) := by rw [State.on, State.rd, base.ctl, State.on, State.rd]
  have phase : u.on (F.HIF_CP_PROD_PHASE n) = s.on (F.HIF_CP_PROD_PHASE n) := by rw [State.on, State.rd, base.prod, State.on, State.rd]
  have prod : u.rd (F.HIF_CP_PROD_PROD n) = s.rd (F.HIF_CP_PROD_PROD n) := by rw [State.rd, base.prod, State.rd]
  have size : cpSize u n = cpSize s n := by rw [cpSize, State.rd, base.ctl, cpSize, State.rd]
  have at_ : u.rd64 (F.HIF_CP_BASE_LO_BASE n) (F.HIF_CP_BASE_HI_BASE n) = s.rd64 (F.HIF_CP_BASE_LO_BASE n) (F.HIF_CP_BASE_HI_BASE n) := by
    rw [State.rd64, State.rd, State.rd, base.low, base.high, State.rd64, State.rd, State.rd]
  rw [Completes, on, phase, prod, size, at_] at h
  exact h

/-- A job that ended stays ended after a step that takes no job up, leaves HIF_CP_PROD and what was sent. -/
theorem completes_stays {s t u : State} {n : Nat} {j : Job} {r : CplRec} (h : Completes s t n j r) (jobs : ∀ k ∈ u.hif.jobs, k ∈ t.hif.jobs)
    (prod : u.reg (R.HIF_CP_PROD n) = t.reg (R.HIF_CP_PROD n)) (out : t.out <+: u.out) : Completes s u n j r := by
  obtain ⟨gone, posted⟩ := h
  refine ⟨fun k mem => gone k (jobs k mem), fun on => ?_⟩
  obtain ⟨slot, sent⟩ := posted on
  refine ⟨?_, out.subset sent⟩
  rw [State.rd, prod]
  exact slot

theorem completes_reports {s t u : State} {n : Nat} {j : Job} {r : CplRec} (h : Completes s t n j r) (rep : Reports t u) (out : t.out <+: u.out) :
    Completes s u n j r :=
  completes_stays h (fun _ mem => rep.hif ▸ mem) (rep.reg _) out

theorem cplTell_reg (s : State) (a : Nat) : (cplTell s).reg a = s.reg a := by
  obtain ⟨u, eq, rep, -⟩ := cplTell_eq s
  rw [eq]
  exact rep.reg a

theorem cplTell_jobs (s : State) : (cplTell s).hif.jobs = s.hif.jobs := by
  obtain ⟨u, eq, rep, -⟩ := cplTell_eq s
  have jobs : u.hif.jobs = s.hif.jobs := by rw [rep.hif]
  rw [eq]
  exact jobs

theorem cplTell_out (s : State) : s.out <+: (cplTell s).out := (cplTell_grows s).out

theorem completes_told {s t : State} {n : Nat} {j : Job} {r : CplRec} (h : Completes s t n j r) : Completes s (cplTell t) n j r :=
  completes_stays h (fun _ mem => cplTell_jobs t ▸ mem) (cplTell_reg t _) (cplTell_out t)

theorem postCpl_jobs (s : State) (n : Nat) (r : CplRec) : (postCpl s n r).hif.jobs = s.hif.jobs := by
  unfold postCpl
  split
  · rfl
  · exact cplTell_jobs _

/-- What is told of a record leaves the registers and what was sent. -/
theorem told_posts (s : State) (o : Output) (f : Hif → Hif) (r : FRef) :
    (cplTell (State.modHif { s with out := s.out ++ [o] } f)).rd r = s.rd r ∧ o ∈ (cplTell (State.modHif { s with out := s.out ++ [o] } f)).out := by
  refine ⟨?_, (cplTell_out _).subset (List.mem_append_right s.out (List.mem_singleton.mpr rfl))⟩
  rw [State.rd, cplTell_reg]
  rfl

/-- A completion ring with HIF_CP_PROD past the slot that a record takes. -/
def slotTaken (s : State) (n : Nat) : State :=
  let p1 := (s.rd (F.HIF_CP_PROD_PROD n) + 1) % cpSize s n
  (s.wr (F.HIF_CP_PROD_PROD n) p1).wr (F.HIF_CP_PROD_PHASE n) (b2n (if p1 = 0 then !(s.on (F.HIF_CP_PROD_PHASE n)) else s.on (F.HIF_CP_PROD_PHASE n)))

theorem slotTaken_prod (s : State) (n : Nat) : (slotTaken s n).rd (F.HIF_CP_PROD_PROD n) = (s.rd (F.HIF_CP_PROD_PROD n) + 1) % cpSize s n := by
  have slot : (s.rd (F.HIF_CP_PROD_PROD n) + 1) % cpSize s n < 4096 := by
    have size : cpSize s n ≤ 2 ^ 12 := Nat.pow_le_pow_right (by decide) (Nat.min_le_left ..)
    have some : 0 < cpSize s n := Nat.two_pow_pos _
    exact (Nat.mod_lt _ some).trans_le size
  unfold slotTaken
  dsimp only
  generalize (s.rd (F.HIF_CP_PROD_PROD n) + 1) % cpSize s n = p at slot ⊢
  generalize b2n _ = v
  rw [State.rd_wr_other _ (F.HIF_CP_PROD_PHASE n) (F.HIF_CP_PROD_PROD n) v rfl (by decide : 12 + 1 ≤ 32) (.inl (by decide : 0 + 12 ≤ 12)), State.rd_wr_same s (F.HIF_CP_PROD_PROD n) p (by decide : 0 + 12 ≤ 32)]
  exact Nat.mod_eq_of_lt slot

/-- The record that goes to the host. -/
def recordSent (s : State) (n : Nat) (r : CplRec) : Output :=
  .hostWrite (s.rd64 (F.HIF_CP_BASE_LO_BASE n) (F.HIF_CP_BASE_HI_BASE n) + 64 * s.rd (F.HIF_CP_PROD_PROD n)) (r.toBytes (s.on (F.HIF_CP_PROD_PHASE n)))

theorem postCpl_eq {s : State} {n : Nat} (r : CplRec) (small : n < 16) (on : s.on (F.HIF_CP_CTL_EN n) = true) :
    ∃ f, postCpl s n r = cplTell (State.modHif { slotTaken s n with out := (slotTaken s n).out ++ [recordSent s n r] } f) := by
  have open_ : ¬ (decide (16 ≤ n) || !(s.on (F.HIF_CP_CTL_EN n))) = true := by simp [on, small]
  rw [postCpl, if_neg open_]
  exact ⟨_, rfl⟩

/-- A record moves HIF_CP_PROD on and leaves for its slot. -/
theorem postCpl_posts {s : State} {n : Nat} (r : CplRec) (small : n < 16) (on : s.on (F.HIF_CP_CTL_EN n) = true) :
    (postCpl s n r).rd (F.HIF_CP_PROD_PROD n) = (s.rd (F.HIF_CP_PROD_PROD n) + 1) % cpSize s n ∧ recordSent s n r ∈ (postCpl s n r).out := by
  obtain ⟨f, eq⟩ := postCpl_eq r small on
  rw [eq]
  obtain ⟨slot, sent⟩ := told_posts (slotTaken s n) (recordSent s n r) f (F.HIF_CP_PROD_PROD n)
  exact ⟨slot.trans (slotTaken_prod s n), sent⟩

/-- A job of a command ring ends with its record. -/
theorem finishWith_completes (s : State) {j : Job} (r : CplRec) {n : Nat} (ring : j.ring = n) (small : n < 16) : Completes s (finishWith s j r) n j r := by
  subst ring
  unfold finishWith
  refine ⟨fun k mem => ?_, fun on => postCpl_posts r small on⟩
  rw [postCpl_jobs] at mem
  simpa using (List.mem_filter.mp mem).2

end Sys2Proof.Machine
end

section
/-! PROOF. What leaves transactions, jobs and the host interface (O38, O39, O52, O56; R71, R279, R280): control packets, mirrored items, and what a sender
shows of its lease. -/
namespace Sys2Proof.Machine

/-- What stays to a step that sends, mirrors or shows a lease: transactions, composition, the registers and jobs of the host interface. -/
structure HostStays (s t : State) : Prop where
  link : LinkKeeps s t
  xa : t.xa = s.xa
  cmp : t.cmp = s.cmp
  jobs : t.hif.jobs = s.hif.jobs
  reqs : t.hif.reqs = s.hif.reqs
  reg : ∀ a, a / 65536 = 3 → t.reg a = s.reg a
  out : s.out <+: t.out

theorem HostStays.refl (s : State) : HostStays s s := ⟨.refl s, rfl, rfl, rfl, rfl, fun _ _ => rfl, List.prefix_rfl⟩

theorem HostStays.trans {s t u : State} (h : HostStays s t) (g : HostStays t u) : HostStays s u where
  link := h.link.trans g.link
  xa := g.xa.trans h.xa
  cmp := g.cmp.trans h.cmp
  jobs := g.jobs.trans h.jobs
  reqs := g.reqs.trans h.reqs
  reg := fun a block => (g.reg a block).trans (h.reg a block)
  out := h.out.trans g.out

theorem HostStays.ite {c : Prop} [Decidable c] {s t u : State} (ht : HostStays s t) (hu : HostStays s u) : HostStays s (if c then t else u) := by
  split
  · exact ht
  · exact hu

theorem HostStays.foldl {β : Type} {f : State → β → State} (hf : ∀ s x, HostStays s (f s x)) (l : List β) (s : State) : HostStays s (l.foldl f s) := by
  induction l generalizing s with
  | nil => exact .refl s
  | cons x l ih => exact (hf s x).trans (ih _)

theorem HostStays.of_reports {s t : State} (h : Reports s t) (out : s.out <+: t.out) : HostStays s t where
  link := .of_reports h
  xa := h.xa
  cmp := h.cmp
  jobs := by rw [h.hif]
  reqs := by rw [h.hif]
  reg := fun a _ => h.reg a
  out := out

theorem HostStays.off {s t : State} (h : HostStays s t) : OffTime s t := .of_link h.link

theorem HostStays.xid {s t : State} (h : HostStays s t) (x : Nat) : t.xid x = s.xid x := State.xid_congr h.xa x

theorem HostStays.idle {s t : State} (h : HostStays s t) (waits : NoHeadWaits s) : NoHeadWaits t :=
  noHeadWaits_congr waits (fun _ => h.reg _ (by simp)) (by rw [h.xa])

theorem raise_host (s : State) (n : Nat) (d : List Byte) : HostStays s (raise s n d) := .of_reports (raise_reports s n d) (raise_out s n d)

/-- A change of the pair or of what is sent. -/
theorem sent_host (s : State) (p : Pair) (l : List Output) : HostStays s { s with pair := p, out := s.out ++ l } :=
  ⟨.parts rfl, rfl, rfl, rfl, rfl, fun _ _ => rfl, List.prefix_append _ _⟩

theorem pair_host (s : State) (p : Pair) : HostStays s { s with pair := p } := ⟨.parts rfl, rfl, rfl, rfl, rfl, fun _ _ => rfl, List.prefix_rfl⟩

/-- A register of another block than the host interface's. -/
theorem wr_host (s : State) (f : FRef) (v : Nat) (link : linkBlock f.addr) (h : f.addr / 65536 ≠ 3) : HostStays s (s.wr f v) :=
  ⟨.wr s f v link, rfl, rfl, rfl, rfl, fun _ block => s.reg_wr_ne f v (by rintro rfl; exact h block), List.prefix_rfl⟩

theorem red_host (s : State) (f : FRef) (v : Nat) (h : f.addr / 65536 = 15) : HostStays s (s.wr f v) :=
  wr_host s f v (by simp [linkBlock, h]) (by omega)

theorem setLease_host (s : State) (r : Nat) (x : Lease) : HostStays s (s.setLease r x) := pair_host s _

theorem setChan_host (s : State) (u : Bool) (c : Chan) : HostStays s (s.setChan u c) := pair_host s _

theorem showMq_host (s : State) : HostStays s (showMq s) := (red_host s _ _ (by decide)).trans (red_host _ _ _ (by decide))

theorem mirrorOut_host (s : State) (u : Bool) (i : MItem) : HostStays s (mirrorOut s u i) := sent_host s s.pair _

theorem mirrorSend_host (s : State) (u : Bool) (k a : Nat) (b : List Nat) : HostStays s (mirrorSend s u k a b) := by
  unfold mirrorSend
  split
  · exact .refl s
  · extract_lets c i fits c1 s1
    have queued (c : Chan) : HostStays s (showMq (s.setChan u c)) := (setChan_host s u c).trans (showMq_host _)
    exact .ite ((queued _).trans (mirrorOut_host _ u i)) (.ite ((queued _).trans (raise_host _ 443 _)) (queued _))

theorem mirrorAsk_host (s : State) (u : Bool) (k : Nat) (b : List Nat) (x : Nat) : HostStays s (mirrorAsk s u k b x) := by
  unfold mirrorAsk
  exact .ite (.refl s) ((pair_host s _).trans (mirrorSend_host _ u k 0 b))

theorem takeSeq_host (s : State) (r : Nat) : HostStays s (takeSeq s r).1 := red_host s _ _ (by simp)

theorem dropPix_host (s : State) (r q : Nat) : HostStays s (dropPix s r q) := setLease_host s r _

theorem jumpSeq_host (s : State) (r : Nat) : HostStays s (jumpSeq s r) := by
  unfold jumpSeq
  exact .ite (.refl s) ((red_host s _ _ (by simp)).trans (setLease_host _ r _))

theorem emitDown_host (s : State) (r : Nat) (c : Copy) : HostStays s (emitDown s r c) := sent_host s s.pair _

theorem sendSeq_host (s : State) (r : Nat) (c : Copy) : HostStays s (sendSeq s r c) := by
  unfold sendSeq
  exact .ite ((setLease_host s r _).trans (emitDown_host _ r c)) (.refl s)

theorem sendSeqmark_host (s : State) (r : Nat) : HostStays s (sendSeqmark s r) := (setLease_host s r _).trans (mirrorSend_host ..)

/-- A control packet that leaves, before it is mirrored. -/
theorem controlSent_host (s : State) (r : Nat) (c : Copy) : HostStays s (sendSeq (dropPix (takeSeq s r).1 r (takeSeq s r).2) r c) :=
  ((takeSeq_host s r).trans (dropPix_host _ r _)).trans (sendSeq_host _ r c)

theorem sendControl_host (s : State) (r : Nat) (mk : Nat → Copy) : HostStays s (sendControl s r mk).1 := by
  by_cases may : mayControl s r = true
  · simp only [sendControl, may, Bool.not_true, Bool.false_eq_true, if_false]
    have jumped : HostStays s (if pairEn s && !(mirrorUp s) then jumpSeq s r else s) := .ite (jumpSeq_host s r) (.refl s)
    generalize (if pairEn s && !(mirrorUp s) then jumpSeq s r else s) = s0 at jumped ⊢
    have sent := jumped.trans (controlSent_host s0 r (mk (takeSeq s0 r).2))
    generalize sendSeq (dropPix (takeSeq s0 r).1 r (takeSeq s0 r).2) r (mk (takeSeq s0 r).2) = s1 at sent ⊢
    split
    · exact ((sent.trans (mirrorSend_host ..)).trans (setLease_host _ r _)).trans (sendSeqmark_host _ r)
    · exact sent
  · simp only [sendControl, may, Bool.not_false, if_true]
    exact .refl s

theorem sendWhistle_host (s : State) (r : Nat) : HostStays s (sendWhistle s r) := (setLease_host s r _).trans (sent_host _ _ _)

theorem redRefresh_host (s : State) : HostStays s (redRefresh s) := by
  unfold redRefresh
  split
  · exact .refl s
  · dsimp only
    refine HostStays.trans (HostStays.trans (HostStays.trans (.trans (.trans (.trans (.trans (red_host s _ _ ?_) (red_host _ _ _ ?_)) (red_host _ _ _ ?_))
      (red_host _ _ _ ?_)) (red_host _ _ _ ?_)) (red_host _ _ _ ?_)) (pair_host _ _)) (.foldl (fun s r => .ite (.refl s) (sendWhistle_host s r)) _ _)
    all_goals decide

theorem alignShow_host (s : State) : HostStays s (alignShow s) := by
  unfold alignShow
  extract_lets a
  exact .ite (.refl s) ((wr_host s _ _ (by simp [linkBlock]) (by decide)).trans (raise_host _ 217 _))

theorem cplTell_host (s : State) : HostStays s (cplTell s) := by
  refine ⟨cplTell_keeps s, cplTell_xa s, ?_, cplTell_jobs s, ?_, fun a _ => cplTell_reg s a, cplTell_out s⟩
  · exact (cplTell_phase s).cmp
  · obtain ⟨u, eq, rep, -⟩ := cplTell_eq s
    have reqs : u.hif.reqs = s.hif.reqs := by rw [rep.hif]
    rw [eq]
    exact reqs

/-- A device alone has no mirror link to follow (R272). -/
theorem linkCheck_alone {s : State} (alone : pairEn s = false) : linkCheck s = alignShow (redRefresh s) := by
  simp only [linkCheck, pairCheck, pairLink, alone, Bool.false_and, Bool.not_false, if_true, Bool.false_eq_true, if_false]

theorem linkCheck_host {s : State} (alone : pairEn s = false) : HostStays s (linkCheck s) := by
  rw [linkCheck_alone alone]
  exact (redRefresh_host s).trans (alignShow_host _)

end Sys2Proof.Machine
end

section
/-! PROOF. A sender prepares its transactions and gives them up (O38): the prepares of every ring leave, voting begins, the host's abort, the deadline
(R119 to R121, R128, R133, R309). -/
namespace Sys2Proof.Machine

/-! Control packets of a device alone (R71, R272). -/

/-- What a device alone keeps as it sends control packets. -/
structure SendKeeps (s t : State) : Prop where
  host : HostStays s t
  alone : AloneKeeps s t

theorem SendKeeps.refl (s : State) : SendKeeps s s := ⟨.refl s, .refl s⟩

theorem SendKeeps.trans {s t u : State} (h : SendKeeps s t) (g : SendKeeps t u) : SendKeeps s u := ⟨h.host.trans g.host, h.alone.trans g.alone⟩

section
variable {β : Type} {f : State → β → State}

theorem SendKeeps.foldl (step : ∀ s x, pairEn s = false → SendKeeps s (f s x)) (l : List β) {s : State} (alone : pairEn s = false) :
    SendKeeps s (l.foldl f s) := by
  induction l generalizing s with
  | nil => exact .refl s
  | cons x l ih =>
    have keeps := step s x alone
    exact keeps.trans (ih (keeps.alone.pairEn.trans alone))

/-- Each element of a list is served in a state that keeps what comes before, and what it sends stays sent. -/
theorem foldl_serves (step : ∀ s x, pairEn s = false → SendKeeps s (f s x)) {l : List β} {x : β} (mem : x ∈ l) {s : State} (alone : pairEn s = false) :
    ∃ u, SendKeeps s u ∧ SendKeeps (f u x) (l.foldl f s) := by
  induction l generalizing s with
  | nil => exact absurd mem List.not_mem_nil
  | cons y l ih =>
    have keeps := step s y alone
    have still := keeps.alone.pairEn.trans alone
    rcases List.mem_cons.1 mem with rfl | later
    · exact ⟨s, .refl s, .foldl step l still⟩
    · obtain ⟨u, before, after⟩ := ih later still
      exact ⟨u, keeps.trans before, after⟩

end

theorem sendControl_send (s : State) (r : Nat) (mk : Nat → Copy) (alone : pairEn s = false) : SendKeeps s (sendControl s r mk).1 :=
  ⟨sendControl_host s r mk, sendControl_alone s r mk alone⟩

/-- A ring that a device alone holds, not silent, and an end of it that is UP. -/
structure Speaks (s : State) (r p : Nat) : Prop where
  alone : pairEn s = false
  may : mayControl s r = true
  loud : s.on (F.RED_RSTAT_SILENT r) = false
  end_ : p ∈ ringEnds s r
  up : s.isUp p = true

theorem Speaks.after {s t : State} {r p : Nat} (h : Speaks s r p) (k : AloneKeeps s t) : Speaks t r p where
  alone := k.pairEn.trans h.alone
  may := (k.mayControl h.alone r).trans h.may
  loud := by rw [State.on, k.silent]; exact h.loud
  end_ := by rw [k.ringEnds]; exact h.end_
  up := by rw [k.isUp]; exact h.up

theorem Speaks.leaves {s : State} {r p : Nat} (h : Speaks s r p) (mk : Nat → Copy) : .packet p (mk (s.rd (F.RED_RSTAT_SEQ r))) ∈ (sendControl s r mk).1.out :=
  sendControl_leaves mk h.alone h.may h.loud h.end_ h.up

/-! The prepares of one ring (R120, R121). -/

/-- The parts of one destination. -/
def destParts (x r target : Nat) (v : Xid) (s : State) (d : XaDest) : State :=
  (partBodies x (epochOf s r) target (dleadOf s r) (partRate s v r target d.ops) d).foldl (fun s b => (sendControl s r (downPacket 7 d.rhb d.route b)).1) s

/-- The parts of every destination of a ring, the broadcast first. -/
def ringParts (s : State) (x r target : Nat) : State :=
  let l := (s.xid x).dests.filter fun d => destRing s d == r
  ((l.filter fun d => posOfRoute s d.route == 63) ++ l.filter fun d => posOfRoute s d.route != 63).foldl (destParts x r target (s.xid x)) s

theorem prepareRing_eq (s : State) (x r target : Nat) : prepareRing s x r target =
    (sendControl (ringParts s x r target) r (downPacket 7 (ringRhb s r) (ringRoute s r) (closeBody x (epochOf s r) target))).1 := rfl

theorem destParts_send (x r target : Nat) (v : Xid) (s : State) (d : XaDest) (alone : pairEn s = false) : SendKeeps s (destParts x r target v s d) :=
  .foldl (fun s _ => sendControl_send s r _) _ alone

theorem ringParts_send (s : State) (x r target : Nat) (alone : pairEn s = false) : SendKeeps s (ringParts s x r target) :=
  .foldl (destParts_send x r target _) _ alone

theorem prepareRing_send (s : State) (x r target : Nat) (alone : pairEn s = false) : SendKeeps s (prepareRing s x r target) := by
  have parts := ringParts_send s x r target alone
  rw [prepareRing_eq]
  exact parts.trans (sendControl_send _ r _ (parts.alone.pairEn.trans alone))

/-- What a prepare says of a ring is read alike before and after other prepares. -/
theorem SendKeeps.bodies {s t : State} (h : SendKeeps s t) (alone : pairEn s = false) (x r target : Nat) (v : Xid) (d : XaDest) :
    partBodies x (epochOf t r) target (dleadOf t r) (partRate t v r target d.ops) d =
      partBodies x (epochOf s r) target (dleadOf s r) (partRate s v r target d.ops) d := by
  have epoch : epochOf t r = epochOf s r := by rw [epochOf, h.alone.pairEn, epochOf]; simp [alone]
  have lead : t.reg (R.WT_RCFG r) = s.reg (R.WT_RCFG r) := h.host.link.reg _ (by simp only [linkBlock, R.WT_RCFG, R.WT_PAIR]; omega)
  have guard : t.reg R.XA_CTL = s.reg R.XA_CTL := h.host.link.reg _ (by unfold linkBlock; decide)
  have dlead : dleadOf t r = dleadOf s r := by simp only [dleadOf, State.rd, lead, guard]
  have rate : partRate t v r target d.ops = partRate s v r target d.ops := by simp only [partRate, rateFrom, State.gen, h.host.link.wt]
  rw [epoch, dlead, rate]

/-- A part of a destination leaves every end of its ring that is UP. -/
theorem destParts_leave {s : State} {r p : Nat} (h : Speaks s r p) (x target : Nat) (v : Xid) (d : XaDest) {b : List Byte}
    (mem : b ∈ partBodies x (epochOf s r) target (dleadOf s r) (partRate s v r target d.ops) d) :
    ∃ q, .packet p (downPacket 7 d.rhb d.route b q) ∈ (destParts x r target v s d).out := by
  obtain ⟨u, before, after⟩ := foldl_serves (f := fun s b => (sendControl s r (downPacket 7 d.rhb d.route b)).1) (fun s _ => sendControl_send s r _) mem h.alone
  exact ⟨_, after.host.out.subset ((h.after before.alone).leaves _)⟩

/-- Every destination of the ring is served. -/
theorem ringParts_leave {s : State} {r p : Nat} (h : Speaks s r p) (x target : Nat) {d : XaDest} (dest : d ∈ (s.xid x).dests) (ring : destRing s d = r)
    {b : List Byte} (mem : b ∈ partBodies x (epochOf s r) target (dleadOf s r) (partRate s (s.xid x) r target d.ops) d) :
    ∃ q, .packet p (downPacket 7 d.rhb d.route b q) ∈ (ringParts s x r target).out := by
  have served : d ∈ ((s.xid x).dests.filter fun d => destRing s d == r).filter (fun d => posOfRoute s d.route == 63) ++
      ((s.xid x).dests.filter fun d => destRing s d == r).filter fun d => posOfRoute s d.route != 63 := by
    by_cases all : posOfRoute s d.route = 63
    · exact List.mem_append_left _ (by simp [dest, ring, all])
    · exact List.mem_append_right _ (by simp [dest, ring, all])
  obtain ⟨u, before, after⟩ := foldl_serves (destParts_send x r target (s.xid x)) served h.alone
  rw [← before.bodies h.alone] at mem
  obtain ⟨q, sent⟩ := destParts_leave (h.after before.alone) x target (s.xid x) d mem
  exact ⟨q, after.host.out.subset sent⟩

/-- A downward packet of either board half has its type (R64). -/
theorem downPacket_type {type rhb : Nat} (small : type < 16) (half : rhb < 4) (route : Nat) (data : List Byte) (q : Nat) :
    (downPacket type rhb route data q).type = type := by
  simp only [downPacket, mkCopy, Copy.type, bits, b2n, BitVec.toNat_ofNat, Nat.shiftRight_eq_div_pow, Bool.false_eq_true, if_false]
  omega

/-- The ring that a port of the device ends on is one of the eight (R26). -/
theorem ringEnds_small {s : State} {r p : Nat} (end_ : p ∈ ringEnds s r) : r < 8 := by
  obtain ⟨-, on⟩ := List.mem_filter.mp end_
  simp only [Bool.and_eq_true, beq_iff_eq] at on
  rw [← on.2]
  exact bits_lt _ _ 3

/-- A prepare close leaves after the parts, every end of the ring that is UP (R121). -/
theorem prepareRing_closes {s : State} {r p : Nat} (h : Speaks s r p) {x : Nat} (small : x < 16) (target : Nat) :
    ∃ c, .packet p c ∈ (prepareRing s x r target).out ∧ c.type = 7 ∧ beAt c.data 0 1 = 4 ∧ beAt c.data 1 1 = x ∧ beAt c.data 8 6 = target % 2 ^ 48 := by
  have half : ringRhb s r < 4 := by
    have ring := ringEnds_small h.end_
    unfold ringRhb
    split <;> omega
  have leaves := (h.after (ringParts_send s x r target h.alone).alone).leaves (downPacket 7 (ringRhb s r) (ringRoute s r) (closeBody x (epochOf s r) target))
  rw [← prepareRing_eq] at leaves
  refine ⟨_, leaves, downPacket_type (by decide) half _ _ _, ?_⟩
  obtain ⟨kind, xid, at_⟩ := xaHead_fields 4 x (epochOf s r) 0 target (bytesBE 2 0 ++ List.replicate ((8 - (closeBody x (epochOf s r) target).length % 8) % 8) 0#8)
  rw [Nat.mod_eq_of_lt (show x < 256 by omega)] at xid
  simp only [downPacket, mkCopy, closeBody, ← List.append_assoc] at kind xid at_ ⊢
  exact ⟨kind, xid, at_⟩

theorem PhaseKeeps.pairEn {s t : State} (h : PhaseKeeps s t) : pairEn t = pairEn s := by
  rw [Machine.pairEn, State.isSender, h.strap, h.on fun n => by simp only [R.RED_CFG, R.HIF_CP_PROD]; omega, Machine.pairEn, State.isSender]

theorem PhaseKeeps.runs {f : State → State} {s : State} (h : PhaseKeeps s (f s)) : ∃ t, ordinary f s = .next t ∧ Reports (f s) t ∧ (f s).out <+: t.out :=
  h.off.runs

/-! The decision (R128). -/

/-- Outside a pair a transaction without a parent is FIRED as its last vote is READY. -/
theorem decide_alone {s : State} {x : Nat} (alone : pairEn s = false) (parent : (s.xid x).parent = none) :
    decide_ s x = if (s.xid x).st = .voting ∧ allReady (s.xid x) = true then fire s x else s := by
  by_cases due : (s.xid x).st = .voting ∧ allReady (s.xid x) = true
  · simp [decide_, due, alone, parent]
  · rw [if_neg due, decide_]
    refine if_pos ?_
    rw [not_and_or] at due
    rcases due with h | h <;> simp [h]

theorem decide_alone_phase {s : State} {x : Nat} (alone : pairEn s = false) (parent : (s.xid x).parent = none) : PhaseKeeps s (decide_ s x) := by
  rw [decide_alone alone parent]
  exact .ite (fire_phase s x) (.refl s)

/-! XA_PREPARE_SEND (R119 to R121). -/

/-- A transaction whose prepares are out. -/
def votingBegun (s : State) (x target : Nat) : State := traceXa (s.modXid x fun v => { v with st := .voting, sent := true }) x 1 target

theorem votingBegun_phase (s : State) (x target : Nat) : PhaseKeeps s (votingBegun s x target) := (modXid_phase s x _).trans (traceXa_phase ..)

theorem votingBegun_xid (s : State) (x target : Nat) : (votingBegun s x target).xid x = { s.xid x with st := .voting, sent := true } := by
  rw [votingBegun, traceXa_xid]
  exact State.xid_setXid s x _

/-- The entry lists read. -/
def listsRead (s : State) (x : Nat) (data : List Byte) : State := s.modXid x fun v => { v with dests := readLists v.dests data }

/-- The prepares of a ring with its target. -/
def ringPrepared (x : Nat) (s : State) (e : Nat × Nat) : State := prepareRing s x e.1 e.2

/-- The prepares of every ring of an XID. -/
def preparesSent (s : State) (x : Nat) (rings : List (Nat × Nat)) : State := rings.foldl (ringPrepared x) s

theorem ringPrepared_send (x : Nat) (s : State) (e : Nat × Nat) (alone : pairEn s = false) : SendKeeps s (ringPrepared x s e) :=
  prepareRing_send s x e.1 e.2 alone

theorem preparesSent_send (s : State) (x : Nat) (rings : List (Nat × Nat)) (alone : pairEn s = false) : SendKeeps s (preparesSent s x rings) :=
  .foldl (ringPrepared_send x) rings alone

theorem setXid_alone (s : State) (x : Nat) (v : Xid) : AloneKeeps s (s.setXid x v) := ⟨rfl, rfl, rfl, fun _ => rfl, fun _ _ => rfl, List.prefix_rfl⟩

theorem AloneKeeps.isCoach {s t : State} (h : AloneKeeps s t) : t.isCoach = s.isCoach := by
  simp only [State.isCoach, State.isSender, State.portIs, State.on, h.strap, h.rd (f := F.CL_PCFG_EN _) (by simp), h.rd (f := F.CL_PCFG_KIND _) (by simp)]

/-- The ring of a destination is the device's place and its route (R15). -/
theorem AloneKeeps.destRing {s t : State} (h : AloneKeeps s t) (d : XaDest) : destRing t d = destRing s d := by
  simp only [Machine.destRing, ringOfRoute, ringTier, h.isCoach, h.rd (f := F.CL_MYROUTE_ROUTE) (by decide)]

theorem listsRead_xid (s : State) (x : Nat) (data : List Byte) :
    (listsRead s x data).xid x = { s.xid x with dests := readLists (s.xid x).dests data } := by
  rw [listsRead, State.modXid, State.xid_setXid]

theorem mayControl_holds {s : State} {r : Nat} (h : mayControl s r = true) : holds s r = true := by
  simp only [mayControl, Bool.and_eq_true] at h
  exact h.1.1

section
variable {s : State} {x : Nat} (preparing : (s.xid x).st = .preparing) (parent : (s.xid x).parent = none) (held : ∀ e ∈ (s.xid x).rings, holds s e.1 = true)
include preparing parent held

/-- Outside a pair, with the rings held and reachable and the lists read, every prepare leaves and the decision follows. -/
theorem prepareSend_leaves {data : Option (List Byte)} (alone : pairEn s = false) (reached : ∀ e ∈ (s.xid x).rings, (ringEnds s e.1).any s.isUp = true)
    (lists : listBytes (s.xid x).dests = 0 ∨ data.isSome = true) :
    prepareSend s x data = decide_ (votingBegun (preparesSent (listsRead s x (data.getD [])) x (s.xid x).rings) x (s.xid x).target) x := by
  have mine : ((s.xid x).rings.any fun e => !(holds s e.1)) = false := List.any_eq_false.mpr fun e mem => by simp [held e mem]
  have reach : ((s.xid x).rings.any fun e => !((ringEnds s e.1).any s.isUp)) = false := List.any_eq_false.mpr fun e mem => by rw [reached e mem]; decide
  have read : (listBytes (s.xid x).dests != 0 && data.isNone) = false := by
    rcases lists with h | h
    · simp [h]
    · simp [Option.isNone_eq_false_iff.mpr h]
  unfold prepareSend
  simp only [preparing, parent, mine, reach, alone, read, bne_self_eq_false, Option.isSome_none, Bool.or_false, Bool.false_and, Bool.false_eq_true, if_false]
  rfl

/-- A ring without an end that is UP: reason 7 (R133). -/
theorem prepareSend_unreachable {data : Option (List Byte)} (dark : ∃ e ∈ (s.xid x).rings, (ringEnds s e.1).any s.isUp = false) :
    prepareSend s x data = abortXid s x reasonUnreachable 0 0 0 := by
  have mine : ((s.xid x).rings.any fun e => !(holds s e.1)) = false := List.any_eq_false.mpr fun e mem => by simp [held e mem]
  have reach : ((s.xid x).rings.any fun e => !((ringEnds s e.1).any s.isUp)) = true := by
    obtain ⟨e, mem, off⟩ := dark
    exact List.any_eq_true.mpr ⟨e, mem, by rw [off]; decide⟩
  unfold prepareSend
  simp only [preparing, parent, mine, reach, bne_self_eq_false, Option.isSome_none, Bool.or_false, Bool.false_eq_true, if_false, if_true]

/-- Lists that no host sends (R309). -/
theorem prepareSend_unread (alone : pairEn s = false) (reached : ∀ e ∈ (s.xid x).rings, (ringEnds s e.1).any s.isUp = true)
    (lists : listBytes (s.xid x).dests ≠ 0) : prepareSend s x none = listsUnread s x := by
  have mine : ((s.xid x).rings.any fun e => !(holds s e.1)) = false := List.any_eq_false.mpr fun e mem => by simp [held e mem]
  have reach : ((s.xid x).rings.any fun e => !((ringEnds s e.1).any s.isUp)) = false := List.any_eq_false.mpr fun e mem => by rw [reached e mem]; decide
  have read : (listBytes (s.xid x).dests != 0 && (none : Option (List Byte)).isNone) = true := by simp [lists]
  unfold prepareSend
  simp only [preparing, parent, mine, reach, alone, read, bne_self_eq_false, Option.isSome_none, Bool.or_false, Bool.false_and, Bool.false_eq_true, if_false, if_true]

end

theorem prepareSend_other {s : State} {x : Nat} (data : Option (List Byte)) (other : (s.xid x).st ≠ .preparing) : prepareSend s x data = s := by
  simp [prepareSend, other]

/-! The clauses of XA_PREPARE_SEND. -/

theorem exec_xaPrepareSend (x : Fin 16) (data : Option (List Byte)) (s : State) :
    exec (.xaPrepareSend x data) s = ordinary (fun s => retryHeads (prepareSend s x.val data)) s := rfl

theorem exec_xaDeadline (x : Fin 16) (s : State) : exec (.xaDeadline x) s = ordinary (fun s => retryHeads (deadlinePass s x.val)) s := rfl

/-- What preparing an XID does up to the decision. -/
def prepared (s : State) (x : Nat) (data : List Byte) : State :=
  votingBegun (preparesSent (listsRead s x data) x (s.xid x).rings) x (s.xid x).target

section
variable {s : State} (x : Nat) (data : List Byte) (alone : pairEn s = false)
include alone

theorem preparesSent_listsRead : SendKeeps (listsRead s x data) (preparesSent (listsRead s x data) x (s.xid x).rings) :=
  preparesSent_send _ x _ alone

theorem prepared_xid : (prepared s x data).xid x = { s.xid x with dests := readLists (s.xid x).dests data, st := .voting, sent := true } := by
  rw [prepared, votingBegun_xid, (preparesSent_listsRead x data alone).host.xid, listsRead, State.modXid, State.xid_setXid]

theorem prepared_alone : pairEn (prepared s x data) = false := by
  rw [prepared, (votingBegun_phase _ x _).pairEn, (preparesSent_listsRead x data alone).alone.pairEn]
  exact alone

theorem prepared_off : OffTime s (prepared s x data) :=
  ((modXid_phase s x _).off.trans (preparesSent_listsRead x data alone).host.off).trans (votingBegun_phase _ x _).off

theorem prepared_idle (waits : NoHeadWaits s) : NoHeadWaits (prepared s x data) :=
  noHeadWaits_phase ((preparesSent_listsRead x data alone).host.idle (noHeadWaits_phase waits (modXid_phase s x _))) (votingBegun_phase _ x _)

theorem prepared_runs (k : Nat) : genRuns (prepared s x data) k = genRuns s k := by
  have keeps := (preparesSent_listsRead x data alone).host.link
  rw [prepared, (votingBegun_phase _ x _).genRuns, genRuns, State.gen, keeps.wt, State.on, State.rd,
    keeps.reg _ (by simp only [linkBlock, R.WT_RCFG, R.WT_PAIR]; omega)]
  rfl

end

/-- Every part of every destination, and the close of every ring, have left as voting begins. -/
theorem prepared_out {s : State} {x : Nat} (data : List Byte) (small : x < 16) {e : Nat × Nat} (ring : e ∈ (s.xid x).rings) {p : Nat} (h : Speaks s e.1 p) :
    (∀ d ∈ readLists (s.xid x).dests data, destRing s d = e.1 →
      ∀ b ∈ partBodies x (epochOf s e.1) e.2 (dleadOf s e.1) (partRate s (s.xid x) e.1 e.2 d.ops) d,
        ∃ q, .packet p (downPacket 7 d.rhb d.route b q) ∈ (prepared s x data).out) ∧
      ∃ c, .packet p c ∈ (prepared s x data).out ∧ c.type = 7 ∧ beAt c.data 0 1 = 4 ∧ beAt c.data 1 1 = x ∧ beAt c.data 8 6 = e.2 % 2 ^ 48 := by
  have read : Speaks (listsRead s x data) e.1 p := h.after (setXid_alone s x _)
  obtain ⟨u, before, after⟩ := foldl_serves (ringPrepared_send x) ring read.alone
  have speaks := read.after before.alone
  have xid : u.xid x = { s.xid x with dests := readLists (s.xid x).dests data } := (before.host.xid x).trans (listsRead_xid s x data)
  have sent : (prepareRing u x e.1 e.2).out ⊆ (prepared s x data).out := fun o mem => (votingBegun_phase _ x _).out.subset (after.host.out.subset mem)
  refine ⟨fun d mem toRing b part => ?_, ?_⟩
  · have listed : d ∈ (u.xid x).dests := by rw [xid]; exact mem
    have route : destRing u d = e.1 := by
      rw [← toRing]
      exact ((setXid_alone s x _).trans before.alone).destRing d
    have same : partBodies x (epochOf u e.1) e.2 (dleadOf u e.1) (partRate u (u.xid x) e.1 e.2 d.ops) d =
        partBodies x (epochOf s e.1) e.2 (dleadOf s e.1) (partRate s (s.xid x) e.1 e.2 d.ops) d := by
      rw [before.bodies read.alone, xid]
      rfl
    obtain ⟨q, left⟩ := ringParts_leave speaks x e.2 listed route (same ▸ part)
    have closed := sendControl_host (ringParts u x e.1 e.2) e.1 (downPacket 7 (ringRhb u e.1) (ringRoute u e.1) (closeBody x (epochOf u e.1) e.2))
    rw [← prepareRing_eq] at closed
    exact ⟨q, sent (closed.out.subset left)⟩
  · obtain ⟨c, left, shape⟩ := prepareRing_closes speaks small e.2
    exact ⟨c, sent left, shape⟩

/-! Lists that no host sends (R309). -/

/-- The DMA error of the host, counted and told. -/
def dmaFailed (s : State) (d : List Byte) : State := raise (s.bump F.HIF_CNT2_DMA_ERR 1) 450 d

theorem dmaFailed_reg (s : State) (d : List Byte) {a : Nat} (h : a ≠ R.HIF_CNT2) : (dmaFailed s d).reg a = s.reg a :=
  ((raise_reports _ 450 d).reg a).trans (s.reg_wr_ne _ _ h)

theorem dmaFailed_xa (s : State) (d : List Byte) : (dmaFailed s d).xa = s.xa := (raise_reports _ 450 d).xa.trans (State.wr_xa _ _ _)

theorem dmaFailed_off (s : State) (d : List Byte) : OffTime s (dmaFailed s d) := (OffTime.wr s _ _ (by decide)).trans (.of_reports (raise_reports _ 450 d))

theorem dmaFailed_idle {s : State} (d : List Byte) (waits : NoHeadWaits s) : NoHeadWaits (dmaFailed s d) :=
  noHeadWaits_congr waits (fun n => dmaFailed_reg s d (by simp only [R.HIF_CR_STAT, R.HIF_CNT2]; omega)) (by rw [dmaFailed_xa])

theorem listsUnread_eq {s : State} {x : Nat} {j : Job} (job : (s.xid x).completion.bind s.job = some j) :
    ∃ d, listsUnread s x = freeXid (finishWith (dmaFailed s d) j (j.record 0x81)) x := by
  simp only [listsUnread, job]
  exact ⟨_, rfl⟩

/-- The XA_COMMIT ends 81h and the XID is FREE. -/
theorem listsUnread_ends {s : State} {x n : Nat} {j : Job} (small : n < 16) (waits : NoHeadWaits s) (job : (s.xid x).completion.bind s.job = some j)
    (ring : j.ring = n) :
    OffTime s (retryHeads (listsUnread s x)) ∧ ((retryHeads (listsUnread s x)).xid x).st = .free ∧
      Completes s (retryHeads (listsUnread s x)) n j (j.record 0x81) := by
  obtain ⟨d, eq⟩ := listsUnread_eq job
  have ends := finishWith_phase (dmaFailed s d) j (j.record 0x81)
  have frees := ends.trans (freeXid_phase _ x)
  have idle := dmaFailed_idle d waits
  have done := finishWith_completes (dmaFailed s d) (j.record 0x81) ring small
  rw [eq]
  refine ⟨(dmaFailed_off s d).trans (retryHeads_phase idle frees).off, ?_, ?_⟩
  · rw [retryHeads_xid idle frees, freeXid_xid]
    rfl
  · rw [retryHeads_idle (noHeadWaits_phase idle frees)]
    refine completes_told (completes_stays (completes_since done ?_) (fun _ => id) rfl List.prefix_rfl)
    exact .of_reg fun a _ h => dmaFailed_reg s d h

/-! XA_DEADLINE (R128, R133). -/

/-- Of an XID without a parent whose rings are held and whose votes come from one epoch: reason 1. -/
theorem deadlinePass_aborts {s : State} {x : Nat} (voting : (s.xid x).st = .voting) (parent : (s.xid x).parent = none)
    (held : ∀ e ∈ (s.xid x).rings, holds s e.1 = true) (alone : pairEn s = false) (epoch : (s.xid x).otherEpoch = false) :
    ∃ route rhb, deadlinePass s x = abortXid s x reasonMissing route rhb 0 := by
  have mine : ((s.xid x).rings.any fun e => !(holds s e.1)) = false := List.any_eq_false.mpr fun e mem => by simp [held e mem]
  unfold deadlinePass
  simp only [voting, parent, mine, alone, epoch, bne_self_eq_false, Option.isSome_none, Bool.false_and, Bool.and_false, Bool.or_self, Bool.false_eq_true,
    if_false]
  exact ⟨_, _, rfl⟩

theorem deadlinePass_other {s : State} {x : Nat} (other : (s.xid x).st ≠ .voting ∧ (s.xid x).st ≠ .preparing ∨
    (s.xid x).st = .voting ∧ (s.xid x).parent.isSome = true ∧ allReady (s.xid x) = true) : deadlinePass s x = s := by
  rw [deadlinePass]
  refine if_pos ?_
  rcases other with ⟨h, k⟩ | ⟨h, k, r⟩
  · simp [h, k]
  · simp [h, k, r]

/-! XA_ABORT (R119, R133). -/

/-- What the host's abort does of one XID. -/
def hostAbort (mask : Nat) (s : State) (x : Nat) : State :=
  if mask.testBit x && ((s.xid x).st == .building || (((s.xid x).st == .preparing || (s.xid x).st == .voting) && !(s.xid x).asked))
  then abortXid s x reasonHost 0 0 0 else s

theorem xaAbortWrite_eq (s : State) (mask : Nat) : xaAbortWrite s mask = forIdx 16 s (hostAbort mask) := rfl

theorem hostAbort_phase (mask : Nat) (s : State) (x : Nat) : PhaseKeeps s (hostAbort mask s x) := .ite (abortXid_phase ..) (.refl s)

theorem hostAbort_xid_ne (mask : Nat) (s : State) {x y : Nat} (h : y ≠ x) : (hostAbort mask s x).xid y = s.xid y := by
  unfold hostAbort
  split
  · exact abortXid_xid_ne s _ _ _ _ h
  · rfl

theorem PhaseKeeps.forIdx {f : State → Nat → State} (step : ∀ s x, PhaseKeeps s (f s x)) (n : Nat) (s : State) : PhaseKeeps s (forIdx n s f) :=
  List.foldlRecOn (motive := PhaseKeeps s) _ _ (.refl s) fun t h x _ => h.trans (step t x)

theorem forIdx_succ (n : Nat) (s : State) (f : State → Nat → State) : forIdx (n + 1) s f = f (forIdx n s f) n := by
  simp only [forIdx, List.range_succ, List.foldl_append, List.foldl_cons, List.foldl_nil]

section
variable {f : State → Nat → State} (step : ∀ s x, PhaseKeeps s (f s x)) (others : ∀ s {x y}, y ≠ x → (f s x).xid y = s.xid y)
include others

theorem forIdx_xid_above {n x : Nat} (h : n ≤ x) (s : State) : (forIdx n s f).xid x = s.xid x := by
  induction n with
  | zero => rfl
  | succ n ih => rw [forIdx_succ, others _ (by omega), ih (by omega)]

include step

/-- In a pass over the XIDs each is dealt with once, in a state that keeps what the pass keeps and the XID itself. -/
theorem forIdx_xid {n x : Nat} (h : x < n) (s : State) : ∃ u, PhaseKeeps s u ∧ u.xid x = s.xid x ∧ (forIdx n s f).xid x = (f u x).xid x := by
  induction n with
  | zero => omega
  | succ n ih =>
    rw [forIdx_succ]
    rcases Nat.lt_succ_iff_lt_or_eq.mp h with below | rfl
    · rw [others _ (by omega)]
      exact ih below
    · exact ⟨_, .forIdx step x s, forIdx_xid_above others le_rfl s, rfl⟩

end

/-- What the host's abort leaves of an XID (R133). -/
structure HostAborted (v w : Xid) (named runs : Bool) : Prop where
  unnamed : named = false → w = v
  building : named = true → v.st = .building → v.completion = none → w.st = .aborted ∧ w.reason = 6
  undecided : named = true → v.st = .preparing ∨ v.st = .voting → v.asked = false →
    w.reason = 6 ∧ w.st = if v.sent = true ∧ runs = true then .aborted else .free

theorem hostAbort_xid {mask x : Nat} (s : State) : HostAborted (s.xid x) ((hostAbort mask s x).xid x) (mask.testBit x) (genRuns s (s.xid x).refRing) where
  unnamed named := by simp [hostAbort, named]
  building named building none := by
    have aborts : hostAbort mask s x = abortXid s x reasonHost 0 0 0 := by simp [hostAbort, named, building]
    rw [aborts, abortXid_aborted _ _ _ _ (.inl ⟨building, none⟩)]
    exact ⟨rfl, rfl⟩
  undecided named undecided asked := by
    have aborts : hostAbort mask s x = abortXid s x reasonHost 0 0 0 := by rcases undecided with h | h <;> simp [hostAbort, named, h, asked]
    have open_ : (s.xid x).st ≠ .building := by rcases undecided with h | h <;> simp [h]
    rw [aborts, abortXid_reason]
    refine ⟨rfl, ?_⟩
    split
    · next tells => rw [abortXid_aborted _ _ _ _ (.inr tells), Xid.abort]
    · next silent =>
      rw [abortXid_freed _ _ _ _ open_ silent]
      rfl

/-- After a write of the mask every XID is as the host's abort leaves it. -/
theorem xaAbortWrite_xid {x : Nat} (small : x < 16) (s : State) (mask : Nat) :
    HostAborted (s.xid x) ((xaAbortWrite s mask).xid x) (mask.testBit x) (genRuns s (s.xid x).refRing) := by
  obtain ⟨u, keeps, same, dealt⟩ := forIdx_xid (f := hostAbort mask) (hostAbort_phase mask) (fun s => hostAbort_xid_ne mask s) small s
  have aborted := hostAbort_xid (mask := mask) (x := x) u
  rw [same, keeps.genRuns] at aborted
  rw [xaAbortWrite_eq, dealt]
  exact aborted

theorem findReg_xaAbort : findReg R.XA_ABORT = some ⟨R.XA_ABORT, [], [⟨0, 16, .wo, .l, 0, none, false⟩]⟩ := by decide

/-- The word of XA_ABORT is a mask of its low half (R417). -/
theorem putWord_xaAbort (s : State) (w : Nat) :
    putWord s R.XA_ABORT w false = (xaAbortWrite (s.setReg R.XA_ABORT (s.reg R.XA_ABORT)) (bits w 0 16), false) := by
  have word : admittedWord s R.XA_ABORT w = w := rfl
  have effect : wordEffect ⟨R.XA_ABORT, [], [⟨0, 16, .wo, .l, 0, none, false⟩]⟩ (s.reg R.XA_ABORT) w (!(blockDisabled s R.XA_ABORT)) false =
      ⟨s.reg R.XA_ABORT, 0, 0, bits w 0 16, false⟩ := by simp [wordEffect, fieldEffect]
  unfold putWord
  simp only [findReg_xaAbort, word, effect]
  rfl

theorem regWrite_xaAbort {s : State} {p : Access} (w : Nat) (reach : reaches s p = true) (on : addrOn s.strap.role R.XA_ABORT = true) :
    regWrite s p R.XA_ABORT w = linkCheck (retryHeads (xaAbortWrite (s.setReg R.XA_ABORT (s.reg R.XA_ABORT)) (bits w 0 16))) := by
  have notNow : (accessPath p == .xa || accessPath p == .preload) = false := by cases p <;> rfl
  have open_ : mirrored R.XA_ABORT = false := by decide
  have bus : (busWrite s (accessPath p) R.XA_ABORT w).1 = (putWord s R.XA_ABORT w false).1 := by
    unfold busWrite
    have picture : pictureAddr R.XA_ABORT = false := by decide
    have window : isWindow R.XA_ABORT = false := by decide
    have commit : ¬ R.XA_ABORT = R.SYS_COMMIT := by decide
    have aligned : (R.XA_ABORT % 4 != 0) = false := by decide
    simp only [on, aligned, open_, busTouch, picture, window, commit, notNow, putWord_xaAbort, Bool.and_false, Bool.false_and, Bool.not_true,
      Bool.or_self, Bool.false_eq_true, if_false]
  rw [regWrite, if_pos reach, bus, putWord_xaAbort]

/-- A register written with its own word. -/
theorem sameWord_reg (s : State) (a b : Nat) : (s.setReg a (s.reg a)).reg b = s.reg b := by
  by_cases h : b = a
  · rw [h, State.reg_setReg_same, Nat.mod_eq_of_lt (s.reg_lt a)]
  · exact s.reg_setReg_ne _ h

theorem sameWord_phase (s : State) (a : Nat) : PhaseKeeps s (s.setReg a (s.reg a)) :=
  ⟨⟨rfl, rfl, rfl, rfl, rfl, rfl, rfl, rfl, rfl, rfl, rfl, rfl, fun b i _ => by rw [sameWord_reg], List.prefix_rfl⟩, rfl, rfl, rfl, rfl, fun _ => rfl, fun _ => id⟩

theorem exec_xaAbort (path : Access) (w : Word) (s : State) : exec (.xaAbort path w) s = ordinary (fun s => regWrite s path R.XA_ABORT w.toNat) s := rfl

/-- XA_ABORT outside a pair where nothing waits: the abort of each XID, as the host reads it then. -/
theorem xaAbort_runs {s : State} {path : Access} (w : Word) (reach : reaches s path = true) (on : addrOn s.strap.role R.XA_ABORT = true)
    (alone : pairEn s = false) (waits : NoHeadWaits s) :
    Runs (.xaAbort path w) s fun t => ∀ x : Fin 16, HostAborted (s.xid x.val) (t.xid x.val) (w.toNat.testBit x.val) (genRuns s (s.xid x.val).refRing) := by
  have same := sameWord_phase s R.XA_ABORT
  have aborts : PhaseKeeps s (xaAbortWrite (s.setReg R.XA_ABORT (s.reg R.XA_ABORT)) (bits w.toNat 0 16)) := same.trans (.forIdx (hostAbort_phase _) 16 _)
  have looked := retryHeads_phase waits aborts
  have linked := linkCheck_host (looked.pairEn.trans alone)
  have effect := regWrite_xaAbort w.toNat reach on
  obtain ⟨t, run, rep, -⟩ := OffTime.runs (f := fun s => regWrite s path R.XA_ABORT w.toNat) (s := s) (by rw [effect]; exact looked.off.trans linked.off)
  refine ⟨t, (exec_xaAbort path w s).trans run, fun x => ?_⟩
  have aborted := xaAbortWrite_xid x.isLt (s.setReg R.XA_ABORT (s.reg R.XA_ABORT)) (bits w.toNat 0 16)
  rw [same.genRuns] at aborted
  have mask : (bits w.toNat 0 16).testBit x.val = w.toNat.testBit x.val := by
    rw [bits, Nat.shiftRight_zero, Nat.testBit_mod_two_pow, decide_eq_true x.isLt, Bool.true_and]
  rw [mask] at aborted
  rw [State.xid_congr rep.xa, effect, linked.xid, retryHeads_xid waits aborts]
  exact aborted

/-! The obligation, clause by clause. -/

/-- The prepares leave, and voting begins (R120, R121, R128). -/
theorem xaPrepareSend_votes {x : Fin 16} {data : Option (List Byte)} {s : State} (preparing : (s.xid x.val).st = .preparing)
    (parent : (s.xid x.val).parent = none) (alone : pairEn s = false) (waits : NoHeadWaits s)
    (lists : listBytes (s.xid x.val).dests = 0 ∨ data.isSome = true)
    (rings : ∀ e ∈ (s.xid x.val).rings, mayControl s e.1 = true ∧ s.on (F.RED_RSTAT_SILENT e.1) = false ∧ (ringEnds s e.1).any s.isUp = true) :
    Runs (.xaPrepareSend x data) s fun t => (prepared s x.val (data.getD [])).out ⊆ t.out ∧
      ((∃ w ∈ (s.xid x.val).voters, w.vote ≠ some true) → (t.xid x.val).st = .voting ∧ (t.xid x.val).sent = true) ∧
      ((∀ w ∈ (s.xid x.val).voters, w.vote = some true) → genRuns s (s.xid x.val).refRing = true → (t.xid x.val).st = .fired) := by
  have leaves : prepareSend s x.val data = decide_ (prepared s x.val (data.getD [])) x.val :=
    prepareSend_leaves preparing parent (fun e mem => mayControl_holds (rings e mem).1) alone (fun e mem => (rings e mem).2.2) lists
  have xid := prepared_xid x.val (data.getD []) alone
  have off := prepared_off x.val (data.getD []) alone
  have idle := prepared_idle x.val (data.getD []) alone waits
  have ran := prepared_runs x.val (data.getD []) alone
  have out := prepared_alone x.val (data.getD []) alone
  generalize prepared s x.val (data.getD []) = u at leaves xid off idle ran out ⊢
  have orphan : (u.xid x.val).parent = none := by rw [xid]; exact parent
  have decided := decide_alone_phase out orphan
  have looked := retryHeads_phase idle decided
  obtain ⟨t, run, rep, sent⟩ := OffTime.runs (f := fun s => retryHeads (prepareSend s x.val data)) (s := s) (by rw [leaves]; exact off.trans looked.off)
  rw [leaves] at rep sent
  refine ⟨t, (exec_xaPrepareSend x data s).trans run, fun o mem => sent.subset (looked.out.subset mem), ?_⟩
  rw [State.xid_congr rep.xa, retryHeads_xid idle decided, decide_alone out orphan]
  constructor
  · rintro ⟨w, voter, missing⟩
    have undecided : ¬ ((u.xid x.val).st = .voting ∧ allReady (u.xid x.val) = true) := fun ⟨_, all⟩ => by
      rw [allReady, xid] at all
      exact missing (by simpa using List.all_eq_true.mp all w voter)
    rw [if_neg undecided, xid]
    exact ⟨rfl, rfl⟩
  · intro all runs
    have due : (u.xid x.val).st = .voting ∧ allReady (u.xid x.val) = true := by
      rw [xid]
      exact ⟨rfl, List.all_eq_true.mpr fun w voter => by simp [all w voter]⟩
    rw [if_pos due]
    exact fire_fired (by rw [ran, xid]; exact runs)

/-- Settles O38: the host's abort; the prepares, a ring that is dark, lists that no host sends, another XID; the deadline, of an XID whose votes are
incomplete and of another. -/
theorem transactionsArePreparedAndAborted : Obligations.TransactionsArePreparedAndAborted := by
  refine ⟨?_, ?_, ?_, ?_, ?_, ?_, ?_⟩
  · intro path w s reach on alone waits
    obtain ⟨t, run, aborted⟩ := xaAbort_runs w reach on alone waits
    exact ⟨t, run, fun x => ⟨(aborted x).unnamed, (aborted x).building, (aborted x).undecided⟩⟩
  · intro x data s preparing parent alone waits lists rings
    obtain ⟨t, run, sent, votes⟩ := xaPrepareSend_votes preparing parent alone waits lists rings
    refine ⟨t, run, fun e mem p end_ up => ?_, votes⟩
    obtain ⟨may, loud, -⟩ := rings e mem
    obtain ⟨parts, c, closed, shape⟩ := prepared_out (data.getD []) x.isLt mem ⟨alone, may, loud, end_, up⟩
    refine ⟨fun d listed ring b part => ?_, c, sent closed, shape⟩
    obtain ⟨q, left⟩ := parts d listed ring b part
    exact ⟨q, sent left⟩
  · intro x data s preparing parent unsent waits held dark
    have effect := prepareSend_unreachable preparing parent held (data := data) dark
    have aborts := abortXid_phase s x.val reasonUnreachable 0 0 0
    obtain ⟨t, run, rep, -⟩ := OffTime.runs (f := fun s => retryHeads (prepareSend s x.val data)) (s := s)
      (by rw [effect]; exact (retryHeads_phase waits aborts).off)
    refine ⟨t, (exec_xaPrepareSend x data s).trans run, ?_⟩
    beta_reduce
    rw [State.xid_congr rep.xa, effect, retryHeads_xid waits aborts, abortXid_reason,
      abortXid_freed _ _ _ _ (by simp [preparing]) (by simp [unsent])]
    exact ⟨rfl, rfl⟩
  · intro x n j s preparing parent waits alone rings lists job ring
    have effect := prepareSend_unread preparing parent (fun e mem => (rings e mem).1) alone (fun e mem => (rings e mem).2) lists
    obtain ⟨off, free, done⟩ := listsUnread_ends n.isLt waits job ring
    rw [← effect] at off free done
    obtain ⟨t, run, rep, out⟩ := OffTime.runs (f := fun s => retryHeads (prepareSend s x.val none)) off
    refine ⟨t, (exec_xaPrepareSend x none s).trans run, ?_, completes_reports done rep out⟩
    rw [State.xid_congr rep.xa]
    exact free
  · intro x data s other waits told
    exact ordinary_idle (fun s => retryHeads (prepareSend s x.val data)) s (by rw [prepareSend_other data other]; exact retryHeads_still waits told)
  · intro x s voting parent held alone epoch sent runs waits
    obtain ⟨route, rhb, effect⟩ := deadlinePass_aborts voting parent held alone epoch
    have aborts := abortXid_phase s x.val reasonMissing route rhb 0
    obtain ⟨t, run, rep, -⟩ := OffTime.runs (f := fun s => retryHeads (deadlinePass s x.val)) (s := s)
      (by rw [effect]; exact (retryHeads_phase waits aborts).off)
    refine ⟨t, (exec_xaDeadline x s).trans run, ?_⟩
    beta_reduce
    rw [State.xid_congr rep.xa, effect, retryHeads_xid waits aborts, abortXid_aborted _ _ _ _ (.inr ⟨sent, runs⟩)]
    exact ⟨rfl, rfl⟩
  · intro x s waits told other
    exact ordinary_idle (fun s => retryHeads (deadlinePass s x.val)) s (by rw [deadlinePass_other other]; exact retryHeads_still waits told)

end Sys2Proof.Machine
end

section
/-! PROOF. Votes and arm-acks (O39): a vote counts once, the last READY fires or readies, a refusal aborts; arm-acks are recorded, the last ends the XA_COMMIT
(R126, R128, R132, R133, R317). -/
namespace Sys2Proof.Machine

/-! The upward packet at the front. -/

/-- The state with another list of upward packets heard. -/
def State.withUp (s : State) (l : List UpPkt) : State := { s with ring := { s.ring with upReady := l } }

theorem withUp_off (s : State) (l : List UpPkt) : OffTime s (s.withUp l) := ⟨rfl, rfl, rfl, rfl, rfl⟩

theorem takeUp_front {s : State} {u : UpPkt} {l : List UpPkt} {ok : Copy → Bool} (g : State → UpPkt → State) (front : s.ring.upReady = u :: l)
    (kind : ok u.pkt = true) : takeUp s ok g = g (s.withUp l) u := by
  simp only [takeUp, front, kind, if_true]
  rfl

theorem takeUp_other {s : State} {ok : Copy → Bool} (g : State → UpPkt → State) (other : ∀ u l, s.ring.upReady = u :: l → ok u.pkt = false) :
    takeUp s ok g = s := by
  unfold takeUp
  split
  · rfl
  · next u l front => rw [if_neg (by rw [other u l front]; exact Bool.false_ne_true)]

/-- The effect of XA_VOTE_RX (R126). -/
def voteRx (s : State) : State := takeUp s (fun c => c.type == 7 && beAt c.data 0 1 == 2) fun s u => retryHeads (voteAccept s u.ring u.pkt)

/-- The effect of XA_ARMACK_RX (R132). -/
def armackRx (s : State) : State := takeUp s (fun c => c.type == 7 && beAt c.data 0 1 == 3) fun s u => armackAccept s u.ring u.pkt

theorem exec_xaVoteRx (s : State) : exec .xaVoteRx s = ordinary voteRx s := rfl

theorem exec_xaArmackRx (s : State) : exec .xaArmackRx s = ordinary armackRx s := rfl

theorem voteRx_front {s : State} {u : UpPkt} {l : List UpPkt} (front : s.ring.upReady = u :: l) (type : u.pkt.type = 7) (kind : beAt u.pkt.data 0 1 = 2) :
    voteRx s = retryHeads (voteAccept (s.withUp l) u.ring u.pkt) :=
  takeUp_front _ front (by simp [type, kind])

theorem armackRx_front {s : State} {u : UpPkt} {l : List UpPkt} (front : s.ring.upReady = u :: l) (type : u.pkt.type = 7) (kind : beAt u.pkt.data 0 1 = 3) :
    armackRx s = armackAccept (s.withUp l) u.ring u.pkt :=
  takeUp_front _ front (by simp [type, kind])

/-- A command at the front that leaves it and does `u`: `u` but for reports, the front gone. -/
theorem upFront_runs {f : State → State} {s u : State} {l : List UpPkt} (effect : f s = u) (keeps : PhaseKeeps (s.withUp l) u) :
    ∃ t, ordinary f s = .next t ∧ Reports u t ∧ u.out <+: t.out ∧ t.ring.upReady = l := by
  subst effect
  obtain ⟨t, run, rep, out⟩ := ((withUp_off s l).trans keeps.off).runs
  exact ⟨t, run, rep, out, rep.ring_upReady.trans keeps.upReady⟩

/-! A vote (R126, R128). -/

/-- A voter's answer put down. -/
def Voter.voted (w : Voter) (v : Bool) : Voter := { w with vote := some v }

/-- An XID with the answer of one voter put down. -/
def Xid.voted (v : Xid) (w : Voter) (yes : Bool) : Xid := { v with voters := v.voters.map fun u => if u == w then u.voted yes else u }

theorem Xid.voted_mem {v : Xid} {w : Voter} (yes : Bool) (mem : w ∈ v.voters) : w.voted yes ∈ (v.voted w yes).voters :=
  List.mem_map.mpr ⟨w, mem, if_pos (beq_self_eq_true w)⟩

theorem Xid.voted_others {v : Xid} {w u : Voter} (yes : Bool) (mem : u ∈ v.voters) (other : u ≠ w) : u ∈ (v.voted w yes).voters :=
  List.mem_map.mpr ⟨u, mem, if_neg (by simpa using other)⟩

/-- Every vote is READY where the others were. -/
theorem Xid.voted_allReady {v : Xid} {w : Voter} (others : ∀ u ∈ v.voters, u ≠ w → u.vote = some true) : allReady (v.voted w true) = true := by
  refine List.all_eq_true.mpr fun u mem => ?_
  obtain ⟨u, voter, rfl⟩ := List.mem_map.mp mem
  by_cases h : u = w
  · simp [h, Voter.voted]
  · simp [h, others u voter h]

theorem Xid.voted_undecided {v : Xid} {w u : Voter} (mem : u ∈ v.voters) (other : u ≠ w) (missing : u.vote ≠ some true) : allReady (v.voted w true) ≠ true :=
  fun all => missing (by simpa using List.all_eq_true.mp all u (Xid.voted_others true mem other))

theorem mirrorUp_alone {s : State} (alone : pairEn s = false) : mirrorUp s = false := by rw [mirrorUp, alone, Bool.false_and, Bool.false_and]

/-- A device alone mirrors nothing. -/
theorem mirrorSend_alone {s : State} (alone : pairEn s = false) (u : Bool) (k a : Nat) (b : List Nat) : mirrorSend s u k a b = s := by
  rw [mirrorSend, mirrorUp_alone alone]
  rfl

/-- A sub-transaction that is ready (R128). -/
def Xid.readied (v : Xid) : Xid := { v with ready := true }

/-- Outside a pair the last READY vote of a sub-transaction makes it ready (R128). -/
theorem decide_sub {s : State} {x : Nat} (alone : pairEn s = false) (parent : (s.xid x).parent ≠ none) (voting : (s.xid x).st = .voting)
    (all : allReady (s.xid x) = true) : decide_ s x = if (s.xid x).ready = true then s else s.setXid x (s.xid x).readied := by
  have sub : (s.xid x).parent.isSome = true := Option.isSome_iff_ne_none.mpr parent
  have still := mirrorSend_alone (s := s.setXid x (s.xid x).readied) alone true 11 0 [x, 1, (s.xid x).target]
  unfold decide_
  dsimp only
  rw [if_neg (by simp [voting, all]), if_pos sub]
  exact congrArg _ still

/-- What a decision outside a pair leaves, and what it says. -/
theorem decide_outside {s : State} {x : Nat} (alone : pairEn s = false) : PhaseKeeps s (decide_ s x) ∧
    ((decide_ s x).xid x).voters = (s.xid x).voters ∧
    (allReady (s.xid x) ≠ true → decide_ s x = s) ∧
    ((s.xid x).st = .voting → allReady (s.xid x) = true → (s.xid x).parent = none → decide_ s x = fire s x) ∧
    ((s.xid x).st = .voting → allReady (s.xid x) = true → (s.xid x).parent ≠ none →
      ((decide_ s x).xid x).st = .voting ∧ ((decide_ s x).xid x).ready = true) := by
  by_cases due : (s.xid x).st = .voting ∧ allReady (s.xid x) = true
  · obtain ⟨voting, all⟩ := due
    by_cases parent : (s.xid x).parent = none
    · have fires : decide_ s x = fire s x := (decide_alone alone parent).trans (if_pos ⟨voting, all⟩)
      rw [fires]
      exact ⟨fire_phase s x, fire_voters s x, fun h => absurd all h, fun _ _ _ => rfl, fun _ _ h => absurd parent h⟩
    · rw [decide_sub alone parent voting all]
      split
      · next ready => exact ⟨.refl s, rfl, fun h => absurd all h, fun _ _ h => absurd h parent, fun _ _ _ => ⟨voting, ready⟩⟩
      · rw [State.xid_setXid]
        exact ⟨setXid_phase s x _, rfl, fun h => absurd all h, fun _ _ h => absurd h parent, fun _ _ _ => ⟨voting, rfl⟩⟩
  · have still : decide_ s x = s := by
      rw [decide_]
      refine if_pos ?_
      rw [not_and_or] at due
      rcases due with h | h <;> simp [h]
    rw [still]
    exact ⟨.refl s, rfl, fun _ => rfl, fun h k => absurd ⟨h, k⟩ due, fun h k => absurd ⟨h, k⟩ due⟩

/-- The voter that a packet answers for. -/
def isVoter (s : State) (ring : Nat) (c : Copy) (w : Voter) : Bool := w.ring == ring && w.pos == posOfRoute s c.route.toNat

section
variable {s : State} {ring x : Nat} {c : Copy} {w : Voter} (xid : x = beAt c.data 1 1 % 16) (held : holds s ring = true) (voting : (s.xid x).st = .voting)
  (epoch : beAt c.data 2 4 = epochOf s ring) (voter : ((s.xid x).voters.find? fun w => isVoter s ring c w && w.vote.isNone) = some w)
include xid held voting epoch voter

/-- A vote of this epoch of a voter that has not voted: it is put down, and the decision follows, or the abort. -/
theorem voteAccept_counts : ∃ s1, PhaseKeeps s s1 ∧
    s1.xid x = (s.xid x).voted w (beAt c.data 8 1 == 1 && beAt c.data 10 2 == w.entries) ∧
    (beAt c.data 8 1 = 1 → beAt c.data 10 2 = w.entries → voteAccept s ring c = decide_ s1 x) ∧
    (beAt c.data 8 1 ≠ 1 → beAt c.data 9 1 ≠ 5 → (s.xid x).asked = false →
      voteAccept s ring c = abortXid s1 x reasonRefused c.route.toNat c.rhb (beAt c.data 9 1)) := by
  subst xid
  have mine : (!(holds s ring) || ((s.xid (beAt c.data 1 1 % 16)).st != .voting && (s.xid (beAt c.data 1 1 % 16)).st != .preparing)) = false := by simp [held, voting]
  have same : (beAt c.data 2 4 != epochOf s ring) = false := by simp [epoch]
  simp only [isVoter] at voter
  refine ⟨s.setXid (beAt c.data 1 1 % 16) ((s.xid (beAt c.data 1 1 % 16)).voted w (beAt c.data 8 1 == 1 && beAt c.data 10 2 == w.entries)),
    setXid_phase .., State.xid_setXid .., fun ready count => ?_, fun refused code asked => ?_⟩
  · simp only [voteAccept, mine, voter, same, State.modXid, Xid.voted, Voter.voted, Bool.or_false, Bool.not_false, Bool.and_true, Bool.false_and,
      Bool.false_eq_true, if_false]
    rw [if_pos (by simp [ready, count])]
  · have no : (beAt c.data 8 1 == 1) = false := by simpa using refused
    simp only [voteAccept, mine, voter, same, no, asked, code, State.modXid, Xid.voted, Voter.voted, Bool.or_false, Bool.not_false, Bool.and_true,
      Bool.false_and, Bool.false_eq_true, if_false]

end

/-- A vote of no voter that has yet to vote, or for an XID that takes no votes, changes nothing. -/
theorem voteAccept_other {s : State} {ring : Nat} {c : Copy}
    (other : (s.xid (beAt c.data 1 1 % 16)).st ≠ .voting ∧ (s.xid (beAt c.data 1 1 % 16)).st ≠ .preparing ∨
      ((s.xid (beAt c.data 1 1 % 16)).voters.find? fun w => isVoter s ring c w && w.vote.isNone) = none) : voteAccept s ring c = s := by
  unfold voteAccept
  dsimp only
  split
  · rfl
  · next takes =>
    rcases other with ⟨h, k⟩ | h
    · exact absurd (by simp [h, k]) takes
    · simp only [isVoter] at h
      rw [h]

/-! An arm-ack (R132, R317). -/

/-- A voter's result put down. -/
def Voter.armed (w : Voter) (r : Nat) : Voter := { w with result := some r }

/-- An XID with the result of one voter put down, the first that is not ON_TIME with its route. -/
def Xid.armed (v : Xid) (w : Voter) (r route rhb : Nat) : Xid :=
  let v1 := { v with voters := v.voters.map fun u => if u == w then u.armed r else u }
  if r != 1 && decide (v.offender = 0) then { v1 with offender := route, offRhb := rhb } else v1

theorem Xid.armed_fields (v : Xid) (w : Voter) (r route rhb : Nat) :
    (v.armed w r route rhb).voters = v.voters.map (fun u => if u == w then u.armed r else u) ∧ (v.armed w r route rhb).st = v.st ∧
      (v.armed w r route rhb).parent = v.parent ∧ (v.armed w r route rhb).completion = v.completion ∧ (v.armed w r route rhb).target = v.target ∧
      (v.armed w r route rhb).offCode = v.offCode := by
  unfold Xid.armed
  dsimp only
  split <;> exact ⟨rfl, rfl, rfl, rfl, rfl, rfl⟩

section
variable {s : State} {ring x : Nat} {c : Copy} {w : Voter} (xid : x = beAt c.data 1 1 % 16) (fired : (s.xid x).st = .fired)
  (voter : ((s.xid x).voters.find? fun w => isVoter s ring c w && w.result.isNone) = some w)
include xid fired voter

/-- The XID with the result put down. -/
theorem armackAccept_counts : ∃ s1, PhaseKeeps s s1 ∧ (∀ n, RecordBase s s1 n) ∧ s1.hif = s.hif ∧
    s1.xid x = (s.xid x).armed w (beAt c.data 8 1) c.route.toNat c.rhb ∧
    armackAccept s ring c = if ((s1.xid x).voters.all fun u => u.result.isSome) = true
      then (if (s.xid x).parent.isSome = true then subReport s1 x false else postXa s1 x 0) else s1 := by
  subst xid
  simp only [isVoter] at voter
  have no : ((s.xid (beAt c.data 1 1 % 16)).st != .fired) = false := by simp [fired]
  have recorded := setXid_phase s (beAt c.data 1 1 % 16) ((s.xid (beAt c.data 1 1 % 16)).armed w (beAt c.data 8 1) c.route.toNat c.rhb)
  have same := State.xid_setXid s (beAt c.data 1 1 % 16) ((s.xid (beAt c.data 1 1 % 16)).armed w (beAt c.data 8 1) c.route.toNat c.rhb)
  by_cases bad : (beAt c.data 8 1 != 1) = true
  · have told := raise_reports (s.setXid (beAt c.data 1 1 % 16) ((s.xid (beAt c.data 1 1 % 16)).armed w (beAt c.data 8 1) c.route.toNat c.rhb)) 232
      (d2 (beAt c.data 1 1 % 16) (beAt c.data 8 1) ++ bytesLE 4 c.route.toNat ++ bytesLE 1 c.rhb)
    refine ⟨_, recorded.trans (raise_phase _ _ _), fun n => .of_reg fun a _ _ => told.reg a, told.hif, (raise_xid ..).trans same, ?_⟩
    rw [raise_xid, same]
    simp only [armackAccept, no, voter, bad, Bool.false_eq_true, if_false, if_true]
    simp only [Xid.armed, bad, Voter.armed]
  · refine ⟨_, recorded, fun n => .of_reg fun _ _ _ => rfl, rfl, same, ?_⟩
    rw [same]
    simp only [Bool.not_eq_true] at bad
    simp only [armackAccept, no, voter, bad, Bool.false_eq_true, if_false]
    simp only [Xid.armed, bad, Voter.armed]

end

theorem armackAccept_other {s : State} {ring : Nat} {c : Copy} (other : (s.xid (beAt c.data 1 1 % 16)).st ≠ .fired) : armackAccept s ring c = s := by
  simp [armackAccept, other]

/-- The record of an XA_COMMIT (R317). -/
def commitRecord (v : Xid) (j : Job) (status : Nat) : CplRec :=
  let n (r : Nat) : Nat := (v.voters.filter fun w => w.result == some r).length
  let unknown := if status = 0 then (v.voters.filter fun w => w.result == none || w.result == some 4).length else 0
  let cnt (r : Nat) : Nat := if status = 0 then n r else 0
  { j.record status with
    frame := v.target, route := v.offender, rhb := v.offRhb,
    result := bytesLE 2 (cnt 1) ++ bytesLE 2 (cnt 2) ++ bytesLE 2 unknown ++ bytesLE 1 v.offCode ++ bytesLE 1 0 ++ bytesLE 2 (cnt 3) }

theorem postXa_job {s : State} {x : Nat} {j : Job} (status : Nat) (job : (s.xid x).completion.bind s.job = some j) :
    postXa s x status = finishWith (s.modXid x fun v => { v with completion := none }) j (commitRecord (s.xid x) j status) := by
  obtain ⟨id, held, found⟩ := Option.bind_eq_some_iff.mp job
  simp only [postXa, held, found]
  rfl

/-- Every voter ON_TIME: their number, and nothing else (R317). -/
theorem commitRecord_onTime {v : Xid} {j : Job} (all : ∀ u ∈ v.voters, u.result = some 1) : commitRecord v j 0 =
    { j.record 0 with frame := v.target, route := v.offender, rhb := v.offRhb,
                      result := bytesLE 2 v.voters.length ++ bytesLE 4 0 ++ bytesLE 1 v.offCode ++ bytesLE 3 0 } := by
  have onTime : (v.voters.filter fun w => w.result == some 1) = v.voters := List.filter_eq_self.mpr fun u mem => by simp [all u mem]
  have none_ (r : Nat) (h : r ≠ 1) : (v.voters.filter fun w => w.result == some r) = [] := List.filter_eq_nil_iff.mpr fun u mem => by simp [all u mem, h.symm]
  have known : (v.voters.filter fun w => w.result == none || w.result == some 4) = [] := List.filter_eq_nil_iff.mpr fun u mem => by simp [all u mem]
  have zeros : bytesLE 2 0 ++ bytesLE 2 0 = bytesLE 4 0 ∧ bytesLE 1 0 ++ bytesLE 2 0 = bytesLE 3 0 := by decide
  simp only [commitRecord, if_true, onTime, none_ 2 (by decide), none_ 3 (by decide), known, List.length_nil]
  rw [List.append_assoc (bytesLE 2 v.voters.length), zeros.1, List.append_assoc _ (bytesLE 1 0), zeros.2]

/-- The last arm-ack, all of them ON_TIME: the XA_COMMIT ends. -/
theorem postXa_completes {s : State} {x n : Nat} {j : Job} (status : Nat) (small : n < 16) (job : (s.xid x).completion.bind s.job = some j) (ring : j.ring = n) :
    Completes s (postXa s x status) n j (commitRecord (s.xid x) j status) := by
  rw [postXa_job status job]
  exact completes_since (finishWith_completes _ _ ring small) (.of_reg fun _ _ _ => rfl)

/-- A vote outside a pair is one of the phases of a transaction. -/
theorem voteAccept_phase {s : State} (alone : pairEn s = false) (ring : Nat) (c : Copy) : PhaseKeeps s (voteAccept s ring c) := by
  unfold voteAccept
  extract_lets x v pos ready reason other
  split
  · exact .refl s
  · split
    · exact .refl s
    · extract_lets okCount s1
      have put : PhaseKeeps s s1 := modXid_phase ..
      have decided := put.trans (decide_outside (x := x) (put.pairEn.trans alone)).1
      exact .ite put (.ite decided (.ite put (.ite (put.trans (abortXid_phase ..)) (.ite (put.trans (abortXid_phase ..)) (put.trans (abortXid_phase ..))))))

/-! The obligation, clause by clause. -/

section
variable {s : State} {u : UpPkt} {l : List UpPkt} {x : Nat} {w : Voter} (front : s.ring.upReady = u :: l) (type : u.pkt.type = 7)
  (xid : x = beAt u.pkt.data 1 1 % 16)
include front type xid

/-- A vote of a voter of this epoch that has not voted (R126, R128, R133). -/
theorem xaVoteRx_counts (kind : beAt u.pkt.data 0 1 = 2) (held : holds s u.ring = true) (alone : pairEn s = false) (waits : NoHeadWaits s)
    (voting : (s.xid x).st = .voting) (epoch : beAt u.pkt.data 2 4 = epochOf s u.ring)
    (voter : ((s.xid x).voters.find? fun w => isVoter s u.ring u.pkt w && w.vote.isNone) = some w) :
    Runs .xaVoteRx s fun t => t.ring.upReady = l ∧
      (beAt u.pkt.data 8 1 = 1 → beAt u.pkt.data 10 2 = w.entries → w.voted true ∈ (t.xid x).voters) ∧
      (beAt u.pkt.data 8 1 = 1 → beAt u.pkt.data 10 2 = w.entries → (∀ v ∈ (s.xid x).voters, v ≠ w → v.vote = some true) →
        genRuns s (s.xid x).refRing = true → if (s.xid x).parent = none then (t.xid x).st = .fired else (t.xid x).st = .voting ∧ (t.xid x).ready = true) ∧
      (beAt u.pkt.data 8 1 = 1 → beAt u.pkt.data 10 2 = w.entries → (∃ v ∈ (s.xid x).voters, v ≠ w ∧ v.vote ≠ some true) →
        (t.xid x).st = .voting ∧ w.voted true ∈ (t.xid x).voters) ∧
      (beAt u.pkt.data 8 1 ≠ 1 → beAt u.pkt.data 9 1 ≠ 5 → (s.xid x).asked = false → (s.xid x).sent = true → genRuns s (s.xid x).refRing = true →
        (t.xid x).st = .aborted ∧ (t.xid x).reason = 2 ∧ (t.xid x).offender = u.pkt.route.toNat) := by
  have mem : w ∈ (s.xid x).voters := List.mem_of_find?_eq_some voter
  obtain ⟨s1, keeps, counted, ready, refused⟩ := voteAccept_counts (s := s.withUp l) xid held voting epoch voter
  have effects := voteAccept_phase (s := s.withUp l) alone u.ring u.pkt
  have idle : NoHeadWaits (s.withUp l) := waits
  obtain ⟨t, run, rep, -, popped⟩ := upFront_runs (voteRx_front front type kind) (retryHeads_phase idle effects)
  have same : t.xid x = (voteAccept (s.withUp l) u.ring u.pkt).xid x := (State.xid_congr rep.xa x).trans (retryHeads_xid idle effects x)
  obtain ⟨-, voters, waitsOn, fires, readies⟩ := decide_outside (x := x) (keeps.pairEn.trans alone)
  have put (yes : beAt u.pkt.data 8 1 = 1) (count : beAt u.pkt.data 10 2 = w.entries) : s1.xid x = (s.xid x).voted w true := by
    rw [counted, yes, count, beq_self_eq_true, beq_self_eq_true]
    rfl
  have recorded (yes : beAt u.pkt.data 8 1 = 1) (count : beAt u.pkt.data 10 2 = w.entries) : w.voted true ∈ (t.xid x).voters := by
    rw [same, ready yes count, voters, put yes count]
    exact Xid.voted_mem true mem
  refine ⟨t, (exec_xaVoteRx s).trans run, popped, recorded, fun yes count others runs => ?_, fun yes count ⟨v, other, differs, missing⟩ => ?_,
    fun no code asked sent runs => ?_⟩
  · have all : allReady (s1.xid x) = true := by rw [put yes count]; exact Xid.voted_allReady others
    have on : (s1.xid x).st = .voting := by rw [put yes count]; exact voting
    have line : (s1.xid x).parent = (s.xid x).parent := by rw [put yes count]; rfl
    rw [same, ready yes count]
    split
    · next orphan =>
      rw [fires on all (line.trans orphan)]
      exact fire_fired (by rw [keeps.genRuns, put yes count]; exact runs)
    · next parent => exact readies on all (by rw [line]; exact parent)
  · refine ⟨?_, recorded yes count⟩
    rw [same, ready yes count, waitsOn (by rw [put yes count]; exact Xid.voted_undecided other differs missing), put yes count]
    exact voting
  · have tells : (s1.xid x).sent = true ∧ genRuns s1 (s1.xid x).refRing = true := by
      rw [keeps.genRuns, counted]
      exact ⟨sent, runs⟩
    rw [same, refused no code asked, abortXid_aborted _ _ _ _ (.inr tells)]
    exact ⟨rfl, rfl, rfl⟩

/-- Another vote only leaves the front. -/
theorem xaVoteRx_other (kind : beAt u.pkt.data 0 1 = 2) (waits : NoHeadWaits s) (told : s.hif.dirty = 0)
    (other : (s.xid x).st ≠ .voting ∧ (s.xid x).st ≠ .preparing ∨ ((s.xid x).voters.find? fun w => isVoter s u.ring u.pkt w && w.vote.isNone) = none) :
    Runs .xaVoteRx s (Reports (s.withUp l)) := by
  subst xid
  have idle : NoHeadWaits (s.withUp l) := waits
  have effect := voteRx_front front type kind
  rw [voteAccept_other (s := s.withUp l) other, retryHeads_still idle told] at effect
  obtain ⟨t, run, rep, -⟩ := upFront_runs effect (.refl _)
  exact ⟨t, (exec_xaVoteRx s).trans run, rep⟩

variable (kind : beAt u.pkt.data 0 1 = 3) (fired : (s.xid x).st = .fired)
  (voter : ((s.xid x).voters.find? fun w => isVoter s u.ring u.pkt w && w.result.isNone) = some w)
include kind fired voter

/-- An arm-ack with another outstanding (R132). -/
theorem xaArmackRx_records (outstanding : ∃ v ∈ (s.xid x).voters, v ≠ w ∧ v.result = none) :
    Runs .xaArmackRx s fun t => t.ring.upReady = l ∧ t.xid x = (s.xid x).armed w (beAt u.pkt.data 8 1) u.pkt.route.toNat u.pkt.rhb := by
  obtain ⟨s1, keeps, -, -, put, counts⟩ := armackAccept_counts (s := s.withUp l) xid fired voter
  have waits : ((s1.xid x).voters.all fun u => u.result.isSome) ≠ true := fun all => by
    obtain ⟨v, listed, differs, missing⟩ := outstanding
    have kept : v ∈ (s1.xid x).voters := by
      rw [put, (Xid.armed_fields ..).1]
      exact List.mem_map.mpr ⟨v, listed, if_neg (by simpa using differs)⟩
    have some : v.result.isSome = true := List.all_eq_true.mp all v kept
    rw [missing] at some
    exact absurd some (by decide)
  have effect := armackRx_front front type kind
  rw [counts, if_neg waits] at effect
  obtain ⟨t, run, rep, -, popped⟩ := upFront_runs effect keeps
  exact ⟨t, (exec_xaArmackRx s).trans run, popped, (State.xid_congr rep.xa x).trans put⟩

/-- The last arm-ack, all of them ON_TIME: the XA_COMMIT ends with their number (R317). -/
theorem xaArmackRx_ends {n : Fin 16} {j : Job} (onTime : beAt u.pkt.data 8 1 = 1) (others : ∀ v ∈ (s.xid x).voters, v ≠ w → v.result = some 1)
    (parent : (s.xid x).parent = none) (job : (s.xid x).completion.bind s.job = some j) (ring : j.ring = n.val) :
    Runs .xaArmackRx s fun t => t.ring.upReady = l ∧ (t.xid x).completion = none ∧ Completes s t n.val j
      { j.record 0 with frame := (s.xid x).target, route := (s.xid x).offender, rhb := (s.xid x).offRhb,
                        result := bytesLE 2 (s.xid x).voters.length ++ bytesLE 4 0 ++ bytesLE 1 (s.xid x).offCode ++ bytesLE 3 0 } := by
  obtain ⟨s1, keeps, base, hif, put, counts⟩ := armackAccept_counts (s := s.withUp l) xid fired voter
  rw [onTime] at put
  have results : ∀ v ∈ (s1.xid x).voters, v.result = some 1 := fun v listed => by
    rw [put, (Xid.armed_fields ..).1] at listed
    obtain ⟨v, was, rfl⟩ := List.mem_map.mp listed
    by_cases h : v = w
    · simp [h, Voter.armed]
    · simp [h, others v was h]
  have all : ((s1.xid x).voters.all fun u => u.result.isSome) = true := List.all_eq_true.mpr fun v listed => by rw [results v listed]; rfl
  have effect := armackRx_front front type kind
  rw [counts, if_pos all, if_neg (by rw [show ((s.withUp l).xid x).parent = none from parent]; decide)] at effect
  obtain ⟨t, run, rep, out, popped⟩ := upFront_runs effect (keeps.trans (postXa_phase s1 x 0))
  have held : (s1.xid x).completion.bind s1.job = some j := by
    have jobs : s1.job = s.job := by funext id; rw [State.job, hif]; rfl
    rw [jobs, put, (Xid.armed_fields ..).2.2.2.1]
    exact job
  have ends := completes_reports (completes_since (postXa_completes 0 n.isLt held ring) (base n.val)) rep out
  have record : commitRecord (s1.xid x) j 0 = _ := commitRecord_onTime results
  have length : ((s.xid x).armed w 1 u.pkt.route.toNat u.pkt.rhb).voters.length = (s.xid x).voters.length := by
    rw [(Xid.armed_fields ..).1, List.length_map]
  refine ⟨t, (exec_xaArmackRx s).trans run, popped, ?_, ?_⟩
  · rw [State.xid_congr rep.xa, postXa_xid]
  · rw [record, put, show ((s.withUp l).xid x) = s.xid x from rfl, length] at ends
    exact ends

end

/-- Settles O39: a vote that counts and one that does not, an arm-ack that counts, before the last and as the last, and one that does not, and another front. -/
theorem votesAndArmAcks : Obligations.VotesAndArmAcks := by
  refine ⟨?_, ?_, ?_, ?_, ?_⟩
  · intro s u l x w front type kind xid held alone waits voting epoch voter
    exact xaVoteRx_counts front type xid kind held alone waits voting epoch voter
  · intro s u l x front type kind xid waits told other
    exact xaVoteRx_other front type xid kind waits told other
  · intro s u l x w front type kind xid fired voter
    refine ⟨fun outstanding => ?_, fun n j onTime others parent job ring => xaArmackRx_ends front type xid kind fired voter onTime others parent job ring⟩
    obtain ⟨t, run, popped, put⟩ := xaArmackRx_records front type xid kind fired voter outstanding
    have mem : w ∈ (s.xid x).voters := List.mem_of_find?_eq_some voter
    obtain ⟨voters, st, -⟩ := Xid.armed_fields (s.xid x) w (beAt u.pkt.data 8 1) u.pkt.route.toNat u.pkt.rhb
    refine ⟨t, run, popped, ?_, ?_, fun late first => ?_⟩
    · rw [put, voters]
      exact List.mem_map.mpr ⟨w, mem, if_pos (beq_self_eq_true w)⟩
    · rw [put, st]
      exact fired
    · rw [put]
      simp [Xid.armed, late, first]
  · intro s u l front type kind other
    have effect := armackRx_front front type kind
    rw [armackAccept_other (s := s.withUp l) other] at effect
    obtain ⟨t, run, rep, -⟩ := upFront_runs effect (.refl _)
    exact ⟨t, (exec_xaArmackRx s).trans run, rep⟩
  · intro s other
    have still : voteRx s = s ∧ armackRx s = s :=
      ⟨takeUp_other _ fun u l front => by simp [other u l front], takeUp_other _ fun u l front => by simp [other u l front]⟩
    exact ⟨ordinary_idle voteRx s still.1, ordinary_idle armackRx s still.2⟩

end Sys2Proof.Machine
end

section
/-! PROOF. What a sender shows and mirrors of itself (O52, O56; R271 to R273, R279 to R283): Whistles and the mirror channels leave the pair's agreements. -/
namespace Sys2Proof.Machine

/-- What stays where a member shows its lease, queues mirrored items and tells of records: beside transactions and jobs every register but RED_MQ, RED_STAT and
WT_PAIR, SYNCED, and of the pair all but the channels, when it was healthy last, and what it last whistled. -/
structure ShowKeeps (s t : State) : Prop where
  host : HostStays s t
  reg : ∀ a, a ≠ R.RED_MQ → a ≠ R.RED_STAT → a ≠ R.WT_PAIR → t.reg a = s.reg a
  synced : t.rd F.RED_STAT_SYNCED = s.rd F.RED_STAT_SYNCED
  pair : t.pair = { s.pair with chU := t.pair.chU, chS := t.pair.chS, healthySince := t.pair.healthySince, lease := t.pair.lease }
  lease : ∀ r, t.lease r = { s.lease r with sent := (t.lease r).sent }

theorem ShowKeeps.refl (s : State) : ShowKeeps s s := ⟨.refl s, fun _ _ _ _ => rfl, rfl, rfl, fun _ => rfl⟩

theorem ShowKeeps.trans {s t u : State} (h : ShowKeeps s t) (g : ShowKeeps t u) : ShowKeeps s u where
  host := h.host.trans g.host
  reg := fun a mq stat pair => (g.reg a mq stat pair).trans (h.reg a mq stat pair)
  synced := g.synced.trans h.synced
  pair := by rw [g.pair, h.pair]
  lease := fun r => by rw [g.lease, h.lease]

theorem ShowKeeps.ite {c : Prop} [Decidable c] {s t u : State} (ht : ShowKeeps s t) (hu : ShowKeeps s u) : ShowKeeps s (if c then t else u) := by
  split
  · exact ht
  · exact hu

theorem ShowKeeps.foldl {β : Type} {f : State → β → State} (hf : ∀ s x, ShowKeeps s (f s x)) (l : List β) (s : State) : ShowKeeps s (l.foldl f s) := by
  induction l generalizing s with
  | nil => exact .refl s
  | cons x l ih => exact (hf s x).trans (ih _)

theorem ShowKeeps.of_reports {s t : State} (h : Reports s t) (out : s.out <+: t.out) : ShowKeeps s t :=
  ⟨.of_reports h out, fun a _ _ _ => h.reg a, h.rd _, by rw [h.pair], fun r => by rw [State.lease, h.pair, State.lease]⟩

theorem raise_show (s : State) (n : Nat) (d : List Byte) : ShowKeeps s (raise s n d) := .of_reports (raise_reports s n d) (raise_out s n d)

theorem sent_show (s : State) (l : List Output) : ShowKeeps s { s with out := s.out ++ l } :=
  ⟨sent_host s s.pair l, fun _ _ _ _ => rfl, rfl, rfl, fun _ => rfl⟩

/-- RED_MQ, WT_PAIR, or a field of RED_STAT beside SYNCED. -/
theorem wr_show (s : State) (f : FRef) (v : Nat) (link : linkBlock f.addr) (h : f.addr = R.RED_MQ ∨ f.addr = R.WT_PAIR ∨
    f.addr = R.RED_STAT ∧ f.lo + f.w ≤ 32 ∧ (4 ≤ f.lo ∨ f.lo + f.w ≤ 3)) : ShowKeeps s (s.wr f v) := by
  have off : f.addr / 65536 ≠ 3 := by rcases h with h | h | ⟨h, -⟩ <;> rw [h] <;> decide
  have synced : (s.wr f v).rd F.RED_STAT_SYNCED = s.rd F.RED_STAT_SYNCED := by
    rcases h with h | h | ⟨h, low, high⟩
    · exact s.rd_wr_ne _ _ v (by rw [h]; decide)
    · exact s.rd_wr_ne _ _ v (by rw [h]; decide)
    · exact s.rd_wr_other _ _ v h.symm low (high.imp_left fun k => k)
  refine ⟨wr_host s f v link off, fun a mq stat pair => s.reg_wr_ne f v ?_, synced, rfl, fun _ => rfl⟩
  rcases h with h | h | ⟨h, -⟩ <;> rw [h] <;> assumption

/-- A field of RED_MQ. -/
theorem mq_show (s : State) (f : FRef) (v : Nat) (h : f.addr = R.RED_MQ) : ShowKeeps s (s.wr f v) :=
  wr_show s f v (by rw [h]; unfold linkBlock; decide) (.inl h)

/-- A field of RED_STAT beside SYNCED. -/
theorem stat_show (s : State) (f : FRef) (v : Nat) (h : f.addr = R.RED_STAT ∧ f.lo + f.w ≤ 32 ∧ (4 ≤ f.lo ∨ f.lo + f.w ≤ 3)) : ShowKeeps s (s.wr f v) :=
  wr_show s f v (by rw [h.1]; unfold linkBlock; decide) (.inr (.inr h))

theorem setChan_show (s : State) (u : Bool) (c : Chan) : ShowKeeps s (s.setChan u c) := by
  refine ⟨setChan_host s u c, fun _ _ _ _ => rfl, rfl, ?_, fun r => ?_⟩
  · cases u <;> rfl
  · cases u <;> rfl

theorem healthy_show (s : State) (h : Option Nat) : ShowKeeps s { s with pair := { s.pair with healthySince := h } } :=
  ⟨pair_host s _, fun _ _ _ _ => rfl, rfl, rfl, fun _ => rfl⟩

theorem State.lease_setLease_same (s : State) (r : Nat) (x : Lease) : (s.setLease r x).lease r = x := Table.get_set_same _ _ _ _

theorem State.lease_setLease_ne (s : State) {r k : Nat} (x : Lease) (h : k ≠ r) : (s.setLease r x).lease k = s.lease k := Table.get_set_ne _ _ _ _ _ _ h

theorem sendWhistle_show (s : State) (r : Nat) : ShowKeeps s (sendWhistle s r) := by
  have whistled : ShowKeeps s (s.setLease r { s.lease r with sent := whistleContent s r }) := by
    refine ⟨setLease_host s r _, fun _ _ _ _ => rfl, rfl, rfl, fun k => ?_⟩
    by_cases h : k = r
    · rw [h, State.lease_setLease_same]
    · rw [State.lease_setLease_ne _ _ h]
  exact whistled.trans (sent_show _ _)

theorem showMq_show (s : State) : ShowKeeps s (showMq s) := (mq_show s _ _ rfl).trans (mq_show _ _ _ rfl)

theorem mirrorOut_show (s : State) (u : Bool) (i : MItem) : ShowKeeps s (mirrorOut s u i) := sent_show s _

theorem mirrorSend_show (s : State) (u : Bool) (k a : Nat) (b : List Nat) : ShowKeeps s (mirrorSend s u k a b) := by
  unfold mirrorSend
  split
  · exact .refl s
  · extract_lets c i fits c1 s1
    have queued (c : Chan) : ShowKeeps s (showMq (s.setChan u c)) := (setChan_show s u c).trans (showMq_show _)
    exact .ite ((queued _).trans (mirrorOut_show _ u i)) (.ite ((queued _).trans (raise_show _ 443 _)) (queued _))

theorem mirrorFill_show (k : Nat) (s : State) (u : Bool) : ShowKeeps s (mirrorFill k s u) := by
  induction k generalizing s with
  | zero => exact .refl s
  | succ k ih =>
    unfold mirrorFill
    extract_lets c
    split
    · exact .refl s
    · exact .ite (((setChan_show s u _).trans (mirrorOut_show _ u _)).trans (ih _)) (.refl s)

theorem mirrorAck_show (s : State) (u : Bool) (ack : Nat) : ShowKeeps s (mirrorAck s u ack) :=
  ((setChan_show s u _).trans (mirrorFill_show _ _ u)).trans (showMq_show _)

theorem mirrorAccept_show (s : State) (h : MHead) : ShowKeeps s (mirrorAccept s h).1 := by
  unfold mirrorAccept
  extract_lets u s1 c
  split
  · exact .refl s
  · have acked : ShowKeeps s s1 := mirrorAck_show s u _
    split
    · exact acked.trans (setChan_show s1 u _)
    · exact acked

theorem redRefresh_show (s : State) : ShowKeeps s (redRefresh s) := by
  unfold redRefresh
  split
  · exact .refl s
  · dsimp only
    refine ShowKeeps.trans (ShowKeeps.trans (ShowKeeps.trans (.trans (.trans (.trans (.trans (stat_show s _ _ ?_) (stat_show _ _ _ ?_)) (stat_show _ _ _ ?_))
      (stat_show _ _ _ ?_)) (stat_show _ _ _ ?_)) (stat_show _ _ _ ?_)) (healthy_show _ _)) (.foldl (fun s r => .ite (.refl s) (sendWhistle_show s r)) _ _)
    all_goals decide

theorem alignShow_show (s : State) : ShowKeeps s (alignShow s) := by
  unfold alignShow
  extract_lets a
  exact .ite (.refl s) ((wr_show s _ _ (by unfold linkBlock; decide) (.inr (.inl rfl))).trans (raise_show _ 217 _))

theorem cplTell_show (s : State) : ShowKeeps s (cplTell s) := by
  have tells := cplTell_phase s
  refine ⟨cplTell_host s, fun a _ _ _ => cplTell_reg s a, by rw [State.rd, cplTell_reg, State.rd], by rw [tells.pair], fun r => ?_⟩
  rw [State.lease, tells.pair, State.lease]

section
variable {s t : State} (h : ShowKeeps s t)
include h

theorem ShowKeeps.off : OffTime s t := h.host.off

/-- A register of the ports, of the leases, or RED_CFG. -/
theorem ShowKeeps.rd {f : FRef} (a : f.addr ≠ R.RED_MQ) (b : f.addr ≠ R.RED_STAT) (c : f.addr ≠ R.WT_PAIR) : t.rd f = s.rd f := by
  rw [State.rd, h.reg _ a b c, State.rd]

theorem ShowKeeps.on {f : FRef} (a : f.addr ≠ R.RED_MQ) (b : f.addr ≠ R.RED_STAT) (c : f.addr ≠ R.WT_PAIR) : t.on f = s.on f := by
  rw [State.on, h.rd a b c, State.on]

theorem ShowKeeps.portRd {f : FRef} (block : f.addr / 65536 = 6) : t.rd f = s.rd f :=
  h.rd (by rintro k; rw [k] at block; exact absurd block (by decide)) (by rintro k; rw [k] at block; exact absurd block (by decide))
    (by rintro k; rw [k] at block; exact absurd block (by decide))

theorem ShowKeeps.pairEn : pairEn t = pairEn s := by
  rw [Machine.pairEn, State.isSender, h.host.link.strap, h.on (by decide) (by decide) (by decide), Machine.pairEn, State.isSender]

theorem ShowKeeps.isUp (p : Nat) : t.isUp p = s.isUp p := by
  simp only [State.isUp, State.pst, h.portRd (f := F.CL_PSTAT_STATE _) (by simp)]

theorem ShowKeeps.mport : mport t = mport s := h.rd (by decide) (by decide) (by decide)

theorem ShowKeeps.mirrorUp : mirrorUp t = mirrorUp s := by rw [Machine.mirrorUp, h.pairEn, h.mport, h.isUp, Machine.mirrorUp]

theorem ShowKeeps.ringEnds (r : Nat) : ringEnds t r = ringEnds s r := by
  simp only [Machine.ringEnds, State.portIs, State.on, h.portRd (f := F.CL_PCFG_EN _) (by simp), h.portRd (f := F.CL_PCFG_KIND _) (by simp),
    h.portRd (f := F.CL_PCFG_RING _) (by simp)]

theorem ShowKeeps.ringEnabled (r : Nat) : ringEnabled t r = ringEnabled s r := by rw [Machine.ringEnabled, h.ringEnds, Machine.ringEnabled]

theorem ShowKeeps.enabledRings : enabledRings t = enabledRings s := by
  rw [Machine.enabledRings, Machine.enabledRings]
  exact List.filter_congr fun r _ => h.ringEnabled r

theorem ShowKeeps.holds (r : Nat) : holds t r = holds s r := by
  have held : t.on (F.RED_RSTAT_HELD r) = s.on (F.RED_RSTAT_HELD r) :=
    h.on (by simp only [R.RED_RSTAT, R.RED_MQ]; omega) (by simp only [R.RED_RSTAT, R.RED_STAT]; omega) (by simp only [R.RED_RSTAT, R.WT_PAIR]; omega)
  rw [Machine.holds, h.pairEn, held, h.ringEnabled, Machine.holds]

theorem ShowKeeps.runningXid : runningXid t = runningXid s := by
  simp only [Machine.runningXid, h.host.xid]

theorem ShowKeeps.heard (r : Nat) : (t.lease r).heard = (s.lease r).heard := by rw [h.lease]

theorem ShowKeeps.unmarked (r : Nat) : (t.lease r).unmarked = (s.lease r).unmarked := by rw [h.lease]

theorem ShowKeeps.isSyncSource : isSyncSource t = isSyncSource s := by
  have home : t.pair.partnerHome = s.pair.partnerHome := by rw [h.pair]
  have own : t.on F.RED_CFG_HOME = s.on F.RED_CFG_HOME := h.on (by decide) (by decide) (by decide)
  have puid : t.rd64 (F.CL_PUID_LO_PUID (Machine.mport t)) (F.CL_PUID_HI_PUID (Machine.mport t)) =
      s.rd64 (F.CL_PUID_LO_PUID (Machine.mport s)) (F.CL_PUID_HI_PUID (Machine.mport s)) := by
    rw [h.mport, State.rd64, h.portRd (f := F.CL_PUID_LO_PUID _) (by simp), h.portRd (f := F.CL_PUID_HI_PUID _) (by simp), State.rd64]
  have counts : countsHome t = countsHome s := by
    unfold countsHome
    rw [own, home, puid, h.host.link.strap]
  have rings : partnerRings t = partnerRings s := by
    rw [partnerRings, partnerRings, h.enabledRings]
    exact List.filter_congr fun r _ => by rw [h.holds, h.heard]
  have held : (Machine.enabledRings t).any (Machine.holds t) = (Machine.enabledRings s).any (Machine.holds s) := by
    rw [h.enabledRings]
    exact congrArg _ (funext h.holds)
  rw [Machine.isSyncSource, held, rings, counts, Machine.isSyncSource]

end

end Sys2Proof.Machine
end

section
/-! PROOF. Decisions, claims and resyncs cross the mirror link (O52): what a MIRROR packet in order does, and what a member sends of its own (R128, R273, R279,
R280, R283, R289, R290, R295, R296). -/
namespace Sys2Proof.Machine

/-! A MIRROR packet in order (R273). -/

theorem State.chan_setChan (s : State) (u : Bool) (c : Chan) : (s.setChan u c).chan u = c := by cases u <;> rfl

theorem setChan_rx (s : State) (u : Bool) (c : Chan) (h : c.rx = (s.chan u).rx) : ((s.setChan u c).chan u).rx = (s.chan u).rx := by
  rw [s.chan_setChan u c, h]

theorem State.chan_congr {s t : State} (h : t.pair = s.pair) (u : Bool) : t.chan u = s.chan u := by rw [State.chan, h, State.chan]

theorem mirrorFill_rx (k : Nat) (s : State) (u : Bool) : ((mirrorFill k s u).chan u).rx = (s.chan u).rx := by
  induction k generalizing s with
  | zero => rfl
  | succ k ih =>
    unfold mirrorFill
    dsimp only
    split
    · rfl
    · split
      · exact (ih _).trans (setChan_rx s u _ rfl)
      · rfl

/-- An acknowledgement leaves the number that is due. -/
theorem mirrorAck_rx (s : State) (u : Bool) (ack : Nat) : ((mirrorAck s u ack).chan u).rx = (s.chan u).rx :=
  (mirrorFill_rx _ _ u).trans (setChan_rx s u _ rfl)

theorem mirrorAccept_inOrder {h : MHead} {s : State} (order : InOrder h s) : (mirrorAccept s h).2 = true := by
  obtain ⟨up, due⟩ := order
  rw [← mirrorAck_rx s (!h.chS) h.ack.toNat] at due
  simp only [mirrorAccept, up, due, Bool.not_true, Bool.false_eq_true, if_false, if_true]

/-- A MIRROR packet in order is acted on, and what acknowledges it is sent. -/
theorem mirrorRow_eq {h : MHead} {s : State} (order : InOrder h s) (f : State → State) :
    ∃ u l, ShowKeeps s u ∧ mirrorRow h f s = { f u with out := (f u).out ++ l } := by
  have kept := mirrorAccept_show s h
  have taken := mirrorAccept_inOrder order
  unfold mirrorRow
  dsimp only
  rw [if_pos taken]
  generalize (mirrorAccept s h).1 = u at kept ⊢
  split
  · exact ⟨u, [], kept, by rw [List.append_nil]⟩
  · exact ⟨u, _, kept, rfl⟩

theorem out_reports (s : State) (l : List Output) : Reports s { s with out := l } := by constructor <;> (intros; rfl)

/-- What the command of a MIRROR packet in order answers: what the packet does, but for reports. -/
theorem mirrorRow_runs {h : MHead} {s : State} (order : InOrder h s) {f : State → State} (off : ∀ u, ShowKeeps s u → OffTime u (f u)) :
    ∃ u t, ShowKeeps s u ∧ ordinary (mirrorRow h f) s = .next t ∧ Reports (f u) t := by
  obtain ⟨u, l, kept, eq⟩ := mirrorRow_eq order f
  have sent := out_reports (f u) ((f u).out ++ l)
  obtain ⟨t, run, rep, -⟩ := OffTime.runs (f := mirrorRow h f) (s := s) (by rw [eq]; exact (kept.off.trans (off u kept)).trans (.of_reports sent))
  rw [eq] at rep
  exact ⟨u, t, kept, run, sent.trans rep⟩

/-! XADEC (R128). -/

/-- The mirror port is UP by the registers of the ports and RED_CFG. -/
theorem mirrorUp_congr {s t : State} (strap : t.strap = s.strap) (cfg : t.reg R.RED_CFG = s.reg R.RED_CFG) (port : ∀ p, t.reg (R.CL_PSTAT p) = s.reg (R.CL_PSTAT p)) :
    mirrorUp t = mirrorUp s := by
  have en : pairEn t = pairEn s := by simp only [pairEn, State.isSender, State.on, State.rd, strap, cfg]
  have at_ : mport t = mport s := by rw [mport, State.rd, cfg, mport, State.rd]
  have up (p : Nat) : t.isUp p = s.isUp p := by simp only [State.isUp, State.pst, State.rd, port]
  rw [mirrorUp, en, at_, up, mirrorUp]

theorem PhaseKeeps.mirrorUp {s t : State} (h : PhaseKeeps s t) : mirrorUp t = mirrorUp s :=
  mirrorUp_congr h.strap (h.reg fun n => by simp only [R.RED_CFG, R.HIF_CP_PROD]; omega) fun p => h.reg fun n => by simp only [R.CL_PSTAT, R.HIF_CP_PROD]; omega

/-- What a decision of the partner leaves beside the transactions. -/
structure DecisionKeeps (s t : State) : Prop where
  off : OffTime s t
  up : mirrorUp t = mirrorUp s

theorem PhaseKeeps.decision {s t : State} (h : PhaseKeeps s t) : DecisionKeeps s t := ⟨h.off, h.mirrorUp⟩

theorem DecisionKeeps.trans {s t u : State} (h : DecisionKeeps s t) (g : DecisionKeeps t u) : DecisionKeeps s u := ⟨h.off.trans g.off, g.up.trans h.up⟩

/-- A vote that goes up changes no transaction of this sender. -/
theorem voteSent_keeps {s r : State} (rep : Reports s r) (x sub y : Nat) (v : Use) (body : List Byte) :
    DecisionKeeps s (sendXaUp (r.setUse x (some v)) sub y body) ∧ ∀ z, (sendXaUp (r.setUse x (some v)) sub y body).xid z = s.xid z := by
  have sent := sendUp_reports (r.setUse x (some v)) 1 0 (upPacket (r.setUse x (some v)) 7 (xaHead sub y ((followedEpoch (r.setUse x (some v))).getD 0) 0 ++ body))
  have reg {a : Nat} (h : a ≠ R.XA_STAGE) : (sendXaUp (r.setUse x (some v)) sub y body).reg a = s.reg a :=
    (sent.reg a).trans ((r.reg_setUse x _ h).trans (rep.reg a))
  have follow := setUse_follow r x (some v)
  have used : OffTime r (r.setUse x (some v)) := ⟨follow.strap, follow.pending, follow.tap, follow.upd, r.reg_setUse x _ (by decide)⟩
  have off : OffTime s (sendXaUp (r.setUse x (some v)) sub y body) := ((OffTime.of_reports rep).trans used).trans (.of_reports sent)
  refine ⟨⟨off, mirrorUp_congr off.strap (reg (by decide)) fun p => reg (by simp only [R.CL_PSTAT, R.XA_STAGE]; omega)⟩, fun z => ?_⟩
  rw [sendXaUp, State.xid_congr sent.xa, State.xid_setUse, State.xid_congr rep.xa]

theorem tryVote_keeps (s : State) (x : Nat) : DecisionKeeps s (tryVote s x) ∧ ∀ z, (tryVote s x).xid z = s.xid z := by
  have still : DecisionKeeps s s ∧ ∀ z, s.xid z = s.xid z := ⟨⟨.refl s, rfl⟩, fun _ => rfl⟩
  unfold tryVote
  split
  · exact still
  · extract_lets subOk subGone
    split
    · exact still
    · split
      · exact voteSent_keeps ((traceXa_reports ..).trans (raise_reports ..)) _ _ _ _ _
      · split
        · exact still
        · exact voteSent_keeps (traceXa_reports ..) _ _ _ _ _

/-- An XID FIRED by its holder at its target. -/
def Xid.decided (v : Xid) (target : Nat) : Xid := { v with st := .fired, target := target }

theorem shadowFire_phase (s : State) (x target : Nat) : PhaseKeeps s (shadowFire s x target) := by
  unfold shadowFire
  exact .ite ((setXid_phase s x _).trans (setRate_phase ..)) (setXid_phase s x _)

theorem shadowFire_xid (s : State) (x target : Nat) : (shadowFire s x target).xid x = (s.xid x).decided target := by
  unfold shadowFire
  dsimp only
  split
  · exact (State.xid_setGen ..).trans (State.xid_setXid ..)
  · exact State.xid_setXid ..

/-- The decision of the holder as this member takes it (R128, R296). -/
theorem xadecItem_takes (s : State) (x : Nat) (fired : Bool) (target : Nat) : DecisionKeeps s (xadecItem s x fired target) ∧
    (fired = true → (s.xid x).parent = none → (xadecItem s x fired target).xid x = (s.xid x).decided target) ∧
    (fired = true → (s.xid x).parent.isSome = true → (s.xid x).st = .preparing ∨ (s.xid x).st = .voting →
      (xadecItem s x fired target).xid x = (s.xid x).readied) ∧
    (fired = false → (xadecItem s x fired target).xid x = (s.xid x).freed) := by
  cases fired with
  | false => exact ⟨(freeXid_phase s x).decision, fun h => absurd h (by decide), fun h => absurd h (by decide), fun _ => freeXid_xid s x⟩
  | true =>
    cases parent : (s.xid x).parent with
    | none =>
      have fires : xadecItem s x true target = shadowFire s x target := by simp [xadecItem, parent]
      rw [fires]
      exact ⟨(shadowFire_phase ..).decision, fun _ _ => shadowFire_xid .., fun _ h => absurd h (by simp), fun h => absurd h (by decide)⟩
    | some p =>
      by_cases open_ : (s.xid x).st = .preparing ∨ (s.xid x).st = .voting
      · have readies : xadecItem s x true target = tryVote (s.setXid x (s.xid x).readied) p := by
          simp only [xadecItem, parent, Xid.readied, Bool.not_true, Bool.false_eq_true, if_false]
          exact if_pos (by simpa using open_)
        obtain ⟨keeps, xids⟩ := tryVote_keeps (s.setXid x (s.xid x).readied) p
        rw [readies]
        exact ⟨(setXid_phase s x _).decision.trans keeps, fun _ h => absurd h (by simp), fun _ _ _ => (xids x).trans (State.xid_setXid ..),
          fun h => absurd h (by decide)⟩
      · have still : xadecItem s x true target = s := by
          simp only [xadecItem, parent, Bool.not_true, Bool.false_eq_true, if_false]
          exact if_neg (by simpa using open_)
        rw [still]
        exact ⟨⟨.refl s, rfl⟩, fun _ h => absurd h (by simp), fun _ _ h => absurd h open_, fun h => absurd h (by decide)⟩

theorem mirrorOut_pair (s : State) (u : Bool) (i : MItem) : (mirrorOut s u i).pair = s.pair := rfl

/-- An item that is mirrored is in its channel, sent or waiting. -/
theorem mirrorSend_queued {s : State} (up : mirrorUp s = true) (u : Bool) (k a : Nat) (b : List Nat) :
    ∃ i ∈ ((mirrorSend s u k a b).chan u).unacked ++ ((mirrorSend s u k a b).chan u).waiting, i.kind = k ∧ i.body = b := by
  refine ⟨⟨k, (s.chan u).next, a, b⟩, ?_, rfl, rfl⟩
  have chan (c : Chan) : (showMq (s.setChan u c)).chan u = c :=
    (State.chan_congr ((State.wr_pair _ _ _).trans (State.wr_pair _ _ _)) u).trans (s.chan_setChan u c)
  unfold mirrorSend
  rw [if_neg (by simp [up])]
  extract_lets c i fits c1 s1
  split
  · rw [State.chan_congr (mirrorOut_pair _ u i), chan]
    exact List.mem_append_left _ (List.mem_append_right _ (List.mem_singleton.mpr rfl))
  · have waits : i ∈ (s1.chan u).unacked ++ (s1.chan u).waiting := by
      rw [chan]
      exact List.mem_append_right _ (List.mem_append_right _ (List.mem_singleton.mpr rfl))
    split
    · rw [State.chan_congr (raise_reports s1 443 _).pair]
      exact waits
    · exact waits

theorem exec_mirrorXadec (h : MHead) (x : Fin 16) (fired : Bool) (f : BitVec 48) (s : State) : exec (.mirrorXadec h x fired f) s =
    ordinary (mirrorRow h fun s => sendAckk (xadecItem s x.val fired f.toNat) 11 h.mseq.toNat 0) s := rfl

theorem mirrorXadec_takes {h : MHead} {s : State} (order : InOrder h s) (x : Fin 16) (fired : Bool) (f : BitVec 48) :
    Runs (.mirrorXadec h x fired f) s fun t =>
      (∃ i ∈ (t.chan true).unacked ++ (t.chan true).waiting, i.kind = 12 ∧ i.body = [11, h.mseq.toNat, 0]) ∧
      (fired = true → (s.xid x.val).parent = none → t.xid x.val = (s.xid x.val).decided f.toNat) ∧
      (fired = true → (s.xid x.val).parent.isSome = true → (s.xid x.val).st = .preparing ∨ (s.xid x.val).st = .voting → t.xid x.val = (s.xid x.val).readied) ∧
      (fired = false → t.xid x.val = (s.xid x.val).freed) := by
  have acked (u : State) := mirrorSend_host (xadecItem u x.val fired f.toNat) true 12 0 [11, h.mseq.toNat, 0]
  obtain ⟨u, t, kept, run, rep⟩ := mirrorRow_runs order (f := fun s => sendAckk (xadecItem s x.val fired f.toNat) 11 h.mseq.toNat 0)
    fun u _ => (xadecItem_takes u x.val fired f.toNat).1.off.trans (acked u).off
  obtain ⟨keeps, takes⟩ := xadecItem_takes u x.val fired f.toNat
  have queued := mirrorSend_queued ((keeps.up.trans kept.mirrorUp).trans order.1) true 12 0 [11, h.mseq.toNat, 0]
  have xid : t.xid x.val = (xadecItem u x.val fired f.toNat).xid x.val := (State.xid_congr rep.xa _).trans ((acked u).xid _)
  have chan : t.chan true = (sendAckk (xadecItem u x.val fired f.toNat) 11 h.mseq.toNat 0).chan true := by rw [State.chan, rep.pair, State.chan]
  rw [kept.host.xid] at takes
  rw [← xid] at takes
  exact ⟨t, (exec_mirrorXadec h x fired f s).trans run, by rw [chan]; exact queued, takes⟩

/-! ACKK of a decision asked for (R128, R279). -/

/-- A change of what is owed by the partner. -/
theorem modPair_off (s : State) (f : Pair → Pair) : OffTime s (s.modPair f) := .of_link (modPair_keeps s f)

/-- The partner's answer: taken, the transaction fires or is aborted. -/
theorem ackkItem_takes {s : State} {e : Nat × Nat × Nat} {q : Nat} (res : Byte) (owed : (s.pair.owed.find? fun e => e.1 == 11 && e.2.1 == q) = some e)
    (voting : (s.xid e.2.2).st = .voting) :
    ackkItem s 11 q res.toNat = if res = 0#8 then fire (s.modPair fun p => { p with owed := p.owed.erase e }) e.2.2
      else abortXid (s.modPair fun p => { p with owed := p.owed.erase e }) e.2.2 reasonPartition 0 0 0 := by
  have open_ : ((s.modPair fun p => { p with owed := p.owed.erase e }).xid e.2.2).st = .voting := voting
  have word : (res.toNat = 0) = (res = 0#8) := by
    rw [← BitVec.toNat_inj]
    rfl
  simp only [ackkItem, owed, open_, word, bne_self_eq_false, Bool.false_eq_true, if_false]
  rfl

theorem ackkItem_phase {s : State} {e : Nat × Nat × Nat} {q : Nat} (res : Byte) (owed : (s.pair.owed.find? fun e => e.1 == 11 && e.2.1 == q) = some e)
    (voting : (s.xid e.2.2).st = .voting) : PhaseKeeps (s.modPair fun p => { p with owed := p.owed.erase e }) (ackkItem s 11 q res.toNat) := by
  rw [ackkItem_takes res owed voting]
  exact .ite (fire_phase ..) (abortXid_phase ..)

theorem exec_mirrorAckk (h : MHead) (k : Byte) (q : BitVec 16) (res : Byte) (s : State) : exec (.mirrorAckk h k q res) s =
    ordinary (fun s => retryHeads (mirrorRow h (fun s => ackkItem s k.toNat q.toNat res.toNat) s)) s := rfl

/-- An abort leaves the XID ABORTED or FREE. -/
theorem abortXid_st (s : State) (x a b c d : Nat) : ((abortXid s x a b c d).xid x).st = .aborted ∨ ((abortXid s x a b c d).xid x).st = .free := by
  rw [abortXid_eq]
  split
  · exact .inl (by rw [aborting_xid]; rfl)
  · exact .inr (by rw [freeXid_xid]; rfl)

theorem mirrorAckk_decides {h : MHead} {q : BitVec 16} {res : Byte} {e : Nat × Nat × Nat} {s : State} (order : InOrder h s) (waits : NoHeadWaits s)
    (owed : (s.pair.owed.find? fun e => e.1 == 11 && e.2.1 == q.toNat) = some e) (voting : (s.xid e.2.2).st = .voting) :
    Runs (.mirrorAckk h 11#8 q res) s fun t =>
      (res = 0#8 → genRuns s (s.xid e.2.2).refRing = true → (t.xid e.2.2).st = .fired) ∧
      (res ≠ 0#8 → (t.xid e.2.2).reason = 3 ∧ ((t.xid e.2.2).st = .aborted ∨ (t.xid e.2.2).st = .free)) ∧ t.pair.owed = s.pair.owed.erase e := by
  obtain ⟨u, l, kept, eq⟩ := mirrorRow_eq order fun s => ackkItem s (11#8).toNat q.toNat res.toNat
  have owes : u.pair.owed = s.pair.owed := by rw [kept.pair]
  have open_ : (u.xid e.2.2).st = .voting := by rw [kept.host.xid]; exact voting
  rw [← owes] at owed
  have took := ackkItem_takes res owed open_
  have phase := ackkItem_phase res owed open_
  have idle : NoHeadWaits (u.modPair fun p => { p with owed := p.owed.erase e }) := kept.host.idle waits
  have acked := phase.trans (sent_phase _ l)
  have looked := retryHeads_phase idle acked
  have off : OffTime s (retryHeads { ackkItem u 11 q.toNat res.toNat with out := (ackkItem u 11 q.toNat res.toNat).out ++ l }) :=
    (kept.off.trans (modPair_off u _)).trans looked.off
  have xid := retryHeads_xid idle acked e.2.2
  obtain ⟨t, run, rep, -⟩ := OffTime.runs (f := fun s => retryHeads (mirrorRow h (fun s => ackkItem s (11#8).toNat q.toNat res.toNat) s)) (s := s)
    (by rw [eq]; exact off)
  rw [eq] at rep
  have same : t.xid e.2.2 = (ackkItem u 11 q.toNat res.toNat).xid e.2.2 := (State.xid_congr rep.xa _).trans xid
  refine ⟨t, (exec_mirrorAckk h 11#8 q res s).trans run, fun yes runs => ?_, fun no => ?_, ?_⟩
  · rw [same, took, if_pos yes]
    refine fire_fired ?_
    rw [← kept.host.xid, genRuns, State.gen, ← kept.host.link.wt, ← State.gen, ← kept.on (f := F.WT_RCFG_EN _) (by simp only [R.WT_RCFG, R.RED_MQ]; omega)
      (by simp only [R.WT_RCFG, R.RED_STAT]; omega) (by simp only [R.WT_RCFG, R.WT_PAIR]; omega), ← genRuns] at runs
    exact runs
  · rw [same, took, if_neg no]
    exact ⟨abortXid_reason .., abortXid_st ..⟩
  · rw [rep.pair, ← owes]
    exact congrArg Pair.owed looked.pair

/-! CLAIM and GRANT (R289). -/

theorem modPair_xid (s : State) (f : Pair → Pair) (x : Nat) : (s.modPair f).xid x = s.xid x := rfl

/-- A grant as the member that gives the rings notes it. -/
theorem grantAt_takes (s : State) (m f : Nat) : OffTime s (grantAt s m f) ∧ (grantAt s m f).pair.grant = some ⟨m, f, false⟩ := by
  have shown := redRefresh_show (s.modPair fun p => { p with claimHeld := none, grant := some ⟨m, f, false⟩ })
  have told := shown.trans (mirrorSend_show _ true 14 0 [m, f])
  refine ⟨(modPair_off s _).trans told.off, ?_⟩
  rw [grantAt, told.pair]
  rfl

/-- The rings of a claim that this member holds. -/
def claimed (s : State) (mask : Nat) : Nat := ringMask ((enabledRings s).filter fun r => mask.testBit r && holds s r)

theorem ShowKeeps.claimed {s t : State} (h : ShowKeeps s t) (mask : Nat) : claimed t mask = claimed s mask := by
  rw [Machine.claimed, Machine.claimed, h.enabledRings]
  exact congrArg ringMask (List.filter_congr fun r _ => by rw [h.holds])

/-- A claim is granted at its fence, or waits for the transaction that runs (R289). -/
theorem claimAccept_takes (s : State) (mask f : Nat) : OffTime s (claimAccept s mask f) ∧
    (claimed s mask = 0 → claimAccept s mask f = s) ∧
    (claimed s mask ≠ 0 → runningXid s = none → (claimAccept s mask f).pair.grant = some ⟨claimed s mask, f, false⟩) ∧
    (claimed s mask ≠ 0 → runningXid s ≠ none →
      (claimAccept s mask f).pair.grant = s.pair.grant ∧ (claimAccept s mask f).pair.claimHeld = some (claimed s mask, f)) := by
  by_cases none_ : claimed s mask = 0
  · have still : claimAccept s mask f = s := if_pos none_
    rw [still]
    exact ⟨.refl s, fun _ => rfl, fun h => absurd none_ h, fun h => absurd none_ h⟩
  · have takes : claimAccept s mask f = match runningXid s with
      | none => grantAt s (claimed s mask) f
      | some x => raise (s.modPair fun p => { p with claimHeld := some (claimed s mask, f) }) 438 (d2 (claimed s mask) x) := if_neg none_
    rw [takes]
    cases runningXid s with
    | none =>
      obtain ⟨off, grant⟩ := grantAt_takes s (claimed s mask) f
      exact ⟨off, fun h => absurd h none_, fun _ _ => grant, fun _ h => absurd rfl h⟩
    | some x =>
      have told := raise_reports (s.modPair fun p => { p with claimHeld := some (claimed s mask, f) }) 438 (d2 (claimed s mask) x)
      refine ⟨(modPair_off s _).trans (.of_reports told), fun h => absurd h none_, fun _ h => absurd h (by simp), fun _ _ => ?_⟩
      dsimp only
      rw [told.pair]
      exact ⟨rfl, rfl⟩

theorem exec_mirrorClaim (h : MHead) (m : Byte) (f : BitVec 48) (s : State) :
    exec (.mirrorClaim h m f) s = ordinary (mirrorRow h fun s => claimAccept s m.toNat f.toNat) s := rfl

theorem mirrorClaim_takes {h : MHead} {s : State} (order : InOrder h s) (m : Byte) (f : BitVec 48) : Runs (.mirrorClaim h m f) s fun t =>
    (claimed s m.toNat = 0 → t.pair.grant = s.pair.grant ∧ t.pair.claimHeld = s.pair.claimHeld) ∧
    (claimed s m.toNat ≠ 0 → runningXid s = none → t.pair.grant = some ⟨claimed s m.toNat, f.toNat, false⟩) ∧
    (claimed s m.toNat ≠ 0 → runningXid s ≠ none → t.pair.grant = s.pair.grant ∧ t.pair.claimHeld = some (claimed s m.toNat, f.toNat)) := by
  obtain ⟨u, t, kept, run, rep⟩ := mirrorRow_runs order (f := fun s => claimAccept s m.toNat f.toNat) fun u _ => (claimAccept_takes u _ _).1
  obtain ⟨-, none_, grants, waits⟩ := claimAccept_takes u m.toNat f.toNat
  have grant : u.pair.grant = s.pair.grant := by rw [kept.pair]
  have held : u.pair.claimHeld = s.pair.claimHeld := by rw [kept.pair]
  simp only [kept.claimed, kept.runningXid, grant] at none_ grants waits
  refine ⟨t, (exec_mirrorClaim h m f s).trans run, fun zero => ?_, fun some free => ?_, fun some running => ?_⟩
  · rw [rep.pair, none_ zero]
    exact ⟨grant, held⟩
  · rw [rep.pair, grants some free]
  · rw [rep.pair]
    exact waits some running

/-- A grant as the member that takes the rings notes it (R289). -/
theorem grantAccept_takes (s : State) (mask f : Nat) :
    OffTime s (grantAccept s mask f) ∧ (grantAccept s mask f).pair.grant = some ⟨mask, f, true⟩ ∧ (grantAccept s mask f).pair.claimSent = none := by
  have shown := redRefresh_show (s.modPair fun p => { p with claimSent := none, grant := some ⟨mask, f, true⟩ })
  refine ⟨(modPair_off s _).trans shown.off, ?_⟩
  rw [grantAccept, shown.pair]
  exact ⟨rfl, rfl⟩

theorem exec_mirrorGrant (h : MHead) (m : Byte) (f : BitVec 48) (s : State) :
    exec (.mirrorGrant h m f) s = ordinary (mirrorRow h fun s => grantAccept s m.toNat f.toNat) s := rfl

/-! SYNC and RESYNC (R295). -/

theorem modPair_rd (s : State) (f : Pair → Pair) (g : FRef) : (s.modPair f).rd g = s.rd g := rfl

theorem becomeTarget_takes (s : State) : OffTime s (becomeTarget s) ∧
    ((becomeTarget s).pair.syncSource = some 2 ∧ (becomeTarget s).pair.syncFence = none ∧ (becomeTarget s).pair.syncItems = []) ∧
    (becomeTarget s).on F.RED_STAT_SYNCED = false := by
  have shown := redRefresh_show ((s.wr F.RED_STAT_SYNCED 0).modPair fun p =>
    { p with syncSource := some 2, syncFence := none, syncItems := [], syncWrites := [], syncStart := s.now, syncWait := none, wasTarget := true })
  have off : OffTime s (s.wr F.RED_STAT_SYNCED 0) := .wr s _ _ (by decide)
  refine ⟨(off.trans (modPair_off _ _)).trans shown.off, ?_, ?_⟩
  · rw [becomeTarget, shown.pair]
    exact ⟨rfl, rfl, rfl⟩
  · have zero : (s.wr F.RED_STAT_SYNCED 0).rd F.RED_STAT_SYNCED = 0 := s.rd_wr_same F.RED_STAT_SYNCED 0 (by decide)
    rw [State.on, becomeTarget, shown.synced, modPair_rd, zero]
    rfl

/-- This member as the target of a resync (R295). -/
def resyncTarget (s : State) : State := if s.pair.syncSource == some 2 then s else becomeTarget s

theorem resyncTarget_takes (s : State) : OffTime s (resyncTarget s) ∧ (resyncTarget s).pair.syncSource = some 2 ∧
    (resyncTarget s).pair.syncItems = if s.pair.syncSource = some 2 then s.pair.syncItems else [] := by
  by_cases h : s.pair.syncSource = some 2
  · have still : resyncTarget s = s := by simp [resyncTarget, h]
    rw [still]
    exact ⟨.refl s, h, by rw [if_pos h]⟩
  · have begins : resyncTarget s = becomeTarget s := by simp [resyncTarget, h]
    obtain ⟨off, ⟨source, -, items⟩, -⟩ := becomeTarget_takes s
    rw [begins, items]
    exact ⟨off, source, by rw [if_neg h]⟩

theorem syncRx_fence {s : State} (f : BitVec 48) (target : s.pair.syncSource ≠ some 1) :
    syncRx s (.fence f) = (resyncTarget s).modPair fun p => { p with syncFence := some f.toNat } :=
  if_neg (by simpa using target)

theorem syncRx_item {s : State} {i : SyncItem} (target : s.pair.syncSource ≠ some 1) (item : ∀ f, i ≠ .fence f) :
    syncRx s i = (resyncTarget s).modPair fun p => { p with syncItems := p.syncItems ++ [i] } := by
  cases i with
  | fence f => exact absurd rfl (item f)
  | _ => exact if_neg (by simpa using target)

/-- A target names the fence, and keeps every other item (R295). -/
theorem syncRx_takes {s : State} (i : SyncItem) (target : s.pair.syncSource ≠ some 1) : OffTime s (syncRx s i) ∧ (syncRx s i).pair.syncSource = some 2 ∧
    (∀ f, i = .fence f → (syncRx s i).pair.syncFence = some f.toNat) ∧
    ((∀ f, i ≠ .fence f) → (syncRx s i).pair.syncItems = (if s.pair.syncSource = some 2 then s.pair.syncItems else []) ++ [i]) := by
  obtain ⟨off, source, items⟩ := resyncTarget_takes s
  rw [← items]
  by_cases fence : ∃ f, i = .fence f
  · obtain ⟨f, rfl⟩ := fence
    rw [syncRx_fence f target]
    exact ⟨off.trans (modPair_off _ _), source, fun g h => by rw [SyncItem.fence.inj h]; rfl, fun h => absurd rfl (h f)⟩
  · rw [syncRx_item target fun f h => fence ⟨f, h⟩]
    exact ⟨off.trans (modPair_off _ _), source, fun f h => absurd ⟨f, h⟩ fence, fun _ => rfl⟩

theorem exec_mirrorSync (h : MHead) (i : SyncItem) (s : State) : exec (.mirrorSync h i) s = ordinary (mirrorRow h fun s => syncRx s i) s := rfl

theorem mirrorSync_takes {h : MHead} {s : State} (order : InOrder h s) (i : SyncItem) (target : s.pair.syncSource ≠ some 1) :
    Runs (.mirrorSync h i) s fun t => t.pair.syncSource = some 2 ∧ (∀ f, i = .fence f → t.pair.syncFence = some f.toNat) ∧
      ((∀ f, i ≠ .fence f) → t.pair.syncItems = (if s.pair.syncSource = some 2 then s.pair.syncItems else []) ++ [i]) := by
  have source {u : State} (kept : ShowKeeps s u) : u.pair.syncSource = s.pair.syncSource := by rw [kept.pair]
  have items {u : State} (kept : ShowKeeps s u) : u.pair.syncItems = s.pair.syncItems := by rw [kept.pair]
  have takes {u : State} (kept : ShowKeeps s u) := syncRx_takes (s := u) i (by rw [source kept]; exact target)
  obtain ⟨u, t, kept, run, rep⟩ := mirrorRow_runs order (f := fun s => syncRx s i) fun u kept => (takes kept).1
  obtain ⟨-, effect⟩ := takes kept
  rw [source kept, items kept, ← rep.pair] at effect
  exact ⟨t, (exec_mirrorSync h i s).trans run, effect⟩

/-! MIRROR_RESEND (R273). -/

/-- A packet of a channel sent again, and counted. -/
def resendOne (u : Bool) (s : State) (i : MItem) : State := mirrorOut (s.bump F.RED_MQ_RTX 1) u i

theorem mirrorOut_out (s : State) (u : Bool) (i : MItem) :
    (mirrorOut s u i).out = s.out ++ [.mirror i.kind (b2n (!u)) i.mseq (((s.chan u).rx + 65535) % 65536) i.arg i.body] := rfl

theorem mirrorOut_rd (s : State) (u : Bool) (i : MItem) (f : FRef) : (mirrorOut s u i).rd f = s.rd f := rfl

theorem resendOne_pair (u : Bool) (s : State) (i : MItem) : (resendOne u s i).pair = s.pair := by
  rw [resendOne, mirrorOut_pair, State.bump, State.wr_pair]

theorem resendOne_out (u : Bool) (s : State) (i : MItem) :
    (resendOne u s i).out = s.out ++ [.mirror i.kind (b2n (!u)) i.mseq (((s.chan u).rx + 65535) % 65536) i.arg i.body] := by
  rw [resendOne, mirrorOut_out, State.bump, State.wr_out, State.chan_congr (State.wr_pair _ _ _)]

theorem satAdd_succ {w x n : Nat} (h : x < 2 ^ w) : satAdd w (satAdd w x 1) n = satAdd w x (n + 1) := by
  simp only [satAdd]
  omega

theorem resendAll_sends (u : Bool) (l : List MItem) (s : State) : OffTime s (l.foldl (resendOne u) s) ∧
    (l.foldl (resendOne u) s).out = s.out ++ l.map (fun i => Output.mirror i.kind (b2n (!u)) i.mseq (((s.chan u).rx + 65535) % 65536) i.arg i.body) ∧
    (l.foldl (resendOne u) s).rd F.RED_MQ_RTX = satAdd F.RED_MQ_RTX.w (s.rd F.RED_MQ_RTX) l.length := by
  have small (t : State) : t.rd F.RED_MQ_RTX < 2 ^ 16 := bits_lt _ _ 16
  induction l generalizing s with
  | nil => exact ⟨.refl s, (List.append_nil _).symm, (Nat.min_eq_right (Nat.le_sub_one_of_lt (small s))).symm⟩
  | cons i l ih =>
    obtain ⟨off, out, count⟩ := ih (resendOne u s i)
    have sent : OffTime s (resendOne u s i) := (OffTime.wr s _ _ (by decide)).trans (mirrorOut_show _ u i).off
    have counted : (resendOne u s i).rd F.RED_MQ_RTX = satAdd 16 (s.rd F.RED_MQ_RTX) 1 := by
      have fits : satAdd 16 (s.rd F.RED_MQ_RTX) 1 < 2 ^ 16 := (Nat.min_le_left ..).trans_lt (by decide)
      rw [resendOne, mirrorOut_rd, State.bump, State.rd_wr_same s F.RED_MQ_RTX _ (by decide)]
      exact Nat.mod_eq_of_lt fits
    refine ⟨sent.trans off, ?_, ?_⟩
    · rw [List.foldl_cons, out, List.map_cons, List.append_cons, State.chan_congr (resendOne_pair u s i), resendOne_out]
    · rw [List.foldl_cons, count, counted, List.length_cons]
      exact satAdd_succ (small s)

theorem exec_mirrorResend (u : Bool) (s : State) : exec (.mirrorResend u) s =
    ordinary (fun s => if mirrorUp s then (s.chan (!u)).unacked.foldl (resendOne (!u)) s else s) s := rfl

theorem mirrorResend_sends {u : Bool} {s : State} (up : mirrorUp s = true) : Runs (.mirrorResend u) s fun t =>
    Sends s t ((s.chan (!u)).unacked.map fun i => Output.mirror i.kind (b2n u) i.mseq (((s.chan (!u)).rx + 65535) % 65536) i.arg i.body) ∧
      t.rd F.RED_MQ_RTX = satAdd F.RED_MQ_RTX.w (s.rd F.RED_MQ_RTX) (s.chan (!u)).unacked.length := by
  obtain ⟨off, out, count⟩ := resendAll_sends (!u) (s.chan (!u)).unacked s
  have effect : (if mirrorUp s then (s.chan (!u)).unacked.foldl (resendOne (!u)) s else s) = (s.chan (!u)).unacked.foldl (resendOne (!u)) s := if_pos up
  obtain ⟨t, run, rep, sent⟩ := OffTime.runs (f := fun s => if mirrorUp s then (s.chan (!u)).unacked.foldl (resendOne (!u)) s else s) (s := s)
    (by rw [effect]; exact off)
  rw [effect] at rep sent
  rw [Bool.not_not] at out
  refine ⟨t, (exec_mirrorResend u s).trans run, ?_, (rep.rd _).trans count⟩
  obtain ⟨r, eq⟩ := sent
  exact ⟨r, by rw [← eq, out]⟩

/-! RESYNC (R295). -/

theorem sendSync_show (s : State) (a : Nat) (h b : List Nat) : ShowKeeps s (sendSync s a h b) := .foldl (fun s _ => mirrorSend_show s _ _ _ _) _ s

/-- All that the source sends is mirrored. -/
theorem sendContent_show (s : State) (f : Nat) : ShowKeeps s (sendContent s f) := by
  unfold sendContent
  extract_lets s1 s2 s3 s4 s5 s6
  have h1 : ShowKeeps s s1 := sendSync_show s _ _ _
  have h2 : ShowKeeps s1 s2 := .foldl (fun s _ => mirrorSend_show s _ _ _ _) _ s1
  have h3 : ShowKeeps s2 s3 := .foldl (fun s _ => sendSync_show s _ _ _) _ s2
  have h4 : ShowKeeps s3 s4 := .foldl (fun s _ => mirrorSend_show s _ _ _ _) _ s3
  have h5 : ShowKeeps s4 s5 := .foldl (fun s _ => mirrorSend_show s _ _ _ _) _ s4
  have h6 : ShowKeeps s5 s6 := .foldl (fun s _ => .ite (sendSync_show s _ _ _) (.refl s)) _ s5
  exact (((((h1.trans h2).trans h3).trans h4).trans h5).trans h6).trans (mirrorSend_show s6 _ _ _ _)

/-- The frame at which a resync that begins now is complete. -/
def resyncFence (s : State) : Nat := ((s.gen ((enabledRings s).headD 0)).next + 2) % 2 ^ 48

theorem startResync_source {s : State} (up : mirrorUp s = true) (source : isSyncSource s = true) :
    (∃ u, ShowKeeps u (startResync s) ∧ ∃ f, u = s.modPair f ∧ (f s.pair).wasUp = s.pair.wasUp) ∧
      (startResync s).pair.syncSource = some 1 ∧ (startResync s).pair.syncFence = some (resyncFence s) ∧ (startResync s).pair.everSynced = true := by
  have begins : startResync s = sendContent (s.modPair fun p =>
      { p with syncSource := some 1, syncFence := some (resyncFence s), syncStart := s.now, everSynced := true, syncWait := none }) (resyncFence s) := by
    rw [startResync, up, source]
    rfl
  have shown := sendContent_show (s.modPair fun p =>
      { p with syncSource := some 1, syncFence := some (resyncFence s), syncStart := s.now, everSynced := true, syncWait := none }) (resyncFence s)
  rw [begins]
  refine ⟨⟨_, shown, _, rfl, rfl⟩, ?_⟩
  rw [shown.pair]
  exact ⟨rfl, rfl, rfl⟩

theorem startResync_off (s : State) : OffTime s (startResync s) := .of_link (startResync_keeps s)

theorem exec_resync (path : Option Access) (s : State) : exec (.resync path) s =
    ordinary (fun s => match path with
      | some p => fieldWrite s p F.RED_CTL_RESYNC 1
      | none => if pairEn s then startResync s else s) s := rfl

theorem mirrorUp_pairEn {s : State} (up : mirrorUp s = true) : pairEn s = true := by
  simp only [mirrorUp, Bool.and_eq_true] at up
  exact up.1.1

theorem resync_begins {s : State} (up : mirrorUp s = true) : ∃ t, exec (.resync none) s = .next t ∧ Reports (startResync s) t := by
  have effect : (if pairEn s then startResync s else s) = startResync s := if_pos (mirrorUp_pairEn up)
  obtain ⟨t, run, rep, -⟩ := OffTime.runs (f := fun s => if pairEn s then startResync s else s) (s := s) (by rw [effect]; exact startResync_off s)
  rw [effect] at rep
  exact ⟨t, (exec_resync none s).trans run, rep⟩

theorem startResync_down {s : State} (down : mirrorUp s = false) : startResync s = s := by
  rw [startResync, down]
  rfl

/-! RED_CTL (R290, R295). -/

/-- What a write of RED_CTL leaves of what a resync rests on. -/
structure CtlKeeps (s t : State) : Prop where
  host : HostStays s t
  up : mirrorUp t = mirrorUp s
  source : isSyncSource t = isSyncSource s
  wasUp : t.pair.wasUp = s.pair.wasUp

theorem CtlKeeps.refl (s : State) : CtlKeeps s s := ⟨.refl s, rfl, rfl, rfl⟩

theorem CtlKeeps.trans {s t u : State} (h : CtlKeeps s t) (g : CtlKeeps t u) : CtlKeeps s u :=
  ⟨h.host.trans g.host, g.up.trans h.up, g.source.trans h.source, g.wasUp.trans h.wasUp⟩

theorem CtlKeeps.ite {c : Prop} [Decidable c] {s t u : State} (ht : CtlKeeps s t) (hu : CtlKeeps s u) : CtlKeeps s (if c then t else u) := by
  split
  · exact ht
  · exact hu

theorem ShowKeeps.ctl {s t : State} (h : ShowKeeps s t) : CtlKeeps s t := ⟨h.host, h.mirrorUp, h.isSyncSource, by rw [h.pair]⟩

/-- A claim noted, or a grant. -/
theorem agreed_ctl (s : State) (c : Option (Nat × Nat)) (g : Option Grant) : CtlKeeps s (s.modPair fun p => { p with claimHeld := c, grant := g }) :=
  ⟨pair_host s _, rfl, rfl, rfl⟩

theorem claimAccept_ctl (s : State) (mask f : Nat) : CtlKeeps s (claimAccept s mask f) := by
  unfold claimAccept
  extract_lets m
  split
  · exact .refl s
  · split
    · exact ((agreed_ctl s none (some ⟨m, f, false⟩)).trans (redRefresh_show _).ctl).trans (mirrorSend_show _ true 14 0 _).ctl
    · exact (agreed_ctl s (some (m, f)) s.pair.grant).trans (raise_show _ 438 _).ctl

theorem handover_ctl (s : State) : CtlKeeps s (handover s) := by
  unfold handover
  exact .ite (claimAccept_ctl s _ _) (.refl s)

theorem ringsGo_ctl (s : State) : CtlKeeps s (ringsGo s) := by
  unfold ringsGo
  exact .ite ((stat_show s _ _ (by decide)).trans (stat_show _ _ _ (by decide))).ctl (.refl s)

/-- A write of RED_CTL with RESYNC at the source: the resync begins (R295). -/
theorem redWrote_resync {s : State} (old : Nat) {acts : Nat} (asked : bitAt acts 2 = true) (up : mirrorUp s = true) (source : isSyncSource s = true) :
    ∃ u, CtlKeeps s u ∧ redWrote s R.RED_CTL old acts = startResync u := by
  have gone : CtlKeeps s (if bitAt acts 0 = true then ringsGo s else s) := .ite (ringsGo_ctl s) (.refl s)
  have handed : CtlKeeps s (if bitAt acts 1 = true then handover (if bitAt acts 0 = true then ringsGo s else s) else if bitAt acts 0 = true then ringsGo s else s) :=
    .ite (gone.trans (handover_ctl _)) gone
  unfold redWrote
  rw [if_pos rfl]
  dsimp only
  generalize (if bitAt acts 1 = true then handover (if bitAt acts 0 = true then ringsGo s else s) else if bitAt acts 0 = true then ringsGo s else s) = u at handed ⊢
  have due : (bitAt acts 2 && pairEn u && mirrorUp u && isSyncSource u) = true := by
    have on := handed.up.trans up
    rw [asked, mirrorUp_pairEn on, on, handed.source, source]
    rfl
  exact ⟨u, handed, if_pos due⟩

def redCtlSpec : RegSpec := ⟨R.RED_CTL, [], [⟨0, 1, .wo, .l, 0, none, false⟩, ⟨1, 1, .wo, .l, 0, none, false⟩, ⟨2, 1, .wo, .l, 0, none, false⟩]⟩

theorem findReg_redCtl : findReg R.RED_CTL = some redCtlSpec := by decide

/-- The word of RED_CTL acts by its bits (R417). -/
theorem putWord_redCtl (s : State) (w : Nat) : putWord s R.RED_CTL w false =
    (redWrote (s.setReg R.RED_CTL (s.reg R.RED_CTL)) R.RED_CTL (s.reg R.RED_CTL) (bits w 0 1 + bits w 1 1 * 2 + bits w 2 1 * 4), false) := by
  have word : admittedWord s R.RED_CTL w = w := rfl
  have effect : wordEffect redCtlSpec (s.reg R.RED_CTL) w (!(blockDisabled s R.RED_CTL)) false =
      ⟨s.reg R.RED_CTL, 0, 0, bits w 0 1 + bits w 1 1 * 2 + bits w 2 1 * 4, false⟩ := by
    simp [wordEffect, fieldEffect, redCtlSpec]
  unfold putWord
  simp only [findReg_redCtl, word, effect]
  rfl

/-- The RESYNC bit of such a word. -/
theorem redCtl_resync (w : Nat) : bitAt (bits (setBits w 2 1 1) 0 1 + bits (setBits w 2 1 1) 1 1 * 2 + bits (setBits w 2 1 1) 2 1 * 4) 2 = true := by
  have low := bits_lt (setBits w 2 1 1) 0 1
  have mid := bits_lt (setBits w 2 1 1) 1 1
  rw [bits_setBits]
  generalize bits (setBits w 2 1 1) 0 1 = a at low ⊢
  generalize bits (setBits w 2 1 1) 1 1 = b at mid ⊢
  interval_cases a <;> interval_cases b <;> decide

theorem regWrite_redCtl {s : State} {p : Access} (w : Nat) (reach : reaches s p = true) (on : addrOn s.strap.role R.RED_CTL = true) :
    regWrite s p R.RED_CTL w = linkCheck (retryHeads (putWord s R.RED_CTL w false).1) := by
  have notNow : (accessPath p == .xa || accessPath p == .preload) = false := by cases p <;> rfl
  have open_ : mirrored R.RED_CTL = false := by decide
  have bus : (busWrite s (accessPath p) R.RED_CTL w).1 = (putWord s R.RED_CTL w false).1 := by
    unfold busWrite
    have picture : pictureAddr R.RED_CTL = false := by decide
    have window : isWindow R.RED_CTL = false := by decide
    have commit : ¬ R.RED_CTL = R.SYS_COMMIT := by decide
    have aligned : (R.RED_CTL % 4 != 0) = false := by decide
    simp only [on, aligned, open_, busTouch, picture, window, commit, notNow, putWord_redCtl, Bool.and_false, Bool.false_and, Bool.not_true,
      Bool.or_self, Bool.false_eq_true, if_false]
  rw [regWrite, if_pos reach, bus]

theorem sameWord_link (s : State) (a : Nat) : LinkKeeps s (s.setReg a (s.reg a)) :=
  ⟨rfl, rfl, rfl, rfl, fun _ => rfl, rfl, rfl, rfl, rfl, rfl, rfl, rfl, rfl, rfl, rfl, rfl, fun b _ => sameWord_reg s a b⟩

theorem sameWord_show (s : State) (a : Nat) : ShowKeeps s (s.setReg a (s.reg a)) where
  host := ⟨sameWord_link s a, rfl, rfl, rfl, rfl, fun b _ => sameWord_reg s a b, List.prefix_rfl⟩
  reg := fun b _ _ _ => sameWord_reg s a b
  synced := by rw [State.rd, sameWord_reg, State.rd]
  pair := rfl
  lease := fun _ => rfl

/-- A member whose mirror link stays as it was only shows its lease and its alignment. -/
theorem linkCheck_steady {s : State} (same : mirrorUp s = s.pair.wasUp) : linkCheck s = alignShow (redRefresh s) := by
  have fell : (pairEn s && s.pair.wasUp && !(mirrorUp s)) = false := by rw [same, Bool.and_assoc, Bool.and_not_self, Bool.and_false]
  have link : pairLink s = redRefresh s := by
    unfold pairLink
    dsimp only
    rw [if_pos same]
    split <;> rfl
  simp only [linkCheck, fell, pairCheck, link, Bool.false_eq_true, if_false]

/-! MIRROR_TIMEOUT_EXPIRE (R283). -/

/-- A ring not held is no longer heard. -/
def unheard (s : State) (r : Nat) : State := if holds s r then s else s.setLease r { s.lease r with heard := false }

theorem unheard_off (s : State) (r : Nat) : OffTime s (unheard s r) := by
  unfold unheard
  exact .ite (.refl s) (setLease_host s r _).off

theorem holds_unheard (s : State) (k r : Nat) : holds (unheard s k) r = holds s r := by
  unfold unheard
  split <;> rfl

theorem unheard_heard (s : State) (k r : Nat) : ((unheard s k).lease r).heard = if k = r ∧ holds s k = false then false else (s.lease r).heard := by
  unfold unheard
  by_cases held : holds s k = true
  · rw [if_pos held, if_neg (by simp [held])]
  · rw [if_neg held]
    simp only [Bool.not_eq_true] at held
    by_cases same : r = k
    · rw [same, State.lease_setLease_same, if_pos ⟨rfl, held⟩]
    · rw [State.lease_setLease_ne _ _ same, if_neg fun h => same h.1.symm]

theorem unheardAll (l : List Nat) (s : State) : OffTime s (l.foldl unheard s) ∧
    ∀ r, holds s r = false → r ∈ l ∨ (s.lease r).heard = false → ((l.foldl unheard s).lease r).heard = false := by
  induction l generalizing s with
  | nil => exact ⟨.refl s, fun r _ h => h.resolve_left List.not_mem_nil⟩
  | cons k l ih =>
    obtain ⟨off, heard⟩ := ih (unheard s k)
    refine ⟨(unheard_off s k).trans off, fun r held listed => heard r ((holds_unheard s k r).trans held) ?_⟩
    rw [unheard_heard]
    by_cases same : k = r
    · exact .inr (if_pos ⟨same, same ▸ held⟩)
    · rw [if_neg fun h => same h.1]
      exact listed.imp_left fun mem => (List.mem_cons.mp mem).resolve_left fun h => same h.symm

theorem exec_mirrorTimeoutExpire (s : State) : exec .mirrorTimeoutExpire s = ordinary mirrorTimeout s := rfl

theorem mirrorTimeout_takes {s : State} (member : pairEn s = true) : OffTime s (mirrorTimeout s) ∧ (mirrorTimeout s).pair.partnerHere = false ∧
    ∀ r ∈ enabledRings s, holds s r = false → ((mirrorTimeout s).lease r).heard = false := by
  have effect : mirrorTimeout s = redRefresh (((enabledRings s).foldl unheard s).modPair fun p => { p with partnerHere := false }) := by
    unfold mirrorTimeout
    rw [if_neg (by simp [member])]
    rfl
  obtain ⟨off, heard⟩ := unheardAll (enabledRings s) s
  rw [effect]
  generalize (enabledRings s).foldl unheard s = u at off heard ⊢
  have shown := redRefresh_show (u.modPair fun p => { p with partnerHere := false })
  refine ⟨(off.trans (modPair_off u _)).trans shown.off, ?_, fun r listed held => ?_⟩
  · rw [shown.pair]
    rfl
  · rw [shown.heard]
    exact heard r held (.inl listed)

/-! SEQMARK_INTERVAL (R280). -/

theorem sendSeqmark_unmarked (s : State) (k r : Nat) : ((sendSeqmark s k).lease r).unmarked = if k = r then [] else (s.lease r).unmarked := by
  have shown := mirrorSend_show (s.setLease k { s.lease k with unmarked := [] }) true 5 0 ([k, s.rd (F.RED_RSTAT_SEQ k)] ++ (s.lease k).unmarked)
  rw [show sendSeqmark s k = mirrorSend (s.setLease k { s.lease k with unmarked := [] }) true 5 0 ([k, s.rd (F.RED_RSTAT_SEQ k)] ++ (s.lease k).unmarked) from rfl,
    shown.unmarked]
  by_cases same : r = k
  · rw [same, State.lease_setLease_same, if_pos rfl]
  · rw [State.lease_setLease_ne _ _ same, if_neg fun h => same h.symm]

theorem seqmarksSent (l : List Nat) (s : State) :
    ∀ r, r ∈ l ∨ (s.lease r).unmarked = [] → ((l.foldl sendSeqmark s).lease r).unmarked = [] := by
  induction l generalizing s with
  | nil => exact fun r h => h.resolve_left List.not_mem_nil
  | cons k l ih =>
    refine fun r listed => ih (sendSeqmark s k) r ?_
    rw [sendSeqmark_unmarked]
    by_cases same : k = r
    · exact .inr (if_pos same)
    · rw [if_neg same]
      exact listed.imp_left fun mem => (List.mem_cons.mp mem).resolve_left fun h => same h.symm

/-! The obligation, clause by clause. -/

/-- RESYNC by its register, at the source, with the mirror link standing: the resync begins and stands (R295). -/
theorem resyncWrite_begins {s : State} {p : Access} (reach : reaches s p = true) (up : mirrorUp s = true) (wasUp : s.pair.wasUp = true)
    (waits : NoHeadWaits s) (source : isSyncSource s = true) :
    OffTime s (fieldWrite s p F.RED_CTL_RESYNC 1) ∧ (fieldWrite s p F.RED_CTL_RESYNC 1).pair.syncSource = some 1 := by
  have sender : s.strap.role = .sender := by
    have member := mirrorUp_pairEn up
    simp only [pairEn, State.isSender, Bool.and_eq_true, beq_iff_eq] at member
    exact member.1
  have on : addrOn s.strap.role R.RED_CTL = true := by rw [sender]; decide
  have same := (sameWord_show s R.RED_CTL).ctl
  obtain ⟨u, keeps, begins⟩ := redWrote_resync (s.reg R.RED_CTL) (redCtl_resync (s.reg R.RED_CTL)) (same.up.trans up) (same.source.trans source)
  have all := same.trans keeps
  obtain ⟨⟨b, shown, f, rfl, stood⟩, began, -⟩ := startResync_source (all.up.trans up) (all.source.trans source)
  have idle : NoHeadWaits (startResync u) := (all.host.trans ((pair_host u _).trans shown.host)).idle waits
  have effect : fieldWrite s p F.RED_CTL_RESYNC 1 = linkCheck (cplTell (startResync u)) := by
    rw [fieldWrite, regWrite_redCtl _ reach on, putWord_redCtl, ← retryHeads_idle idle, ← begins]
  have told := shown.trans (cplTell_show (startResync u))
  have steady : mirrorUp (cplTell (startResync u)) = (cplTell (startResync u)).pair.wasUp := by
    have stands : (cplTell (startResync u)).pair.wasUp = true := by
      rw [told.pair]
      exact (stood.trans all.wasUp).trans wasUp
    rw [stands, told.mirrorUp]
    exact all.up.trans up
  have after := (cplTell_show (startResync u)).trans ((redRefresh_show _).trans (alignShow_show _))
  rw [effect, linkCheck_steady steady]
  refine ⟨(all.host.off.trans (startResync_off u)).trans after.off, ?_⟩
  rw [after.pair]
  exact began

/-- Settles O52: a decision, its answer, a claim, a grant, an item of a resync, a channel sent again, a resync as the port reaches UP and by its register, the
partner unheard, and the SEQMARKs due. -/
theorem decisionsClaimsAndResyncsCross : Obligations.DecisionsClaimsAndResyncsCross := by
  refine ⟨?_, ?_, ?_, ?_, ?_, ?_, ?_, ?_, ?_, ?_⟩
  · intro h x fired f s order
    obtain ⟨t, run, acked, fires, readies, frees⟩ := mirrorXadec_takes order x fired f
    refine ⟨t, run, acked, fires, readies, fun no => ?_⟩
    rw [frees no]
    exact ⟨rfl, rfl, rfl⟩
  · intro h q res e s order waits owed voting
    exact mirrorAckk_decides order waits owed voting
  · intro h m f s order
    exact mirrorClaim_takes order m f
  · intro h m f s order
    obtain ⟨u, t, -, run, rep⟩ := mirrorRow_runs order (f := fun s => grantAccept s m.toNat f.toNat) fun u _ => (grantAccept_takes u _ _).1
    refine ⟨t, (exec_mirrorGrant h m f s).trans run, ?_⟩
    beta_reduce
    rw [rep.pair]
    exact (grantAccept_takes u m.toNat f.toNat).2
  · intro h i s order target
    exact mirrorSync_takes order i target
  · intro u s
    refine ⟨fun up => mirrorResend_sends up, fun down => ?_⟩
    exact ordinary_idle (fun s => if mirrorUp s then (s.chan (!u)).unacked.foldl (resendOne (!u)) s else s) s (if_neg (by simp [down]))
  · intro s
    refine ⟨fun up source => ?_, fun up target => ?_, fun down => ?_⟩
    · obtain ⟨t, run, rep⟩ := resync_begins up
      refine ⟨t, run, ?_⟩
      beta_reduce
      rw [rep.pair]
      exact (startResync_source up source).2
    · obtain ⟨t, run, rep⟩ := resync_begins up
      have target_ : startResync s = becomeTarget s := by
        rw [startResync, up, target]
        rfl
      obtain ⟨-, ⟨source, fence, -⟩, synced⟩ := becomeTarget_takes s
      rw [target_] at rep
      refine ⟨t, run, ?_⟩
      beta_reduce
      rw [rep.pair, rep.on]
      exact ⟨source, fence, synced⟩
    · exact ordinary_idle (fun s => if pairEn s then startResync s else s) s (by rw [startResync_down down, ite_self])
  · intro path s reach up wasUp waits source
    obtain ⟨off, began⟩ := resyncWrite_begins reach up wasUp waits source
    obtain ⟨t, run, rep, -⟩ := OffTime.runs (f := fun s => fieldWrite s path F.RED_CTL_RESYNC 1) off
    exact ⟨t, (exec_resync (some path) s).trans run, (congrArg Pair.syncSource rep.pair).trans began⟩
  · intro s
    refine ⟨fun member => ?_, fun alone => ?_⟩
    · obtain ⟨off, gone, unheard⟩ := mirrorTimeout_takes member
      obtain ⟨t, run, rep, -⟩ := OffTime.runs (f := mirrorTimeout) off
      have lease (r : Nat) : t.lease r = (mirrorTimeout s).lease r := by rw [State.lease, rep.pair, State.lease]
      refine ⟨t, (exec_mirrorTimeoutExpire s).trans run, (congrArg Pair.partnerHere rep.pair).trans gone, fun r listed held => ?_⟩
      rw [lease]
      exact unheard r listed held
    · exact ordinary_idle mirrorTimeout s (if_pos (by simp [alone]))
  · intro s
    refine ⟨fun up => ?_, fun down => ?_⟩
    · have effect : (if pairEn s && mirrorUp s then ((enabledRings s).filter (holds s)).foldl sendSeqmark s else s) =
          ((enabledRings s).filter (holds s)).foldl sendSeqmark s := if_pos (by rw [mirrorUp_pairEn up, up]; rfl)
      have sent := HostStays.foldl sendSeqmark_host ((enabledRings s).filter (holds s)) s
      have marked := seqmarksSent ((enabledRings s).filter (holds s)) s
      obtain ⟨t, run, rep, -⟩ := OffTime.runs
        (f := fun s => if pairEn s && mirrorUp s then ((enabledRings s).filter (holds s)).foldl sendSeqmark s else s) (s := s) (by rw [effect]; exact sent.off)
      rw [effect] at rep
      refine ⟨t, run, fun r listed held => ?_⟩
      rw [State.lease, rep.pair, ← State.lease]
      exact marked r (.inl (List.mem_filter.mpr ⟨listed, held⟩))
    · exact ordinary_idle (fun s => if pairEn s && mirrorUp s then ((enabledRings s).filter (holds s)).foldl sendSeqmark s else s) s (if_neg (by simp [down]))

end Sys2Proof.Machine
end

section
/-! PROOF. A descriptor in hand (O56; R306, R310): its row runs it, and what it leaves is read once nothing waits; what the plan of a transaction reads (R120). -/
namespace Sys2Proof.Machine

/-- A job whose descriptor runs. -/
def Job.taken (j : Job) : Job := { j with ran := true }

/-- The state as the row of a descriptor in hand runs it. -/
def inRow (s : State) (j : Job) : State := s.setJob j.taken

theorem inRow_link (s : State) (j : Job) : LinkKeeps s (inRow s j) := setJob_keeps s _

theorem inRow_off (s : State) (j : Job) : OffTime s (inRow s j) := .of_link (inRow_link s j)

section
variable {s : State} {n ty : Nat} {j : Job} (h : InHand s n ty j)
include h

theorem runDesc_inHand (f : State → Job → State) : runDesc s n ty f = retryHeads (f (inRow s j) j.taken) := by
  obtain ⟨next, -, type, turn, link, -⟩ := h
  rw [runDesc, next]
  dsimp only
  rw [if_neg (by simp [type, turn]), link]
  rfl

theorem inRow_idle : NoHeadWaits (inRow s j) := h.heads

/-- The row of a descriptor in hand that leaves no head to wait: what the descriptor does, but for what is told of records. -/
theorem inHand_runs {f : State → Job → State} {u : State} (effect : f (inRow s j) j.taken = u) (off : OffTime (inRow s j) u) (idle : NoHeadWaits u) :
    ∃ t, ordinary (fun s => runDesc s n ty f) s = .next t ∧ Reports (cplTell u) t ∧ (cplTell u).out <+: t.out := by
  have row : runDesc s n ty f = cplTell u := by rw [runDesc_inHand h, effect, retryHeads_idle idle]
  obtain ⟨t, run, rep, out⟩ := OffTime.runs (f := fun s => runDesc s n ty f) (s := s)
    (by rw [row]; exact ((inRow_off s j).trans off).trans (cplTell_phase u).off)
  rw [row] at rep out
  exact ⟨t, run, rep, out⟩

end

/-- A job that ends as its descriptor runs. -/
theorem inHand_completes {s u t : State} {n : Nat} {j : Job} {r : CplRec} (ends : Completes (inRow s j) u n j.taken r) (rep : Reports (cplTell u) t)
    (out : (cplTell u).out <+: t.out) : Completes s t n j r := by
  have base : RecordBase s (inRow s j) n := .of_reg fun _ _ _ => rfl
  have told := completes_reports (completes_told (completes_since ends base)) rep out
  exact told

/-- A job that ends after a step that leaves its completion ring. -/
theorem finishWith_ends {s u : State} {j : Job} {n : Nat} (host : HostStays s u) (r : CplRec) (ring : j.ring = n) (small : n < 16) :
    Completes s (finishWith u j r) n j r :=
  completes_since (finishWith_completes u r ring small) (.of_reg fun a block _ => host.reg a block)

/-- The row of a descriptor in hand that ends its job, with the state that it leaves. -/
theorem inHand_ends {s v : State} {n ty : Nat} {j : Job} {r : CplRec} {f : State → Job → State} (h : InHand s n ty j)
    (effect : f (inRow s j) j.taken = v) (off : OffTime (inRow s j) v) (idle : NoHeadWaits v) (ends : Completes (inRow s j) v n j.taken r) :
    ∃ t, ordinary (fun s => runDesc s n ty f) s = .next t ∧ Reports (cplTell v) t ∧ Completes s t n j r := by
  obtain ⟨t, run, rep, out⟩ := inHand_runs h effect off idle
  exact ⟨t, run, rep, inHand_completes ends rep out⟩

/-- The row of a descriptor in hand that ends its job at once, after a step of the pair. -/
theorem inHand_finishes {s u : State} {n ty : Nat} {j : Job} {r : CplRec} {f : State → Job → State} (h : InHand s n ty j) (small : n < 16)
    (effect : f (inRow s j) j.taken = finishWith u j.taken r) (host : HostStays (inRow s j) u) :
    ∃ t, ordinary (fun s => runDesc s n ty f) s = .next t ∧ Reports (cplTell (finishWith u j.taken r)) t ∧ Completes s t n j r := by
  have ends := finishWith_phase u j.taken r
  exact inHand_ends h effect (host.off.trans ends.off) (noHeadWaits_phase (host.idle (inRow_idle h)) ends) (finishWith_ends host r h.ring small)

theorem tellXa_host (s : State) (j : Job) (t : Nat) (d : List Byte) : HostStays s (tellXa s j t d) := by
  unfold tellXa
  exact .ite (mirrorSend_host s false 2 0 _) (.refl s)

/-! What the plan of a transaction reads (R120, R126). -/

section
variable {s t : State} (h : LinkKeeps s t)
include h

theorem LinkKeeps.rd {f : FRef} (off : ¬ linkBlock f.addr) : t.rd f = s.rd f := by rw [State.rd, h.reg _ off, State.rd]

theorem LinkKeeps.portRd {f : FRef} (block : f.addr / 65536 = 6) : t.rd f = s.rd f := h.rd (by simp only [linkBlock, R.WT_PAIR]; omega)

theorem LinkKeeps.xaRd {f : FRef} (block : f.addr / 65536 = 8) : t.rd f = s.rd f := h.rd (by simp only [linkBlock, R.WT_PAIR]; omega)

theorem LinkKeeps.wtRd {f : FRef} (block : f.addr / 65536 = 7) (pair : f.addr ≠ R.WT_PAIR) : t.rd f = s.rd f := h.rd (linkBlock_wt block pair)

theorem LinkKeeps.isCoach : t.isCoach = s.isCoach := by
  simp only [State.isCoach, State.isSender, State.portIs, State.on, h.strap, h.portRd (f := F.CL_PCFG_EN _) (by simp), h.portRd (f := F.CL_PCFG_KIND _) (by simp)]

theorem LinkKeeps.ringTier : ringTier t = ringTier s := by rw [Machine.ringTier, h.isCoach, h.portRd (f := F.CL_MYROUTE_ROUTE) (by decide), Machine.ringTier]

theorem LinkKeeps.ringOfRoute : ringOfRoute t = ringOfRoute s := by
  funext route rhb
  rw [Machine.ringOfRoute, h.ringTier, h.isCoach, Machine.ringOfRoute]

theorem LinkKeeps.posOfRoute : posOfRoute t = posOfRoute s := by
  funext route
  rw [Machine.posOfRoute, h.ringTier, Machine.posOfRoute]

theorem LinkKeeps.destRing : destRing t = destRing s := by
  funext d
  rw [Machine.destRing, h.ringOfRoute, Machine.destRing]

theorem LinkKeeps.routeOk : routeOk t = routeOk s := by
  have drives (r : Nat) : drivesRing t r = drivesRing s r := by
    simp only [drivesRing, State.portIs, State.on, h.portRd (f := F.CL_PCFG_EN _) (by simp), h.portRd (f := F.CL_PCFG_KIND _) (by simp),
      h.portRd (f := F.CL_PCFG_RING _) (by simp)]
  funext route rhb
  rw [Machine.routeOk, h.posOfRoute, h.ringOfRoute, drives, Machine.routeOk]

theorem LinkKeeps.gen : t.gen = s.gen := by
  funext n
  rw [State.gen, h.wt, State.gen]

theorem LinkKeeps.genRuns : genRuns t = genRuns s := by
  funext n
  rw [Machine.genRuns, h.gen, State.on, h.wtRd (f := F.WT_RCFG_EN _) (by simp) (by simp only [R.WT_RCFG, R.WT_PAIR]; omega), Machine.genRuns, State.on]

theorem LinkKeeps.dleadOf : dleadOf t = dleadOf s := by
  funext r
  rw [Machine.dleadOf, h.wtRd (f := F.WT_RCFG_LEAD _) (by simp) (by simp only [R.WT_RCFG, R.WT_PAIR]; omega), h.xaRd (f := F.XA_CTL_VOTE_GUARD) (by decide),
    Machine.dleadOf]

theorem LinkKeeps.wallNs : wallNs t = wallNs s := by
  have src : t.rd F.WT_CTL_SRC = s.rd F.WT_CTL_SRC := h.wtRd (by decide) (by decide)
  have rate : t.rd F.WT_FMARK_RATE = s.rd F.WT_FMARK_RATE := h.wtRd (by decide) (by decide)
  have fol : folTimeNs t = folTimeNs s := by
    unfold folTimeNs flyPs
    rw [h.wt, h.now, rate]
  rw [Machine.wallNs, src, h.wt, fol, State.isStandalone, State.isSender, h.strap, Machine.wallNs, State.isStandalone, State.isSender]

theorem LinkKeeps.touched : touched t = touched s := by
  funext l
  rw [Machine.touched, h.destRing, Machine.touched]

theorem LinkKeeps.targetsOf : targetsOf t = targetsOf s := by
  have at_ : frameAt t = frameAt s := by
    funext r flip
    rw [frameAt, h.genRuns, h.gen, frameAt]
  funext rings ref f
  rw [Machine.targetsOf, h.gen, at_, Machine.targetsOf]

theorem LinkKeeps.overfull : overfull t = overfull s := by
  have entries : entriesFor t = entriesFor s := by
    funext l r p
    simp only [entriesFor, destCovers, h.destRing, h.posOfRoute]
  funext l rings
  rw [Machine.overfull, entries, Machine.overfull]

theorem LinkKeeps.commitCause : commitCause t = commitCause s := by
  have lock (r : Nat) : t.on (F.CL_RTAB_FLAGS_LOCK r) = s.on (F.CL_RTAB_FLAGS_LOCK r) := by
    rw [State.on, h.portRd (f := F.CL_RTAB_FLAGS_LOCK _) (by simp), State.on]
  funext l rings tg deadline
  simp only [Machine.commitCause, h.routeOk, h.posOfRoute, lock, h.destRing, h.overfull, h.wallNs]

/-- What a plan finds wrong depends on the destinations and on what the pair and the mirror link leave (R120). -/
theorem LinkKeeps.planXid {x : Nat} (dests : (t.xid x).dests = (s.xid x).dests) (f : Nat) : (planXid t x f).2 = (planXid s x f).2 := by
  simp only [Machine.planXid, dests, h.touched, h.routeOk, h.genRuns, h.targetsOf, h.dleadOf, h.gen, h.commitCause]

theorem LinkKeeps.commitFrame {x : Nat} (dests : (t.xid x).dests = (s.xid x).dests) (target : Option Nat) (k : Nat) :
    commitFrame t x target k = commitFrame s x target k := by
  have auto : autoFrames t = autoFrames s := by rw [autoFrames, h.xaRd (f := F.XA_AUTO_AUTO_FRAMES) (by decide), autoFrames]
  cases target with
  | some f => rfl
  | none => simp only [Machine.commitFrame, dests, h.touched, h.gen, auto]

end

/-! The descriptors of a transaction (R119, R120, R317). -/

/-- What is told of records and raised leaves every XID. -/
theorem told_xid {v t : State} (rep : Reports (cplTell v) t) (x : Nat) : t.xid x = v.xid x :=
  (State.xid_congr rep.xa x).trans (State.xid_congr (cplTell_xa v) x)

theorem exec_xaBegin (n : Fin 16) (s : State) : exec (.xaBegin n) s = ordinary (fun s => runDesc s n.val 8 beginDone) s := rfl

theorem exec_xaAdd (n : Fin 16) (s : State) : exec (.xaAdd n) s = ordinary (fun s => runDesc s n.val 9 runXaAdd) s := rfl

theorem exec_xaCommit (n : Fin 16) (s : State) : exec (.xaCommit n) s = ordinary (fun s => runDesc s n.val 10 runXaCommit) s := rfl

/-- XA_BEGIN ends and leaves its XID as its consumption put it (R119, R317). -/
theorem xaBegin_ends (n : Fin 16) {j : Job} {s : State} (h : InHand s n.val 8 j) (x : Nat) :
    Runs (.xaBegin n) s fun t => t.xid x = s.xid x ∧ Completes s t n.val j (j.record 0) := by
  have host := tellXa_host (inRow s j) j.taken 0 []
  obtain ⟨t, run, rep, ends⟩ := inHand_finishes (f := beginDone) (r := j.record 0) h n.isLt rfl host
  refine ⟨t, (exec_xaBegin n s).trans run, ?_, ends⟩
  rw [told_xid rep, State.xid_congr (finishWith_xa _ _ _), host.xid]
  rfl

/-- XA_ADD outside BUILDING ends 1 (R317). -/
theorem xaAdd_refused (n : Fin 16) {j : Job} {s : State} (h : InHand s n.val 9 j) (st : (s.xid (leAt j.bytes 16 1)).st ≠ .building) :
    Runs (.xaAdd n) s fun t => Completes s t n.val j (j.record 1) := by
  have effect : runXaAdd (inRow s j) j.taken = finishWith (inRow s j) j.taken (j.record 1) := if_pos (bne_iff_ne.2 st)
  obtain ⟨t, run, -, ends⟩ := inHand_finishes h n.isLt effect (.refl _)
  exact ⟨t, (exec_xaAdd n s).trans run, ends⟩

/-- What an XA_ADD notes of its destination. -/
def destAdded (s : State) (j : Job) : State :=
  s.modXid (leAt j.bytes 16 1) fun v => { v with dests := joinDest v.dests (xaAddDest j.bytes j.route j.rhb) }

/-- XA_ADD in BUILDING notes its destination and ends (R120, R317). -/
theorem xaAdd_notes (n : Fin 16) {j : Job} {s : State} (h : InHand s n.val 9 j) (st : (s.xid (leAt j.bytes 16 1)).st = .building) :
    Runs (.xaAdd n) s fun t => Completes s t n.val j (j.record 0) ∧
      t.xid (leAt j.bytes 16 1) = { s.xid (leAt j.bytes 16 1) with
        dests := joinDest (s.xid (leAt j.bytes 16 1)).dests (xaAddDest j.bytes j.route j.rhb) } := by
  have effect : runXaAdd (inRow s j) j.taken = finishWith (tellXa (destAdded (inRow s j) j) j.taken 0 []) j.taken (j.record 0) :=
    if_neg (by rw [bne_iff_ne, not_not]; exact st)
  have noted : PhaseKeeps (inRow s j) (destAdded (inRow s j) j) := modXid_phase _ _ _
  have host := tellXa_host (destAdded (inRow s j) j) j.taken 0 []
  have last := finishWith_phase (tellXa (destAdded (inRow s j) j) j.taken 0 []) j.taken (j.record 0)
  have ends := completes_since (finishWith_ends (j := j.taken) host (j.record 0) h.ring n.isLt) (.of_reg (s := inRow s j) fun _ _ _ => rfl)
  obtain ⟨t, run, rep, done⟩ := inHand_ends h effect ((noted.off.trans host.off).trans last.off)
    (noHeadWaits_phase (host.idle (noHeadWaits_phase (inRow_idle h) noted)) last) ends
  refine ⟨t, (exec_xaAdd n s).trans run, done, ?_⟩
  rw [told_xid rep, State.xid_congr (finishWith_xa _ _ _), host.xid, destAdded, State.modXid, State.xid_setXid]
  rfl

theorem planXid_phase (s : State) (x f : Nat) : PhaseKeeps s (planXid s x f).1 := setXid_phase s x _

/-- A transaction that starts, or is aborted by what its plan finds, is one of the phases (R120). -/
theorem startXid_phase (s : State) (x f : Nat) : PhaseKeeps s (startXid s x f) := by
  have planned := planXid_phase s x f
  unfold startXid
  rcases plan : planXid s x f with ⟨s1, _ | c⟩
  all_goals rw [plan] at planned
  · exact planned.trans (modXid_phase ..)
  · exact planned.trans (abortXid_phase ..)

/-- What a plan notes of its XID: the target asked for, and what it had of its completion (R120). -/
theorem planXid_xid (s : State) (x f : Nat) : ((planXid s x f).1.xid x).target = f ∧ ((planXid s x f).1.xid x).completion = (s.xid x).completion := by
  simp only [planXid, State.xid_setXid, and_self]

/-- A plan without a fault starts the transaction, another aborts it (R120). -/
theorem startXid_xid (s : State) (x f : Nat) :
    if (planXid s x f).2 = none
    then ((startXid s x f).xid x).st = .preparing ∧ ((startXid s x f).xid x).target = f ∧ ((startXid s x f).xid x).completion = (s.xid x).completion
    else ((startXid s x f).xid x).st = .aborted ∨ ((startXid s x f).xid x).st = .free := by
  obtain ⟨target, completion⟩ := planXid_xid s x f
  unfold startXid
  rcases plan : planXid s x f with ⟨s1, _ | c⟩
  all_goals rw [plan] at target completion
  · simp only [if_true, State.modXid, State.xid_setXid]
    exact ⟨trivial, target, completion⟩
  · exact abortXid_st s1 x c _ _ 0

/-- The XID that a descriptor of a transaction names (R317). -/
abbrev Job.xid (j : Job) : Nat := leAt j.bytes 16 1

/-- The target that an XA_COMMIT asks for, none for an automatic one (R317). -/
abbrev Job.asks (j : Job) : Option Nat := if bitAt (leAt j.bytes 17 1) 0 then some (leAt j.bytes 24 6) else none

section
variable {s : State} {n : Fin 16} {j : Job}

/-- XA_COMMIT acts once the partner is told of it (R279, R317). -/
theorem xaCommit_tells (s : State) (j : Job) : ∃ u, HostStays (inRow s j) u ∧ runXaCommit (inRow s j) j.taken = xaCommit u j.xid j.asks (leAt j.bytes 18 1) j.taken ∧
    u.xid j.xid = s.xid j.xid :=
  ⟨_, tellXa_host .., rfl, (tellXa_host ..).xid _⟩

variable (h : InHand s n.val 10 j)
include h

/-- XA_COMMIT of an XID neither BUILDING nor aborted before it came (R317). -/
theorem xaCommit_stranger (building : (s.xid j.xid).st ≠ .building) (late : (s.xid j.xid).st ≠ .aborted ∨ (s.xid j.xid).early = false) :
    Runs (.xaCommit n) s fun t => Completes s t n.val j (j.record 0x10) := by
  obtain ⟨u, host, row, same⟩ := xaCommit_tells s j
  have effect : runXaCommit (inRow s j) j.taken = finishWith u j.taken (j.record 0x10) := by
    rw [row, xaCommit, same, if_neg (by rcases late with a | e <;> simp [*]), if_pos (bne_iff_ne.2 building)]
    rfl
  obtain ⟨t, run, -, ends⟩ := inHand_finishes h n.isLt effect host
  exact ⟨t, (exec_xaCommit n s).trans run, ends⟩

/-- An XA_COMMIT that ends its job and frees its XID (R119). -/
theorem xaCommit_frees {u : State} {r : CplRec} (host : HostStays (inRow s j) u)
    (effect : runXaCommit (inRow s j) j.taken = freeXid (finishWith u j.taken r) j.xid) :
    Runs (.xaCommit n) s fun t => (t.xid j.xid).st = .free ∧ Completes s t n.val j r := by
  have last := (finishWith_phase u j.taken r).trans (freeXid_phase _ j.xid)
  obtain ⟨t, run, rep, ends⟩ := inHand_ends h effect (host.off.trans last.off) (noHeadWaits_phase (host.idle (inRow_idle h)) last)
    (completes_stays (finishWith_ends host r h.ring n.isLt) (fun _ => id) rfl List.prefix_rfl)
  refine ⟨t, (exec_xaCommit n s).trans run, ?_, ends⟩
  rw [told_xid rep, freeXid_xid]
  rfl

/-- XA_COMMIT of an XID aborted before it came ends with that reason (R317). -/
theorem xaCommit_aborted (aborted : (s.xid j.xid).st = .aborted) (early : (s.xid j.xid).early = true) :
    Runs (.xaCommit n) s fun t => (t.xid j.xid).st = .free ∧ Completes s t n.val j { j.record reasonHost with
      frame := (s.xid j.xid).target, route := (s.xid j.xid).offender, rhb := (s.xid j.xid).offRhb } := by
  obtain ⟨u, host, row, same⟩ := xaCommit_tells s j
  refine xaCommit_frees h host ?_
  rw [row, xaCommit, same, if_pos (by simp [aborted, early])]
  rfl

/-- XA_COMMIT of a transaction without destinations (R317). -/
theorem xaCommit_empty (building : (s.xid j.xid).st = .building) (empty : (s.xid j.xid).dests = []) :
    Runs (.xaCommit n) s fun t => (t.xid j.xid).st = .free ∧ Completes s t n.val j (j.record 0) := by
  obtain ⟨u, host, row, same⟩ := xaCommit_tells s j
  refine xaCommit_frees h host ?_
  rw [row, xaCommit, same, if_neg (by simp [building]), if_neg (by simp [building]), if_pos (by simp [empty])]
  rfl

/-- XA_COMMIT of a transaction with destinations starts it, or aborts it by what its plan finds (R120, R317). -/
theorem xaCommit_starts {f : Nat} (building : (s.xid j.xid).st = .building) (dests : (s.xid j.xid).dests ≠ [])
    (target : f = commitFrame s j.xid j.asks (leAt j.bytes 18 1)) :
    Runs (.xaCommit n) s fun t =>
      if (planXid s j.xid f).2 = none
      then (t.xid j.xid).st = .preparing ∧ (t.xid j.xid).target = f ∧ (t.xid j.xid).completion = some j.id
      else (t.xid j.xid).st = .aborted ∨ (t.xid j.xid).st = .free := by
  obtain ⟨u, host, row, same⟩ := xaCommit_tells s j
  let v := u.setXid j.xid { u.xid j.xid with completion := some j.id }
  have link : LinkKeeps s u := (inRow_link s j).trans host.link
  have frame : commitFrame u j.xid j.asks (leAt j.bytes 18 1) = f := (link.commitFrame (congrArg Xid.dests same) _ _).trans target.symm
  have effect : runXaCommit (inRow s j) j.taken = startXid v j.xid f := by
    rw [row, xaCommit, frame]
    simp only [same]
    rw [if_neg (by simp [building]), if_neg (by simp [building]), if_neg (by simpa using dests)]
    simp only [v, same]
    rfl
  have last := (setXid_phase u j.xid { u.xid j.xid with completion := some j.id }).trans (startXid_phase v j.xid f)
  obtain ⟨t, run, rep, -⟩ := inHand_runs h effect (host.off.trans last.off) (noHeadWaits_phase (host.idle (inRow_idle h)) last)
  have plan : (planXid v j.xid f).2 = (planXid s j.xid f).2 := LinkKeeps.planXid (link.trans (setXid_keeps u j.xid _)) (by rw [State.xid_setXid, same]) f
  have started := startXid_xid v j.xid f
  rw [plan, State.xid_setXid] at started
  refine ⟨t, (exec_xaCommit n s).trans run, ?_⟩
  beta_reduce
  rw [told_xid rep]
  exact started

end

end Sys2Proof.Machine
end

section
/-! PROOF. Maps and flips (O56; R170, R178, R321): what is noted of them, and what lets no head go on. -/
namespace Sys2Proof.Machine

/-- What a step leaves that gives no waiting head its condition: the marks of the heads and the rate changes that wait. -/
structure IdleKeeps (s t : State) : Prop where
  off : OffTime s t
  marks : ∀ n, t.reg (R.HIF_CR_STAT n) = s.reg (R.HIF_CR_STAT n)
  wait : t.xa.autoWait = s.xa.autoWait

theorem IdleKeeps.refl (s : State) : IdleKeeps s s := ⟨.refl s, fun _ => rfl, rfl⟩

theorem IdleKeeps.trans {s t u : State} (h : IdleKeeps s t) (g : IdleKeeps t u) : IdleKeeps s u :=
  ⟨h.off.trans g.off, fun n => (g.marks n).trans (h.marks n), g.wait.trans h.wait⟩

theorem IdleKeeps.ite {c : Prop} [Decidable c] {s t u : State} (ht : IdleKeeps s t) (hu : IdleKeeps s u) : IdleKeeps s (if c then t else u) := by
  split
  · exact ht
  · exact hu

theorem IdleKeeps.foldl {β : Type} {f : State → β → State} (hf : ∀ s x, IdleKeeps s (f s x)) (l : List β) (s : State) : IdleKeeps s (l.foldl f s) := by
  induction l generalizing s with
  | nil => exact .refl s
  | cons x l ih => exact (hf s x).trans (ih _)

theorem IdleKeeps.idle {s t : State} (h : IdleKeeps s t) (waits : NoHeadWaits s) : NoHeadWaits t := noHeadWaits_congr waits h.marks h.wait

theorem PhaseKeeps.idleKeeps {s t : State} (h : PhaseKeeps s t) : IdleKeeps s t :=
  ⟨h.off, fun n => h.reg fun m => by simp only [R.HIF_CR_STAT, R.HIF_CP_PROD]; omega, h.autoWait⟩

theorem HostStays.idleKeeps {s t : State} (h : HostStays s t) : IdleKeeps s t := ⟨h.off, fun n => h.reg _ (by simp), congrArg _ h.xa⟩

theorem IdleKeeps.wr (s : State) (f : FRef) (v : Nat) (block : f.addr / 65536 ≠ 3 ∧ f.addr / 65536 ≠ 6) : IdleKeeps s (s.wr f v) where
  off := ⟨rfl, rfl, rfl, rfl, s.reg_wr_ne f v (by intro h; simp [← h, R.CL_MYPOS] at block)⟩
  marks n := s.reg_wr_ne f v (by intro h; simp [← h, R.HIF_CR_STAT] at block)
  wait := rfl

theorem modCmp_idle (s : State) (f : Cmp → Cmp) : IdleKeeps s (s.modCmp f) := ⟨⟨rfl, rfl, rfl, rfl, rfl⟩, fun _ => rfl, rfl⟩

theorem showFlipPend_idle (s : State) (r l : Nat) : IdleKeeps s (showFlipPend s r l) := .wr s _ _ (by simp)

theorem showMapPend_idle (s : State) (r : Nat) : IdleKeeps s (showMapPend s r) := .wr s _ _ (by simp)

theorem postFlip_phase (s : State) (f : Flip) (n : Nat) : PhaseKeeps s (postFlip s f n) := by
  unfold postFlip
  split
  · exact .refl s
  · exact finishWith_phase ..

theorem supersede_idle (s : State) (rings l : Nat) : IdleKeeps s (supersede s rings l) :=
  (modCmp_idle s _).trans (.foldl (fun s f => (postFlip_phase s f 1).idleKeeps) _ _)

theorem flipsSweep_idle (s : State) : IdleKeeps s (flipsSweep s) :=
  (modCmp_idle s _).trans (.foldl (fun s f => (postFlip_phase s f 0).idleKeeps) _ _)

/-- The sweep drops no flip that still waits for a ring (R170). -/
theorem flipsSweep_holds {s : State} {f : Flip} (mem : f ∈ s.cmp.flips) (rings : f.rings ≠ []) : f ∈ (flipsSweep s).cmp.flips := by
  have posts (l : List Flip) (u : State) : PhaseKeeps u (l.foldl (fun s f => postFlip s f 0) u) := by
    induction l generalizing u with
    | nil => exact .refl u
    | cons g l ih => exact (postFlip_phase u g 0).trans (ih _)
  rw [flipsSweep, (posts _ _).cmp]
  refine List.mem_filter.2 ⟨mem, ?_⟩
  simp [rings]

/-! MAP_LOAD (R178). -/

/-- The map that a MAP_LOAD asks for, with the frame that it is pending for. -/
def Job.mapAsked (j : Job) (table : List Byte) (acked : Bool) (frame : Nat) : MapLoad :=
  ⟨leAt j.bytes 16 1, frame, leAt j.bytes 32 6 != 0 && decide (leAt j.bytes 32 6 < frame), some j.id, acked, slice table 0 992⟩

/-- A map becomes pending. -/
def mapNoted (s : State) (m : MapLoad) : State := showMapPend (s.modCmp fun c => { c with loads := c.loads ++ [m] }) m.ring

theorem slice_slice (l : List Byte) (o k : Nat) : slice (slice l o k) 0 k = slice l o k := by
  simp [slice]

theorem exec_mapLoad (n : Fin 16) (d : Option (List Byte)) (s : State) :
    exec (.mapLoad n d) s = ordinary (fun s => runDesc s n.val 7 fun s j => runMap s j d) s := rfl

section
variable {s : State} {n : Fin 16} {j : Job} {d : List Byte} (h : InHand s n.val 7 j)
include h

/-- MAP_LOAD that fails a check ends with the check's code. -/
theorem mapLoad_refused (bad : mapCheck s (leAt j.bytes 16 1) (slice d 0 992) ≠ 0) :
    Runs (.mapLoad n (some d)) s fun t => Completes s t n.val j (j.record (mapCheck s (leAt j.bytes 16 1) (slice d 0 992))) := by
  have effect : runMap (inRow s j) j.taken (some d) =
      finishWith (inRow s j) j.taken (j.record (mapCheck s (leAt j.bytes 16 1) (slice d 0 992))) := if_pos bad
  obtain ⟨t, run, -, ends⟩ := inHand_finishes (f := fun s j => runMap s j (some d)) h n.isLt effect (.refl _)
  exact ⟨t, (exec_mapLoad n _ s).trans run, ends⟩

/-- MAP_LOAD that passes its checks is pending for its frame. -/
theorem mapLoad_pends (good : mapCheck s (leAt j.bytes 16 1) (slice d 0 992) = 0) :
    Runs (.mapLoad n (some d)) s fun t => ∃ m, t.cmp.loads = s.cmp.loads ++ [m] ∧ m.ring = leAt j.bytes 16 1 ∧ m.job = some j.id ∧
      m.table = slice d 0 992 ∧ m.frame = max (leAt j.bytes 32 6) (firstWindow s (leAt j.bytes 16 1) (if tellsPartner s then 100 else 50)) := by
  obtain ⟨u, acked, effect, host⟩ : ∃ u acked, runMap (inRow s j) j.taken (some d) = u ∧ HostStays (mapNoted (inRow s j)
      (j.mapAsked (slice d 0 992) acked (max (leAt j.bytes 32 6) (firstWindow s (leAt j.bytes 16 1) (if tellsPartner s then 100 else 50))))) u := by
    by_cases tells : tellsPartner s = true
    · rw [if_pos tells]
      exact ⟨_, false, (if_neg (not_not.2 good)).trans (if_pos tells), mirrorAsk_host ..⟩
    · rw [if_neg tells]
      exact ⟨_, true, (if_neg (not_not.2 good)).trans (if_neg tells), .refl _⟩
  have idle : IdleKeeps (inRow s j) u := ((modCmp_idle _ _).trans (showMapPend_idle _ _)).trans host.idleKeeps
  obtain ⟨t, run, rep, -⟩ := inHand_runs (f := fun s j => runMap s j (some d)) h effect idle.off (idle.idle (inRow_idle h))
  refine ⟨t, (exec_mapLoad n _ s).trans run, j.mapAsked _ acked _, ?_, rfl, rfl, slice_slice d 0 992, rfl⟩
  rw [rep.cmp, (cplTell_phase u).cmp, host.cmp]
  rfl

end

/-! LAYER_FLIP (R170, R321). -/

theorem leAt_lt (l : List Byte) (o k : Nat) : leAt l o k < 256 ^ k := (leNat_lt _).trans_eq (by rw [length_slice])

/-- The rings of a mask below 256 that is not empty. -/
theorem ringsOf_ne_nil {m : Nat} (small : m < 256) (any : m ≠ 0) : (List.range 8).filter m.testBit ≠ [] := by
  obtain ⟨i, bit⟩ := Nat.exists_testBit_of_ne_zero any
  have low : i < 8 := by
    by_contra high
    rw [Nat.testBit_lt_two_pow (lt_of_lt_of_le small (Nat.pow_le_pow_right (by decide) (not_lt.1 high) : 2 ^ 8 ≤ 2 ^ i))] at bit
    exact absurd bit (by decide)
  exact List.ne_nil_of_mem (List.mem_filter.2 ⟨List.mem_range.2 low, bit⟩)

/-- A flip that starts is noted for its frame (R170). -/
theorem flipStart_pends (s : State) (job : Option Nat) (acked : Bool) (rings l buf target : Nat) (q : Option Seal) (at_ : Option Nat)
    (any : (List.range 8).filter rings.testBit ≠ []) :
    IdleKeeps s (flipStart s job acked rings l buf target q at_) ∧
      ∃ f ∈ (flipStart s job acked rings l buf target q at_).cmp.flips, f.job = job ∧ f.layer = l ∧ f.buf = buf ∧
        f.frame = at_.getD (max target (firstWindow s (((List.range 8).filter rings.testBit).headD 0) 50)) := by
  have shown (l' : List Nat) (s : State) : (l'.foldl (fun s r => showFlipPend s r l) s).cmp = s.cmp := by
    induction l' generalizing s with
    | nil => rfl
    | cons r l' ih => exact (ih _).trans (State.wr_cmp ..)
  unfold flipStart
  extract_lets rs ref t flip fr s1 s2
  have cleared : IdleKeeps s s1 := .ite (supersede_idle s rings l) (.refl s)
  have noted : IdleKeeps s s2 := cleared.trans (modCmp_idle s1 _)
  refine ⟨(noted.trans (.foldl (fun s r => showFlipPend_idle s r l) rs s2)).trans (flipsSweep_idle _), _,
    flipsSweep_holds (f := ⟨job, acked, l, buf, q, t, target != 0 && decide (target < t), fr, [], 0⟩) ?_ ?_, rfl, rfl, rfl, rfl⟩
  · rw [shown]
    exact List.mem_append_right _ (List.mem_singleton_self _)
  · simpa [fr, rs] using any

theorem exec_layerFlip (n : Fin 16) (s : State) : exec (.layerFlip n) s = ordinary (fun s => runDesc s n.val 6 runFlip) s := rfl

/-- The rings, the layer, the buffer and the target frame that a LAYER_FLIP names. -/
abbrev Job.mask (j : Job) : Nat := leAt j.bytes 16 1
abbrev Job.layer (j : Job) : Nat := leAt j.bytes 17 1
abbrev Job.buf (j : Job) : Nat := leAt j.bytes 24 8
abbrev Job.target (j : Job) : Nat := leAt j.bytes 32 6

/-- The reference ring of a LAYER_FLIP, the first that it names. -/
abbrev Job.flipRef (j : Job) : Nat := ((List.range 8).filter j.mask.testBit).headD 0

section
variable {s : State} {n : Fin 16} {j : Job} (h : InHand s n.val 6 j) (ring : s.isStandalone = false)
include h ring

/-- LAYER_FLIP that fails a check ends with the check's code. -/
theorem layerFlip_refused (bad : flipCheck s j.mask j.layer j.buf (sealOf j.bytes) ≠ 0) :
    Runs (.layerFlip n) s fun t => Completes s t n.val j (j.record (flipCheck s j.mask j.layer j.buf (sealOf j.bytes))) := by
  have effect : runFlip (inRow s j) j.taken = finishWith (inRow s j) j.taken (j.record (flipCheck s j.mask j.layer j.buf (sealOf j.bytes))) :=
    (if_neg (Bool.eq_false_iff.1 ring)).trans (if_pos bad)
  obtain ⟨t, run, -, ends⟩ := inHand_finishes h n.isLt effect (.refl _)
  exact ⟨t, (exec_layerFlip n s).trans run, ends⟩

/-- LAYER_FLIP that passes its checks is pending for its frame. -/
theorem layerFlip_pends (good : flipCheck s j.mask j.layer j.buf (sealOf j.bytes) = 0) (any : j.mask ≠ 0) :
    Runs (.layerFlip n) s fun t => ∃ f ∈ t.cmp.flips, f.job = some j.id ∧ f.layer = j.layer ∧ f.buf = j.buf ∧ f.frame =
      max j.target (firstWindow s j.flipRef (if tellsPartner s then 100 else 50)) := by
  have rings := ringsOf_ne_nil (leAt_lt j.bytes 16 1) any
  have row {u : State} (starts : (if tellsPartner s = true then
      mirrorAsk (flipStart (inRow s j) (some j.id) false j.mask j.layer j.buf j.target (sealOf j.bytes) (some (max j.target (firstWindow s j.flipRef 100)))) false 2
        (descBody j.taken (max j.target (firstWindow s j.flipRef 100)) []) j.id
      else flipStart (inRow s j) (some j.id) true j.mask j.layer j.buf j.target (sealOf j.bytes) none) = u) : runFlip (inRow s j) j.taken = u :=
    (if_neg (Bool.eq_false_iff.1 ring)).trans ((if_neg (not_not.2 good)).trans starts)
  obtain ⟨u, effect, idle, pends⟩ : ∃ u, runFlip (inRow s j) j.taken = u ∧ IdleKeeps (inRow s j) u ∧ ∃ f ∈ u.cmp.flips, f.job = some j.id ∧
      f.layer = j.layer ∧ f.buf = j.buf ∧ f.frame = max j.target (firstWindow s j.flipRef (if tellsPartner s then 100 else 50)) := by
    by_cases tells : tellsPartner s = true
    · obtain ⟨idle, f, mem, pends⟩ := flipStart_pends (inRow s j) (some j.id) false j.mask j.layer j.buf j.target (sealOf j.bytes)
        (some (max j.target (firstWindow s j.flipRef 100))) rings
      have asked := mirrorAsk_host (flipStart (inRow s j) (some j.id) false j.mask j.layer j.buf j.target (sealOf j.bytes)
        (some (max j.target (firstWindow s j.flipRef 100)))) false 2 (descBody j.taken (max j.target (firstWindow s j.flipRef 100)) []) j.id
      rw [if_pos tells]
      exact ⟨_, row (if_pos tells), idle.trans asked.idleKeeps, f, asked.cmp ▸ mem, pends⟩
    · rw [if_neg tells]
      exact ⟨_, row (if_neg tells), flipStart_pends (inRow s j) (some j.id) true j.mask j.layer j.buf j.target (sealOf j.bytes) none rings⟩
  obtain ⟨t, run, rep, -⟩ := inHand_runs h effect idle.off (idle.idle (inRow_idle h))
  refine ⟨t, (exec_layerFlip n s).trans run, ?_⟩
  beta_reduce
  rw [rep.cmp, (cplTell_phase u).cmp]
  exact pends

end

/-! LAYER_FLIP of a standalone device (R321): it wakes the pixel engine. -/

/-- What a wake leaves: the heads that wait, and composition. -/
structure WakeKeeps (s t : State) : Prop extends IdleKeeps s t where
  cmp : t.cmp = s.cmp

theorem WakeKeeps.refl (s : State) : WakeKeeps s s := ⟨.refl s, rfl⟩

theorem WakeKeeps.trans {s t u : State} (h : WakeKeeps s t) (g : WakeKeeps t u) : WakeKeeps s u := ⟨h.toIdleKeeps.trans g.toIdleKeeps, g.cmp.trans h.cmp⟩

theorem WakeKeeps.ite {c : Prop} [Decidable c] {s t u : State} (ht : WakeKeeps s t) (hu : WakeKeeps s u) : WakeKeeps s (if c then t else u) := by
  split
  · exact ht
  · exact hu

theorem WakeKeeps.wr (s : State) (f : FRef) (v : Nat) (block : f.addr / 65536 ≠ 3 ∧ f.addr / 65536 ≠ 6) : WakeKeeps s (s.wr f v) := ⟨.wr s f v block, rfl⟩

theorem dramCmd_wake (s : State) (c code arg : Nat) : WakeKeeps s (dramCmd s c code arg) := ⟨⟨⟨rfl, rfl, rfl, rfl, rfl⟩, fun _ => rfl, rfl⟩, rfl⟩

theorem setDch_wake (s : State) (c : Nat) (x : DramChan) : WakeKeeps s (s.setDch c x) := ⟨⟨⟨rfl, rfl, rfl, rfl, rfl⟩, fun _ => rfl, rfl⟩, rfl⟩

theorem modPix_wake (s : State) (f : Pix → Pix) : WakeKeeps s (s.modPix f) := ⟨⟨⟨rfl, rfl, rfl, rfl, rfl⟩, fun _ => rfl, rfl⟩, rfl⟩

theorem raise_wake (s : State) (k : Nat) (d : List Byte) : WakeKeeps s (raise s k d) := ⟨(raise_phase s k d).idleKeeps, rfl⟩

theorem refreshes_wake (k : Nat) (s : State) (c : Nat) : WakeKeeps s (refreshes k s c) := by
  induction k generalizing s with
  | zero => exact .refl s
  | succ k ih =>
    have refreshed : WakeKeeps s (refresh s c) :=
      .ite (((setDch_wake s c _).trans (dramCmd_wake _ c 1 0)).trans (dramCmd_wake _ c 2 0)) ((setDch_wake s c _).trans (dramCmd_wake _ c 1 0))
    exact refreshed.trans (ih _)

theorem enterSr_wake (s : State) (c : Nat) : WakeKeeps s (enterSr s c) := by
  unfold enterSr
  split
  · exact .refl s
  · extract_lets s1 s2
    have refreshed : WakeKeeps s s1 := (refreshes_wake _ s c).trans (.wr _ (F.MC_REF_OWED c) 0 (by simp))
    have asked : WakeKeeps s1 s2 := (dramCmd_wake s1 c 5 0).trans (dramCmd_wake _ c 6 _)
    exact (((refreshed.trans asked).trans (.wr s2 (F.MC_REF_SRT c) _ (by simp))).trans (.wr _ (F.MC_STAT_STATE c) 3 (by simp))).trans (dramCmd_wake _ c 3 0)

theorem exitSr_wake (s : State) (c : Nat) : WakeKeeps s (exitSr s c) :=
  .ite (.refl s) (((WakeKeeps.wr s (F.MC_STAT_STATE c) 2 (by simp)).trans (dramCmd_wake _ c 4 0)).trans (dramCmd_wake _ c 2 0))

theorem askSr_wake (s : State) (c : Nat) (yes : Bool) : WakeKeeps s (askSr s c yes) :=
  (setDch_wake s c _).trans (.ite (enterSr_wake _ c) (exitSr_wake _ c))

theorem pixWake_wake (s : State) (cause : Nat) : WakeKeeps s (pixWake s cause) := by
  unfold pixWake
  split
  · exact .refl s
  · extract_lets s1 s2
    have asked : WakeKeeps s s1 :=
      ((WakeKeeps.wr s F.PIX_QSTAT_STATE 2 (by decide)).trans (.wr _ F.PIX_QSTAT_CAUSE cause (by decide))).trans (askSr_wake _ 0 false)
    have awake : WakeKeeps s1 (s2.wr F.PIX_QSTAT_STEADY 0) := (WakeKeeps.wr s1 F.SYS_MSTAT_QUIET 0 (by decide)).trans (.wr _ F.PIX_QSTAT_STEADY 0 (by decide))
    exact ((asked.trans awake).trans (modPix_wake _ _)).trans (raise_wake _ 328 _)

/-- The flip that a standalone device notes for a frame. -/
def Job.flipAlone (j : Job) (frame : Nat) : Flip :=
  ⟨some j.id, true, 0, j.buf, none, frame, j.target != 0 && decide (j.target < frame), [(0, frame)], [], 0⟩

/-- A standalone device's LAYER_FLIP of the fill buffer is pending for its frame, at least 50 µs ahead. -/
theorem layerFlip_alone {s : State} {n : Fin 16} {j : Job} (h : InHand s n.val 6 j) (single : s.isStandalone = true) (mask : j.mask = 1) (layer : j.layer = 0)
    (fill : j.buf = fbAddr s (fbFill s) 0 0) (unsealed : bitAt (leAt j.bytes 18 1) 0 = false) :
    Runs (.layerFlip n) s fun t => ∃ f ∈ t.cmp.flips, f.job = some j.id ∧ f.buf = j.buf ∧
      f.frame = max j.target (firstCount (s.gen 0).rate (wallNs s + 50000)) := by
  let f := j.flipAlone (max j.target (firstCount (s.gen 0).rate (wallNs s + 50000)))
  let u := (supersede (inRow s j) 1 0).modCmp fun c => { c with flips := c.flips ++ [f] }
  have effect : runFlip (inRow s j) j.taken = pixWake u 1 :=
    (if_pos single).trans ((if_neg (by simp [mask, layer, Job.taken])).trans ((if_neg (not_not.2 fill)).trans (if_neg (Bool.eq_false_iff.1 unsealed))))
  have wake := pixWake_wake u 1
  have idle : IdleKeeps (inRow s j) (pixWake u 1) := ((supersede_idle _ 1 0).trans (modCmp_idle _ _)).trans wake.toIdleKeeps
  obtain ⟨t, run, rep, -⟩ := inHand_runs h effect idle.off (idle.idle (inRow_idle h))
  refine ⟨t, (exec_layerFlip n s).trans run, f, ?_, rfl, rfl, rfl⟩
  rw [rep.cmp, (cplTell_phase _).cmp, wake.cmp]
  exact List.mem_append_right _ (List.mem_singleton_self f)

end Sys2Proof.Machine
end

section
/-! PROOF. UPDATE_BLOCK for this device (O56; R318, R401): the session answers. -/
namespace Sys2Proof.Machine

/-- What the session of an update leaves alone: the straps, the host interface, transactions, what was sent. -/
structure UpdKeeps (s t : State) : Prop where
  strap : t.strap = s.strap
  reg : ∀ a, a / 65536 = 3 → t.reg a = s.reg a
  xa : t.xa = s.xa
  hif : t.hif = s.hif
  out : s.out <+: t.out

theorem UpdKeeps.refl (s : State) : UpdKeeps s s := ⟨rfl, fun _ _ => rfl, rfl, rfl, List.prefix_rfl⟩

theorem UpdKeeps.trans {s t u : State} (h : UpdKeeps s t) (g : UpdKeeps t u) : UpdKeeps s u :=
  ⟨g.strap.trans h.strap, fun a block => (g.reg a block).trans (h.reg a block), g.xa.trans h.xa, g.hif.trans h.hif, h.out.trans g.out⟩

theorem UpdKeeps.ite {c : Prop} [Decidable c] {s t u : State} (ht : UpdKeeps s t) (hu : UpdKeeps s u) : UpdKeeps s (if c then t else u) := by
  split
  · exact ht
  · exact hu

theorem UpdKeeps.idle {s t : State} (h : UpdKeeps s t) (waits : NoHeadWaits s) : NoHeadWaits t :=
  noHeadWaits_congr waits (fun n => h.reg _ (by simp)) (congrArg _ h.xa)

theorem UpdKeeps.setReg (s : State) (a v : Nat) (block : a / 65536 ≠ 3) : UpdKeeps s (s.setReg a v) :=
  ⟨rfl, fun b host => s.reg_setReg_ne v (by intro h; rw [h] at host; exact block host), rfl, rfl, List.prefix_rfl⟩

theorem modUpd_upd (s : State) (f : Upd → Upd) : UpdKeeps s (s.modUpd f) := ⟨rfl, fun _ _ => rfl, rfl, rfl, List.prefix_rfl⟩

theorem raise_sess (s : State) (k : Nat) (d : List Byte) : UpdKeeps s (raise s k d) :=
  ⟨(raise_reports s k d).strap, fun a _ => (raise_reports s k d).reg a, (raise_reports s k d).xa, (raise_reports s k d).hif, raise_out s k d⟩

theorem showSess_upd (s : State) : UpdKeeps s (showSess s) := .setReg s _ _ (by decide)

theorem showSlots_upd (s : State) : UpdKeeps s (showSlots s) :=
  (((UpdKeeps.setReg s R.UPD_SLOTA _ (by decide)).trans (.setReg _ R.UPD_SLOTB _ (by decide))).trans (.setReg _ R.UPD_VERA _ (by decide))).trans
    (.setReg _ R.UPD_VERB _ (by decide))

theorem endSession_upd (s : State) (how : Nat) : UpdKeeps s (endSession s how) := by
  unfold endSession
  split
  · exact .refl s
  · exact ((modUpd_upd s _).trans (showSess_upd _)).trans (raise_sess _ 496 _)

theorem updOpen_upd (s : State) (vodan : Bool) (number slot total : Nat) : UpdKeeps s (updOpen s vodan number slot total).1 := by
  unfold updOpen
  split
  · exact .refl s
  · simp only [apply_ite Prod.fst]
    have staged : UpdKeeps s (if (flashErase s (slotBase slot) 0x10000).rd F.UPD_STAT_STAGED = slot + 1
        then (flashErase s (slotBase slot) 0x10000).wr F.UPD_STAT_STAGED 0 else flashErase s (slotBase slot) 0x10000) :=
      .ite ((modUpd_upd s _).trans (.setReg _ _ _ (by decide))) (modUpd_upd s _)
    exact .ite (.refl s) (.ite (.refl s) (.ite (.refl s) (.ite (.refl s)
      ((((staged.trans (modUpd_upd _ _)).trans (showSess_upd _)).trans (showSlots_upd _)).trans (raise_sess _ 496 _)))))

theorem updData_upd (s : State) (vodan : Bool) (number off : Nat) (data : List Byte) : UpdKeeps s (updData s vodan number off data).1 := by
  unfold updData
  split
  · exact .refl s
  · split
    · exact endSession_upd s 3
    · simp only [apply_ite Prod.fst]
      exact .ite (.refl s) (.ite (.refl s) (.ite (.refl s) (.ite (.refl s) (modUpd_upd s _))))

theorem updClose_upd (s : State) (vodan : Bool) (number : Nat) : UpdKeeps s (updClose s vodan number).1 := by
  unfold updClose
  split
  · exact .refl s
  · split
    · exact endSession_upd s 3
    · simp only [apply_ite Prod.fst]
      exact .ite (.refl s) (((endSession_upd s 2).trans (modUpd_upd _ _)).trans (showSess_upd _))

theorem updAbort_upd (s : State) (vodan force : Bool) (number : Nat) : UpdKeeps s (updAbort s vodan force number).1 := by
  unfold updAbort
  split
  · exact .refl s
  · simp only [apply_ite Prod.fst]
    exact .ite (.ite (endSession_upd s 3) (.refl s)) (.ite (.refl s) (endSession_upd s 3))

theorem updStep_upd (s : State) (sub number off : Nat) (body : List Byte) : UpdKeeps s (updStep s sub number off body).1 := by
  unfold updStep
  split
  · split
    · exact .refl s
    · exact updOpen_upd ..
  · exact updData_upd ..
  · exact updClose_upd ..
  · exact updAbort_upd ..
  · exact .refl s
  · exact .refl s

/-- What a command that may write the flash answers of its effect. -/
theorem flashing_runs {f : State → State} {s u : State} (effect : f s = u) (strap : u.strap = s.strap) :
    ∃ t, flashing f s = .next t ∧ (∀ a, t.reg a = u.reg a) ∧ t.hif = u.hif ∧ t.upd.session = u.upd.session ∧ u.out <+: t.out := by
  subst effect
  have rep := settle_reports s (f s)
  have session : (settle s (f s)).upd.session = (f s).upd.session := by rw [rep.upd]
  exact ⟨_, rfl, fun a => State.reg_congr (s := f s) (by exact strap.symm) (by exact rep.regs) a, rep.hif, session, settle_out s (f s)⟩

/-- UPDATE_BLOCK for this device ends with the answer of the session. -/
theorem updateBlock_answers {n : Fin 16} {j : Job} {s : State} (d : List Byte) (h : InHand s n.val 11 j) (here : isLocal j = true) :
    Runs (.updateBlock n (some d)) s fun t =>
      let r := updStep (inRow s j) (leAt j.bytes 16 1) (leAt j.bytes 17 1) (leAt j.bytes 20 4) (slice d 0 (leAt j.bytes 32 4))
      t.upd.session = r.1.upd.session ∧ Completes s t n.val j (j.record r.2.status) := by
  let r := updStep (inRow s j) (leAt j.bytes 16 1) (leAt j.bytes 17 1) (leAt j.bytes 20 4) (slice d 0 (leAt j.bytes 32 4))
  have step : UpdKeeps (inRow s j) r.1 := updStep_upd ..
  have last := finishWith_phase r.1 j.taken (j.record r.2.status)
  have effect : runUpdate (inRow s j) j.taken (some d) = finishWith r.1 j.taken (j.record r.2.status) := by
    by_cases empty : leAt j.bytes 32 4 = 0
    · rw [runUpdate]
      simp only [show j.taken.bytes = j.bytes from rfl, empty, if_true, withData]
      rw [if_pos (show isLocal j.taken = true from here)]
      simp only [r, empty]
      rfl
    · rw [runUpdate]
      simp only [show j.taken.bytes = j.bytes from rfl, empty, if_false, withData]
      exact if_pos here
  have row : runDesc s n.val 11 (fun s j => runUpdate s j (some d)) = cplTell (finishWith r.1 j.taken (j.record r.2.status)) := by
    rw [runDesc_inHand h, effect, retryHeads_idle (noHeadWaits_phase (step.idle (inRow_idle h)) last)]
  have told := cplTell_phase (finishWith r.1 j.taken (j.record r.2.status))
  obtain ⟨t, run, reg, hif, session, out⟩ := flashing_runs (f := fun s => runDesc s n.val 11 fun s j => runUpdate s j (some d)) row
    (told.strap.trans (last.strap.trans step.strap))
  have ends : Completes (inRow s j) (finishWith r.1 j.taken (j.record r.2.status)) n.val j.taken (j.record r.2.status) :=
    completes_since (finishWith_completes r.1 (j.record r.2.status) h.ring n.isLt) (.of_reg fun a block _ => step.reg a block)
  have since : Completes s (finishWith r.1 j.taken (j.record r.2.status)) n.val j.taken (j.record r.2.status) :=
    completes_since ends (.of_reg fun _ _ _ => rfl)
  have done := completes_stays (completes_told since) (fun k mem => hif ▸ mem) (reg _) out
  exact ⟨t, (exec_updateBlock n _ s).trans run, session.trans (congrArg _ (told.upd.trans last.upd)), done⟩

end Sys2Proof.Machine
end

section
/-! PROOF. REG_READ of this device (O56; R311 to R314). -/
namespace Sys2Proof.Machine

theorem exec_regRead (n : Fin 16) (s : State) : exec (.regRead n) s = ordinary (fun s => runDesc s n.val 4 runRegRead) s := rfl

/-- A descriptor reads by the latches that a packet reads by. -/
theorem busRead_local (s : State) (a : Nat) (full : Bool) : busRead s .local a full = busRead s .packet a full := rfl

/-- What a LANE address shows does not depend on the jobs. -/
theorem shows_inRow (s : State) (j : Job) {a : Nat} (h : a / 65536 = 5) : shows (inRow s j) a = shows s a := by
  have plain : ∀ s : State, view s a = none := fun s => by simp only [view, h]
  simp only [shows, plain]
  rfl

/-- The job of a REG_READ of one word of this device, with the word. -/
def Job.readOne (j : Job) (w : Nat) : Job := { j.taken with rsp := 0, count := 1, parts := 1, words := [w], answered := true }

/-- A REG_READ of one word of this device ends with the word. -/
theorem finishLocal_one {u : State} {j : Job} (w : Nat) (type : j.type = 4) (here : isLocal j = true) (whole : j.missing = 0) :
    finishLocal u j.taken false 1 [w] =
      finishWith u (j.readOne w) { j.record 0 with count := 1, route := j.rspRoute, rhb := j.rspRhb, result := bytesLE 4 w } := by
  have route : j.route = 0 := by
    simp only [isLocal, Bool.and_eq_true, beq_iff_eq] at here
    exact here.1
  have narrow : hasBroadcast (j.readOne w).route = false := by
    rw [show (j.readOne w).route = 0 from route]
    decide
  have good : regStatus (j.readOne w) = 0 := by
    rw [regStatus, show (j.readOne w).missing = 0 from whole]
    rfl
  have four : (j.readOne w).type = 4 := type
  have done : finishLocal u j.taken false 1 [w] = finishReg u (j.readOne w) := by rw [finishLocal, if_neg Bool.false_ne_true, Job.readOne]
  have word : (j.readOne w).words.flatMap (bytesLE 4) = bytesLE 4 w := List.append_nil _
  rw [done, finishReg]
  simp only [four, narrow, good, word, if_true, Nat.reduceEqDiff, Bool.false_eq_true, if_false]
  exact congrArg (finishWith u (j.readOne w)) rfl

/-- REG_READ of one word of a LANE register of this device ends with the word that it shows. -/
theorem regRead_shows {n : Fin 16} {j : Job} {s : State} (h : InHand s n.val 4 j) (here : isLocal j = true) (one : leAt j.bytes 20 1 = 1)
    (whole : j.missing = 0) (aligned : leAt j.bytes 16 4 % 4 = 0) (on : addrOn s.strap.role (leAt j.bytes 16 4) = true) (lane : leAt j.bytes 16 4 / 65536 = 5)
    (free : Table.get 0 s.latch (pathIdx .local * 0x2000000 + leAt j.bytes 16 4) = 0) :
    Runs (.regRead n) s fun t => Completes s t n.val j
      { j.record 0 with count := 1, route := j.rspRoute, rhb := j.rspRhb, result := bytesLE 4 (shows s (leAt j.bytes 16 4)) } := by
  obtain ⟨u, read, keeps⟩ := busRead_lane (s := inRow s j) on aligned lane (by rw [show (inRow s j).latch = s.latch from rfl]; simpa [pathIdx] using free)
  rw [shows_inRow s j lane] at read
  have words : readWords (inRow s j) .local (leAt j.bytes 16 4) (if bitAt (leAt j.bytes 21 1) 1 then 4 else 0) 1 = (u, [shows s (leAt j.bytes 16 4)]) := by
    simp [readWords, busRead_local, read]
  have effect : runRegRead (inRow s j) j.taken = finishWith u (j.readOne (shows s (leAt j.bytes 16 4)))
      { j.record 0 with count := 1, route := j.rspRoute, rhb := j.rspRhb, result := bytesLE 4 (shows s (leAt j.bytes 16 4)) } := by
    rw [← finishLocal_one _ h.type here whole, runRegRead, if_pos (show isLocal j.taken = true from here)]
    simp only [show j.taken.bytes = j.bytes from rfl, one, words]
  have host : ∀ a, a / 65536 ≠ 5 → u.reg a = (inRow s j).reg a := fun a other => keeps.reg a (by rintro rfl; exact other lane)
  have last := finishWith_phase u (j.readOne (shows s (leAt j.bytes 16 4)))
    { j.record 0 with count := 1, route := j.rspRoute, rhb := j.rspRhb, result := bytesLE 4 (shows s (leAt j.bytes 16 4)) }
  have rest := keeps.rest
  have off : OffTime (inRow s j) u := ⟨by rw [rest], by rw [rest], by rw [rest], by rw [rest], host _ (by decide)⟩
  have idle : NoHeadWaits u := noHeadWaits_congr (inRow_idle h) (fun n => host _ (by simp [R.HIF_CR_STAT])) (by rw [rest])
  have ends := completes_since (finishWith_completes (n := n.val) (j := j.readOne (shows s (leAt j.bytes 16 4))) u
    { j.record 0 with count := 1, route := j.rspRoute, rhb := j.rspRhb, result := bytesLE 4 (shows s (leAt j.bytes 16 4)) } h.ring n.isLt)
    (.of_reg (s := inRow s j) fun a block _ => host a (by omega))
  obtain ⟨t, run, -, done⟩ := inHand_ends h effect (off.trans last.off) (noHeadWaits_phase idle last) ends
  exact ⟨t, (exec_regRead n s).trans run, done⟩

end Sys2Proof.Machine
end

section
/-! PROOF. What the pair last saw of its mirror link (O56; R273): a member of a pair whose link command changes nothing has seen its link as it is. -/
namespace Sys2Proof.Machine

theorem pair_foldl {β : Type} {f : State → β → State} (hf : ∀ s x, (f s x).pair = s.pair) (l : List β) (s : State) : (l.foldl f s).pair = s.pair := by
  induction l generalizing s with
  | nil => rfl
  | cons x l ih => exact (ih _).trans (hf s x)

theorem wasUp_foldl {β : Type} {f : State → β → State} (hf : ∀ s x, (f s x).pair.wasUp = s.pair.wasUp) (l : List β) (s : State) :
    (l.foldl f s).pair.wasUp = s.pair.wasUp := by
  induction l generalizing s with
  | nil => rfl
  | cons x l ih => exact (ih _).trans (hf s x)

@[simp] theorem dramCmd_pair (s : State) (c k a : Nat) : (dramCmd s c k a).pair = s.pair := rfl

@[simp] theorem refreshes_pair (k : Nat) (s : State) (c : Nat) : (refreshes k s c).pair = s.pair := by
  induction k generalizing s with
  | zero => rfl
  | succ k ih =>
    rw [refreshes, ih, refresh]
    split <;> rfl

@[simp] theorem enterSr_pair (s : State) (c : Nat) : (enterSr s c).pair = s.pair := by
  unfold enterSr
  split <;> simp -implicitDefEqProofs

@[simp] theorem exitSr_pair (s : State) (c : Nat) : (exitSr s c).pair = s.pair := by
  unfold exitSr
  split <;> simp -implicitDefEqProofs

theorem touch_pair (s : State) (c : Nat) : (touch s c).pair = s.pair := by
  unfold touch settleSr
  split
  · rfl
  · split <;> simp -implicitDefEqProofs

theorem storeBytes_pair (l : List (Option Byte)) (s : State) (a : Nat) : (storeBytes s a l).pair = s.pair := by
  induction l generalizing s a with
  | nil => rfl
  | cons b r ih =>
    unfold storeBytes
    rw [ih]
    split
    · split <;> rfl
    · rfl

@[simp] theorem dramWrite_pair (s : State) (a : Nat) (l : List Byte) : (dramWrite s a l).pair = s.pair := by
  have coded (s : State) (a : Nat) (l : List (Option Byte)) : (recode s a l).pair = s.pair := by
    unfold recode
    refine pair_foldl (fun s p => ?_) _ s
    dsimp only
    split <;> rfl
  rw [dramWrite, dramStore, storeBytes_pair, coded, touch_pair]

@[simp] theorem conceal_pair (s : State) (f k : Nat) (l : List Nat) : (conceal s f k l).pair = s.pair := pair_foldl (fun s _ => dramWrite_pair s _ _) _ s

@[simp] theorem publishOne_pair (s : State) (f k m : Nat) : (publishOne s f k m).pair = s.pair := by
  unfold publishOne
  dsimp only
  split <;> simp -implicitDefEqProofs

@[simp] theorem groupDrop_pair (s : State) (f m : Nat) : (groupDrop s f m).pair = s.pair := by
  unfold groupDrop
  dsimp only
  split
  · rfl
  · rw [raise_pair, State.modFlow_pair]
    exact pair_foldl (fun s m => by split <;> simp -implicitDefEqProofs) _ s

@[simp] theorem groupSweep_pair (s : State) (f : Nat) : (groupSweep s f).pair = s.pair := by
  unfold groupSweep
  split
  · rfl
  · exact pair_foldl (fun s t => by split <;> simp -implicitDefEqProofs) _ s

@[simp] theorem publish_pair (s : State) (f k m : Nat) : (publish s f k m).pair = s.pair := by
  have ready : (groupReady s f k m).pair = s.pair := by
    unfold groupReady
    dsimp only
    split
    · simp -implicitDefEqProofs
    · split
      · exact (pair_foldl (fun s m => by simp -implicitDefEqProofs) _ _).trans (State.modFlow_pair _ _ _)
      · split <;> simp -implicitDefEqProofs
  unfold publish
  split
  · exact ready
  · simp -implicitDefEqProofs

@[simp] theorem finishFrame_pair (s : State) (f k m : Nat) (l : List Nat) : (finishFrame s f k m l).pair = s.pair := by
  unfold finishFrame
  dsimp only
  split <;> simp -implicitDefEqProofs

@[simp] theorem dropFrame_pair (s : State) (f m k : Nat) : (dropFrame s f m k).pair = s.pair := by simp -implicitDefEqProofs [dropFrame]

@[simp] theorem unwritten_pair (s : State) (f m : Nat) : (unwritten s f m).pair = s.pair := by simp -implicitDefEqProofs [unwritten]

@[simp] theorem decideFrame_pair (s : State) (f : Nat) (b : Option Nat) (m : Nat) (l : List Nat) : (decideFrame s f b m l).pair = s.pair := by
  unfold decideFrame
  split
  · simp -implicitDefEqProofs
  · split <;> simp -implicitDefEqProofs

theorem pairRun_pair (k : Nat) (s : State) (f : Nat) : (pairRun k s f).pair = s.pair := by
  induction k generalizing s with
  | zero => rfl
  | succ k ih =>
    unfold pairRun
    split
    · rfl
    · dsimp only
      split
      · rw [ih]
        simp -implicitDefEqProofs
      · split
        · rfl
        · split
          · rfl
          · rw [ih, groupSweep_pair]
            split
            · simp -implicitDefEqProofs
            · split <;> simp -implicitDefEqProofs

theorem alone_pair (s : State) (f : Nat) (c : PairFrame) : (alone s f c).pair = s.pair := by simp -implicitDefEqProofs [alone]

theorem pairFinishAll_pair (s : State) : (pairFinishAll s).pair = s.pair :=
  pair_foldl (fun s f => (pairRun_pair 8 _ f).trans (pair_foldl (fun s c => alone_pair s f c) _ s)) _ s

theorem showFlipPend_pair (s : State) (r l : Nat) : (showFlipPend s r l).pair = s.pair := State.wr_pair ..

theorem showMapPend_pair (s : State) (r : Nat) : (showMapPend s r).pair = s.pair := State.wr_pair ..

/-- A repair or a map that waits for its ACKK ends without (R279). -/
theorem cmpAck_pair (s : State) (j : Nat) {n : Nat} (ended : n ≠ 0) : (cmpAck s j n).pair = s.pair := by
  have flips (l : List Flip) (s : State) : (l.foldl (fun s f => f.rings.foldl (fun s e => showFlipPend s e.1 f.layer) s) s).pair = s.pair := by
    refine pair_foldl (fun s f => ?_) l s
    exact pair_foldl (f := fun (s : State) (e : Nat × Nat) => showFlipPend s e.1 f.layer) (fun s e => showFlipPend_pair s e.1 f.layer) f.rings s
  have maps (s : State) : (forIdx 8 s showMapPend).pair = s.pair := pair_foldl showMapPend_pair _ s
  unfold cmpAck
  rw [if_neg ended]
  extract_lets fs s1 s2 s3
  have shown : s3.pair = s.pair := (maps s2).trans ((flips fs s1).trans (State.modCmp_pair ..))
  split
  · exact (finish_phase s3 _ n).pair.trans shown
  · exact shown

theorem cmpMirrorDown_pair (s : State) : (cmpMirrorDown s).pair = s.pair :=
  (pair_foldl (fun s j => cmpAck_pair s j (by decide)) _ _).trans (pair_foldl (fun s j => cmpAck_pair s j (by decide)) _ s)

theorem showMq_pair (s : State) : (showMq s).pair = s.pair := rfl

theorem setChan_wasUp (s : State) (u : Bool) (c : Chan) : (s.setChan u c).pair.wasUp = s.pair.wasUp := by cases u <;> rfl

theorem mirrorSend_wasUp (s : State) (u : Bool) (k a : Nat) (b : List Nat) : (mirrorSend s u k a b).pair.wasUp = s.pair.wasUp := by
  unfold mirrorSend
  split
  · rfl
  · extract_lets c i fits c1 s1
    split
    · rw [mirrorOut_pair, showMq_pair, setChan_wasUp]
    · split
      · rw [raise_pair, showMq_pair, setChan_wasUp]
      · rw [showMq_pair, setChan_wasUp]

@[simp] theorem holdBuf_pair (s : State) (r l f k m : Nat) : (holdBuf s r l f k m).pair = s.pair := by simp -implicitDefEqProofs [holdBuf]

@[simp] theorem staleLayer_pair (s : State) (r l f p : Nat) (h : Bool) (m : Nat) : (staleLayer s r l f p h m).pair = s.pair := by
  unfold staleLayer
  extract_lets st off most stale x s1 s2 s3
  have counted : s3.pair = s.pair := by
    rw [State.wr_pair]
    simp only [s2, s1]
    split <;> simp -implicitDefEqProofs
  split
  · exact (raise_pair ..).trans counted
  · exact counted

@[simp] theorem takeSample_pair (s : State) (r l f n m : Nat) : (takeSample s r l f n m).pair = s.pair := by
  unfold takeSample
  extract_lets flip x s0 s1
  have cleared : s0.pair = s.pair := by simp -implicitDefEqProofs [s0]
  rw [staleLayer_pair]
  simp only [s1]
  split
  · exact cleared
  · split
    · exact (holdBuf_pair ..).trans cleared
    · split
      · split
        · exact (holdBuf_pair ..).trans cleared
        · exact (raise_pair ..).trans cleared
      · exact (raise_pair ..).trans cleared

theorem chooseLayer_wasUp (s : State) (r l f n : Nat) : (chooseLayer s r l f n).pair.wasUp = s.pair.wasUp := by
  unfold chooseLayer
  extract_lets flip src held pub m take s1 s2
  have chosen : s2.pair = s.pair := by
    simp only [s2, s1, staleLayer_pair]
    split <;> simp -implicitDefEqProofs
  split
  · split <;> simp -implicitDefEqProofs
  · split
    · rw [mirrorSend_wasUp, chosen]
    · rw [chosen]

theorem chooseAlone_wasUp (s : State) : (chooseAlone s).pair.wasUp = s.pair.wasUp := by
  unfold chooseAlone forIdx
  refine wasUp_foldl (fun s r => wasUp_foldl (fun s l => ?_) _ s) _ s
  extract_lets x s1
  have put : s1.pair = s.pair := State.setLayer_pair ..
  split
  · rfl
  · split
    · split
      · rw [chooseLayer_wasUp, put]
      · rw [put]
    · rw [put]

theorem redRefresh_wasUp (s : State) : (redRefresh s).pair.wasUp = s.pair.wasUp := by
  unfold redRefresh
  split
  · rfl
  · extract_lets mask hn role stopped s1 s2 hs src s3
    refine (wasUp_foldl (fun s r => ?_) _ s3).trans rfl
    split
    · rfl
    · rfl

theorem alignShow_pair (s : State) : (alignShow s).pair = s.pair := by
  unfold alignShow
  dsimp only
  split
  · rfl
  · simp -implicitDefEqProofs

/-- A member that saw its link up and finds it down sees it down. -/
theorem pairLink_falls {s : State} (member : pairEn s = true) (down : mirrorUp s = false) (was : s.pair.wasUp = true) : (pairLink s).pair.wasUp = false := by
  have aborted (s : State) : (forIdx 16 s fun s x =>
      let v := s.xid x
      if v.st == .preparing || v.st == .voting then abortXid s x reasonPartition 0 0 0 else s).pair = s.pair := by
    refine pair_foldl (fun s x => ?_) _ s
    dsimp only
    split
    · exact (abortXid_phase ..).pair
    · rfl
  unfold pairLink
  rw [if_neg (by simp [member])]
  extract_lets u rings s1 s2 untold s0 s1' s2' s3
  rw [if_neg (show ¬ u = s.pair.wasUp by simp [u, down, was]), if_neg (show ¬ u = true by simp [u, down]), redRefresh_wasUp]
  have told : s2'.pair.wasUp = false := rfl
  simp only [s3]
  split
  · exact told
  · rw [aborted]
    exact told

theorem sendSync_wasUp (s : State) (a : Nat) (h b : List Nat) : (sendSync s a h b).pair.wasUp = s.pair.wasUp :=
  wasUp_foldl (fun s _ => mirrorSend_wasUp s _ _ _ _) _ s

theorem sendContent_wasUp (s : State) (f : Nat) : (sendContent s f).pair.wasUp = s.pair.wasUp := by
  unfold sendContent
  extract_lets s1 s2 s3 s4 s5 s6
  have h1 : s1.pair.wasUp = s.pair.wasUp := sendSync_wasUp ..
  have h2 : s2.pair.wasUp = s1.pair.wasUp := wasUp_foldl (fun s r => mirrorSend_wasUp s false 16 1 _) _ s1
  have h3 : s3.pair.wasUp = s2.pair.wasUp := by
    simp only [s3]
    exact wasUp_foldl (fun s r => sendSync_wasUp s 3 [r] _) _ s2
  have h4 : s4.pair.wasUp = s3.pair.wasUp := by
    simp only [s4]
    exact wasUp_foldl (fun s i => mirrorSend_wasUp s false 16 4 _) _ s3
  have h5 : s5.pair.wasUp = s4.pair.wasUp := by
    simp only [s5]
    exact wasUp_foldl (fun s x => mirrorSend_wasUp s false 16 5 _) _ s4
  have h6 : s6.pair.wasUp = s5.pair.wasUp := by
    simp only [s6]
    refine wasUp_foldl (fun s i => ?_) _ s5
    split
    · exact sendSync_wasUp s 6 _ _
    · rfl
  rw [mirrorSend_wasUp, h6, h5, h4, h3, h2, h1]

theorem startResync_wasUp (s : State) : (startResync s).pair.wasUp = s.pair.wasUp := by
  unfold startResync becomeTarget
  split
  · rfl
  · split
    · exact (sendContent_wasUp ..).trans rfl
    · exact (redRefresh_wasUp _).trans rfl

/-- A member that saw its link down and finds it up sees it up. -/
theorem pairLink_rises {s : State} (member : pairEn s = true) (up : mirrorUp s = true) (was : s.pair.wasUp = false) : (pairLink s).pair.wasUp = true := by
  unfold pairLink
  rw [if_neg (by simp [member])]
  extract_lets u rings s1 s2 untold s0 s1' s2' s3
  rw [if_neg (show ¬ u = s.pair.wasUp by simp [u, up, was]), if_pos (show u = true from up), redRefresh_wasUp]
  have told : s2.pair.wasUp = true := rfl
  split
  · rw [startResync_wasUp, told]
  · exact told

/-- A member whose link command changes nothing has seen its link as it is. -/
theorem linkCheck_settled {s : State} (still : linkCheck s = s) : pairEn s = false ∨ mirrorUp s = s.pair.wasUp := by
  by_contra moved
  simp only [not_or, Bool.not_eq_false] at moved
  obtain ⟨member, moved⟩ := moved
  have seen : (linkCheck s).pair.wasUp = s.pair.wasUp := by rw [still]
  cases up : mirrorUp s with
  | true =>
    have was : s.pair.wasUp = false := Bool.eq_false_iff.2 fun h => moved (up.trans h.symm)
    rw [linkCheck] at seen
    simp only [member, was, up, Bool.and_false, Bool.not_true, Bool.false_eq_true, if_false, pairCheck, alignShow_pair,
      pairLink_rises member up was] at seen
    exact absurd seen (by decide)
  | false =>
    have was : s.pair.wasUp = true := Bool.eq_true_of_not_eq_false fun h => moved (up.trans h.symm)
    rw [linkCheck] at seen
    simp only [member, was, up, Bool.and_true, Bool.not_false, if_true, digestSkip, State.wr_pair, chooseAlone_wasUp, pairFinishAll_pair, cmpMirrorDown_pair,
      pairCheck, alignShow_pair, pairLink_falls member up was] at seen
    exact absurd seen (by decide)

end Sys2Proof.Machine
end

section
/-! PROOF. A request of another device (O56; R310, R313): the packet leaves and the request is noted. -/
namespace Sys2Proof.Machine

/-- A step of the host interface or the pair that leaves the mirror link as the member last saw it. -/
structure MateKeeps (s t : State) : Prop where
  host : HostStays s t
  cfg : t.reg R.RED_CFG = s.reg R.RED_CFG
  was : t.pair.wasUp = s.pair.wasUp

theorem MateKeeps.refl (s : State) : MateKeeps s s := ⟨.refl s, rfl, rfl⟩

theorem MateKeeps.trans {s t u : State} (h : MateKeeps s t) (g : MateKeeps t u) : MateKeeps s u :=
  ⟨h.host.trans g.host, g.cfg.trans h.cfg, g.was.trans h.was⟩

theorem MateKeeps.ite {c : Prop} [Decidable c] {s t u : State} (ht : MateKeeps s t) (hu : MateKeeps s u) : MateKeeps s (if c then t else u) := by
  split
  · exact ht
  · exact hu

theorem MateKeeps.pairEn {s t : State} (h : MateKeeps s t) : pairEn t = pairEn s := by
  simp only [Machine.pairEn, State.isSender, State.on, State.rd, h.cfg, h.host.link.strap]

theorem MateKeeps.mirrorUp {s t : State} (h : MateKeeps s t) : mirrorUp t = mirrorUp s :=
  mirrorUp_congr h.host.link.strap h.cfg fun p => h.host.link.reg _ (by simp only [linkBlock, R.CL_PSTAT, R.WT_PAIR]; omega)

theorem setLease_mate (s : State) (r : Nat) (x : Lease) : MateKeeps s (s.setLease r x) := ⟨setLease_host s r x, rfl, rfl⟩

theorem sent_mate (s : State) (l : List Output) : MateKeeps s { s with out := s.out ++ l } := ⟨sent_host s s.pair l, rfl, rfl⟩

theorem red_mate (s : State) (f : FRef) (v : Nat) (h : f.addr / 65536 = 15) (other : R.RED_CFG ≠ f.addr) : MateKeeps s (s.wr f v) :=
  ⟨red_host s f v h, s.reg_wr_ne f v other, rfl⟩

theorem mirrorSend_mate (s : State) (u : Bool) (k a : Nat) (b : List Nat) : MateKeeps s (mirrorSend s u k a b) where
  host := mirrorSend_host s u k a b
  was := mirrorSend_wasUp s u k a b
  cfg := (mirrorSend_show s u k a b).reg _ (by decide) (by decide) (by decide)

theorem seq_mate (s : State) (r v : Nat) : MateKeeps s (s.wr (F.RED_RSTAT_SEQ r) v) :=
  red_mate s _ v (by simp) (by simp only [R.RED_CFG, R.RED_RSTAT, ne_eq]; omega)

theorem jumpSeq_mate (s : State) (r : Nat) : MateKeeps s (jumpSeq s r) := by
  unfold jumpSeq
  exact .ite (.refl s) ((seq_mate s r _).trans (setLease_mate _ r _))

theorem dropPix_mate (s : State) (r q : Nat) : MateKeeps s (dropPix s r q) := setLease_mate s r _

theorem takeSeq_mate (s : State) (r : Nat) : MateKeeps s (takeSeq s r).1 := seq_mate s r _

theorem emitDown_mate (s : State) (r : Nat) (c : Copy) : MateKeeps s (emitDown s r c) := sent_mate s _

theorem sendSeq_mate (s : State) (r : Nat) (c : Copy) : MateKeeps s (sendSeq s r c) := by
  unfold sendSeq
  exact .ite ((setLease_mate s r _).trans (emitDown_mate _ r c)) (.refl s)

theorem sendSeqmark_mate (s : State) (r : Nat) : MateKeeps s (sendSeqmark s r) := (setLease_mate s r _).trans (mirrorSend_mate ..)

/-- A control packet that leaves, before it is mirrored. -/
theorem controlSent_mate (s : State) (r : Nat) (c : Copy) : MateKeeps s (sendSeq (dropPix (takeSeq s r).1 r (takeSeq s r).2) r c) :=
  ((takeSeq_mate s r).trans (dropPix_mate _ r _)).trans (sendSeq_mate _ r c)

theorem sendControl_mate (s : State) (r : Nat) (mk : Nat → Copy) : MateKeeps s (sendControl s r mk).1 := by
  by_cases may : mayControl s r = true
  · simp only [sendControl, may, Bool.not_true, Bool.false_eq_true, if_false]
    have jumped : MateKeeps s (if pairEn s && !(mirrorUp s) then jumpSeq s r else s) := .ite (jumpSeq_mate s r) (.refl s)
    generalize (if pairEn s && !(mirrorUp s) then jumpSeq s r else s) = s0 at jumped ⊢
    have sent := jumped.trans (controlSent_mate s0 r (mk (takeSeq s0 r).2))
    generalize sendSeq (dropPix (takeSeq s0 r).1 r (takeSeq s0 r).2) r (mk (takeSeq s0 r).2) = s1 at sent ⊢
    split
    · exact ((sent.trans (mirrorSend_mate ..)).trans (setLease_mate _ r _)).trans (sendSeqmark_mate _ r)
    · exact sent
  · simp only [sendControl, may, Bool.not_false, if_true]
    exact .refl s

/-- The SEQ that a control packet leaves with: what the ring's counter stands at (R71, R281). -/
theorem sendControl_seq (s : State) (r : Nat) (mk : Nat → Copy) : (sendControl s r mk).2 =
    if mayControl s r then some ((if pairEn s && !(mirrorUp s) then jumpSeq s r else s).rd (F.RED_RSTAT_SEQ r)) else none := by
  by_cases may : mayControl s r = true
  · simp only [sendControl, may, Bool.not_true, Bool.false_eq_true, if_false, if_true]
    generalize (if pairEn s && !(mirrorUp s) then jumpSeq s r else s) = s0
    split
    · rfl
    · rfl
  · simp only [sendControl, may, Bool.not_false, if_true, if_false, Bool.false_eq_true]

theorem sendControl_inRow (s : State) (j : Job) (r : Nat) (mk : Nat → Copy) : (sendControl (inRow s j) r mk).2 = (sendControl s r mk).2 := by
  have may : mayControl (inRow s j) r = mayControl s r := rfl
  have link : (pairEn (inRow s j) && !(mirrorUp (inRow s j))) = (pairEn s && !(mirrorUp s)) := rfl
  have lease : (inRow s j).lease r = s.lease r := rfl
  rw [sendControl_seq, sendControl_seq, may, link]
  split
  · split
    · unfold jumpSeq
      rw [lease]
      split <;> rfl
    · rfl
  · rfl

theorem linkCheck_seen {s : State} (seen : pairEn s = false ∨ mirrorUp s = s.pair.wasUp) : HostStays s (linkCheck s) := by
  rcases seen with alone | same
  · exact linkCheck_host alone
  · rw [linkCheck_steady same]
    exact (redRefresh_host s).trans (alignShow_host _)

/-- The row of a descriptor in hand that the mirror link follows, for a member that has seen its link as it is. -/
theorem inHand_linked {s u : State} {n ty : Nat} {j : Job} {f : State → Job → State} (h : InHand s n ty j) (effect : f (inRow s j) j.taken = u)
    (off : OffTime (inRow s j) u) (idle : NoHeadWaits u) (seen : pairEn u = false ∨ mirrorUp u = u.pair.wasUp) :
    ∃ v t, HostStays (cplTell u) v ∧ ordinary (linked fun s => runDesc s n ty f) s = .next t ∧ Reports v t ∧ v.out <+: t.out := by
  have row : linked (fun s => runDesc s n ty f) s = linkCheck (cplTell u) := by rw [linked, runDesc_inHand h, effect, retryHeads_idle idle]
  have told := cplTell_phase u
  have after : pairEn (cplTell u) = false ∨ mirrorUp (cplTell u) = (cplTell u).pair.wasUp := by rwa [told.pairEn, told.mirrorUp, told.pair]
  have host := linkCheck_seen after
  obtain ⟨t, run, rep, out⟩ := OffTime.runs (f := linked fun s => runDesc s n ty f) (s := s)
    (by rw [row]; exact (((inRow_off s j).trans off).trans told.off).trans host.off)
  rw [row] at rep out
  exact ⟨_, t, host, run, rep, out⟩

/-- A job that ends in a row that the mirror link follows. -/
theorem linked_completes {s u v t : State} {n : Nat} {j : Job} {r : CplRec} (ends : Completes (inRow s j) u n j.taken r) (host : HostStays (cplTell u) v)
    (rep : Reports v t) (out : v.out <+: t.out) : Completes s t n j r := by
  have base : RecordBase s (inRow s j) n := .of_reg fun _ _ _ => rfl
  have told := completes_stays (completes_told (completes_since ends base)) (fun _ mem => host.jobs ▸ mem) (host.reg _ (by simp)) host.out
  exact completes_reports told rep out

/-! REG_READ and REG_WRITE of another device. -/

theorem addRequest_phase (s : State) (q : Request) : PhaseKeeps s (addRequest s q) := modHif_phase s (fun h => { h with reqs := h.reqs ++ [q] }) fun _ => id

/-- A request that has left, as it is noted. -/
def requested (s : State) (j : Job) (type q : Nat) (data : List Byte) : State :=
  addRequest (sendControl (inRow s j) (ringOfRoute s j.route j.rhb) (downPacket type j.rhb j.route data)).1
    ⟨j.id, ringOfRoute s j.route j.rhb, q, j.route, j.rhb, owedBy s (ringOfRoute s j.route j.rhb) j.route⟩

section
variable {s : State} {j : Job} {type q : Nat} {data : List Byte}

theorem sendRequest_leaves (leaves : (sendControl s (ringOfRoute s j.route j.rhb) (downPacket type j.rhb j.route data)).2 = some q) :
    sendRequest (inRow s j) j.taken type true data = (requested s j type q data, true) := by
  rw [← sendControl_inRow s j] at leaves
  have same : sendControl (inRow s j) (ringOfRoute (inRow s j) j.taken.route j.taken.rhb) (downPacket type j.taken.rhb j.taken.route data) =
    sendControl (inRow s j) (ringOfRoute s j.route j.rhb) (downPacket type j.rhb j.route data) := rfl
  rw [sendRequest]
  simp only [same, leaves]
  rfl

variable (s j type q data) in
theorem requested_keeps : ∃ u, MateKeeps (inRow s j) u ∧ PhaseKeeps u (requested s j type q data) ∧ (requested s j type q data).hif.reqs = s.hif.reqs ++
    [⟨j.id, ringOfRoute s j.route j.rhb, q, j.route, j.rhb, owedBy s (ringOfRoute s j.route j.rhb) j.route⟩] := by
  have sent := sendControl_mate (inRow s j) (ringOfRoute s j.route j.rhb) (downPacket type j.rhb j.route data)
  refine ⟨_, sent, addRequest_phase _ _, ?_⟩
  exact congrArg (· ++ _) sent.host.reqs

end

theorem exec_regWrite (n : Fin 16) (d : Option (List Byte)) (s : State) :
    exec (.regWrite n d) s = ordinary (linked fun s => runDesc s n.val 3 fun s j => runRegWrite s j d) s := rfl

section
variable {s : State} {n : Fin 16} {j : Job} (h : InHand s n.val 4 j) (away : isLocal j = false)
include h away

/-- REG_READ of a route that is not well formed ends 3. -/
theorem regRead_badRoute (bad : routeOk s j.route j.rhb = false) : Runs (.regRead n) s fun t => Completes s t n.val j (j.record 3) := by
  have effect : runRegRead (inRow s j) j.taken = finishWith (inRow s j) j.taken (j.record 3) :=
    (if_neg (Bool.eq_false_iff.1 away)).trans (if_pos (congrArg not bad))
  obtain ⟨t, run, -, ends⟩ := inHand_finishes h n.isLt effect (.refl _)
  exact ⟨t, (exec_regRead n s).trans run, ends⟩

/-- REG_READ that leaves this device notes its request. -/
theorem regRead_requests {p : List Byte} {q : Nat} (good : routeOk s j.route j.rhb = true)
    (body : p = bytesBE 4 (leAt j.bytes 16 4) ++ bytesBE 1 (leAt j.bytes 20 1) ++ bytesBE 1 (leAt j.bytes 21 1) ++ bytesBE 2 0)
    (leaves : (sendControl s (ringOfRoute s j.route j.rhb) (downPacket 3 j.rhb j.route p)).2 = some q) :
    Runs (.regRead n) s fun t => t.hif.reqs = s.hif.reqs ++
      [⟨j.id, ringOfRoute s j.route j.rhb, q, j.route, j.rhb, owedBy s (ringOfRoute s j.route j.rhb) j.route⟩] := by
  have effect : runRegRead (inRow s j) j.taken = requested s j 3 q p := by
    rw [runRegRead, if_neg (by rw [show isLocal j.taken = false from away]; decide),
      if_neg (by rw [show routeOk (inRow s j) j.taken.route j.taken.rhb = true from good]; decide)]
    dsimp only
    rw [show j.taken.bytes = j.bytes from rfl, ← body, sendRequest_leaves leaves]
    rfl
  obtain ⟨u, sent, noted, reqs⟩ := requested_keeps s j 3 q p
  obtain ⟨t, run, rep, -⟩ := inHand_runs h effect (sent.host.off.trans noted.off) (noHeadWaits_phase (sent.host.idle (inRow_idle h)) noted)
  refine ⟨t, (exec_regRead n s).trans run, ?_⟩
  beta_reduce
  rw [rep.hif, (cplTell_host _).reqs, reqs]

end

theorem inRow_seen {s : State} (j : Job) (still : linkCheck s = s) : pairEn (inRow s j) = false ∨ mirrorUp (inRow s j) = (inRow s j).pair.wasUp := by
  have member : pairEn (inRow s j) = pairEn s := rfl
  have up : mirrorUp (inRow s j) = mirrorUp s := rfl
  have pair : (inRow s j).pair = s.pair := rfl
  rw [member, up, pair]
  exact linkCheck_settled still

section
variable {s : State} {n : Fin 16} {j : Job} (h : InHand s n.val 3 j) (away : isLocal j = false) (few : leAt j.bytes 20 1 ≤ 8) (data : Option (List Byte))
  (still : linkCheck s = s)
include h away few still

/-- REG_WRITE of a route that is not well formed ends 3. -/
theorem regWrite_badRoute (bad : routeOk s j.route j.rhb = false) : Runs (.regWrite n data) s fun t => Completes s t n.val j (j.record 3) := by
  have effect : runRegWrite (inRow s j) j.taken data = finishWith (inRow s j) j.taken (j.record 3) := by
    rw [runRegWrite]
    simp only [show j.taken.bytes = j.bytes from rfl, if_pos few, withData]
    exact (if_neg (Bool.eq_false_iff.1 away)).trans (if_pos (congrArg not bad))
  have last := finishWith_phase (inRow s j) j.taken (j.record 3)
  have seen := inRow_seen j still
  obtain ⟨v, t, host, run, rep, out⟩ := inHand_linked (f := fun s j => runRegWrite s j data) h effect last.off (noHeadWaits_phase (inRow_idle h) last)
    (by rwa [last.pairEn, last.mirrorUp, last.pair])
  exact ⟨t, (exec_regWrite n data s).trans run, linked_completes (finishWith_completes _ (j.record 3) h.ring n.isLt) host rep out⟩

/-- An acknowledged REG_WRITE that leaves this device notes its request. -/
theorem regWrite_requests {p : List Byte} {q : Nat} (ack : bitAt (leAt j.bytes 21 1) 0 = true) (good : routeOk s j.route j.rhb = true)
    (body : p = bytesBE 4 (leAt j.bytes 16 4) ++ bytesBE 1 (leAt j.bytes 20 1) ++ bytesBE 1 (leAt j.bytes 21 1) ++ bytesBE 2 0 ++
      (wordsLE (leAt j.bytes 20 1) (slice j.bytes 32 (4 * leAt j.bytes 20 1))).flatMap (bytesBE 4))
    (leaves : (sendControl s (ringOfRoute s j.route j.rhb) (downPacket 2 j.rhb j.route p)).2 = some q) :
    Runs (.regWrite n data) s fun t => t.hif.reqs = s.hif.reqs ++
      [⟨j.id, ringOfRoute s j.route j.rhb, q, j.route, j.rhb, owedBy s (ringOfRoute s j.route j.rhb) j.route⟩] := by
  have effect : runRegWrite (inRow s j) j.taken data = requested s j 2 q p := by
    rw [runRegWrite]
    simp only [show j.taken.bytes = j.bytes from rfl, if_pos few, withData, ack, if_true]
    rw [if_neg (by rw [show isLocal j.taken = false from away]; decide),
      if_neg (by rw [show routeOk (inRow s j) j.taken.route j.taken.rhb = true from good]; decide), ← body, sendRequest_leaves leaves]
    rfl
  obtain ⟨u, sent, noted, reqs⟩ := requested_keeps s j 2 q p
  have seen := inRow_seen j still
  obtain ⟨v, t, host, run, rep, -⟩ := inHand_linked (f := fun s j => runRegWrite s j data) h effect (sent.host.off.trans noted.off)
    (noHeadWaits_phase (sent.host.idle (inRow_idle h)) noted)
    (by rwa [noted.pairEn, noted.mirrorUp, noted.pair, sent.pairEn, sent.mirrorUp, sent.was])
  refine ⟨t, (exec_regWrite n data s).trans run, ?_⟩
  beta_reduce
  rw [rep.hif, host.reqs, (cplTell_host _).reqs, reqs]

end

end Sys2Proof.Machine
end

section
/-! PROOF. What a write of LANE leaves of the host interface and the pair (O56; R44, R47, R310, R315): the marks of the heads, and whether the device is
in a pair. -/
namespace Sys2Proof.Machine

/-- RED_CFG and the marks of the heads. -/
def keyRegs (a : Nat) : Prop := a = R.RED_CFG ∨ ∃ n, a = R.HIF_CR_STAT n

/-- The blocks of those registers. -/
theorem keyRegs_block {a : Nat} (h : keyRegs a) : a / 65536 = 15 ∨ a / 65536 = 3 := by
  rcases h with rfl | ⟨n, rfl⟩
  · exact .inl (by decide)
  · exact .inr (by simp)

/-- A step that leaves these registers and the straps. -/
structure KeyKeeps (s t : State) : Prop where
  strap : t.strap = s.strap
  reg : ∀ a, keyRegs a → t.reg a = s.reg a

theorem KeyKeeps.refl (s : State) : KeyKeeps s s := ⟨rfl, fun _ _ => rfl⟩

theorem KeyKeeps.trans {s t u : State} (h : KeyKeeps s t) (g : KeyKeeps t u) : KeyKeeps s u :=
  ⟨g.strap.trans h.strap, fun a key => (g.reg a key).trans (h.reg a key)⟩

theorem KeyKeeps.ite {c : Prop} [Decidable c] {s t u : State} (ht : KeyKeeps s t) (hu : KeyKeeps s u) : KeyKeeps s (if c then t else u) := by
  split
  · exact ht
  · exact hu

theorem KeyKeeps.of_within {W : Nat → Nat → Prop} {s t : State} (h : Within W s t) (off : ∀ a i, W a i → a / 65536 ≠ 3 ∧ a / 65536 ≠ 15) : KeyKeeps s t :=
  ⟨h.strap, fun a key => h.reg fun i bit => by
    have other := off a i bit
    have block := keyRegs_block key
    omega⟩

theorem KeyKeeps.of_regs {s t : State} (strap : t.strap = s.strap) (regs : t.regs = s.regs) : KeyKeeps s t := ⟨strap, fun a _ => State.reg_congr strap regs a⟩

theorem KeyKeeps.setReg (s : State) (a v : Nat) (block : a / 65536 ≠ 3 ∧ a / 65536 ≠ 15) : KeyKeeps s (s.setReg a v) :=
  ⟨rfl, fun b key => s.reg_setReg_ne v (by
    rintro rfl
    have := keyRegs_block key
    omega)⟩

theorem KeyKeeps.wr (s : State) (f : FRef) (v : Nat) (block : f.addr / 65536 ≠ 3 ∧ f.addr / 65536 ≠ 15) : KeyKeeps s (s.wr f v) := .setReg s f.addr _ block

theorem PhaseKeeps.key {s t : State} (h : PhaseKeeps s t) : KeyKeeps s t :=
  ⟨h.strap, fun a key => h.reg fun m => by
    rcases key with rfl | ⟨n, rfl⟩
    · simp only [R.RED_CFG, R.HIF_CP_PROD]
      omega
    · simp only [R.HIF_CR_STAT, R.HIF_CP_PROD]
      omega⟩

theorem KeyKeeps.pairEn {s t : State} (h : KeyKeeps s t) : pairEn t = pairEn s := by
  simp only [Machine.pairEn, State.isSender, State.on, State.rd, h.reg _ (.inl rfl), h.strap]

theorem KeyKeeps.marks {s t : State} (h : KeyKeeps s t) (n : Nat) : t.on (F.HIF_CR_STAT_WAITING n) = s.on (F.HIF_CR_STAT_WAITING n) := by
  rw [State.on, State.rd, h.reg _ (.inr ⟨n, rfl⟩), State.on, State.rd]

theorem raise_key (s : State) (k : Nat) (d : List Byte) : KeyKeeps s (raise s k d) := (raise_phase s k d).key

theorem modPort_key (s : State) (p : Nat) (f : Port → Port) : KeyKeeps s (s.modPort p f) := .of_regs rfl rfl

theorem modNi_key (s : State) (f : Ni → Ni) : KeyKeeps s (s.modNi f) := .of_regs rfl rfl

theorem reported_key (s : State) (k : Nat) : KeyKeeps s (s.reported k) := .of_regs rfl rfl

theorem sent_key (s : State) (l : List Output) : KeyKeeps s { s with out := l } := .of_regs rfl rfl

theorem moveBits_key (a i : Nat) (h : moveBits a i) : a / 65536 ≠ 3 ∧ a / 65536 ≠ 15 := by
  simp only [moveBits, fallBits, bypBits, R.CL_MYPOS, R.CL_PCFG, R.CL_BYP] at h
  omega

theorem clkBits_key (a i : Nat) (h : clkBits a i) : a / 65536 ≠ 3 ∧ a / 65536 ≠ 15 := by
  simp only [clkBits, R.CL_CLKSRC, R.WT_FSTAT, R.CKG_STAT] at h
  omega

/-- The lane PLL's reference and the switch after a lane's loss. -/
theorem laneLost_key (s : State) : KeyKeeps s (laneLost (clkUpdate s)) :=
  (KeyKeeps.of_within (clkUpdate_within s) clkBits_key).trans (.of_within (laneLost_moves _) moveBits_key)

theorem fallBack_key (s : State) (p st : Nat) : KeyKeeps s (fallBack s p st) := .of_within (fallBack_moves s p st) moveBits_key

theorem laneLoss_key (s : State) (n : Nat) : KeyKeeps s (laneLoss s n 1 none) := by
  have cleared (o : Option Nat) : KeyKeeps s (laneClear s n 1 o) := .of_within (laneClear_within_one s n o) fun a i bit => by
    obtain ⟨block, -, -⟩ := bit
    omega
  unfold laneLoss
  split
  · rename_i p _
    have falls := (((cleared (some p)).trans (modPort_key _ p fun x => { x with inPacket := none })).trans (raise_key _ (laneSrc n 0) [])).trans (fallBack_key _ p 1)
    exact .ite (.refl s) (.ite ((cleared _).trans (laneLost_key _)) (falls.trans (laneLost_key _)))
  · exact .ite ((cleared none).trans (raise_key _ _ _)) (.refl s)

theorem laneWrote_key (s : State) (a old : Nat) : KeyKeeps s (laneWrote s a old) := by
  unfold laneWrote
  dsimp only
  split
  · exact .ite (laneLoss_key s _) (.refl s)
  · refine .ite (.refl s) (.ite ((KeyKeeps.of_within (hiberDown_moves s _) moveBits_key).trans (laneLost_key _)) ?_)
    split
    · exact .ite (.of_within (blockSettled_moves s _) moveBits_key) (.refl s)
    · exact .refl s
  · exact .refl s

theorem niJudge_key (old s : State) : KeyKeeps s (niJudge old s) := by
  unfold niJudge forIdx
  generalize List.range 4 = l
  induction l generalizing s with
  | nil => exact .refl s
  | cons n l ih =>
    have judged : KeyKeeps s (if s.on (F.NI_PCFG_EN n) && !(niConfigOk s n) && !(old.on (F.NI_PCFG_EN n) && !(niConfigOk old n))
        then raise ((s.wr (F.NI_PSTAT_LINK n) 0).wr (F.NI_PSTAT_FEC_LOCK n) 0) 241 (d2 n 4) else s) :=
      .ite (((KeyKeeps.wr s (F.NI_PSTAT_LINK n) 0 (by simp)).trans (.wr _ (F.NI_PSTAT_FEC_LOCK n) 0 (by simp))).trans (raise_key _ 241 _)) (.refl s)
    exact judged.trans (ih _)

theorem niTell_key (s : State) : KeyKeeps s (niTell s) := by
  have told (s : State) (n : Nat) (f : Ni → Ni) : KeyKeeps s (((raise s n (d2 0 0)).reported n).modNi f) :=
    ((raise_key s n _).trans (reported_key _ n)).trans (modNi_key _ f)
  unfold niTell
  extract_lets s1
  have received : KeyKeeps s s1 := .ite (told s 256 _) (.refl s)
  exact .ite (received.trans (told s1 259 _)) received

theorem htxComplete_key (s : State) (d : List Byte) (status : Nat) : KeyKeeps s (htxComplete s d status) := by
  unfold htxComplete
  extract_lets head base ts desc s1
  have moved : KeyKeeps s s1 := (modNi_key s fun x => { x with htx := x.htx.drop 1, htxDirty := true }).trans
    (.wr _ F.NI_HTX_HEAD_HEAD _ (by decide))
  exact (moved.trans (sent_key s1 _)).trans (niTell_key _)

theorem htxRun_key (k : Nat) (s : State) : KeyKeeps s (htxRun k s) := by
  induction k generalizing s with
  | zero => exact .refl s
  | succ k ih =>
    unfold htxRun
    split
    · exact .refl s
    · exact .ite (.refl s) (.ite ((htxComplete_key s _ 2).trans (ih _)) (.ite ((htxComplete_key s _ 1).trans (ih _)) (.refl s)))

theorem written_key (s : State) {a : Nat} (e : WordEffect) (h : a / 65536 = 5) : KeyKeeps s (written s a e) := by
  have put : KeyKeeps s (s.setReg a e.live) := .setReg s a _ (by omega)
  unfold written openWrite
  exact .ite put (put.trans (.of_regs rfl rfl))

theorem wrote_lane_key (s : State) {a : Nat} (old acts : Nat) (h : a / 65536 = 5) : KeyKeeps s (wrote s a old acts) := by
  have follows : wrote s a old acts = htxRun 4096 (niJudge (s.setReg a old) (laneWrote s a old)) := by simp only [wrote, clWrote, h, if_true]
  rw [follows]
  exact ((laneWrote_key s a old).trans (niJudge_key _ _)).trans (htxRun_key _ _)

theorem putWord_lane_key (s : State) {a : Nat} (w : Nat) (h : a / 65536 = 5) : KeyKeeps s (putWord s a w false).1 := by
  cases found : findReg a with
  | none =>
    have offMask : ¬ (0x30800 ≤ a ∧ a < 0x30840 ∧ a % 4 = 0) := by omega
    have nothing : putWord s a w false = (s, false) := by
      simp only [putWord, found]
      rw [if_neg (by simpa using offMask)]
    rw [nothing]
    exact .refl s
  | some r =>
    obtain ⟨acts, put⟩ := putWord_lane s w found h
    rw [put]
    exact (written_key s _ h).trans (wrote_lane_key _ _ _ h)

theorem busWrite_lane_key (s : State) {a : Nat} (w : Nat) (h : a / 65536 = 5) : KeyKeeps s (busWrite s .packet a w).1 := by
  by_cases on : addrOn s.strap.role a = true ∧ a % 4 = 0
  · rw [busWrite_lane w on.1 on.2 h]
    have put := putWord_lane_key s w h
    refine .ite (put.trans ?_) put
    exact (raise_key _ 0 _).trans (.wr _ F.SYS_CSTAT_QREJ_CNT _ (by decide))
  · have nothing : busWrite s .packet a w = (s, false) := if_pos (by simpa [Decidable.not_and_iff_not_or_not, imp_iff_not_or] using on)
    rw [nothing]
    exact .refl s

/-! REG_WRITE and TABLE_LOAD of a LANE register of this device (R310, R311, R315). -/

/-- No register of LANE is mirrored, so a descriptor writes it as a packet does. -/
theorem busWrite_local (s : State) {a : Nat} (w : Nat) (h : a / 65536 = 5) : busWrite s .local a w = busWrite s .packet a w := by
  have own : mirrored a = false := by
    have leads : ((List.range 8).any fun n => a == R.WT_RCFG n) = false := List.any_eq_false.2 fun n _ => by
      simp only [beq_iff_eq, R.WT_RCFG]
      omega
    simp only [mirrored, leads, R.SYS_COMMIT, R.CL_SLOT, R.CL_ORDER, R.CL_ECHO, R.WT_FCFG, R.XA_CTL, R.XA_AUTO, R.NI_CTL, R.NI_TIMERS, R.RED_TIMERS,
      R.RED_REVERT, Bool.or_eq_false_iff, beq_eq_false_iff_ne, Bool.and_eq_false_iff, decide_eq_false_iff_not, and_true]
    omega
  have touch : busTouch s .local a = busTouch s .packet a := rfl
  unfold busWrite
  simp only [own, Bool.and_false, Bool.false_and, touch]
  rfl

/-- Rate changes that start take no job up and leave the marks of the heads. -/
theorem autoStart_key (k : Nat) (s : State) : KeyKeeps s (autoStart k s) ∧ ∀ j ∈ (autoStart k s).hif.jobs, j ∈ s.hif.jobs := by
  induction k generalizing s with
  | zero => exact ⟨.refl s, fun _ => id⟩
  | succ k ih =>
    unfold autoStart
    split
    next r code l x _ _ =>
      extract_lets d init v s0 xa0 s1
      obtain ⟨key, jobs⟩ := ih (startXid s1 x ((s.gen r).next + autoFrames s - 1))
      have started := startXid_phase s1 x ((s.gen r).next + autoFrames s - 1)
      have put : KeyKeeps s s1 := .of_regs rfl rfl
      exact ⟨(put.trans started.key).trans key, fun j mem => started.jobs j (jobs j mem)⟩
    · exact ⟨.refl s, fun _ => id⟩

/-- A second look where no head waits takes no job up. -/
theorem retryHeads_key {s : State} (heads : ∀ n : Fin 16, s.on (F.HIF_CR_STAT_WAITING n.val) = false) :
    KeyKeeps s (retryHeads s) ∧ ∀ j ∈ (retryHeads s).hif.jobs, j ∈ s.hif.jobs := by
  obtain ⟨key, jobs⟩ := autoStart_key 8 s
  have row : retryHeads s = cplTell (autoStart 8 s) := by
    rw [retryHeads, forIdx_still fun i small => tryHead_awake ((key.marks i).trans (heads ⟨i, small⟩))]
  rw [row]
  exact ⟨key.trans (cplTell_phase _).key, fun j mem => jobs j (cplTell_jobs (autoStart 8 s) ▸ mem)⟩

theorem finishReg_ends (s : State) (j : Job) : ∃ r, finishReg s j = finishWith s j r := by
  unfold finishReg
  dsimp only
  split
  · exact ⟨_, rfl⟩
  · split
    · split
      · exact ⟨_, rfl⟩
      · exact ⟨_, rfl⟩
    · exact ⟨_, rfl⟩

/-- A register descriptor for this device ends with the status that its accesses had. -/
theorem finishLocal_ends (s : State) (j : Job) (rej : Bool) (n : Nat) (words : List Nat) :
    ∃ (k : Job) (r : CplRec), k.id = j.id ∧ finishLocal s j rej n words = finishWith s k r := by
  obtain ⟨r, ends⟩ := finishReg_ends s { j with rsp := if rej then 2 else 0, count := n, parts := n, words := words, answered := true }
  exact ⟨_, r, rfl, ends⟩

theorem finishWith_gone (s : State) (k : Job) (r : CplRec) : ∀ i ∈ (finishWith s k r).hif.jobs, i.id ≠ k.id := by
  intro i mem
  rw [finishWith, postCpl_jobs] at mem
  simpa using (List.mem_filter.1 mem).2

/-- What the writes of a LANE descriptor leave, as the end of its row rests on it. -/
structure LaneEffect (s t : State) : Prop where
  keeps : WriteKeeps s t
  key : KeyKeeps s t
  pos : t.on F.CL_MYPOS_VALID = true → s.on F.CL_MYPOS_VALID = true

theorem LaneEffect.trans {s t u : State} (h : LaneEffect s t) (g : LaneEffect t u) : LaneEffect s u :=
  ⟨h.keeps.trans g.keeps, h.key.trans g.key, fun k => h.pos (g.pos k)⟩

theorem busWrite_laneEffect (s : State) {a : Nat} (w : Nat) (h : a / 65536 = 5) : LaneEffect s (busWrite s .local a w).1 := by
  rw [busWrite_local s w h]
  obtain ⟨keeps, pos, -⟩ := busWrite_laneWritten s w h
  exact ⟨keeps, busWrite_lane_key s w h, pos⟩

/-- The row of a descriptor in hand that writes LANE and ends: its job is gone and LANE holds what the writes gave. -/
theorem laneDescriptor_runs {s b : State} {n ty : Nat} {j : Job} {rej : Bool} {words : List Nat} {f : State → Job → State} (h : InHand s n ty j)
    (alone : pairEn s = false) (wrote : LaneEffect (inRow s j) b) (effect : f (inRow s j) j.taken = finishLocal b j.taken rej 1 words) :
    ∃ t, ordinary (linked fun s => runDesc s n ty f) s = .next t ∧ (∀ k ∈ t.hif.jobs, k.id ≠ j.id) ∧ ∀ a, a / 65536 = 5 → t.reg a = b.reg a := by
  obtain ⟨k, r, same, ends⟩ := finishLocal_ends b j.taken rej 1 words
  have row : linked (fun s => runDesc s n ty f) s = linkCheck (retryHeads (finishWith b k r)) := by rw [linked, runDesc_inHand h, effect, ends]
  have last := finishWith_phase b k r
  have key := wrote.key.trans last.key
  have heads (m : Fin 16) : (finishWith b k r).on (F.HIF_CR_STAT_WAITING m.val) = false := (key.marks m).trans ((inRow_idle h).1 m)
  obtain ⟨retried, jobs⟩ := retryHeads_key heads
  have single : pairEn (retryHeads (finishWith b k r)) = false := (key.trans retried).pairEn.trans alone
  have host := linkCheck_host single
  have link : LinkKeeps b (linkCheck (retryHeads (finishWith b k r))) := ((finishWith_keeps b k r).trans (retryHeads_keeps _)).trans (linkCheck_keeps _)
  obtain ⟨t, run, rep⟩ := ordinary_runs (linked fun s => runDesc s n ty f) s
    (by rw [row]; exact link.strap.trans wrote.keeps.strap) (by rw [row]; exact link.pending.trans wrote.keeps.pending)
    (by rw [row]; exact link.tap.trans wrote.keeps.tap) (by rw [row]; exact congrArg Upd.flash (link.upd.trans wrote.keeps.upd))
    (by rw [row]; exact fun on => wrote.pos ((AccessKeeps.of_link link).pos on))
  rw [row] at rep
  refine ⟨t, run, fun i mem => ?_, fun a lane => ?_⟩
  · rw [rep.hif, host.jobs] at mem
    have gone := finishWith_gone b k r i (jobs i mem)
    rwa [same] at gone
  · rw [rep.reg, link.reg a (not_linkBlock_lane lane)]

theorem wordsLE_one (b : List Byte) (o : Nat) : wordsLE 1 (slice b o 4) = [leAt b o 4] := by
  rw [wordsLE, wordsLE, leAt, slice_slice, leAt]

/-- REG_WRITE of one word of a LANE register of this device puts it down and ends. -/
theorem regWrite_puts {s : State} {n : Fin 16} {j : Job} {r : RegSpec} (h : InHand s n.val 3 j) (alone : pairEn s = false) (data : Option (List Byte))
    (here : isLocal j = true) (one : leAt j.bytes 20 1 = 1) (aligned : leAt j.bytes 16 4 % 4 = 0) (on : addrOn s.strap.role (leAt j.bytes 16 4) = true)
    (lane : leAt j.bytes 16 4 / 65536 = 5) (found : findReg (leAt j.bytes 16 4) = some r) :
    Runs (.regWrite n data) s fun t => (∀ k ∈ t.hif.jobs, k.id ≠ j.id) ∧ t.reg (leAt j.bytes 16 4) =
      (wordEffect r (s.reg (leAt j.bytes 16 4)) (leAt j.bytes 32 4) (!(blockDisabled s (leAt j.bytes 16 4))) false).live % 2 ^ 32 := by
  have words : writeWords (inRow s j) .local (leAt j.bytes 16 4) (if bitAt (leAt j.bytes 21 1) 1 then 4 else 0) [leAt j.bytes 32 4] =
      busWrite (inRow s j) .local (leAt j.bytes 16 4) (leAt j.bytes 32 4) := by
    simp [writeWords]
  have effect : runRegWrite (inRow s j) j.taken data = finishLocal (busWrite (inRow s j) .local (leAt j.bytes 16 4) (leAt j.bytes 32 4)).1 j.taken
      (busWrite (inRow s j) .local (leAt j.bytes 16 4) (leAt j.bytes 32 4)).2 1 [] := by
    rw [runRegWrite]
    simp only [show j.taken.bytes = j.bytes from rfl, one, withData, Nat.mul_one, if_pos (show 1 ≤ 8 by decide), wordsLE_one]
    rw [if_pos (show isLocal j.taken = true from here), words]
  have put := busWrite_lane_reg (s := inRow s j) (leAt j.bytes 32 4) on aligned lane found
  rw [← busWrite_local _ _ lane] at put
  obtain ⟨t, run, gone, regs⟩ := laneDescriptor_runs (f := fun s j => runRegWrite s j data) h alone (busWrite_laneEffect _ _ lane) effect
  exact ⟨t, (exec_regWrite n data s).trans run, gone, (regs _ lane).trans put⟩

theorem exec_tableLoad (n : Fin 16) (d : Option (List Byte)) (s : State) :
    exec (.tableLoad n d) s = ordinary (linked fun s => runDesc s n.val 5 fun s j => runTableLoad s j d) s := rfl

/-- TABLE_LOAD of 8 bytes from a LANE register of this device puts its first word down, whatever the second does, and ends. -/
theorem tableLoad_puts {s : State} {n : Fin 16} {j : Job} {r : RegSpec} (h : InHand s n.val 5 j) (alone : pairEn s = false) (d : List Byte)
    (here : isLocal j = true) (eight : leAt j.bytes 20 4 = 8) (aligned : leAt j.bytes 16 4 % 8 = 0) (on : addrOn s.strap.role (leAt j.bytes 16 4) = true)
    (lane : leAt j.bytes 16 4 / 65536 = 5) (found : findReg (leAt j.bytes 16 4) = some r) :
    Runs (.tableLoad n (some d)) s fun t => (∀ k ∈ t.hif.jobs, k.id ≠ j.id) ∧ t.reg (leAt j.bytes 16 4) =
      (wordEffect r (s.reg (leAt j.bytes 16 4)) (leAt d 0 4) (!(blockDisabled s (leAt j.bytes 16 4))) false).live % 2 ^ 32 := by
  generalize addr : leAt j.bytes 16 4 = a at *
  have next : (a + 4) / 65536 = 5 := by omega
  let s1 := (busWrite (inRow s j) .local a (leAt d 0 4)).1
  have first := busWrite_laneEffect (inRow s j) (leAt d 0 4) lane
  have second := busWrite_laneEffect s1 (leAt (d.drop 4) 0 4) next
  have effect : runTableLoad (inRow s j) j.taken (some d) = finishLocal (busWrite s1 .local (a + 4) (leAt (d.drop 4) 0 4)).1 j.taken
      ((busWrite (inRow s j) .local a (leAt d 0 4)).2 || (busWrite s1 .local (a + 4) (leAt (d.drop 4) 0 4)).2) 1 [] := by
    have words : wordsLE (8 / 4) d = [leAt d 0 4, leAt (d.drop 4) 0 4] := rfl
    rw [runTableLoad]
    simp only [show j.taken.bytes = j.bytes from rfl, addr, eight, withData, words, writeWords_two]
    exact if_pos here
  have put := busWrite_lane_reg (s := inRow s j) (leAt d 0 4) on (by omega) lane found
  rw [← busWrite_local _ _ lane] at put
  have stays : (busWrite s1 .local (a + 4) (leAt (d.drop 4) 0 4)).1.reg a = s1.reg a := by
    rw [busWrite_local _ _ next]
    exact (busWrite_laneWritten s1 _ next).lane a lane (by omega) (by omega)
  obtain ⟨t, run, gone, regs⟩ := laneDescriptor_runs (f := fun s j => runTableLoad s j (some d)) h alone (first.trans second) effect
  exact ⟨t, (exec_tableLoad n (some d) s).trans run, gone, (regs _ lane).trans (stays.trans put)⟩

/-- Settles O56, clause by clause: a descriptor in hand runs in its ring's row; what it ends is read back through the records, what it starts through the
part of the state that it notes it in. -/
theorem descriptorsActOnTheDevice : Obligations.DescriptorsActOnTheDevice := by
  unfold Obligations.DescriptorsActOnTheDevice
  refine ⟨?regWrite, ?regRead, ?away, ?tableLoad, ?flip, ?alone, ?map, ?begin_, ?add, ?commit, ?update⟩
  case regWrite => exact fun n j data r s h alone here one aligned on lane found => regWrite_puts h alone data here one aligned on lane found
  case regRead => exact fun n j s h here one whole aligned on lane free => regRead_shows h here one whole aligned on lane free
  case away =>
    refine fun n j data s away few => ⟨fun h => ⟨regRead_badRoute h away, fun p q good body leaves => regRead_requests h away good body leaves⟩, ?_⟩
    exact fun h ack still => ⟨regWrite_badRoute h away few data still, fun p q good body leaves => regWrite_requests h away few data still ack good body leaves⟩
  case tableLoad => exact fun n j d r s h alone here eight aligned on lane found => tableLoad_puts h alone d here eight aligned on lane found
  case flip => exact fun n j s h ring => ⟨layerFlip_refused h ring, layerFlip_pends h ring⟩
  case alone => exact fun n j s h single mask layer fill unsealed => layerFlip_alone h single mask layer fill unsealed
  case map => exact fun n j d s h => ⟨mapLoad_refused h, mapLoad_pends h⟩
  case begin_ => exact fun n j s h => xaBegin_ends n h _
  case add => exact fun n j s h => ⟨xaAdd_refused n h, xaAdd_notes n h⟩
  case commit =>
    exact fun n j s h => ⟨xaCommit_stranger h, xaCommit_aborted h, xaCommit_empty h, fun f building dests target => xaCommit_starts h building dests target⟩
  case update => exact fun n j d s h here => updateBlock_answers d h here

end Sys2Proof.Machine
end
